-- ==== Sys2Proof/Word.lean ====
section
/-! DEFINITION. Bytes, byte strings, sparse memories and tables: the plain data every part of the model is made of. -/

namespace Sys2Proof

/-- A byte. -/
abbrev Byte := BitVec 8

/-- A string of bytes, offset 0 first. -/
abbrev Bytes := List (BitVec 8)

/-- A sparse memory: (address, byte) pairs, addresses strictly rising, no byte equal to 0, which is what an unlisted
address of an object reads as (R236: ALLOC zero-fills). -/
abbrev Mem := List (Nat × BitVec 8)

/-- A table by number: keys strictly rising. -/
abbrev Tab (α : Type) := List (Nat × α)

end Sys2Proof
end

