-- ==== Sys2Proof/Syntax.lean ====
section
/-! DEFINITION. The commands of the block: one constructor of Instr per row of spec/opcode_table.json.
What the node takes from its surroundings (host memory, flash outcomes, sensors, frames, pins) stands in
the command as an operand, as R399 lists the node's external inputs. -/

namespace Sys2Proof

/-- a candidate as it travels between stages (R115) -/
structure Hit where
  /-- vector ID, centroid, expert or key index (R115). -/
  payload : Nat := 0
  /-- FP32 or INT32 bits (R115). -/
  score : Nat := 0
  /-- node that scored it (R115). -/
  node : Nat := 0
  /-- logical tile (R115). -/
  tile : Nat := 0
  /-- position of its list in the probe list (R115). -/
  rank : Nat := 0
  /-- position in its list or index in the row (R115). -/
  pos : Nat := 0
  /-- list ID (R115). -/
  list : Nat := 0
  deriving DecidableEq, Repr

/-- a sum accumulator with its infinity flags (R124) -/
structure Acc where
  /-- finite part in units of 2^-149 (R124). -/
  v : Int := 0
  /-- +infinity among the scores (R124). -/
  pinf : Bool := false
  /-- -infinity among the scores (R124). -/
  ninf : Bool := false
  deriving DecidableEq, Repr

/-- a selection with its sums: what a child buffer of the stook holds (R130) -/
structure Part where
  /-- entries, best first (R130). -/
  hits : List Hit := []
  /-- selected accumulator (R130). -/
  sel : Acc := {}
  /-- left-out accumulator (R130). -/
  rest : Acc := {}
  /-- NaN count (R130). -/
  nan : Nat := 0
  deriving DecidableEq, Repr


/-- What the MAC and the network layer find of a frame that comes in (R341, R369): a TFT frame in UDP with a good or a bad checksum, a PAUSE or
priority-flow-control frame, a frame with a VLAN tag, an IP fragment. -/
inductive FrameForm where
  | good
  | badSum
  | pause
  | vlan
  | fragment
  deriving DecidableEq, Repr

/-- A stage of a sheaf, as a partial list's header names it (R130). -/
structure StageRef where
  sheaf : Nat
  stage : Nat
  deriving DecidableEq, Repr

/-- What identification finds of one LUN (R254, R275 step 5): its channel, its number (chip enable × 8 + LUN),
parameter-page bytes 44 to 63 and byte 64, capacity, blocks, page data size, spare bytes of a page, bits of a bulk cell (3 TLC, 4 QLC), whether
it has an SLC mode. -/
structure LunId where
  ch : Nat := 0
  lun : Nat := 0
  maker : Nat := 0
  model : Bytes := []
  bytes : Nat := 0
  blocks : Nat := 0
  page : Nat := 16384
  spare : Nat := 2208
  bits : Nat := 3
  slc : Bool := true
  good : Bool := true
  /-- blocks that identification finds bad -/
  bad : List Nat := []
  deriving DecidableEq, Repr

/-- Which read of host memory an error concerns (R320, R324): an SQ entry, a command's data, or the DMA source
of the Zalpol command a mailbox carries. -/
inductive HostSrc where
  | sqEntry (qp : Nat)
  | cmd (n : Nat)
  | zalpol (box : Nat)
  deriving DecidableEq, Repr

/-- The outcome of reading one flash unit (R263): the step that decoded (1 hard decode, 2 to 9 the retry ladder,
10 soft decode, 11 none) and the corrected bits. -/
structure UnitRead where
  unit : Nat := 0
  decode : Nat := 1
  corrected : Nat := 0
  deriving DecidableEq, Repr

/-- A unit's move between physical locations (R267), and what moved it: 0 fold, 1 relocation or garbage collection,
2 wear levelling, 3 channel drain. -/
structure UnitMove where
  fromBlk : Nat := 0
  fromPage : Nat := 0
  toBlk : Nat := 0
  toPage : Nat := 0
  cause : Nat := 0
  deriving DecidableEq, Repr

/-- What a recovery phase finds (R425, R426, R272): trained channels with their rates, the LUNs identified, the tenants whose
wrapped key cannot be read, and whether the boot-count copies and the object table can be read. -/
structure PhaseIn where
  chans : List (Nat × Nat) := []
  luns : List LunId := []
  badKeys : List Nat := []
  bootOk : Bool := true
  tableOk : Bool := true
  deriving DecidableEq, Repr

/-- A known-answer mismatch (R383): kind 0 tile (unit = cluster, physical slot), 1 culm (stack, physical slot),
2 crossing lane, 3 log ring (island). -/
structure BadUnit where
  kind : Nat := 0
  unit : Nat := 0
  phys : Nat := 0
  pattern : Nat := 0
  expected : Nat := 0
  observed : Nat := 0
  deriving DecidableEq, Repr

/-- The commands: one constructor per row of spec/opcode_table.json. -/
inductive Instr where
  /-- SQ_TAIL_DOORBELL (R313): Host writes a submission-queue tail doorbell; the node checks the value and records the new tail or ignores it and sets doorbell_invalid. -/
  | sqTailDoorbell (fn : Nat) (index : Nat) (value : Nat)
  /-- CQ_HEAD_DOORBELL (R313): Host writes a completion-queue head doorbell; the node checks it against the valid range and releases the CQ slots or ignores it. -/
  | cqHeadDoorbell (fn : Nat) (index : Nat) (value : Nat)
  /-- SQ_ENTRY_FETCH (R314): The queue engine fetches a submission entry between head and the latest tail it has seen. -/
  | sqEntryFetch (qp : Nat) (entry : Bytes)
  /-- COMMAND_ADMISSION (R31): The queue engine admits the next entry of a submission queue: steering lookup, epoch binding, range-lock check and dispatch to the head stage. -/
  | commandAdmission (qp : Nat)
  /-- ADMISSION_WAIT_END (R319): An entry waiting at admission for a range, lock-table room, a husk slot, a WAIT_GE or a drain entry is admitted once its cause clears. -/
  | admissionWaitEnd (qp : Nat)
  /-- SEARCH (R98): Search command 0x20: bind an epoch, run the search sheaf and write the best k results. -/
  | search (n : Nat) (data : Bytes)
  /-- INSERT (R105): Insert command 0x21: one husk that inserts up to 64 vectors into their lists. -/
  | insert (n : Nat) (data : Bytes)
  /-- UPSERT (R106): Insert command with UPSERT set: deletes any present ID in the same husk before inserting it. -/
  | upsert (n : Nat) (data : Bytes)
  /-- DELETE (R105): Delete command 0x22: one husk that tombstones up to 64 vectors. -/
  | delete (n : Nat) (data : Bytes)
  /-- EXPERT_CALL (R146): Expert call 0x30: select experts per token from gating scores and run them on the EXPERT stage. -/
  | expertCall (n : Nat) (data : Bytes) (acts : Bytes)
  /-- GATE (R146): Gate command 0x31: select experts per token and return only the selection records. -/
  | gate (n : Nat) (data : Bytes)
  /-- GATHER (R162): Gather command 0x32: read embedding rows per bag and combine them. -/
  | gather (n : Nat) (data : Bytes)
  /-- MEMORY_LAYER (R167): Memory-layer command 0x33: score queries against keys, select the top k and return the weighted sum of value rows. -/
  | memoryLayer (n : Nat) (data : Bytes)
  /-- ATTENTION (R188): Attention command 0x34: issue ATTEND operations per shard, combine the partials and convert the output. -/
  | attention (n : Nat) (data : Bytes)
  /-- ELEMENTWISE_ADD (R181): Element-wise command 0x35 with operation ADD, run as one COMPUTED husk on culms. -/
  | elementwiseAdd (n : Nat)
  /-- ELEMENTWISE_MUL (R181): Element-wise command 0x35 with operation MUL, run as one COMPUTED husk on culms. -/
  | elementwiseMul (n : Nat)
  /-- ELEMENTWISE_ACT (R181): Element-wise command 0x35 with operation ACT, run as one COMPUTED husk on culms. -/
  | elementwiseAct (n : Nat)
  /-- ELEMENTWISE_CONVERT (R181): Element-wise command 0x35 with operation CONVERT, run as one COMPUTED husk on culms. -/
  | elementwiseConvert (n : Nat)
  /-- BINDER_ADD (R226): Binder command 0x40 op ADD: adds to the binder value, saturating at 2^64 - 1. -/
  | binderAdd (n : Nat)
  /-- BINDER_SET (R226): Binder command 0x40 op SET: replaces the binder value. -/
  | binderSet (n : Nat)
  /-- BINDER_WAIT_GE (R226): Binder command 0x40 op WAIT_GE: holds its submission queue until the value reaches the target or the timeout passes. -/
  | binderWaitGe (n : Nat)
  /-- BINDER_OP_READ (R226): Binder command 0x40 op READ: returns the binder value. -/
  | binderOpRead (n : Nat)
  /-- WAIT_GE_TIMEOUT (R226): A WAIT_GE whose timeout passes completes with BINDER_TIMEOUT and its queue resumes. -/
  | waitGeTimeout (qp : Nat)
  /-- HUSK (R203): Husk queue command 0x41: copies the descriptor and payload and runs a tenant husk. -/
  | husk (n : Nat) (desc : Bytes) (payload : Bytes)
  /-- ALLOC (R236): Object command 0x50: creates an object, zero-filled or copied from host memory, and returns its handle. -/
  | alloc (n : Nat) (data : Bytes)
  /-- FREE (R248): Object command 0x51: checks the handle and, when accepted, takes the object's X range and moves it to FREEING. -/
  | free (n : Nat)
  /-- MOVE (R236): Object command 0x52 without REHOME: makes, moves or evicts the upper copy, or rehomes to a slower tier. -/
  | move (n : Nat)
  /-- MOVE_REHOME (R247): Object command 0x52 with REHOME: copies the object to a new home and switches the home in one step. -/
  | moveRehome (n : Nat)
  /-- PIN (R236): Object command 0x53: adds one host pin to an object. -/
  | pin (n : Nat)
  /-- UNPIN (R236): Object command 0x54: removes one host pin from an object. -/
  | unpin (n : Nat)
  /-- READ (R236): Object command 0x55: takes a shared range and copies object bytes to host memory. -/
  | read (n : Nat)
  /-- COMMAND_RANGE_GRANT (R209): A command's shared ranges are granted all at once once no conflicting holder or earlier request remains. -/
  | commandRangeGrant (n : Nat)
  /-- COMPLETION_DRAIN (R57): A staged completion leaves staging for its completion queue once the queue has room. -/
  | completionDrain (qp : Nat)
  /-- QUEUE_DRAIN_TIMEOUT (R318): A completion waits in staging for drain_deadline; the queue pair goes TIMED_OUT and its staged completions are discarded. -/
  | queueDrainTimeout (qp : Nat)
  /-- COALESCE_TIMEOUT (R322): coalesce_time passes since the first unsignalled completion and the MSI-X message is sent. -/
  | coalesceTimeout (qp : Nat)
  /-- MSIX_ENTRY_UNMASK (R322): Host unmasks an MSI-X table entry whose pending bit is set, and the node sends the held message. -/
  | msixEntryUnmask (fn : Nat) (ent : Nat)
  /-- FAULT_CAUSE_CLEAR (R309): W1C write to FAULT_CAUSE; a bit whose cause persists sets again next cycle and FAULT_N follows. -/
  | faultCauseClear (value : Nat)
  /-- QUEUE_ERROR_CLEAR (R310): W1C write to QUEUE_ERROR clears queue-pair error bits without changing queue state. -/
  | queueErrorClear (reg : Nat) (value : Nat)
  /-- QUEUE_STATUS_CLEAR (R311): W1C write to a queue status register clears doorbell_invalid or host_access. -/
  | queueStatusClear (fn : Nat) (index : Nat) (value : Nat)
  /-- REGISTER_LOW_HALF_READ (R303): A 4-byte read of the low half of a 64-bit register returns [31:0] and latches [63:32] for the same function. -/
  | registerLowHalfRead (fn : Nat) (off : Nat)
  /-- REGISTER_WRITE_OTHER (R303): A register write with no behaviour of its own, or of the wrong width, alignment or offset, is ignored or discarded and counted. -/
  | registerWriteOther (fn : Nat) (off : Nat) (width : Nat) (value : Nat)
  /-- MBX_WINDOW_WRITE (R326): Host writes message bytes into the mailbox window; they are stored in the inbound area, or discarded with IN_DISCARD while IN_FULL is set. -/
  | mbxWindowWrite (fn : Nat) (box : Nat) (off : Nat) (bytes : Bytes)
  /-- MBX_DOORBELL_RING (R327): Host writes RING: IN_FULL sets and a wake event crosses to island 1, or the ring is discarded while IN_FULL is set. -/
  | mbxDoorbellRing (fn : Nat) (box : Nat) (value : Nat)
  /-- MBX_STATUS_CLEAR (R326): W1C write to MBX_STATUS clears IN_DISCARD. -/
  | mbxStatusClear (fn : Nat) (box : Nat) (value : Nat)
  /-- MBX_RELEASE_READ (R326): A read of MBX_RELEASE with OUT_FULL set releases the outbound message, clears OUT_FULL and returns its seq. -/
  | mbxReleaseRead (fn : Nat) (box : Nat)
  /-- MBX_REQUEST_TAKE (R328): The Steward takes the next mailbox request, round-robin by tenant, clears IN_FULL, checks it and runs the command. -/
  | mbxRequestTake
  /-- MBX_RESPONSE_POST (R327): The Steward writes a response into the outbound area once OUT_FULL is clear, sets OUT_FULL and raises MSI-X entry 0. -/
  | mbxResponsePost (box : Nat)
  /-- MBX_EVENT_DELIVER (R337): A queued event message goes out in order whenever OUT_FULL is clear. -/
  | mbxEventDeliver (box : Nat)
  /-- QUEUE_CREATE (R334): Zalpol 0x0110: loads a queue context and enables a DISABLED queue pair. -/
  | queueCreate (box : Nat)
  /-- QUEUE_DELETE (R320): Zalpol 0x0111: stops fetching, completes admitted commands, then leaves the queue DISABLED. -/
  | queueDelete (box : Nat)
  /-- QUEUE_RESET (R334): Zalpol 0x0112 recovery command: returns a queue in ERROR or TIMED_OUT to DISABLED. -/
  | queueReset (box : Nat)
  /-- VECTOR_BIND (R334): Zalpol 0x0113 op bind: binds a vector slot to a function's MSI-X table entry. -/
  | vectorBind (box : Nat)
  /-- VECTOR_UNBIND (R334): Zalpol 0x0113 op unbind: frees the slot bound to a function's table entry. -/
  | vectorUnbind (box : Nat)
  /-- WINDOW_MAP (R323): Zalpol 0x0114 op map: maps 2 MiB window units to an offset in a resident T1 object and pins it. -/
  | windowMap (box : Nat)
  /-- WINDOW_UNMAP (R323): Zalpol 0x0114 op unmap: unmaps window units and drops their pin. -/
  | windowUnmap (box : Nat)
  /-- TIME_POST (R17): Zalpol 0x0115: stores an (uptime, host time) pair verbatim in the event log and returns boot count and uptime. -/
  | timePost (box : Nat)
  /-- POWER_SET (R325): Zalpol 0x0801: begins entry to or exit from a power state P0 to P3. -/
  | powerSet (box : Nat)
  /-- GEN_APPLY (R443): Zalpol 0x0201: reads, validates and applies a configuration generation through one CONFIG husk. -/
  | genApply (box : Nat) (image : Bytes)
  /-- ROLLBACK (R445): Zalpol 0x0202 recovery command: applies the previous generation through a CONFIG husk. -/
  | rollback (box : Nat)
  /-- GEN_READ (R334): Zalpol 0x0203: copies the current, previous or factory generation to host memory. -/
  | genRead (box : Nat)
  /-- SHEAF_STATS (R64): Zalpol 0x0204: returns stage counter records of a sheaf and optionally zeroes them. -/
  | sheafStats (box : Nat)
  /-- CONVERT_STATS (R86): Zalpol 0x0205: returns the combined and per-unit conversion statistics records of a tensor. -/
  | convertStats (box : Nat)
  /-- COLLECTION_CREATE (R87): Zalpol 0x0301: creates a collection in one husk. -/
  | collectionCreate (box : Nat)
  /-- COLLECTION_CHANGE (R334): Zalpol 0x0302: changes the alterable fields of a collection in one husk. -/
  | collectionChange (box : Nat)
  /-- COLLECTION_DELETE (R87): Zalpol 0x0303: deletes a collection in one husk. -/
  | collectionDelete (box : Nat)
  /-- COLLECTION_STATS (R334): Zalpol 0x0304: returns a collection's counts at the current epoch. -/
  | collectionStats (box : Nat)
  /-- REBUILD_SWEEP (R109): Zalpol 0x0305 kind 0: queues a chaff sweep of a list. -/
  | rebuildSweep (box : Nat)
  /-- REBUILD_SPLIT (R109): Zalpol 0x0305 kind 1: queues a split of a list. -/
  | rebuildSplit (box : Nat)
  /-- REBUILD_MERGE (R109): Zalpol 0x0305 kind 2: queues a merge of two lists. -/
  | rebuildMerge (box : Nat)
  /-- REBUILD_RETRAIN (R109): Zalpol 0x0305 kind 3: queues centroid retraining. -/
  | rebuildRetrain (box : Nat)
  /-- REBUILD_REHASH (R165): Zalpol 0x0305 kind 4: queues a re-hash of an embedding table. -/
  | rebuildRehash (box : Nat)
  /-- TABLE_WRITE (R334): Zalpol 0x0310: writes table entries as TABLE_ENTRY actions in one husk. -/
  | tableWrite (box : Nat) (data : Bytes)
  /-- ZALPOL_HUSK (R334): Zalpol 0x0311: runs a husk described in host memory. -/
  | zalpolHusk (box : Nat) (desc : Bytes) (payload : Bytes)
  /-- OBJECT_QUERY (R233): Zalpol 0x0320: returns an object's header. -/
  | objectQuery (box : Nat)
  /-- OBJECT_TRANSFER (R249): Zalpol 0x0321: gives a persistent object to another tenant under a new generation. -/
  | objectTransfer (box : Nat)
  /-- BINDER_ALLOC (R225): Zalpol 0x0330: allocates the lowest-numbered free binder. -/
  | binderAlloc (box : Nat)
  /-- BINDER_FREE (R334): Zalpol 0x0331: frees a binder; pending WAIT_GE entries on it complete with BINDER_UNKNOWN. -/
  | binderFree (box : Nat)
  /-- BINDER_READ (R225): Zalpol 0x0332: returns a binder's state. -/
  | binderRead (box : Nat)
  /-- FORMAT (R256): Zalpol 0x0401: divides flash into regions, generates a new media key and erases index state. -/
  | format (box : Nat)
  /-- FORMAT_COMPLETE (R336): A format finishes and its COMMAND_DONE event is raised with epoch 1 in force. -/
  | formatComplete
  /-- MEDIA_TABLE_LOAD (R255): Zalpol 0x0402: verifies and loads a media table and matches LUNs to it. -/
  | mediaTableLoad (box : Nat) (image : Bytes)
  /-- CHANNEL_STATUS (R334): Zalpol 0x0403: returns a flash channel's state and capacity. -/
  | channelStatus (box : Nat)
  /-- CHANNEL_DRAIN (R275): Zalpol 0x0404: stops allocating on a channel and begins moving its valid units away. -/
  | channelDrain (box : Nat)
  /-- CHANNEL_DRAIN_COMPLETE (R275): No bytes remain on a draining channel; it is marked RETIRED, its reserve moves and COMMAND_DONE is raised. -/
  | channelDrainComplete (ch : Nat)
  /-- CHANNEL_ADMIT (R275): Zalpol 0x0405: identifies, trains and erases a replaced module and adds it to the pools. -/
  | channelAdmit (box : Nat)
  /-- CHANNEL_ADMIT_COMPLETE (R275): A channel admission finishes and COMMAND_DONE reports the capacity admitted. -/
  | channelAdmitComplete (ch : Nat) (rate : Nat) (luns : List LunId)
  /-- ENDURANCE (R277): Zalpol 0x0406: returns the endurance record of the node or of a LUN. -/
  | endurance (box : Nat)
  /-- KEY_LOAD (R272): SPDM command 0x0407: loads a tenant XTS key inside a secured session. -/
  | keyLoad
  /-- KEY_DESTROY (R272): SPDM command 0x0408: erases a tenant key and the blocks it encrypts. -/
  | keyDestroy
  /-- FW_LOAD (R447): Zalpol 0x0410: verifies a firmware image and writes it into the inactive slot. -/
  | fwLoad (box : Nat) (image : Bytes)
  /-- FW_ACTIVATE (R447): Zalpol 0x0411: saves carried state and restarts the Steward from the named slot. -/
  | fwActivate (box : Nat)
  /-- FW_ACTIVATE_TIMEOUT (R447): A new image not ready within 200 ms is abandoned and the Steward restarts from the former slot. -/
  | fwActivateTimeout
  /-- THRESH_RUN (R381): Zalpol 0x0501: queues or starts a threshing run on a tile, culm or crossing. -/
  | threshRun (box : Nat)
  /-- THRESH_STATUS (R334): Zalpol 0x0502: returns the state of a threshing run. -/
  | threshStatus (box : Nat)
  /-- THRESH_ITERATION_END (R381): A threshing pattern iteration ends and its digest is compared; a mismatch retires the unit and ends the run. -/
  | threshIterationEnd (run : Nat) (pattern : Nat) (iteration : Nat) (expected : Nat) (observed : Nat)
  /-- THRESH_DURATION_END (R381): A threshing run's duration ends; the unit returns to service and the freed spare is tested. -/
  | threshDurationEnd (run : Nat)
  /-- SIGNATURE_READ (R388): Zalpol 0x0503: copies signature records to host memory. -/
  | signatureRead (box : Nat)
  /-- LOG_READ (R389): Zalpol 0x0504: copies event-log records to host memory. -/
  | logRead (box : Nat)
  /-- RECORD_EXPORT (R405): Zalpol 0x0505: copies bytes of the recording's spill region to host memory. -/
  | recordExport (box : Nat)
  /-- REPLAY_START (R410): Zalpol 0x0506: checks a recording and begins its replay. -/
  | replayStart (box : Nat) (image : Bytes)
  /-- METER_READ (R334): Zalpol 0x0601: returns a tenant's cumulative meters. -/
  | meterRead (box : Nat)
  /-- RECOVER_RESTART (R425): Zalpol 0x0701 action 0: restarts journal recovery from phase 1. -/
  | recoverRestart (box : Nat)
  /-- RECOVER_LEAVE_FAULT (R394): Zalpol 0x0701 action 1: leaves FAULT for STANDBY when no fault cause remains. -/
  | recoverLeaveFault (box : Nat)
  /-- RECOVERY_STATUS (R334): Zalpol 0x0702: returns the recovery phase and progress. -/
  | recoveryStatus (box : Nat)
  /-- FUNCTION_LEVEL_RESET (R320): FLR of a function disables all its queues, drops unstarted items, fails preparing husks and resets its mailbox. -/
  | functionLevelReset (fn : Nat)
  /-- PERST_N_ASSERT (R320): PCIe fundamental reset disables every queue of every function and empties every mailbox. -/
  | perstNAssert
  /-- HOT_RESET (R320): PCIe hot reset disables every queue of every function. -/
  | hotReset
  /-- LINK_DOWN (R320): Link disable or surprise link down disables every queue of every function. -/
  | linkDown
  /-- LINK_TRAINING (R296): The PCIe link trains at the highest common rate and width and reports them. -/
  | linkTraining (rate : Nat) (width : Nat) (flit : Bool)
  /-- FUNCTION_D_STATE_CHANGE (R321): A function enters or leaves D3hot; doorbells are discarded and its completions wait in staging. -/
  | functionDStateChange (fn : Nat) (d3 : Bool)
  /-- HOST_ACCESS_ERROR (R320): A read of host memory ends in UR, CA or timeout; the queue goes ERROR and the command completes HOST_ACCESS_ERROR. -/
  | hostAccessError (src : HostSrc)
  /-- HOST_DATA_POISONED (R324): Host data read for a command arrives with EP set; the command completes POISON with no effect. -/
  | hostDataPoisoned (src : HostSrc)
  /-- WINDOW_READ (R323): A read through BAR2 or CXL.mem returns the mapped bytes, zeros or poison. -/
  | windowRead (cxl : Bool) (addr : Nat) (len : Nat)
  /-- WINDOW_WRITE (R323): A write to the memory window is discarded and counted. -/
  | windowWrite (cxl : Bool) (addr : Nat)
  /-- CXL_IDENTIFY_MEMORY_DEVICE (R298): CXL mailbox command Identify Memory Device. -/
  | cxlIdentifyMemoryDevice
  /-- CXL_GET_EVENT_RECORDS (R298): CXL mailbox command Get Event Records. -/
  | cxlGetEventRecords
  /-- CXL_CLEAR_EVENT_RECORDS (R298): CXL mailbox command Clear Event Records. -/
  | cxlClearEventRecords
  /-- CXL_GET_HEALTH_INFO (R298): CXL mailbox command Get Health Info. -/
  | cxlGetHealthInfo
  /-- CXL_GET_POISON_LIST (R298): CXL mailbox command Get Poison List. -/
  | cxlGetPoisonList
  /-- CXL_UNSUPPORTED_COMMAND (R298): Any other CXL mailbox command completes with Unsupported. -/
  | cxlUnsupportedCommand (opcode : Nat)
  /-- GET_VERSION (R449): SPDM request GET_VERSION over DOE. -/
  | getVersion
  /-- GET_CAPABILITIES (R449): SPDM request GET_CAPABILITIES. -/
  | getCapabilities
  /-- NEGOTIATE_ALGORITHMS (R449): SPDM request NEGOTIATE_ALGORITHMS. -/
  | negotiateAlgorithms (offered : Bool)
  /-- GET_DIGESTS (R449): SPDM request GET_DIGESTS. -/
  | getDigests
  /-- GET_CERTIFICATE (R449): SPDM request GET_CERTIFICATE. -/
  | getCertificate (slot : Nat) (off : Nat) (len : Nat)
  /-- CHALLENGE (R449): SPDM request CHALLENGE. -/
  | challenge (slot : Nat)
  /-- GET_MEASUREMENTS (R449): SPDM request GET_MEASUREMENTS; answered Busy during a firmware restart. -/
  | getMeasurements (index : Nat)
  /-- KEY_EXCHANGE (R449): SPDM request KEY_EXCHANGE opening a secured session. -/
  | keyExchange (slot : Nat)
  /-- FINISH (R449): SPDM request FINISH. -/
  | finish (good : Bool)
  /-- HEARTBEAT (R449): SPDM request HEARTBEAT. -/
  | heartbeat (sess : Nat)
  /-- KEY_UPDATE (R449): SPDM request KEY_UPDATE. -/
  | keyUpdate (sess : Nat)
  /-- END_SESSION (R449): SPDM request END_SESSION. -/
  | endSession (sess : Nat)
  /-- VENDOR_DEFINED_REQUEST (R449): SPDM vendor-defined request carrying a K command of the Zalpol set. -/
  | vendorDefinedRequest (sess : Nat) (msg : Bytes)
  /-- HEAD_STAGE_ITEM_ARRIVAL (R47): An admitted item reaches its sheaf's head stage and joins the open batch, closing it when batch_max is reached. -/
  | headStageItemArrival (n : Nat)
  /-- BATCH_WINDOW_EXPIRY (R47): batch_window passes since a batch's first item and the head stage closes the batch. -/
  | batchWindowExpiry (sheaf : Nat)
  /-- STAGE_BATCH_START (R53): A stage tile starts a batch once its input is complete and it holds a credit from every successor. -/
  | stageBatchStart (sheaf : Nat) (stage : Nat) (lane : Nat)
  /-- STAGE_BATCH_FINISH (R54): A stage tile finishes a batch, sends its output on and returns its input credit. -/
  | stageBatchFinish (sheaf : Nat) (stage : Nat) (lane : Nat)
  /-- CREDIT_RETURN_ARRIVAL (R55): A Gray-coded credit count crosses to a predecessor, raising the credits it holds. -/
  | creditReturnArrival (sheaf : Nat) (stage : Nat) (succ : Nat)
  /-- STAGE_GENERATION_SWITCH (R51): A tile finishes every batch admitted under the old version and takes up its new role or buffers. -/
  | stageGenerationSwitch (tile : Nat)
  /-- AWN_READ_ISSUE (R59): An awn issues a read for a batch ahead once its stream is known and space, read slots and tokens allow;
  `elementwise` where the read is an ELEMENTWISE command's next operation (R181). -/
  | awnReadIssue (sheaf : Nat) (stage : Nat) (lane : Nat) (elementwise : Bool)
  /-- AWN_DATA_LAND (R60): An awn read's data lands in the landing zone or bran region and its pin drops. -/
  | awnDataLand (id : Nat) (poisoned : Bool)
  /-- AWN_DIRECTORY_READ (R26): The awn directory receives an awn read and joins it to an outstanding read of the same range and version or issues a new one. -/
  | awnDirectoryRead (id : Nat)
  /-- STOOK_LIST_ARRIVAL (R132): A partial list arrives in a child buffer of a stook node slot. -/
  | stookListArrival (leaf : StageRef) (lane : Nat)
  /-- STOOK_MERGE_START (R133): A stook engine starts a ready merge, chosen round-robin, once every participating child's list is complete. -/
  | stookMergeStart (engine : Nat)
  /-- STOOK_MERGE_COMPLETE (R134): A stook engine finishes emitting a merged list with its sums into its parent's slot and frees its child buffers. -/
  | stookMergeComplete (engine : Nat)
  /-- STOOK_ROOT_DELIVERY (R132): The stook root delivers a merged list to the successor stage under the successor's credits. -/
  | stookRootDelivery (sheaf : Nat) (stage : Nat)
  /-- TILLER_SWAP_START (R52): At the stage's next batch boundary the Steward begins copying a tile's buffers to the tiller. -/
  | tillerSwapStart (tile : Nat)
  /-- TILLER_SWAP_COMPLETE (R52): The copy to the tiller ends, the logical slot is remapped to slot 16 and the stage resumes. -/
  | tillerSwapComplete (tile : Nat)
  /-- EXPERT_STAGING_GRANT (R154): Staging space for an expert is granted in (batch, expert) order and the directory starts reading it whole. -/
  | expertStagingGrant (table : Nat)
  /-- EXPERT_STAGING_COMPLETE (R155): An expert's staged copy is complete and the expert is present. -/
  | expertStagingComplete (table : Nat) (handle : Nat)
  /-- EXPERT_REACH (R156): The EXPERT stage reaches the next expert of a batch and runs it if present or holds. -/
  | expertReach (sheaf : Nat) (stage : Nat) (lane : Nat)
  /-- EXPERT_DEADLINE_EXPIRY (R156): The deadline passes while the stage holds; the token slots of the late expert run its fallback and are flagged FALLBACK. -/
  | expertDeadlineExpiry (sheaf : Nat) (stage : Nat) (lane : Nat)
  /-- PSEUDO_CHANNEL_GRANT (R172): A pseudo-channel controller grants a PHY or culm request by the 5:3 byte ratio. -/
  | pseudoChannelGrant (culm : Nat) (kinds : Nat) (bytes : Nat)
  /-- CULM_SCAN_OP (R177): A culm executes a SCAN operation over a list at the item's epoch. -/
  | culmScanOp (culm : Nat)
  /-- CULM_ADD_OP (R180): A culm executes an element-wise ADD operation. -/
  | culmAddOp (culm : Nat)
  /-- CULM_MUL_OP (R180): A culm executes an element-wise MUL operation. -/
  | culmMulOp (culm : Nat)
  /-- CULM_ACT_OP (R180): A culm executes an ACT operation. -/
  | culmActOp (culm : Nat)
  /-- CULM_CONVERT_OP (R180): A culm executes a CONVERT operation. -/
  | culmConvertOp (culm : Nat)
  /-- CULM_ATTEND_OP (R185): A culm executes an ATTEND operation over one shard and returns partials. -/
  | culmAttendOp (culm : Nat)
  /-- CULM_RESULT_RETURN (R178): A culm operation's result lands back at the issuing awn, tagged with its tag. -/
  | culmResultReturn (culm : Nat)
  /-- CULM_SUBSTITUTION (R190): After its operation in progress ends, a retired culm's pseudo-channel is switched to a free spare and its queue resumes. -/
  | culmSubstitution (culm : Nat)
  /-- HUSK_ADMISSION (R213): A husk takes a slot and reserves range-lock entries, or waits for them in arrival order. -/
  | huskAdmission (h : Nat)
  /-- HUSK_LOCK_REQUEST (R205): A husk in prepare requests its next declared or derived lock. -/
  | huskLockRequest (h : Nat)
  /-- HUSK_LOCK_GRANT (R210): A waiting lock request is granted once no conflicting holder or earlier command request remains; the husk goes on with prepare. -/
  | huskLockGrant (h : Nat)
  /-- ELEMENTWISE_COMPUTE_DONE (R181): The last culm operation of an ELEMENTWISE husk ends and it writes journal extents or joins the group. -/
  | elementwiseComputeDone (h : Nat)
  /-- JOURNAL_EXTENTS_DURABLE (R181): Every journal extent unit of an ELEMENTWISE husk is durable and the husk joins the open commit group. -/
  | journalExtentsDurable (h : Nat)
  /-- COMMIT_GROUP_CLOSE (R215): The group interval passes with husks in the open group; they enter COMMITTING and the journal record is written. -/
  | commitGroupClose
  /-- JOURNAL_RECORD_DURABLE (R215): A group's journal record is durable; the actions are applied at E+1, the epoch advances, locks release and completions are written. -/
  | journalRecordDurable
  /-- JOURNAL_WRITE_FAIL (R218): A journal program fails on its SLC block and the same record is written to another block. -/
  | journalWriteFail
  /-- JOURNAL_UNAVAILABLE (R218): No SLC block accepts a journal write for 100 ms; husk admission stops, waiting husks fail and FAULT_N asserts. -/
  | journalUnavailable
  /-- DRAIN_ENTRY_FREED (R220): An epoch's drain counter reaches zero, freeing its entry so a waiting epoch advance or binding proceeds. -/
  | drainEntryFreed (epoch : Nat)
  /-- EPOCH_RING_WAIT_END (R96): A commit waiting for an epoch-ring slot proceeds once the command bound to the oldest slot completes. -/
  | epochRingWaitEnd
  /-- VERSION_POOL_WAIT_END (R219): A commit waiting for version-pool space proceeds once reclamation frees it. -/
  | versionPoolWaitEnd
  /-- VERSION_RECLAIM (R222): Versions, ring slots, swapped-out tables and freed map slots below the floor are reclaimed. -/
  | versionReclaim
  /-- SETTLING (R97): A tombstone older than every retained or bound epoch is settled into the bitmap. -/
  | settling (list : Nat) (pos : Nat)
  /-- REBUILD_SHADOW_COMPLETE (R224): A rebuild's shadow copies are built and its swap husk is formed and submitted. -/
  | rebuildShadowComplete (id : Nat)
  /-- BARRIER (R223): TFT BARRIER message: records (barrier ID, current epoch) and answers with the epoch. -/
  | barrier (node : Nat) (msg : Nat)
  /-- BARRIER_MAP (R359): TFT BARRIER_MAP message: stores the node-to-epoch map with the barrier's entry. -/
  | barrierMap (node : Nat) (msg : Nat)
  /-- PROMOTION_COPY_COMPLETE (R238): A promotion's whole copy is complete and the upper copy becomes RESIDENT or switches tier. -/
  | promotionCopyComplete (idx : Nat)
  /-- WRITE_BACK_START (R238): A queued write-back of an EVICTING dirty copy begins and the state becomes WRITING_BACK. -/
  | writeBackStart (idx : Nat)
  /-- WRITE_BACK_DURABLE (R238): A write-back is durable at home with pins at 0; the copy is released and written_epoch updated. -/
  | writeBackDurable (idx : Nat)
  /-- CLEANING_PASS (R244): A dirty upper copy's cleaning interval passes and its dirty pages are written home. -/
  | cleaningPass (idx : Nat)
  /-- REHOME_SWITCH (R247): A rehome copy and re-copy finish and the home switches in one step. -/
  | rehomeSwitch (idx : Nat)
  /-- OLD_LOCATION_RELEASE (R239): The pins taken on an old home, stream or copy before its switch drop and it is released. -/
  | oldLocationRelease (idx : Nat)
  /-- FREE_RELEASE (R248): The remaining pins of a FREEING object drop; its space and index are released and the FREE completes. -/
  | freeRelease (idx : Nat)
  /-- LUN_TEMPERATURE_READ (R261): Each second the node reads a LUN's temperature for threshold selection. -/
  | lunTemperatureRead (ch : Nat) (lun : Nat) (temp : Option Int)
  /-- FLASH_READ_COMPLETE (R263): A flash read returns and is decoded at its set, the retry ladder or soft decode, or marked uncorrectable. -/
  | flashReadComplete (unit : Nat) (decode : Nat) (corrected : Nat)
  /-- BLOCK_CALIBRATION (R262): The first read of a block of unknown age reads the calibration ladder and sets its age reference. -/
  | blockCalibration (blk : Nat) (counts : List Nat)
  /-- GLEANER_PATROL (R265): A block falls due and the gleaner reads every programmed page of it. -/
  | gleanerPatrol (blk : Nat) (reads : List UnitRead)
  /-- GLEANER_AGING_PROMOTION (R265): A due block unpatrolled for 24 h of powered time is promoted to the urgent class. -/
  | gleanerAgingPromotion (blk : Nat)
  /-- PRIORITY_SWEEP (R266): After a cold start the gleaner patrols every programmed block oldest first within 24 h. -/
  | prioritySweep (blk : Nat) (reads : List UnitRead)
  /-- FOLD (R257): A fold reads SLC buffer blocks and programs them into one bulk block. -/
  | fold (srcs : List Nat) (blk : Nat)
  /-- GARBAGE_COLLECTION (R258): Garbage collection reclaims the block with the fewest valid units in a region. -/
  | garbageCollection (slc : Bool) (blk : Nat)
  /-- RELOCATION (R264): The gleaner's class moves the valid units of a RELOCATE block and erases or retires it. -/
  | relocation (blk : Nat) (dst : Nat) (bad : List Nat)
  /-- WEAR_LEVELLING (R269): When erase-count spread exceeds its limit, cold data moves from the youngest block to the oldest free block. -/
  | wearLevelling (slc : Bool)
  /-- UNIT_MOVE_PROGRAMMED (R267): A moved unit's program succeeds and its mapping switches only if it still points at the old location. -/
  | unitMoveProgrammed (unit : Nat) (mv : UnitMove)
  /-- BLOCK_ERASE (R267): A block is erased once its count of reads in flight is zero. -/
  | blockErase (blk : Nat)
  /-- MAPPING_PAGE_WRITE (R268): Dirty mapping pages are written to the SLC region and waiting mapping changes proceed. -/
  | mappingPageWrite (bytes : Nat)
  /-- PROGRAM_FAILURE (R273): A program reports failure; the data is written elsewhere and the block retired. -/
  | programFailure (blk : Nat) (dst : Nat)
  /-- ERASE_FAILURE (R273): An erase fails and the block is retired. -/
  | eraseFailure (blk : Nat)
  /-- LUN_BUSY_TIMEOUT (R274): A LUN fails to leave busy within 100 ms; the third time in an hour retires the LUN. -/
  | lunBusyTimeout (ch : Nat) (lun : Nat)
  /-- CHANNEL_LOSS (R276): A channel is lost without a drain; its units are poisoned and the pools shrink. -/
  | channelLoss (ch : Nat)
  /-- PACK_SLOT_GRANT (R293): An ordinary PACK slot is granted to the next request in round-robin order. -/
  | packSlotGrant
  /-- PACK_BLOCK_ENCODE (R291): A PACK lane finishes coding a 4 KiB block, stored coded or RAW. -/
  | packBlockEncode (req : Nat)
  /-- PACK_BLOCK_DECODE (R295): A PACK lane finishes decoding a stored block, or poisons it on a fault. -/
  | packBlockDecode (req : Nat)
  /-- CHECKPOINT_STREAM_SWITCH (R282): A CHECKPOINT object's new stream is complete and its home switches to it in one step. -/
  | checkpointStreamSwitch (idx : Nat)
  /-- FRAME_RECEIVE (R352): A TFT frame arrives; it is checked, authenticated and accepted only when its seq is next, with ack and credit taken. -/
  | frameReceive (port : Nat) (form : FrameForm) (frame : Bytes)
  /-- ACK_SEND_TIMER (R352): 5 µs after accepting a frame with nothing else to send, the receiver sends an ACK frame. -/
  | ackSendTimer (node : Nat) (vc : Nat)
  /-- RETRANSMISSION_TIMEOUT (R352): The oldest unacknowledged frame waits one retransmission interval and it and all later frames are resent. -/
  | retransmissionTimeout (node : Nat) (vc : Nat)
  /-- HELLO (R356): A HELLO message opens a peer entry and carries initial credits. -/
  | hello (node : Nat) (msg : Nat)
  /-- JOIN (R358): JOIN op join from the coordinator moves a STANDBY node into SERVICE. -/
  | join (node : Nat) (msg : Nat)
  /-- LEAVE (R358): JOIN op leave stops request-VC admission, completes admitted work and returns the node to STANDBY. -/
  | leave (node : Nat) (msg : Nat)
  /-- TELEMETRY (R347): A TELEMETRY message received on the control VC is answered with STATUS. -/
  | telemetry (node : Nat) (msg : Nat)
  /-- STATUS (R347): A STATUS message answers a request or telemetry item and releases its reservation. -/
  | status (node : Nat) (msg : Nat)
  /-- SUB_SEARCH (R348): A SUB_SEARCH arrives and the owner runs it on its lists at the carried or current epoch. -/
  | subSearch (node : Nat) (msg : Nat)
  /-- SUB_ANSWER (R349): A SUB_ANSWER arrives and enters the coordinator's merge, or is discarded as late. -/
  | subAnswer (node : Nat) (msg : Nat)
  /-- T4_READ (R350): A T4_READ addressed to the node is answered STATUS INVALID_OPCODE. -/
  | t4Read (node : Nat) (msg : Nat)
  /-- T4_DATA (R350): T4_DATA from a pool endpoint completes a T4 read. -/
  | t4Data (node : Nat) (msg : Nat)
  /-- T4_WRITE (R347): A T4_WRITE addressed to the node is answered STATUS INVALID_OPCODE. -/
  | t4Write (node : Nat) (msg : Nat)
  /-- UNKNOWN_MESSAGE_TYPE (R347): A complete message of an unknown type is answered with STATUS INVALID_OPCODE. -/
  | unknownMessageType (node : Nat) (msg : Nat)
  /-- T4_REQUEST_TIMEOUT (R350): A T4 request unanswered for 100 ms completes with PEER_TIMEOUT. -/
  | t4RequestTimeout (msg : Nat)
  /-- FANOUT_TIMEOUT (R113): A peer does not answer a sub-search within fanout_timeout and its lists count as missing. -/
  | fanoutTimeout (n : Nat)
  /-- PEER_TIMEOUT (R357): The oldest unacknowledged frame to a peer waits the peer timeout and the peer entry closes. -/
  | peerTimeout (node : Nat) (vc : Nat)
  /-- QUARANTINE_END (R361): One second after quarantine the peer's frames are accepted again. -/
  | quarantineEnd (node : Nat)
  /-- PORT_LINK_CHANGE (R344): A fabric port goes down or up; streams move to the next port of their mask and resend unacknowledged frames. -/
  | portLinkChange (port : Nat) (up : Bool)
  /-- METER_INTERVAL (R368): Each meter interval the node sends a meters telemetry item for every tenant whose meters changed. -/
  | meterInterval
  /-- BUCKET_REFILL (R363): Every µs each token bucket refills by its rate up to its burst. -/
  | bucketRefill
  /-- AGING_PROMOTION (R365): A request older than its class's starvation bound is promoted once to the urgent class. -/
  | agingPromotion (cls : Nat) (id : Nat)
  /-- T1_PATROL_READ (R372): A base die patrols a T1 block in an idle controller cycle and writes back corrected data. -/
  | t1PatrolRead (culm : Nat) (idx : Nat) (blkno : Nat) (errs : Nat)
  /-- SRAM_UNCORRECTABLE (R375): A tile or culm reports an uncorrectable SRAM error and the unit is retired. -/
  | sramUncorrectable (kind : Nat) (unit : Nat) (loc : Nat)
  /-- DETECTION_PROCESS (R388): The Steward takes a detection, numbers and stores a signature record, raises SIGNATURE and queues telemetry. -/
  | detectionProcess
  /-- LOG_RECORD_WRITE (R390): The log writer takes a record, assigns its sequence and writes it to both rings with read-back. -/
  | logRecordWrite
  /-- LOG_ARCHIVE_COPY (R390): Each second the Steward copies the log into the persistent archive. -/
  | logArchiveCopy
  /-- LOG_RING_FAILURE (R391): A log ring fails; the survivor carries the log, or with both failed LAST_GASP latches and FAULT_N asserts. -/
  | logRingFailure (r38 : Bool) (r62 : Bool)
  /-- CROSSING_LANE_SWITCH (R417): In the first cycle the active lane is empty, a crossing switches to its standby lane. -/
  | crossingLaneSwitch (crossing : Nat)
  /-- CROSSING_RESYNC (R415): A dual-clock queue's four-phase resynchronisation completes after a reset and the crossing becomes ready. -/
  | crossingResync (island : Nat) (other : Nat)
  /-- DIE_LINK_CRC_RETRY (R24): A die-to-die transfer fails its CRC and is retried at link level. -/
  | dieLinkCrcRetry (link : Nat)
  /-- DIE_LINK_RETRIES_EXHAUSTED (R24): Eight consecutive retries fail and the data is delivered poisoned. -/
  | dieLinkRetriesExhausted (link : Nat) (n : Nat)
  /-- DIE_LINK_DOWN (R24): A die-to-die link stays down for 1 ms; data-path admission stops, FAULT_N asserts and the node enters FAULT. -/
  | dieLinkDown (link : Nat)
  /-- RECORDING_START (R401): After the quiesce that follows a generation entering Trace, the node snapshots flash, writes the checkpoint and resumes with recording. -/
  | recordingStart
  /-- CHUNK_SPILL (R403): The spill writer moves the next whole chunk from the recorder ring to the spill region. -/
  | chunkSpill
  /-- RECORDING_END (R404): A recording ends, spill region full or snapshot budget reached among others, and its END chunk is written. -/
  | recordingEnd (reason : Nat)
  /-- SNAPSHOT_RELEASE (R404): A region's free blocks fall below 2 % while a snapshot is held and the snapshot is released. -/
  | snapshotRelease
  /-- REPLAY_WINDOW_CLOSE (R410): A replay digest window closes and is compared with the recording; a mismatch stops the replay;
  `seq` is the sequence number of the recording's chunk it is compared with. -/
  | replayWindowClose (seq : Nat)
  /-- REPLAY_STALL (R412): No point or island makes progress for 1 s and the replay stops with REPLAY_DIVERGED. -/
  | replayStall
  /-- REPLAY_END (R410): A replay reaches its last chunk or a stop, raises COMMAND_DONE and performs a cold start. -/
  | replayEnd
  /-- POWER_GOOD (R424): All rails are in limits for 1 ms; the node samples straps and begins the cold-start sequence. -/
  | powerGood
  /-- RECOVERY_PHASE_COMPLETE (R425): A recovery phase finishes and the next begins, or recovery completes. -/
  | recoveryPhaseComplete (found : PhaseIn)
  /-- KNOWN_ANSWER_CHECK (R383): Start-up known-answer checks run pattern set 0 on every unit and retire each that mismatches. -/
  | knownAnswerCheck (bad : List BadUnit)
  /-- STANDBY_ENTRY (R424): Recovery and known-answer checks have both ended; the layout is built and the node enters STANDBY. -/
  | standbyEntry
  /-- PWR_FAIL_N_ASSERT (R434): PWR_FAIL_N held low for 2 µs is a power event: the node quiesces and starts the flush. -/
  | pwrFailNAssert
  /-- PWR_FAIL_N_GLITCH (R433): A PWR_FAIL_N pulse shorter than 2 µs is ignored and logged. -/
  | pwrFailNGlitch
  /-- FLUSH_COMPLETE (R434): The flush stream and index are written, the seal page is written and islands are held in reset. -/
  | flushComplete
  /-- HOLDUP_OK_CHANGE (R438): HOLDUP_OK falls or rises; metadata changes wait for durability while it is low. -/
  | holdupOkChange (up : Bool)
  /-- RAIL_OUT_OF_LIMITS (R437): A rail leaves its limits while PWR_FAIL_N is high and island 0 raises the power event itself. -/
  | railOutOfLimits (rail : Nat)
  /-- WARM_RESET (R422): A warm reset runs the flush with power good, resets every island except 0 and restarts from the Steward's boot. -/
  | warmReset
  /-- STEWARD_WATCHDOG (R420): The Steward pair retires no instruction for 1 s and the Steward restarts. -/
  | stewardWatchdog
  /-- ISLAND_RESET (R420): A single island is reset, by power-state exit or a port-mode change, and its crossings resynchronise. -/
  | islandReset (island : Nat)
  /-- POWER_STATE_REVERSIBLE_POINT (R430): An entry step to P2 or P3 ends at a reversible point; pending work stops the entry and the node returns to P0. -/
  | powerStateReversiblePoint
  /-- POWER_STATE_WAKE (R432): A doorbell, mailbox ring, WAKE_N, fabric frame or urgent request wakes the node to P0. -/
  | powerStateWake (src : Nat)
  /-- POWER_STATE_EXIT_COMPLETE (R431): Islands are powered, crossings resynchronised and state restored; waiting work runs. -/
  | powerStateExitComplete
  /-- POWER_MEAN_SAMPLE (R428): Every 10 µs island 62 measures package power. -/
  | powerMeanSample (mw : Nat)
  /-- POWER_CLOCK_STEP (R428): Every 100 µs the tile clock is lowered or raised 50 MHz against the 800 W envelope, or pulses are skipped. -/
  | powerClockStep
  /-- THERMAL_SAMPLE (R457): Every 100 µs island 62 reads the temperature sensors and throttles or releases by location. -/
  | thermalSample (temps : List Int) (rails : List (Nat × Nat))
  /-- THERMAL_TRIP (R459): A critical temperature held for 10 µs raises a power event and runs the flush with cause thermal. -/
  | thermalTrip
  /-- REFCLK_LOSS (R456): Island 0 declares a reference clock lost and handles it by clock. -/
  | refclkLoss (clk : Nat)
  /-- REFCLK_RETURN (R456): A lost PCIE_REFCLK or ETH_REFCLK returns and the link or port trains again. -/
  | refclkReturn (clk : Nat)
  /-- SMBUS_MIRROR_UPDATE (R464): Every 1 ms island 0 mirrors other islands' values for SMBus. -/
  | smbusMirrorUpdate
  /-- SMBUS_IDENT (R465): SMBus Block Read 0x00 returns IDENT. -/
  | smbusIdent (pec : Bool)
  /-- SMBUS_NODE_STATUS (R465): SMBus Block Read 0x01 returns NODE_STATUS. -/
  | smbusNodeStatus (pec : Bool)
  /-- SMBUS_BOOT_UPTIME (R465): SMBus Block Read 0x02 returns boot count and uptime. -/
  | smbusBootUptime (pec : Bool)
  /-- SMBUS_FAULT_CAUSE (R465): SMBus Block Read 0x03 returns FAULT_CAUSE. -/
  | smbusFaultCause (pec : Bool)
  /-- SMBUS_LAST_GASP (R465): SMBus Block Read 0x04 returns LAST_GASP and its uptime. -/
  | smbusLastGasp (pec : Bool)
  /-- SMBUS_LOG_FAIL_COUNT (R465): SMBus Block Read 0x05 returns LOG_FAIL_COUNT. -/
  | smbusLogFailCount (pec : Bool)
  /-- SMBUS_TEMPS (R465): SMBus Block Read 0x10 returns hottest sensors per die and stack. -/
  | smbusTemps (pec : Bool)
  /-- SMBUS_RAILS (R465): SMBus Block Read 0x11 returns rail voltages, currents and package power. -/
  | smbusRails (pec : Bool)
  /-- SMBUS_THERMAL (R465): SMBus Block Read 0x12 returns throttle and trip bits. -/
  | smbusThermal (pec : Bool)
  /-- SMBUS_WARM_RESET (R465): SMBus Write Word 0x40 with 0x5752 starts a warm reset. -/
  | smbusWarmReset (word : Nat) (pec : Bool)
  /-- SMBUS_UNDEFINED_CODE (R465): An SMBus read of an undefined code returns an empty block; a bad PEC is discarded. -/
  | smbusUndefinedCode (code : Nat) (pec : Bool)
  /-- JTAG_WARM_RESET (R466): JTAG instruction WARM_RESET starts a warm reset. -/
  | jtagWarmReset
  /-- JTAG_IDCODE (R466): JTAG instruction IDCODE selects the identification register. -/
  | jtagIdcode
  /-- JTAG_BYPASS (R466): JTAG instruction BYPASS, also selected by every unsupported instruction. -/
  | jtagBypass (instr : Nat)
  /-- JTAG_SAMPLE_PRELOAD (R466): JTAG instruction SAMPLE/PRELOAD. -/
  | jtagSamplePreload
  /-- JTAG_EXTEST (R466): JTAG instruction EXTEST, accepted only with STRAP_JTAG_EN at 1. -/
  | jtagExtest
  /-- JTAG_INTEST (R466): JTAG instruction INTEST, accepted only with STRAP_JTAG_EN at 1. -/
  | jtagIntest
  /-- JTAG_CLAMP (R466): JTAG instruction CLAMP, accepted only with STRAP_JTAG_EN at 1. -/
  | jtagClamp
  /-- JTAG_HIGHZ (R466): JTAG instruction HIGHZ, accepted only with STRAP_JTAG_EN at 1. -/
  | jtagHighz
  /-- PWR_FAIL_N_RELEASE (R437): PWR_FAIL_N returns high; once the flush has sealed, the node makes a cold start, and a thermal-trip hold ends. -/
  | pwrFailNRelease
  /-- HOLD_UP_ENDS (R437): Hold-up runs out during the flush, the rails fall and the flush stream is left cut short. -/
  | holdUpEnds
  /-- STEWARD_RESTART_COMPLETE (R447): The restarted Steward is ready: it takes its carried state, clears BUSY, raises FW_ACTIVATED with status 0 and resumes mailbox service. -/
  | stewardRestartComplete
  /-- MSIX_ENTRY_MASK (R322): The host sets the mask bit of an MSI-X table entry, and later messages for it set the pending bit instead of being sent. -/
  | msixEntryMask (fn : Nat) (ent : Nat)
  /-- SRIOV_VF_ENABLE (R299): The host enables or disables SR-IOV virtual functions in function 0's SR-IOV capability, and a VF that is not enabled answers nothing. -/
  | sriovVfEnable (vfs : Nat)
  /-- BAR2_RESIZE (R300): The host writes BAR2's Resizable BAR control, setting the window size from 1 to 256 GiB. -/
  | bar2Resize (gib : Nat)
  /-- QUEUE_ENGINE_INTERNAL_TIMEOUT (R324): The queue engine detects an internal timeout in island 59, which raises viral, sets FAULT_CAUSE queue_engine and builds a signature record with cause 0x0A. -/
  | queueEngineInternalTimeout
  /-- LOCKSTEP_DISAGREEMENT (R324): The Steward's lockstep pair disagrees, which raises viral and builds a fatal signature record with cause 0x09. -/
  | lockstepDisagreement
  /-- MBX_DOMAIN_DOWN_TIMEOUT (R329): A Zalpol command that has waited 1 s for a domain in reset or powered off completes with MBX_DOMAIN_DOWN. -/
  | mbxDomainDownTimeout (box : Nat)
  deriving DecidableEq, Repr

end Sys2Proof
end

