-- ==== Sys2Proof/Decode.lean ====
section
/-! DEFINITION. The table's words. No row of the table gives bits: the block's commands are register accesses, frames,
pins and events, not encoded words. -/

namespace Sys2Proof

/-- No word spells a command: no row of the table gives bits. -/
def decodeTableWord (_nbits _w : Nat) : Option Instr := none

end Sys2Proof
end

