-- ==== Sys2Proof/Config.lean ====
section
/-! DEFINITION. What the spec leaves open: free values, opaque constants of which nothing can be proved. Each is named
in the assumption log. -/

namespace Sys2Proof.Config

/-- FP32 result of an activation (0 ReLU is computed; 1 GELU-tanh, 2 SiLU, 3 exp2, 4 reciprocal) on an ordinary FP32
input: R74 gives an error bound and says one fixed algorithm is used, but not which. Log entry 10. -/
opaque activation : Nat → BitVec 32 → BitVec 32

/-- FP32 square root of a squared norm (R101): the spec does not say how it is rounded. Log entry 11. -/
opaque norm : BitVec 32 → BitVec 32

/-- How many conversion records a unit of a kind (0 tile, 1 culm) can hold (R86: a unit can run out of them; how many it has is not
given). Log entry 88. -/
opaque cvtRecords : Nat → Nat

/-- The object that holds the scales of an object's elements where no field of the spec names it (R83: a bran tensor is its own
object; R71, R90, R159, R181 name no handle for it): by the data object's handle. Log entry 21. -/
opaque branObject : Nat → Nat

/-- Where a channel-local object begins in its pseudo-channel, in units of 64 bytes (R174, R183: offsets within the pseudo-channel;
no rule gives the address of an object): by handle. Log entry 73. -/
opaque channelBase : Nat → Nat

/-- A centroid row after retraining (R109 names no algorithm): by collection, row and epoch. Log entry 12. -/
opaque retrained : Nat → Nat → Nat → Bytes

/-- A row of a re-hashed embedding table (R165): by table, row and epoch. Log entry 12. -/
opaque rehashedRow : Nat → Nat → Nat → Bytes

/-- The n-th draw of the node's random source (R271). Log entry 13. -/
opaque randomDraw : Nat → Nat

/-- ECDSA P-384 verification of an image or table: (signed bytes, signature, public key) (R446). Log entry 14. -/
opaque signatureValid : Bytes → Bytes → Bytes → Bool

/-- SHA-384 of a byte string (R446, R449). Log entry 14. -/
opaque sha384 : Bytes → Bytes

/-- The fused SHA-384 value of the public key in island 1 (R446). Log entry 14. -/
opaque fusedKeyHash : Bytes

/-- AES-256-GCM opening of a frame under the stream key of R345: (key, info, nonce, frame) to the frame with its payload
in clear, or none where authentication fails. Log entry 14. -/
opaque gcmOpen : Bytes → Bytes → Nat → Bytes → Option Bytes

/-- AES-256-GCM sealing of a frame (R345). Log entry 14. -/
opaque gcmSeal : Bytes → Bytes → Nat → Bytes → Bytes

/-- RFC 5649 unwrapping of a wrapped fabric key under half of a tenant's XTS key (R440). Log entry 14. -/
opaque keyUnwrap : Bytes → Bytes → Option Bytes

/-- XTS-AES-256 of a byte string under a key and tweak (R270, R402). Log entry 14. -/
opaque xts : Bytes → Nat → Bytes → Bytes

/-- The 128-bit unique ID fused in the node (R384). Log entry 15. -/
opaque platformId : Bytes

/-- The event code the firmware's log dictionary gives a named event (R389). Log entry 16. -/
opaque logCode : Nat → Nat

/-- Whether the firmware's pattern library holds a pattern set for a unit kind (R380). Log entry 17. -/
opaque patternSetHeld : Nat → Nat → Bool

/-- The payload of an SPDM or CXL answer that its own standard fixes, by request number and the request's bytes
(R298, R449). Log entry 18. -/
opaque standardPayload : Nat → Bytes → Bytes

/-- The supply (mV), clock (MHz) and temperature measured at a unit when a record is built (R386): by 3 × unit kind + quantity, and
unit.
Log entry 19. -/
opaque measured : Nat → Nat → Nat

/-- Code of the system-mailbox event of a recording's end (R404 asks for one; R337 lists none). Log entry 16. -/
opaque recordingEvent : Nat

/-- Code of the event item of a quarantine (R361 asks for a telemetry event; R337 lists none). Log entry 16. -/
opaque violationEvent : Nat

/-- The block of a T0 copy, as (object index, 64-byte block), that a tile's SRAM byte address holds (R376; the layout of T0 in a
tile is not given): by tile and address. Log entry 42. -/
opaque sramObject : Nat → Nat → Option (Nat × Nat)

/-- The half a list entry joins in a 2-means iteration at equal distances (R109): by collection, list and position.
Log entry 12. -/
opaque splitTie : Nat → Nat → Nat → Bool

/-- emax of an element format for which R78 gives none (FP32, BF16, FP16), where a destination of it has an E8M0 scale to be chosen.
Log entry 87. -/
opaque otherEmax : Nat → Int

/-- What a list object holds where the layout of R92 and R93 gives no value, by list handle, kind and index: 0 the address of a
segment, 1 a reclaimed ring slot, 2 the first ring slot's index, 3 to 5 sketch, ID and entry word of a position nothing was
appended to. Log entry 63. -/
opaque listSpare : Nat → Nat → Nat → Nat

/-- Whether the tile clock pulses of a nanosecond are skipped while the power envelope skips pulses (R428): the pattern is not
given. By uptime. Log entry 37. -/
opaque pulseSkipped : Nat → Bool

/-- The unit fields (unit_kind and unit, 24 bits) of the combined conversion record (R86 says how its sums are formed and not
which unit it names): by tag. Log entry 38. -/
opaque combinedUnit : Nat → BitVec 24

/-- Whether a media table's signature passes the check of R255 (its place in the file is not given). Log entry 14. -/
opaque mediaTableSigned : Bytes → Bool

/-- The media tables a firmware image carries behind its header (R255, R446: their place in the body is not given). Log entry 14. -/
opaque imageTables : Bytes → List Bytes

/-- Stream ID of a background stream at a flash channel, by the row of its bucket: 0 gleaner, 3 wear levelling, 4 folding and garbage collection,
5 rebuild and drain (log entry 121). -/
opaque backStream : Nat → Nat

/-- Instructions the Steward has retired at an uptime, and the number of an interrupt source (log entry 121). -/
opaque stewardRetired : Nat → Nat
opaque stewardSource : Nat → Nat

/-- The inverse of xts: XTS-AES-256 decryption under a key and tweak (R402). Log entry 14. -/
opaque xtsOpen : Bytes → Nat → Bytes → Bytes

/-- The kind field of a digest event (R409: the kinds are not given): by what was written, as log entry 44 numbers it. -/
opaque digestKind : Nat → BitVec 16

/-- The state image of an island, or the Steward's SRAM image (64), in a starting checkpoint (R401, R408: not laid out): by
snapshot and island. Log entry 44. -/
opaque islandImage : Nat → Nat → Bytes

/-- Where a T4 home begins in the bytes of the T4 windows, taken one window behind another (R229, R350: not given): by handle.
Log entry 26. -/
opaque poolStart : Nat → Nat

/-- Whether two islands cross besides the pairs the model knows (R29: the crossings are not listed): by sending and receiving
island. Log entry 33. -/
opaque otherCrossing : Nat → Nat → Bool

/-- The boot ROM of island 1 (R449: measured, not given). Log entry 18. -/
opaque bootRom : Bytes

/-- The bytes of the retired-unit list (R376, R449: not laid out), of its tiles, culms and crossings. Log entry 18. -/
opaque retiredList : List (Nat × Nat) → List (Nat × Nat) → List Nat → Bytes

end Sys2Proof.Config
end

