-- ==== Sys2Proof/Machine/State.lean ====
section
/-! DEFINITION. The state of the block as plain data: every register, queue, table, counter, mode and pin the
spec gives the node, the queue of waiting commands, and the state right after reset. -/

namespace Sys2Proof.Machine

/-- R305, R358: the node's state -/
inductive NodeState where
  | start
  | standby
  | service
  | recovery
  | fault
  deriving DecidableEq, Repr

/-- R311: a queue pair's state -/
inductive QState where
  | disabled
  | enabled
  | error
  | timedOut
  deriving DecidableEq, Repr

/-- R237: state of an object's upper copy -/
inductive UpState where
  | absent
  | promoting
  | resident
  | evicting
  | writingBack
  | freeing
  deriving DecidableEq, Repr

/-- R204: states of a husk (waitingSlot: submitted, no slot yet, R214) -/
inductive HState where
  | waitingSlot
  | admitted
  | preparing
  | waiting
  | computing
  | grouped
  | committing
  | visible
  | failed
  deriving DecidableEq, Repr

/-- R334 CHANNEL_STATUS: a flash channel's state -/
inductive ChState where
  | inService
  | draining
  | retired
  | admitting
  deriving DecidableEq, Repr

/-- R334 THRESH_STATUS -/
inductive RunState where
  | queued
  | running
  | done
  deriving DecidableEq, Repr

/-- R404: END reasons 0 to 4 -/
inductive RecEnd where
  | left
  | spillFull
  | budget
  | ringError
  | warmReset
  deriving DecidableEq, Repr

/-- R466: the instruction selected in island 63 -/
inductive JtagIr where
  | idcode
  | bypass
  | sample
  | warmReset
  | extest
  | intest
  | clamp
  | highz
  deriving DecidableEq, Repr

/-- R449: progress of the SPDM connection -/
inductive SpdmPhase where
  | idle
  | versioned
  | capable
  | negotiated
  | sessionOpening
  | session
  deriving DecidableEq, Repr


/-- one posted write of the node to host memory (R317) -/
structure HostWr where
  /-- the function whose memory is written (R299). -/
  fn : Nat := 0
  /-- host address (R317). -/
  addr : Nat := 0
  /-- the bytes (R317). -/
  bytes : Bytes := []
  /-- EP set: the data is lost (R324). -/
  ep : Bool := false
  deriving DecidableEq, Repr

/-- a completion entry before it is written (R103) -/
structure Compl where
  /-- command identifier (R103). -/
  cid : Nat := 0
  /-- status (R338). -/
  status : Nat := 0
  /-- ENTRY_UNREAD (R103). -/
  unread : Bool := false
  /-- field at 0x08 (R103). -/
  epoch : Nat := 0
  /-- field at 0x10 (R103). -/
  count : Nat := 0
  /-- field at 0x14 (R103). -/
  detail : Nat := 0
  /-- field at 0x16 (R103). -/
  fieldIn : Nat := 0
  /-- field at 0x18 (R103). -/
  fieldOffset : Nat := 0
  /-- result data written before the entry (R317). -/
  data : List HostWr := []
  /-- uptime since which it waits with the CQ full (or in D3hot) (R318). -/
  since : Option Nat := none
  /-- (sheaf, batch) whose place in staging it holds (R57). -/
  batch : Option (Nat × Nat) := none
  deriving DecidableEq, Repr

/-- a submission entry that was fetched and not yet admitted (R314) -/
structure Fetched where
  /-- SQ slot (R314). -/
  slot : Nat := 0
  /-- the entry as the fetch returned it (R314). -/
  entry : Bytes := []
  /-- uptime at which it began to wait (R365). -/
  since : Nat := 0
  deriving DecidableEq, Repr

/-- a pending WAIT_GE (R226) -/
structure WaitGe where
  /-- command identifier (R226). -/
  cid : Nat := 0
  /-- binder ID (R226). -/
  binder : Nat := 0
  /-- target value (R226). -/
  target : Nat := 0
  /-- uptime of the timeout (R226). -/
  deadline : Nat := 0
  deriving DecidableEq, Repr

/-- a queue pair (R312) -/
structure Qp where
  /-- owner (R311). -/
  tenant : Nat := 0
  /-- queue context as QUEUE_CREATE loaded it (R312). -/
  ctx : Bytes := []
  /-- state (R311). -/
  qstate : QState := .disabled
  /-- doorbell_invalid (R311). -/
  dbInvalid : Bool := false
  /-- host_access (R311). -/
  hostAccess : Bool := false
  /-- next SQ entry to fetch (R311). -/
  sqHead : Nat := 0
  /-- latest tail seen (R314). -/
  sqTail : Nat := 0
  /-- CQ head as the host released it (R313). -/
  cqHead : Nat := 0
  /-- next CQ slot to write (R311). -/
  cqTail : Nat := 0
  /-- CQ phase of the current pass (1 at enable) (R312). -/
  phase : Bool := true
  /-- head command waits at admission (R311). -/
  wait : Bool := false
  /-- entries fetched, in SQ order (R319). -/
  fetched : List Fetched := []
  /-- completions waiting in staging, in order (R57). -/
  staged : List Compl := []
  /-- completions written since the last message (R322). -/
  unsignalled : Nat := 0
  /-- uptime of the first unsignalled completion (R322). -/
  firstUnsig : Option Nat := none
  /-- the pending WAIT_GE of this submission queue (R226). -/
  waitGe : Option WaitGe := none
  /-- QUEUE_DELETE in progress (R320). -/
  deleting : Bool := false
  /-- WFQ finish tag (scaled by 65536) (R364). -/
  wftag : Nat := 0
  deriving DecidableEq, Repr

/-- a range-lock key (R207) -/
structure Range where
  /-- 0 CONFIG to 5 BUCKET (R207). -/
  space : Nat := 0
  /-- name (R207). -/
  name : Nat := 0
  /-- start (R207). -/
  lo : Nat := 0
  /-- end (inclusive) (R207). -/
  hi : Nat := 0
  /-- X (exclusive) rather than S (R208). -/
  excl : Bool := false
  deriving DecidableEq, Repr

/-- one entry of the range-lock table: a range held or waiting for one holder (R213) -/
structure Lock where
  /-- the holder is a husk (else a command) (R213). -/
  husk : Bool := false
  /-- the husk's age or the command's number (R213). -/
  id : Nat := 0
  /-- the range (R207). -/
  range : Range := {}
  /-- granted (else waiting) (R213). -/
  held : Bool := false
  deriving DecidableEq, Repr

/-- the selection kept for one item: winnow output turned into weights (R122, R140) -/
structure Sel where
  /-- (payload, weight as FP32 bits), best first (R141). -/
  slots : List (Nat × Nat) := []
  /-- expert run of each slot (R141). -/
  runs : List Nat := []
  /-- nan_count (R141). -/
  nan : Nat := 0
  /-- FP32 selected sum (R141). -/
  sumSel : Nat := 0
  /-- FP32 left-out sum (R141). -/
  sumRest : Nat := 0
  /-- FALLBACK flag (R141). -/
  fell : Bool := false
  /-- POISON flag (R141). -/
  poison : Bool := false
  deriving DecidableEq, Repr

/-- a coordinator merge in progress (R135) -/
structure Fan where
  /-- the coordinator's own list, merged so far (R135). -/
  mine : Part := {}
  /-- (owner node, lists asked of it) not yet answered (R111). -/
  owed : List (Nat × Nat) := []
  /-- lists missing (R102). -/
  missing : Nat := 0
  /-- chaff met (R102). -/
  chaff : Nat := 0
  /-- uptime of fanout_timeout (R113). -/
  deadline : Nat := 0
  /-- distinct lists scanned (R102). -/
  lists : Nat := 0
  /-- scores of `mine` are FP32, else INT32 (R114). -/
  fp : Bool := true
  /-- NaN-scored candidates of the CENTROID row (R120). -/
  nans : Nat := 0
  /-- a coordinator slot is held (R135). -/
  slot : Bool := false
  deriving DecidableEq, Repr

/-- what a command's completion and result data will be (R317) -/
structure Result where
  /-- status (R338). -/
  status : Nat := 0
  /-- count (R103). -/
  count : Nat := 0
  /-- detail (R103). -/
  detail : Nat := 0
  /-- field_in (R103). -/
  fieldIn : Nat := 0
  /-- field_offset (R103). -/
  fieldOffset : Nat := 0
  /-- result data (R317). -/
  bytes : Bytes := []
  /-- host address of the result data (R317). -/
  addr : Nat := 0
  /-- stretches of the result data that hold lost data: (offset, bytes); none under POISON: all of it (R324). -/
  lost : List (Nat × Nat) := []
  /-- value of the field at 0x08 where it is not the bound epoch (R103). -/
  word : Option Nat := none
  deriving DecidableEq, Repr

/-- an admitted command (R31) -/
structure Cmd where
  /-- queue pair; 0xFFF for a sub-search or Zalpol work (R316). -/
  qp : Nat := 0
  /-- the item's tenant (R49). -/
  tenant : Nat := 0
  /-- opcode (R316). -/
  opcode : Nat := 0
  /-- command identifier (R316). -/
  cid : Nat := 0
  /-- the submission entry (R316). -/
  entry : Bytes := []
  /-- bound epoch (R194). -/
  epoch : Option Nat := none
  /-- barrier ID of a BARRIER search (R112). -/
  barrier : Option Nat := none
  /-- class of the generation at the bound epoch (or carried) (R119). -/
  cls : Nat := 0
  /-- sheaf of the steering entry version matched (R315). -/
  sheaf : Option Nat := none
  /-- that sheaf's descriptor in the generation in force at admission (R32). -/
  desc : Bytes := []
  /-- items of the command (R47). -/
  items : Nat := 0
  /-- its items have joined batches (R47). -/
  arrived : Bool := false
  /-- items that left the terminal stage (R47). -/
  itemsDone : Nat := 0
  /-- an item has started (R320). -/
  started : Bool := false
  /-- the command's own step has run on its host data (R98). -/
  ran : Bool := false
  /-- its ranges are granted (R209). -/
  holds : Bool := false
  /-- pins it holds (object index × 8 + tier pinned) (R239). -/
  pins : List Nat := []
  /-- selection records of its items (R141). -/
  sels : List Sel := []
  /-- input rows of its items (activations) (R146). -/
  rows : List Bytes := []
  /-- items whose reads or operations met lost data (R61, R148, R192). -/
  bad : List Nat := []
  /-- the query block of a search, as its stages need it (R99). -/
  query : Bytes := []
  /-- lists to scan: (rank, list ID, directory entry) (R98). -/
  probe : List (Nat × Nat × Bytes) := []
  /-- candidates of the first selection, which the RERANK stage reads (R100). -/
  cand : List Hit := []
  /-- rows its items read: (index, weight) by item (R162, R167). -/
  bags : List (List (Nat × Nat)) := []
  /-- merged lists delivered by the stook: (stage, item, partition, list) (R132). -/
  merged : List (Nat × Nat × Nat × Part) := []
  /-- sub-searches to be sent at the SCAN stage: (owner, lists) (R111, R135). -/
  ask : List (Nat × List Nat) := []
  /-- submitted by the Steward with the piecewise attribute (R127). -/
  piecewise : Bool := false
  /-- coordinator merge (R135). -/
  fan : Option Fan := none
  /-- the outcome to be written (R317). -/
  result : Option Result := none
  /-- output, completion and interrupt suppressed (R320). -/
  suppressed : Bool := false
  /-- status a read of its items met (0 for none) (R61). -/
  viol : Nat := 0
  /-- (coordinator node, message ID) of a sub-search (R348). -/
  peer : Option (Nat × Nat) := none
  deriving DecidableEq, Repr

/-- one entry of an index list (R93) -/
structure LEnt where
  /-- vector ID (R93). -/
  id : Nat := 0
  /-- sketch bits (R93). -/
  sketch : Nat := 0
  /-- bitmap bit (R93). -/
  settled : Bool := false
  /-- TOMB (R93). -/
  tomb : Bool := false
  /-- delete epoch (R93). -/
  delEpoch : Nat := 0
  /-- exact vector (with its scales) (R90). -/
  exact : Bytes := []
  /-- coarse vector (with its scales) (R90). -/
  coarse : Bytes := []
  deriving DecidableEq, Repr

/-- one epoch-ring slot (R92) -/
structure Ring where
  /-- epoch (R92). -/
  epoch : Nat := 0
  /-- length at that epoch (R92). -/
  len : Nat := 0
  /-- chaff at that epoch (R92). -/
  chaff : Nat := 0
  deriving DecidableEq, Repr

/-- a list object with its extents (R92) -/
structure IList where
  /-- collection ID (R92). -/
  coll : Nat := 0
  /-- list ID (R92). -/
  list : Nat := 0
  /-- entries by position (R93). -/
  ents : List LEnt := []
  /-- epoch ring, newest first (R92). -/
  ring : List Ring := []
  /-- ring slots written so far (ring_head counts them on from its start) (R92). -/
  head : Nat := 0
  /-- culm (T1) that holds it (R91). -/
  culm : Nat := 0
  /-- exact_extent handle (R92). -/
  exactH : Nat := 0
  /-- coarse_extent handle (R92). -/
  coarseH : Nat := 0
  /-- in T1 (culm scan) rather than T2 (tile scan) (R90). -/
  t1 : Bool := true
  /-- installed over at this epoch, freed below the floor (R222). -/
  freeAfter : Option Nat := none
  deriving DecidableEq, Repr

/-- one action of a husk (R199) -/
structure Action where
  /-- R200 code (R200). -/
  kind : Nat := 0
  /-- flags (R199). -/
  flags : Nat := 0
  /-- collection ID (R199). -/
  coll : Nat := 0
  /-- length of source data (R199). -/
  len : Nat := 0
  /-- target (R199). -/
  target : Nat := 0
  /-- source: payload offset (R199). -/
  src : Nat := 0
  /-- arg (R199). -/
  arg : Nat := 0
  /-- the source bytes (R199). -/
  data : Bytes := []
  /-- journal extents that hold a computed result: the numbers of their units (R181). -/
  exts : List Nat := []
  deriving DecidableEq, Repr

/-- the resolution of one action (R216) -/
structure Resn where
  /-- list ID used (R216). -/
  list : Nat := 0
  /-- list position assigned (R216). -/
  pos : Nat := 0
  /-- bucket written (R216). -/
  bucket : Nat := 0
  /-- map slot (R216). -/
  slot : Nat := 0
  /-- outcome 1 (R216). -/
  skipped : Bool := false
  /-- the insert's ID was absent: its map slot is one more (R94, R106). -/
  fresh : Bool := false
  /-- list segment allocated; 0xFFFFFFFF for none (R216). -/
  segment : Nat := 0xFFFFFFFF
  /-- epoch of the entry version replaced; 0 for none (R216). -/
  replaced : Nat := 0
  deriving DecidableEq, Repr

/-- a husk (R198) -/
structure Husk where
  /-- age, taken at admission (R204). -/
  age : Nat := 0
  /-- tenant (R198). -/
  tenant : Nat := 0
  /-- actions (R199). -/
  actions : List Action := []
  /-- state (R204). -/
  hstate : HState := .waitingSlot
  /-- husk slot (R198). -/
  slot : Option Nat := none
  /-- (binder ID, allocation number) of BINDER (R198). -/
  binder : Option (Nat × Nat) := none
  /-- times wounded (R198). -/
  wounds : Nat := 0
  /-- commit epoch (R198). -/
  epoch : Nat := 0
  /-- the queue command it completes (R197). -/
  cmd : Option Nat := none
  /-- the mailbox whose Zalpol command it completes (R198). -/
  mbx : Option Nat := none
  /-- the rebuild whose swap it is (R224). -/
  rebuild : Option Nat := none
  /-- locks still to be requested, in order (R205). -/
  plan : List Range := []
  /-- step 2 done (R205). -/
  resolved : Bool := false
  /-- resolutions (R216). -/
  resns : List Resn := []
  /-- lock-table entries reserved (R213). -/
  reserved : Nat := 0
  /-- staging object that its payload takes (0: none) (R203). -/
  staging : Nat := 0
  /-- a CONFIG husk (R208). -/
  config : Bool := false
  /-- pins on the objects it writes (index × 8 + tier) (R239). -/
  pins : List Nat := []
  /-- (collection, full list) whose split it waits for (R108). -/
  waitList : Option (Nat × Nat) := none
  /-- culm operations still to end (COMPUTING) (R181). -/
  ops : Nat := 0
  /-- culm operations issued (COMPUTING) (R181). -/
  issued : Nat := 0
  /-- ELEMENTWISE destination is persistent: extents are written (R181). -/
  persistent : Bool := false
  /-- class bits of its actions as its group closed (R198). -/
  cls : Nat := 0
  /-- shadow lists of a rebuild's swap as its record's close left them: (list object, contents) (R217, R224). -/
  shadows : List (Nat × IList) := []
  deriving DecidableEq, Repr

/-- a journal record (R216) -/
structure JRec where
  /-- sequence (R216). -/
  seq : Nat := 0
  /-- commit epoch E + 1 (R216). -/
  epoch : Nat := 0
  /-- boot count (R216). -/
  boot : Nat := 0
  /-- uptime at the group's close (R216). -/
  uptime : Nat := 0
  /-- generation in force (R216). -/
  gen : Nat := 0
  /-- the husk sections: (age, husk) (R216). -/
  husks : List (Nat × Husk) := []
  /-- on the SLC region whole (R215). -/
  durable : Bool := false
  /-- CRC-32C at the record's end (R216). -/
  crc : Nat := 0
  /-- byte of the journal at which the record begins (R244). -/
  pos : Nat := 0
  deriving DecidableEq, Repr

/-- a barrier-table entry (R223) -/
structure Barrier where
  /-- barrier ID (R223). -/
  id : Nat := 0
  /-- recorded epoch (R223). -/
  epoch : Nat := 0
  /-- node-to-epoch map stored by BARRIER_MAP (R359). -/
  map : List (Nat × Nat) := []
  deriving DecidableEq, Repr

/-- an allocated binder (R225) -/
structure Binder where
  /-- value (R225). -/
  value : Nat := 0
  /-- tenant (R225). -/
  owner : Nat := 0
  /-- SATURATED (R225). -/
  saturated : Bool := false
  /-- identity of this allocation (R198). -/
  alloc : Nat := 0
  deriving DecidableEq, Repr

/-- one version of a versioned table entry (R219) -/
structure TVer where
  /-- table handle; 0 for the collection table (R201). -/
  table : Nat := 0
  /-- entry index; 2^64 - 1 for the header (R201). -/
  index : Nat := 0
  /-- commit epoch (R219). -/
  tag : Nat := 0
  /-- the entry (none: deleted) (R219). -/
  data : Option Bytes := none
  deriving DecidableEq, Repr

/-- counters of a collection (R334 COLLECTION_STATS) -/
structure CStat where
  /-- ring waits (R334). -/
  ringWaits : Nat := 0
  /-- list-full waits (R334). -/
  fullWaits : Nat := 0
  /-- late answers (R334). -/
  late : Nat := 0
  deriving DecidableEq, Repr

/-- a background rebuild (R224) -/
structure Rebuild where
  /-- 0 sweep, 1 split, 2 merge, 3 retrain, 4 re-hash (R334). -/
  kind : Nat := 0
  /-- collection ID or embedding table handle (R334). -/
  coll : Nat := 0
  /-- list ID (R334). -/
  list : Nat := 0
  /-- second list ID (R334). -/
  list2 : Nat := 0
  /-- rows (re-hash) (R334). -/
  rows : Nat := 0
  /-- seed (re-hash) (R334). -/
  seed : Nat := 0
  /-- hash (re-hash) (R334). -/
  hash : Nat := 0
  /-- running (else queued behind one of its target) (R224). -/
  running : Bool := false
  /-- epoch at which the shadow began (R224). -/
  since : Nat := 0
  /-- mailbox that asked (COMMAND_DONE goes there) (R336). -/
  mbx : Option Nat := none
  /-- seq of that request (R336). -/
  seq : Nat := 0
  deriving DecidableEq, Repr

/-- a MOVE command waiting on an object (R238) -/
structure MoveW where
  /-- command number (R236). -/
  cmd : Nat := 0
  /-- an eviction by MOVE (else a promotion) (R238). -/
  evict : Bool := false
  /-- a rehome (R247). -/
  rehome : Bool := false
  /-- target tier (R236). -/
  tier : Nat := 0
  /-- place field (R236). -/
  place : Nat := 0
  deriving DecidableEq, Repr

/-- a rehome in progress (R247) -/
structure Rehome where
  /-- new home tier (R247). -/
  tier : Nat := 0
  /-- place field (R236). -/
  place : Nat := 0
  /-- command number (R247). -/
  cmd : Nat := 0
  deriving DecidableEq, Repr

/-- an entry of the object table with the object's bytes (R233) -/
structure ObjRec where
  /-- handle (R233). -/
  handle : Nat := 0
  /-- bytes (R233). -/
  size : Nat := 0
  /-- home tier (R233). -/
  home : Nat := 1
  /-- tier of the upper copy (R233). -/
  upper : Nat := 255
  /-- state (R233). -/
  st : UpState := .absent
  /-- R71 format word (R233). -/
  format : Nat := 0
  /-- DIRTY (R233). -/
  dirty : Bool := false
  /-- CHECKPOINT (R233). -/
  checkpoint : Bool := false
  /-- PROTECTED (R233). -/
  protected_ : Bool := false
  /-- a T1 home is CHANNEL_LOCAL (R233). -/
  chanLocal : Bool := false
  /-- pseudo-channel of a channel-local T1 home (R233). -/
  place : Nat := 0
  /-- turns at each move of the upper copy between places: pins taken before it are told apart (R239). -/
  turn : Bool := false
  /-- place of the upper copy, as a place field names it: bit 15 CHANNEL_LOCAL, [8:0] (R236). -/
  placeUp : Nat := 0
  /-- place of the copy being made in `target` (R238). -/
  placeNext : Nat := 0
  /-- place of the location being released (R239). -/
  placeOld : Nat := 0
  /-- pins on the home copy (R239). -/
  pinsHome : Nat := 0
  /-- pins on the upper copy (R239). -/
  pinsUpper : Nat := 0
  /-- pins on a location being released after a switch (R239). -/
  pinsOld : Nat := 0
  /-- tier of the location being released (R247). -/
  old : Option Nat := none
  /-- host_pins (R233). -/
  hostPins : Nat := 0
  /-- last_touch (R233). -/
  lastTouch : Nat := 0
  /-- written_epoch (R233). -/
  writtenEpoch : Nat := 0
  /-- the object's bytes as readers find them (unlisted: 0, zero-filled by ALLOC) (R230). -/
  mem : Mem := []
  /-- the home copy's bytes while a dirty upper copy differs (R244). -/
  homeMem : Mem := []
  /-- 64-byte blocks that are poisoned (R373). -/
  poison : List Nat := []
  /-- dirty-page map (R243). -/
  pages : List Nat := []
  /-- uptime of the first dirty write (R244). -/
  dirtySince : Option Nat := none
  /-- epoch noted at the start of the write-back (R244). -/
  wbEpoch : Nat := 0
  /-- pages on their way to a home in T4 by a cleaning (R244). -/
  cleaning : List Nat := []
  /-- MOVE commands waiting (R238). -/
  waiters : List MoveW := []
  /-- rehome in progress (R247). -/
  rehome : Option Rehome := none
  /-- tier a RESIDENT copy is being copied to (move between tiers) (R238). -/
  target : Nat := 255
  /-- the FREE command to complete (R248). -/
  freeCmd : Option Nat := none
  /-- header (or FREEING) durable (R248). -/
  durable : Bool := true
  /-- results computed in place, X range held (R181). -/
  culmOnly : Bool := false
  /-- allocated by the node itself (staging, SYSTEM) (R232). -/
  node : Bool := false
  deriving DecidableEq, Repr

/-- an item of a batch (R47) -/
structure Item where
  /-- command number (R47). -/
  cmd : Nat := 0
  /-- index in the command (R47). -/
  idx : Nat := 0
  deriving DecidableEq, Repr

/-- a batch (R47) -/
structure Batch where
  /-- place in the order of the sheaf's batches, which no generation restarts (model's own number of a batch) (R47). -/
  num : Nat := 0
  /-- sequence number (R47). -/
  seq : Nat := 0
  /-- items in order (R47). -/
  items : List Item := []
  deriving DecidableEq, Repr

/-- run-time state of a sheaf (R47) -/
structure SheafRt where
  /-- generation its batches are numbered under (R47). -/
  ver : Nat := 0
  /-- items of the batch being formed (R47). -/
  open_ : List Item := []
  /-- uptime of its first item (R47). -/
  since : Option Nat := none
  /-- batches closed: the place of the next one in the sheaf's order (R47). -/
  next : Nat := 0
  /-- place of the batch that has sequence number 0 (R47). -/
  base : Nat := 0
  /-- batches holding a place in staging (R57). -/
  staged : List Nat := []
  /-- places in staging freed, cumulative (R57). -/
  freed : Nat := 0
  deriving DecidableEq, Repr

/-- a stretch of what an awn has to read for a batch (R58), with the scales that go with it (R61), or one culm operation (R174) -/
structure Seg where
  /-- items it serves: (command number, index in the command) (R61). -/
  users : List (Nat × Nat) := []
  /-- object read (R59). -/
  handle : Nat := 0
  /-- offset of the first byte of the stretch, to which the scales are counted (R83). -/
  base : Nat := 0
  /-- next byte to be read (R59). -/
  off : Nat := 0
  /-- end of the stretch (R59). -/
  stop : Nat := 0
  /-- version of the data that its items see (R26). -/
  ver : Nat := 0
  /-- object of the scales; 0 for none (R83). -/
  bran : Nat := 0
  /-- offset of the scales of the first byte (R83). -/
  branOff : Nat := 0
  /-- bytes of scales for `unit` bytes of data (R83). -/
  branUnit : Nat := 0
  /-- bytes of data that `branUnit` bytes of scales go with (R83). -/
  unit : Nat := 1
  /-- expert it belongs to: (index, version, table) (R151). -/
  expert : Option (Nat × Nat × Nat) := none
  /-- culm that is to run `op` (R174). -/
  culm : Option Nat := none
  /-- the operation's record and payload, its header's culm, tenant and tag still 0 (R174). -/
  op : Bytes := []
  /-- handles behind the operation's offsets (R183). -/
  objs : List Nat := []
  deriving DecidableEq, Repr

/-- what an awn still has to read for one batch (R58) -/
structure Stream where
  /-- the batch (R59). -/
  num : Nat := 0
  /-- stretches left, in order (R59). -/
  left : List Seg := []
  /-- experts whose stretches have been taken up (R151). -/
  got : List (Nat × Nat × Nat) := []
  deriving DecidableEq, Repr

/-- run-time state of one stage on one tile (R48, R53) -/
structure StageRt where
  /-- (predecessor stage, batch) in input slots; 255 for the head's own batches (R45). -/
  inputs : List (Nat × Batch) := []
  /-- batch started (R53). -/
  running : Option Batch := none
  /-- uptime of the batch start (R156). -/
  startAt : Nat := 0
  /-- what its awn has to read, by batch (R58). -/
  streams : List Stream := []
  /-- partial lists of the batch sent to the stook: (item, partition) (R132). -/
  sent : List (Nat × Nat) := []
  /-- landing-zone bytes in use (R59). -/
  landing : Nat := 0
  /-- bran-region bytes in use (R61). -/
  bran : Nat := 0
  /-- expert the stage holds on: (index, version, table) (R156). -/
  holdOn : Option (Nat × Nat × Nat) := none
  /-- experts run for this batch (R151). -/
  ranEx : List (Nat × Nat × Nat) := []
  deriving DecidableEq, Repr

/-- credits on one edge (R54) -/
structure Edge where
  /-- batches granted a credit and not yet freed (R54). -/
  out : List Nat := []
  /-- credits the predecessor holds and has not spent (R53). -/
  held : List Nat := []
  /-- next batch to be granted, in sequence order (R54). -/
  granted : Nat := 0
  /-- Gray-coded cumulative count of slots freed (successor side) (R55). -/
  freed : Nat := 0
  /-- that count as the predecessor last saw it (R55). -/
  seen : Nat := 0
  deriving DecidableEq, Repr

/-- a stage counter record (R64) -/
structure Stat where
  /-- busy (R64). -/
  busy : Nat := 0
  /-- starve (R64). -/
  starve : Nat := 0
  /-- block (R64). -/
  block : Nat := 0
  /-- awn_wait (R64). -/
  awnWait : Nat := 0
  /-- hold (R64). -/
  hold : Nat := 0
  /-- share (R64). -/
  share : Nat := 0
  /-- swap (R64). -/
  swap : Nat := 0
  /-- batches (R64). -/
  batches : Nat := 0
  /-- items (R64). -/
  items : Nat := 0
  /-- awn_bytes (R64). -/
  awnBytes : Nat := 0
  /-- awn_discard (R64). -/
  awnDiscard : Nat := 0
  /-- fallback_items (R64). -/
  fallback : Nat := 0
  deriving DecidableEq, Repr

/-- an awn read: outstanding, or landed and held until its stage has used it (R59) -/
structure AwnRd where
  /-- stage-on-tile key that issued it (R59). -/
  stage : Nat := 0
  /-- batch it serves (R59). -/
  num : Nat := 0
  /-- items it serves: (command number, index in the command) (R60). -/
  users : List (Nat × Nat) := []
  /-- what it reads: object index × 8 + tier (R26). -/
  obj : Nat := 0
  /-- pins held until its data lands (object index × 8 + tier) (R60). -/
  pins : List Nat := []
  /-- byte offset (R59). -/
  off : Nat := 0
  /-- bytes, 64 to 4096; 0 for a culm operation (R59). -/
  len : Nat := 0
  /-- a bran read (R61). -/
  bran : Bool := false
  /-- version of the data it sees (R26). -/
  ver : Nat := 0
  /-- expert it belongs to: (index, version, table) (R151). -/
  expert : Option (Nat × Nat × Nat) := none
  /-- a culm operation, whose result it waits for (R175). -/
  culm : Bool := false
  /-- the element-wise husk whose operation it is (R181). -/
  husk : Option Nat := none
  /-- the directory issued it (else it joined one) (R26). -/
  lead : Bool := false
  /-- the directory has seen it (R26). -/
  seen : Bool := false
  /-- flash blocks it resolved to when the directory issued it (R267). -/
  blks : List Nat := []
  /-- uptime at which it was issued (R365). -/
  at_ : Nat := 0
  /-- its data has landed and holds its space until the stage has used it (R59). -/
  landed : Bool := false
  /-- finish tag at the directory's arbiter, once first of its tenant (scaled by 65536) (R364). -/
  tag : Option Nat := none
  deriving DecidableEq, Repr

/-- a node slot of a stook engine in use (R129) -/
structure StSlot where
  /-- engine 0 to 72 (R128). -/
  engine : Nat := 0
  /-- sheaf (R130). -/
  sheaf : Nat := 0
  /-- stage (R130). -/
  stage : Nat := 0
  /-- the batch's place in the sheaf's order (R47). -/
  num : Nat := 0
  /-- batch (R130). -/
  seq : Nat := 0
  /-- item (R130). -/
  item : Nat := 0
  /-- partition (R130). -/
  part : Nat := 0
  /-- FP32 scores, else INT32 (R130). -/
  fp : Bool := true
  /-- (child, its list) complete (R130). -/
  kids : List (Nat × Part) := []
  /-- participating children (R132). -/
  need : Nat := 1
  /-- entries the merge emits at most (R128). -/
  k : Nat := 64
  /-- 0 smallest first (R118). -/
  order : Nat := 0
  /-- merge started (R132). -/
  merging : Bool := false
  deriving DecidableEq, Repr

/-- a staging pool of an expert table (R153) -/
structure StagePool where
  /-- requests (sheaf, batch, (expert, version)), in order (R154). -/
  pending : List (Nat × Nat × Nat × Nat) := []
  /-- (object handle, complete, bytes, last use) (R154). -/
  copies : List (Nat × Bool × Nat × Nat) := []
  /-- (object handle, batch) pinned (R154). -/
  pins : List (Nat × Nat) := []
  deriving DecidableEq, Repr

/-- a culm operation in a queue (R174) -/
structure COp where
  /-- opcode (R174). -/
  op : Nat := 0
  /-- tenant (R174). -/
  tenant : Nat := 0
  /-- tag (R174). -/
  tag : Nat := 0
  /-- the record and payload (R174). -/
  body : Bytes := []
  /-- handles behind its offsets (list, or a, b, dst, bran; or kv object) (R183). -/
  objs : List Nat := []
  /-- ELEMENTWISE husk it serves (R181). -/
  husk : Option Nat := none
  /-- logical tile that issued it (R191). -/
  tile : Nat := 0
  deriving DecidableEq, Repr

/-- a logical culm (R168) -/
structure Culm where
  /-- physical culm slot (R169). -/
  phys : Nat := 0
  /-- operation queue (R168). -/
  queue : List COp := []
  /-- results (tag, status, data) on their way back (R178). -/
  results : List (Nat × Nat × Bytes) := []
  /-- the queue starts no operation (substitution) (R190). -/
  held : Bool := false
  /-- physical slot it returns to at the next substitution (R381). -/
  back : Option Nat := none
  /-- no spare left: pseudo-channel unserved (R191). -/
  unserved : Bool := false
  /-- operations sent to its queue, cumulative (R175). -/
  sent : Nat := 0
  /-- queue entries freed, cumulative (R175). -/
  credit : Nat := 0
  /-- bytes granted to PHY since the waiting set changed (R172). -/
  phyBytes : Nat := 0
  /-- bytes granted to the culm since then (R172). -/
  culmBytes : Nat := 0
  /-- kinds waiting: 1 PHY, 2 culm, 3 both (R398). -/
  waitSet : Nat := 0
  /-- grants made since that set changed (R398). -/
  grants : Nat := 0
  deriving DecidableEq, Repr

/-- a conversion statistics record (R86) -/
structure CvRec where
  /-- tag (R86). -/
  tag : Nat := 0
  /-- tag_kind (R86). -/
  tagKind : Nat := 0
  /-- unit_kind (R86). -/
  unitKind : Nat := 0
  /-- unit (R86). -/
  unit : Nat := 0
  /-- dest_format (R86). -/
  fmt : Nat := 0
  /-- sum_sq (R86). -/
  sumSq : Nat := 0
  /-- maxerr (R86). -/
  maxerr : Nat := 0
  /-- count (R86). -/
  count : Nat := 0
  /-- saturated (R86). -/
  sat : Nat := 0
  /-- nan_zeroed (R86). -/
  nanz : Nat := 0
  /-- excluded (R86). -/
  excl : Nat := 0
  /-- boot_count (R86). -/
  boot : Nat := 0
  /-- uptime (R86). -/
  uptime : Nat := 0
  deriving DecidableEq, Repr

/-- program record of a flash block (R259) -/
structure Blk where
  /-- 0 free, 1 SLC, 2 bulk, 0xFF retired (R259). -/
  mode : Nat := 0
  /-- use (R259). -/
  use : Nat := 0
  /-- temp_min (R259). -/
  tmin : Int := 0
  /-- temp_max (R259). -/
  tmax : Int := 0
  /-- erase_count (R259). -/
  erases : Nat := 0
  /-- program_boot (R259). -/
  progBoot : Nat := 0
  /-- program_uptime (R259). -/
  progUp : Nat := 0
  /-- ref_boot (R259). -/
  refBoot : Nat := 0
  /-- age_at_ref (R259). -/
  ageAtRef : Nat := 0
  /-- ref_uptime (R259). -/
  refUp : Nat := 0
  /-- key (R259). -/
  key : Nat := 65535
  /-- pages_written (R259). -/
  pages : Nat := 0
  /-- patrol_boot (R259). -/
  patBoot : Nat := 0
  /-- patrol_uptime (R259). -/
  patUp : Nat := 0
  /-- max_corrected (R259). -/
  maxCorr : Nat := 0
  /-- CALIBRATED (R259). -/
  calibrated : Bool := false
  /-- RELOCATE (R259). -/
  relocate : Bool := false
  /-- emptied and due for erase (R267). -/
  eraseDue : Bool := false
  /-- promoted by aging (R265). -/
  urgent : Bool := false
  deriving DecidableEq, Repr

/-- a logical 4 KiB flash unit (R263) -/
structure Unit where
  /-- block it is mapped to (R259). -/
  blk : Nat := 0
  /-- page (R259). -/
  page : Nat := 0
  /-- mapping marked poisoned (R263). -/
  poisoned : Bool := false
  /-- object index whose home bytes it holds (R276). -/
  obj : Nat := 0
  /-- 4 KiB page of that object (R243). -/
  upage : Nat := 0
  /-- of its upper copy in T2 or T3 (R237). -/
  upper : Bool := false
  /-- program sequence in the page's spare bytes (R263). -/
  seq : Nat := 0
  /-- the unit as the flash holds it: ciphertext (R270). -/
  data : Bytes := []
  deriving DecidableEq, Repr

/-- The ONFI operations a channel uses (R253). -/
inductive OnfiOp where
  | readPage (blk page : Nat)
  | programPage (blk page : Nat)
  | eraseBlock (blk : Nat)
  | readStatus (lun : Nat)
  | reset (lun : Nat)
  | readId (lun : Nat)
  | readParameterPage (lun : Nat)
  | getFeatures (lun address : Nat)
  | setFeatures (lun address value : Nat)
  deriving DecidableEq, Repr

/-- a unit of a journal extent (R181) -/
structure JUnit where
  /-- bytes (R181). -/
  data : Bytes := []
  /-- CRC-32C over them (R181). -/
  crc : Nat := 0
  /-- 64-byte blocks of the extent's bytes that are lost data (R192). -/
  lost : List Nat := []
  /-- destination object (R181). -/
  handle : Nat := 0
  /-- offset there (R181). -/
  off : Nat := 0
  deriving DecidableEq, Repr

/-- a mapping change not yet in a mapping page (R268): the unit and its mapping, none where it is dropped -/
structure MapCh where
  /-- logical unit (R263). -/
  key : Nat := 0
  /-- mapping (R263). -/
  unit : Option Unit := none
  /-- program sequence at the change (R263). -/
  seq : Nat := 0
  deriving DecidableEq, Repr

/-- a LUN (R254) -/
structure Lun where
  /-- admitted (R254). -/
  admitted : Bool := false
  /-- retired (R274). -/
  retired : Bool := false
  /-- last good temperature (R261). -/
  temp : Int := 25
  /-- uptime of that reading (R261). -/
  tempAt : Nat := 0
  /-- media table matched (R255). -/
  table : Option Nat := none
  /-- device model, parameter-page bytes 44 to 63 (R255). -/
  model : Bytes := []
  /-- page data size (R254). -/
  page : Nat := 0
  /-- spare bytes of a page (R254). -/
  spare : Nat := 0
  /-- JEDEC manufacturer ID, byte 64 (R255). -/
  maker : Nat := 0
  /-- capacity (R254). -/
  bytes : Nat := 0
  /-- blocks (R274). -/
  blocks : Nat := 0
  /-- retired blocks (R273). -/
  retiredBlocks : Nat := 0
  /-- uptimes of busy timeouts (R274). -/
  busyAt : List Nat := []
  /-- retry counter (R279). -/
  retries : Nat := 0
  /-- soft-decode counter (R279). -/
  softs : Nat := 0
  deriving DecidableEq, Repr

/-- a flash channel (R252) -/
structure Chan where
  /-- state (R334). -/
  st : ChState := .inService
  /-- trained MT/s (R252). -/
  rate : Nat := 3600
  /-- LUNs by (chip enable × 8 + LUN) (R254). -/
  luns : List (Nat × Lun) := []
  /-- flush reserve kept erased (R258). -/
  reserve : Nat := 67108864
  /-- seq of the drain or admit request (R336). -/
  drainSeq : Nat := 0
  /-- LUNs left unused (R334). -/
  unusedLuns : Nat := 0
  deriving DecidableEq, Repr

/-- an endurance record's counters (R277) -/
structure Endur where
  /-- submitted (R277). -/
  submitted : Nat := 0
  /-- journal (R277). -/
  journal : Nat := 0
  /-- fold (R277). -/
  fold : Nat := 0
  /-- relocate (R277). -/
  relocate : Nat := 0
  /-- level (R277). -/
  level : Nat := 0
  /-- drain (R277). -/
  drain : Nat := 0
  /-- programmed (R277). -/
  programmed : Nat := 0
  /-- direct (R277). -/
  direct : Nat := 0
  /-- erases_slc (R277). -/
  erasesSlc : Nat := 0
  /-- erases_bulk (R277). -/
  erasesBulk : Nat := 0
  /-- retired_blocks (R277). -/
  retiredBlocks : Nat := 0
  /-- retired_luns (R277). -/
  retiredLuns : Nat := 0
  /-- retired_channels (R277). -/
  retiredChans : Nat := 0
  deriving DecidableEq, Repr

/-- a request for a PACK slot (R293) -/
structure PackReq where
  /-- requester: sheaf ID, 0x1000 for the shared DMA (R398). -/
  who : Nat := 0
  /-- slot granted (R292). -/
  slot : Option Nat := none
  /-- element code of the source (R284). -/
  element : Nat := 0
  /-- source bytes (R280). -/
  src : Bytes := []
  /-- direction (R44). -/
  expand : Bool := false
  /-- slot class (R292). -/
  privileged : Bool := false
  /-- CHECKPOINT object written home (R282). -/
  obj : Option Nat := none
  /-- stored blocks coded so far (R289). -/
  blocks : List Bytes := []
  /-- blocks decoded as poisoned (R295). -/
  poisonBlocks : List Nat := []
  deriving DecidableEq, Repr

/-- one virtual channel of a peer (R352, R353) -/
structure VcSt where
  /-- next seq to send (R352). -/
  txSeq : Nat := 0
  /-- frames kept until acknowledged: (seq, frame) (R352). -/
  unacked : List (Nat × Bytes) := []
  /-- attempt of the oldest unacknowledged frame (R343). -/
  attempt : Nat := 0
  /-- uptime it was last sent (R352). -/
  oldestAt : Nat := 0
  /-- uptime it began to wait (R357). -/
  firstAt : Nat := 0
  /-- retransmission interval, ns (R352). -/
  interval : Nat := 50000
  /-- units charged (R353). -/
  charged : Nat := 0
  /-- credit total received (R353). -/
  credit : Nat := 0
  /-- next expected seq (R352). -/
  rxSeq : Nat := 0
  /-- credit total granted to the peer (R353). -/
  granted : Nat := 64
  /-- units accepted (R353). -/
  accepted : Nat := 0
  /-- an acknowledgement is owed (R352). -/
  ackDue : Bool := false
  /-- bytes of the message being received (R346). -/
  partial_ : Bytes := []
  /-- (type, frame) waiting to be sent first; a HELLO that answers one stands as type 0x101 (R353, R354). -/
  waitTx : List (Nat × Bytes) := []
  /-- finish tag of the first of them (scaled by 65536) (R364). -/
  tag : Option Nat := none
  /-- ACK frames sent (R345). -/
  ackCount : Nat := 0
  /-- last ACK count accepted (R345). -/
  rxAck : Nat := 0
  /-- round of the ACK frames received (R345). -/
  rounds : Nat := 0
  deriving DecidableEq, Repr

/-- a peer entry (R356) -/
structure Peer where
  /-- open (R356). -/
  open_ : Bool := false
  /-- the peer's boot count (R357). -/
  boot : Nat := 0
  /-- entries opened toward it in this boot (R356). -/
  openId : Nat := 0
  /-- open_id it declared (R356). -/
  rxOpen : Nat := 0
  /-- class it declared (R356). -/
  cls : Nat := 0
  /-- job it declared (R356). -/
  job : Nat := 0
  /-- virtual channels (R351). -/
  vcs : List (Nat × VcSt) := []
  /-- uptimes of credit violations (R361). -/
  violations : List Nat := []
  /-- uptime at which quarantine ends (R361). -/
  quarantine : Option Nat := none
  /-- out-of-order counter (R352). -/
  outOfOrder : Nat := 0
  /-- retransmission counter (R369). -/
  retrans : Nat := 0
  deriving DecidableEq, Repr

/-- whom a transfer with pooled memory is for (R350) -/
inductive T4Who where
  /-- a promotion, write-back or rehome of the object (R238, R244, R247). -/
  | move
  /-- a cleaning of its dirty pages (R244). -/
  | clean
  /-- a write at home while it has no upper copy (R243): its epoch, its first byte. -/
  | store (epoch start : Nat)
  /-- an ALLOC's bytes (R236): the command. -/
  | alloc (cmd : Nat)
  /-- a READ (R236): the command. -/
  | read (cmd : Nat)
  /-- a directory read (R26): the awn read. -/
  | awn (id : Nat)
  deriving DecidableEq, Repr

/-- a transfer with pooled memory (R350) -/
structure T4Job where
  /-- whom it is for. -/
  who : T4Who := .move
  /-- index of the object (R232). -/
  obj : Nat := 0
  /-- bytes of its T4 home still to be asked for or written: from here (R350). -/
  off : Nat := 0
  /-- up to here. -/
  stop : Nat := 0
  /-- T4_WRITE, else T4_READ (R350). -/
  write : Bool := false
  deriving DecidableEq, Repr

/-- space reserved for an answer (R354) -/
structure Resv where
  /-- message ID (R354). -/
  msg : Nat := 0
  /-- peer asked (R354). -/
  node : Nat := 0
  /-- bytes reserved (R354). -/
  bytes : Nat := 0
  /-- type of the request (R347). -/
  kind : Nat := 0
  /-- command or object it serves (R354). -/
  cmd : Nat := 0
  /-- uptime it was sent (R350). -/
  at_ : Nat := 0
  /-- of a T4 request: what is left of its transfer (R350). -/
  job : Option T4Job := none
  deriving DecidableEq, Repr

/-- a message the node sends (R346) -/
structure Msg where
  /-- destination node (R343). -/
  dst : Nat := 0
  /-- virtual channel (R343). -/
  vc : Nat := 0
  /-- type (R347). -/
  type : Nat := 0
  /-- message_id (R343). -/
  id : Nat := 0
  /-- tenant (R343). -/
  tenant : Nat := 0
  /-- epoch (R343). -/
  epoch : Nat := 0
  /-- body (R346). -/
  body : Bytes := []
  /-- a HELLO that answers one (R356). -/
  answer : Bool := false
  deriving DecidableEq, Repr

/-- a frame on the wire (R342) -/
structure Tx where
  /-- port (R344). -/
  port : Nat := 0
  /-- DSCP of the IP header (R342). -/
  dscp : Nat := 0
  /-- next-hop MAC address, and IPv6 or mapped IPv4 address (R344). -/
  mac : Nat := 0
  addr : Nat := 0
  /-- ECN of the IP header (R342). -/
  ecn : Nat := 0
  /-- hop limit or TTL (R342). -/
  hops : Nat := 64
  /-- a UDP checksum is sent with it (R342). -/
  sum : Bool := true
  /-- UDP source port (R342). -/
  sport : Nat := 0
  /-- UDP destination port (R342). -/
  dport : Nat := 0
  /-- destination node (R343). -/
  node : Nat := 0
  /-- TFT header, payload and GCM tag (R343). -/
  frame : Bytes := []
  deriving DecidableEq, Repr

/-- a token bucket's level (R363) -/
structure Bucket where
  /-- level in units × 10^6 (R363). -/
  level : Int := 0
  deriving DecidableEq, Repr

/-- a detection (R388) and what its signature record holds (R386) -/
structure Det where
  /-- kind (R386). -/
  kind : Nat := 0
  /-- cause (R387). -/
  cause : Nat := 0
  /-- unit_kind (R386). -/
  unitKind : Nat := 0
  /-- island (R386). -/
  island : Nat := 0
  /-- unit (R386). -/
  unit : Nat := 0
  /-- physical (R386). -/
  physical : Nat := 0
  /-- action (R386). -/
  action : Nat := 0
  /-- spares_left (R386). -/
  spares : Nat := 255
  /-- boot_count at detection (R386). -/
  boot : Nat := 0
  /-- uptime at detection (R386). -/
  uptime : Nat := 0
  /-- epoch at detection (R386). -/
  epoch : Nat := 0
  /-- generation at detection (R386). -/
  gen : Nat := 0
  /-- profile (R386). -/
  profile : Nat := 0
  /-- node_id (R386). -/
  node : Nat := 0
  /-- run_id (R386). -/
  run : Nat := 0
  /-- pattern_id (R386). -/
  pattern : Nat := 0
  /-- pattern_set (R386). -/
  patternSet : Nat := 0
  /-- v_step (R386). -/
  vStep : Nat := 0
  /-- f_step (R386). -/
  fStep : Nat := 0
  /-- iteration (R386). -/
  iteration : Nat := 0
  /-- expected (R386). -/
  expected : Nat := 0
  /-- observed (R386). -/
  observed : Nat := 0
  /-- count (R386). -/
  count : Nat := 0
  /-- location (R386). -/
  location : Nat := 0
  /-- related (R386). -/
  related : Nat := 0
  /-- tenant (R386). -/
  tenant : Nat := 1023
  /-- qp (R386). -/
  qp : Nat := 65535
  /-- cid (R386). -/
  cid : Nat := 0
  /-- opcode (R386). -/
  opcode : Nat := 0
  /-- handle (R386). -/
  handle : Nat := 0
  /-- temp (R386). -/
  temp : Int := 0
  /-- heater_temp (R386). -/
  heater : Nat := 32768
  /-- clock_mhz where the conditions of the run give it (R386). -/
  clock : Option Nat := none
  deriving DecidableEq, Repr

/-- a log record (R389) -/
structure LogRec where
  /-- sequence (R389). -/
  seq : Nat := 0
  /-- boot_count (R389). -/
  boot : Nat := 0
  /-- code (R389). -/
  code : Nat := 0
  /-- source island (R389). -/
  source : Nat := 0
  /-- severity (R389). -/
  severity : Nat := 0
  /-- uptime (R389). -/
  uptime : Nat := 0
  /-- body (R389). -/
  body : Bytes := []
  deriving DecidableEq, Repr

/-- a threshing run (R381) -/
structure Thresh where
  /-- run ID (R334). -/
  id : Nat := 0
  /-- unit kind (R334). -/
  unitKind : Nat := 0
  /-- unit (R334). -/
  unit : Nat := 0
  /-- voltage step (R334). -/
  vStep : Nat := 0
  /-- frequency step (R334). -/
  fStep : Nat := 0
  /-- HEAT (R334). -/
  heat : Bool := false
  /-- pattern set (R334). -/
  set_ : Nat := 0
  /-- duration, ms (R334). -/
  duration : Nat := 1
  /-- uptime at which the present test began (R381). -/
  began : Nat := 0
  /-- physical slot (crossing: lane) of the unit under test (R381). -/
  phys : Nat := 0
  /-- the unit is out of service and the conditions apply (R381). -/
  applied : Bool := false
  /-- step 4: the freed spare is being tested (R381). -/
  onSpare : Bool := false
  /-- state (R334). -/
  st : RunState := .queued
  /-- pattern in progress (R334). -/
  pattern : Nat := 0
  /-- seq of the request (R336). -/
  seq : Nat := 0
  /-- the heater has stopped at the thermal limit (R379). -/
  heatOff : Bool := false
  /-- highest temperature reached (R379). -/
  maxTemp : Int := 0
  deriving DecidableEq, Repr

/-- a Zalpol command the Steward has taken (R327) -/
structure ZReq where
  /-- the message, header first (R331). -/
  msg : Bytes := []
  /-- the checks of R332 passed; the command is to be carried out (R332). -/
  passed : Bool := false
  /-- the response, once formed (R327). -/
  resp : Option Bytes := none
  /-- uptime at which it was taken (R329). -/
  at_ : Nat := 0
  deriving DecidableEq, Repr

/-- a mailbox (R326) -/
structure Mbx where
  /-- inbound area (R326). -/
  inArea : Bytes := []
  /-- IN_FULL (R326). -/
  inFull : Bool := false
  /-- uptime of RING (R365). -/
  inSince : Nat := 0
  /-- outbound area (R326). -/
  outArea : Bytes := []
  /-- OUT_FULL (R326). -/
  outFull : Bool := false
  /-- IN_DISCARD (R326). -/
  inDiscard : Bool := false
  /-- event messages waiting (R337). -/
  events : List Bytes := []
  /-- event sequence (R337). -/
  eventSeq : Nat := 0
  /-- events lost since the previous one delivered (R337). -/
  lost : Nat := 0
  /-- command taken, its response not yet released (R327). -/
  req : Option ZReq := none
  /-- last recovery_seq accepted (R339). -/
  recSeq : Option Nat := none
  /-- response stored with it (R339). -/
  recResp : Bytes := []
  /-- the response of the command in progress is to be discarded (R330). -/
  drop : Bool := false
  deriving DecidableEq, Repr

/-- a configuration generation: its sections as bytes (R439, R440) -/
structure Gen where
  /-- number (R439). -/
  number : Nat := 0
  /-- base (R439). -/
  base : Nat := 0
  /-- NODE block (R441). -/
  node : Bytes := []
  /-- TENANTS (R440). -/
  tenants : Bytes := []
  /-- POOLS (R440). -/
  pools : Bytes := []
  /-- T4_WINDOWS (R440). -/
  t4 : Bytes := []
  /-- BUCKETS (R440). -/
  buckets : Bytes := []
  /-- SHEAVES (R440). -/
  sheaves : Bytes := []
  /-- FABRIC_KEYS (R440). -/
  keys : Bytes := []
  deriving DecidableEq, Repr

/-- a firmware slot (R447) -/
structure Slot where
  /-- holds a valid image (R446). -/
  valid : Bool := false
  /-- image version (R446). -/
  version : Nat := 0
  /-- security_version (R446). -/
  sec : Nat := 0
  /-- gen_min (R446). -/
  genMin : Nat := 0
  /-- gen_max (R446). -/
  genMax : Nat := 0
  /-- the image (R446). -/
  image : Bytes := []
  deriving DecidableEq, Repr

/-- island 0's mirror for SMBus (R464) -/
structure Mirror where
  /-- uptime at which it was taken (R464). -/
  at_ : Nat := 0
  /-- NODE_STATUS (R305). -/
  status : Nat := 0
  /-- boot count (R306). -/
  boot : Nat := 0
  /-- uptime (R306). -/
  up : Nat := 0
  /-- hottest sensors, 1/16 °C (R465). -/
  temps : List Int := []
  /-- (mV, current in 0.25 A) in R453 order (R465). -/
  rails : List (Nat × Nat) := []
  /-- package power mean, 0.1 W (R465). -/
  power : Nat := 0
  /-- THERMAL bits (R465). -/
  thermal : Nat := 0
  deriving DecidableEq, Repr

/-- a power-loss flush under way (R434) -/
structure Flush where
  /-- 0 power, 1 thermal, 2 warm reset, 3 reference clock, 4 rail (R435). -/
  cause : Nat := 0
  /-- of a warm reset (R422). -/
  warm : Bool := false
  /-- journal records not yet durable, written into the stream (R435). -/
  jrecs : List JRec := []
  /-- seal page written (R434). -/
  sealed : Bool := false
  /-- uptime of the fall of PWR_FAIL_N (R434). -/
  at_ : Nat := 0
  deriving DecidableEq, Repr

/-- the seal page of a flush (R435) -/
structure Seal where
  /-- boot count of the flush (R435). -/
  boot : Nat := 0
  /-- uptime (R435). -/
  up : Nat := 0
  /-- 0 power, 1 thermal, 2 warm reset, 3 reference clock, 4 rail (R435). -/
  cause : Nat := 0
  /-- LAST_GASP as it stood (R435). -/
  gasp : BitVec 64 := 0
  /-- LAST_GASP_UPTIME as it stood (R435). -/
  gaspUp : Nat := 0
  /-- LOG_FAIL_COUNT as it stood (R435). -/
  fails : Nat := 0
  deriving DecidableEq, Repr

/-- a chunk of a recording (R407) -/
structure RecChunk where
  /-- type (R407). -/
  type : Nat := 0
  /-- sequence (R407). -/
  seq : Nat := 0
  /-- stream (R407). -/
  stream : Nat := 0
  /-- payload (R407). -/
  body : Bytes := []
  deriving DecidableEq, Repr


/-- The factory generation 0 (R442): node ID 0, one node, Bulk, the defaults of R441 (fields written 0), every port
at 1.6TBASE-R, tenant 0 assigned with 4 queue pairs from global queue pair 0, nothing else. -/
def factoryGen : Gen :=
  { node := [0, 0, 1, 0, 0, 0, 0, 0, 1, 0, 0, 0, 0, 0, 0, 0] ++ List.replicate 28 0 ++ [0xAA, 0, 0, 0] ++
      List.replicate 16 0
    tenants := [0, 0, 1, 4, 0, 0, 0, 0] }

/-- The queue pairs of the factory generation: 0 to 3, tenant 0, DISABLED (R442). -/
def factoryQps : Tab Qp := [(0, {}), (1, {}), (2, {}), (3, {})]

/-- The handle of the steering table, the first SYSTEM object of the node: tenant 0, class 5, index 0, generation 1
(R232, R315). -/
def steerHandle : Nat := 5 * 2 ^ 50 + 1

/-- The fabric forwarding table's handle, the second SYSTEM object (R344; log entry 23). -/
def forwardHandle : Nat := 5 * 2 ^ 50 + 65537

/-- The SYSTEM objects of the factory generation. Steering table: homed in T2, 1,048,576 entries of 4 bytes (R315); forwarding table:
16,384 of 32 (R344); in T1 the version pool, the object table and the fabric receive pool (R219, R229, R232, R355; log entry 102). -/
def factoryObjs : Tab ObjRec :=
  [(0, { handle := steerHandle, size := 4194304, home := 2, node := true }),
   (1, { handle := forwardHandle, size := 524288, home := 2, node := true }),
   (2, { handle := 5 * 2 ^ 50 + 2 * 65536 + 1, size := 1073741824, node := true }),
   (3, { handle := 5 * 2 ^ 50 + 3 * 65536 + 1, size := 1073741824, node := true }),
   (4, { handle := 5 * 2 ^ 50 + 4 * 65536 + 1, size := 1073741824, node := true })]

/-- No entry of the steering table differs from the factory content (R315) at reset. -/
def factorySteer : List TVer := []

/-- The 32 flash channels, no LUN identified yet (R425 phase 1 identifies them). -/
def factoryChans : Tab Chan := (List.range 32).map fun c => (c, {})

/-- island 0: time, supervision, fault registers and sideband (17, 19) -/
structure Aon where
  /-- uptime, ns; starts at 0 at power-good (R418). -/
  uptime : Nat := 0
  /-- rails in limits since the power-good that began this start (R424). -/
  powered : Bool := true
  /-- straps sampled at power-good: [2:0] SMBADDR, 3 PCIE_SRIS, 4 JTAG_EN (R463). -/
  straps : Nat := 0
  /-- the strap inputs (pull-down) (R462). -/
  strapPins : Nat := 0
  /-- PWR_FAIL_N is low (pull-up: high) (R462). -/
  pwrFailLow : Bool := false
  /-- HOLDUP_OK (pull-down) (R462). -/
  holdupOk : Bool := false
  /-- PERST_N is low (R462). -/
  perstLow : Bool := false
  /-- the node drives WAKE_N (PME) for a function in D3hot (R462). -/
  pmeOut : Bool := false
  /-- viral raised (R324). -/
  viral : Bool := false
  /-- FAULT_CAUSE (R309). -/
  faultCause : BitVec 64 := 0
  /-- conditions of FAULT_CAUSE still present (R309). -/
  faultPresent : BitVec 64 := 0
  /-- LAST_GASP (R393). -/
  gasp : BitVec 64 := 0
  /-- LAST_GASP_UPTIME (R393). -/
  gaspUp : Nat := 0
  /-- LOG_FAIL_COUNT ring38 (R392). -/
  fail38 : Nat := 0
  /-- LOG_FAIL_COUNT ring62 (R392). -/
  fail62 : Nat := 0
  /-- LOG_FAIL_COUNT lost (R392). -/
  lostLog : Nat := 0
  /-- islands in reset (R420). -/
  inReset : List Nat := []
  /-- islands powered off (R429). -/
  off : List Nat := []
  /-- crossings (low island, high island) not ready (R415). -/
  notReady : List (Nat × Nat) := []
  /-- flush under way (R434). -/
  flush : Option Flush := none
  /-- last seal page (R435). -/
  sealPg : Option Seal := none
  /-- journal pages of the flush stream kept in the flush reserve (R434). -/
  stream : List JRec := []
  /-- thermal trip: every island held until PWR_FAIL_N was asserted and released (R459). -/
  tripHold : Bool := false
  /-- PWR_FAIL_N asserted during the hold (R459). -/
  tripSeen : Bool := false
  /-- SYS_REFCLK lost (backup oscillator) (R456). -/
  sysLost : Bool := false
  /-- PCIE_REFCLK lost (R456). -/
  pcieLost : Bool := false
  /-- ETH_REFCLK lost (R456). -/
  ethLost : Bool := false
  /-- package power samples, mW, newest first (R428). -/
  powerSamples : List Nat := []
  /-- tile clock ceiling of the power envelope, MHz (1700: none acts) (R428). -/
  capMhz : Nat := 1700
  /-- tile clock pulses skipped (R428). -/
  skipping : Bool := false
  /-- (cluster, its clock) where a thermal throttle acts (R458). -/
  clusterMhz : List (Nat × Nat) := []
  /-- stacks whose grants are halved (R458). -/
  stackHot : List Nat := []
  /-- stacks refreshed at double rate (R458). -/
  refresh2 : List Nat := []
  /-- uptime since which a critical temperature holds (R459). -/
  critSince : Option Nat := none
  /-- the sensors, 1/16 °C: 4 per cluster 0-31, 12 elsewhere on the Sheaf die, per stack 0-7 4 base and 4 core, 4 Flash I/O, 4 Link I/O (R457). -/
  temps : List Int := []
  /-- (mV, current in 0.25 A) per rail (R457). -/
  rails : List (Nat × Nat) := []
  /-- SMBus mirror (R464). -/
  mirror : Mirror := {}
  /-- last SMBus block returned (output) (R465). -/
  smbReply : Option Bytes := none
  /-- instruction selected in island 63 (R466). -/
  jtagIr : JtagIr := .idcode
  /-- identification register when IDCODE is selected (R466). -/
  jtagDr : Nat := 0x0A1E04F3
  deriving DecidableEq, Repr

/-- island 1: node state, start-up, firmware and attestation (13, 17, 18) -/
structure Stew where
  /-- node state (R305). -/
  st : NodeState := .start
  /-- boot count (R419). -/
  boot : Nat := 0
  /-- first copy in flash (none: unreadable) (R419). -/
  bootA : Option Nat := some 0
  /-- second copy in flash (R419). -/
  bootB : Option Nat := some 0
  /-- recovery phase (R425). -/
  phase : Nat := 0
  /-- the boot count of this start is written (a warm reset keeps it) (R419). -/
  bootDone : Bool := false
  /-- recovery restarts since the cold start (R334). -/
  restarts : Nat := 0
  /-- last journal sequence replayed (R334). -/
  lastReplayed : Nat := 0
  /-- known-answer checks have ended (R383). -/
  kaDone : Bool := false
  /-- job ID (R358). -/
  job : Nat := 0
  /-- LEAVE in progress: (sender, message ID) (R358). -/
  leaving : Option (Nat × Nat) := none
  /-- power state P0 to P3 (R429). -/
  pstate : Nat := 0
  /-- power state being entered (R430). -/
  goal : Option Nat := none
  /-- exit in progress (R431). -/
  exiting : Bool := false
  /-- entry steps done (R430). -/
  pwStep : Nat := 0
  /-- POWER_SET waits for its end (system mailbox) (R325). -/
  pwReq : Option Nat := none
  /-- a wake event has arrived (R432). -/
  wake : Bool := false
  /-- the Steward restarts: BUSY and steward_busy (R330). -/
  busy : Bool := false
  /-- slot being activated (R447). -/
  activating : Option Nat := none
  /-- uptime of the restart (R447). -/
  busySince : Nat := 0
  /-- boot program serves: no slot verified (R448). -/
  rom : Bool := false
  /-- TIME_POST pair held by the boot program (R448). -/
  heldPost : Option Bytes := none
  /-- firmware slot 0 (R447). -/
  slot0 : Slot := { valid := true, version := 1, genMax := 1, genMin := 1 }
  /-- firmware slot 1 (R447). -/
  slot1 : Slot := {}
  /-- active slot (R447). -/
  active : Nat := 0
  /-- security minimum (R446). -/
  secMin : Nat := 0
  /-- mailboxes by tenant (unlisted: empty) (R326). -/
  mbx : Tab Mbx := []
  /-- mailbox served last (R328). -/
  lastServed : Nat := 1023
  /-- generation in force (R442). -/
  cur : Gen := factoryGen
  /-- previous generation (R442). -/
  prev : Option Gen := none
  /-- generation the last ROLLBACK left (R445). -/
  left : Option Nat := none
  /-- generation of the CONFIG husk in flight (R334). -/
  pendGen : Option Gen := none
  /-- (epoch, class) from which each class is in force, newest first (R119). -/
  clsHist : List (Nat × Nat) := [(0, 0)]
  /-- SPDM connection phase (R449). -/
  spdm : SpdmPhase := .idle
  /-- secured session (R449). -/
  spdmSess : Option Nat := none
  /-- K command carried by a vendor-defined request: (tenant, message) (R334). -/
  kreq : Option (Nat × Bytes) := none
  /-- SPDM responses sent (output) (R449). -/
  doeOut : List Bytes := []
  /-- CXL mailbox answers: (return code, payload) (output) (R298). -/
  cxlOut : List (Nat × Bytes) := []
  /-- CXL event records held (R298). -/
  cxlEvents : List Bytes := []
  /-- SPDM sessions opened (model's own counter) (R449). -/
  sessCtr : Nat := 0
  deriving DecidableEq, Repr

/-- island 59: functions, queues, window (12) -/
structure Hif where
  /-- queue pairs assigned, by global ID (R312). -/
  qps : Tab Qp := factoryQps
  /-- QUEUE_ERROR bits set (R310). -/
  qError : List Nat := []
  /-- VFs enabled (1 to this number) (R299). -/
  vfs : Nat := 0
  /-- functions in D3hot (R321). -/
  d3 : List Nat := []
  /-- BAR2 size, GiB (R300). -/
  bar2 : Nat := 256
  /-- PCIe link trained (R296). -/
  linkUp : Bool := false
  /-- trained rate, in 0.5 GT/s units (R296). -/
  linkRate : Nat := 0
  /-- trained width (R296). -/
  linkWidth : Nat := 0
  /-- FLIT mode (R296). -/
  linkFlit : Bool := false
  /-- high half latched, by function (R303). -/
  latch : Tab Nat := []
  /-- value returned by the last register or mailbox read (output) (R303). -/
  readData : Nat := 0
  /-- access-error counter (R303). -/
  accessErr : Nat := 0
  /-- doorbell writes of function 0 discarded (R301). -/
  dbDiscards : Nat := 0
  /-- window-miss counter (R323). -/
  winMiss : Nat := 0
  /-- window-write counter (R323). -/
  winWrites : Nat := 0
  /-- last window read: (bytes, poison) (output) (R323). -/
  winOut : Option (Bytes × Bool) := none
  /-- window unit to (object handle, offset) (R323). -/
  window : Tab (Nat × Nat) := []
  /-- Get Poison List entries (window addresses) (R298). -/
  poisonList : List Nat := []
  /-- vector slot bound to fn × 2048 + entry, where it differs from the default (R322). -/
  vecs : Tab (Option Nat) := []
  /-- message address and data of an MSI-X entry, its low and high eight bytes: (fn × 2048 + entry) × 2 + half (R301, R302). -/
  msixTab : Tab Nat := []
  /-- MSI-X entries whose mask bit the host has cleared; after reset every entry is masked (R322; log entry 110). -/
  vecOpen : List Nat := []
  /-- MSI-X pending bits (R322). -/
  vecPend : List Nat := []
  /-- writes to host memory, in order (output) (R317). -/
  out : List HostWr := []
  /-- MSI-X messages sent: (function, entry) (output) (R322). -/
  msi : List (Nat × Nat) := []
  /-- AER errors reported (output) (R324). -/
  aer : Nat := 0
  /-- admitted commands, by number (R31). -/
  cmds : Tab Cmd := []
  /-- next command number (R31). -/
  nextCmd : Nat := 0
  /-- data-path admission stopped (R24). -/
  stopped : Bool := false
  /-- virtual time of the queue arbiter (scaled by 65536) (R364). -/
  vtime : Nat := 0
  /-- per-tenant violation counter (R61). -/
  violations : Tab Nat := []
  deriving DecidableEq, Repr

/-- island 61: epochs, husks, locks, binders (08) -/
structure Eng where
  /-- current epoch (R193). -/
  epoch : Nat := 1
  /-- drain counters by epoch (R220). -/
  drain : Tab Nat := [(1, 0)]
  /-- oldest epoch retained at most (raised by a cold start) (R221). -/
  oldest : Nat := 1
  /-- barrier table, newest first (R223). -/
  barriers : List Barrier := []
  /-- husks by number (R214). -/
  husks : Tab Husk := []
  /-- next age (R204). -/
  nextAge : Nat := 0
  /-- husks formed (model's own number of a husk) (R214). -/
  nextHusk : Nat := 0
  /-- range-lock table, in request order (R213). -/
  locks : List Lock := []
  /-- entries reserved (R213). -/
  reserved : Nat := 0
  /-- husks of the open commit group (R215). -/
  group : List Nat := []
  /-- uptime of the last close at a group interval (R215). -/
  groupSince : Nat := 0
  /-- records of closed groups, oldest first, until they commit (R215, R245). -/
  closing : List JRec := []
  /-- queues whose head waits for lock entries or a husk slot (1) or for a drain entry (2), in the order they came (R213, R214, R220). -/
  waiting : List (Nat × Nat) := []
  /-- journal bytes written: where the next record begins (R244). -/
  jpos : Nat := 0
  /-- journal records on the SLC region, newest first (R216). -/
  journal : List JRec := []
  /-- last sequence written (R216). -/
  jseq : Nat := 0
  /-- SLC blocks that failed the record being written (R218). -/
  jtries : Nat := 0
  /-- uptime of the first failure since a record was durable (R218). -/
  jfailAt : Option Nat := none
  /-- no SLC block accepts the journal: husk admission stopped (R218). -/
  jdown : Bool := false
  /-- range-lock wait counter (R213). -/
  rangeWaits : Nat := 0
  /-- drain waits (R220). -/
  drainWaits : Nat := 0
  /-- commits that waited for an epoch-ring slot (R228). -/
  ringWaits : Nat := 0
  /-- version-pool waits (R219). -/
  poolWaits : Nat := 0
  /-- what the commit waits for: 0 drain entry, 1 ring slot, 2 version pool (R219). -/
  waitFor : Option Nat := none
  /-- allocated binders (R225). -/
  binders : Tab Binder := []
  /-- allocations made (identity of an allocation) (R198). -/
  binderSeq : Nat := 0
  /-- binder-discard counter by tenant (R198). -/
  discards : Tab Nat := []
  deriving DecidableEq, Repr

/-- versioned tables and index objects (04, 08) -/
structure Idx where
  /-- map slots freed and not yet reclaimed: (map handle, bucket × 8 + slot, epoch) (R222). -/
  freedSlots : List (Nat × Nat × Nat) := []
  /-- versions held of versioned entries, newest first (R219). -/
  vers : List TVer := factorySteer
  /-- TABLE_SWAPs: (live handle, shadow handle, epoch), newest first (R200). -/
  swaps : List (Nat × Nat × Nat) := []
  /-- list objects by handle (R92). -/
  lists : Tab IList := []
  /-- location-map slots: (map handle, bucket × 8 + slot, list, position, fingerprint) (R94). -/
  maps : List (Nat × Nat × Nat × Nat × Nat) := []
  /-- counters by collection (R334). -/
  cstats : Tab CStat := []
  /-- rebuilds by ID (R224). -/
  rebuilds : Tab Rebuild := []
  /-- next rebuild ID (R334). -/
  nextRebuild : Nat := 1
  /-- default-row counter by table (R161). -/
  defaults : Tab Nat := []
  /-- invalid-expert counter by table (R146). -/
  invalidEx : Tab Nat := []
  /-- per-stage drop counter (sheaf × 16 + stage) (R120). -/
  nanDrops : Tab Nat := []
  deriving DecidableEq, Repr

/-- the object table and tiers (09) -/
structure Obj where
  /-- live objects by index (R232). -/
  recs : Tab ObjRec := factoryObjs
  /-- scale objects of objects that the node made itself, by handle (R83). -/
  brans : Tab Nat := []
  /-- generation of each index issued (R232). -/
  gens : Tab Nat := [(0, 1), (1, 1), (2, 1), (3, 1), (4, 1)]
  /-- indices issued so far (R232). -/
  top : Nat := 5
  /-- the SYSTEM objects in T1, by handle, 0 where there is none: version pool, object table, fabric receive pool, recorder ring; and the spill region of the
  recording held, in T2 (R232, R400). -/
  poolH : Nat := 5 * 2 ^ 50 + 2 * 65536 + 1
  tableH : Nat := 5 * 2 ^ 50 + 3 * 65536 + 1
  rxH : Nat := 5 * 2 ^ 50 + 4 * 65536 + 1
  ringH : Nat := 0
  spillH : Nat := 0
  /-- free indices in the order freed (R232). -/
  freed : List Nat := []
  /-- BUF_STALE counter by tenant (R248). -/
  stale : Tab Nat := []
  /-- BUF_NOT_OWNER counter by tenant (R248). -/
  foreign : Tab Nat := []
  /-- metadata wait counter (R245). -/
  metaWaits : Nat := 0
  /-- object-table bytes of the flush set (R245). -/
  dirtyHdr : Nat := 0
  /-- meters by tenant: tile-ns, T0-T4 KiB-seconds, flash read, flash written, fabric sent, fabric received (R250). -/
  meters : Tab (List Nat) := []
  /-- uptime up to which the byte-time meters are accounted (R250). -/
  accrued : Nat := 0
  /-- meters as last sent, by tenant (R368). -/
  meterSent : Tab (List Nat) := []
  deriving DecidableEq, Repr

/-- sheaves, tiles, awns, stook, experts (02, 05, 06) -/
structure Shv where
  /-- sheaves at run time (R47). -/
  rts : Tab SheafRt := []
  /-- stage on tile, by (sheaf × 16 + stage) × 32 + tile index (R48). -/
  stages : Tab StageRt := []
  /-- edges, by (sheaf × 16 + predecessor) × 16 + successor (R54). -/
  edges : Tab Edge := []
  /-- counter records, by stage-on-tile key (R64). -/
  stats : Tab Stat := []
  /-- outstanding awn reads by number (R59). -/
  reads : Tab AwnRd := []
  /-- next read number (R59). -/
  nextRead : Nat := 0
  /-- virtual time of the awn directory's arbiter (scaled by 65536) (R364). -/
  dirV : Nat := 0
  /-- finish tags there by tenant (scaled by 65536) (R364). -/
  dirTags : Tab Nat := []
  /-- node slots in use (R129). -/
  slots : List StSlot := []
  /-- merged lists in root staging (R132). -/
  rootOut : List StSlot := []
  /-- (sheaf, stage, partition) last served, by engine (R133). -/
  lastMerge : Tab Nat := []
  /-- coordinator slots free (R135). -/
  coordSlots : Nat := 512
  /-- expert staging pools by table handle (R153). -/
  pools : Tab StagePool := []
  /-- sheaf last granted, by table (R154). -/
  lastGrant : Tab Nat := []
  /-- retired tiles: (cluster, physical slot) (R376). -/
  retired : List (Nat × Nat) := []
  /-- physical slot behind a logical tile, where it is not the same number (R46). -/
  slotOf : Tab Nat := []
  /-- absent or dead logical tiles (R378). -/
  absent : List Nat := []
  /-- logical tile the tiller of a cluster stands for (R375). -/
  tillerUse : Tab Nat := []
  /-- tiller swaps asked for: logical tile to physical slot taking over (+ 32 while the copy runs) (R52). -/
  swapping : Tab Nat := []
  /-- tiles finishing old batches before a new role (R51). -/
  switching : List Nat := []
  /-- sheaf last served, by logical tile (R50). -/
  lastShare : Tab Nat := []
  /-- batches of SPLIT stages whose merged lists are still to be delivered: (sheaf, stage, batch) (R56). -/
  waitMerge : List (Nat × Nat × Batch) := []
  /-- merged lists delivered of those batches: (sheaf, stage, batch, item, partition) (R132). -/
  delivered : List (Nat × Nat × Nat × Nat × Nat) := []
  /-- child buffers of level-1 engines freed, cumulative, by logical tile (R132). -/
  kidFreed : Tab Nat := []
  /-- conversion statistics records (R86). -/
  cvt : List CvRec := []
  /-- records lost for want of space, by unit (unit_kind × 65536 + unit) (R86). -/
  cvtLost : Tab Nat := []
  deriving DecidableEq, Repr

/-- memory stacks: culms (07) -/
structure Mem_ where
  /-- logical culms, where they differ from idle in their own slot (R169). -/
  culms : Tab Culm := []
  /-- retired physical culms: (stack, slot) (R376). -/
  badCulms : List (Nat × Nat) := []
  /-- culm-substitute counter (R192). -/
  cvtTile : Nat := 0
  /-- T1 blocks patrolled (R372). -/
  patrols : Nat := 0
  /-- uptimes of corrected errors in the last hour, by unit (R372). -/
  ecc : Tab (List Nat) := []
  /-- uptime of the last over-threshold record, by unit (R372). -/
  eccSent : Tab Nat := []
  deriving DecidableEq, Repr

/-- flash (10, 11) -/
structure Fls where
  /-- channels (R252). -/
  chans : Tab Chan := factoryChans
  /-- program records by block field (R259). -/
  blks : Tab Blk := []
  /-- mapping by logical unit (R263). -/
  units : Tab Unit := []
  /-- media tables loaded, in load order (R255). -/
  tables : List Bytes := []
  /-- SLC percent of the format (R256). -/
  slcPct : Nat := 6
  /-- spare percent of the format (R256). -/
  sparePct : Nat := 7
  /-- journal area, GB (R256). -/
  journalGb : Nat := 64
  /-- a format has been done (R256). -/
  formatted : Bool := false
  /-- FORMAT running: its seq, SLC percent, spare percent, journal GB (R336). -/
  formatting : Option (Nat × Nat × Nat × Nat) := none
  /-- media key (free value by format) (R271). -/
  mediaKey : Nat := 0
  /-- random draws made (model's own counter) (R271). -/
  keyCtr : Nat := 0
  /-- tenant XTS keys loaded (R272). -/
  xts : Tab Bytes := []
  /-- dirty mapping bytes (R268). -/
  dirtyMap : Nat := 0
  /-- metadata waits (R268). -/
  metaWaits : Nat := 0
  /-- reserve wait counter (R258). -/
  reserveWaits : Nat := 0
  /-- fold wait counter (R257). -/
  foldWaits : Nat := 0
  /-- calibration counter (R279). -/
  calibrations : Nat := 0
  /-- aging counter (R279). -/
  agings : Nat := 0
  /-- priority sweep in progress (R266). -/
  sweeping : Bool := false
  /-- node endurance counters (R277). -/
  endur : Endur := {}
  /-- per-LUN endurance counters (R277). -/
  lunEndur : Tab Endur := []
  /-- threshold-grid set of the last flash read: ((mode × 8 + erase bin) × 8 + age bin) × 5 + temperature bin (output) (R261). -/
  readSet : Nat := 0
  /-- last life_used threshold reported (R278). -/
  lifeSent : Nat := 0
  /-- folding raised to urgent (R257). -/
  foldUrgent : Bool := false
  /-- PACK requests by number (R293). -/
  pack : Tab PackReq := []
  /-- next PACK request number (R293). -/
  nextPack : Nat := 0
  /-- request last granted an ordinary slot (R293). -/
  packLast : Nat := 0
  /-- RAW blocks for want of a symbol, by slot (R291). -/
  packMissing : Tab Nat := []
  /-- decode-error counter (R295). -/
  packErrs : Nat := 0
  /-- stored stream of CHECKPOINT homes by object index (R282). -/
  ckpt : Tab Bytes := []
  /-- program sequence of the last unit programmed (R427). -/
  progSeq : Nat := 0
  /-- units programmed in blocks not erased since, with the logical unit numbers of their spare bytes, oldest first (R427). -/
  spares : List (Nat × Unit) := []
  /-- mapping as the persisted mapping pages hold it (R268). -/
  saved : Tab Unit := []
  /-- highest program sequence that they cover (R427). -/
  savedSeq : Nat := 0
  /-- pages that wait for a free block: (object, tier, of the upper copy, page) (R258). -/
  waitPages : List (Nat × Nat × Bool × Nat) := []
  /-- mapping changes not yet persisted, oldest first (R268). -/
  mapLog : List MapCh := []
  /-- ONFI operations issued, in order (output) (R253). -/
  onfi : List OnfiOp := []
  /-- the unit last read, decrypted (output) (R270). -/
  readPlain : Bytes := []
  /-- units of journal extents, by number (R181). -/
  jext : Tab JUnit := []
  /-- next extent unit (R181). -/
  nextExt : Nat := 0
  deriving DecidableEq, Repr

/-- fabric, scheduling, telemetry (14) -/
structure Fab where
  /-- port up (R341). -/
  ports : List Bool := [false, false, false, false]
  /-- peer entries by node ID (R356). -/
  peers : Tab Peer := []
  /-- reservations (R354). -/
  resv : List Resv := []
  /-- bytes of the receive pool in use (R355). -/
  poolUsed : Nat := 0
  /-- next message ID (R343). -/
  nextMsg : Nat := 1
  /-- messages first sent, in order (output) (R346). -/
  sent : List Msg := []
  /-- frames sent, in order (output) (R352). -/
  frames : List Tx := []
  /-- frames discarded, by port: checksum, version, GCM (R369). -/
  badFrames : Tab Nat := []
  /-- credit-violation counter (R361). -/
  creditViol : Nat := 0
  /-- late answers (R354). -/
  late : Nat := 0
  /-- sub-searches given up, whose answers would be late: (owner, message, collection) (R113). -/
  gone : List (Nat × Nat × Nat) := []
  /-- peers that declared a different class (R356). -/
  classDiff : Nat := 0
  /-- frames of quarantined peers discarded (R361). -/
  quarDrop : Nat := 0
  /-- messages received whole and not yet acted on: (sender, message) (R346). -/
  rxMsgs : List (Nat × Msg) := []
  /-- telemetry items waiting for STATUS: (message ID, item) (R367). -/
  telem : List (Nat × Bytes) := []
  /-- items lost (R367). -/
  telemLost : Nat := 0
  /-- bucket levels by row × 65536 + instance (unlisted: full) (R363). -/
  buckets : Tab Bucket := []
  /-- promotions by class (R365). -/
  promoted : Tab Nat := []
  /-- urgent requests (class, ID), oldest first (R365). -/
  urgent : List (Nat × Nat) := []
  /-- uptime of the last meter interval (R368). -/
  meterAt : Nat := 0
  /-- T4 transfers that wait for room in the receive pool, oldest first (R354). -/
  t4wait : List T4Job := []
  /-- frames discarded, by port × 4: PAUSE or PFC 0, VLAN tag 1, IP fragment 2 (R341). -/
  macDrops : Tab Nat := []
  /-- virtual time of each port's arbiter (scaled by 65536) (R364). -/
  portV : Tab Nat := []
  /-- finish tags by port × 4096 + flow (scaled by 65536) (R364). -/
  flowTags : Tab Nat := []
  /-- T4 requests ended: (message ID, status) (R350). -/
  t4done : List (Nat × Nat) := []
  deriving DecidableEq, Repr

/-- reliability (15) -/
structure Rel where
  /-- detection queue (R388). -/
  detq : List Det := []
  /-- detections lost (R388). -/
  detLost : Nat := 0
  /-- signature store: (record number, record), newest first (R388). -/
  sigs : List (Nat × Det) := []
  /-- next record number (R388). -/
  nextSig : Nat := 1
  /-- a SIGNATURE or FAULT event is unread (SMB_ALERT_N) (R462). -/
  sigUnread : Bool := false
  /-- records in the rings, newest first (R390). -/
  log : List LogRec := []
  /-- last log sequence (R389). -/
  logSeq : Nat := 0
  /-- ring 38 in use (not failed) (R391). -/
  ring38 : Bool := true
  /-- ring 62 in use (not failed) (R391). -/
  ring62 : Bool := true
  /-- records written while island 38 was powered down (R390). -/
  only62 : List LogRec := []
  /-- persistent archive, newest first (R390). -/
  archive : List LogRec := []
  /-- records on their way to the writer (R390). -/
  logq : List LogRec := []
  /-- threshing runs (R381). -/
  runs : List Thresh := []
  /-- next run ID (R334). -/
  nextRun : Nat := 1
  /-- active lane of a crossing (sender × 64 + receiver), where not 0 (R374). -/
  lanes : Tab Nat := []
  /-- crossings whose other lane is retired (R376). -/
  laneBad : List Nat := []
  /-- crossings whose lane is to be switched (R417). -/
  laneReq : List Nat := []
  /-- retry counter by die link (R24). -/
  linkRetry : Tab Nat := []
  /-- die links that delivered poisoned data (R24). -/
  linkPoison : List Nat := []
  /-- die links that have stayed down for 1 ms (R24). -/
  linksDown : List Nat := []
  deriving DecidableEq, Repr

/-- what a snapshot freezes, and what a replay sets aside: flash, engine, object table, tables, the generation in force and the boot count (R401,
R410, R412) -/
structure Kept where
  /-- flash content and mapping (R401). -/
  fls : Fls := {}
  /-- epoch, journal, binders (R397). -/
  eng : Eng := {}
  /-- object table and bytes of objects (R397). -/
  obj : Obj := {}
  /-- versioned tables and index objects (R397). -/
  idx : Idx := {}
  /-- generation in force (R397). -/
  cur : Gen := {}
  /-- boot count (R410). -/
  boot : Nat := 0
  deriving DecidableEq, Repr

/-- record and replay (16) -/
structure Rec where
  /-- what the snapshot held freezes (R401). -/
  snapAt : Option Kept := none
  /-- what a replay has set aside until its cold start (R410, R412). -/
  live : Option Kept := none
  /-- a recording runs (R400). -/
  active : Bool := false
  /-- a recording is held (R405). -/
  held : Bool := false
  /-- snapshot ID held (R401). -/
  snap : Option Nat := none
  /-- snapshots taken (R401). -/
  snaps : Nat := 0
  /-- a generation has entered Trace, at this epoch; the recording is to start (R401). -/
  due : Option Nat := none
  /-- chunks in the recorder ring, oldest first (R403). -/
  ring : List RecChunk := []
  /-- chunks spilled, newest first (R403). -/
  spill : List RecChunk := []
  /-- next chunk sequence (R407). -/
  nextChunk : Nat := 1
  /-- header and point directory of the recording, to the next 64-byte boundary (R406). -/
  header : Bytes := []
  /-- spill region bytes (R400). -/
  spillCap : Nat := 1000000000000
  /-- snapshot budget bytes (R400). -/
  budget : Nat := 2000000000000
  /-- flash mapping frozen by the snapshot (R401). -/
  snapMap : Tab Unit := []
  /-- END reason (R404). -/
  endReason : Option RecEnd := none
  /-- a replay runs (R410). -/
  replaying : Bool := false
  /-- chunks of the recording being replayed, next first (R410). -/
  chunks : List RecChunk := []
  /-- last chunk consumed (R412). -/
  seqDone : Nat := 0
  /-- window at which the replay stopped (R413). -/
  diverged : Option Nat := none
  /-- uptime of the last progress (R412). -/
  progressAt : Nat := 0
  /-- seq of REPLAY_START (R336). -/
  replaySeq : Nat := 0
  /-- the replay has stopped and raised its COMMAND_DONE event (R410). -/
  ended : Bool := false
  deriving DecidableEq, Repr

/-- a digest window that has closed: an entry of a DIGEST chunk (R408) -/
structure DigestEnt where
  /-- island (R408). -/
  island : Nat := 0
  /-- window index (R408). -/
  window : Nat := 0
  /-- events in the window (R408). -/
  events : Nat := 0
  /-- CRC-64 over them (R409). -/
  digest : Nat := 0
  deriving DecidableEq, Repr

/-- the digests of a recording or of a replay (R409) -/
structure Dig where
  /-- the open window of each island (R409). -/
  open_ : Tab DigestEnt := []
  /-- windows closed and not yet in a DIGEST chunk, or, in a replay, all of them (R409). -/
  closed : List DigestEnt := []
  deriving DecidableEq, Repr

/-- The whole state of the block. -/
structure State where
  aon : Aon := {}
  stew : Stew := {}
  hif : Hif := {}
  eng : Eng := {}
  idx : Idx := {}
  obj : Obj := {}
  shv : Shv := {}
  stk : Mem_ := {}
  fls : Fls := {}
  fab : Fab := {}
  rel : Rel := {}
  recd : Rec := {}
  dig : Dig := {}
  pending : List Instr := []
  deriving DecidableEq, Repr

/-- The block has no fault that stops it: every fault of the spec is a status, a poison mark, a register, a record
or an event, which are effects on State. -/
inductive Fault where
  /-- Raised by no meaning (safe): the type needs an inhabitant to be written out. -/
  | neverRaised
  deriving DecidableEq, Repr

/-- Why a command has no meaning. -/
inductive Refusal where
  /-- Raised only by an arm of exec whose command has no meaning yet (safe): names the table's mnemonic. -/
  | notModelled (mnemonic : String)
  deriving DecidableEq, Repr

/-- The outcome of a command. -/
abbrev Res := Host.Outcome State Fault Refusal

/-- The node right after the power-good of its first cold start: every field at its default above, which is the
value the spec states for reset, or the value the assumption log names where it states none; no command waits. -/
def State.reset : State := {}

end Sys2Proof.Machine
end

