-- ==== Sys2Proof/Machine/Tab.lean ====
section
/-! DEFINITION. Tables by number and sparse byte memories: reading, writing, and the canonical form. -/

namespace Sys2Proof.Machine
open Sys2Proof

/-- The entry of a table under a key. -/
def tabGet {α : Type} : Tab α → Nat → Option α
  | [], _ => none
  | (k, v) :: t, i => if k = i then some v else tabGet t i

/-- The entry of a table under a key, or a default. -/
def tabGetD {α : Type} (t : Tab α) (i : Nat) (d : α) : α := (tabGet t i).getD d

/-- A table with an entry written, keys kept rising. -/
def tabSet {α : Type} : Tab α → Nat → α → Tab α
  | [], i, x => [(i, x)]
  | (k, v) :: t, i, x =>
    if i < k then (i, x) :: (k, v) :: t else if k = i then (i, x) :: t else (k, v) :: tabSet t i x

/-- A table without the entry of a key. -/
def tabDel {α : Type} (t : Tab α) (i : Nat) : Tab α := t.filter fun p => p.1 != i

/-- A table with an existing entry changed; unchanged where there is none. -/
def tabMod {α : Type} (t : Tab α) (i : Nat) (f : α → α) : Tab α :=
  t.map fun p => if p.1 = i then (p.1, f p.2) else p

/-- A count in a table raised by n (unlisted: 0). -/
def tabAdd (t : Tab Nat) (i n : Nat) : Tab Nat := tabSet t i (tabGetD t i 0 + n)

/-- The keys of a table. -/
def tabKeys {α : Type} (t : Tab α) : List Nat := t.map Prod.fst

/-- The byte at an address; an unlisted address reads 0 (R236). -/
def memGet : Mem → Nat → Byte
  | [], _ => 0
  | (k, v) :: m, a => if k = a then v else memGet m a

/-- One byte written, in canonical form: writing 0 removes the entry. -/
def memSet : Mem → Nat → Byte → Mem
  | [], a, b => if b = 0 then [] else [(a, b)]
  | (k, v) :: m, a, b =>
    if a < k then (if b = 0 then (k, v) :: m else (a, b) :: (k, v) :: m)
    else if k = a then (if b = 0 then m else (a, b) :: m)
    else (k, v) :: memSet m a b

/-- n bytes from an address. -/
def memRead (m : Mem) (a n : Nat) : Bytes := (List.range n).map fun i => memGet m (a + i)

/-- Bytes written from an address on. -/
def memWrite (m : Mem) (a : Nat) : Bytes → Mem
  | [] => m
  | b :: bs => memWrite (memSet m a b) (a + 1) bs

/-- Keys strictly rising from a lower bound, no listed byte 0. -/
def memWfFrom (lo : Nat) : Mem → Bool
  | [] => true
  | (k, v) :: m => decide (lo ≤ k) && (v != 0) && memWfFrom (k + 1) m

/-- The canonical form of a sparse memory: equal memories are equal lists. -/
def memWf (m : Mem) : Bool := memWfFrom 0 m

/-- A list cut of repeats, first occurrences kept. -/
def nub : List Nat → List Nat
  | [] => []
  | x :: xs => x :: (nub xs).filter (· != x)

/-- The element at an index replaced. -/
def listSet {α : Type} : List α → Nat → α → List α
  | [], _, _ => []
  | _ :: xs, 0, y => y :: xs
  | x :: xs, n + 1, y => x :: listSet xs n y

/-- A number put into a set kept as a list without repeats, or left out of it. -/
def setPut (l : List Nat) (i : Nat) (on : Bool) : List Nat :=
  if on then (if l.contains i then l else l ++ [i]) else l.filter (· != i)

end Sys2Proof.Machine
end

