-- ==== Sys2Proof/Machine/Operands.lean ====
section
/-! DEFINITION. Operand forms: little-endian fields of byte strings (R12), bit fields, saturating counters, CRC-32C. -/

namespace Sys2Proof.Machine
open Sys2Proof

/-- The byte at an offset (0 beyond the end). -/
def byteAt (b : Bytes) (i : Nat) : Nat := (b.getD i 0).toNat

/-- Little-endian value of a byte string (R12). -/
def leNat : Bytes → Nat
  | [] => 0
  | b :: bs => b.toNat + 256 * leNat bs

/-- n bytes from an offset; zeros beyond the end. -/
def slice (b : Bytes) (off n : Nat) : Bytes :=
  let s := (b.drop off).take n
  s ++ List.replicate (n - s.length) 0

/-- The n-byte little-endian field at an offset. -/
def fld (b : Bytes) (off n : Nat) : Nat := leNat ((b.drop off).take n)

/-- n little-endian bytes of a number. -/
def toLe : Nat → Nat → Bytes
  | 0, _ => []
  | n + 1, v => BitVec.ofNat 8 v :: toLe n (v / 256)

/-- A byte string with bytes written at an offset. -/
def putAt (b : Bytes) (off : Nat) (x : Bytes) : Bytes :=
  slice b 0 off ++ x ++ b.drop (off + x.length)

/-- Bits [lo + n - 1 : lo] of a number. -/
def bitsOf (v lo n : Nat) : Nat := v / 2 ^ lo % 2 ^ n

/-- Bit i of a number. -/
def bitOf (v i : Nat) : Bool := v.testBit i

/-- 1 for true. -/
def b2n (b : Bool) : Nat := if b then 1 else 0

/-- n zero bytes. -/
def zeros (n : Nat) : Bytes := List.replicate n 0

/-- n bytes FFH. -/
def ones (n : Nat) : Bytes := List.replicate n 0xFF

/-- The two's complement value of an n-bit field. -/
def signedOf (n v : Nat) : Int := if v % 2 ^ n < 2 ^ (n - 1) then (v % 2 ^ n : Nat) else ((v % 2 ^ n : Nat) : Int) - 2 ^ n

/-- The n-bit two's complement field of an integer. -/
def fieldOfInt (n : Nat) (v : Int) : Nat := (v % 2 ^ n).toNat

/-- A counter that stays at its highest value. -/
def satAdd (bits v n : Nat) : Nat := min (v + n) (2 ^ bits - 1)

/-- x divided by y, rounded up. -/
def ceilDiv (x y : Nat) : Nat := (x + y - 1) / y

/-- A number rounded up to a multiple. -/
def roundUp (x m : Nat) : Nat := ceilDiv x m * m

/-- One byte through the reflected CRC-32C polynomial 0x82F63B78. -/
def crcBit : Nat → Nat → Nat
  | 0, c => c
  | n + 1, c => crcBit n (if c % 2 = 1 then (c / 2) ^^^ 0x82F63B78 else c / 2)

/-- The CRC register after a byte string. -/
def crcRun : Bytes → Nat → Nat
  | [], c => c
  | b :: bs, c => crcRun bs (crcBit 8 (c ^^^ b.toNat))

/-- CRC-32C of a byte string: initial value and final inversion all ones. -/
def crc32c (b : Bytes) : Nat := crcRun b 0xFFFFFFFF ^^^ 0xFFFFFFFF

/-- One bit of the CRC-64 of polynomial 0x42F0E1EBA9EA3693, highest bit first (R409). -/
def crc64Bit : Nat → Nat → Nat
  | 0, c => c
  | n + 1, c => crc64Bit n (if c / 2 ^ 63 % 2 = 1 then (2 * c % 2 ^ 64) ^^^ 0x42F0E1EBA9EA3693 else 2 * c % 2 ^ 64)

/-- That CRC carried on over a byte string: no reflection, no inversion (R409). -/
def crc64 : Bytes → Nat → Nat
  | [], c => c
  | b :: bs, c => crc64 bs (crc64Bit 8 (c ^^^ (b.toNat * 2 ^ 56)))

/-- The records of n bytes a byte string holds. -/
def recordsGo (n : Nat) : Nat → Bytes → List Bytes
  | 0, _ => []
  | k + 1, b => b.take n :: recordsGo n k (b.drop n)

/-- The whole records of n bytes a byte string holds. -/
def records (n : Nat) (b : Bytes) : List Bytes := recordsGo n (b.length / n) b

/-- Whether every byte of a field is 0. -/
def zeroAt (b : Bytes) (off n : Nat) : Bool := fld b off n == 0

/-- One check of a layout: its byte offset, and whether it passes. -/
abbrev Chk := Nat × Bool

/-- The offset of the first failing check. -/
def firstBad : List Chk → Option Nat
  | [] => none
  | (o, ok) :: cs => if ok then firstBad cs else some o

end Sys2Proof.Machine
end

