-- ==== Sys2Proof/Machine/Flags.lean ====
section
/-! DEFINITION. Status codes (R338), fault-cause bits (R309), causes (R387), event codes (R337), and the status registers
put together from State. -/

namespace Sys2Proof.Machine
open Sys2Proof

namespace St
/-- R338. -/
def success : Nat := 0
def invalidOpcode : Nat := 0x0101
def invalidField : Nat := 0x0102
def accessViolation : Nat := 0x0103
def busy : Nat := 0x0104
def nodeState : Nat := 0x0105
def bufferShort : Nat := 0x0106
def recoveryStale : Nat := 0x0107
def mbxDomainDown : Nat := 0x0108
def hostAccessError : Nat := 0x0109
def formatUnsupported : Nat := 0x010A
def insufficientCapacity : Nat := 0x0201
def sramOvercommit : Nat := 0x0202
def stookOvercommit : Nat := 0x0203
def sheafLimit : Nat := 0x0204
def rowTooLong : Nat := 0x0205
def windowMapped : Nat := 0x0206
def sheafCycle : Nat := 0x0301
def sheafUnreachable : Nat := 0x0302
def tileConflict : Nat := 0x0303
def fallbackNotResident : Nat := 0x0304
def sheafNotShared : Nat := 0x0305
def generationMismatch : Nat := 0x0306
def imageInvalid : Nat := 0x0307
def queueState : Nat := 0x0308
def epochNotRetained : Nat := 0x0401
def epochAhead : Nat := 0x0402
def epochExhausted : Nat := 0x0403
def objectInTable : Nat := 0x0404
def journalUnavailable : Nat := 0x0405
def binderUnknown : Nat := 0x0406
def binderTimeout : Nat := 0x0407
def bufStale : Nat := 0x0501
def bufNotOwner : Nat := 0x0502
def moveCancelled : Nat := 0x0503
def collectionUnknown : Nat := 0x0601
def vectorExists : Nat := 0x0602
def vectorNotFound : Nat := 0x0603
def listFull : Nat := 0x0604
def collectionFull : Nat := 0x0605
def wrongNode : Nat := 0x0606
def poison : Nat := 0x0701
def mediaTableMissing : Nat := 0x0801
def flushBudget : Nat := 0x0802
def keyNotLoaded : Nat := 0x0803
def keyInUse : Nat := 0x0804
def culmPlacement : Nat := 0x0901
def culmRetired : Nat := 0x0902
def peerTimeout : Nat := 0x0A01
def peerUnknown : Nat := 0x0A02
def threshUnavailable : Nat := 0x0B01
def replayDiverged : Nat := 0x0B02
def partialResult : Nat := 0x8001
def psEntryInterrupted : Nat := 0x8002
end St

namespace Cause
/-- FAULT_CAUSE bits (R309). -/
def dieLink : Nat := 0
def journal : Nat := 1
def log : Nat := 2
def viral : Nat := 3
def queueEngine : Nat := 4
end Cause

namespace EvCode
/-- Mailbox events (R337). -/
def commandDone : Nat := 0xF001
def queueTimeout : Nat := 0xF002
def signature : Nat := 0xF003
def media : Nat := 0xF004
def lifeThreshold : Nat := 0xF005
def logRingFailed : Nat := 0xF006
def fwActivated : Nat := 0xF007
def fault : Nat := 0xF008
end EvCode

namespace Log
/-- The model's own numbers of the events the spec says are logged; Config.logCode gives the firmware's code (R389). -/
def timePost : Nat := 0
def islandReset : Nat := 1
def queueStop : Nat := 2
def queueTimeout : Nat := 3
def windowWrite : Nat := 4
def hostPoison : Nat := 5
def mailboxEmptied : Nat := 6
def readViolation : Nat := 7
def ringFailed : Nat := 8
def glitch : Nat := 9
def holdup : Nat := 10
def powerEvent : Nat := 11
def bootCountFull : Nat := 12
def metaDelay : Nat := 13
def drainStuck : Nat := 14
def thermal : Nat := 15
def refClock : Nat := 16
def quarantine : Nat := 17
def peerClosed : Nat := 18
def classDiffers : Nat := 19
def fabricError : Nat := 20
def aging : Nat := 21
def detLost : Nat := 22
def fragCold : Nat := 23
def recording : Nat := 24
def port : Nat := 25
def packError : Nat := 26
def keyChange : Nat := 27
def mbxReset : Nat := 28
def badHandle : Nat := 29
def mediaChange : Nat := 30
end Log

/-- NODE_STATUS state codes (R305). -/
def nodeStateCode : NodeState → Nat
  | .start => 0 | .standby => 1 | .service => 2 | .recovery => 3 | .fault => 4

/-- Queue state codes (R311). -/
def qStateCode : QState → Nat
  | .disabled => 0 | .enabled => 1 | .error => 2 | .timedOut => 3

/-- FAULT_N is asserted while any FAULT_CAUSE bit is set (R394). -/
def faultN (s : State) : Bool := s.aon.faultCause != 0

/-- A fault-cause value with a bit set. -/
def withBit (v : BitVec 64) (i : Nat) : BitVec 64 := v ||| BitVec.ofNat 64 (2 ^ i)

/-- A fault-cause value with a bit cleared. -/
def withoutBit (v : BitVec 64) (i : Nat) : BitVec 64 := v &&& ~~~(BitVec.ofNat 64 (2 ^ i))

/-- LOG_FAIL_COUNT (R392). -/
def logFailCount (s : State) : Nat := s.aon.fail38 + 2 ^ 16 * s.aon.fail62 + 2 ^ 32 * s.aon.lostLog

/-- A queue pair's status register (R311). -/
def queueStatusReg (q : Qp) : Nat :=
  qStateCode q.qstate + 4 * b2n q.dbInvalid + 8 * b2n q.hostAccess + 2 ^ 4 * (q.sqHead % 2 ^ 16) +
    2 ^ 20 * (q.cqTail % 2 ^ 16) + 2 ^ 36 * q.tenant + 2 ^ 46 * b2n q.wait

/-- MBX_STATUS (R326). -/
def mbxStatusReg (m : Mbx) (busy : Bool) : Nat :=
  b2n m.inFull + 2 * b2n m.outFull + 4 * b2n busy + 8 * b2n m.inDiscard + 16 * m.events.length

/-- IDENT (R304). -/
def identReg : Nat := 0x0001 + 2 ^ 16 * 0x0001 + 2 ^ 32 * 0xA0

end Sys2Proof.Machine
end

