-- ==== Sys2Proof/Machine/Gen.lean ====
section
/-! DEFINITION. Reading a configuration generation: the NODE block with its defaults (R441), the other sections (R440) and
the sheaf descriptors (R42 to R44). -/

namespace Sys2Proof.Machine
open Sys2Proof

/-- A field, or its default where it is written 0 (R441). -/
def orDef (v d : Nat) : Nat := if v = 0 then d else v

/-- node_id. -/
def genNode (g : Gen) : Nat := fld g.node 0 2 % 2 ^ 14
/-- node_count. -/
def genCount (g : Gen) : Nat := fld g.node 2 2
/-- coordinator. -/
def genCoord (g : Gen) : Nat := fld g.node 4 2
/-- collector. -/
def genCollector (g : Gen) : Nat := fld g.node 6 2
/-- profile: 0 Swift, 1 Bulk, 2 Keep, 3 Trace. -/
def genProfile (g : Gen) : Nat := byteAt g.node 8
/-- retention N (R221). -/
def genRetention (g : Gen) : Nat := orDef (byteAt g.node 9) 16
/-- udp_port. -/
def genUdp (g : Gen) : Nat := orDef (fld g.node 0x0A 2) 10771
/-- group_interval, µs. -/
def genGroup (g : Gen) : Nat := orDef (fld g.node 0x0C 4) 100
/-- version_pool, bytes. -/
def genPool (g : Gen) : Nat := orDef (fld g.node 0x10 4) 1024 * 2 ^ 20
/-- cleaning interval, ns. -/
def genCleaning (g : Gen) : Nat := orDef (fld g.node 0x14 4) 300 * 10 ^ 9
/-- meter interval, ns. -/
def genMeter (g : Gen) : Nat := orDef (fld g.node 0x18 4) 60 * 10 ^ 9
/-- frame_payload, bytes. -/
def genPayload (g : Gen) : Nat := orDef (fld g.node 0x1C 2) 8192
/-- peer_timeout, ns. -/
def genPeerTimeout (g : Gen) : Nat := orDef (fld g.node 0x1E 2) 10 * 10 ^ 6
/-- rx_pool, bytes. -/
def genRxPool (g : Gen) : Nat := orDef (fld g.node 0x20 4) 1024 * 2 ^ 20
/-- host_bound, ns. -/
def genHostBound (g : Gen) : Nat := orDef (byteAt g.node 0x24) 10 * 10 ^ 6
/-- fabric_bound, ns. -/
def genFabricBound (g : Gen) : Nat := orDef (byteAt g.node 0x25) 10 * 10 ^ 6
/-- background_bound, ns. -/
def genBackBound (g : Gen) : Nat := orDef (fld g.node 0x26 2) 10 * 10 ^ 8
/-- port mode of a port: 0 disabled, 1 800GBASE-R, 2 1.6TBASE-R. -/
def genPortMode (g : Gen) (p : Nat) : Nat := bitsOf (fld g.node 0x2C 4) (2 * p) 2
/-- spill region, bytes. -/
def genSpill (g : Gen) : Nat := orDef (fld g.node 0x30 8) 1000 * 10 ^ 9
/-- snapshot budget, bytes. -/
def genSnapshot (g : Gen) : Nat := orDef (fld g.node 0x38 8) 2000 * 10 ^ 9

/-- Configuration class of a node count: 0 Standalone, 1 Group, 2 Federation (R119). -/
def classOf (count : Nat) : Nat := if count ≤ 1 then 0 else if count ≤ 256 then 1 else 2

/-- Class of a generation. -/
def genClass (g : Gen) : Nat := classOf (genCount g)

/-- Rows of a section whose key field has a value. -/
def rowOf (n : Nat) (sec : Bytes) (p : Bytes → Bool) : Option Bytes := (records n sec).find? p

/-- The TENANTS entry of a tenant. -/
def genTenant (g : Gen) (t : Nat) : Option Bytes := rowOf 8 g.tenants fun r => fld r 0 2 == t
/-- Whether a tenant is assigned: unlisted tenants are not (R440). -/
def genAssigned (g : Gen) (t : Nat) : Bool := ((genTenant g t).map fun r => bitOf (byteAt r 2) 0).getD false
/-- Queue pairs of a tenant: (first global queue pair, count). -/
def genQps (g : Gen) (t : Nat) : Nat × Nat :=
  match genTenant g t with
  | some r => if bitOf (byteAt r 2) 0 then (fld r 4 2, byteAt r 3) else (0, 0)
  | none => (0, 0)
/-- Share and limit of a tenant in a tier, 0 where no entry is given (R440). -/
def genShare (g : Gen) (t tier : Nat) : Nat × Nat :=
  match rowOf 24 g.pools fun r => fld r 0 2 == t && byteAt r 2 == tier with
  | some r => (fld r 8 8, fld r 16 8)
  | none => (0, 0)
/-- The R362 entry of a bucket: (row, index of the row's bucket); none: unlimited (R440). -/
def genBucket (g : Gen) (row inst : Nat) : Option Bytes :=
  (rowOf 24 g.buckets fun r => fld r 0 4 == row + 256 * inst).map fun r => slice r 8 16
/-- The wrapped fabric key of a tenant. -/
def genFabricKey (g : Gen) (t : Nat) : Option Bytes :=
  (rowOf 48 g.keys fun r => fld r 0 2 == t).map fun r => slice r 8 40
/-- The T4 windows: (endpoint, base, bytes). -/
def genT4 (g : Gen) : List (Nat × Nat × Nat) := (records 32 g.t4).map fun r => (fld r 0 2, fld r 8 8, fld r 16 8)

/-- The sheaf descriptors of a generation. -/
def genSheaves (g : Gen) : List Bytes := records 1088 g.sheaves
/-- The descriptor of a sheaf. -/
def genSheaf (g : Gen) (id : Nat) : Option Bytes := (genSheaves g).find? fun d => fld d 0 2 == id

/-- stage_count. -/
def shStages (d : Bytes) : Nat := byteAt d 4
/-- owner. -/
def shOwner (d : Bytes) : Nat := fld d 2 2 % 1024
/-- DEADLINE. -/
def shDeadlineOn (d : Bytes) : Bool := bitOf (byteAt d 5) 0
/-- SHARED. -/
def shShared (d : Bytes) : Bool := bitOf (byteAt d 5) 1
/-- batch_max. -/
def shBatchMax (d : Bytes) : Nat := fld d 6 2
/-- batch_window, ns. -/
def shWindow (d : Bytes) : Nat := fld d 8 4
/-- deadline, ns. -/
def shDeadline (d : Bytes) : Nat := fld d 0x0C 4
/-- Tenants of the share list. -/
def shShareList (d : Bytes) : List Nat := (List.range (byteAt d 0x10)).map fun i => fld d (0x20 + 2 * i) 2 % 1024
/-- Whether a tenant may use a sheaf (R49): its owner's, the system tenant's own included, or a listed tenant's. -/
def shAllows (d : Bytes) (t : Nat) : Bool := shOwner d == t || (shShared d && (shShareList d).contains t)
/-- Stage entry i. -/
def shStage (d : Bytes) (i : Nat) : Bytes := slice d (0x40 + 64 * i) 64
/-- role. -/
def sgRole (e : Bytes) : Nat := byteAt e 0
/-- SPLIT. -/
def sgSplit (e : Bytes) : Bool := bitOf (byteAt e 1) 0
/-- CULM_SCAN. -/
def sgCulm (e : Bytes) : Bool := bitOf (byteAt e 1) 1
/-- SPARSE_2_4. -/
def sgSparse (e : Bytes) : Bool := bitOf (byteAt e 1) 2
/-- MAC_DOT. -/
def sgDot (e : Bytes) : Bool := bitOf (byteAt e 1) 3
/-- base_tile. -/
def sgBase (e : Bytes) : Nat := fld e 2 2 % 512
/-- width. -/
def sgWidth (e : Bytes) : Nat := byteAt e 4
/-- run_ahead. -/
def sgAhead (e : Bytes) : Nat := byteAt e 5
/-- input_slots. -/
def sgSlots (e : Bytes) : Nat := byteAt e 6
/-- Successors of a stage (R43). -/
def sgSuccs (e : Bytes) : List Nat := [byteAt e 8, byteAt e 9].filter (· != 0xFF)
/-- landing_bytes. -/
def sgLanding (e : Bytes) : Nat := fld e 0x14 4
/-- bran_bytes. -/
def sgBran (e : Bytes) : Nat := fld e 0x18 4
/-- The tiles of a stage, in tile-ID order. -/
def sgTiles (e : Bytes) : List Nat := (List.range (sgWidth e)).map (sgBase e + ·)
/-- The stage a sheaf ends in. -/
def shTerminal (d : Bytes) : Nat :=
  ((List.range (shStages d)).find? fun i => byteAt (shStage d i) 8 == 0xFF).getD 0
/-- Stage entries in order. -/
def shEntries (d : Bytes) : List Bytes := (List.range (shStages d)).map (shStage d)
/-- The first stage entry of a role. -/
def shRole (d : Bytes) (r : Nat) : Option Bytes := (shEntries d).find? fun e => sgRole e == r
/-- Predecessors of stage i. -/
def shPreds (d : Bytes) (i : Nat) : List Nat :=
  (List.range (shStages d)).filter fun p => (sgSuccs (shStage d p)).contains i

/-- The stages before a stage, itself included. -/
def upTo (d : Bytes) (i : Nat) : List Nat :=
  (List.range (shStages d)).foldl (fun l _ => (l ++ l.flatMap (shPreds d)).eraseDups) [i]

end Sys2Proof.Machine
end

