-- ==== Sys2Proof/Machine/Ops.lean ====
section
/-! DEFINITION. The named operations over the state: updating one part, host writes, interrupts, log, events, detections,
faults, completions, epochs, range locks, pins, the end of a command. -/

namespace Sys2Proof.Machine
open Sys2Proof

/-- Update of one part of the state. -/
def State.onAon (f : Aon → Aon) (s : State) : State := { s with aon := f s.aon }
def State.onStew (f : Stew → Stew) (s : State) : State := { s with stew := f s.stew }
def State.onHif (f : Hif → Hif) (s : State) : State := { s with hif := f s.hif }
def State.onEng (f : Eng → Eng) (s : State) : State := { s with eng := f s.eng }
def State.onIdx (f : Idx → Idx) (s : State) : State := { s with idx := f s.idx }
def State.onObj (f : Obj → Obj) (s : State) : State := { s with obj := f s.obj }
def State.onShv (f : Shv → Shv) (s : State) : State := { s with shv := f s.shv }
def State.onStk (f : Mem_ → Mem_) (s : State) : State := { s with stk := f s.stk }
def State.onFls (f : Fls → Fls) (s : State) : State := { s with fls := f s.fls }
def State.onFab (f : Fab → Fab) (s : State) : State := { s with fab := f s.fab }
def State.onRel (f : Rel → Rel) (s : State) : State := { s with rel := f s.rel }
def State.onRec (f : Rec → Rec) (s : State) : State := { s with recd := f s.recd }

/-- Uptime (R418). -/
def now (s : State) : Nat := s.aon.uptime
/-- The configuration generation in force (R439). -/
def gen (s : State) : Gen := s.stew.cur
/-- A queue pair. -/
def qpOf (s : State) (q : Nat) : Qp := tabGetD s.hif.qps q {}
/-- Changes a queue pair that exists. -/
def modQp (q : Nat) (f : Qp → Qp) (s : State) : State := s.onHif fun h => { h with qps := tabMod h.qps q f }
/-- An admitted command. -/
def cmdOf (s : State) (n : Nat) : Option Cmd := tabGet s.hif.cmds n
/-- Changes an admitted command. -/
def modCmd (n : Nat) (f : Cmd → Cmd) (s : State) : State := s.onHif fun h => { h with cmds := tabMod h.cmds n f }
/-- Changes an object's entry. -/
def modObj (i : Nat) (f : ObjRec → ObjRec) (s : State) : State := s.onObj fun o => { o with recs := tabMod o.recs i f }
/-- Changes a husk. -/
def modHusk (h : Nat) (f : Husk → Husk) (s : State) : State := s.onEng fun e => { e with husks := tabMod e.husks h f }
/-- A mailbox by tenant: empty where nothing has used it. -/
def mbxOf (s : State) (t : Nat) : Mbx := tabGetD s.stew.mbx t {}
/-- Changes a mailbox. -/
def modMbx (t : Nat) (f : Mbx → Mbx) (s : State) : State :=
  s.onStew fun w => { w with mbx := tabSet w.mbx t (f (tabGetD w.mbx t {})) }
/-- Changes a peer entry. -/
def modPeer (n : Nat) (f : Peer → Peer) (s : State) : State :=
  s.onFab fun x => { x with peers := tabSet x.peers n (f (tabGetD x.peers n {})) }

/-- Tenant of a handle (R16). -/
def hTenant (h : Nat) : Nat := h / 2 ^ 54 % 1024
/-- Class of a handle. -/
def hClass (h : Nat) : Nat := h / 2 ^ 50 % 16
/-- Index of a handle. -/
def hIndex (h : Nat) : Nat := h / 2 ^ 16 % 2 ^ 34
/-- Generation of a handle. -/
def hGen (h : Nat) : Nat := h % 2 ^ 16
/-- A handle of its parts. -/
def mkHandle (t c i g : Nat) : Nat := t * 2 ^ 54 + c * 2 ^ 50 + i * 2 ^ 16 + g

/-- The live object a handle names, if it is not stale. -/
def objOf (s : State) (h : Nat) : Option ObjRec :=
  match tabGet s.obj.recs (hIndex h) with
  | some o => if o.handle = h then some o else none
  | none => none

/-- The hottest of n sensors from the first given (R457). -/
def hottest (s : State) (first n : Nat) : Int :=
  ((s.aon.temps.drop first).take n).foldl max (s.aon.temps.getD first 0)

/-- Whether the node does nothing beyond island 0: from a power event to the next cold start (R434), or while its islands are
held in reset (R424, R459, R463). -/
def halted (s : State) : Bool := s.aon.flush.isSome || s.aon.inReset.contains 59

/-- Writes bytes to a function's host memory (R317); an empty string writes nothing, and nothing goes to a host once the node
is halted (R434). -/
def hostWrite (fn addr : Nat) (b : Bytes) (ep : Bool) (s : State) : State :=
  if b.isEmpty || halted s then s else s.onHif fun h => { h with out := h.out ++ [{ fn := fn, addr := addr, bytes := b, ep := ep }] }

/-- A record on its way to the event log (R389, R390). -/
def logEv (ev src sev : Nat) (body : Bytes) (s : State) : State :=
  s.onRel fun r => { r with logq := r.logq ++ [{
    boot := s.stew.boot, code := Config.logCode ev, source := src,
    severity := sev, uptime := s.aon.uptime, body := slice body 0 36 }] }

/-- The slot bound to a (function, table entry) pair: entries 0 and 1 of every function by default (R322). -/
def vecSlot (s : State) (fn ent : Nat) : Option Nat :=
  match s.hif.vecs.find? fun p => p.2 == some (fn * 2048 + ent) with
  | some p => some p.1
  | none => if ent < 2 && fn < 1024 && (tabGet s.hif.vecs (2 * fn + ent)).isNone then some (2 * fn + ent) else none

/-- Whether an MSI-X entry is masked (R322). -/
def vecMasked (s : State) (k : Nat) : Bool := !s.hif.vecOpen.contains k

/-- Sends an MSI-X message, or sets the pending bit of a masked entry; an unbound entry gets neither (R322). -/
def sendMsi (fn ent : Nat) (s : State) : State :=
  if (vecSlot s fn ent).isNone || halted s then s
  else if vecMasked s (fn * 2048 + ent) then
    s.onHif fun h => { h with vecPend := setPut h.vecPend (fn * 2048 + ent) true }
  else s.onHif fun h => { h with msi := h.msi ++ [(fn, ent)] }

/-- The mailbox interrupt of a function: entry 0, or PME through WAKE_N from D3hot (R327 step 4). -/
def mailMsi (fn : Nat) (s : State) : State :=
  if s.hif.d3.contains fn then s.onAon fun a => { a with pmeOut := true } else sendMsi fn 0 s

/-- A mailbox message: header (R331) and body, the body rounded up to whole 8 bytes. -/
def mailMsg (code flags seq target status detail recSeq : Nat) (body : Bytes) : Bytes :=
  let b := slice body 0 (roundUp body.length 8)
  toLe 2 code ++ toLe 1 flags ++ [0] ++ toLe 2 seq ++ toLe 2 target ++ toLe 4 b.length ++ toLe 2 status ++
    toLe 2 detail ++ toLe 8 recSeq ++ zeros 8 ++ b

/-- Raises an event on a mailbox: queued behind the outbound area, or dropped and counted while 64 wait (R337). The
detail field is filled in at delivery. -/
def raiseEvent (t code : Nat) (body : Bytes) (s : State) : State :=
  modMbx t (fun m =>
    let q := (m.eventSeq + 1) % 65536
    if m.events.length < 64 then
      { m with eventSeq := q, events := m.events ++ [mailMsg code 2 q t 0 0 0 body] }
    else { m with eventSeq := q, lost := satAdd 16 m.lost 1 }) s

/-- The COMMAND_DONE event of a command (R336, R337): its result body stands 8 further on than in the response. -/
def commandDone (t command seq status detail : Nat) (body : Bytes) (s : State) : State :=
  raiseEvent t EvCode.commandDone (toLe 2 command ++ toLe 2 seq ++ toLe 2 status ++ toLe 2 detail ++ body) s

/-- Forms the response of the Zalpol command a mailbox has in progress (R327, R331), stores it with a recovery
command's sequence (R339), or discards it where the page was reset meanwhile (R330). -/
def zRespond (box status detail : Nat) (body : Bytes) (s : State) : State :=
  modMbx box (fun m =>
    match m.req with
    | none => m
    | some r =>
      if m.drop then { m with req := none, drop := false }
      else
        let code := fld r.msg 0 2
        let rs := fld r.msg 0x10 8
        let resp := mailMsg code 1 (fld r.msg 4 2) (fld r.msg 6 2) status detail rs body
        let keep := r.passed && (code == 0x0112 || code == 0x0202 || code == 0x0701)
        { m with
          req := some { r with resp := some resp }, recSeq := if keep then some rs else m.recSeq,
          recResp := if keep then resp else m.recResp }) s

/-- Latches the first fatal cause after a cold start (R393). -/
def latchGasp (cause island : Nat) (s : State) : State :=
  if s.aon.gasp.toNat % 2 = 1 then s
  else s.onAon fun a => { a with
    gasp := BitVec.ofNat 64 (1 + 2 ^ 8 * cause + 2 ^ 16 * island + 2 ^ 32 * s.stew.boot), gaspUp := a.uptime }

/-- Sets a FAULT_CAUSE bit while its condition is present and raises the FAULT event (R309, R337, R394). -/
def raiseCause (i : Nat) (s : State) : State :=
  let s := s.onAon fun a => { a with faultCause := withBit a.faultCause i, faultPresent := withBit a.faultPresent i }
  (raiseEvent 0 EvCode.fault (toLe 8 s.aon.faultCause.toNat) s).onRel fun r => { r with sigUnread := true }

/-- Viral (R324): the flag, FAULT_CAUSE viral, the AER report, the node state FAULT (R394). -/
def raiseViral (s : State) : State :=
  if s.aon.viral then s
  else
    let s := raiseCause Cause.viral (s.onAon fun a => { a with viral := true })
    (s.onHif fun h => { h with aer := h.aer + 1 }).onStew fun w => { w with st := .fault }

/-- A detection enters the queue of island 62, or is lost and counted while 1,024 wait (R388). -/
def detect (d : Det) (s : State) : State :=
  s.onRel fun r =>
    if r.detq.length < 1024 then
      { r with detq := r.detq ++ [{ d with
        boot := s.stew.boot, uptime := s.aon.uptime, epoch := s.eng.epoch,
        gen := s.stew.cur.number, profile := genProfile s.stew.cur, node := genNode s.stew.cur }] }
    else { r with detLost := r.detLost + 1 }

/-- A wake event (R325, R432): it matters only outside P0 or while a lower state is being entered. -/
def wakeEvent (s : State) : State :=
  if s.stew.pstate != 0 || s.stew.goal.isSome then s.onStew fun w => { w with wake := true } else s

/-- A completion entry of 32 bytes (R103). -/
def complBytes (c : Compl) (sqHead : Nat) (phase : Bool) : Bytes :=
  toLe 2 c.cid ++ toLe 2 c.status ++ toLe 2 sqHead ++ toLe 2 (b2n phase + 2 * b2n c.unread) ++ toLe 8 c.epoch ++
    toLe 4 c.count ++ toLe 2 c.detail ++ toLe 1 c.fieldIn ++ [0] ++ toLe 4 c.fieldOffset ++ zeros 4

/-- Whether the completion queue has no free slot (R318). -/
def cqFull (q : Qp) : Bool := (q.cqTail + 1) % fld q.ctx 0x1C 4 == q.cqHead

/-- drain_deadline, ns (R312). -/
def drainDeadline (q : Qp) : Nat := orDef (fld q.ctx 0x20 4) 100000 * 1000

/-- Whether the coalescing rule calls for the message (R322). -/
def coalesceDue (q : Qp) : Bool :=
  decide (0 < q.unsignalled) && (fld q.ctx 0x26 2 == 0 || decide (max 1 (byteAt q.ctx 0x24) ≤ q.unsignalled))

/-- Sends a queue's message and starts counting again (R322). -/
def signalCq (q : Nat) (s : State) : State :=
  modQp q (fun p => { p with unsignalled := 0, firstUnsig := none })
    (sendMsi (qpOf s q).tenant (fld (qpOf s q).ctx 4 2) s)

/-- A stage on a tile. -/
def stageOf (s : State) (k : Nat) : StageRt := tabGetD s.shv.stages k {}
/-- Changes a stage on a tile. -/
def modStage (k : Nat) (f : StageRt → StageRt) (s : State) : State :=
  s.onShv fun v => { v with stages := tabSet v.stages k (f (tabGetD v.stages k {})) }
/-- Changes a counter record. -/
def modStat (k : Nat) (f : Stat → Stat) (s : State) : State :=
  s.onShv fun v => { v with stats := tabSet v.stats k (f (tabGetD v.stats k {})) }

/-- Whether an item's command is still there and not stopped. -/
def liveUser (s : State) (u : Nat × Nat) : Bool := ((cmdOf s u.1).map fun c => !c.suppressed).getD false

/-- An awn read's data leaves the stage's SRAM: the space it held is free (R59, R61). -/
def dropRead (id : Nat) (a : AwnRd) (s : State) : State :=
  modStage a.stage (fun r => { r with
    landing := if a.bran then r.landing else r.landing - a.len
    bran := if a.bran then r.bran - a.len else r.bran }) (s.onShv fun v => { v with reads := tabDel v.reads id })

/-- The landed data of prefetched batches whose commands are gone or stopped is discarded and its space freed (R61). -/
def discardReads (s : State) : State :=
  (s.shv.reads.filter fun p => p.2.landed && !p.2.culm && !p.2.users.any (liveUser s) &&
      (stageOf s p.2.stage).running.map Batch.num != some p.2.num).foldl (fun s p =>
    dropRead p.1 p.2 (modStat p.2.stage (fun t => { t with awnDiscard := t.awnDiscard + p.2.len }) s)) s

/-- A batch's place in staging is freed once none of its completions is left there (R57). -/
def freeStaging (b : Option (Nat × Nat)) (s : State) : State :=
  match b with
  | none => s
  | some (sh, num) =>
    if s.hif.qps.any fun p => p.2.staged.any fun c => c.batch == some (sh, num) then s
    else s.onShv fun v => { v with rts := tabMod v.rts sh fun r =>
      { r with staged := r.staged.filter (· != num), freed := r.freed + b2n (r.staged.contains num) } }

/-- Writes one completion: result data, entry with the phase bit, tail and phase, message (R317). -/
def writeCompl (q : Nat) (c : Compl) (s : State) : State :=
  let p := qpOf s q
  let n := fld p.ctx 0x1C 4
  let s := c.data.foldl (fun s w => hostWrite w.fn w.addr w.bytes w.ep s) s
  let s := hostWrite p.tenant (fld p.ctx 0x10 8 + 32 * p.cqTail) (complBytes c p.sqHead p.phase) false s
  let t := (p.cqTail + 1) % n
  let s := modQp q (fun p => { p with
    cqTail := t, phase := if t = 0 then !p.phase else p.phase,
    unsignalled := p.unsignalled + 1, firstUnsig := some (p.firstUnsig.getD (now s)) }) s
  if coalesceDue (qpOf s q) then signalCq q s else s

/-- Whether a completion of a queue can be written now: room in the CQ, function not in D3hot (R318, R321). -/
def canDrain (s : State) (q : Nat) : Bool :=
  let p := qpOf s q
  !cqFull p && !s.hif.d3.contains p.tenant

/-- Writes waiting completions, oldest first, while they can be written (R57). -/
def drainGo : Nat → Nat → State → State
  | 0, _, s => s
  | k + 1, q, s =>
    match (qpOf s q).staged with
    | [] => s
    | c :: cs =>
      if canDrain s q then
        drainGo k q (freeStaging c.batch (writeCompl q c (modQp q (fun p => { p with staged := cs }) s)))
      else s

/-- The first completion that waits notes since when (R318). -/
def noteWait (q : Nat) (s : State) : State :=
  modQp q (fun p => { p with staged := p.staged.map fun c => { c with since := some (c.since.getD (now s)) } }) s

/-- Drains a queue's staging as far as it has room. -/
def drainCq (q : Nat) (s : State) : State := noteWait q (drainGo (qpOf s q).staged.length q s)

/-- A command's completion enters staging and leaves it as its queue has room; a queue that is TIMED_OUT or DISABLED
discards it (R57, R320). -/
def postCompl (q : Nat) (c : Compl) (s : State) : State :=
  match (qpOf s q).qstate with
  | .enabled | .error => drainCq q (modQp q (fun p => { p with staged := p.staged ++ [c] }) s)
  | _ => freeStaging c.batch s

/-- One command more bound to an epoch (R220). -/
def bindEpoch (e : Nat) (s : State) : State := s.onEng fun x => { x with drain := tabAdd x.drain e 1 }

/-- One command less bound to an epoch; the entry is freed by an event of its own (R220). -/
def unbindEpoch (e : Option Nat) (s : State) : State :=
  match e with
  | none => s
  | some e => s.onEng fun x => { x with drain := tabMod x.drain e (· - 1) }

/-- The oldest retained epoch (R221). -/
def oldestRetained (s : State) : Nat := max s.eng.oldest (s.eng.epoch + 1 - genRetention (gen s))

/-- The floor F: the smaller of the oldest retained epoch and the oldest with a count that is not zero (R220). -/
def epochFloor (s : State) : Nat :=
  match s.eng.drain.find? fun p => p.2 != 0 with
  | some p => min p.1 (oldestRetained s)
  | none => oldestRetained s

/-- Two ranges meet (R207). -/
def rangesMeet (a b : Range) : Bool :=
  a.space == b.space && a.name == b.name && decide (a.lo ≤ b.hi) && decide (b.lo ≤ a.hi)

/-- Two ranges conflict: they meet and one is exclusive (R210). -/
def rangesConflict (a b : Range) : Bool := rangesMeet a b && (a.excl || b.excl)

/-- Whether a lock entry belongs to a holder. -/
def lockOf (husk : Bool) (id : Nat) (l : Lock) : Bool := l.husk == husk && l.id == id

/-- Requests in the table before the first of a holder's waiting ones, or all of them where it has none waiting. -/
def earlierThan (husk : Bool) (id : Nat) (ls : List Lock) : List Lock :=
  ls.takeWhile fun l => !(lockOf husk id l && !l.held)

/-- Whether a command's ranges may all be granted (R210). -/
def cmdMayHold (s : State) (n : Nat) (rs : List Range) : Bool :=
  rs.all fun r =>
    s.eng.locks.all (fun l => !(l.held && !lockOf false n l && rangesConflict l.range r)) &&
    (earlierThan false n s.eng.locks).all fun l => !(!l.held && !lockOf false n l && rangesConflict l.range r)

/-- Whether a husk's request may be granted (R210). -/
def huskMayHold (s : State) (h : Nat) (r : Range) : Bool :=
  s.eng.locks.all (fun l => !(l.held && !lockOf true h l && rangesConflict l.range r)) &&
  (earlierThan true h s.eng.locks).all fun l => !(!l.held && !l.husk && rangesConflict l.range r)

/-- Whether a request in the table may be granted (R210). -/
def mayGrant (s : State) (l : Lock) : Bool :=
  if l.husk then huskMayHold s l.id l.range
  else cmdMayHold s l.id ((s.eng.locks.filter (lockOf false l.id)).map Lock.range)
/-- Whether a request made earlier than a holder's may be granted and is not yet: it goes first (R210). -/
def grantBehind (s : State) (husk : Bool) (id : Nat) : Bool :=
  (earlierThan husk id s.eng.locks).any fun l => !l.held && !lockOf husk id l && mayGrant s l

/-- A holder's entries leave the range-lock table. -/
def releaseLocks (husk : Bool) (id : Nat) (s : State) : State :=
  s.onEng fun e => { e with locks := e.locks.filter fun l => !lockOf husk id l }

/-- Entries of the range-lock table in use: those present and those reserved (R213). -/
def locksUsed (s : State) : Nat := s.eng.reserved + (s.eng.locks.filter fun l => !l.husk).length

/-- The tier whose copy a reader finds (R237): the upper one from RESIDENT until it is released. -/
def servingTier (o : ObjRec) : Nat :=
  match o.st with
  | .resident | .evicting | .writingBack => o.upper
  | _ => o.home

/-- The key of a pin on an object's copy in a tier: index × 16 + 8 where the upper copy's turn is set + tier (R239). -/
def pinKeyOf (i tier : Nat) (turn : Bool) : Nat := i * 16 + 8 * b2n turn + tier

/-- Takes a pin on the copy in a tier: the home copy, or the upper one. -/
def pinAt (i tier : Nat) (s : State) : Nat × State :=
  (pinKeyOf i tier ((tabGet s.obj.recs i).any ObjRec.turn),
    modObj i (fun o => if tier = o.home then { o with pinsHome := o.pinsHome + 1, lastTouch := now s }
      else { o with pinsUpper := o.pinsUpper + 1, lastTouch := now s }) s)

/-- Takes a pin on the copy a reader finds (R239). -/
def takePin (i : Nat) (s : State) : Nat × State := pinAt i (((tabGet s.obj.recs i).map servingTier).getD 0) s

/-- A RESIDENT copy that a MOVE waits to evict becomes EVICTING once its last pin has dropped (R238). -/
def maybeEvict (o : ObjRec) : ObjRec :=
  if o.st == .resident && o.pinsUpper == 0 && o.hostPins == 0 && o.target == 255 && o.waiters.any MoveW.evict then
    { o with st := .evicting }
  else o

/-- Drops a pin: on a location being released, on the upper copy, or on the home copy (R239). -/
def dropPin (key : Nat) (s : State) : State :=
  modObj (key / 16) (fun o => maybeEvict (
    let t := key % 8
    if o.old = some t && decide (0 < o.pinsOld) && (o.upper != t || key / 8 % 2 != b2n o.turn) then { o with pinsOld := o.pinsOld - 1 }
    else if o.upper = t then { o with pinsUpper := o.pinsUpper - 1 }
    else { o with pinsHome := o.pinsHome - 1 })) s

/-- A queue whose delete is under way and whose last admitted command has ended goes DISABLED, and the mailbox that
asked is answered (R320). -/
def checkDelete (q : Nat) (s : State) : State :=
  let p := qpOf s q
  if p.deleting && p.staged.isEmpty && p.waitGe.isNone && !(s.hif.cmds.any fun c => c.2.qp == q) then
    let s := modQp q (fun p => { p with deleting := false, qstate := .disabled, fetched := [], wait := false }) s
    match s.stew.mbx.find? fun m => match m.2.req with
      | some r => r.passed && r.resp.isNone && fld r.msg 0 2 == 0x0111 && fld r.msg 0x20 2 == q &&
          fld r.msg 6 2 % 1024 == p.tenant
      | none => false with
    | some m => zRespond m.1 St.success 0 [] s
    | none => s
  else s

/-- A command ends: its epoch, ranges and pins are released and it leaves the node (R220, R228, R251). -/
def endCmd (n : Nat) (s : State) : State :=
  match cmdOf s n with
  | none => s
  | some c =>
    let s := unbindEpoch c.epoch (releaseLocks false n s)
    let s := c.pins.foldl (fun s k => dropPin k s) s
    checkDelete c.qp (s.onHif fun h => { h with cmds := tabDel h.cmds n })

/-- Result data from an offset on, the stretches that hold lost data given: those are written with EP set (R324). -/
def splitWrites (fn addr : Nat) (b : Bytes) : Nat → List (Nat × Nat) → List HostWr
  | off, [] => if off < b.length then [{ fn := fn, addr := addr + off, bytes := b.drop off }] else []
  | off, (lo, n) :: rest =>
    (if off < lo then [{ fn := fn, addr := addr + off, bytes := slice b off (lo - off) }] else []) ++
      { fn := fn, addr := addr + lo, bytes := slice b lo n, ep := true } :: splitWrites fn addr b (lo + n) rest

/-- The writes of a command's result data (R317, R324). -/
def resultWrites (fn : Nat) (r : Result) : List HostWr :=
  if r.bytes.isEmpty then []
  else if r.status = St.poison && r.lost.isEmpty then [{ fn := fn, addr := r.addr, bytes := r.bytes, ep := true }]
  else splitWrites fn r.addr r.bytes 0 r.lost

/-- The completion a command's outcome gives (R103), result data first. -/
def complOf (s : State) (c : Cmd) (r : Result) : Compl :=
  let fn := (qpOf s c.qp).tenant
  { cid := c.cid, status := r.status, epoch := r.word.getD (c.epoch.getD 0), count := r.count, detail := r.detail,
    fieldIn := r.fieldIn, fieldOffset := r.fieldOffset,
    data := resultWrites fn r }

/-- A command completes with an outcome: completion to its queue unless suppressed, then its end. -/
def finishCmd (n : Nat) (r : Result) (s : State) : State :=
  match cmdOf s n with
  | none => s
  | some c => endCmd n (if c.suppressed then s else postCompl c.qp (complOf s c r) s)

/-- Whether an island is powered and out of reset (R415). -/
def islandOn (s : State) (i : Nat) : Bool := !s.aon.inReset.contains i && !s.aon.off.contains i
/-- Whether an island takes part in transfers over the spine: it and the spine are up and their crossing is ready (R55, R415). -/
def islandUp (s : State) (i : Nat) : Bool := islandOn s i && islandOn s 35 && !s.aon.notReady.contains (min i 35, max i 35)
/-- Whether data moves between two islands now: within a cluster through its crossbar, else over the spine (R46, R55). -/
def pathUp (s : State) (i j : Nat) : Bool := if i = j then islandOn s i else islandUp s i && islandUp s j
/-- Whether values cross between two control islands, which have a crossing of their own (R29, R415). -/
def crossUp (s : State) (i j : Nat) : Bool := islandOn s i && islandOn s j && !s.aon.notReady.contains (min i j, max i j)
/-- Whether the islands that a command's own step works in can be reached from the queue engine: the awn directory for object commands,
the husk engine for husks, binders and updates (R28, R32). -/
def reachUp (s : State) (op : Nat) : Bool :=
  if op / 16 = 5 then islandUp s 59 && islandUp s 36
  else if op / 16 = 4 || op = 0x21 || op = 0x22 || op = 0x35 then crossUp s 59 61
  else true

/-- A command of an opcode that waits for its own step: admitted, its ranges held, not yet carried out. -/
def readyCmd (s : State) (n op : Nat) : Option Cmd :=
  match cmdOf s n with
  | some c => if c.opcode == op && !c.ran && c.holds && c.result.isNone && reachUp s op then some c else none
  | none => none

/-- The outcome INVALID_FIELD with its place (R103). -/
def badField (area off : Nat) : Result :=
  { status := St.invalidField, detail := min off 0xFFFF, fieldIn := area, fieldOffset := off }

/-- The waits on a binder that its value now meets complete, each with the value (R226, R227). -/
def checkWaits (b : Nat) (s : State) : State :=
  match tabGet s.eng.binders b with
  | none => s
  | some x =>
    s.hif.qps.foldl (fun s p =>
      match p.2.waitGe with
      | some w =>
        if w.binder = b && decide (w.target ≤ x.value) then
          checkDelete p.1 (postCompl p.1 { cid := w.cid, epoch := x.value }
            (modQp p.1 (fun q => { q with waitGe := none, wait := false }) s))
        else s
      | none => s) s

/-- Adds to a binder, saturating at 2^64 - 1 (R226). -/
def binderAdd (b n : Nat) (s : State) : State :=
  checkWaits b (s.onEng fun e => { e with binders := tabMod e.binders b fun x =>
    if x.value + n ≥ 2 ^ 64 - 1 then { x with value := 2 ^ 64 - 1, saturated := true } else { x with value := x.value + n } })

/-- The class in force at an epoch (R119). -/
def classAt (s : State) (e : Nat) : Nat :=
  ((s.stew.clsHist.find? fun p => decide (p.1 ≤ e)).map Prod.snd).getD (genClass (gen s))

/-- The newest version of a versioned entry that a reader at an epoch finds (R219). -/
def versionAt (s : State) (table index e : Nat) : Option TVer :=
  s.idx.vers.find? fun v => v.table == table && v.index == index && decide (v.tag ≤ e)

/-- The handle whose storage a table handle refers to at an epoch (R200). -/
def swapAt (s : State) (h e : Nat) : Nat :=
  ((s.idx.swaps.find? fun w => w.1 == h && decide (w.2.2 ≤ e)).map fun w => w.2.1).getD h

/-- A meter of a tenant raised (R250). -/
def addMeter (t i n : Nat) (s : State) : State :=
  s.onObj fun o =>
    let m := tabGetD o.meters t (List.replicate 10 0)
    { o with meters := tabSet o.meters t (listSet m i ((m.getD i 0) + n)) }

/-- Whether the node is in service as far as commands go: not start-up, recovery or fault. -/
def isServing (s : State) : Bool := s.stew.st == .standby || s.stew.st == .service

/-- A tenant's read outside its rights is counted and logged (R61). -/
def countViolation (t : Nat) (s : State) : State :=
  logEv Log.readViolation 36 1 (toLe 2 t) (s.onHif fun h => { h with violations := tabAdd h.violations t 1 })

/-- The entry of the steering table in force at an epoch (R315): the version, or the factory content. -/
def steerEntry (s : State) (index e : Nat) : Nat :=
  match versionAt s steerHandle index e with
  | some v => fld (v.data.getD []) 0 4
  | none =>
    let op := index % 256
    if op == 0x21 || op == 0x22 || op == 0x40 || op == 0x41 || (decide (0x50 ≤ op) && decide (op ≤ 0x55)) then 2 ^ 8 else 0

/-! Chunks and ordering tokens (chapter 16). -/

/-- A chunk put into the recorder ring under the next sequence (R407). -/
def rawChunk (type stream : Nat) (b : Bytes) (s : State) : State :=
  s.onRec fun r => { r with
    ring := r.ring ++ [{ type := type, seq := r.nextChunk, stream := stream, body := slice b 0 (roundUp b.length 8) }],
    nextChunk := r.nextChunk + 1 }

/-- The DIGEST chunk's entries (R408). -/
def digestBody (l : List DigestEnt) : Bytes :=
  l.flatMap fun d => toLe 1 d.island ++ zeros 7 ++ toLe 8 d.window ++ toLe 8 d.events ++ toLe 8 d.digest

/-- The digest windows that have closed go into a DIGEST chunk (R408, R409). -/
def flushDigests (s : State) : State :=
  if s.dig.closed.isEmpty then s
  else { rawChunk 4 0 (digestBody (s.dig.closed.take 32768)) s with dig := { s.dig with closed := s.dig.closed.drop 32768 } }

/-- A chunk of a recording, behind the digests of the windows that have closed (R407). -/
def putChunk (type stream : Nat) (b : Bytes) (s : State) : State := rawChunk type stream b (flushDigests s)

/-- The digest events of an island in this recording (R398, R409). -/
def digCount (s : State) (island : Nat) : Nat :=
  let d := tabGetD s.dig.open_ island {}
  65536 * d.window + d.events

/-- The ID of an arbitration point (R398). -/
def pointId (cls island inst : Nat) : Nat := cls + 256 * island + 65536 * inst

/-- An arbitration point emits the token of its choice (R398, R408): a run of one, closed by a count of 0. -/
def token (cls island inst w v : Nat) (s : State) : State :=
  if s.recd.active then putChunk 3 (pointId cls island inst) (toLe 2 1 ++ toLe w v ++ zeros 2) s else s

/-! Token buckets. Rows in the order of R362: 0 tenant commands, 1 queue pair, 2 tenant flash, 3 fabric flow, 4 flash
channel, 5 rebuild, 6 the five of one each: instance 0 gleaner, 1 settling and sweep, 2 cleaning, 3 wear levelling, 4 folding
and garbage collection. -/

/-- rate, burst and weight of a bucket; rate 0 where no entry is given (R440). -/
def bucketRate (s : State) (row inst : Nat) : Nat := ((genBucket (gen s) row inst).map fun b => fld b 0 8).getD 0
def bucketBurst (s : State) (row inst : Nat) : Nat := ((genBucket (gen s) row inst).map fun b => fld b 8 4).getD 1
def bucketWeight (s : State) (row inst : Nat) : Nat := ((genBucket (gen s) row inst).map fun b => fld b 0x0C 2).getD 1
/-- A bucket's level in millionths of a unit; full where nothing was charged. -/
def bucketLevel (s : State) (row inst : Nat) : Int :=
  ((tabGet s.fab.buckets (row * 65536 + inst)).map Bucket.level).getD ((bucketBurst s row inst : Int) * 1000000)
/-- Whether a bucket's level lets a request pass (R363). -/
def bucketOk (s : State) (row inst : Nat) : Bool := bucketRate s row inst == 0 || decide (0 < bucketLevel s row inst)
/-- A served request's cost is taken from its bucket (R363). -/
def bucketCharge (row inst n : Nat) (s : State) : State :=
  if bucketRate s row inst = 0 then s
  else s.onFab fun f => { f with
    buckets := tabSet f.buckets (row * 65536 + inst) { level := bucketLevel s row inst - (n : Int) * 1000000 } }

/-- An operation issued at a flash channel: its bytes are charged, and the channel's choice of a stream is an ordering token (R362, R364, R398
class 0x0B). A foreground stream's ID is its tenant's; those of background streams are free (log entry 121). -/
def chanIssue (ch n stream : Nat) (s : State) : State :=
  bucketCharge 4 ch n (token 0x0B (47 + ch / 4) ch 2 stream s)

end Sys2Proof.Machine
end

