-- ==== Sys2Proof/Machine/Numbers.lean ====
section
/-! DEFINITION. Numbers (chapter 03): formats, special values, roundings, conversion, the arithmetic of the MAC array. -/

namespace Sys2Proof.Machine
open Sys2Proof

/-- An exact value: NaN, an infinity, or a finite number, of which a zero keeps its sign (R72). -/
inductive Num where
  | nan
  | inf (neg : Bool)
  | fin (v : Rat) (negZero : Bool)
  deriving DecidableEq, Repr

/-- A finite number. -/
def numOf (v : Rat) : Num := .fin v false

/-- 2 to an integer power. -/
def pow2 (e : Int) : Rat := if 0 ≤ e then ((2 ^ e.toNat : Nat) : Rat) else mkRat 1 (2 ^ (-e).toNat)

/-- The sign of a value (a zero's own). -/
def numNeg : Num → Bool
  | .nan => false
  | .inf n => n
  | .fin v z => if v = 0 then z else decide (v < 0)

/-- Exact sum (R72): NaN operands and infinity minus infinity give NaN; -0 only from two zeros of sign -. -/
def numAdd : Num → Num → Num
  | .nan, _ | _, .nan => .nan
  | .inf a, .inf b => if a = b then .inf a else .nan
  | .inf a, _ => .inf a
  | _, .inf b => .inf b
  | .fin a x, .fin b y => .fin (a + b) (decide (a = 0) && decide (b = 0) && x && y)

/-- Negation. -/
def numMinus : Num → Num
  | .nan => .nan
  | .inf a => .inf (!a)
  | .fin v z => .fin (-v) (!z)

/-- Exact product (R72): 0 times infinity gives NaN. -/
def numMul (a b : Num) : Num :=
  match a, b with
  | .nan, _ | _, .nan => .nan
  | .inf x, .inf y => .inf (x != y)
  | .inf x, .fin v z => if v = 0 then .nan else .inf (x != numNeg (.fin v z))
  | .fin v z, .inf x => if v = 0 then .nan else .inf (x != numNeg (.fin v z))
  | .fin v z, .fin w y => .fin (v * w) (numNeg (.fin v z) != numNeg (.fin w y))

/-- Exact quotient (R72, IEEE 754-2019): 0/0 and infinity/infinity give NaN. -/
def numDiv (a b : Num) : Num :=
  match a, b with
  | .nan, _ | _, .nan => .nan
  | .inf _, .inf _ => .nan
  | .inf x, .fin w y => .inf (x != numNeg (.fin w y))
  | .fin v z, .inf y => .fin 0 (numNeg (.fin v z) != y)
  | .fin v z, .fin w y =>
    let n := numNeg (.fin v z) != numNeg (.fin w y)
    if w = 0 then (if v = 0 then .nan else .inf n) else .fin (v / w) n

/-- Bits of an element of a format (R66). -/
def elemBits : Nat → Nat
  | 1 => 32 | 2 => 16 | 3 => 16 | 4 => 8 | 5 => 8 | 6 => 6 | 7 => 6 | 8 => 4 | 9 => 8 | 10 => 8 | 11 => 4 | 12 => 4
  | 13 => 1 | _ => 8

/-- Whether a code is an element format (R66). -/
def isElem (f : Nat) : Bool := decide (1 ≤ f) && decide (f ≤ 13)
/-- Whether a format is a floating-point one. -/
def isFloat (f : Nat) : Bool := decide (1 ≤ f) && decide (f ≤ 8)
/-- Whether a format is an integer one. -/
def isInt (f : Nat) : Bool := decide (9 ≤ f) && decide (f ≤ 12)
/-- Whether the MAC array admits a format (R37). -/
def isMac (f : Nat) : Bool := decide (2 ≤ f) && decide (f ≤ 12)
/-- Whether a format has a zero point. -/
def hasZero (f : Nat) : Bool := f == 10 || f == 12
/-- Whether culms take a format in element-wise operations (R66). -/
def isCulmElem (f : Nat) : Bool := decide (1 ≤ f) && decide (f ≤ 5)

/-- A float format's (exponent bits, mantissa bits, bias) (R67). -/
def floatShape : Nat → Nat × Nat × Nat
  | 1 => (8, 23, 127) | 2 => (8, 7, 127) | 3 => (5, 10, 15) | 4 => (4, 3, 7) | 5 => (5, 2, 15) | 6 => (3, 2, 3)
  | 7 => (2, 3, 1) | _ => (2, 1, 1)

/-- Code of a float format's largest finite value (R67). -/
def maxCode : Nat → Nat
  | 1 => 0x7F7FFFFF | 2 => 0x7F7F | 3 => 0x7BFF | 4 => 0x7E | 5 => 0x7B | 6 => 0x1F | 7 => 0x1F | _ => 7

/-- Canonical NaN of a format that has one (R73). -/
def nanCode : Nat → Nat
  | 1 => 0x7FC00000 | 2 => 0x7FC0 | 3 => 0x7E00 | 5 => 0x7E | 4 => 0x7F | _ => 0

/-- The value of a float code (R67). -/
def floatVal (f c : Nat) : Num :=
  let (eb, mb, bias) := floatShape f
  let e := bitsOf c mb eb
  let m := c % 2 ^ mb
  let neg := bitOf c (eb + mb)
  let top := 2 ^ eb - 1
  let sgn : Rat := if neg then -1 else 1
  if (f ≤ 3 || f = 5) && e = top then (if m = 0 then .inf neg else .nan)
  else if f = 4 && e = top && m = 7 then .nan
  else if e = 0 then .fin (sgn * (m : Rat) * pow2 (1 - (bias : Int) - mb)) neg
  else .fin (sgn * ((2 ^ mb + m : Nat) : Rat) * pow2 ((e : Int) - bias - mb)) neg

/-- The value of an element code under a zero point (R67, R68). -/
def elemVal (f z c : Nat) : Num :=
  if isFloat f then floatVal f c
  else if f = 9 then numOf (signedOf 8 c)
  else if f = 11 then numOf (signedOf 4 c)
  else if f = 10 || f = 12 then numOf (((c : Int) - z : Int))
  else numOf ((c % 2 : Nat) : Rat)

/-- The value of a scale code: 0 none (1.0), 1 E8M0, 2 FP16 (R70). -/
def scaleVal (f c : Nat) : Num :=
  if f = 1 then (if c = 255 then .nan else numOf (pow2 ((c : Int) - 127)))
  else if f = 2 then floatVal 3 c
  else numOf 1

/-- ⌊log₂ r⌋ of a positive rational. -/
def log2Floor (r : Rat) : Int :=
  let l : Int := (Nat.log2 r.num.natAbs : Int) - Nat.log2 r.den
  if pow2 (l + 1) ≤ r then l + 1 else if pow2 l ≤ r then l else l - 1

/-- Round a non-negative rational half to even. -/
def roundEven (r : Rat) : Nat :=
  let f := (r.floor).toNat
  let d := r - (f : Rat)
  if d < mkRat 1 2 then f else if mkRat 1 2 < d then f + 1 else if f % 2 = 0 then f else f + 1

/-- How a value is rounded: to nearest even, or stochastically with 16 random bits (R75, R76). -/
inductive RMode where
  | nearest
  | random (r : Nat)
  deriving DecidableEq, Repr

/-- The grid multiple chosen for a magnitude x (in units of the grid), the value's sign given. -/
def pickGrid (md : RMode) (neg : Bool) (x : Rat) : Nat :=
  match md with
  | .nearest => roundEven x
  | .random r =>
    let lo := (x.floor).toNat
    if x = (lo : Rat) then lo
    else
      let d := if neg then 1 - (x - (lo : Rat)) else x - (lo : Rat)
      let f := ((d * 65536).floor).toNat
      if neg then (if r < f then lo else lo + 1) else (if r < f then lo + 1 else lo)

/-- A finite value into a float format: its code, and whether it saturated (R72). -/
def roundFloat (f : Nat) (md : RMode) (v : Rat) (negZero : Bool) : Nat × Bool :=
  let (eb, mb, bias) := floatShape f
  let sb := 2 ^ (eb + mb)
  if v = 0 then ((if negZero then sb else 0), false)
  else
    let neg := decide (v < 0)
    let a := if neg then -v else v
    let emin : Int := 1 - bias
    let q : Int := max emin (log2Floor a) - mb
    let n := pickGrid md neg (a / pow2 q)
    let code := (q - (emin - mb)).toNat * 2 ^ mb + n
    let s := if neg then sb else 0
    if maxCode f < code then
      (if f ≤ 3 then (s + (2 ^ eb - 1) * 2 ^ mb, false) else (s + maxCode f, true))
    else (s + code, false)

/-- Range of q of an integer format (R68). -/
def intRange : Nat → Int × Int
  | 9 => (-128, 127) | 10 => (0, 255) | 11 => (-8, 7) | _ => (0, 15)

/-- A value into a format by the special-value table (R72): code, SATURATED, NAN_ZEROED. DESIGN CHOICE (log entry 88): a tie between
two values of an integer format goes to the even q - z, not to the even stored q. -/
def encodeNum (f z : Nat) (md : RMode) (x : Num) : Nat × Bool × Bool :=
  if isFloat f then
    let (eb, mb, _) := floatShape f
    match x with
    | .nan => if f ≤ 5 then (nanCode f, false, false) else (0, false, true)
    | .inf n =>
      let s := if n then 2 ^ (eb + mb) else 0
      if f ≤ 3 || f = 5 then (s + (2 ^ eb - 1) * 2 ^ mb, false, false) else (s + maxCode f, true, false)
    | .fin v nz => let r := roundFloat f md v nz; (r.1, r.2, false)
  else if f = 13 then
    match x with
    | .nan => (0, false, true)
    | .inf n => (b2n (!n), false, false)
    | .fin v _ => (b2n (decide (0 < v)), false, false)
  else
    let (lo, hi) := intRange f
    let zp : Int := if hasZero f then z else 0
    let w := elemBits f
    match x with
    | .nan => (fieldOfInt w zp, false, true)
    | .inf n => (fieldOfInt w (if n then lo else hi), true, false)
    | .fin v _ =>
      let neg := decide (v < 0)
      let n : Nat := pickGrid md neg (if neg then -v else v)
      let q : Int := (if neg then -(n : Int) else n) + zp
      if q < lo then (fieldOfInt w lo, true, false)
      else if hi < q then (fieldOfInt w hi, true, false)
      else (fieldOfInt w q, false, false)

/-- Rounding to FP32 (R75). -/
def f32 (x : Num) : Nat := (encodeNum 1 0 .nearest x).1
/-- The value of an FP32 code. -/
def v32 (c : Nat) : Num := floatVal 1 c
/-- FP32 sum, product, quotient, each with one rounding. -/
def fAdd (a b : Nat) : Nat := f32 (numAdd (v32 a) (v32 b))
def fMul (a b : Nat) : Nat := f32 (numMul (v32 a) (v32 b))
def fDiv (a b : Nat) : Nat := f32 (numDiv (v32 a) (v32 b))
/-- FP32 1.0. -/
def one32 : Nat := 0x3F800000

/-- mix64 (R76). -/
def mix64 (x : Nat) : Nat :=
  let m := 2 ^ 64
  let x := ((x ^^^ (x >>> 30)) * 0xBF58476D1CE4E5B9) % m
  let x := ((x ^^^ (x >>> 27)) * 0x94D049BB133111EB) % m
  x ^^^ (x >>> 31)

/-- The 16 random bits of an element of a command's output (R76). -/
def stochBits (tenant qp cid index : Nat) : Nat :=
  mix64 (mix64 ((tenant * 2 ^ 32 + qp * 2 ^ 16 + cid) % 2 ^ 64) ^^^ index) >>> 48

/-- n elements of w bits, element 0 lowest. -/
def unpackGo (w : Nat) : Nat → Nat → List Nat
  | 0, _ => []
  | n + 1, v => v % 2 ^ w :: unpackGo w n (v / 2 ^ w)

/-- The element codes of a packed row (R69). -/
def unpack (w n : Nat) (b : Bytes) : List Nat := unpackGo w n (leNat (b.take (ceilDiv (n * w) 8)))

/-- Elements of w bits packed from bit 0 of byte 0 (R69). -/
def packBits (w : Nat) (es : List Nat) : Bytes :=
  toLe (ceilDiv (es.length * w) 8) (es.foldr (fun e v => e % 2 ^ w + 2 ^ w * v) 0)

/-- A format word's parts (R71). -/
def fwElem (f : Nat) : Nat := f % 256
def fwScale (f : Nat) : Nat := f / 256 % 256
def fwBlock (f : Nat) : Nat := f / 65536 % 256
def fwZero (f : Nat) : Nat := f / 16777216 % 256

/-- Whether a format word is one of R71: known codes, block 0 without a scale, zero point in range. -/
def fwOk (f : Nat) : Bool :=
  isElem (fwElem f) && decide (fwScale f ≤ 2) && decide (fwBlock f ≤ 2) && (fwScale f != 0 || fwBlock f == 0) &&
    (if fwElem f = 10 then true else if fwElem f = 12 then decide (fwZero f ≤ 15) else fwZero f == 0)

/-- Elements one scale covers (R71); a row has n elements. -/
def blockLen (block n : Nat) : Nat := if block = 0 then 32 else if block = 1 then 128 else n
/-- Scales of a row of n elements (R83). -/
def scalesPerRow (f n : Nat) : Nat := if fwScale f = 0 then 0 else ceilDiv n (blockLen (fwBlock f) n)
/-- Bytes of a row's elements. -/
def rowBytes (f n : Nat) : Nat := n * elemBits (fwElem f) / 8
/-- Bytes of a row's scales (R83). -/
def scaleBytes (f n : Nat) : Nat := scalesPerRow f n * (if fwScale f = 2 then 2 else 1)

/-- The scale values of a row. -/
def rowScales (f n : Nat) (bran : Bytes) : List Num :=
  (unpack (if fwScale f = 2 then 16 else 8) (scalesPerRow f n) bran).map (scaleVal (fwScale f))

/-- The scale of element i. -/
def scaleOf (f n : Nat) (scales : List Num) (i : Nat) : Num :=
  if fwScale f = 0 then numOf 1 else scales.getD (i / blockLen (fwBlock f) n) (numOf 1)

/-- The element values of a row without scales. -/
def rowElems (f n : Nat) (b : Bytes) : List Num :=
  (unpack (elemBits (fwElem f)) n b).map (elemVal (fwElem f) (fwZero f))

/-- Element values times their scales, exact (R77). -/
def scaledElems (f n : Nat) (gs xs : List Num) : List Num :=
  xs.zipIdx.map fun p => if fwScale f = 0 then p.1 else numMul p.1 (scaleOf f n gs p.2)

/-- The decoded values of a row: element times scale, exact (R75, R77). -/
def decodeRow (f n : Nat) (b bran : Bytes) : List Num := scaledElems f n (rowScales f n bran) (rowElems f n b)

/-- Exact sum of a list, from its first element (R80 step 1); an empty sum is +0. -/
def numSum : List Num → Num
  | [] => numOf 0
  | x :: xs => xs.foldl numAdd x

/-- The parts of a list of n elements each. -/
def chunksGo {α : Type} (n : Nat) : Nat → List α → List (List α)
  | 0, _ => []
  | k + 1, l => if l.isEmpty then [] else l.take n :: chunksGo n k (l.drop n)
def chunks {α : Type} (n : Nat) (l : List α) : List (List α) := chunksGo n l.length l

/-- FP32 accumulation of run sums in order, from the first (R80 step 4). -/
def accF32 : List Nat → Nat
  | [] => 0
  | x :: xs => xs.foldl fAdd x

/-- INT32 accumulation with saturation (R72, R80 step 2). -/
def accI32 (xs : List Int) : Int :=
  xs.foldl (fun a x => max (-2 ^ 31) (min (2 ^ 31 - 1) (a + x))) 0

/-- The integer an exact value stands for (0 for a value that is none). -/
def numInt : Num → Int
  | .fin v _ => v.floor
  | _ => 0

/-- A score of R114: FP32 bits, or INT32 bits. -/
inductive Score where
  | f (bits : Nat)
  | i (v : Int)
  deriving DecidableEq, Repr

/-- A zero without a sign: what an exact sum of integers that is 0 stands for (R68, R80). -/
def plainZero : Num → Num
  | .fin v _ => numOf v
  | x => x

/-- A dot product from its products run by run (R80): INT32 accumulation of integers without scales, else each exact run
sum rounded, scaled by both operands and accumulated in FP32. A run sum of integers has no negative zero. -/
def dotOfRuns (fa fb n : Nat) (ga gb : List Num) (runs : List (List Num)) : Score :=
  let sums := runs.map fun r => if isInt (fwElem fa) && isInt (fwElem fb) then plainZero (numSum r) else numSum r
  if isInt (fwElem fa) && isInt (fwElem fb) && fwScale fa = 0 && fwScale fb = 0 then .i (accI32 (sums.map numInt))
  else
    .f (accF32 (sums.zipIdx.map fun p =>
      let r := f32 p.1
      let r := if fwScale fa = 0 then r else f32 (numMul (v32 r) (scaleOf fa n ga (32 * p.2)))
      if fwScale fb = 0 then r else f32 (numMul (v32 r) (scaleOf fb n gb (32 * p.2)))))

/-- A dot product in runs of 32 (R80). -/
def dotProd (fa fb n : Nat) (a sa b sb : Bytes) : Score :=
  dotOfRuns fa fb n (rowScales fa n sa) (rowScales fb n sb)
    (chunks 32 (List.zipWith numMul (rowElems fa n a) (rowElems fb n b)))

/-- Squared Euclidean distance in runs of 32 (R101): exact squared differences of the decoded values. Log entry 20. -/
def distL2 (fa fb : Nat) (xs ys : List Num) : Score :=
  let sq := List.zipWith (fun x y => let d := numAdd x (numMinus y); numMul d d) xs ys
  let sums := (chunks 32 sq).map numSum
  if isInt (fwElem fa) && isInt (fwElem fb) && fwScale fa = 0 && fwScale fb = 0 then .i (accI32 (sums.map numInt))
  else .f (accF32 (sums.map f32))

/-- A score as FP32 bits. -/
def scoreF32 : Score → Nat
  | .f b => b
  | .i v => f32 (numOf v)

/-- The 32 bits of a score as it is produced (R114). -/
def scoreBits : Score → Nat
  | .f b => b
  | .i v => fieldOfInt 32 v

/-- The FP32 value of a score's 32 bits, of the kind given: FP32, else INT32 (R75, R114). -/
def bitsF32 (fp : Bool) (b : Nat) : Nat := if fp then b else f32 (numOf (signedOf 32 b))

/-- Whether a metric gives FP32 scores on two format words: an integer score comes of integers without scales alone, and no cosine is
one (R80, R101, R114). -/
def metricFp (metric fa fb : Nat) : Bool :=
  metric == 2 || !(isInt (fwElem fa) && isInt (fwElem fb) && fwScale fa == 0 && fwScale fb == 0)

/-- The norm of a vector: FP32 square root of its dot product with itself (R101). NaN, infinity and 0 follow R72 and IEEE 754-2019;
the rounding of every other root is free (log entry 11). -/
def norm32 (f n : Nat) (es gs : List Num) : Nat :=
  let x := scoreF32 (dotOfRuns f f n gs gs (chunks 32 (List.zipWith numMul es es)))
  match v32 x with
  | .nan => nanCode 1
  | .inf _ => 0x7F800000
  | .fin v _ => if v = 0 then 0 else (Config.norm (BitVec.ofNat 32 x)).toNat

/-- A candidate's score under a metric, 0 L2, 1 inner product, 2 cosine (R101): of two rows as elements and scales, and the products
of their elements run by run. -/
def scoreOf (metric fa fb n : Nat) (xs gx ys gy : List Num) (runs : List (List Num)) : Score :=
  let dot := dotOfRuns fa fb n gx gy runs
  if metric = 0 then distL2 fa fb (scaledElems fa n gx xs) (scaledElems fb n gy ys)
  else if metric = 1 then dot
  else .f (fDiv (scoreF32 dot) (fMul (norm32 fa n xs gx) (norm32 fb n ys gy)))

/-- The score of two dense rows. -/
def metricScore (metric fa fb n : Nat) (a sa b sb : Bytes) : Score :=
  let xs := rowElems fa n a
  let ys := rowElems fb n b
  scoreOf metric fa fb n xs (rowScales fa n sa) ys (rowScales fb n sb) (chunks 32 (List.zipWith numMul xs ys))

/-! Rows in 2:4 form (R37, R144). -/

/-- Bytes of a row's kept values and of its metadata. -/
def keptBytes (f n : Nat) : Nat := n / 2 * elemBits (fwElem f) / 8
def metaBytes (n : Nat) : Nat := n / 8

/-- The kept values of a row and the nibbles that place them. -/
def keptElems (f n : Nat) (b : Bytes) : List Num := (unpack (elemBits (fwElem f)) (n / 2) b).map (elemVal (fwElem f) (fwZero f))
def keptPlaces (n : Nat) (b : Bytes) : List Nat := unpack 4 (n / 4) b

/-- Products of a 2:4 row with a dense one, run by run: each kept value times the value its own field names (R144). -/
def sparseRuns (xs vs : List Num) (nib : List Nat) : List (List Num) :=
  let ps := (chunks 4 xs).zip ((chunks 2 vs).zip nib)
  chunks 16 (ps.flatMap fun g =>
    let x (i : Nat) : Num := g.1.getD i (numOf 0)
    [numMul (x (bitsOf g.2.2 0 2)) (g.2.1.getD 0 (numOf 0)), numMul (x (bitsOf g.2.2 2 2)) (g.2.1.getD 1 (numOf 0))])

/-- The dense row a 2:4 row stands for: 0 at the positions that keep no value. -/
def sparseElems (vs : List Num) (nib : List Nat) : List Num :=
  ((chunks 2 vs).zip nib).flatMap fun g => (List.range 4).map fun i =>
    numAdd (if bitsOf g.2 0 2 = i then g.1.getD 0 (numOf 0) else numOf 0) (if bitsOf g.2 2 2 = i then g.1.getD 1 (numOf 0) else numOf 0)

/-- The score of a dense row and one in 2:4 form: kept values, metadata and scales. -/
def metricSparse (metric fa fb n : Nat) (a sa v m sb : Bytes) : Score :=
  let xs := rowElems fa n a
  let vs := keptElems fb n v
  let nib := keptPlaces n m
  scoreOf metric fa fb n xs (rowScales fa n sa) (sparseElems vs nib) (rowScales fb n sb) (sparseRuns xs vs nib)

/-! Activations (R74): the exact results to 2^-80 of their size, against which the free result of the node's own algorithm is held. -/

/-- ln 2, log2 e and the root of 2/pi in units of 2^-96. -/
def ln2Fix : Nat := 54916777467707473351141471128
def log2eFix : Nat := 114302077158074026402637675937
def rootTwoOverPi : Rat := mkRat 63214927650911841617241039488 (2 ^ 96)

/-- e to the power t by its series, t and the result in units of 2^-96: the terms from the n-th down, for t below 1. -/
def expSeries (t : Nat) : Nat → Nat → Nat
  | 0, acc => acc
  | n + 1, acc => expSeries t n (2 ^ 96 + t * acc / (2 ^ 96 * (n + 1)))

/-- 2 to the power x for |x| at most 400, to 2^-80 of its size. -/
def exp2Near (x : Rat) : Rat :=
  let f := ((x - (x.floor : Rat)) * (2 ^ 96 : Nat)).floor.toNat
  mkRat (expSeries (f * ln2Fix / 2 ^ 96) 28 (2 ^ 96)) (2 ^ 96) * pow2 x.floor

/-- 1 / (1 + e^(-y)); beyond 2^400 either way its limit. -/
def sigmoidNear (y : Rat) : Rat :=
  let z := y * mkRat log2eFix (2 ^ 96)
  if 400 < z then 1 else if z < -400 then 0 else 1 / (1 + exp2Near (-z))

/-- The value an activation approximates at a finite input that is not 0 (R74): 1 GELU-tanh, as x times the sigmoid of twice
the tanh's argument, 2 SiLU, 3 exp2, 4 reciprocal. -/
def activationNear (k : Nat) (x : Rat) : Rat :=
  if k = 1 then x * sigmoidNear (2 * rootTwoOverPi * (x + mkRat 44715 1000000 * x * x * x))
  else if k = 2 then x * sigmoidNear x
  else if k = 3 then (if x < -400 then 0 else exp2Near x)
  else 1 / x

/-- The largest error of an activation's result, in units in the last place (R74). -/
def activationUlps (k : Nat) : Rat := if k ≤ 2 then 4 else 1

/-- A unit in the last place of FP32 at a magnitude (R67). -/
def ulp32 (a : Rat) : Rat := if a = 0 then pow2 (-149) else pow2 (max (-126) (log2Floor a) - 23)

/-- The node's own result held to the error of R74 around the value y it stands for; a result beyond the largest finite value or
below half the smallest subnormal is what R72 makes of it. -/
def withinUlps (k : Nat) (y : Rat) (neg : Bool) (free : Nat) : Nat :=
  let a := if y < 0 then -y else y
  let sign := if neg then 2 ^ 31 else 0
  if a < pow2 (-150) then sign
  else if (2 ^ 128 : Rat) - pow2 103 ≤ a then sign + 0x7F800000
  else
    match v32 free with
    | .fin v _ =>
      let d := if v < y then y - v else v - y
      if d ≤ (activationUlps k + pow2 (-20)) * ulp32 a then (if v = 0 then sign else free) else f32 (numOf y)
    | _ => f32 (numOf y)

/-- An activation on an FP32 code (R74): 0 ReLU, 1 GELU-tanh, 2 SiLU, 3 exp2, 4 reciprocal. Special values by the
table; an input of 0 gives 0 with its sign, and 1 for exp2 (log entry 10); other inputs the node's own algorithm, held to its error. -/
def activate (k x : Nat) : Nat :=
  match v32 x with
  | .nan => nanCode 1
  | .inf n =>
    if k = 0 then (if n then 0 else 0x7F800000)
    else if k = 1 || k = 2 then (if n then 0x80000000 else 0x7F800000)
    else if k = 3 then (if n then 0 else 0x7F800000)
    else (if n then 0x80000000 else 0)
  | .fin v z =>
    if k = 0 then (if 0 < v then x else 0)
    else if v = 0 then
      (if k = 3 then one32 else if k = 4 then (if z then 0xFF800000 else 0x7F800000) else if z then 0x80000000 else 0)
    else if k = 3 && 128 ≤ v then 0x7F800000
    else withinUlps k (activationNear k v) (k != 3 && decide (v < 0)) (Config.activation k (BitVec.ofNat 32 x)).toNat

/-- emax of E8M0 scale generation (R78); free for a format that R78 gives none for (log entry 87). -/
def scaleEmax : Nat → Int
  | 4 => 8 | 5 => 15 | 6 => 4 | 7 => 2 | 8 => 2 | 9 => 6 | 11 => 2 | f => Config.otherEmax f

/-- The largest magnitude among the finite values of a block (R78). -/
def amaxOf (xs : List Num) : Rat :=
  xs.foldl (fun m x => match x with | .fin v _ => max m (if v < 0 then -v else v) | _ => m) 0

/-- The largest finite value of an element format. -/
def elemMax (f : Nat) : Rat :=
  if isFloat f then (match floatVal f (maxCode f) with | .fin v _ => v | _ => 1) else ((intRange f).2 : Rat)

/-- The scale a CONVERT stage chooses for a block: its code (R78). -/
def chooseScale (scale elem : Nat) (xs : List Num) : Nat :=
  let a := amaxOf xs
  if scale = 1 then
    (if a = 0 then 0x7F else (max 0 (min 254 (log2Floor a - scaleEmax elem + 127))).toNat)
  else if a = 0 then 0x3C00
  else
    let c := (roundFloat 3 .nearest (a / elemMax elem) false).1
    if c = 0 then 1 else if 0x7BFF < c then 0x7BFF else c

/-- One converted element: code, SATURATED, NAN_ZEROED, and the decoded destination value (R77, R85). -/
def convertElem (elem z : Nat) (scale : Num) (md : RMode) (x : Num) : Nat × Bool × Bool × Num :=
  let r := encodeNum elem z md (numDiv x scale)
  (r.1, r.2.1, r.2.2, numMul (elemVal elem z r.1) scale)

/-- A row of values into a format word, its scales generated (R78) or given: (element bytes, scale bytes, results). -/
def convertRow (f n : Nat) (given : Option Bytes) (md : Nat → RMode) (xs : List Num) :
    Bytes × Bytes × List (Nat × Bool × Bool × Num) :=
  let codes : List Nat :=
    if fwScale f = 0 then []
    else match given with
      | some g => unpack (if fwScale f = 2 then 16 else 8) (scalesPerRow f n) g
      | none => (chunks (blockLen (fwBlock f) n) xs).map (chooseScale (fwScale f) (fwElem f))
  let sc := codes.map (scaleVal (fwScale f))
  let rs := xs.zipIdx.map fun p => convertElem (fwElem f) (fwZero f) (scaleOf f n sc p.2) (md p.2) p.1
  (packBits (elemBits (fwElem f)) (rs.map Prod.fst), packBits (if fwScale f = 2 then 16 else 8) codes, rs)

/-- One element's contribution to a statistics record (R85): a NaN or infinite source is EXCLUDED; the events count. DESIGN CHOICE
(log entry 88): maxerr is the larger FP32 code without its sign, so that an infinite |d| counts above every finite one and a NaN
above infinity. -/
def cvtStep (r : CvRec) (x : Num) (y : Nat × Bool × Bool × Num) : CvRec :=
  let r := { r with sat := r.sat + b2n y.2.1, nanz := r.nanz + b2n y.2.2.1 }
  match x with
  | .fin _ _ =>
    let d := f32 (numAdd y.2.2.2 (numMinus x))
    let m := d % 2 ^ 31
    { r with sumSq := fAdd r.sumSq (fMul d d), count := r.count + 1, maxerr := max r.maxerr m }
  | _ => { r with excl := r.excl + 1 }

/-- Whether two records are of one tensor and unit. -/
def cvtSame (a b : CvRec) : Bool :=
  a.tag == b.tag && a.tagKind == b.tagKind && a.unitKind == b.unitKind && a.unit == b.unit

/-- Whether every value of one float format is a value of another (R67): the conversion between them is a widening (R75). -/
def floatWithin (f g : Nat) : Bool :=
  let (eb, mb, bias) := floatShape f
  let (eb', mb', bias') := floatShape g
  f == g || (decide (mb ≤ mb') && decide (eb ≤ eb') && decide ((bias : Int) + mb ≤ bias' + mb') && decide (2 ^ eb - 1 - bias ≤ 2 ^ eb' - 1 - bias') &&
    (g ≤ 3 || g == 5 || 6 ≤ f))

/-- Whether a conversion from one format word to another goes into a narrower format, which R85 counts: not one between formats without
scales where every source value is a value of the destination (log entry 88). -/
def narrows (fa fd : Nat) : Bool :=
  let a := fwElem fa
  let d := fwElem fd
  let within :=
    if isFloat a && isFloat d then floatWithin a d
    else if isInt a && isFloat d then decide ((if hasZero a then elemBits a + 1 else elemBits a) ≤ (floatShape d).2.1 + 2) && d != 7
    else a == d && fwZero fa == fwZero fd
  !(fwScale fa == 0 && fwScale fd == 0 && within)

/-- The key of a unit that keeps conversion records (R86). -/
def cvtUnit (c : CvRec) : Nat := c.unitKind * 65536 + c.unit

/-- A conversion is entered in its tensor's record of its unit, which is opened where there is none; a unit with no room for another
record counts it lost (R85, R86). -/
def noteConvert (key : CvRec) (xs : List Num) (ys : List (Nat × Bool × Bool × Num)) (s : State) : State :=
  let old := s.shv.cvt.find? (cvtSame key)
  if old.isNone && decide (Config.cvtRecords key.unitKind ≤ (s.shv.cvt.filter fun c => cvtUnit c == cvtUnit key).length) then
    s.onShv fun v => { v with cvtLost := tabAdd v.cvtLost (cvtUnit key) 1 }
  else
    let new := (xs.zip ys).foldl (fun r p => cvtStep r p.1 p.2) (old.getD key)
    let new := { new with boot := s.stew.boot, uptime := now s }
    s.onShv fun v => { v with cvt := v.cvt.filter (fun c => !cvtSame key c) ++ [new] }

end Sys2Proof.Machine
end

