-- ==== Sys2Proof/Machine/Select.lean ====
section
/-! DEFINITION. Selection (chapter 05): the order of candidates, the winnow, exact sums, merges, partitions. -/

namespace Sys2Proof.Machine
open Sys2Proof

/-- A score as an ordered integer; none for NaN (R114, R117): FP32 by sign and magnitude, so that -0 equals +0. -/
def scoreKey (fp : Bool) (b : Nat) : Option Int :=
  if fp then
    (if 0x7F800000 < b % 2 ^ 31 then none else some (if bitOf b 31 then -((b % 2 ^ 31 : Nat) : Int) else (b % 2 ^ 31 : Nat)))
  else some (signedOf 32 b)

/-- The order key of a candidate as one number: (node, rank, position, tile) (R116). -/
def hitKey (h : Hit) : Nat := ((h.node * 2 ^ 10 + h.rank) * 2 ^ 32 + h.pos) * 2 ^ 9 + h.tile

/-- Candidate a precedes candidate b (R117); order 0 puts the smallest first. -/
def precedes (fp : Bool) (order : Nat) (a b : Hit) : Bool :=
  match scoreKey fp a.score, scoreKey fp b.score with
  | some x, some y =>
    if x = y then decide (hitKey a < hitKey b) else if order = 0 then decide (x < y) else decide (y < x)
  | some _, none => true
  | none, some _ => false
  | none, none => decide (hitKey a < hitKey b)

/-- A candidate put into its place among ordered ones. -/
def hitInsert (fp : Bool) (order : Nat) (h : Hit) : List Hit → List Hit
  | [] => [h]
  | x :: xs => if precedes fp order h x then h :: x :: xs else x :: hitInsert fp order h xs

/-- The candidates in the order of R117. -/
def hitSort (fp : Bool) (order : Nat) (l : List Hit) : List Hit := l.foldr (hitInsert fp order) []

/-- The selection of k from a row (R117). -/
def hitFirst (fp : Bool) (order k : Nat) (l : List Hit) : List Hit := (hitSort fp order l).take k

/-- One score into an accumulator in units of 2^-149 (R124); NaN enters neither sum (R123). -/
def accScore (fp : Bool) (a : Acc) (b : Nat) : Acc :=
  if fp then
    let m := b % 2 ^ 31
    if 0x7F800000 < m then a
    else if m = 0x7F800000 then (if bitOf b 31 then { a with ninf := true } else { a with pinf := true })
    else
      let e := m / 2 ^ 23
      let x : Nat := if e = 0 then m else (2 ^ 23 + m % 2 ^ 23) * 2 ^ (e - 1)
      { a with v := a.v + (if bitOf b 31 then -(x : Int) else x) }
  else { a with v := a.v + signedOf 32 b * 2 ^ 149 }

/-- The accumulator of a list of candidates. -/
def accHits (fp : Bool) (l : List Hit) : Acc := l.foldl (fun a h => accScore fp a h.score) {}

/-- A sum as FP32, rounded once (R124). -/
def accOut (a : Acc) : Nat :=
  if a.pinf && a.ninf then nanCode 1
  else if a.pinf then 0x7F800000
  else if a.ninf then 0xFF800000
  else f32 (numOf ((a.v : Rat) * pow2 (-149)))

/-- Whether a candidate's score is NaN. -/
def hitNan (fp : Bool) (h : Hit) : Bool := (scoreKey fp h.score).isNone

/-- The candidates a selection is made from: in Federation (class 2) NaN-scored ones are dropped (R119). -/
def rowIn (fp : Bool) (cls : Nat) (l : List Hit) : List Hit :=
  if cls = 2 then l.filter fun h => !hitNan fp h else l

/-- A selection with its sums out of a row, the kept entries given (R122, R123). -/
def partOf (fp : Bool) (row kept : List Hit) : Part :=
  { hits := kept, sel := accHits fp kept, rest := accHits fp (row.filter fun h => !kept.contains h),
    nan := (row.filter (hitNan fp)).length }

/-- The winnow: the first k of a row in order, with sums and counts (R122). -/
def winnow (fp : Bool) (order k cls : Nat) (row : List Hit) : Part :=
  let r := rowIn fp cls row
  { partOf fp r (hitFirst fp order k r) with nan := (row.filter (hitNan fp)).length }

/-- The partitions of a row: by position modulo P (R44, R116). -/
def partitions (p : Nat) (row : List Hit) : List (List Hit) :=
  (List.range p).map fun i => row.filter fun h => h.pos % p == i

/-- Partitions of a selection of n entries, and how many each keeps (R100, R116). -/
def deepParts (n : Nat) : Nat × Nat := (ceilDiv n 64, ceilDiv n (ceilDiv n 64))

/-- What stays of child lists with its sums (R125): integer arithmetic on the accumulators. -/
def partMerge (fp : Bool) (kept : List Hit) (ps : List Part) : Part :=
  let gone := (ps.flatMap Part.hits).filter fun h => !kept.contains h
  let sel := accHits fp kept
  let lost := accHits fp gone
  { hits := kept, sel := sel,
    rest := { v := (ps.map fun p => p.sel.v + p.rest.v).sum - sel.v
              pinf := lost.pinf || ps.any fun p => p.rest.pinf
              ninf := lost.ninf || ps.any fun p => p.rest.ninf },
    nan := (ps.map Part.nan).sum }

/-- A merge of child lists: the first k of their union (R117, R125). -/
def mergeParts (fp : Bool) (order k : Nat) (ps : List Part) : Part := partMerge fp (hitFirst fp order k (ps.flatMap Part.hits)) ps

/-- The union of the lists of a row's partitions, partition 0 first (R44). -/
def joinParts (fp : Bool) (ps : List Part) : Part := partMerge fp (ps.flatMap Part.hits) ps

/-- What a selection of n entries takes from the lists of its partitions: the best n of them, partition by partition (R100, R116). -/
def deepOf (fp : Bool) (order n : Nat) (ps : List Part) : Part :=
  partMerge fp ((ps.flatMap Part.hits).filter (hitFirst fp order n (ps.flatMap Part.hits)).contains) ps

/-- The pieces of a row: 65,536 candidates each in row order, the last with the remainder (R127). -/
def rowPieces (row : List Hit) : List (List Hit) := chunks 65536 row

/-- The selection from a row; a piecewise one selects each piece to k with its own sums and merges the lists in piece order (R122,
R127). -/
def winnowRow (pw fp : Bool) (order k cls : Nat) (row : List Hit) : Part :=
  if pw && decide (65536 < row.length) then mergeParts fp order k ((rowPieces row).map (winnow fp order k cls))
  else winnow fp order k cls row

/-- The lists of the P partitions of a row, k entries each (R44), of a piecewise row piece by piece (R127). -/
def partLists (pw fp : Bool) (order k p cls : Nat) (row : List Hit) : List Part :=
  let one (r : List Hit) : List Part := (partitions (max p 1) r).map (winnow fp order k cls)
  if pw && decide (65536 < row.length) then
    let ls := (rowPieces row).map one
    (List.range (max p 1)).map fun i => mergeParts fp order k (ls.map fun l => l.getD i {})
  else one row

/-- A selection of n entries, above 64 in ⌈n/64⌉ partitions of ⌈n/P⌉ each, of which the best n go on, partition by
partition (R100, R116). -/
def winnowDeep (pw fp : Bool) (order n cls : Nat) (row : List Hit) : Part :=
  if n ≤ 64 then winnowRow pw fp order n cls row
  else deepOf fp order n (partLists pw fp order (deepParts n).2 (deepParts n).1 cls row)

/-- Whether a row is too long to be selected (R126), a piecewise one included (R127, R137). -/
def rowTooLong (pw : Bool) (n : Nat) : Bool := if pw then decide (2 ^ 32 ≤ n) else decide (65536 < n)

/-- An entry of R115. -/
def hitBytes (h : Hit) : Bytes :=
  toLe 8 h.payload ++ toLe 4 h.score ++ toLe 2 h.node ++ toLe 2 h.tile ++ toLe 2 h.rank ++ zeros 2 ++ toLe 4 h.pos ++
    toLe 4 h.list ++ zeros 4

/-- An accumulator's 320 bits (R124). -/
def accBytes (a : Acc) : Bytes := toLe 40 (fieldOfInt 320 a.v)

/-- The header of a child buffer (R130). -/
def partHeader (fp : Bool) (batch item partition : Nat) (p : Part) : Bytes :=
  toLe 8 batch ++ toLe 4 item ++ toLe 2 p.hits.length ++ toLe 1 (b2n (!fp)) ++
    toLe 1 (b2n p.sel.pinf + 2 * b2n p.sel.ninf + 4 * b2n p.rest.pinf + 8 * b2n p.rest.ninf) ++ toLe 4 p.nan ++
    toLe 4 partition ++ accBytes p.sel ++ accBytes p.rest ++ zeros 24

end Sys2Proof.Machine
end

