-- ==== Sys2Proof/Machine/CulmMath.lean ====
section
/-! DEFINITION. What culms compute (chapter 07): Hamming scans, element-wise arithmetic, attention partials and their
combination. A tile that takes an operation over computes the same (R82, R191). -/

namespace Sys2Proof.Machine
open Sys2Proof

/-- Set bits below bit w. -/
def popcount : Nat → Nat → Nat
  | 0, _ => 0
  | w + 1, v => v % 2 + popcount w (v / 2)

/-- The length a reader at an epoch finds: that of the newest ring slot not later (R95). -/
def lengthAt (l : IList) (e : Nat) : Nat := ((l.ring.find? fun r => decide (r.epoch ≤ e)).map Ring.len).getD 0

/-- Whether a position is visible at an epoch (R95). -/
def visibleAt (l : IList) (e p : Nat) : Bool :=
  match l.ents[p]? with
  | none => false
  | some x => decide (p < lengthAt l e) && !x.settled && !(x.tomb && decide (x.delEpoch ≤ e))

/-- A scan's state: candidates kept, examined, chaff, the positions given a second pass, newest first. -/
abbrev ScanAcc := List Hit × Nat × Nat × List Nat

/-- One position of a scan under the block's threshold (R177). -/
def scanOne (w kept cutoff e q : Nat) (tmpl : Hit) (thr : Option Nat) (a : ScanAcc) (p : Nat) (x : LEnt) : ScanAcc :=
  let (ks, ex, ch, p2) := a
  if x.settled then (ks, ex + 1, ch + 1, p2)
  else
    let h := w / 2
    let l := popcount h ((x.sketch % 2 ^ h) ^^^ (q % 2 ^ h))
    if (match thr with | some t => decide (t ≤ l) | none => false) || (cutoff != 0 && decide (cutoff < l)) then
      (ks, ex + 1, ch, p2)
    else if x.tomb && decide (x.delEpoch ≤ e) then (ks, ex + 1, ch + 1, p :: p2)
    else
      let d := l + popcount h ((x.sketch / 2 ^ h % 2 ^ h) ^^^ (q / 2 ^ h % 2 ^ h))
      if cutoff != 0 && decide (cutoff < d) then (ks, ex + 1, ch, p :: p2)
      else ((hitInsert false 0 { tmpl with payload := x.id, score := d, pos := p } ks).take kept, ex + 1, ch, p :: p2)

/-- A block of positions under one threshold. -/
def scanBlock (w kept cutoff e q : Nat) (tmpl : Hit) (a : ScanAcc) (b : List (LEnt × Nat)) : ScanAcc :=
  let thr := if a.1.length = kept then a.1.getLast?.map Hit.score else none
  b.foldl (fun a x => scanOne w kept cutoff e q tmpl thr a x.2 x.1) a

/-- The scan of a list at an epoch (R177): blocks of 64 positions below length(E). -/
def culmScan (l : IList) (w kept cutoff e q : Nat) (tmpl : Hit) : ScanAcc :=
  (chunks 64 ((l.ents.take (lengthAt l e)).zipIdx)).foldl (scanBlock w kept cutoff e q tmpl) ([], 0, 0, [])

/-- The result frame of a scan (R178). -/
def scanResult (tag list status : Nat) (a : ScanAcc) : Bytes :=
  toLe 8 tag ++ toLe 4 list ++ toLe 2 a.1.length ++ toLe 2 status ++ toLe 4 a.2.1 ++ toLe 4 a.2.2.1 ++
    toLe 4 a.2.2.2.length ++ zeros 4 ++ a.1.flatMap hitBytes

/-- Whether an element-wise operation accepts a format word (R180). -/
def ewFormatOk (f : Nat) : Bool :=
  fwOk f && isCulmElem (fwElem f) && fwZero f == 0 && (fwScale f == 0 || decide (fwBlock f ≤ 1))

/-- The exact results of an element-wise operation before their rounding into dst (R180): 2 ADD, 3 MUL, 4 ACT,
5 CONVERT; activation 0xFF for none. -/
def ewValues (op act : Nat) (a b : List Num) : List Num :=
  if op = 4 then a.map fun x => v32 (activate act (f32 x))
  else if op = 5 then a
  else
    let c := List.zipWith (if op = 2 then numAdd else numMul) a b
    if act = 0xFF then c else c.map fun x => v32 (activate act (f32 x))

/-- An element-wise operation on n elements (R180): dst bytes, its generated scales, and the conversions made. -/
def elementwise (op act n fa fb fd : Nat) (a sa b sb : Bytes) :
    Bytes × Bytes × List Num × List (Nat × Bool × Bool × Num) :=
  let xs := ewValues op act (decodeRow fa n a sa) (if op = 2 || op = 3 then decodeRow fb n b sb else [])
  let r := convertRow fd n none (fun _ => .nearest) xs
  (r.1, r.2.1, xs, r.2.2)

/-- LOG2E (R185). -/
def log2e : Nat := 0x3FB8AA3B

/-- max, canonical NaN where an argument is NaN (R185). -/
def fMax (a b : Nat) : Nat :=
  match scoreKey true a, scoreKey true b with
  | some x, some y => if x < y then b else a
  | _, _ => nanCode 1

/-- exp2 of an FP32 code: the activation of R74. -/
def fExp2 (x : Nat) : Nat := activate 3 x

/-- exp2(round((x - y) * LOG2E)) (R185, R187). -/
def fExpDiff (x y : Nat) : Nat := fExp2 (fMul (f32 (numAdd (v32 x) (numMinus (v32 y)))) log2e)

/-- One attention partial: outputs, max, sum. -/
abbrev Partial := List Nat × Nat × Nat

/-- One block of at most 32 positions: (scores, V rows) (R185). -/
def attendBlock (st : Partial) (b : List (Nat × List Num)) : Partial :=
  let (o, m, l) := st
  let mn := b.foldl (fun x s => fMax x s.1) m
  let a := fExpDiff m mn
  let r := b.foldl (fun (acc : List Nat × Nat) p =>
    let e := fExpDiff p.1 mn
    (List.zipWith (fun x v => fAdd x (f32 (numMul (v32 e) v))) acc.1 p.2, fAdd acc.2 e)) (o.map (fMul · a), fMul l a)
  (r.1, mn, r.2)

/-- The attention of one query head over one shard's positions (R185): K rows as (bytes, scales), V rows decoded. -/
def culmAttend (d fq fk : Nat) (q : Bytes) (ks : List (Bytes × Bytes)) (vs : List (List Num)) (scale : Nat) : Partial :=
  let sc := ks.map fun k => f32 (numMul (v32 (scoreF32 (dotProd fq fk d q [] k.1 k.2))) (v32 scale))
  (chunks 32 (sc.zip vs)).foldl attendBlock (List.replicate d 0, 0xFF800000, 0)

/-- The partial's bytes (R186). -/
def partialBytes (p : Partial) : Bytes := p.1.flatMap (toLe 4) ++ toLe 4 p.2.1 ++ toLe 4 p.2.2

/-- The combination of partials in ascending shard order (R187). -/
def combine (d : Nat) (ps : List Partial) : List Nat :=
  let m := (ps.drop 1).foldl (fun x p => fMax x p.2.1) ((ps.map fun p => p.2.1).getD 0 0xFF800000)
  let r := ps.foldl (fun (acc : List Nat × Nat) p =>
    let f := fExpDiff p.2.1 m
    (List.zipWith (fun x v => fAdd x (fMul v f)) acc.1 p.1, fAdd acc.2 (fMul p.2.2 f))) (List.replicate d 0, 0)
  r.1.map fun x => fDiv x r.2

end Sys2Proof.Machine
end

