-- ==== Sys2Proof/Machine/Index.lean ====
section
/-! DEFINITION. Collections, directories, lists, location maps, and what a search computes (chapter 04). -/

namespace Sys2Proof.Machine
open Sys2Proof

/-- Bytes of an object as readers find them; zeros of a handle that names nothing. -/
def objBytes (s : State) (h off n : Nat) : Bytes :=
  match objOf s h with
  | some o => memRead o.mem off n
  | none => zeros n

/-- Whether a read of an object's bytes meets a poisoned block (R373). -/
def objPoisoned (s : State) (h off n : Nat) : Bool :=
  match objOf s h with
  | some o => o.poison.any fun b => decide (off / 64 ≤ b) && decide (b ≤ (off + n - 1) / 64)
  | none => false

/-- The newest version of a table's entry at an epoch, unless a swap has put other storage behind the handle since (R200,
R219). -/
def tableVer (s : State) (h idx e : Nat) : Option Bytes :=
  let since := ((s.idx.swaps.find? fun w => w.1 == h && decide (w.2.2 ≤ e)).map fun w => w.2.2).getD 0
  (versionAt s h idx e).bind fun v => if since ≤ v.tag then v.data else none

/-- A versioned table's row at an epoch: its newest version, else the bytes of the storage the handle refers to. -/
def tableRow (s : State) (h idx e off n : Nat) : Bytes :=
  match tableVer s h idx e with
  | some v => slice v 0 n
  | none => objBytes s (swapAt s h e) off n

/-- The index under which a table's header is versioned (R201). -/
def headerIndex : Nat := 2 ^ 64 - 1

/-- A collection's descriptor at an epoch (R88), none where it does not exist then. -/
def collAt (s : State) (c e : Nat) : Option Bytes := (versionAt s 0 c e).bind TVer.data

/-- Descriptor fields (R88), defaults where the field has one. -/
def coOwner (d : Bytes) : Nat := fld d 2 2 % 1024
def coSharded (d : Bytes) : Bool := bitOf (byteAt d 4) 0
def coWidth (d : Bytes) : Nat := 2 ^ byteAt d 5
def coMetric (d : Bytes) : Nat := byteAt d 6
def coFormat (d : Bytes) : Nat := byteAt d 7
def coDims (d : Bytes) : Nat := fld d 8 2
def coCoarse (d : Bytes) : Nat := byteAt d 0x0A
def coCoarseDims (d : Bytes) : Nat := fld d 0x0C 2
def coSplit (d : Bytes) : Nat := orDef (fld d 0x0E 2) 48 * 1024
def coCount (d : Bytes) : Nat := fld d 0x10 4
def coChaff (d : Bytes) : Nat := orDef (byteAt d 0x14) 32
def coAssign (d : Bytes) : Nat := fld d 0x16 2
def coMax (d : Bytes) : Nat := fld d 0x18 8
def coCentroids (d : Bytes) : Nat := fld d 0x20 8
def coDirectory (d : Bytes) : Nat := fld d 0x28 8
def coMap (d : Bytes) : Nat := fld d 0x30 8
def coFanout (d : Bytes) : Nat := orDef (fld d 0x38 4) 1000 * 1000

/-- Bytes of an object, 0 of a handle that names nothing (R233). -/
def objSize (s : State) (h : Nat) : Nat := ((objOf s h).map ObjRec.size).getD 0

/-- The format word of an object (R233). -/
def objFormat (s : State) (h : Nat) : Nat := ((objOf s h).map ObjRec.format).getD 0

/-- The coarse format word: the centroid table object's, its element as the descriptor names it (R88). -/
def coarseWord (s : State) (d : Bytes) : Nat := objFormat s (coCentroids d) / 256 * 256 + coCoarse d

/-- The object that holds the scales of an object's elements (R83), where no field names it: the one the node made with the object, else
the free association of log entry 21, which keeps to the owner's objects; 0 where there is none. -/
def branOf (s : State) (h : Nat) : Nat :=
  match tabGet s.obj.brans h with
  | some b => b
  | none => if hTenant (Config.branObject h) = hTenant h then Config.branObject h else 0

/-- The scales of row j of a table's storage at an epoch (R83). -/
def rowBran (s : State) (h j e sb : Nat) : Bytes := if sb = 0 then [] else objBytes s (branOf s (swapAt s h e)) (j * sb) sb

/-- A row of a table that a CENTROID stage scores, at an epoch: elements, metadata of a row in 2:4 form, scales (R83, R90). A version of
a row holds them in this order; in the object, 2:4 rows stand as R144 lays a matrix out, as many as the object holds. -/
def scoredRow (s : State) (sparse : Bool) (h f n j e : Nat) : Bytes × Bytes × Bytes :=
  let rb := if sparse then keptBytes f n else rowBytes f n
  let mb := if sparse then metaBytes n else 0
  let sb := scaleBytes f n
  let st := swapAt s h e
  match tableVer s h j e with
  | some v => (slice v 0 rb, slice v rb mb, slice v (rb + mb) sb)
  | none => (objBytes s st (j * rb) rb, if mb = 0 then [] else objBytes s st (objSize s st / (rb + mb) * rb + j * mb) mb, rowBran s h j e sb)

/-- The score of a query row against a row of such a table. -/
def rowScore (sparse : Bool) (metric fq fr n : Nat) (q sq : Bytes) (r : Bytes × Bytes × Bytes) : Score :=
  if sparse then metricSparse metric fq fr n q sq r.1 r.2.1 r.2.2 else metricScore metric fq fr n q sq r.1 r.2.2

/-- Centroid row j at an epoch: elements and scales (R83, R90). -/
def centroidRow (s : State) (d : Bytes) (j e : Nat) : Bytes × Bytes :=
  let r := scoredRow s false (coCentroids d) (coarseWord s d) (coCoarseDims d) j e
  (r.1, r.2.2)

/-- The directory entry of a list ID at an epoch (R91). -/
def dirEntry (s : State) (d : Bytes) (l e : Nat) : Bytes := tableRow s (coDirectory d) l e (16 * l) 16
def deList (x : Bytes) : Nat := fld x 0 8
def deLoc (x : Bytes) : Nat := byteAt x 8
def deAlias (x : Bytes) : Bool := bitOf (byteAt x 9) 0
def deWhere (x : Bytes) : Nat := fld x 0x0A 2
def deTarget (x : Bytes) : Nat := fld x 0x0C 4 % 2 ^ 20

/-- The list ID that an ID stands for at an epoch: alias targets followed (R91), n times at most. -/
def resolveAlias (s : State) (d : Bytes) (e : Nat) : Nat → Nat → Nat
  | 0, l => l
  | k + 1, l => let x := dirEntry s d l e; if deAlias x then resolveAlias s d e k (deTarget x) else l

/-- The list behind an ID at an epoch, aliases resolved: a chain that does not return to an ID it has left has at most as many links
as the collection has IDs (R88, R91). -/
def listIdAt (s : State) (d : Bytes) (l e : Nat) : Nat := resolveAlias s d e (coCount d) l

/-- A list object: its extents and entries; one that nothing was inserted into takes its IDs and extent handles from
the header in its bytes (R92). -/
def listOf (s : State) (h coll l : Nat) : IList :=
  match tabGet s.idx.lists h with
  | some x => x
  | none => { coll := coll, list := l, exactH := fld (objBytes s h 0x18 8) 0 8, coarseH := fld (objBytes s h 0x20 8) 0 8 }

/-- Length of a list as of the latest commit. -/
def listLen (l : IList) : Nat := l.ents.length
/-- settled of a list's header (R92). -/
def listSettled (l : IList) : Nat := (l.ents.filter LEnt.settled).length
/-- recent of a list's header (R92). -/
def listRecent (l : IList) : Nat := (l.ents.filter fun x => x.tomb && !x.settled).length

/-- Layout of the query block (R99): offsets of sketch, full query, and the total. -/
def queryLayout (s : State) (d : Bytes) : Nat × Nat × Nat :=
  let f := coarseWord s d
  let a := roundUp (rowBytes f (coCoarseDims d) + scaleBytes f (coCoarseDims d)) 64
  let b := a + roundUp (coWidth d / 8) 64
  (a, b, b + rowBytes (coFormat d) (coDims d))

/-- The rows of n that a lane of a stage takes: its slice of a SPLIT stage's, else all (R48). -/
def laneRows (st : Bytes) (lane n : Nat) : List Nat :=
  if sgSplit st then
    let w := ceilDiv n (max 1 (sgWidth st))
    (List.range (min w (n - lane * w))).map (lane * w + ·)
  else List.range n

/-- The logical tile that scores row j of n: of a SPLIT stage the one whose slice it is in, else the stage's first, until the batch is
dealt (R48, R115). -/
def rowTile (st : Bytes) (n j : Nat) : Nat := if sgSplit st then sgBase st + j / max 1 (ceilDiv n (max 1 (sgWidth st))) else sgBase st

/-- The scores of a coarse query against the centroids given: candidates of the CENTROID row (R39, R101, R115). -/
def centroidHits (s : State) (d st : Bytes) (e : Nat) (q : Bytes) (js : List Nat) : List Hit :=
  let f := coarseWord s d
  let n := coCoarseDims d
  let rb := rowBytes f n
  js.map fun j =>
    { payload := j, node := genNode (gen s), pos := j, tile := rowTile st (coCount d) j,
      score := scoreBits (rowScore (sgSparse st) (byteAt st 0x2A) f f n (q.take rb) (slice q rb (scaleBytes f n))
        (scoredRow s (sgSparse st) (coCentroids d) f n j e)) }

/-- Order direction of a metric (R101): L2 smallest first, the others largest first. -/
def metricOrder (m : Nat) : Nat := if m = 0 then 0 else 1

/-- Whether a CENTROID stage's scores of a collection are FP32 (R114). -/
def centroidFp (s : State) (d st : Bytes) : Bool := metricFp (byteAt st 0x2A) (coarseWord s d) (coarseWord s d)

/-- The centroids selected for a coarse query, with the NaN count of its row (R44, R116, R120). -/
def probePart (s : State) (d st : Bytes) (pw : Bool) (nprobe cls e : Nat) (q : Bytes) : Part :=
  winnowDeep pw (centroidFp s d st) (metricOrder (byteAt st 0x2A)) (min nprobe (coCount d)) cls
    (centroidHits s d st e q (List.range (coCount d)))

/-- The longest row that a CENTROID stage's tiles form for a query: candidates dropped for NaN do not count (R120, R126). -/
def centroidRowLen (s : State) (d st : Bytes) (cls e : Nat) (q : Bytes) : Nat :=
  ((List.range (if sgSplit st then sgWidth st else 1)).map fun i =>
    (rowIn (centroidFp s d st) cls (centroidHits s d st e q (laneRows st i (coCount d)))).length).foldl max 0

/-- Whether a row of a collection's centroid table is lost, or its scales. -/
def centroidLost (s : State) (d st : Bytes) (e : Nat) : Bool :=
  let f := coarseWord s d
  let n := coCoarseDims d
  let h := swapAt s (coCentroids d) e
  let row := if sgSparse st then keptBytes f n + metaBytes n else rowBytes f n
  objPoisoned s h 0 (coCount d * row) || (fwScale f != 0 && objPoisoned s (branOf s h) 0 (coCount d * scaleBytes f n))

/-- The lists to scan: (rank of first mention, list ID, directory entry), aliases resolved, each list once, IDs of no
list left out (R104). -/
def probeLists (s : State) (d : Bytes) (e : Nat) (ids : List Nat) : List (Nat × Nat × Bytes) :=
  let rs := ids.zipIdx.map fun p => (p.2, listIdAt s d p.1 e)
  let go := rs.foldl (fun acc r => if acc.any fun a => a.2 == r.2 then acc else acc ++ [r]) ([] : List (Nat × Nat))
  (go.map fun r => (r.1, r.2, dirEntry s d r.2 e)).filter fun r => deLoc r.2.2 != 0

/-- Bytes of one segment of a list (R93). -/
def segmentSize (w : Nat) : Nat := 128 + 1024 * w / 8 + 16384

/-- Whether a scan of a list of n positions meets a lost block of its object, the positions of its second pass given (R92, R93, R104,
R177): the header, bitmaps and low halves it reads throughout, the high half, ID and entry word in the second pass alone. -/
def scanBlockLost (w n : Nat) (p2 : List Nat) (b : Nat) : Bool :=
  if 64 * b < 1664 then true
  else
    let o := 64 * b - 1664
    let p0 := 1024 * (o / segmentSize w)
    let r := o % segmentSize w
    let half := 64 * w
    let pass (x y : Nat) : Bool := p2.any fun p => decide (p0 + x ≤ p) && decide (p < p0 + x + y)
    if r < 128 then decide (p0 + 8 * r < n)
    else if r < 128 + half then decide (p0 + (r - 128) * 16 / w < n)
    else if r < 128 + 2 * half then pass ((r - 128 - half) * 16 / w) (1024 / w)
    else if r < 128 + 2 * half + 8192 then pass ((r - 128 - 2 * half) / 8) 8
    else pass ((r - 128 - 2 * half - 8192) / 8) 8

/-- Whether a scan reads lost data. -/
def scanLost (s : State) (h w n : Nat) (p2 : List Nat) : Bool := ((objOf s h).map fun o => o.poison.any (scanBlockLost w n p2)).getD false

/-- What a scan of one list gives: candidates, chaff, whether lost data was met (R95, R177, R192). -/
def scanList (s : State) (d : Bytes) (coll e kept cutoff q tile : Nat) (r : Nat × Nat × Bytes) : List Hit × Nat × Bool :=
  let h := deList r.2.2
  let l := listOf s h coll r.2.1
  let a := culmScan l (coWidth d) kept cutoff e q { node := genNode (gen s), tile := tile, rank := r.1, list := r.2.1 }
  (a.1, a.2.2.1, scanLost s h (coWidth d) (lengthAt l e) a.2.2.2)

/-- The lists held here among those probed. -/
def localLists (ls : List (Nat × Nat × Bytes)) : List (Nat × Nat × Bytes) := ls.filter fun r => deLoc r.2.2 == 1 || deLoc r.2.2 == 2

/-- The scans of the local lists among those probed: candidates, chaff, lists scanned, whether lost data was met; how each is scanned
given: candidates kept, cutoff, tile. -/
def scanLists (s : State) (d : Bytes) (coll e q : Nat) (how : Nat × Nat × Bytes → Nat × Nat × Nat) (ls : List (Nat × Nat × Bytes)) :
    List Hit × Nat × Nat × Bool :=
  let rs := (localLists ls).map fun r => scanList s d coll e (how r).1 (how r).2.1 q (how r).2.2 r
  (rs.flatMap Prod.fst, (rs.map fun r => r.2.1).sum, rs.length, rs.any fun r => r.2.2)

/-- The exact vector of a candidate, and whether its bytes are lost. -/
def exactOf (s : State) (d : Bytes) (coll e : Nat) (h : Hit) : Bytes × Bool :=
  let l := listOf s (deList (dirEntry s d h.list e)) coll h.list
  let n := rowBytes (coFormat d) (coDims d)
  (((l.ents[h.pos]?).map LEnt.exact).getD [], objPoisoned s l.exactH (h.pos * n) n)

/-- Whether a collection's exact scores are FP32 (R114). -/
def exactFp (d : Bytes) : Bool := metricFp (coMetric d) (coFormat d) (coFormat d)

/-- The candidates reranked with their exact vectors on a tile, down to the best k with sums (R101, R115): the selection, and whether
lost data was met. -/
def rerank (s : State) (d : Bytes) (coll e cls k tile : Nat) (full : Bytes) (cand : List Hit) : Part × Bool :=
  let f := coFormat d
  let ex := cand.map fun h => (h, exactOf s d coll e h)
  let row := ex.map fun p =>
    { p.1 with tile := tile, score := scoreBits (metricScore (coMetric d) f f (coDims d) full [] p.2.1 []) }
  (winnow (exactFp d) (metricOrder (coMetric d)) k cls row, ex.any fun p => p.2.2)

/-- A 16-byte result entry (R102): the score as FP32. -/
def resultEntry (fp scores : Bool) (h : Hit) : Bytes :=
  toLe 8 h.payload ++ toLe 4 (if scores then bitsF32 fp h.score else 0) ++ toLe 4 h.list

/-- The result block (R102). -/
def resultBlock (e lists chaff missing cls : Nat) (fp scores : Bool) (p : Part) : Bytes :=
  toLe 8 e ++ toLe 2 p.hits.length ++ toLe 2 lists ++ toLe 4 chaff ++ toLe 4 (accOut p.sel) ++ toLe 4 (accOut p.rest) ++
    toLe 2 missing ++ toLe 2 (if cls = 2 then p.nan else 0) ++ zeros 4 ++ p.hits.flatMap (resultEntry fp scores)

/-! Location maps (R94). -/

/-- Buckets of a map of max_vectors. -/
def mapBuckets (maxV : Nat) : Nat := ceilDiv (maxV * 10) 72
/-- Fingerprint of a vector ID. -/
def mapFinger (v : Nat) : Nat := mix64 v / 2 ^ 37
/-- First and second bucket of a vector ID. -/
def mapBucket1 (maxV v : Nat) : Nat := mix64 v % 2 ^ 32 % mapBuckets maxV
def mapBucket2 (maxV v : Nat) : Nat := mix64 v / 2 ^ 5 % 2 ^ 32 % mapBuckets maxV

/-- One slot of a map: (map handle, bucket × 8 + slot, list, position, fingerprint). -/
abbrev MapSlot := Nat × Nat × Nat × Nat × Nat

/-- Valid slots of a bucket. -/
def bucketSlots (s : State) (h b : Nat) : List MapSlot := s.idx.maps.filter fun m => m.1 == h && m.2.1 / 8 == b
/-- The lowest slot of a bucket that is neither valid nor freed and still to be reclaimed (R222). -/
def bucketFree (s : State) (h b : Nat) : Option Nat :=
  (List.range 8).find? fun i => !((bucketSlots s h b).any fun m => m.2.1 == 8 * b + i) &&
    !s.idx.freedSlots.any fun f => f.1 == h && f.2.1 == 8 * b + i

/-- The slot, list and position of a present vector ID: fingerprints compared in both buckets, each match confirmed
against the ID column (R94). -/
def mapFind (s : State) (d : Bytes) (coll v : Nat) : Option MapSlot :=
  let h := coMap d
  let bs := bucketSlots s h (mapBucket1 (coMax d) v) ++ bucketSlots s h (mapBucket2 (coMax d) v)
  bs.find? fun m =>
    m.2.2.2.2 == mapFinger v &&
      ((listOf s (deList (dirEntry s d m.2.2.1 s.eng.epoch)) coll m.2.2.1).ents[m.2.2.2.1]?).any fun x => x.id == v

/-- The slot an insert takes: in the bucket with fewer valid slots, the first on equality (R94), or in the other where that one has no
slot but freed ones that wait for the floor (log entry 104). -/
def mapChoose (s : State) (d : Bytes) (v : Nat) : Option Nat :=
  let h := coMap d
  let b1 := mapBucket1 (coMax d) v
  let b2 := mapBucket2 (coMax d) v
  let take (b : Nat) : Option Nat := (bucketFree s h b).map (8 * b + ·)
  if (bucketSlots s h b2).length < (bucketSlots s h b1).length then (take b2).or (take b1) else (take b1).or (take b2)

/-- Whether a map with so many more vectors holds max_vectors (R108). -/
def mapFull (s : State) (d : Bytes) (more : Int) : Bool :=
  decide ((coMax d : Int) ≤ (s.idx.maps.filter fun m => m.1 == coMap d).length + more)

/-- A map slot written; one freed at an epoch (R222). -/
def mapPut (m : MapSlot) (s : State) : State :=
  s.onIdx fun x => { x with maps := x.maps.filter (fun y => !(y.1 == m.1 && y.2.1 == m.2.1)) ++ [m] }
def mapFree (h key e : Nat) (s : State) : State :=
  s.onIdx fun x => { x with
    maps := x.maps.filter fun y => !(y.1 == h && y.2.1 == key), freedSlots := (h, key, e) :: x.freedSlots }

/-- The selection of an insert's list by assign_sheaf with k = 1 at the current epoch (R106), where that sheaf has a CENTROID stage. -/
def assignPart (s : State) (d coarse : Bytes) : Option Part :=
  ((genSheaf (gen s) (coAssign d)).bind fun x => shRole x 1).map fun e =>
    probePart s d e false 1 (genClass (gen s)) s.eng.epoch coarse

/-- Stages of a sheaf by role. -/
def rolesOf (d : Bytes) : List Nat := (shEntries d).map sgRole
/-- Candidates dropped for NaN scores in Federation go to the drop counter of the stage that scored them: the stage of a
role (R120). -/
def countNans (cls sh : Nat) (d : Bytes) (role n : Nat) (s : State) : State :=
  if cls = 2 && n != 0 then
    s.onIdx fun x => { x with nanDrops := tabAdd x.nanDrops (sh * 16 + ((rolesOf d).findIdx? (· == role)).getD 0) n }
  else s

/-- The centroids that the assignment of an insert drops for NaN are counted at the CENTROID stage of assign_sheaf (R106, R120). -/
def countAssign (d coarse : Bytes) (s : State) : State :=
  (genSheaf (gen s) (coAssign d)).elim s fun x =>
    countNans (genClass (gen s)) (coAssign d) x 1 (((assignPart s d coarse).map Part.nan).getD 0) s

/-- The list an insert is assigned to. -/
def assignList (s : State) (d coarse : Bytes) : Option Nat :=
  ((assignPart s d coarse).bind fun p => (p.hits.map Hit.payload).head?).map fun l => listIdAt s d l s.eng.epoch

/-- Length of an insert record and the offsets of its parts: sketch, full vector, coarse vector (R105). -/
def recordLayout (s : State) (d : Bytes) : Nat × Nat × Nat × Nat :=
  let f := coarseWord s d
  let a := 64
  let b := a + roundUp (coWidth d / 8) 64
  let c := b + roundUp (rowBytes (coFormat d) (coDims d)) 64
  (a, b, c, c + roundUp (rowBytes f (coCoarseDims d) + scaleBytes f (coCoarseDims d)) 64)

end Sys2Proof.Machine
end

