-- ==== Sys2Proof/Machine/ExpertMath.lean ====
section
/-! DEFINITION. What expert calls, gates, gathers and memory layers compute (chapter 06). -/

namespace Sys2Proof.Machine
open Sys2Proof

/-! From selection to weights (R140, R141). -/

/-- Weights of the selected entries (R140): 0 RAW, 1 SELECTED, 2 SOFTMAX, 3 TOTAL, of scores of the kind given. DESIGN CHOICE (log entry
72): the entries of a partitioned selection are taken in the order in which the stage delivers them, partition by partition, so
that s_1 and m are the first entry of partition 0 and Z adds in that order. -/
def selWeights (fp : Bool) (mode order : Nat) (p : Part) : List Nat :=
  let ss := p.hits.map fun h => bitsF32 fp h.score
  if mode = 0 then ss
  else if mode = 1 then ss.map fun x => fDiv x (accOut p.sel)
  else if mode = 3 then
    let t : Acc := { v := p.sel.v + p.rest.v, pinf := p.sel.pinf || p.rest.pinf, ninf := p.sel.ninf || p.rest.ninf }
    ss.map fun x => fDiv x (accOut t)
  else
    let m := ss.headD 0
    let es := ss.map fun x =>
      let d := if order = 1 then numAdd (v32 x) (numMinus (v32 m)) else numAdd (v32 m) (numMinus (v32 x))
      fExp2 (fMul (f32 d) log2e)
    let z := accF32 es
    es.map fun x => fDiv x z

/-- The selection kept for an item (R141). -/
def selOf (fp : Bool) (mode order : Nat) (p : Part) : Sel :=
  { slots := (p.hits.map Hit.payload).zip (selWeights fp mode order p), runs := p.hits.map Hit.payload, nan := p.nan,
    sumSel := accOut p.sel, sumRest := accOut p.rest }

/-- Bytes of a selection record (R141). -/
def recordBytes (k : Nat) : Nat := roundUp (32 + 8 * k) 64

/-- The selection record: the slots hold (selected, run, weight) for experts, (key, weight) for memory layers (R141); of a
partitioned selection the first k (log entry 72). -/
def selRecord (experts : Bool) (k : Nat) (x : Sel) : Bytes :=
  let slots := ((x.slots.zip x.runs).take k).flatMap fun p =>
    toLe 4 (if experts then p.1.1 % 65536 + 65536 * (p.2 % 65536) else p.1.1) ++ toLe 4 p.1.2
  let b := toLe 4 ((x.slots.head?.map Prod.fst).getD 0xFFFFFFFF) ++ toLe 1 (min x.slots.length 64) ++
    toLe 1 (b2n x.fell + 2 * b2n x.poison) ++ zeros 2 ++ toLe 4 x.nan ++ toLe 4 x.sumSel ++ toLe 4 x.sumRest ++
    zeros 12 ++ slots
  slice b 0 (recordBytes k)

/-! Expert tables (R142 to R145). -/

/-- The expert table header at an epoch. -/
def exHeader (s : State) (t e : Nat) : Bytes := tableRow s t headerIndex e 0 64
/-- Expert i's descriptor at an epoch. -/
def exDesc (s : State) (t i e : Nat) : Bytes := tableRow s t i e (64 + 64 * i) 64
def xhCount (h : Bytes) : Nat := fld h 0 4
def xhModel (h : Bytes) : Nat := fld h 4 2
def xhGate (h : Bytes) : Nat := byteAt h 6
def xhAct (h : Bytes) : Nat := fld h 8 4
def xhStaging (h : Bytes) : Nat := fld h 0x10 8
def xdWeights (d : Bytes) : Nat := fld d 0 8
def xdBran (d : Bytes) : Nat := fld d 8 8
def xdFormat (d : Bytes) : Nat := fld d 0x10 4
def xdFf (d : Bytes) : Nat := fld d 0x14 2
def xdGated (d : Bytes) : Bool := byteAt d 0x16 == 1
def xdAct (d : Bytes) : Nat := byteAt d 0x17
def xdValid (d : Bytes) : Bool := bitOf (byteAt d 0x18) 0
def xdSparse (d : Bytes) : Bool := bitOf (byteAt d 0x18) 1
def xdHasFb (d : Bytes) : Bool := bitOf (byteAt d 0x18) 2
def xdFallback (d : Bytes) : Nat := fld d 0x1A 2
/-- Whether an element format is one of the MAC array's of 16 bits (R37). -/
def isWide (f : Nat) : Bool := f == 2 || f == 3

/-- Bytes of one stored row of depth elements, and of its metadata in 2:4 form (R144). -/
def wRow (d : Bytes) (depth : Nat) : Nat :=
  if xdSparse d then keptBytes (xdFormat d) depth else rowBytes (xdFormat d) depth
def wMeta (d : Bytes) (depth : Nat) : Nat := if xdSparse d then metaBytes depth else 0

/-- (rows, depth) of each matrix in order: W_gate where GATED, W_up, W_down (R144). -/
def wShapes (d : Bytes) (k : Nat) : List (Nat × Nat) :=
  (if xdGated d then [(xdFf d, k)] else []) ++ [(xdFf d, k), (k, xdFf d)]

/-- Start of matrix m in the weight object, on 4 KiB boundaries, and in the bran object, on 64-byte boundaries (R144);
m past the last gives the sizes the layout needs. -/
def wStart (d : Bytes) (k m : Nat) : Nat × Nat :=
  ((wShapes d k).take m).foldl (fun a r =>
    (roundUp (a.1 + r.1 * (wRow d r.2 + wMeta d r.2)) 4096, roundUp (a.2 + r.1 * scaleBytes (xdFormat d) r.2) 64)) (0, 0)

/-- Bytes the weight and bran objects need to hold (R144). -/
def wSizes (d : Bytes) (k : Nat) : Nat × Nat :=
  let sh := wShapes d k
  let a := wStart d k (sh.length - 1)
  let r := sh.getLastD (0, 0)
  (a.1 + r.1 * (wRow d r.2 + wMeta d r.2), a.2 + r.1 * scaleBytes (xdFormat d) r.2)

/-- Products of a dense row with activations, run by run. -/
def denseRuns (xs ws : List Num) : List (List Num) := chunks 32 (List.zipWith numMul xs ws)

/-- x · Wᵀ for matrix m of an expert: FP32 outputs, one per row (R80, R149). -/
def gemm (s : State) (d : Bytes) (k m fx : Nat) (x sx : Bytes) : List Nat :=
  let (rows, depth) := (wShapes d k).getD m (0, 0)
  let (wo, bo) := wStart d k m
  let f := xdFormat d
  let xs := rowElems fx depth x
  let gx := rowScales fx depth sx
  (List.range rows).map fun r =>
    let gb := rowScales f depth (objBytes s (xdBran d) (bo + r * scaleBytes f depth) (scaleBytes f depth))
    let wb := objBytes s (xdWeights d) (wo + r * wRow d depth) (wRow d depth)
    let runs :=
      if xdSparse d then
        sparseRuns xs (keptElems f depth wb)
          (keptPlaces depth (objBytes s (xdWeights d) (wo + rows * wRow d depth + r * wMeta d depth) (wMeta d depth)))
      else denseRuns xs (rowElems f depth wb)
    scoreF32 (dotOfRuns fx f depth gx gb runs)

/-- The format word of the intermediate h: act_format, scaled per 32 elements where it has a scale (R149). -/
def hWord (act : Nat) : Nat := act % 65536 + fwZero act * 16777216

/-- The intermediate h of one expert and token before its rounding (R149). -/
def expertMid (s : State) (hd d : Bytes) (x sx : Bytes) : List Num :=
  let k := xhModel hd
  let fx := xhAct hd
  let a :=
    if xdGated d then
      List.zipWith (fun g u => fMul (activate (xdAct d) g) u) (gemm s d k 0 fx x sx) (gemm s d k 1 fx x sx)
    else (gemm s d k 0 fx x sx).map (activate (xdAct d))
  a.map v32

/-- h as the stage rounds it, in act_format: bytes, scales and the conversions made (R149). -/
def expertH (hd d : Bytes) (a : List Num) : Bytes × Bytes × List (Nat × Bool × Bool × Num) :=
  convertRow (hWord (xhAct hd)) (xdFf d) none (fun _ => .nearest) a

/-- o_e: what one expert computes for one token (R149). -/
def expertOut (s : State) (hd d : Bytes) (x sx : Bytes) : List Nat :=
  let h := expertH hd d (expertMid s hd d x sx)
  gemm s d (xhModel hd) (if xdGated d then 2 else 1) (hWord (xhAct hd)) h.1 h.2.1

/-- Distinct numbers in ascending order. -/
def sortNat (l : List Nat) : List Nat := (nub l).foldr insertNat []
where
  insertNat (x : Nat) : List Nat → List Nat
    | [] => [x]
    | y :: ys => if x ≤ y then x :: y :: ys else y :: insertNat x ys

/-- A token's output in FP32 (R150): experts it runs in ascending index, W_e times o_e, summed from the first term. DESIGN CHOICE (log
entry 89): a token that selects no expert has no first term, and its output row is +0. -/
def tokenOut (s : State) (t e : Nat) (x : Sel) (row : Bytes) : List Nat :=
  let hd := exHeader s t e
  let rb := rowBytes (xhAct hd) (xhModel hd)
  let terms := (sortNat x.runs).map fun i =>
    let w := accF32 (((x.slots.zip x.runs).filter fun p => p.2 == i).map fun p => p.1.2)
    (expertOut s hd (exDesc s t i e) (row.take rb) (row.drop rb)).map (fMul w)
  match terms with  -- no term: DESIGN CHOICE (log entry 89)
  | [] => List.replicate (xhModel hd) 0
  | o :: os => os.foldl (List.zipWith fAdd) o

/-- Bytes of one activation row with its scales, in its 64-byte-aligned place (R146). -/
def actRowBytes (hd : Bytes) : Nat :=
  roundUp (rowBytes (xhAct hd) (xhModel hd) + scaleBytes (xhAct hd) (xhModel hd)) 64
/-- Bytes of one gating row in its 64-byte-aligned place (R146). -/
def gateRowBytes (hd : Bytes) : Nat := roundUp (xhCount hd * elemBits (xhGate hd) / 8) 64

/-- The gating row of a token: valid experts only, scores widened to FP32 (R142, R146), scored on a tile (R115). -/
def gateHits (s : State) (t e tile : Nat) (row : Bytes) : List Hit :=
  let hd := exHeader s t e
  ((unpack (elemBits (xhGate hd)) (xhCount hd) row).zipIdx.filter fun p => xdValid (exDesc s t p.2 e)).map fun p =>
    { payload := p.2, score := f32 (floatVal (xhGate hd) p.1), node := genNode (gen s), pos := p.2, tile := tile }

/-- The selections of a command's tokens (R146): k largest first. -/
def gateSels (s : State) (t e cls mode k tokens tile : Nat) (gate : Bytes) : List Sel :=
  let n := gateRowBytes (exHeader s t e)
  (List.range tokens).map fun i =>
    selOf true mode 1 (winnow true 1 k cls (gateHits s t e tile (slice gate (i * n) n)))

/-- Experts of the table whose VALID bit is clear: counted for each row they would have entered (R146). -/
def invalidCount (s : State) (t e : Nat) : Nat :=
  ((List.range (xhCount (exHeader s t e))).filter fun i => !xdValid (exDesc s t i e)).length

/-- Whether an object is RESIDENT in a tier (R230). -/
def residentIn (o : ObjRec) (tier : Nat) : Bool := o.home == tier || (o.upper == tier && o.st == .resident)
/-- Whether an object is RESIDENT in T1 (R230). -/
def residentT1 (o : ObjRec) : Bool := residentIn o 1

/-! Places, as a place field names them (R236): bit 15 CHANNEL_LOCAL with the pseudo-channel in [8:0]; of a T0 copy the tile. -/

/-- Whether a place is one pseudo-channel. -/
def codeLocal (c : Nat) : Bool := decide (32768 ≤ c)
/-- The place of an object's home. -/
def homeCode (o : ObjRec) : Nat := (if o.chanLocal then 32768 else 0) + o.place
/-- Whether an upper copy is there, or being made. -/
def hasUpper (o : ObjRec) : Bool := o.st != .absent && o.upper != 255
/-- The place of the T1 copy a reader finds. -/
def t1Code (o : ObjRec) : Nat := if o.upper = 1 && o.st != .absent && o.st != .promoting then o.placeUp else homeCode o
/-- Whether an object is RESIDENT in T1, channel-local in a pseudo-channel (R170, R234). -/
def inPc (o : ObjRec) (pc : Nat) : Bool := residentT1 o && t1Code o == 32768 + pc
/-- The place that a header shows: of a T0 copy its tile, else of a channel-local T1 copy or home its pseudo-channel, else 0 (R233). -/
def shownPlace (o : ObjRec) : Nat :=
  if hasUpper o && o.upper == 0 then o.placeUp % 512
  else if hasUpper o && o.upper == 1 then (if codeLocal o.placeUp then o.placeUp % 512 else 0)
  else if o.home = 1 && o.chanLocal then o.place else 0
/-- CHANNEL_LOCAL as a header shows it: of the T1 copy or the T1 home (R233; log entry 103). -/
def shownLocal (o : ObjRec) : Bool := if hasUpper o && o.upper == 1 then codeLocal o.placeUp else o.home == 1 && o.chanLocal
/-- The pseudo-channel, stack in [2:0], of a striped object's 4 KiB unit (R169, R234). -/
def stripeOf (u : Nat) : Nat := u % 8 + 8 * (u / 8 % 64)
/-- Bytes of a striped object of n bytes in one pseudo-channel (R234). -/
def stripedIn (n pc : Nat) : Nat :=
  let u := n / 4096
  (u / 512 + if pc < u % 512 then 1 else 0) * 4096 + if stripeOf u = pc then n % 4096 else 0

/-- Whether an expert is read directly: weights and bran RESIDENT in T1 (R153). -/
def expertDirect (s : State) (d : Bytes) : Bool :=
  ((objOf s (xdWeights d)).map residentT1).getD false &&
    (xdBran d == 0 || ((objOf s (xdBran d)).map residentT1).getD false)

/-- Whether a table's staging pool holds complete copies of an expert's objects (R155). -/
def expertStaged (s : State) (t : Nat) (d : Bytes) : Bool :=
  let p := tabGetD s.shv.pools t {}
  let has (h : Nat) : Bool := p.copies.any fun c => c.1 == h && c.2.1
  has (xdWeights d) && (xdBran d == 0 || has (xdBran d))

/-- Whether an expert is present for a batch (R155). -/
def expertPresent (s : State) (t : Nat) (d : Bytes) : Bool := expertDirect s d || expertStaged s t d

/-- Whether an expert's weights or bran hold lost data. -/
def expertPoisoned (s : State) (d : Bytes) : Bool :=
  let bad (h : Nat) : Bool := ((objOf s h).map fun o => !o.poison.isEmpty).getD false
  bad (xdWeights d) || bad (xdBran d)

/-! Embedding tables (R159 to R163). -/

/-- The embedding table descriptor at an epoch. -/
def emHeader (s : State) (t e : Nat) : Bytes := tableRow s t headerIndex e 0 64
def mhKind (h : Bytes) : Nat := byteAt h 0
def mhHash (h : Bytes) : Nat := byteAt h 1
def mhOp (h : Bytes) : Nat := byteAt h 2
def mhFormat (h : Bytes) : Nat := fld h 4 4
def mhRows (h : Bytes) : Nat := fld h 8 8
def mhSeed (h : Bytes) : Nat := fld h 0x10 8
def mhLimit (h : Bytes) : Nat := fld h 0x18 8
def mhElems (h : Bytes) : Nat := fld h 0x20 4
def mhA (h : Bytes) : Nat := fld h 0x28 8
def mhB (h : Bytes) : Nat := fld h 0x30 8
def mhDefault (h : Bytes) : Nat := fld h 0x38 8

/-- Row of an index (R160); for COMPOSED the index itself. -/
def emRow (h : Bytes) (i : Nat) : Nat :=
  if mhKind h = 1 then
    (if mhHash h = 1 then mix64 ((i ^^^ mhSeed h) % 2 ^ 64) % mhRows h
     else i * mhSeed h % 2 ^ 64 / 2 ^ (64 - Nat.log2 (mhRows h)))
  else i

/-- Whether an index is invalid (R161). -/
def emInvalid (h : Bytes) (i : Nat) : Bool :=
  i == 2 ^ 64 - 1 || (mhLimit h != 0 && decide (mhLimit h ≤ i)) || (mhKind h == 0 && decide (mhRows h ≤ i))

/-- A stored row of a DIRECT or HASHED table: elements, scales from the table's bran object, whether lost (R83, R159). -/
def emStored (s : State) (t e j : Nat) : Bytes × Bytes × Bool :=
  let h := emHeader s t e
  let rb := rowBytes (mhFormat h) (mhElems h)
  let sb := scaleBytes (mhFormat h) (mhElems h)
  let st := swapAt s t e
  match tableVer s t j e with
  | some v => (slice v 0 rb, slice v rb sb, false)
  | none => (objBytes s st (64 + j * rb) rb, rowBran s t j e sb,
      objPoisoned s st (64 + j * rb) rb || (sb != 0 && objPoisoned s (branOf s st) (j * sb) sb))

/-- The default row: the one-row object's, or a row of zeros with scales 1.0 (R161). -/
def emDefault (s : State) (h : Bytes) : Bytes × Bytes × Bool :=
  let rb := rowBytes (mhFormat h) (mhElems h)
  let sb := scaleBytes (mhFormat h) (mhElems h)
  if mhDefault h = 0 then
    (packBits (elemBits (fwElem (mhFormat h))) (List.replicate (mhElems h) (fwZero (mhFormat h))),
     packBits (if fwScale (mhFormat h) = 2 then 16 else 8)
       (List.replicate (scalesPerRow (mhFormat h) (mhElems h)) (if fwScale (mhFormat h) = 2 then 0x3C00 else 0x7F)), false)
  else (objBytes s (mhDefault h) 0 rb, objBytes s (mhDefault h) rb sb, objPoisoned s (mhDefault h) 0 (rb + sb))

/-- The component rows of an index of a COMPOSED table: (table, row) each (R160). -/
def emParts (s : State) (h : Bytes) (e i : Nat) : (Nat × Nat) × Nat × Nat :=
  let ra := max (mhRows (emHeader s (mhA h) e)) 1
  ((mhA h, i % ra), mhB h, i / ra % max (mhRows (emHeader s (mhB h) e)) 1)

/-- The elements of a row that MIX or MULSHIFT composes of its component rows, before their rounding (R160). -/
def emMix (s : State) (h : Bytes) (e i : Nat) : List Num :=
  let (a, b) := emParts s h e i
  let ra := emStored s a.1 e a.2
  let rb := emStored s b.1 e b.2
  List.zipWith (if mhOp h = 0 then numAdd else numMul) (decodeRow (mhFormat (emHeader s a.1 e)) (mhElems h) ra.1 ra.2.1)
    (decodeRow (mhFormat (emHeader s b.1 e)) (mhElems h) rb.1 rb.2.1)

/-- Whether an index of a table is converted as its row is composed (R160). -/
def emConverts (h : Bytes) (i : Nat) : Bool := mhKind h == 2 && mhOp h != 2 && !emInvalid h i

/-- A composed row in the table's format: bytes, scales and the conversions made. -/
def emRound (h : Bytes) (v : List Num) : Bytes × Bytes × List (Nat × Bool × Bool × Num) :=
  convertRow (mhFormat h) (mhElems h) none (fun _ => .nearest) v

/-- The row an index reads: elements, scales, whether it is the default row, whether lost (R160, R161). -/
def emRead (s : State) (t e i : Nat) : Bytes × Bytes × Bool × Bool :=
  let h := emHeader s t e
  if emInvalid h i then let r := emDefault s h; (r.1, r.2.1, true, r.2.2)
  else if mhKind h = 2 then
    let (a, b) := emParts s h e i
    let ra := emStored s a.1 e a.2
    let rb := emStored s b.1 e b.2
    let bad := ra.2.2 || rb.2.2
    if mhOp h = 2 then (ra.1 ++ rb.1, ra.2.1 ++ rb.2.1, false, bad)
    else
      let c := emRound h (emMix s h e i)
      (c.1, c.2.1, false, bad)
  else let r := emStored s t e (emRow h i); (r.1, r.2.1, false, r.2.2)

/-- One bag's output (R163) from (index, weight) pairs: bytes padded to 64, default rows read, whether lost. -/
def bagOut (s : State) (t e combine : Nat) (ix : List (Nat × Nat)) : Bytes × Nat × Bool :=
  let h := emHeader s t e
  let rows := ix.map fun p => (emRead s t e p.1, p.2)
  let dflt := (rows.filter fun r => r.1.2.2.1).length
  let bad := rows.any fun r => r.1.2.2.2
  let out :=
    if combine = 0 then rows.flatMap fun r => r.1.1 ++ r.1.2.1
    else
      let vs := rows.map fun r =>
        let x := (decodeRow (mhFormat h) (mhElems h) r.1.1 r.1.2.1).map f32
        if combine = 2 then x.map fun y => fMul y r.2 else x
      let sum := match vs with
        | [] => List.replicate (mhElems h) 0
        | v :: vs => vs.foldl (List.zipWith fAdd) v
      let o := if combine = 3 && !ix.isEmpty then sum.map fun x => f32 (numDiv (v32 x) (numOf (ix.length : Nat))) else sum
      o.flatMap (toLe 4)
  (slice out 0 (roundUp out.length 64), dflt, bad)

/-- Index block layout (R162): offset of the indices, of the weights, and the total, for n indices. -/
def indexLayout (bags n : Nat) (weights : Bool) : Nat × Nat × Nat :=
  let a := roundUp (4 * (bags + 1)) 64
  let b := a + (if weights then roundUp (8 * n) 64 else 8 * n)
  (a, b, if weights then b + 4 * n else b)

/-- The offsets of an index block. -/
def bagOffsets (bags : Nat) (b : Bytes) : List Nat := (List.range (bags + 1)).map fun j => fld b (4 * j) 4

/-- The bags of an index block: (index, weight) pairs each (R162). -/
def bagsOf (bags : Nat) (weights : Bool) (b : Bytes) : List (List (Nat × Nat)) :=
  let os := bagOffsets bags b
  let n := os.getLastD 0
  let (ia, wa, _) := indexLayout bags n weights
  (List.range bags).map fun j =>
    let lo := os.getD j 0
    (List.range (os.getD (j + 1) 0 - lo)).map fun i =>
      (fld b (ia + 8 * (lo + i)) 8, if weights then fld b (wa + 4 * (lo + i)) 4 else one32)

/-! Memory layers (R166, R167). -/

/-- The format words of the queries and rows of a key table (R44, R71). -/
def keyWords (s : State) (stage : Bytes) (keys : Nat) : Nat × Nat :=
  (objFormat s keys / 256 * 256 + byteAt stage 0x28, objFormat s keys / 256 * 256 + byteAt stage 0x29)

/-- Whether a key table's scores are FP32 (R114). -/
def keyFp (s : State) (stage : Bytes) (keys : Nat) : Bool :=
  metricFp (byteAt stage 0x2A) (keyWords s stage keys).1 (keyWords s stage keys).2

/-- Scores of a query against rows of a key table: candidates of the CENTROID row (R115, R166). -/
def keyHits (s : State) (stage : Bytes) (keys e : Nat) (q : Bytes) (js : List Nat) : List Hit :=
  let n := fld stage 0x2C 2
  let (fq, fk) := keyWords s stage keys
  let qb := rowBytes fq n
  js.map fun j =>
    { payload := j, node := genNode (gen s), pos := j, tile := rowTile stage (fld stage 0x30 4) j,
      score := scoreBits (rowScore (sgSparse stage) (byteAt stage 0x2A) fq fk n (q.take qb) (slice q qb (scaleBytes fq n))
        (scoredRow s (sgSparse stage) keys fk n j e)) }

/-- Whether a row of a key table, or its scales, is lost. -/
def keyLost (s : State) (stage : Bytes) (keys e : Nat) : Bool :=
  let n := fld stage 0x2C 2
  let fk := (keyWords s stage keys).2
  let st := swapAt s keys e
  let row := if sgSparse stage then keptBytes fk n + metaBytes n else rowBytes fk n
  objPoisoned s st 0 (fld stage 0x30 4 * row) || (fwScale fk != 0 && objPoisoned s (branOf s st) 0 (fld stage 0x30 4 * scaleBytes fk n))

/-- The selection of the best keys for a query by the WINNOW stage of a memory layer: k of a row, or of each of its partitions (R44, R166). -/
def keyPart (s : State) (stage wn : Bytes) (keys e k cls : Nat) (q : Bytes) : Part :=
  let fp := keyFp s stage keys
  let ls := partLists false fp (byteAt wn 0x2A) k (byteAt wn 0x29) cls (keyHits s stage keys e q (List.range (fld stage 0x30 4)))
  if byteAt wn 0x29 ≤ 1 then ls.headD {} else joinParts fp ls

/-- Bytes of one query row in its 64-byte-aligned place. -/
def keyQueryBytes (s : State) (stage : Bytes) (keys : Nat) : Nat :=
  let fq := (keyWords s stage keys).1
  roundUp (rowBytes fq (fld stage 0x2C 2) + scaleBytes fq (fld stage 0x2C 2)) 64

end Sys2Proof.Machine
end

