-- ==== Sys2Proof/Machine/Space.lean ====
section
/-! DEFINITION. Tier objects (chapter 09): handles, pools, shares, eviction, table-bound objects, reads and writes of bytes. -/

namespace Sys2Proof.Machine
open Sys2Proof

/-! Flash regions (R254 to R256). -/

/-- Channels in service. -/
def chansUp (s : State) : List (Nat × Chan) := s.fls.chans.filter fun c => c.2.st == .inService
/-- Bulk bits per cell of a LUN, by the media table it matches. -/
def lunBits (s : State) (l : Lun) : Nat := max 1 (byteAt ((l.table.bind fun i => s.fls.tables[i]?).getD []) 7)
/-- LUNs in use of the channels in service. -/
def lunsUp (s : State) : List Lun :=
  (chansUp s).flatMap fun c => (c.2.luns.map Prod.snd).filter fun l => l.admitted && !l.retired
/-- Bytes of good blocks of a LUN in bulk mode. -/
def lunGood (l : Lun) : Nat := if l.blocks = 0 then l.bytes else l.bytes / l.blocks * (l.blocks - l.retiredBlocks)
/-- Raw capacity: bulk-mode capacity of all good blocks (R256). -/
def rawCap (s : State) : Nat := ((lunsUp s).map lunGood).sum
/-- Bytes the SLC region holds (R256). -/
def slcCap (s : State) : Nat := ((lunsUp s).map fun l => lunGood l * s.fls.slcPct / 100 / lunBits s l).sum
/-- The journal's reserve: journal area and flush reserve, which a retired channel has passed to the others (R256, R275). -/
def journalReserve (s : State) : Nat := s.fls.journalGb * 10 ^ 9 + (s.fls.chans.map fun c => c.2.reserve).sum
/-- The T2 pool; nothing before the first format (R256). -/
def t2Cap (s : State) : Nat := if s.fls.formatted then slcCap s - journalReserve s else 0
/-- The T3 pool (R256). -/
def t3Cap (s : State) : Nat :=
  if s.fls.formatted then (rawCap s - rawCap s * s.fls.slcPct / 100) * (100 - s.fls.sparePct) / 100 else 0

/-! Pools and shares (R229, R240). -/

/-- The recorder ring's size (R34). -/
def ringBytes : Nat := 64 * 2 ^ 30
/-- The T1 pool: 512 GiB less the object table and the version pool (R229), less the recorder ring while the generation
in force is Trace (R34). -/
def t1Cap (g : Gen) : Nat := 512 * 2 ^ 30 - 2 ^ 30 - genPool g - (if genProfile g = 3 then ringBytes else 0)
/-- Stage buffers on a tile under a generation (R65). -/
def stageBytes (d : Bytes) (i : Nat) : Nat :=
  let e := shStage d i
  (shPreds d i).length * sgSlots e * fld e 0x0C 4 + 2 * fld e 0x10 4 + sgLanding e + sgBran e
/-- Sum of the stage buffers on a tile. -/
def tileBuffers (g : Gen) (tile : Nat) : Nat :=
  ((genSheaves g).map fun d =>
    ((List.range (shStages d)).map fun i => if (sgTiles (shStage d i)).contains tile then stageBytes d i else 0).sum).sum
/-- The recorder ring a generation that enters Trace takes from T1 (R34). -/
def ringNeed (s : State) (g : Gen) : Nat := if genProfile g = 3 && genProfile (gen s) != 3 then ringBytes else 0
/-- A pool's capacity; T0 is one tile's (R229). What a generation on its way needs is kept free for it (R34, R38). -/
def poolCap (s : State) (tier tile : Nat) : Nat :=
  match tier with
  | 0 => 720896 - max (tileBuffers (gen s) tile) ((s.stew.pendGen.map fun g => tileBuffers g tile).getD 0)
  | 1 => t1Cap (gen s) - (s.stew.pendGen.map (ringNeed s)).getD 0
  | 2 => t2Cap s
  | 3 => t3Cap s
  | _ => ((genT4 (gen s)).map fun w => w.2.2).sum

/-- What a home is charged: a CHECKPOINT object its stream's largest stored size (R282). -/
def homeCharge (o : ObjRec) : Nat :=
  if o.checkpoint then roundUp (o.size + 3 * ceilDiv o.size 512 + 4096) 4096 else o.size
/-- What an object takes up: (tier, bytes, place) of its home, its upper copy from PROMOTING to release, a copy being made, an old
location and the home it is being rehomed to. The node's SYSTEM objects in T1 stand outside the pool's capacity (R229). -/
def objPlaces (o : ObjRec) : List (Nat × Nat × Nat) :=
  if o.node && hClass o.handle == 5 && o.home == 1 then []
  else [(o.home, homeCharge o, homeCode o)] ++ (if hasUpper o then [(o.upper, o.size, o.placeUp)] else []) ++
    (if o.target != 255 then [(o.target, o.size, o.placeNext)] else []) ++
    (o.old.map fun t => (t, o.size, o.placeOld)).toList ++ (o.rehome.map fun r => (r.tier, homeCharge o, r.place)).toList
/-- Bytes an object takes in a tier. -/
def bytesIn (o : ObjRec) (tier : Nat) : Nat := ((objPlaces o).map fun p => if p.1 = tier then p.2.1 else 0).sum
/-- Of those, non-evictable: homes, and upper copies with host pins (R240). -/
def fixedIn (o : ObjRec) (tier : Nat) : Nat :=
  (if o.home = tier then homeCharge o else 0) +
  (if o.st != .absent && o.upper == tier && o.hostPins != 0 then o.size else 0) +
  (match o.rehome with | some r => if r.tier = tier then homeCharge o else 0 | none => 0)
/-- Whether an object counts in its tenant's shares: SYSTEM objects do not (R240). -/
def inShares (o : ObjRec) : Bool := hClass o.handle != 5
/-- Objects of the table. -/
def objList (s : State) : List (Nat × ObjRec) := s.obj.recs
/-- Bytes a tenant holds in a tier. -/
def tenantIn (s : State) (t tier : Nat) : Nat :=
  ((objList s).map fun p => if hTenant p.2.handle = t && inShares p.2 then bytesIn p.2 tier else 0).sum
/-- Non-evictable bytes a tenant holds in a tier. -/
def tenantFixed (s : State) (t tier : Nat) : Nat :=
  ((objList s).map fun p => if hTenant p.2.handle = t && inShares p.2 then fixedIn p.2 tier else 0).sum
/-- Whether a copy in a tier lies in the place asked about: a tile of T0, one pseudo-channel of T1, or anywhere. -/
def atPlace (tier : Nat) (place : Option Nat) (code : Nat) : Bool :=
  match place with
  | none => true
  | some p => if tier = 1 then code == 32768 + p else code % 512 == p
/-- Bytes used of a pool; in T1 the fabric receive pool is among them (R240, R355). -/
def poolUsed (s : State) (tier : Nat) (place : Option Nat) : Nat :=
  ((objList s).map fun p => ((objPlaces p.2).map fun l => if l.1 = tier && atPlace tier place l.2.2 then l.2.1 else 0).sum).sum +
    if tier = 1 && place.isNone then genRxPool (gen s) else 0

/-- Bytes in use in a pseudo-channel: its channel-local copies, and the units of striped ones that lie there (R234). -/
def channelUsed (s : State) (pc : Nat) : Nat :=
  ((objList s).map fun p => ((objPlaces p.2).map fun l =>
    if l.1 != 1 then 0 else if codeLocal l.2.2 then (if l.2.2 % 512 = pc then l.2.1 else 0) else stripedIn l.2.1 pc).sum).sum
/-- The pseudo-channel with the most free space, lowest ID on a tie (R234). -/
def roomiest (s : State) : Nat :=
  (List.range 512).foldl (fun b i => if channelUsed s i < channelUsed s b then i else b) 0

/-- The place that a place field asks for in a tier: 0x1FF is settled now (R234, R236). -/
def placeCode (s : State) (tier place : Nat) : Nat :=
  if tier = 0 then place % 512
  else if tier = 1 && codeLocal place then 32768 + if place % 512 = 511 then roomiest s else place % 512
  else 0

/-! Eviction (R241, R242). -/

/-- Whether the evictor may take a copy in a tier: RESIDENT, unpinned, not being moved (R237, R242); for one pseudo-channel only a copy
that is channel-local there (R234). -/
def mayEvict (tier : Nat) (place : Option Nat) (o : ObjRec) : Bool :=
  o.st == .resident && o.upper == tier && o.pinsUpper == 0 && o.hostPins == 0 && o.target == 255 && atPlace tier place o.placeUp

/-- Candidates in the evictor's order: last_touch, then index (R242). -/
def evictOrder (l : List (Nat × ObjRec)) : List (Nat × ObjRec) := l.foldr ins []
where
  ins (x : Nat × ObjRec) : List (Nat × ObjRec) → List (Nat × ObjRec)
    | [] => [x]
    | y :: ys => if x.2.lastTouch ≤ y.2.lastTouch then x :: y :: ys else y :: ins x ys

/-- The first candidates whose sizes reach a need. -/
def takeNeed : Nat → List (Nat × ObjRec) → List (Nat × ObjRec)
  | _, [] => []
  | n, c :: cs => if n = 0 then [] else c :: takeNeed (n - c.2.size) cs

/-- A copy released: its object ABSENT at home (R238). -/
def dropUpper (o : ObjRec) : ObjRec :=
  { o with
    upper := 255, st := .absent, dirty := false, homeMem := [], pages := [], dirtySince := none, target := 255, placeUp := 0
    placeNext := 0, cleaning := [] }

/-- The source blocks of a stored stream that a 4 KiB page of it holds (R288): every one for a page of header, table or
index. -/
def streamBlocks (b : Bytes) (size page : Nat) : List Nat :=
  let n := fld b 0x18 4
  let ix := fld b 0x28 8
  let ent (i : Nat) : Nat := fld b (ix + 8 * i) 8
  let hit := (List.range n).filter fun i => decide (ent i % 2 ^ 44 / 4096 ≤ page) &&
    decide (page ≤ (ent i % 2 ^ 44 + ent i / 2 ^ 44 % 2 ^ 13 - 1) / 4096)
  let all := decide (4096 * page < ent 0 % 2 ^ 44) || decide (ix ≤ 4096 * page + 4095)
  if all then List.range (ceilDiv size 4096) else hit

/-- The 64-byte blocks of an object that its home copy has lost: those of its poisoned units (R263). -/
def homePoison (s : State) (i : Nat) : List Nat :=
  let bad := (s.fls.units.filter fun u => u.2.obj == i && !u.2.upper && u.2.poisoned).map fun u => u.2.upage
  let pages := match tabGet s.fls.ckpt i, tabGet s.obj.recs i with
    | some b, some o => bad.flatMap (streamBlocks b o.size)
    | _, _ => bad
  (nub pages).flatMap fun p => (List.range 64).map (64 * p + ·)

/-- A clean copy dropped: readers find the home again, with what is lost there. -/
def dropClean (i : Nat) (s : State) : State :=
  modObj i (fun o => { dropUpper o with poison := if 2 ≤ o.home then homePoison s i else o.poison }) s

/-- Evicts a copy: a clean one is released, a dirty one queued for write-back (R238). -/
def evictCopy (i : Nat) (s : State) : State :=
  if ((tabGet s.obj.recs i).map ObjRec.dirty).getD false then modObj i (fun o => { o with st := .evicting }) s else dropClean i s

/-- The evictor's choice of a copy, an ordering token in Trace (R242, R398 class 0x10). -/
def evictChoice (tier i : Nat) (s : State) : State := token 0x10 36 tier 8 i (evictCopy i s)

/-- A request for n bytes in a tier by a tenant (R241): refused, or granted with the evictions it takes. SYSTEM requests
are outside shares. A tenant's limit in T0 takes its copies on any tile. -/
def requestSpace (t tier n : Nat) (fixed : Bool) (system : Bool) (tile : Nat) (pc : Option Nat) (s : State) :
    Option State :=
  let place := if tier = 0 then some tile else pc
  let (share, limit) := genShare (gen s) t tier
  let cap := if pc.isSome then min (poolCap s tier tile) (2 ^ 30) else poolCap s tier tile
  let used := match pc with | some p => channelUsed s p | none => poolUsed s tier place
  if !system && fixed && decide (share < tenantFixed s t tier + n) then none
  else
    let needT := if system then 0 else tenantIn s t tier + n - limit
    let needP := max (used + n - cap) (poolUsed s tier (if tier = 0 then some tile else none) + n - poolCap s tier tile)
    let cand := evictOrder ((objList s).filter fun p => mayEvict tier place p.2)
    let own := evictOrder ((objList s).filter fun p =>
      mayEvict tier (if tier = 0 then none else place) p.2 && hTenant p.2.handle == t)
    let first := takeNeed needT own
    let gotT := (first.map fun p => p.2.size).sum
    let rest := cand.filter fun p => !first.any fun q => q.1 == p.1
    let above (x : Nat) : Bool := decide ((genShare (gen s) x tier).1 < tenantIn s x tier)
    let others := rest.filter fun p => hTenant p.2.handle != t && above (hTenant p.2.handle)
    let mine := if above t then rest.filter fun p => hTenant p.2.handle == t else []
    let gotF := (first.map fun p => if atPlace tier place p.2.placeUp then p.2.size else 0).sum
    let second := takeNeed (needP - gotF) (others ++ mine)
    let gotP := gotF + (second.map fun p => p.2.size).sum
    if gotT < needT || gotP < needP then none
    else some ((first ++ second).foldl (fun s p => evictChoice tier p.1 s) s)

/-! Meters (R250). -/

/-- Byte-time up to now entered in the meters: bytes × ns of every home and of every upper copy from PROMOTING to its release, by tenant
and tier: the copy itself, one being made, one being released. -/
def accrue (s : State) : State :=
  let dt := now s - s.obj.accrued
  if dt = 0 then s
  else
    let s := (objList s).foldl (fun s p =>
      (List.range 5).foldl (fun s x =>
        let o := p.2
        let n := b2n (o.home == x) + b2n (o.st != .absent && o.upper == x) + b2n (o.target == x) + b2n (o.old == some x)
        if n * o.size = 0 then s else addMeter (hTenant o.handle) (1 + x) (n * o.size * dt) s) s) s
    s.onObj fun o => { o with accrued := now s }

/-- A flash or fabric transfer of an object's bytes in its owner's meters: 6 flash read, 7 flash written, 8 fabric sent,
9 fabric received (R250). -/
def meterMove (o : ObjRec) (tier n : Nat) (write : Bool) (s : State) : State :=
  let t := hTenant o.handle
  if tier = 2 || tier = 3 then addMeter t (if write then 7 else 6) n s
  else if tier = 4 then addMeter t (if write then 8 else 9) n s
  else s

/-! Handles and table-bound objects. -/

/-- Whether a handle is stale (R248). -/
def staleHandle (s : State) (h : Nat) : Bool :=
  hClass h == 0 || decide (5 < hClass h) ||
    match objOf s h with
    | some o => o.st == .freeing
    | none => true

/-- A handle checked for a tenant's command: BUF_STALE, BUF_NOT_OWNER, or none (R248). -/
def handleStatus (s : State) (t h : Nat) : Option Nat :=
  if staleHandle s h then some St.bufStale else if hTenant h = t then none else some St.bufNotOwner

/-- Kinds of tables, read off their headers, whose layouts exclude one another (log entry 22): 1 expert table, 2
embedding table, 3 cache descriptor, 0 none. -/
def headerKind (h : Bytes) : Nat :=
  if fld h 0x20 4 != 0 then 2
  else if byteAt h 2 != 0 && byteAt h 0 != 0 then 3
  else if fld h 0 4 != 0 then 1
  else 0

/-- Kind of the table behind a handle now. -/
def tableKind (s : State) (h : Nat) : Nat := headerKind (tableRow s h headerIndex s.eng.epoch 0 64)

/-- Whether a handle is the directory of a collection in any version held. -/
def isDirectory (s : State) (h : Nat) : Bool := s.idx.vers.any fun v => v.table == 0 && v.data.any fun d => coDirectory d == h

/-- Handles a versioned entry names (R202): collection descriptors, directory entries, expert descriptors, headers. -/
def entryNames (s : State) (table index : Nat) (d : Bytes) : List Nat :=
  if table = 0 then [coCentroids d, coDirectory d, coMap d]
  else if index = headerIndex then
    (if headerKind d = 1 then [xhStaging d] else if headerKind d = 2 then [mhA d, mhB d, mhDefault d] else [])
  else if isDirectory s table then [deList d]
  else if tableKind s table = 1 then [xdWeights d, xdBran d]
  else []

/-- Handles named by entries that stand in a table object's bytes and not in a version: entry size and first entry by
kind. -/
def bytesNames (s : State) (h : Nat) (o : ObjRec) : List Nat :=
  if isDirectory s h then (nub (o.mem.map fun c => c.1 / 16)).map fun i => fld (memRead o.mem (16 * i) 8) 0 8
  else if hClass h = 2 then
    let hd := memRead o.mem 0 64
    let k := headerKind hd
    entryNames s h headerIndex hd ++
      (if k = 1 then (nub ((o.mem.filter fun c => 64 ≤ c.1).map fun c => c.1 / 64)).flatMap fun i =>
        let d := memRead o.mem (64 * i) 16
        [fld d 0 8, fld d 8 8]
      else [])
  else []

/-- Whether an object is table-bound: named in any version still held, or an extent of a list object held (R202). -/
def tableBound (s : State) (h : Nat) : Bool :=
  s.idx.vers.any (fun v => v.data.any fun d => (entryNames s v.table v.index d).contains h) ||
  (objList s).any (fun p => (bytesNames s p.2.handle p.2).contains h) ||
  s.idx.lists.any (fun l => (l.2.exactH == h || l.2.coarseH == h) &&
    s.idx.vers.any fun v => v.table == 0 && v.index == l.2.coll && v.data.isSome) ||
  s.idx.swaps.any fun w => w.2.1 == h

/-- Whether an object's bytes change through tables alone (R202): it is table-bound, an embedding table with its rows, or the bran
object of such an object (log entry 105). -/
def dataBound (s : State) (h : Nat) : Bool :=
  let own (h : Nat) : Bool := tableBound s h || (hClass h == 2 && tableKind s h == 2)
  own h || (objList s).any fun p => fwScale p.2.format != 0 && branOf s p.2.handle == h && own p.2.handle

/-- Whether an object is the weights or bran of an expert (R145). -/
def isExpertData (s : State) (h : Nat) : Bool :=
  s.idx.vers.any (fun v => v.index != headerIndex && v.table != 0 && tableKind s v.table == 1 &&
    v.data.any fun d => xdWeights d == h || xdBran d == h) ||
  (objList s).any fun p => hClass p.2.handle == 2 && headerKind (memRead p.2.mem 0 64) == 1 &&
    (bytesNames s p.2.handle p.2).contains h && xhStaging (memRead p.2.mem 0 64) != h

/-- Whether a class allows a tier as home (R231, R232). -/
def classHome (c tier : Nat) : Bool :=
  decide (1 ≤ tier) && decide (tier ≤ 4) &&
    match c with
    | 1 => true
    | 2 | 3 => decide (tier ≤ 3)
    | 4 => tier == 1
    | _ => decide (tier ≤ 2)

/-- Whether a class allows an upper copy in a tier: what R232 says of STAGING and SYSTEM limits their homes alone. -/
def classUpper (c tier : Nat) : Bool :=
  match c with
  | 1 => decide (tier ≤ 3)
  | 2 | 3 => decide (1 ≤ tier) && decide (tier ≤ 3)
  | 4 => tier == 0
  | _ => decide (tier ≤ 1)

/-- The tiers R90 allows an index object or a centroid table, by what a collection or a list names it for: extents T2 and T3, lists and
location maps T1 and T2, directories and centroid tables T1. -/
def indexTiers (s : State) (h : Nat) : Option (List Nat) :=
  let named (f : Bytes → Nat) : Bool := s.idx.vers.any fun v => v.table == 0 && v.data.any fun d => f d == h
  if named coCentroids || named coDirectory then some [1]
  else if named coMap then some [1, 2]
  else if s.idx.lists.any fun l => l.2.exactH == h || l.2.coarseH == h then some [2, 3]
  else if (tabGet s.idx.lists h).isSome || s.idx.vers.any fun v => isDirectory s v.table && v.data.any fun d => deList d == h then some [1, 2]
  else none

/-- Whether an object is RESIDENT in a tier that R90 allows it. -/
def tierOk (s : State) (h : Nat) (ts : List Nat) : Bool := ((objOf s h).map fun o => ts.any (residentIn o)).getD true

/-- State codes of the object header (R233). -/
def upCode : UpState → Nat
  | .absent => 0 | .promoting => 1 | .resident => 2 | .evicting => 3 | .writingBack => 4 | .freeing => 5

/-- All pins on an object: by location, and the host's (R239). -/
def pinsAll (o : ObjRec) : Nat := o.pinsHome + o.pinsUpper + o.pinsOld + o.hostPins

/-- The object header (R233). -/
def objHeader (s : State) (o : ObjRec) : Bytes :=
  toLe 8 o.handle ++ toLe 8 o.size ++ toLe 1 o.home ++ toLe 1 o.upper ++ toLe 1 (upCode o.st) ++ [0] ++ toLe 4 o.format ++
    toLe 2 (b2n o.dirty + 2 * b2n o.checkpoint + 4 * b2n o.protected_ + 8 * b2n (tableBound s o.handle) +
      16 * b2n (shownLocal o)) ++
    toLe 2 (shownPlace o) ++ toLe 4 (pinsAll o) ++ toLe 8 o.lastTouch ++ toLe 8 o.writtenEpoch ++ toLe 2 o.hostPins ++ zeros 14

/-! Bytes. -/

/-- Blocks of 64 bytes that a write covers whole: good data there clears poison (R373). -/
def coversBlock (off n b : Nat) : Bool := decide (off ≤ 64 * b) && decide (64 * b + 64 ≤ off + n)

/-- Bytes written to an object as R243 applies them: the upper copy of a persistent object becomes DIRTY with its pages;
lost blocks of the data are written poisoned. -/
def writeObj (i off : Nat) (b : Bytes) (lost : List Nat) (s : State) : State :=
  modObj i (fun o =>
    let up := o.st == .resident || o.st == .evicting
    let persist := decide (2 ≤ o.home)
    let o1 := if up && persist && !o.dirty then { o with homeMem := o.mem, dirtySince := some (now s) } else o
    let ps := (List.range (ceilDiv (off % 4096 + b.length) 4096)).map (off / 4096 + ·)
    { o1 with
      mem := memWrite o.mem off b, lastTouch := now s,
      dirty := o.dirty || (up && (persist || o.upper == 0)),
      pages := if up && persist then nub (o.pages ++ ps) else o.pages,
      poison := nub ((o.poison.filter fun p => !coversBlock off b.length p) ++ lost),
      writtenEpoch := o1.writtenEpoch }) s

/-- Blocks of a range of an object that hold lost data. -/
def lostBlocks (s : State) (h off n : Nat) : List Nat :=
  match objOf s h with
  | some o => o.poison.filter fun p => decide (off / 64 ≤ p) && decide (p ≤ (off + n - 1) / 64)
  | none => []

/-- A new object's index and generation (R232): indices never issued first, then freed ones in the order freed. -/
def nextIndex (s : State) : Option (Nat × Nat) :=
  let g (i : Nat) : Nat := let x := (tabGetD s.obj.gens i 0 + 1) % 65536; if x = 0 then 1 else x
  if s.obj.top < 2 ^ 24 then some (s.obj.top, g s.obj.top)
  else s.obj.freed.head?.map fun i => (i, g i)

/-- An object put into the object table under the next index (R232): its handle and the state. -/
def addObject (t c : Nat) (o : ObjRec) (s : State) : Option (Nat × State) :=
  (nextIndex s).map fun p =>
    let h := mkHandle t c p.1 p.2
    (h, s.onObj fun x => { x with
      recs := tabSet x.recs p.1 { o with handle := h }, gens := tabSet x.gens p.1 p.2,
      top := max x.top (p.1 + 1), freed := x.freed.filter (· != p.1) })

/-- An object's entry leaves the table; its index joins the free ones (R232, R248). -/
def removeObject (i : Nat) (s : State) : State :=
  (accrue s).onObj fun x => { x with recs := tabDel x.recs i, freed := x.freed ++ [i] }

/-- A header change of a persistent object enters the flush set, or waits for the object table's pages while the bound
or a low HOLDUP_OK asks for it, which is counted (R245, R438). -/
def headerChange (home : Nat) (s : State) : State :=
  if home ≤ 1 then s
  else if !s.aon.holdupOk || decide (256 * 2 ^ 20 ≤ s.obj.dirtyHdr + 64) then
    s.onObj fun o => { o with metaWaits := o.metaWaits + 1, dirtyHdr := if s.aon.holdupOk then 64 else 0 }
  else s.onObj fun o => { o with dirtyHdr := o.dirtyHdr + 64 }

/-- A staging object in T1 for a payload (R203): a request of R241 by the tenant for non-evictable bytes. -/
def takeStaging (t n : Nat) (s : State) : Option State := requestSpace t 1 n true false 0 none s

/-! Space for a generation (R34, R38). -/

/-- Bytes of a tier whose release has been decided and not yet made. -/
def releasing (s : State) (tier : Nat) (place : Option Nat) : Nat :=
  ((objList s).map fun p => if (p.2.st == .evicting || p.2.st == .writingBack) && p.2.upper == tier && atPlace tier place p.2.placeUp
    then p.2.size else 0).sum
/-- Copies of any tenant evicted by age until a need is met, or none are left (R34, R38, R242). -/
def evictFor (tier : Nat) (place : Option Nat) (need : Nat) (s : State) : State :=
  (takeNeed need (evictOrder ((objList s).filter fun p => mayEvict tier place p.2))).foldl (fun s p => evictChoice tier p.1 s) s
/-- Tiles that hold, or are about to hold, a T0 copy. -/
def t0Tiles (s : State) : List Nat :=
  nub ((objList s).flatMap fun p => ((objPlaces p.2).filter fun l => l.1 == 0).map fun l => l.2.2 % 512)
/-- Whether T1 can give the recorder ring from free space and the copies the evictor may take (R34). -/
def ringThere (s : State) (g : Gen) : Bool :=
  decide (poolUsed s 1 none + ringNeed s g ≤ t1Cap (gen s) +
    (((objList s).filter fun p => mayEvict 1 none p.2).map fun p => p.2.size).sum) || ringNeed s g == 0
/-- The space a generation needs made free: copies held in T1 for the ring, in T0 for stage buffers (R34, R38). -/
def genRoom (g : Gen) (s : State) : State :=
  let s := if ringNeed s g = 0 then s
    else evictFor 1 none (poolUsed s 1 none + ringNeed s g - releasing s 1 none - t1Cap (gen s)) s
  (t0Tiles s).foldl (fun s t =>
    evictFor 0 (some t) (poolUsed s 0 (some t) + tileBuffers g t - releasing s 0 (some t) - 720896) s) s
/-- Whether that space is free. -/
def genFits (s : State) (g : Gen) : Bool :=
  (ringNeed s g == 0 || decide (poolUsed s 1 none + ringNeed s g ≤ t1Cap (gen s))) &&
    (t0Tiles s).all fun t => decide (poolUsed s 0 (some t) + tileBuffers g t ≤ 720896)

/-! Eviction cancelled (R238, R242). -/

/-- A promotion that can no longer be given its space ends: its MOVEs complete with INSUFFICIENT_CAPACITY (R242). -/
def failPromotion (i : Nat) (s : State) : State :=
  match tabGet s.obj.recs i with
  | none => s
  | some o =>
    o.waiters.foldl (fun s w => finishCmd w.cmd { status := St.insufficientCapacity } s)
      (modObj i (fun o => { dropUpper o with waiters := [] }) s)

/-- Bytes by which a pool, a tile or a pseudo-channel is over its capacity, those not counted whose release has been decided. -/
def excessAt (s : State) (tier code : Nat) : Nat :=
  if tier = 1 && codeLocal code then channelUsed s (code % 512) - releasing s 1 (some (code % 512)) - 2 ^ 30
  else
    let place := if tier = 0 then some (code % 512) else none
    poolUsed s tier place - releasing s tier place - poolCap s tier (code % 512)

/-- The evictor takes further copies than that of object i for an excess; when too few remain, the promotion that the space was for
ends (R242). -/
def topUpAt (i tier code : Nat) (s : State) : State :=
  let place := if tier = 0 || (tier == 1 && codeLocal code) then some (code % 512) else none
  let excess := excessAt s tier code
  if excess = 0 then s
  else
    let above (x : Nat) : Bool := decide ((genShare (gen s) x tier).1 < tenantIn s x tier)
    let cand := evictOrder ((objList s).filter fun p => p.1 != i && mayEvict tier place p.2 && above (hTenant p.2.handle))
    let pick := takeNeed excess cand
    let s := pick.foldl (fun s p => evictChoice tier p.1 s) s
    if excess ≤ (pick.map fun p => p.2.size).sum then s
    else match (objList s).find? fun p => p.2.st == .promoting && p.2.upper == tier && atPlace tier place p.2.placeUp with
      | some p => failPromotion p.1 s
      | none => s

/-- After the eviction of object i is cancelled the evictor takes the next candidates (R238, R242): in its pseudo-channel, and in the
pool. -/
def topUp (i tier code : Nat) (s : State) : State :=
  let s := if tier = 1 && codeLocal code then topUpAt i tier code s else s
  topUpAt i tier (if tier = 1 then 0 else code) s

/-- A promotion or a pin cancels an eviction not yet begun: the MOVEs that asked for it complete with MOVE_CANCELLED
(R236, R238). -/
def cancelEvict (i : Nat) (s : State) : State :=
  match tabGet s.obj.recs i with
  | none => s
  | some o =>
    if o.st != .evicting then s
    else
      let s := modObj i (fun o => { o with st := .resident, waiters := o.waiters.filter fun w => !w.evict }) s
      let s := (o.waiters.filter MoveW.evict).foldl (fun s w => finishCmd w.cmd { status := St.moveCancelled } s) s
      topUp i o.upper o.placeUp s

/-- A pin on an object: it cancels an eviction (R238, R239); the pin's key and the state. -/
def pinObj (i : Nat) (s : State) : Nat × State := takePin i (cancelEvict i s)

end Sys2Proof.Machine
end

