-- ==== Sys2Proof/Machine/Image.lean ====
section
/-! DEFINITION. The bytes of an object as they stand: what versions, lists and location maps hold laid out as the spec gives their
objects (R90 to R94, R142, R159, R182, R219). -/

namespace Sys2Proof.Machine
open Sys2Proof

/-- Bytes laid over a range of a larger whole, each at its offset. -/
def overlay (off : Nat) (base : Bytes) (ps : List (Nat × Bytes)) : Bytes :=
  ps.foldl (fun b p =>
    let lo := max off p.1
    let hi := min (off + base.length) (p.1 + p.2.length)
    if lo < hi then putAt b (lo - off) (slice p.2 (lo - p.1) (hi - lo)) else b) base

/-! List objects and extents. -/

/-- An entry of a segment; one nothing was appended to holds what it holds. -/
def entryAt (h : Nat) (l : IList) (p : Nat) : LEnt × Nat :=
  match l.ents[p]? with
  | some x => (x, x.delEpoch % 2 ^ 48 + b2n x.tomb * 2 ^ 63)
  | none => ({ id := Config.listSpare h 4 p, sketch := Config.listSpare h 3 p }, Config.listSpare h 5 p)

/-- A segment's five columns (R93). -/
def segmentBytes (w h : Nat) (l : IList) (seg : Nat) : Bytes :=
  let es := (List.range 1024).map fun i => entryAt h l (1024 * seg + i)
  packBits 1 (es.map fun x => b2n x.1.settled) ++ packBits (w / 2) (es.map fun x => x.1.sketch % 2 ^ (w / 2)) ++
    packBits (w / 2) (es.map fun x => x.1.sketch / 2 ^ (w / 2) % 2 ^ (w / 2)) ++ es.flatMap (fun x => toLe 8 x.1.id) ++
    es.flatMap fun x => toLe 8 x.2

/-- ring_head of a list (R92). -/
def ringHead (h : Nat) (l : IList) : Nat := (Config.listSpare h 2 0 + l.head) % 64

/-- A list's header (R92). -/
def listHeader (h : Nat) (l : IList) : Bytes :=
  let segs := ceilDiv l.ents.length 1024
  let slot (i : Nat) : Bytes :=
    let k := (ringHead h l + 64 - i) % 64
    match l.ring[k]? with
    | some r => toLe 8 r.epoch ++ toLe 4 r.len ++ toLe 4 r.chaff
    | none => toLe 16 (Config.listSpare h 1 i)
  toLe 2 l.coll ++ zeros 2 ++ toLe 4 l.list ++ toLe 4 (listLen l) ++ toLe 4 (listSettled l) ++ toLe 4 (listRecent l) ++ toLe 2 segs ++
    toLe 2 (ringHead h l) ++ toLe 8 l.exactH ++ toLe 8 l.coarseH ++ zeros 88 ++
    ((List.range 64).flatMap fun i => toLe 8 (if i < segs then Config.listSpare h 0 i else 0)) ++ (List.range 64).flatMap slot

/-- What an index object's bytes hold: a list's header and segments, the vectors of an extent, a location map's slots (R90 to
R94). -/
def indexParts (s : State) (h : Nat) : List (Nat × Bytes) :=
  let lists := s.idx.lists.flatMap fun p =>
    match collAt s p.2.coll s.eng.epoch with
    | none => []
    | some d =>
      let n := rowBytes (coFormat d) (coDims d)
      let c := rowBytes (coarseWord s d) (coCoarseDims d)
      (if p.1 = h then
        (0, listHeader h p.2) :: (List.range (ceilDiv p.2.ents.length 1024)).map fun i =>
          (1664 + i * (128 + 1024 * coWidth d / 8 + 16384), segmentBytes (coWidth d) h p.2 i)
      else []) ++
      (if p.2.exactH = h then p.2.ents.zipIdx.map fun x => (x.2 * n, slice x.1.exact 0 n) else []) ++
      (if p.2.coarseH = h then p.2.ents.zipIdx.map fun x => (x.2 * c, slice x.1.coarse 0 c) else [])
  lists ++ (s.idx.maps.filter fun m => m.1 == h).map fun m =>
    (8 * m.2.1, toLe 8 (m.2.2.1 % 2 ^ 20 + m.2.2.2.1 % 2 ^ 16 * 2 ^ 20 + m.2.2.2.2 % 2 ^ 27 * 2 ^ 36 + 2 ^ 63))

/-! Tables. -/

/-- Where a table's entry stands in its object: offset and bytes. A row's scales stand in the table's bran object (R83); a centroid row in
2:4 form, told by its length, has its metadata behind the rows (R144). -/
def entryPlace (s : State) (h i : Nat) (d : Bytes) : List (Nat × Bytes) :=
  let row (start rb : Nat) : List (Nat × Bytes) := [(start + i * rb, slice d 0 rb)]
  if i = headerIndex then [(0, d)]
  else if h = steerHandle then [(4 * i, d)]
  else if h = forwardHandle then [(32 * i, d)]
  else if isDirectory s h then [(16 * i, d)]
  else match (s.idx.vers.find? fun v => v.table == 0 && v.data.any fun d => coCentroids d == h).bind TVer.data with
    | some x =>
      let f := coarseWord s x
      let n := coCoarseDims x
      let kb := keptBytes f n
      let mb := metaBytes n
      if d.length = kb + mb + scaleBytes f n then
        (i * kb, slice d 0 kb) :: [(objSize s h / (kb + mb) * kb + i * mb, slice (d.drop kb) 0 mb)]
      else row 0 (rowBytes f n)
    | none =>
      match tableKind s h with
      | 1 => [(64 + 64 * i, d)]
      | 2 =>
        let e := emHeader s h s.eng.epoch
        row 64 (rowBytes (mhFormat e) (mhElems e))
      | 3 => [(64 + 48 * i, d)]
      | _ => []

/-- The entries of a table in force, at their places: only old versions stand elsewhere (R219). -/
def tableParts (s : State) (h : Nat) : List (Nat × Bytes) :=
  (nub ((s.idx.vers.filter fun v => v.table == h && h != 0).map TVer.index)).flatMap fun i =>
    match tableVer s h i s.eng.epoch with
    | some d => entryPlace s h i d
    | none => []

/-- The element format word and the elements of a table's rows: an embedding table's or a centroid table's. -/
def rowShape (s : State) (h : Nat) : Option (Nat × Nat) :=
  match (s.idx.vers.find? fun v => v.table == 0 && v.data.any fun d => coCentroids d == h).bind TVer.data with
  | some x => some (coarseWord s x, coCoarseDims x)
  | none => if tableKind s h = 2 then let e := emHeader s h s.eng.epoch; some (mhFormat e, mhElems e) else none

/-- The tables whose scales an object holds. -/
def branTables (s : State) (b : Nat) : List Nat :=
  (nub (s.idx.vers.map TVer.table)).filter fun t => t != 0 && branOf s (swapAt s t s.eng.epoch) == b && (rowShape s t).isSome

/-- The scales of the rows in force of the tables whose scales an object holds, at their places (R83, R219). -/
def branParts (s : State) (b : Nat) : List (Nat × Bytes) :=
  (branTables s b).flatMap fun t => (rowShape s t).elim [] fun x =>
    let sb := scaleBytes x.1 x.2
    (nub ((s.idx.vers.filter fun v => v.table == t && v.index != headerIndex).map TVer.index)).filterMap fun i =>
      (tableVer s t i s.eng.epoch).map fun d => (i * sb, d.drop (d.length - sb))

/-- Bytes of an object as readers of its bytes find them. -/
def objImage (s : State) (h off n : Nat) : Bytes :=
  let base := objBytes s (swapAt s h s.eng.epoch) off n
  let all := overlay off base (branParts s h)
  if hClass h = 1 || hClass h = 4 then all else overlay off all (indexParts s h ++ tableParts s h)

end Sys2Proof.Machine
end

