-- ==== Sys2Proof/Machine/FlashOps.lean ====
section
/-! DEFINITION. Where home bytes lie on flash: blocks, regions, free pools, the programming of logical units (R256 to R260,
R268, R269, R277). -/

namespace Sys2Proof.Machine
open Sys2Proof

/-! Block fields (R259): [4:0] channel, [6:5] chip enable, [9:7] LUN, [31:10] block within the LUN. -/

/-- Channel of a block. -/
def blkChan (b : Nat) : Nat := b % 32
/-- LUN of a block: chip enable × 8 + LUN. -/
def blkLunKey (b : Nat) : Nat := b / 32 % 4 * 8 + b / 128 % 8
/-- Block number within its LUN. -/
def blkNo (b : Nat) : Nat := b / 1024
/-- The block field of a channel, LUN key and number. -/
def blkField (ch key no : Nat) : Nat := ch + 32 * (key / 8) + 128 * (key % 8) + 1024 * no
/-- The island of a flash channel. -/
def chanIsland (ch : Nat) : Nat := 47 + ch / 4

/-- A channel, a LUN. -/
def chanOf (s : State) (ch : Nat) : Option Chan := tabGet s.fls.chans ch
def lunOf (s : State) (ch key : Nat) : Option Lun := (chanOf s ch).bind fun c => (c.luns.find? fun l => l.1 == key).map Prod.snd
/-- Changes a channel, a LUN. -/
def modChan (ch : Nat) (f : Chan → Chan) (s : State) : State := s.onFls fun x => { x with chans := tabMod x.chans ch f }
def modLun (ch key : Nat) (f : Lun → Lun) (s : State) : State :=
  modChan ch (fun c => { c with luns := c.luns.map fun l => if l.1 = key then (l.1, f l.2) else l }) s
/-- A block's program record: a free block where none is listed. -/
def blkOf (s : State) (b : Nat) : Blk := tabGetD s.fls.blks b {}
/-- Changes a program record. -/
def modBlk (b : Nat) (f : Blk → Blk) (s : State) : State :=
  s.onFls fun x => { x with blks := tabSet x.blks b (f (tabGetD x.blks b {})) }

/-- The media table of a LUN. -/
def lunTable (s : State) (l : Lun) : Bytes := (l.table.bind fun i => s.fls.tables[i]?).getD []
/-- The media table behind a block. -/
def blkTable (s : State) (b : Nat) : Bytes := ((lunOf s (blkChan b) (blkLunKey b)).map (lunTable s)).getD []
/-- Page bytes, pages of a block in a mode (1 SLC, 2 bulk), rated cycles in a mode, correction capability. -/
def mtPage (t : Bytes) : Nat := fld t 0x20 4
def mtPages (t : Bytes) (mode : Nat) : Nat := if mode = 1 then fld t 0x24 4 / max 1 (byteAt t 7) else fld t 0x24 4
def mtRated (t : Bytes) (mode : Nat) : Nat := max 1 (if mode = 1 then fld t 0x2C 4 else fld t 0x28 4)
def mtCapability (t : Bytes) : Nat := fld t 0x32 2
/-- Bytes of a block in a mode. -/
def blkBytes (s : State) (b mode : Nat) : Nat := mtPage (blkTable s b) * mtPages (blkTable s b) mode

/-! Regions and free pools (R256 to R258, R269). -/

/-- Blocks of a LUN in the SLC region: its first ones. -/
def slcBlocks (s : State) (l : Lun) : Nat := l.blocks * s.fls.slcPct / 100
/-- Whether a block lies in the SLC region. -/
def inSlc (s : State) (b : Nat) : Bool := ((lunOf s (blkChan b) (blkLunKey b)).map fun l => decide (blkNo b < slcBlocks s l)).getD false
/-- Whether a block may be allocated or counted in its pool: its LUN in use, its channel in service, itself not retired. -/
def blkInService (s : State) (b : Nat) : Bool :=
  ((chanOf s (blkChan b)).map fun c => c.st == .inService).getD false &&
    ((lunOf s (blkChan b) (blkLunKey b)).map fun l => l.admitted && !l.retired && decide (blkNo b < l.blocks)).getD false &&
    (blkOf s b).mode != 255
/-- Whether a block is free: erased and in service. -/
def blkFree (s : State) (b : Nat) : Bool := blkInService s b && (blkOf s b).mode == 0 && !(blkOf s b).eraseDue

/-- The LUNs in use with channel and key. -/
def lunPlaces (s : State) : List (Nat × Nat × Lun) :=
  (chansUp s).flatMap fun c => (c.2.luns.filter fun l => l.2.admitted && !l.2.retired).map fun l => (c.1, l.1, l.2)
/-- Block numbers of a region in a LUN: first and count. -/
def regionSpan (s : State) (slc : Bool) (l : Lun) : Nat × Nat :=
  if slc then (0, slcBlocks s l) else (slcBlocks s l, l.blocks - slcBlocks s l)
/-- Listed records of a region whose block is not free: programmed, retired or due for erase. -/
def notFree (s : State) (slc : Bool) (ch : Nat) : Nat :=
  (s.fls.blks.filter fun p => blkChan p.1 == ch && (p.2.mode != 0 || p.2.eraseDue) && inSlc s p.1 == slc).length
/-- Free blocks of a region on a channel. -/
def chanFree (s : State) (slc : Bool) (ch : Nat) : Nat :=
  (((lunPlaces s).filter fun p => p.1 == ch).map fun p => (regionSpan s slc p.2.2).2).sum - notFree s slc ch
/-- Blocks of a region, and its free ones. -/
def regionBlocks (s : State) (slc : Bool) : Nat := ((lunPlaces s).map fun p => (regionSpan s slc p.2.2).2).sum
def regionFree (s : State) (slc : Bool) : Nat := ((chansUp s).map fun c => chanFree s slc c.1).sum
/-- Blocks of a channel's flush reserve, kept erased (R258). -/
def reserveBlocks (s : State) (ch : Nat) (c : Chan) : Nat :=
  match c.luns.find? fun l => l.2.admitted && !l.2.retired with
  | some l => ceilDiv c.reserve (max 1 (blkBytes s (blkField ch l.1 0) 1))
  | none => 0
/-- Bytes of a block of the journal area: an SLC block of the first LUN in service (R256; log entry 107), 0 where there is none. -/
def journalBlock (s : State) : Nat :=
  ((s.fls.chans.findSome? fun c => if c.2.st == .inService then
    (c.2.luns.find? fun l => l.2.admitted && !l.2.retired).map fun l => blkBytes s (blkField c.1 l.1 0) 1 else none)).getD 0
/-- Blocks the journal holds, from the oldest record kept to the last written. -/
def journalHeld (s : State) : Nat :=
  match (s.eng.journal ++ s.eng.closing.reverse).getLast? with
  | some r => if journalBlock s = 0 then 0 else (s.eng.jpos - 1) / journalBlock s + 1 - r.pos / journalBlock s
  | none => 0
/-- Channels that may give up a block of a region: their flush reserve stays erased and, spread over the channels in service, the journal's
blocks are not theirs to give (R257, R258). -/
def openChans (s : State) (slc : Bool) : List Nat :=
  let held (c : Nat × Chan) : Nat := if slc then reserveBlocks s c.1 c.2 + ceilDiv (journalHeld s) (chansUp s).length else 0
  ((chansUp s).filter fun c => decide (held c < chanFree s slc c.1)).map Prod.fst

/-- The better of two candidates: lowest erase count, then lowest block field (R269). -/
def lessWorn (a b : Nat × Nat) : Nat × Nat := if a.2 < b.2 || (a.2 == b.2 && decide (a.1 < b.1)) then a else b
/-- The free block of a region to be opened next: lowest erase_count first (R269), the reserve left alone (R258). -/
def nextFree (s : State) (slc : Bool) : Option Nat :=
  let chs := openChans s slc
  let listed := (s.fls.blks.filter fun p => chs.contains (blkChan p.1) && inSlc s p.1 == slc && blkFree s p.1).map fun p =>
    (p.1, p.2.erases)
  let fresh := (lunPlaces s).filterMap fun p =>
    if !chs.contains p.1 then none
    else
      let (lo, n) := regionSpan s slc p.2.2
      ((List.range n).find? fun i => (tabGet s.fls.blks (blkField p.1 p.2.1 (lo + i))).isNone).map fun i =>
        (blkField p.1 p.2.1 (lo + i), 0)
  match listed ++ fresh with
  | [] => none
  | x :: xs => some (xs.foldl lessWorn x).1

/-- An ONFI operation issued (R253). -/
def onfi (ops : List OnfiOp) (s : State) : State := s.onFls fun x => { x with onfi := x.onfi ++ ops }
/-- The LUN of a block, as its block 0 names it. -/
def blkLun (b : Nat) : Nat := b % 1024

/-- A block is opened: the mode is selected in the part, its record is written with the time and the LUN's temperature (R253, R259,
R260). -/
def openBlk (b mode use key : Nat) (s : State) : State :=
  let t := ((lunOf s (blkChan b) (blkLunKey b)).map Lun.temp).getD 25
  onfi [.setFeatures (blkLun b) (byteAt (blkTable s b) 0x0A) (b2n (mode == 1))] (modBlk b (fun r => { r with
    mode := mode, use := use, key := key, pages := 0, tmin := t, tmax := t, progBoot := s.stew.boot, progUp := now s
    refBoot := s.stew.boot, refUp := now s, ageAtRef := 0, patBoot := s.stew.boot, patUp := now s, maxCorr := 0
    calibrated := false, relocate := false, eraseDue := false, urgent := false }) s)

/-- Bytes of the write buffer, in SLC mode (R257). -/
def bufferUsed (s : State) : Nat := ((s.fls.blks.filter fun p => p.2.use == 2 && p.2.mode == 1).map fun p => blkBytes s p.1 1).sum
/-- What the profile lets the buffer use (R257). -/
def bufferLimit (s : State) : Nat :=
  match genProfile (gen s) with
  | 0 => slcCap s
  | 2 => rawCap s * 3 / 100
  | _ => slcCap s / 2
/-- Whether Swift may take free bulk-region blocks in SLC mode: the pool stays above twice the collection threshold. -/
def swiftSpill (s : State) : Bool := genProfile (gen s) == 0 && decide (regionBlocks s false * 4 < 100 * regionFree s false)

/-- A block that takes more units of a use, mode and key. -/
def openFor (s : State) (mode use key : Nat) : Option Nat :=
  (s.fls.blks.find? fun p => p.2.mode == mode && p.2.use == use && p.2.key == key && !p.2.eraseDue && !p.2.relocate &&
    decide (p.2.pages < mtPages (blkTable s p.1) mode) && blkInService s p.1).map Prod.fst

/-- A place for a home write: an open block, or one to be opened: (block, mode, use). A T2 home goes to the SLC region, a T3
home to the write buffer, or straight to bulk where the buffer is at its limit (R257). -/
def placeFor (s : State) (tier key : Nat) : Option (Nat × Nat × Nat) :=
  if tier = 2 then ((openFor s 1 1 key) <|> nextFree s true).map fun b => (b, 1, 1)
  else
    let buffer := (openFor s 1 2 key) <|>
      (if bufferUsed s < bufferLimit s then nextFree s true <|> (if swiftSpill s then nextFree s false else none) else none)
    match buffer with
    | some b => some (b, 1, 2)
    | none => ((openFor s 2 3 key) <|> nextFree s false).map fun b => (b, 2, 3)

/-! Programming (R263, R267, R268, R277). -/

/-- The logical unit of an object's 4 KiB page, of its home or of its upper copy. -/
def unitKey (i : Nat) (upper : Bool) (page : Nat) : Nat := (i * 2 + b2n upper) * 2 ^ 28 + page

/-- Bytes programmed, in a counter of the node's endurance record and of the LUN's (R277). -/
def endurAdd (b : Nat) (f : Endur → Endur) (s : State) : State :=
  s.onFls fun x =>
    let k := b % 1024
    { x with endur := f x.endur, lunEndur := tabSet x.lunEndur k (f (tabGetD x.lunEndur k {})) }

/-- Mapping changes entered in a mapping, oldest first. -/
def mapApply (m : Tab Unit) (cs : List MapCh) : Tab Unit :=
  cs.foldl (fun m c => match c.unit with
    | some u => tabSet m c.key u
    | none => tabDel m c.key) m

/-- The oldest mapping changes are persisted, a page for each, which records the highest program sequence it covers (R268, R427). -/
def saveMap (n : Nat) (s : State) : State :=
  s.onFls fun x => { x with
    saved := mapApply x.saved (x.mapLog.take n), mapLog := x.mapLog.drop n
    savedSeq := ((x.mapLog.take n).map MapCh.seq).foldl max x.savedSeq }
/-- Every mapping change is persisted: no dirty bytes are left, and the mapping pages count as programmed (R277). -/
def saveAll (s : State) : State :=
  (saveMap s.fls.mapLog.length s).onFls fun x => { x with
    dirtyMap := 0, endur := { x.endur with programmed := x.endur.programmed + x.dirtyMap } }

/-- A change of the mapping: it is dirty until persisted; at the bound, mapping pages are written first and the wait is
counted (R268, R438). Each change counts as one page of the flush set (log entry 39). -/
def mapChange (key : Nat) (u : Option Unit) (s : State) : State :=
  let log (s : State) : State := s.onFls fun x =>
    let c : MapCh := { key := key, unit := u, seq := x.progSeq }
    { x with units := mapApply x.units [c], mapLog := x.mapLog ++ [c], dirtyMap := x.dirtyMap + 4096 }
  let wait (s : State) : State := s.onFls fun x => { x with metaWaits := x.metaWaits + 1 }
  if !s.aon.holdupOk then saveAll (log (wait s))
  else if 512 * 2 ^ 20 ≤ s.fls.dirtyMap then log (saveAll (wait s))
  else log s

/-- The key that data of a block is encrypted under, as its record's key field names it: a tenant's, or the node media key (R271). -/
def blockKey (s : State) (key : Nat) : Bytes := if key = 0xFFFF then toLe 64 s.fls.mediaKey else tabGetD s.fls.xts key []
/-- The 4,096 bytes of an object's page: of its upper copy or home as readers find them, of a CHECKPOINT home its stream's (R282). -/
def unitPlain (s : State) (o : ObjRec) (u : Unit) : Bytes :=
  slice (if o.checkpoint && !u.upper then slice (tabGetD s.fls.ckpt u.obj []) (4096 * u.upage) 4096
    else objImage s o.handle (4096 * u.upage) 4096) 0 4096
/-- A unit as it is written: XTS-AES-256 under the block's key, the tweak the 64-bit logical unit number (R270). -/
def encryptUnit (s : State) (key unit : Nat) (b : Bytes) : Bytes := Config.xts (blockKey s key) (unit % 2 ^ 64) b
/-- A unit as readers find it (R270). -/
def decryptUnit (s : State) (key unit : Nat) (b : Bytes) : Bytes := Config.xtsOpen (blockKey s key) (unit % 2 ^ 64) b

/-- A unit programmed into a page of a block: its spare bytes carry its logical unit number and the next program sequence (R427). -/
def programUnit (b page key : Nat) (u : Unit) (s : State) : Unit × State :=
  let u := { u with blk := b, page := page, seq := s.fls.progSeq + 1 }
  (u, s.onFls fun x => { x with progSeq := x.progSeq + 1, spares := x.spares ++ [(key, u)] })

/-- Units programmed into one page of a block: their mapping points there (R263), temperatures widen the record's. -/
def programPage (b : Nat) (us : List (Nat × Unit)) (s : State) : State :=
  let r := blkOf s b
  let t := ((lunOf s (blkChan b) (blkLunKey b)).map Lun.temp).getD 25
  let n := mtPage (blkTable s b)
  let s := modBlk b (fun r => { r with pages := r.pages + 1, tmin := min r.tmin t, tmax := max r.tmax t }) s
  let s := onfi [.programPage b r.pages, .readStatus (blkLun b)] (endurAdd b (fun e => { e with programmed := e.programmed + n }) s)
  let s := chanIssue (blkChan b) n (hTenant (((us.head?).bind fun u => tabGet s.obj.recs u.2.obj).getD {}).handle) s
  us.foldl (fun s u =>
    let p := programUnit b r.pages u.1 u.2 s
    mapChange u.1 (some p.1) p.2) s

/-- Pages of an object written in a tier, one flash page at a time; pages that find no room wait for a free block, and the wait is counted
(R257, R258). -/
def writePages (o : ObjRec) (i tier : Nat) (upper : Bool) : Nat → List Nat → State → State
  | 0, _, s => s
  | k + 1, ps, s =>
    if ps.isEmpty then s
    else
      let key := if o.protected_ then hTenant o.handle else 0xFFFF
      match placeFor s tier key with
      | none => s.onFls fun x => { x with
          reserveWaits := x.reserveWaits + 1, foldUrgent := x.foldUrgent || tier == 2, foldWaits := x.foldWaits + b2n (tier == 2)
          waitPages := x.waitPages ++ ps.map fun p => (i, tier, upper, p) }
      | some (b, mode, use) =>
        let s := if (blkOf s b).mode = 0 then openBlk b mode use key s else s
        let per := max 1 (mtPage (blkTable s b) / 4096)
        let us := (ps.take per).map fun p =>
          let u : Unit := { obj := i, upage := p, upper := upper, poisoned := o.poison.any fun k => k / 64 == p }
          (unitKey i upper p, { u with data := encryptUnit s key (unitKey i upper p) (unitPlain s o u) })
        let s := endurAdd b (fun e => { e with
          submitted := e.submitted + 4096 * us.length, direct := e.direct + if use = 3 then 4096 * us.length else 0 }) s
        writePages o i tier upper k (ps.drop per) (programPage b us s)

/-- 4 KiB pages of an object programmed in T2 or T3: its home's, or those of an upper copy there. A CHECKPOINT home is written
as a stream of its own (R282). -/
def writeHome (i tier : Nat) (upper : Bool) (ps : List Nat) (s : State) : State :=
  match tabGet s.obj.recs i with
  | some o =>
    if (tier = 2 || tier = 3) && (upper || !o.checkpoint) then writePages o i tier upper ps.length ps s else s
  | none => s

/-- Whether a waiting page is still to be written where it was to go: its object is there, and the copy it belongs to. -/
def stillThere (s : State) (w : Nat × Nat × Bool × Nat) : Bool :=
  (tabGet s.obj.recs w.1).any fun o => if w.2.2.1 then o.upper == w.2.1 && o.st != .absent else o.home == w.2.1
/-- Pages that waited for a free block are written, the oldest first; what finds none goes on waiting and is not counted anew (R258). -/
def pumpPages (s : State) : State :=
  let ws := s.fls.waitPages.filter (stillThere s)
  let key (w : Nat × Nat × Bool × Nat) : Nat := (w.1 * 8 + w.2.1) * 2 + b2n w.2.2.1
  let t := (nub (ws.map key)).foldl (fun s k =>
    match tabGet s.obj.recs (k / 16) with
    | some o =>
      let ps := (ws.filter fun w => key w == k).map fun w => w.2.2.2
      writePages o (k / 16) (k / 2 % 8) (k % 2 == 1) ps.length ps s
    | none => s) (s.onFls fun x => { x with waitPages := [] })
  t.onFls fun x => { x with reserveWaits := s.fls.reserveWaits, foldWaits := s.fls.foldWaits }

/-- The pages that a byte range touches. -/
def pagesOf (off n : Nat) : List Nat := if n = 0 then [] else (List.range (ceilDiv (off % 4096 + n) 4096)).map (off / 4096 + ·)
/-- Every page of an object. -/
def allPages (o : ObjRec) : List Nat := List.range (ceilDiv o.size 4096)

/-- Whether a write to a tier finds a block now (R257, R258). -/
def flashRoom (s : State) (o : ObjRec) (tier : Nat) : Bool :=
  !(tier == 2 || tier == 3) || (placeFor s tier (if o.protected_ then hTenant o.handle else 0xFFFF)).isSome

/-- A wait for a free SLC-region block: folding becomes urgent; the wait is counted once (R257). -/
def waitFold (s : State) : State :=
  s.onFls fun x => { x with foldUrgent := true, foldWaits := if x.foldUrgent then x.foldWaits else x.foldWaits + 1 }

/-- Whether a unit's mapping still holds live data: its object is there, and its copy is where the unit says. -/
def unitLive (s : State) (u : Unit) : Bool :=
  match tabGet s.obj.recs u.obj with
  | none => false
  | some o =>
    if u.upper then (o.upper == 2 || o.upper == 3) && o.st != .absent && o.st != .promoting else o.home == 2 || o.home == 3
/-- The mappings of an object's copies are given up: of its home alone, or of both. -/
def dropUnits (i : Nat) (homeOnly : Bool) (s : State) : State :=
  (s.fls.units.filter fun u => u.2.obj == i && !(homeOnly && u.2.upper)).foldl (fun s u => mapChange u.1 none s) s
/-- Everything that is held of units in blocks that are no more: spare bytes and mappings. -/
def forgetBlocks (gone : Nat → Bool) (s : State) : State :=
  s.onFls fun x => { x with
    units := x.units.filter fun u => !gone u.2.blk, spares := x.spares.filter fun u => !gone u.2.blk
    saved := x.saved.filter fun u => !gone u.2.blk, mapLog := x.mapLog.filter fun c => !c.unit.any fun u => gone u.blk }
/-- The mapping after a cold start: what the persisted mapping pages hold, then what the spare bytes of units programmed since say, in
program order (R427; log entry 109). -/
def rescan (s : State) : State :=
  s.onFls fun x =>
    let new := x.spares.filter fun u => decide (x.savedSeq < u.2.seq)
    { x with units := new.foldl (fun m u => tabSet m u.1 u.2) x.saved, mapLog := [] }
/-- Live units of a block. -/
def blkUnits (s : State) (b : Nat) : List (Nat × Unit) := s.fls.units.filter fun u => u.2.blk == b && unitLive s u.2

end Sys2Proof.Machine
end

