-- ==== Sys2Proof/Machine/Trace.lean ====
section
/-! DEFINITION. What the recorder writes while a recording runs (chapter 16): inputs, ordering tokens, the end of a recording. -/

namespace Sys2Proof.Machine
open Sys2Proof

/-- An external input is recorded at its consumer (R399, R408): one item, one chunk (log entry 32). -/
def recordInput (kind inst : Nat) (poisoned : Bool) (body : Bytes) (s : State) : State :=
  if s.recd.active then
    putChunk 2 (kind + 256 * inst) (toLe 1 kind ++ toLe 1 (b2n poisoned) ++ [0, 0] ++ toLe 4 body.length ++
      slice body 0 (roundUp body.length 8)) s
  else s

/-- An interrupt taken by the Steward (R398 class 0x03): its count of instructions and the numbers of the sources are free (log entry 121). -/
def stewardInt (source : Nat) (s : State) : State :=
  token 0x03 1 0 16 (Config.stewardRetired (now s) % 2 ^ 64 + 2 ^ 64 * (Config.stewardSource source % 2 ^ 16)) s

/-- A timer's token (R398 class 0x14): the island's digest-event count at the expiry. -/
def timerToken (island kind : Nat) (s : State) : State := token 0x14 island kind 8 (digCount s island) s

/-- The value that the recording being replayed has next for a point (R408, R410). -/
def nextToken (r : Rec) (point w : Nat) : Option Nat :=
  (r.chunks.find? fun c => c.type == 3 && c.stream == point).bind fun c => if fld c.body 0 2 = 0 then none else some (fld c.body 2 w)

/-- It is taken: its run is shorter by one, and a chunk without runs is consumed. -/
def takeToken (point w : Nat) (s : State) : State :=
  match s.recd.chunks.find? fun c => c.type == 3 && c.stream == point with
  | none => s
  | some c =>
    let n := fld c.body 0 2
    let b := if 1 < n then toLe 2 (n - 1) ++ c.body.drop 2 else c.body.drop (2 + w)
    s.onRec fun r => { r with
      progressAt := now s, seqDone := if fld b 0 2 = 0 then c.seq else r.seqDone
      chunks := if fld b 0 2 = 0 then r.chunks.filter fun x => x.seq != c.seq
        else r.chunks.map fun x => if x.seq = c.seq then { x with body := b } else x }

/-- The token of a background operation (R398 class 0x15): kind, event count, target. -/
def backValue (s : State) (island kind target : Nat) : Nat :=
  (kind + 2 ^ 8 * (digCount s island % 2 ^ 56) + 2 ^ 64 * target) % 2 ^ 128

/-- A background operation begins: its token is emitted, or, in a replay, taken. -/
def backToken (island inst kind target : Nat) (s : State) : State :=
  if s.recd.replaying then takeToken (pointId 0x15 island inst) 16 s
  else token 0x15 island inst 16 (backValue s island kind target) s

/-- Whether a background operation may begin as far as a replay is concerned: at its recorded event count, on its recorded target, and at no
other time (R398). -/
def replayBegins (s : State) (island inst kind target : Nat) : Bool :=
  !s.recd.replaying || nextToken s.recd (pointId 0x15 island inst) 16 == some (backValue s island kind target)

/-- Whether background work goes on at all: it stops while a recording's start or a power-state entry waits for the node, and in P2 and P3 (R401,
R429, R430). -/
def backgroundUp (s : State) : Bool := s.recd.due.isNone && s.stew.goal.isNone && decide (s.stew.pstate < 2)

/-- END reasons (R404). -/
def recEndCode : RecEnd → Nat
  | .left => 0 | .spillFull => 1 | .budget => 2 | .ringError => 3 | .warmReset => 4

/-- A recording ends with its END chunk (R404, R408): behind the DIGEST chunk of the windows that close with it (R409), or,
where the ring is lost or cannot be spilled, behind the last chunk spilled. -/
def endRecording (why : RecEnd) (s : State) : State :=
  if !s.recd.active then s
  else
    let lost := why == .spillFull || why == .ringError || why == .warmReset
    let all := s.dig.closed ++ (s.dig.open_.map Prod.snd).filter fun d => d.events != 0
    let s := if lost then { s with dig := {} } else flushDigests { s with dig := { closed := all } }
    let last := if lost then ((s.recd.spill.head?).map RecChunk.seq).getD 0 else s.recd.nextChunk - 1
    let body := toLe 1 (recEndCode why) ++ zeros 7 ++ toLe 8 last ++ toLe 8 (now s)
    let c : RecChunk := { type := 5, seq := last + 1, body := body }
    let s := s.onRec fun r => { r with
      active := false, endReason := some why, nextChunk := last + 2,
      ring := if lost then [] else r.ring ++ [c], spill := if lost then c :: r.spill else r.spill }
    if why == .left || why == .ringError then s
    else
      let s := logEv Log.recording 38 1 body s
      if why == .warmReset then s else raiseEvent 0 Config.recordingEvent body s

/-- A host command's data read from host memory, recorded with its place (R399). -/
def recordData (qp cid : Nat) (b : Bytes) (poisoned : Bool) (s : State) : State :=
  if b.isEmpty then s else recordInput 4 0 poisoned (toLe 2 qp ++ toLe 2 cid ++ zeros 4 ++ toLe 8 0 ++ b) s

/-- Whether a recording's start waits for the work inside the node to end (R401). -/
def quiescing (s : State) : Bool := s.recd.due.isSome

/-- Bytes of a chunk as stored. -/
def chunkBytes (c : RecChunk) : Nat := roundUp (32 + c.body.length) 64

/-- Whether the recorder ring is so full that admissions, mailbox takes and request and bulk messages wait (R403). -/
def ringFull (s : State) : Bool :=
  s.recd.active && decide (ringBytes < ((s.recd.ring.map chunkBytes).sum) + 2 ^ 30)

/-! Replay (R410 to R413). -/

/-- What a snapshot freezes of a state (R401). -/
def keepOf (s : State) : Kept := { fls := s.fls, eng := s.eng, obj := s.obj, idx := s.idx, cur := s.stew.cur, boot := s.stew.boot }
/-- A state with what was kept in place. -/
def putKept (k : Kept) (s : State) : State :=
  { s with fls := k.fls, eng := k.eng, obj := k.obj, idx := k.idx, stew := { s.stew with cur := k.cur, boot := k.boot } }
/-- What a replay changed is given up, and what it had set aside is in place again: nothing persistent was changed (R410, R412). -/
def endReplay (s : State) : State :=
  match s.recd.live with
  | some k => putKept k (s.onRec fun r => { r with live := none })
  | none => s

/-- A replay stops at a chunk or window: the sequence it reports, and its log record of severity 2 (R413). -/
def stopReplay (seq cause island window events want got : Nat) (s : State) : State :=
  logEv Log.recording 38 2 (toLe 1 cause ++ toLe 1 island ++ zeros 2 ++ toLe 8 window ++ toLe 8 events ++ toLe 8 want ++ toLe 8 got)
    (s.onRec fun r => { r with diverged := some seq })

/-- The outcome a replay's flash read takes from the recording's next FLASH_READ item of the channel (R412): what is
recorded as uncorrectable is poisoned, and what is recorded as decoded and does not decode now stops the replay. -/
def replayRead (ch decode : Nat) (s : State) : Nat × State :=
  if !s.recd.replaying || s.recd.diverged.isSome then (decode, s)
  else match s.recd.chunks.find? fun c => c.type == 2 && c.stream == 8 + 256 * ch with
    | none => (decode, s)
    | some c =>
      let rest := (s.onRec fun r => { r with
        chunks := r.chunks.filter (fun x => x.seq != c.seq), seqDone := c.seq, progressAt := now s })
      if byteAt c.body 11 == 0xFF then (11, rest)
      else if 10 < decode then (decode, stopReplay c.seq 2 (47 + ch / 4) 0 0 0 0 s)
      else (decode, rest)

end Sys2Proof.Machine
end

