-- ==== Sys2Proof/Machine/GenApply.lean ====
section
/-! DEFINITION. A generation taking effect at its commit epoch (R444), and the reset of a single island (R415, R420). -/

namespace Sys2Proof.Machine
open Sys2Proof

/-- The control islands, which cross to one another directly. -/
def controlIslands : List Nat := [1, 38, 59, 61, 62]

/-- The crossings of an island whose readiness the model follows (R29, R415; log entry 33): the spine with every other, and
the control islands among themselves. -/
def crossingsOf (i : Nat) : List (Nat × Nat) :=
  let all := if i = 35 then (List.range 64).filter (· != 35)
    else 35 :: (if controlIslands.contains i then controlIslands.filter (· != i) else [])
  all.map fun j => (min i j, max i j)

/-- A single island is reset (R420): its crossings are not ready until they are resynchronised (R415). -/
def resetIsland (i : Nat) (s : State) : State :=
  logEv Log.islandReset 0 0 (toLe 1 i)
    (s.onAon fun a => { a with notReady := a.notReady ++ (crossingsOf i).filter fun c => !a.notReady.contains c })

/-- A fabric port goes down with its island's reset. -/
def resetPort (p : Nat) (s : State) : State :=
  resetIsland (55 + p) (s.onFab fun f => { f with ports := listSet f.ports p false })

/-- A stage entry of a sheaf in a generation, none where the sheaf has no such stage. -/
def stageEntry (g : Gen) (sh i : Nat) : Option Bytes :=
  (genSheaf g sh).bind fun d => if i < shStages d then some (shStage d i) else none
/-- Whether a stage entry of a sheaf differs between two generations. -/
def stageChanged (a b : Gen) (sh i : Nat) : Bool := stageEntry a sh i != stageEntry b sh i

/-- Sheaf IDs of a generation. -/
def sheafIds (g : Gen) : List Nat := (genSheaves g).map fun d => fld d 0 2

/-- Stages whose entries change: (sheaf, stage). -/
def changedStages (a b : Gen) : List (Nat × Nat) :=
  (nub (sheafIds a ++ sheafIds b)).flatMap fun sh =>
    ((List.range 16).filter (stageChanged a b sh)).map fun i => (sh, i)

/-- Tiles of a stage in a generation. -/
def stageTiles (g : Gen) (sh i : Nat) : List Nat :=
  match genSheaf g sh with
  | some d => if i < shStages d then sgTiles (shStage d i) else []
  | none => []

/-- A stage on a tile: its key in the run-time tables. -/
def stKey (sh i k : Nat) : Nat := (sh * 16 + i) * 32 + k

/-- The queue pairs a generation assigns: (global ID, tenant) (R440). -/
def genPairs (g : Gen) : List (Nat × Nat) :=
  ((records 8 g.tenants).filter fun r => bitOf (byteAt r 2) 0).flatMap fun r =>
    (List.range (byteAt r 3)).map fun i => (fld r 4 2 + i, fld r 0 2)

/-- The queue pairs under a generation: those that keep their owner as they are, the others DISABLED, as at reset. -/
def genQueues (g : Gen) (old : Tab Qp) : Tab Qp :=
  (genPairs g).foldl (fun q p =>
    match tabGet old p.1 with
    | some x => tabSet q p.1 (if x.tenant = p.2 then x else { tenant := p.2 })
    | none => tabSet q p.1 { tenant := p.2 }) []

/-- A SYSTEM object of the node (R232): its handle and the state. -/
def takeSystem (n home : Nat) (s : State) : Nat × State := (addObject 0 5 { size := n, home := home, node := true } s).getD (0, s)
/-- A SYSTEM object gives its space back. -/
def dropSystem (h : Nat) (s : State) : State := if (objOf s h).isSome then removeObject (hIndex h) s else s

/-- The SYSTEM objects in T1 as the generation in force has them: the version pool and the fabric receive pool at their
sizes, the object table, the recorder ring under Trace (R34, R219, R232, R355). -/
def keepSystem (s : State) : State :=
  let g := gen s
  let s :=
    if s.obj.poolH = 0 then let p := takeSystem (genPool g) 1 s; p.2.onObj fun o => { o with poolH := p.1 }
    else modObj (hIndex s.obj.poolH) (fun o => { o with size := genPool g }) (accrue s)
  let s := if s.obj.tableH = 0 then let p := takeSystem (2 ^ 30) 1 s; p.2.onObj fun o => { o with tableH := p.1 } else s
  let s :=
    if s.obj.rxH = 0 then let p := takeSystem (genRxPool g) 1 s; p.2.onObj fun o => { o with rxH := p.1 }
    else modObj (hIndex s.obj.rxH) (fun o => { o with size := genRxPool g }) s
  if (genProfile g == 3) == (s.obj.ringH != 0) then s
  else if genProfile g = 3 then let p := takeSystem ringBytes 1 s; p.2.onObj fun o => { o with ringH := p.1 }
  else (dropSystem s.obj.ringH s).onObj fun o => { o with ringH := 0 }

/-- A generation becomes the one in force (R444): every tile of a changed stage finishes its old work first (R51), records of changed
stages go (R64, R86), and no epoch that has left retention comes back (R221). A rollback empties the previous slot and notes the generation left
(R445). -/
def applyGen (g : Gen) (rollback : Bool) (e : Nat) (s : State) : State :=
  let old := s.stew.cur
  let ch := changedStages old g
  let tiles := nub (ch.flatMap fun c => stageTiles old c.1 c.2 ++ stageTiles g c.1 c.2)
  let s := s.onEng fun x => { x with oldest := oldestRetained s }
  let s := s.onStew fun w => { w with
    cur := g, prev := if rollback then none else some old,
    left := if rollback then some old.number else w.left, pendGen := none,
    clsHist := if genClass g = genClass old then w.clsHist else (e, genClass g) :: w.clsHist }
  let s := s.onHif fun h => { h with qps := genQueues g h.qps }
  let s := s.onShv fun v => { v with
    stats := v.stats.filter fun p => !ch.any fun c => p.1 / 32 == c.1 * 16 + c.2
    cvt := v.cvt.filter fun r => !(r.tagKind == 1 && ch.any fun c => r.tag == c.1 + 256 * c.2)
    switching := nub (v.switching ++ tiles) }
  let s := keepSystem s
  let s := (List.range 4).foldl (fun s p => if genPortMode old p = genPortMode g p then s else resetPort p s) s
  if genProfile g = 3 && genProfile old != 3 then s.onRec fun r => { r with due := some e }
  else if genProfile g != 3 && genProfile old = 3 then
    (endRecording .left s).onRec fun r => { r with due := none }
  else s

end Sys2Proof.Machine
end

