-- ==== Sys2Proof/Machine/Husks.lean ====
section
/-! DEFINITION. Husks (chapter 08): their locks, their resolution, what applying a committed husk does, how they end. -/

namespace Sys2Proof.Machine
open Sys2Proof

/-! Locks (R207, R208). -/

/-- The CONFIG key. -/
def configKey (excl : Bool) : Range := { excl := excl }
/-- A vector ID, a list ID, a span of object bytes, a table entry, a map bucket as keys. -/
def vectorKey (coll v : Nat) : Range := { space := 1, name := coll, lo := v, hi := v, excl := true }
def listKey (coll l : Nat) (excl : Bool) : Range := { space := 2, name := coll, lo := l, hi := l, excl := excl }
def objectKey (h lo n : Nat) (excl : Bool) : Range := { space := 3, name := h, lo := lo, hi := lo + n - 1, excl := excl }
def tableKey (h lo hi : Nat) : Range := { space := 4, name := h, lo := lo, hi := hi, excl := true }
def bucketKey (h b : Nat) : Range := { space := 5, name := h, lo := b, hi := b, excl := true }

/-- Keys in order: space, name, start (R207). -/
def keyBefore (a b : Range) : Bool :=
  decide (a.space < b.space) || a.space == b.space &&
    (decide (a.name < b.name) || a.name == b.name && decide (a.lo < b.lo))

/-- A key put into its place; equal ranges merge (R208). -/
def keyInsert (r : Range) : List Range → List Range
  | [] => [r]
  | x :: xs =>
    if x.space = r.space ∧ x.name = r.name ∧ x.lo = r.lo ∧ x.hi = r.hi then { x with excl := x.excl || r.excl } :: xs
    else if keyBefore r x then r :: x :: xs else x :: keyInsert r xs

/-- Locks in ascending order, merged. -/
def lockPlan (rs : List Range) : List Range := rs.foldr keyInsert []

/-- HEADER, UPSERT or STRICT, COMPUTED of an action (R200). -/
def acHeader (a : Action) : Bool := bitOf a.flags 2
def acFlag0 (a : Action) : Bool := bitOf a.flags 0
def acComputed (a : Action) : Bool := bitOf a.flags 1
/-- Entry index of a TABLE_ENTRY. -/
def acIndex (a : Action) : Nat := if acHeader a then headerIndex else a.arg

/-- Declared locks of an action (R208). -/
def declaredOf (a : Action) : List Range :=
  match a.kind with
  | 1 | 2 => [vectorKey a.coll a.target]
  | 3 => [objectKey a.target a.arg a.len true]
  | 4 => [tableKey a.target (acIndex a) (acIndex a)]
  | 5 => [listKey a.coll a.target true]
  | 6 => [tableKey a.target 0 headerIndex]
  | _ => []

/-! Element-wise operands (R180, R181). -/

/-- Elements an object holds in a format; their scales stand in a bran object (R83). -/
def elemsOf (f size : Nat) : Nat := size * 8 / elemBits (fwElem f)
/-- The elements an ELEMENTWISE entry names. -/
def ewCount (s : State) (e : Bytes) : Nat :=
  if fld e 0x20 4 = 0 then ((objOf s (fld e 8 8)).map fun o => elemsOf o.format o.size).getD 0 else fld e 0x20 4
/-- The bran object of an element-wise operand, 0 where its format is unscaled (R83, R181). -/
def ewBran (s : State) (h : Nat) : Nat := if h = 0 || fwScale (objFormat s h) = 0 then 0 else branOf s h
/-- Ranges on the bytes of a tensor of n elements and on those of its scales. -/
def ewKeys (s : State) (n h : Nat) (excl : Bool) : List Range :=
  let f := objFormat s h
  objectKey h 0 (rowBytes f n) excl :: if ewBran s h = 0 then [] else [objectKey (ewBran s h) 0 (scaleBytes f n) excl]
/-- The ranges of an ELEMENTWISE entry beside its action's own: S on the bytes of a and b, each with its scales, and X on the scales of
dst (R181; log entry 21). -/
def ewRanges (s : State) (e : Bytes) : List Range :=
  let n := ewCount s e
  (([fld e 8 8, fld e 0x10 8].filter (· != 0)).flatMap fun h => ewKeys s n h false) ++ (ewKeys s n (fld e 0x18 8) true).drop 1

/-- The entry of the queue command a husk completes. -/
def huskEntry (s : State) (x : Husk) : Bytes := ((x.cmd.bind (cmdOf s)).map Cmd.entry).getD []

/-- A husk's declared locks in order, CONFIG first (R205, R208). -/
def declaredPlan (s : State) (x : Husk) : List Range :=
  let e := huskEntry s x
  lockPlan (configKey x.config :: x.actions.flatMap declaredOf ++ if byteAt e 0 = 0x35 then ewRanges s e else [])

/-! Forming and admitting (R203, R204, R213, R214, R218). -/

/-- Entries a husk reserves (R213). -/
def huskNeeds (x : Husk) : Nat := 1 + 6 * x.actions.length
/-- Husk slots in use. -/
def slotsUsed (s : State) : List Nat := s.eng.husks.filterMap fun p => p.2.slot
/-- Whether a husk finds a slot and room in the lock table. -/
def huskRoom (s : State) (x : Husk) : Bool :=
  decide ((slotsUsed s).length < 4096) && decide (locksUsed s + huskNeeds x ≤ 8192)

/-- The status that refuses a husk before anything else: journal unavailable, epoch exhausted, its binder (R193, R198,
R218). -/
def huskRefusal (s : State) (t : Nat) (binder : Option Nat) : Option Nat :=
  if s.eng.jdown then some St.journalUnavailable
  else if s.eng.epoch = 2 ^ 48 - 1 then some St.epochExhausted
  else match binder with
    | none => none
    | some b => match tabGet s.eng.binders b with
      | none => some St.binderUnknown
      | some x => if x.owner = t then none else some St.accessViolation

/-- The binder of a husk with the identity of its allocation (R198). -/
def binderOf (s : State) (b : Nat) : Nat × Nat := (b, ((tabGet s.eng.binders b).map Binder.alloc).getD 0)

/-- Actions of the node with their source data laid out one after another, each at a multiple of 64 (R199). -/
def laySources : Nat → List Action → List Action
  | _, [] => []
  | n, a :: as => { a with src := if a.data.isEmpty then 0 else n } :: laySources (n + roundUp a.data.length 64) as

/-- A formed husk waits for admission; one that finds no room is counted (R213, R214). -/
def formHusk (x : Husk) (s : State) : State :=
  let id := s.eng.nextHusk
  let as := if x.rebuild.isSome then laySources 0 x.actions else x.actions
  s.onEng fun e => { e with
    nextHusk := id + 1, husks := tabSet e.husks id { x with hstate := .waitingSlot, actions := as },
    rangeWaits := e.rangeWaits + b2n (!huskRoom s x) }

/-- A payload's staging object in T1 (R203): its handle, or none where R241 refuses the space. -/
def stagePayload (t : Nat) (b : Bytes) (s : State) : Option (Nat × State) :=
  if b.isEmpty then some (0, s)
  else
    let n := roundUp b.length 64
    (takeStaging t n s).bind fun s =>
      addObject t 4 { size := n, home := 1, node := true, pinsHome := 1, mem := memWrite [] 0 b } s

/-- A husk leaves the engine: locks, reservation, group and staging object released (R204). -/
def endHusk (id : Nat) (s : State) : State :=
  match tabGet s.eng.husks id with
  | none => s
  | some x =>
    let s := x.pins.foldl (fun s k => dropPin k s) (releaseLocks true id s)
    let s := s.onEng fun e => { e with
      reserved := e.reserved - x.reserved, group := e.group.filter (· != id), husks := tabDel e.husks id }
    if x.staging = 0 then s else removeObject (hIndex x.staging) s

/-- The response body of a Zalpol husk command that committed (R334). -/
def huskBody (code epoch count gen : Nat) : Bytes :=
  if code = 0x0311 then toLe 8 epoch ++ toLe 4 count
  else if code = 0x0201 then toLe 8 epoch ++ toLe 4 gen ++ [0xFF, 0xFF, 0xFF]
  else if code = 0x0202 then toLe 8 epoch ++ toLe 4 gen
  else toLe 8 epoch

/-- Where a husk failed: status, index of the action, another detail, area and offset of the field. -/
structure HFail where
  st : Nat := 0
  idx : Nat := 0
  aux : Option Nat := none
  fin : Nat := 0
  foff : Nat := 0
  deriving DecidableEq, Repr

/-- The outcome of a husk's queue command that fails (R103, R203). -/
def failResult (ins : Bool) (f : HFail) : Result :=
  if f.st = St.invalidField then badField f.fin f.foff
  else { status := f.st, detail :=
    if !ins || f.st = St.vectorExists || f.st = St.vectorNotFound then f.idx else f.aux.getD 0 }

/-- Whether a husk's command is an INSERT or DELETE. -/
def isUpdate (s : State) (x : Husk) : Bool :=
  let op := byteAt (huskEntry s x) 0
  op == 0x21 || op == 0x22

/-- Two rebuilds have one target: a list they share, or the same collection's centroids or table (R224). -/
def sameTarget (a b : Rebuild) : Bool :=
  a.coll == b.coll &&
    if a.kind < 3 && b.kind < 3 then
      a.list == b.list || (a.kind == 2 && a.list2 == b.list) || (b.kind == 2 && b.list2 == a.list) ||
        (a.kind == 2 && b.kind == 2 && a.list2 == b.list2)
    else decide (3 ≤ a.kind) && decide (3 ≤ b.kind)

/-- Rebuilds with no running one of their target start, in ID order (R224). -/
def startRebuilds (s : State) : State :=
  s.onIdx fun x => { x with
    rebuilds := x.rebuilds.foldl (fun t p =>
      if p.2.running || t.any (fun q => q.2.running && sameTarget p.2 q.2) then t
      else tabSet t p.1 { p.2 with running := true, since := s.eng.epoch }) x.rebuilds }

/-- A rebuild is queued: its ID and the state (R224, R334). -/
def addRebuild (b : Rebuild) (s : State) : Nat × State :=
  let id := s.idx.nextRebuild
  (id, startRebuilds (s.onIdx fun x => { x with nextRebuild := id + 1, rebuilds := tabSet x.rebuilds id b }))

/-- A rebuild ends: it leaves the table, the next one of its target runs, and its command is answered (R224, R336). -/
def endRebuild (r status epoch : Nat) (s : State) : State :=
  match tabGet s.idx.rebuilds r with
  | none => s
  | some b =>
    let s := startRebuilds (s.onIdx fun x => { x with rebuilds := tabDel x.rebuilds r })
    match b.mbx with
    | some m => commandDone m 0x0305 b.seq status 0 (toLe 8 epoch) s
    | none => s

/-- A husk fails: whoever formed it is told, and nothing of it stays (R204). -/
def failHusk (id : Nat) (f : HFail) (s : State) : State :=
  match tabGet s.eng.husks id with
  | none => s
  | some x =>
    let ins := isUpdate s x
    let s := endHusk id s
    match x.cmd, x.mbx, x.rebuild with
    | some n, _, _ => finishCmd n (failResult ins f) s
    | none, some m, _ =>
      zRespond m f.st
        (if f.st = St.invalidField then (if f.fin = 2 then 64 + 32 * f.idx + 0x10 else min f.foff 0xFFFF) else f.idx) []
        (s.onStew fun w => { w with pendGen := if x.config then none else w.pendGen })
    | none, none, some r => endRebuild r f.st 0 s
    | none, none, none => s

/-! Resolution (R205 step 2, R106, R108). -/

/-- Entries that husks grouped or committing will append to a list. -/
def pendingAppends (s : State) (coll l : Nat) : Nat :=
  (s.eng.husks.map fun p =>
    if p.2.hstate == .grouped || p.2.hstate == .committing then
      ((p.2.actions.zip p.2.resns).filter fun q => q.1.kind == 1 && q.1.coll == coll && q.2.list == l).length
    else 0).sum

/-- Map slots more that husks grouped or committing will take in a collection; what their deletes free is not counted on. -/
def pendingSlots (s : State) (coll : Nat) : Nat :=
  (s.eng.husks.map fun p =>
    if p.2.hstate == .grouped || p.2.hstate == .committing then
      ((p.2.actions.zip p.2.resns).filter fun q => q.1.kind == 1 && q.1.coll == coll && q.2.fresh).length
    else 0).sum

/-- What resolution has gathered: resolutions, map slots taken and freed by collection, IDs seen with their presence, derived locks. -/
structure RAcc where
  resns : List Resn := []
  slots : List (Nat × Int) := []
  seen : List (Nat × Nat × Bool) := []
  locks : List Range := []
  deriving DecidableEq, Repr

/-- The outcome of resolving an action: go on, fail, or wait for the split of a full list. -/
inductive RRes where
  | ok (a : RAcc)
  | fail (f : HFail)
  | full (coll list : Nat)
  deriving DecidableEq, Repr

/-- The place of an insert's list field: in the record block of an INSERT, in the action of a HUSK (R103, R108). -/
def listField (ins : Bool) (i : Nat) (a : Action) : HFail :=
  { st := St.invalidField, idx := i, fin := 1, foff := if ins then i * a.len + 8 else 64 + 32 * i + 0x18 }

/-- Locks of a present ID's old entry (R208). -/
def oldLocks (s : State) (d : Bytes) (coll v : Nat) : List Range :=
  match mapFind s d coll v with
  | some m => [listKey coll m.2.2.1 false, bucketKey (coMap d) (m.2.1 / 8)]
  | none => []

/-- VECTOR_INSERT resolved (R106, R108). -/
def resolveInsert (s : State) (t : Nat) (ins : Bool) (i : Nat) (a : Action) (acc : RAcc) : RRes :=
  match collAt s a.coll s.eng.epoch with
  | none => .fail { st := St.collectionUnknown, idx := i }
  | some d =>
    let known := acc.seen.find? fun p => p.1 == a.coll && p.2.1 == a.target
    let present := match known with
      | some p => p.2.2
      | none => (mapFind s d a.coll a.target).isSome
    let (_, _, cof, tot) := recordLayout s d
    let want := if a.arg = 0xFFFFF then (if coAssign d = 0xFFFF then none else assignList s d (slice a.data cof (tot - cof)))
      else some (listIdAt s d a.arg s.eng.epoch)
    if coOwner d != t && t != 0 then .fail { st := St.accessViolation, idx := i }
    else if a.len != tot then .fail { st := St.invalidField, idx := i, fin := 1, foff := 64 + 32 * i + 4 }
    else if (present && !acFlag0 a) || (known.isSome && ins) then .fail { st := St.vectorExists, idx := i }
    else match want with
      | none => .fail (listField ins i a)
      | some l =>
        let x := dirEntry s d l s.eng.epoch
        if deLoc x = 0 || 3 < deLoc x then .fail (listField ins i a)
        else if deLoc x = 3 then .fail { st := St.wrongNode, idx := i, aux := some (deWhere x % 2 ^ 14) }
        else if staleHandle s (deList x) then .fail { st := St.bufStale, idx := i }
        else if hTenant (deList x) != coOwner d then .fail { st := St.accessViolation, idx := i }
        else if 65536 ≤ listLen (listOf s (deList x) a.coll l) + pendingAppends s a.coll l +
            (acc.resns.filter fun r => r.list == l && !r.skipped).length then
          (if coCount d < 2 ^ 20 then .full a.coll l else .fail { st := St.listFull, idx := i })
        else if !present && mapFull s d (pendingSlots s a.coll + ((acc.slots.filter fun p => p.1 == a.coll).map Prod.snd).sum) then
          .fail { st := St.collectionFull, idx := i }
        else .ok {
          resns := acc.resns ++ [{ list := l, fresh := !present }], slots := (a.coll, if present then 0 else 1) :: acc.slots, seen := (a.coll, a.target, true) :: acc.seen,
          locks := [listKey a.coll l false, bucketKey (coMap d) (mapBucket1 (coMax d) a.target),
            bucketKey (coMap d) (mapBucket2 (coMax d) a.target)] ++ oldLocks s d a.coll a.target ++ acc.locks }

/-- The candidates that the list assignments of a husk's inserts drop (R106, R120). -/
def assignDrops (x : Husk) (s : State) : State :=
  x.actions.foldl (fun s a =>
    match collAt s a.coll s.eng.epoch with
    | none => s
    | some d =>
      let l := (recordLayout s d).2.2
      if a.kind = 1 && a.arg = 0xFFFFF then countAssign d (slice a.data l.1 (l.2 - l.1)) s else s) s

/-- VECTOR_DELETE resolved (R106, R108). -/
def resolveDelete (s : State) (t : Nat) (ins : Bool) (i : Nat) (a : Action) (acc : RAcc) : RRes :=
  match collAt s a.coll s.eng.epoch with
  | none => .fail { st := St.collectionUnknown, idx := i }
  | some d =>
    let known := acc.seen.find? fun p => p.1 == a.coll && p.2.1 == a.target
    let present := match known with
      | some p => p.2.2
      | none => (mapFind s d a.coll a.target).isSome
    if coOwner d != t && t != 0 then .fail { st := St.accessViolation, idx := i }
    else if !present && acFlag0 a && !(known.isSome && ins) then .fail { st := St.vectorNotFound, idx := i }
    else .ok {
      resns := acc.resns ++ [{ skipped := !present }], slots := (a.coll, if present then -1 else 0) :: acc.slots, seen := (a.coll, a.target, false) :: acc.seen,
      locks := oldLocks s d a.coll a.target ++ acc.locks }

/-- Bytes of one entry of a versioned table (R201), none of an object that is no table. -/
def tableEntryBytes (s : State) (h : Nat) (header : Bool) : Option Nat :=
  if h = 0 then (if header then none else some 64)
  else if h = steerHandle then (if header then none else some 4)
  else if h = forwardHandle then (if header then none else some 32)
  else if header then some 64
  else if isDirectory s h then some 16
  else match (s.idx.vers.find? fun v => v.table == 0 && v.data.any fun d => coCentroids d == h).bind TVer.data with
    | some d => let f := coarseWord s d; some (rowBytes f (coCoarseDims d) + scaleBytes f (coCoarseDims d))
    | none =>
      match tableKind s h with
      | 1 => some 64
      | 2 => let e := emHeader s h s.eng.epoch; some (rowBytes (mhFormat e) (mhElems e) + scaleBytes (mhFormat e) (mhElems e))
      | 3 => some 48
      | _ => none

/-- Bytes of a centroid row in 2:4 form: stored values, metadata, scales (R43, R144; log entry 99). -/
def sparseEntryBytes (s : State) (h : Nat) : Option Nat :=
  ((s.idx.vers.find? fun v => v.table == 0 && v.data.any fun d => coCentroids d == h).bind TVer.data).map fun d =>
    keptBytes (coarseWord s d) (coCoarseDims d) + metaBytes (coCoarseDims d) + scaleBytes (coarseWord s d) (coCoarseDims d)

/-- Entries of a versioned table: an index at or above it is out of range. -/
def tableCount (s : State) (h : Nat) : Nat :=
  if h = 0 then 65536
  else if h = steerHandle then 2 ^ 20
  else if h = forwardHandle then 16384
  else if isDirectory s h then 2 ^ 20
  else match (s.idx.vers.find? fun v => v.table == 0 && v.data.any fun d => coCentroids d == h).bind TVer.data with
    | some d => coCount d
    | none =>
      let e := tableRow s h headerIndex s.eng.epoch 0 64
      match headerKind e with
      | 1 => xhCount e
      | 2 => mhRows e
      | 3 => 512
      | _ => 0

/-- Whether a steering entry's sheaf may be used by the tenant of its index (R315). -/
def steerOk (g : Gen) (index : Nat) (d : Bytes) : Bool :=
  !bitOf (fld d 0 4) 9 || ((genSheaf g (byteAt d 0)).map fun x => shAllows x (index / 1024)).getD false

/-! What a written table entry must satisfy. -/

/-- The checks of a collection descriptor (R88). -/
def collChecks (d : Bytes) : List Chk :=
  let dim (o : Nat) : Bool := decide (32 ≤ fld d o 2) && decide (fld d o 2 ≤ 8192) && fld d o 2 % 32 == 0
  [(2, decide (fld d 2 2 < 1024)), (4, decide (byteAt d 4 < 2)), (5, decide (6 ≤ byteAt d 5) && decide (byteAt d 5 ≤ 10)),
   (6, decide (byteAt d 6 ≤ 2)), (7, [2, 3, 4, 5, 9].contains (byteAt d 7)), (8, dim 8), (0x0A, isMac (byteAt d 0x0A)),
   (0x0B, zeroAt d 0x0B 1), (0x0C, dim 0x0C), (0x0E, decide (1 ≤ fld d 0x0E 2) && decide (fld d 0x0E 2 ≤ 64)),
   (0x14, byteAt d 0x14 != 0), (0x15, zeroAt d 0x15 1), (0x16, decide (fld d 0x16 2 < 256) || fld d 0x16 2 == 0xFFFF),
   (0x18, decide (1 ≤ fld d 0x18 8) && decide (fld d 0x18 8 ≤ 2 ^ 40)),
   (0x38, decide (100 ≤ fld d 0x38 4) && decide (fld d 0x38 4 ≤ 100000)), (0x3C, zeroAt d 0x3C 4)]

/-- The checks of an expert table header (R142). -/
def expertHeaderChecks (s : State) (d : Bytes) : List Chk :=
  let f := fld d 8 4
  let st := fld d 0x10 8
  [(0, decide (1 ≤ fld d 0 4) && decide (fld d 0 4 ≤ 65536)),
   (4, decide (32 ≤ fld d 4 2) && decide (fld d 4 2 ≤ 32768) && fld d 4 2 % 32 == 0), (6, byteAt d 6 == 1 || byteAt d 6 == 2),
   (7, zeroAt d 7 1), (8, fwOk f && [2, 3, 4, 5, 9, 11].contains (fwElem f) && fwBlock f != 1), (0x0C, zeroAt d 0x0C 4),
   (0x10, st == 0 || (hClass st == 4 && ((objOf s st).map fun o => o.home == 1).getD false)), (0x18, zeroAt d 0x18 40)]

/-- The checks of an expert descriptor at an index, VALID or not, since a fallback may be run either way (R37, R143, R144). -/
def expertChecks (s : State) (table index : Nat) (d : Bytes) : List Chk :=
  let hd := exHeader s table s.eng.epoch
  let f := xdFormat d
  let need := wSizes d (xhModel hd)
  let size (h : Nat) : Nat := ((objOf s h).map ObjRec.size).getD 0
  [(0, decide (need.1 ≤ size (xdWeights d))),
   (8, if fwScale f = 0 then xdBran d == 0 else decide (need.2 ≤ size (xdBran d))),
   (0x10, fwOk f && isMac (fwElem f) && isFloat (fwElem f) == isFloat (fwElem (xhAct hd))),
   (0x14, decide (32 ≤ xdFf d) && decide (xdFf d ≤ 32768) && xdFf d % 32 == 0), (0x16, decide (byteAt d 0x16 ≤ 1)),
   (0x17, decide (xdAct d ≤ 2)),
   (0x18, decide (byteAt d 0x18 < 8) && !(xdSparse d && (isWide (fwElem f) || isWide (fwElem (xhAct hd))))), (0x19, zeroAt d 0x19 1),
   (0x1A, if xdHasFb d then decide (xdFallback d < xhCount hd) && xdFallback d != index else xdFallback d == 0),
   (0x1C, zeroAt d 0x1C 36)]

/-- The checks of an embedding table descriptor (R159, R165). -/
def embedChecks (s : State) (d : Bytes) : List Chk :=
  let k := mhKind d
  let n := mhRows d
  let elems (h : Nat) : Nat := mhElems (emHeader s h s.eng.epoch)
  let part (h : Nat) : Bool :=
    let x := emHeader s h s.eng.epoch
    tableKind s h == 2 && mhKind x == 0 && (mhOp d != 2 || mhFormat x == mhFormat d)
  [(0, decide (k ≤ 2)), (1, if k = 1 then mhHash d == 1 || mhHash d == 2 else mhHash d == 0),
   (2, if k = 2 then decide (mhOp d ≤ 2) else mhOp d == 0), (3, zeroAt d 3 1), (4, fwOk (mhFormat d) && fwElem (mhFormat d) != 13),
   (8, if k = 2 then n == 0 else decide (1 ≤ n) && decide (n ≤ 2 ^ 40) && (k != 1 || mhHash d != 2 || 2 ^ Nat.log2 n == n)),
   (0x10, if k = 1 then mhHash d != 2 || mhSeed d % 2 == 1 else mhSeed d == 0),
   (0x20, decide (32 ≤ mhElems d) && decide (mhElems d ≤ 16384) && mhElems d % 32 == 0 && (k != 2 ||
     (if mhOp d = 2 then elems (mhA d) + elems (mhB d) == mhElems d else elems (mhA d) == mhElems d && elems (mhB d) == mhElems d))),
   (0x24, zeroAt d 0x24 4), (0x28, if k = 2 then part (mhA d) else mhA d == 0), (0x30, if k = 2 then part (mhB d) else mhB d == 0)]

/-- The checks of a cache descriptor's header (R182). -/
def cacheHeaderChecks (d : Bytes) : List Chk :=
  [(0, decide (1 ≤ byteAt d 0) && decide (byteAt d 0 ≤ 32)),
   (1, decide (1 ≤ byteAt d 1) && decide (byteAt d 0 * byteAt d 1 ≤ 32)), (2, isElem (byteAt d 2)),
   (3, zeroAt d 3 1), (4, decide (32 ≤ fld d 4 2) && decide (fld d 4 2 ≤ 256) && fld d 4 2 % 32 == 0),
   (6, decide (1 ≤ fld d 6 2) && decide (fld d 6 2 ≤ 512)), (8, fwOk (fld d 8 4)), (0x0C, fwOk (fld d 0x0C 4)),
   (0x10, zeroAt d 0x10 48)]

/-- Whether a cache descriptor's formats are those culms take (R182, R192): others are FORMAT_UNSUPPORTED. -/
def cacheFormatOk (d : Bytes) : Bool :=
  let kv (f : Nat) : Bool := isCulmElem (fwElem f) && fwZero f == 0 && fwBlock f != 1
  (byteAt d 2 == 1 || byteAt d 2 == 2) && kv (fld d 8 4) && kv (fld d 0x0C 4)

/-- Bytes of n rows of a cache in a format, and of their scales (R183). -/
def kvBytes (f d heads n : Nat) : Nat × Nat := (n * heads * rowBytes f d, n * heads * scaleBytes f d)

/-- The checks of one cache shard entry under its descriptor's header, but for where its object lies now (R182): offsets are 64-byte
aligned, as those of the operations formed from them are (R174; log entry 24). -/
def shardStatic (s : State) (table : Nat) (hd d : Bytes) : List Chk :=
  let kv := fld d 0x10 8
  let o := (objOf s kv).getD {}
  let dim := fld hd 4 2
  let cap := fld d 8 4
  let k := kvBytes (fld hd 8 4) dim (byteAt hd 0) cap
  let v := kvBytes (fld hd 0x0C 4) dim (byteAt hd 0) cap
  let span (at_ n : Nat) : Bool := fld d at_ 4 % 64 == 0 && decide (fld d at_ 4 + n ≤ o.size)
  [(0, decide (fld d 0 2 < 512)), (2, zeroAt d 2 2), (8, cap != 0), (0x0C, zeroAt d 0x0C 4),
   (0x10, hTenant kv == hTenant table && !o.protected_),
   (0x18, span 0x18 k.1), (0x1C, span 0x1C v.1), (0x20, if k.2 = 0 then zeroAt d 0x20 4 else span 0x20 k.2),
   (0x24, if v.2 = 0 then zeroAt d 0x24 4 else span 0x24 v.2), (0x28, zeroAt d 0x28 8)]

/-- The checks of a cache shard entry that is written (R182): also its object's place; how the shards follow one another is checked
when the descriptor is used. -/
def shardChecks (s : State) (table : Nat) (d : Bytes) : List Chk :=
  let kv := fld d 0x10 8
  let o := (objOf s kv).getD {}
  (0x10, !staleHandle s kv && inPc o (fld d 0 2)) ::
    shardStatic s table (tableRow s table headerIndex s.eng.epoch 0 64) d

/-- Where a collection's objects are to lie (R90, R231). -/
def collTiers (s : State) (d : Bytes) : List Chk :=
  [(0x20, tierOk s (coCentroids d) [1]), (0x28, tierOk s (coDirectory d) [1]), (0x30, tierOk s (coMap d) [1, 2])]

/-- The checks of a directory entry (R90, R91): a list lies in T1 or T2. -/
def directoryChecks (s : State) (d : Bytes) : List Chk :=
  let loc := deLoc d
  [(0, if loc = 1 || loc = 2 then deList d != 0 && tierOk s (deList d) [1, 2] else deList d == 0), (8, decide (loc ≤ 3)), (9, decide (byteAt d 9 ≤ 1)),
   (0x0A, if loc = 1 then decide (deWhere d < 512) else if loc = 3 then decide (deWhere d < 2 ^ 14) else deWhere d == 0),
   (0x0C, if deAlias d then decide (fld d 0x0C 4 < 2 ^ 20) else zeroAt d 0x0C 4)]

/-- The checks of a forwarding entry (R344). -/
def forwardChecks (d : Bytes) : List Chk :=
  [(0, decide (byteAt d 0 < 16)), (1, decide (byteAt d 1 < 8)), (2, zeroAt d 2 2), (0x0A, zeroAt d 0x0A 6)]

/-- The first field of a written table entry that its layout refuses. -/
def entryBad (s : State) (table index : Nat) (d : Bytes) : Option Nat :=
  if table = 0 then firstBad (collChecks d ++ collTiers s d)
  else if table = steerHandle then firstBad [(1, decide (fld d 0 4 < 1024))]
  else if table = forwardHandle then firstBad (forwardChecks d)
  else if index = headerIndex then
    match headerKind d with
    | 1 => firstBad (expertHeaderChecks s d)
    | 2 => firstBad (embedChecks s d)
    | 3 => firstBad (cacheHeaderChecks d)
    | _ => some 0
  else if isDirectory s table then firstBad (directoryChecks s d)
  else match tableKind s table with
    | 1 => firstBad (expertChecks s table index d)
    | 3 => firstBad (shardChecks s table d)
    | _ => none

/-- TABLE_ENTRY resolved: table, owner, index, length, and what the entry names (R200, R202, R315). -/
def resolveTable (s : State) (t : Nat) (node : Bool) (i : Nat) (a : Action) (acc : RAcc) : RRes :=
  let bad (st : Nat) : RRes := .fail { st := st, idx := i }
  let field (o : Nat) : RRes := .fail { st := St.invalidField, idx := i, fin := 1, foff := 64 + 32 * i + o }
  let done : RRes := .ok { acc with resns := acc.resns ++ [{}] }
  if node then done
  else if a.target != 0 && staleHandle s a.target then bad St.bufStale
  else if (if a.target = 0 then t != 0 else hTenant a.target != t) then bad St.accessViolation
  else match tableEntryBytes s a.target (acHeader a) with
    | none => field 8
    | some n =>
      if a.len != n && (acHeader a || sparseEntryBytes s a.target != some a.len) then field 4
      else if a.target = 0 && fld a.data 0 2 != a.arg then .fail { st := St.invalidField, idx := i, fin := 2, foff := a.src }
      else if !acHeader a && decide (tableCount s a.target ≤ a.arg) then field 0x18
      else match entryBad s a.target (acIndex a) a.data with
      | some o => .fail { st := St.invalidField, idx := i, fin := 2, foff := a.src + o }
      | none =>
      if acHeader a && headerKind a.data = 3 && !cacheFormatOk a.data then bad St.formatUnsupported
      else if a.target = steerHandle && !steerOk (gen s) a.arg a.data then bad St.sheafNotShared
      else match (entryNames s a.target (acIndex a) a.data).filter (· != 0) with
        | [] => done
        | hs =>
          if hs.any fun h => staleHandle s h then bad St.bufStale
          else if hs.any fun h => hTenant h != t then bad St.accessViolation
          else done

/-- OBJECT_WRITE resolved (R200, R202). -/
def resolveWrite (s : State) (t i : Nat) (a : Action) (acc : RAcc) : RRes :=
  let done : RRes := .ok { acc with resns := acc.resns ++ [{}] }
  if acComputed a then done
  else if staleHandle s a.target then .fail { st := St.bufStale, idx := i }
  else if hTenant a.target != t then .fail { st := St.accessViolation, idx := i }
  else if dataBound s a.target then .fail { st := St.objectInTable, idx := i }
  else match objOf s a.target with
    | none => .fail { st := St.bufStale, idx := i }
    | some o =>
      if o.size < a.arg + a.len then .fail { st := St.invalidField, idx := i, fin := 1, foff := 64 + 32 * i + 0x18 }
      else done

/-- One action resolved. -/
def resolveAction (s : State) (x : Husk) (ins : Bool) (i : Nat) (a : Action) (acc : RAcc) : RRes :=
  match a.kind with
  | 1 => resolveInsert s x.tenant ins i a acc
  | 2 => resolveDelete s x.tenant ins i a acc
  | 3 => resolveWrite s x.tenant i a acc
  | 4 => resolveTable s x.tenant (x.rebuild.isSome || bitOf a.flags 7) i a acc
  | _ => .ok { acc with resns := acc.resns ++ [{}] }

/-- Every action of a husk resolved, in order. -/
def resolveAll (s : State) (x : Husk) (ins : Bool) : Nat → List Action → RAcc → RRes
  | _, [], acc => .ok acc
  | i, a :: as, acc =>
    match resolveAction s x ins i a acc with
    | .ok acc => resolveAll s x ins (i + 1) as acc
    | r => r

/-- Whether an action's prepare reads lost data (R205, R228): its part of the staged payload, its location-map buckets, the
centroid table for a list the node assigns. -/
def actionPoisoned (s : State) (x : Husk) (a : Action) : Bool :=
  let staged := x.staging != 0 && a.len != 0 && !acComputed a && ((objOf s x.staging).map fun o =>
    o.poison.any fun b => decide (a.src / 64 ≤ b) && decide (b ≤ (a.src + a.len - 1) / 64)).getD false
  let read := match if a.kind = 1 || a.kind = 2 then collAt s a.coll s.eng.epoch else none with
    | none => false
    | some d =>
      objPoisoned s (coMap d) (64 * mapBucket1 (coMax d) a.target) 64 ||
        objPoisoned s (coMap d) (64 * mapBucket2 (coMax d) a.target) 64 ||
        (a.kind == 1 && a.arg == 0xFFFFF &&
          objPoisoned s (coCentroids d) 0 (((objOf s (coCentroids d)).map ObjRec.size).getD 0))
  staged || read
/-- The first such action of a husk. -/
def huskPoisoned (s : State) (x : Husk) : Option Nat := x.actions.findIdx? (actionPoisoned s x)

/-! Applying (R215 step 3, R106, R110, R200). -/

/-- A list changed at an epoch: its ring gets a slot for it, 64 slots kept (R96). -/
def ringed (e : Nat) (l : IList) : IList :=
  let slot : Ring := { epoch := e, len := listLen l, chaff := listSettled l + listRecent l }
  { l with
    ring := (slot :: l.ring.filter fun r => r.epoch != e).take 64
    head := l.head + b2n (!l.ring.any fun r => r.epoch == e) }

/-- A list object stored. -/
def putList (h : Nat) (l : IList) (s : State) : State := s.onIdx fun x => { x with lists := tabSet x.lists h l }

/-- The list object of a collection's list ID now: handle and contents. -/
def liveList (s : State) (d : Bytes) (coll l : Nat) : Nat × IList :=
  let x := dirEntry s d l s.eng.epoch
  (deList x, { listOf s (deList x) coll l with t1 := deLoc x == 1, culm := deWhere x % 512 })

/-- Bytes of a list object of so many entries: its header and segments of 1,024 (R92, R93). -/
def listBytes (d : Bytes) (n : Nat) : Nat := 1664 + ceilDiv n 1024 * (128 + 1024 * coWidth d / 8 + 16384)
/-- A list object takes the segments that its entries need and no others (R92). -/
def sizeList (d : Bytes) (h n : Nat) (s : State) : State := modObj (hIndex h) (fun o => { o with size := listBytes d n }) (accrue s)

/-- The index an object's handle stands for, bytes written and the poisoned blocks they carry (R243); a home written
directly holds every write up to the epoch, one in T4 once its pool has answered (R350). -/
def applyWrite (e h off : Nat) (b : Bytes) (lost : List Nat) (s : State) : State :=
  match objOf s h with
  | none => s
  | some o =>
    let up := o.st == .resident || o.st == .evicting
    let s := meterMove o (if up then o.upper else o.home) b.length true (writeObj (hIndex h) off b lost s)
    if up then s
    else if o.home = 4 && !b.isEmpty then s.onFab fun f => { f with
      t4wait := f.t4wait ++ [{ who := .store e (off / 64 * 64), obj := hIndex h, off := off / 64 * 64, stop := roundUp (off + b.length) 64, write := true }] }
    else writeHome (hIndex h) o.home false (pagesOf off b.length) (modObj (hIndex h) (fun o => { o with writtenEpoch := e }) s)

/-- The node's own writes to index objects and tables at an epoch: an upper copy is DIRTY with them, a home holds them (R243, R244). -/
def nodeWrites (e : Nat) (hs : List Nat) (s : State) : State := hs.foldl (fun s h => applyWrite e h 0 [] [] s) s

/-- A present ID deleted at an epoch: its entry gets TOMB and the delete epoch, its map slot is freed (R106). -/
def deleteVector (d : Bytes) (coll v e : Nat) (s : State) : State :=
  match mapFind s d coll v with
  | none => s
  | some m =>
    let (h, l) := liveList s d coll m.2.2.1
    let es := match l.ents[m.2.2.2.1]? with
      | some x => listSet l.ents m.2.2.2.1 { x with tomb := true, delEpoch := e }
      | none => l.ents
    nodeWrites e [h, m.1] (mapFree m.1 m.2.1 e (putList h (ringed e { l with ents := es }) s))

/-- An insert appended to its list's tail and entered in the map (R106): the resolution as written, the state, and
whether a slot was found. -/
def applyInsert (e : Nat) (a : Action) (r : Resn) (s : State) : Resn × State × Bool :=
  match collAt s a.coll s.eng.epoch with
  | none => (r, s, true)
  | some d =>
    let s := deleteVector d a.coll a.target e s
    match mapChoose s d a.target with
    | none => (r, s, false)
    | some key =>
      let (h, l) := liveList s d a.coll r.list
      let (sk, full, coarse, tot) := recordLayout s d
      let x : LEnt := {
        id := a.target, sketch := leNat (slice a.data sk (coWidth d / 8)),
        exact := slice a.data full (rowBytes (coFormat d) (coDims d)),
        coarse := (slice a.data coarse (tot - coarse)).take
          (rowBytes (coarseWord s d) (coCoarseDims d) + scaleBytes (coarseWord s d) (coCoarseDims d)) }
      let pos := listLen l
      let s := putList h (ringed e { l with ents := l.ents ++ [x] }) s
      let s := if ((objOf s h).map fun o => decide (o.size < listBytes d (pos + 1))).getD false then sizeList d h (pos + 1) s else s
      ({ r with pos := pos, bucket := key / 8, slot := key % 8, segment := if pos % 1024 = 0 then pos / 1024 else r.segment },
        nodeWrites e [h, l.exactH, l.coarseH, coMap d] (mapPut (coMap d, key, r.list, pos, mapFinger a.target) s), true)

/-- A version entered at an epoch (R219). -/
def putVersion (table index e : Nat) (d : Option Bytes) (s : State) : State :=
  s.onIdx fun x => { x with vers := { table := table, index := index, tag := e, data := d } :: x.vers.filter fun v =>
    !(v.table == table && v.index == index && v.tag == e) }

/-- A shadow list becomes a list's object (R200): directory version over what the same husk has entered there, map slots of its entries,
the old list noted for freeing. -/
def installList (coll l shadow e : Nat) (s : State) : State :=
  match collAt s coll s.eng.epoch with
  | none => s
  | some d =>
    let old := dirEntry s d l s.eng.epoch
    let sh := listOf s shadow coll l
    let s1 := (sh.ents.zipIdx).foldl (fun s p =>
      if p.1.tomb then s
      else match mapFind s d coll p.1.id with
        | some m => mapPut (m.1, m.2.1, l, p.2, m.2.2.2.2) s
        | none => s) s
    let s2 := s1.onIdx fun x => { x with lists := tabMod x.lists (deList old) fun y => { y with freeAfter := some e } }
    let s3 := if (objOf s2 shadow).isSome then sizeList d shadow (listLen sh) s2 else s2
    let s3 := putList shadow (ringed e sh) s3
    nodeWrites e [shadow, sh.exactH, sh.coarseH, coMap d, coDirectory d]
      (putVersion (coDirectory d) l e (some (putAt (if shadow = 0 then zeros 16 else dirEntry s d l e) 0 (toLe 8 shadow))) s3)

/-- One above the highest directory index whose entry now is not INVALID, by its location or as an ALIAS; at least 1 (R88; log
entry 94). -/
def firstCount (s : State) (d : Bytes) : Nat :=
  let h := coDirectory d
  let is := (((objOf s h).map fun o => o.mem.map fun c => c.1 / 16).getD []) ++ (s.idx.vers.filter fun v => v.table == h).map TVer.index
  (is.map fun i =>
    let x := dirEntry s d i s.eng.epoch
    if deLoc x != 0 || deAlias x then i + 1 else 0).foldl max 1

/-- What a collection-table entry becomes: the node keeps centroid_count; a split raises it by one (flag bit 6, the node's
own); an empty one deletes (R88, R109). -/
def collEntry (s : State) (a : Action) : Option Bytes :=
  if a.data.isEmpty then none
  else match collAt s a.arg s.eng.epoch with
    | some old => some (if bitOf a.flags 6 then putAt old 0x10 (toLe 4 (coCount old + 1)) else putAt a.data 0x10 (toLe 4 (coCount old)))
    | none => some (putAt a.data 0x10 (toLe 4 (firstCount s a.data)))

/-- Whether a unit of a journal extent is whole (R181). -/
def extGood (s : State) (n : Nat) : Bool := (tabGet s.fls.jext n).any fun u => crc32c u.data == u.crc

/-- The bytes of a computed range that lie in journal extents, applied to their objects (R181). -/
def applyExts (e : Nat) (a : Action) (s : State) : State :=
  a.exts.foldl (fun s n =>
    match tabGet s.fls.jext n with
    | some u => applyWrite e u.handle u.off u.data u.lost s
    | none => s) s

/-- The epoch of the version of an entry in force when a husk's action replaces it, 0 where there is none (R216). -/
def replacedEpoch (s : State) (table index e : Nat) : Nat := ((versionAt s table index e).map TVer.tag).getD 0

/-- One action applied at its commit epoch: its resolution as the journal records it, the state, whether an insert found a slot. -/
def applyAction (e : Nat) (a : Action) (r : Resn) (s : State) : Resn × State × Bool :=
  match a.kind with
  | 1 => applyInsert e a r s
  | 2 =>
    match collAt s a.coll s.eng.epoch with
    | some d =>
      if r.skipped then (r, s, true)
      else match mapFind s d a.coll a.target with
        | some m => ({ r with list := m.2.2.1, pos := m.2.2.2.1, bucket := m.2.1 / 8, slot := m.2.1 % 8 }, deleteVector d a.coll a.target e s, true)
        | none => (r, s, true)
    | none => (r, s, true)
  | 3 => (r, if acComputed a then applyExts e a s else applyWrite e a.target a.arg (slice a.data 0 a.len) [] s, true)
  | 4 => ({ r with replaced := replacedEpoch s a.target (acIndex a) e }, nodeWrites e [a.target] (putVersion a.target (acIndex a) e
      (if a.target = 0 then collEntry s a else if a.data.isEmpty then none else some a.data) s), true)
  | 5 =>
    ({ r with list := a.target, replaced := ((collAt s a.coll s.eng.epoch).map fun d => replacedEpoch s (coDirectory d) a.target e).getD 0 },
      installList a.coll a.target a.arg e s, true)
  | 6 => (r, s.onIdx fun x => { x with swaps := (a.target, a.arg, e) :: x.swaps }, true)
  | _ => (r, match s.stew.pendGen with
      | some g => applyGen g (g.number == (s.stew.prev.map Gen.number).getD (g.number + 1)) e s
      | none => s, true)

/-- Every action of a husk applied, in order: resolutions, state, and whether each insert found a slot. -/
def applyActions (e : Nat) : List (Action × Resn) → State → List Resn × State × Bool
  | [], s => ([], s, true)
  | (a, r) :: rest, s =>
    let (r', s', ok) := applyAction e a r s
    let (rs, s'', ok') := applyActions e rest s'
    (r' :: rs, s'', ok && ok')

/-! Shadows (R109, R110, R224). -/

/-- The first epoch at which a position was visible, by the list's ring. -/
def bornAt (l : IList) (p : Nat) : Nat := ((l.ring.reverse.find? fun r => decide (p < r.len)).map Ring.epoch).getD 0

/-- A list's entries as a shadow begun at an epoch holds them: those visible then, as they are now, and those appended
since with the epoch of each. -/
def shadowParts (l : IList) (since : Nat) : List LEnt × List (Nat × LEnt) :=
  let ps := l.ents.zipIdx
  let n := lengthAt l since
  let was (x : LEnt) : Bool := !x.settled && !(x.tomb && decide (x.delEpoch ≤ since))
  ((ps.filter fun p => decide (p.2 < n) && was p.1).map Prod.fst,
   (ps.filter fun p => decide (n ≤ p.2)).map fun p => (bornAt l p.2, p.1))

/-- Appends of two lists in commit order (R110). -/
def byEpoch (l : List (Nat × LEnt)) : List (Nat × LEnt) := l.foldr ins []
where
  ins (x : Nat × LEnt) : List (Nat × LEnt) → List (Nat × LEnt)
    | [] => [x]
    | y :: ys => if x.1 ≤ y.1 then x :: y :: ys else y :: ins x ys

/-- The exact value of a number, 0 where it has none. -/
def ratOf : Num → Rat
  | .fin v _ => v
  | _ => 0

/-- A coarse vector's values. -/
def coarseVals (s : State) (d : Bytes) (x : LEnt) : List Rat :=
  let f := coarseWord s d
  let n := coCoarseDims d
  (decodeRow f n x.coarse (x.coarse.drop (rowBytes f n))).map ratOf

/-- Squared distance, exact. -/
def distRat (a b : List Rat) : Rat := (List.zipWith (fun x y => (x - y) * (x - y)) a b).sum

/-- Whether a vector joins the second half: nearer to the second centre; at equal distances as the node decides (log
entry 12). -/
def secondHalf (c : Nat × Nat) (a b v : List Rat) (p : Nat) : Bool :=
  let x := distRat v a
  let y := distRat v b
  if y < x then true else if x < y then false else Config.splitTie c.1 c.2 p

/-- The mean of vectors, or a former centre where there are none. -/
def meanRat (old : List Rat) (vs : List (List Rat)) : List Rat :=
  match vs with
  | [] => old
  | v :: rest => (rest.foldl (List.zipWith (· + ·)) v).map fun x => x / (vs.length : Nat)

/-- 2-means (R109): the two centres after so many iterations. -/
def twoMeans (c : Nat × Nat) (vs : List (List Rat)) : Nat → List Rat × List Rat → List Rat × List Rat
  | 0, ab => ab
  | k + 1, (a, b) =>
    let ps := vs.zipIdx
    twoMeans c vs k (meanRat a ((ps.filter fun p => !secondHalf c a b p.1 p.2).map Prod.fst),
      meanRat b ((ps.filter fun p => secondHalf c a b p.1 p.2).map Prod.fst))

/-- The two centres of a list's split: 8 iterations seeded with its lowest and highest visible positions (R109). -/
def splitCentres (s : State) (d : Bytes) (coll list : Nat) (base : List LEnt) : List Rat × List Rat :=
  let vs := base.map (coarseVals s d)
  twoMeans (coll, list) vs 8 (vs.headD [], vs.getLastD [])

/-- A rebuild's shadow lists brought up to the live lists, under the swap husk's locks (R110, R224). In recovery they are as the record's
close left them (R217). DESIGN CHOICE (log entry 94): an entry appended since a split's shadow began goes to the nearer of the centres
found then. -/
def catchUp (x : Husk) (s : State) : State :=
  match x.rebuild.bind (tabGet s.idx.rebuilds) with
  | none => x.shadows.foldl (fun s p => putList p.1 p.2 s) s
  | some b =>
    match collAt s b.coll s.eng.epoch with
    | none => s
    | some d =>
      let sh := (x.actions.filter fun a => a.kind == 5).map Action.arg
      let put (i : Nat) (l : Nat) (es : List LEnt) (s : State) : State :=
        let h := sh.getD i 0
        putList h { liveInfo s d b.coll l h with ents := es } s
      let (b1, n1) := shadowParts (liveOf s d b.coll b.list) b.since
      if b.kind = 0 then put 0 b.list (b1 ++ n1.map Prod.snd) s
      else if b.kind = 1 then
        let (p, q) := splitCentres s d b.coll b.list b1
        let side (y : LEnt × Nat) : Bool := secondHalf (b.coll, b.list) p q (coarseVals s d y.1) y.2
        let es := (b1 ++ n1.map Prod.snd).zipIdx
        put 1 (coCount d) ((es.filter side).map Prod.fst) (put 0 b.list ((es.filter fun y => !side y).map Prod.fst) s)
      else if b.kind = 2 then
        let (b2, n2) := shadowParts (liveOf s d b.coll b.list2) b.since
        put 0 b.list (b1 ++ b2 ++ (byEpoch (n1 ++ n2)).map Prod.snd) s
      else s
where
  liveOf (s : State) (d : Bytes) (coll l : Nat) : IList := (liveList s d coll l).2
  liveInfo (s : State) (d : Bytes) (coll l h : Nat) : IList :=
    let src := (liveList s d coll l).2
    let own := (tabGet s.idx.lists h).getD {}
    { own with coll := coll, list := l, t1 := src.t1, culm := src.culm, ring := [], head := 0 }

/-- A husk's actions applied at an epoch. -/
def applyHusk (e : Nat) (x : Husk) (s : State) : List Resn × State × Bool := 
  applyActions e (x.actions.zip x.resns) (catchUp x s)

/-! Prepare (R205). -/

/-- The classes of a husk's actions: bit 0 INDEX, 1 OBJECT, 2 TABLE, 3 CONFIG (R198, R200). -/
def classBits (s : State) (x : Husk) : Nat :=
  let cls (a : Action) : Nat :=
    if a.kind = 1 || a.kind = 2 || a.kind = 5 then 0 else if a.kind = 3 then 1 else if a.kind = 7 then 3
    else if a.target = 0 || isDirectory s a.target || (s.idx.vers.any fun v => v.table == 0 && v.data.any fun d =>
      coCentroids d == a.target) then 0 else 2
  ((nub (x.actions.map cls)).map (2 ^ ·)).sum
/-- Whether a husk's actions fall in more than one class or hold a CONFIG action (R200). -/
def crossSubsystem (s : State) (x : Husk) : Bool := x.config || !([0, 1, 2, 4].contains (classBits s x))

/-! The journal record (R216). -/

/-- The payload of a husk's section: source data at their offsets, then the units of a computed range (R181, R216; log entry 106). -/
def huskPayload (x : Husk) : Bytes :=
  let own := x.actions.filter fun a => !acComputed a
  let n := (own.map fun a => a.src + a.data.length).foldl max 0
  memRead (own.foldl (fun m a => memWrite m a.src a.data) []) 0 n ++ x.actions.flatMap fun a => a.exts.flatMap (toLe 8)
/-- Bytes of that payload. -/
def payloadBytes (x : Husk) : Nat :=
  ((x.actions.filter fun a => !acComputed a).map fun a => a.src + a.data.length).foldl max 0 + (x.actions.map fun a => 8 * a.exts.length).sum
/-- A husk's header with the node's fields filled in (R198). -/
def huskHeader (x : Husk) : Bytes :=
  toLe 1 x.actions.length ++ toLe 1 (b2n x.binder.isSome) ++ toLe 2 x.tenant ++ toLe 4 ((x.binder.map Prod.fst).getD 0) ++ toLe 8 x.staging ++
    toLe 4 (payloadBytes x) ++ zeros 4 ++ toLe 8 x.age ++ toLe 8 x.epoch ++ toLe 2 (x.slot.getD 0) ++ toLe 1 x.cls ++ [0] ++
    toLe 4 x.wounds ++ zeros 16
/-- An action's 32 bytes (R199). -/
def actionBytes (a : Action) : Bytes :=
  toLe 1 a.kind ++ toLe 1 (a.flags % 8) ++ toLe 2 a.coll ++ toLe 4 a.len ++ toLe 8 a.target ++ toLe 8 a.src ++ toLe 8 a.arg
/-- A resolution's 32 bytes (R216). -/
def resnBytes (r : Resn) : Bytes :=
  toLe 4 r.list ++ toLe 4 r.pos ++ toLe 8 r.bucket ++ toLe 1 r.slot ++ toLe 1 (b2n r.skipped) ++ zeros 2 ++ toLe 4 r.segment ++
    toLe 8 r.replaced
/-- Bytes of a husk section of the journal (R216). -/
def sectionBytes (x : Husk) : Nat := 64 + 64 * x.actions.length + roundUp (payloadBytes x) 64
/-- Bytes of a record of husks (R216). -/
def journalBytes (xs : List (Nat × Husk)) : Nat := 64 + (xs.map fun p => sectionBytes p.2).sum
/-- A record's bytes with a CRC in its place (R216). -/
def recordImage (r : JRec) (crc : Nat) : Bytes :=
  toLe 4 0x4B535548 ++ toLe 2 1 ++ toLe 2 r.husks.length ++ toLe 8 r.seq ++ toLe 8 r.epoch ++ toLe 4 (journalBytes r.husks) ++
    toLe 4 r.boot ++ toLe 8 r.uptime ++ toLe 4 r.gen ++ toLe 4 crc ++ zeros 16 ++
    r.husks.flatMap fun h =>
      huskHeader h.2 ++ h.2.actions.flatMap actionBytes ++ h.2.resns.flatMap resnBytes ++
        slice (huskPayload h.2) 0 (roundUp (payloadBytes h.2) 64)
/-- The CRC-32C of a record: over all of it with the field as 0 (R216). -/
def recordCrc (r : JRec) : Nat := crc32c (recordImage r 0)
/-- A record as it stands on the SLC region. -/
def journalImage (r : JRec) : Bytes := recordImage r r.crc
/-- Whether a record and its extents are whole (R181, R217). -/
def recordGood (s : State) (r : JRec) : Bool :=
  r.crc == recordCrc r && r.husks.all fun h => h.2.actions.all fun a => a.exts.all (extGood s)

/-- Husks of the open group, in ascending age. -/
def groupHusks (s : State) : List (Nat × Husk) := s.eng.husks.filter fun p => s.eng.group.contains p.1

/-- The shadow lists that a rebuild's swap installs, caught up. -/
def shadowsOf (x : Husk) (s : State) : List (Nat × IList) :=
  (x.actions.filter fun a => a.kind == 5).filterMap fun a => (tabGet s.idx.lists a.arg).map fun l => (a.arg, l)

/-- Husks to be committed, in ascending age, applied in order: what each resolved to, and the state. -/
def applyHusks (e : Nat) : List (Nat × Husk) → State → List (Nat × Husk) × State
  | [], s => ([], s)
  | (n, x) :: rest, s =>
    let (rs, s', _) := applyHusk e x s
    let (hs, s'') := applyHusks e rest s'
    ((n, { x with resns := rs, shadows := shadowsOf x (catchUp x s) }) :: hs, s'')

/-- The state as the groups already closed will leave it. -/
def closedState (s : State) : State :=
  s.eng.closing.foldl (fun s r => ((applyHusks r.epoch r.husks s).2).onEng fun e => { e with epoch := r.epoch }) s

/-- The epoch at which the next group to close commits (R215). -/
def nextEpoch (s : State) : Nat := s.eng.epoch + s.eng.closing.length + 1

/-- Whether the open group may close: it holds a husk, an epoch is left for it, and its record keeps those not yet durable
within 256 MiB (R215, R193, R245). -/
def mayClose (s : State) : Bool :=
  !(groupHusks s).isEmpty && decide (nextEpoch s < 2 ^ 48) &&
    decide (((s.eng.closing.filter fun r => !r.durable).map fun r => journalBytes r.husks).sum + journalBytes (groupHusks s) ≤ 2 ^ 28)

/-- The open group closes: its husks enter COMMITTING in ascending age, their list positions are assigned and their journal
record is written (R215 steps 1 and 2). -/
def closeGroup (s : State) : State :=
  let xs := (groupHusks s).map fun p => (p.1, { p.2 with epoch := nextEpoch s, cls := classBits s p.2 })
  let r : JRec := {
    seq := s.eng.jseq + 1, epoch := nextEpoch s, boot := s.stew.boot, uptime := now s, gen := (gen s).number
    husks := (applyHusks (nextEpoch s) xs (closedState s)).1, pos := s.eng.jpos }
  let r := { r with crc := recordCrc r }
  (token 0x0E 61 0 2 xs.length s).onEng fun g => { g with
    jseq := g.jseq + 1, jpos := g.jpos + journalBytes r.husks, closing := g.closing ++ [r], group := []
    husks := r.husks.foldl (fun t p => tabSet t p.1 { p.2 with hstate := .committing }) g.husks }

/-- A husk joins the open commit group and returns the reservation it has not used (R205 step 5, R213); a group whose record
it would take past 4 MiB closes first, and while that may not close the husk waits (R215, R245). -/
def joinGroup (id : Nat) (s : State) : State :=
  match tabGet s.eng.husks id with
  | none => s
  | some x =>
    let past := !s.eng.group.isEmpty && decide (4 * 2 ^ 20 < journalBytes (groupHusks s) + sectionBytes x)
    if s.eng.jdown && x.hstate != .computing then failHusk id { st := St.journalUnavailable } s
    else if past && !mayClose s then s
    else
      let s := if past then closeGroup s else s
      let used := (s.eng.locks.filter (lockOf true id)).length
      s.onEng fun e => { e with
        reserved := e.reserved - (x.reserved - used), group := e.group ++ [id]
        husks := tabMod e.husks id fun y => { y with reserved := used, hstate := .grouped } }

/-- A husk gives back its locks and pins and begins prepare again with its age, once the list it waits for, if any, has room
(R205, R211). -/
def beginAgain (id : Nat) (w : Option (Nat × Nat)) (s : State) : State :=
  match tabGet s.eng.husks id with
  | none => s
  | some x =>
    modHusk id (fun y => { y with
      hstate := .admitted, resolved := false, resns := [], pins := [], plan := declaredPlan s x, waitList := w })
      (x.pins.foldl (fun s k => dropPin k s) (releaseLocks true id s))

/-- A husk waits for the split of a full list (R108, R205). -/
def waitFull (id coll l : Nat) (s : State) : State :=
  beginAgain id (some (coll, l)) (s.onIdx fun v => { v with
    cstats := tabSet v.cstats coll { tabGetD v.cstats coll {} with fullWaits := (tabGetD v.cstats coll {}).fullWaits + 1 } })

/-- Whether a husk holds a lock that covers a key. -/
def holdsKey (s : State) (id : Nat) (r : Range) : Bool :=
  s.eng.locks.any fun l => lockOf true id l && l.held && l.range.space == r.space && l.range.name == r.name &&
    decide (l.range.lo ≤ r.lo) && decide (r.hi ≤ l.range.hi) && (l.range.excl || !r.excl)

/-- What an update resolved is checked again under its derived locks (R205 step 4). -/
def resolveAgain (s : State) (x : Husk) : RRes :=
  if x.actions.any fun a => a.kind == 1 || a.kind == 2 then resolveAll s x (isUpdate s x) 0 x.actions {}
  else .ok { resns := x.resns }

/-- Every lock is held: steps 4 and 5 of prepare; an ELEMENTWISE husk enters COMPUTING (R205, R204). -/
def finishPrepare (id : Nat) (s : State) : State :=
  match tabGet s.eng.husks id with
  | none => s
  | some x =>
    match resolveAgain s x with
    | .fail f => failHusk id f s
    | .full c l => waitFull id c l s
    | .ok acc =>
    if acc.resns != x.resns || !(lockPlan acc.locks).all (holdsKey s id) then beginAgain id none s
    else if !(applyHusk (s.eng.epoch + 1) x s).2.2 then
      failHusk id { st := St.collectionFull, idx := (((applyHusk (s.eng.epoch + 1) x s).1.zip x.actions).zipIdx.find? fun p =>
        !(applyActions (s.eng.epoch + 1) ((x.actions.zip x.resns).take (p.2 + 1)) s).2.2).elim 0 Prod.snd } s
    else if x.actions.any acComputed then
      modHusk id (fun y => { y with hstate := .computing, ops := ceilDiv (ewCount s (huskEntry s x)) (2 ^ 20) }) s
    else joinGroup id s

/-- Whether an object a husk writes is PROMOTING or WRITING_BACK: the husk waits in prepare (R238, R239). -/
def targetBusy (s : State) (x : Husk) : Bool :=
  x.actions.any fun a => a.kind == 3 && ((objOf s a.target).map fun o => o.st == .promoting || o.st == .writingBack).getD false

/-- The pins of a husk on the objects it writes, from prepare on (R239). -/
def huskPins (x : Husk) (s : State) : List Nat × State :=
  (nub ((x.actions.filter fun a => a.kind == 3).map fun a => hIndex a.target)).foldl (fun p i =>
    let q := pinObj i p.2
    (p.1 ++ [q.1], q.2)) ([], s)

/-- Whether the space a CONFIG husk's generation needs is still held: the husk waits (R34, R38). -/
def configShort (s : State) (x : Husk) : Bool := x.config && s.stew.pendGen.any fun g => !genFits s g

/-- Prepare goes on while no lock is waited for: resolution once the declared locks are held, then the derived ones. A CONFIG
husk waits until the evictor has freed its generation's space. -/
def goPrepare (id : Nat) (s : State) : State :=
  match tabGet s.eng.husks id with
  | none => s
  | some x =>
    if !x.plan.isEmpty then s
    else if x.resolved then finishPrepare id s
    else if crossSubsystem s x && s.stew.busy then s
    else if targetBusy s x then s
    else if configShort s x then (s.stew.pendGen.map fun g => genRoom g s).getD s
    else if (huskPoisoned s x).isSome then failHusk id { st := St.poison, idx := (huskPoisoned s x).getD 0 } s
    else match resolveAll s x (isUpdate s x) 0 x.actions {} with
      | .fail f => failHusk id f s
      | .full c l => waitFull id c l s
      | .ok acc =>
        let (pins, s) := huskPins x (assignDrops x s)
        let s := modHusk id (fun y => { y with
          resolved := true, resns := acc.resns, plan := lockPlan acc.locks, pins := pins }) s
        if acc.locks.isEmpty then finishPrepare id s else s

/-- A younger husk that a waiting one wounds (R211). -/
def woundable (s : State) (h : Nat) (r : Range) (p : Nat × Husk) : Bool :=
  decide (h < p.1) && (p.2.hstate == .preparing || p.2.hstate == .waiting || p.2.hstate == .grouped) &&
    !(p.2.hstate == .grouped && p.2.actions.any acComputed) &&
    s.eng.locks.any fun l => lockOf true p.1 l && l.held &&
      (rangesConflict l.range r ||
        (earlierThan true h s.eng.locks).any fun c =>
          !c.held && !c.husk && rangesConflict c.range r && rangesConflict l.range c.range)

/-- A wounded husk gives everything back and begins prepare again with its age (R211). -/
def wound (id : Nat) (s : State) : State :=
  match tabGet s.eng.husks id with
  | none => s
  | some x =>
    (beginAgain id none s).onEng fun e => { e with
      reserved := e.reserved - x.reserved + huskNeeds x, group := e.group.filter (· != id)
      husks := tabMod e.husks id fun y => { y with wounds := y.wounds + 1, reserved := huskNeeds x } }

/-- Every husk that waits wounds the younger ones that stand in its way now (R211, R212). -/
def woundAll (s : State) : State :=
  s.eng.husks.foldl (fun s p =>
    match s.eng.locks.find? fun l => lockOf true p.1 l && !l.held with
    | some l => (s.eng.husks.filter (woundable s p.1 l.range)).foldl (fun s q => wound q.1 s) s
    | none => s) s

/-- A husk's waiting request is granted: those it now stands in the way of wound it, else prepare goes on (R205, R211). -/
def grantLock (id : Nat) (s : State) : State :=
  goPrepare id (woundAll (s.onEng fun e => { e with
    locks := e.locks.map fun l => if lockOf true id l then { l with held := true } else l }))

/-- Whether a husk's range on object bytes waits for commands that read or will read them (R192). -/
def behindCommand (s : State) (id : Nat) (r : Range) : Bool :=
  r.space == 3 && (earlierThan true id s.eng.locks).any fun l => !l.husk && rangesConflict l.range r

/-- A husk requests its next lock: granted at once unless an earlier request is still to be granted, or it waits and wounds (R205, R210,
R211). A lock that one it holds already covers needs no request. -/
def requestLock (id : Nat) (s : State) : State :=
  match tabGet s.eng.husks id with
  | none => s
  | some x =>
    match x.plan with
    | [] => goPrepare id s
    | r :: rest =>
      let s := modHusk id (fun y => { y with plan := rest, hstate := .preparing }) s
      if holdsKey s id r then goPrepare id s
      else
        let s := token 0x0D 61 0 2 (x.slot.getD 0) s
        let s := s.onEng fun e => { e with locks := e.locks ++ [{ husk := true, id := id, range := r, held := false }] }
        if huskMayHold s id r && !grantBehind s true id then grantLock id s
        else
          let s := s.onEng fun e => { e with rangeWaits := e.rangeWaits + b2n (behindCommand s id r) }
          woundAll (modHusk id (fun y => { y with hstate := .waiting }) s)

/-! The commit (R215). -/

/-- What a husk reports once committed: (applied, skipped) (R103, R203). -/
def huskCounts (s : State) (x : Husk) : Nat × Nat :=
  if isUpdate s x then
    let ps := x.actions.zip x.resns
    let ids := nub (ps.map fun p => p.1.target)
    let skip := ids.filter fun v => ps.all fun p => p.1.target != v || p.2.skipped
    (ids.length - skip.length, skip.length)
  else if byteAt (huskEntry s x) 0 = 0x35 then (ewCount s (huskEntry s x), 0)
  else ((x.resns.filter fun r => !r.skipped).length, 0)

/-- A committed husk releases its locks and reports its epoch; its binder increment follows (R197, R198, R215 step 5). -/
def completeHusk (id : Nat) (e : Nat) (s : State) : State :=
  match tabGet s.eng.husks id with
  | none => s
  | some x =>
    let (n, sk) := huskCounts s x
    let s := endHusk id s
    let s := match x.cmd, x.mbx, x.rebuild with
      | some c, _, _ =>
        let st := ((cmdOf s c).map fun y => if y.viol = 0 && !y.bad.isEmpty then St.poison else y.viol).getD St.success
        finishCmd c { status := st, count := n, detail := sk, word := some e } s
      | none, some m, _ =>
        zRespond m St.success 0 (huskBody (((mbxOf s m).req.map fun r => fld r.msg 0 2).getD 0) e n (gen s).number) s
      | none, none, some r => endRebuild r St.success e s
      | none, none, none => s
    match x.binder with
    | none => s
    | some (b, k) =>
      if ((tabGet s.eng.binders b).map Binder.alloc) = some k then token 0x0F 61 0 2 61 (binderAdd b 1 s)
      else s.onEng fun g => { g with discards := tabAdd g.discards x.tenant 1 }

/-- Lists a state's commit changes: those with a ring slot at the epoch. -/
def ringNeeds (s s' : State) (e f : Nat) : List Nat :=
  (s'.idx.lists.filter fun p =>
    (p.2.ring.any fun r => r.epoch == e) &&
      match tabGet s.idx.lists p.1 with
      | some l => decide (64 ≤ l.ring.length) && !((l.ring[62]?).any fun r => decide (r.epoch ≤ f))
      | none => false).map Prod.fst


/-- The floor once a commit's epoch is current (R96). -/
def floorAfter (s : State) : Nat :=
  let kept := max s.eng.oldest (s.eng.epoch + 2 - genRetention (gen s))
  match s.eng.drain.find? fun p => p.2 != 0 with
  | some p => min p.1 kept
  | none => kept

/-- Sizes of the old versions that the version pool keeps (R219): versions with a newer one of their entry, and what an entry held
before its first version while a reader below that one's tag may be left. -/
def poolVersions (f : Nat) (vs : List TVer) : List Nat :=
  vs.flatMap fun v =>
    let n := (v.data.map List.length).getD 0
    let own := vs.filter fun w => w.table == v.table && w.index == v.index
    (if own.any fun w => decide (v.tag < w.tag) then [n] else []) ++
      if v.table != 0 && decide (f < v.tag) && own.all (fun w => decide (v.tag ≤ w.tag)) then [n] else []

/-- Whether a commit needs more of the version pool than there is (R219): before, after. -/
def poolFull (s s' : State) : Bool :=
  let a := poolVersions (floorAfter s) s.idx.vers
  let b := poolVersions (floorAfter s) s'.idx.vers
  decide (a.length < b.length) && (decide (genPool (gen s') < b.sum) || decide (1048576 < b.length))

/-- Barriers whose epochs left retention are dropped (R223). -/
def dropBarriers (s : State) : State :=
  s.onEng fun e => { e with barriers := e.barriers.filter fun b => decide (oldestRetained s ≤ b.epoch) }

/-- Lists that a commit brought over a threshold, by a change of theirs or of their collection's descriptor, get a rebuild (R109). -/
def queueRebuilds (e : Nat) (s : State) : State :=
  let coll (c : Nat) : Bool := s.idx.vers.any fun v => v.table == 0 && v.index == c && v.tag == e
  (s.idx.lists.filter fun p => coll p.2.coll || p.2.ring.any fun r => r.epoch == e).foldl (fun s p =>
    match collAt s p.2.coll e with
    | none => s
    | some d =>
      let b : Rebuild := { coll := p.2.coll, list := p.2.list }
      let has (k : Nat) : Bool := s.idx.rebuilds.any fun q => sameTarget q.2 b && q.2.kind == k
      let n := listLen p.2
      if deList (dirEntry s d p.2.list e) != p.1 then s
      else if coSplit d ≤ n && decide (coCount d < 2 ^ 20) && !has 1 then (addRebuild { b with kind := 1 } s).2
      else if coChaff d * n < 256 * (listSettled p.2 + listRecent p.2) && !has 0 then (addRebuild b s).2
      else s) s

/-- The objects that an action changes (R244). -/
def actionObjects (s : State) (a : Action) (r : Resn) : List Nat :=
  match a.kind with
  | 1 | 2 | 5 => match collAt s a.coll s.eng.epoch with
    | some d => if a.kind = 5 then [a.arg, coDirectory d, coMap d] else if r.skipped then [] else [deList (dirEntry s d r.list s.eng.epoch), coMap d]
    | none => []
  | 3 | 4 | 6 => [a.target]
  | _ => []

/-- Whether a journal record is still needed: a persistent object it changed has a lower written_epoch (R244). -/
def recordNeeded (s : State) (r : JRec) : Bool :=
  r.husks.any fun h => (h.2.actions.zip h.2.resns).any fun p => (actionObjects s p.1 p.2).any fun o =>
    (objOf s o).any fun o => decide (2 ≤ o.home) && decide (o.writtenEpoch < r.epoch)

/-- Blocks of the journal that hold a record. -/
def recordBlocks (n : Nat) (r : JRec) : List Nat :=
  (List.range ((r.pos + journalBytes r.husks - 1) / n + 1 - r.pos / n)).map (r.pos / n + ·)

/-- Journal records leave the SLC region a whole block at a time, once none in the block is needed; units of extents go with the block
that refers to them (R181, R244, R256). -/
def freeJournal (s : State) : State :=
  let n := journalBlock s
  if n = 0 then s
  else
    let kept := s.eng.jpos / n :: (s.eng.journal.filter (recordNeeded s)).flatMap (recordBlocks n)
    let left := s.eng.journal.filter fun r => (recordBlocks n r).any kept.contains
    if left.length = s.eng.journal.length then s
    else
      let used := ((left ++ s.eng.closing).flatMap fun r => r.husks).flatMap (fun h => h.2.actions.flatMap Action.exts) ++
        s.eng.husks.flatMap fun h => h.2.actions.flatMap Action.exts
      (s.onEng fun e => { e with journal := left }).onFls fun f => { f with jext := f.jext.filter fun u => used.contains u.1 }

/-- The oldest closed group commits once its record is durable, or waits for a drain entry, a ring slot or the version pool
(R215, R219, R220, R96). -/
def commitFirst (s : State) : State :=
  match s.eng.closing with
  | [] => s
  | r :: later =>
    if !r.durable then s
    else
      let e := r.epoch
      let s' := (applyHusks e r.husks s).2
      let full := ringNeeds s s' e (floorAfter s)
      let wait (k : Nat) : State := s.onEng fun x => { x with waitFor := some k }
      let one (k : Nat) : Bool := s.eng.waitFor != some k
      if 128 ≤ s.eng.drain.length && !(s.eng.drain.any (fun p => p.2 == 0)) then
        (wait 0).onEng fun x => { x with drainWaits := x.drainWaits + b2n (one 0) }
      else if !full.isEmpty then
        ((wait 1).onEng fun x => { x with ringWaits := x.ringWaits + b2n (one 1) }).onIdx fun x => { x with
          cstats := if one 1 then (nub (full.map fun h => ((tabGet s.idx.lists h).map IList.coll).getD 0)).foldl (fun t c =>
            tabSet t c { tabGetD t c {} with ringWaits := (tabGetD t c {}).ringWaits + 1 }) x.cstats else x.cstats }
      else if poolFull s s' then
        (wait 2).onEng fun x => { x with poolWaits := x.poolWaits + b2n (one 2) }
      else
        let s := s'.onEng fun x => { x with
          closing := later, waitFor := none, epoch := e, journal := { r with durable := true } :: x.journal,
          drain := tabSet (x.drain.filter fun p => p.2 != 0) e 0 }
        freeJournal (queueRebuilds e (r.husks.foldl (fun s h => completeHusk h.1 e s) (dropBarriers s)))

/-- Groups whose records are durable commit one after another, oldest first (R215). -/
def commitGo : Nat → State → State
  | 0, s => s
  | n + 1, s =>
    let t := commitFirst s
    if t.eng.closing.length < s.eng.closing.length then commitGo n t else t
/-- Every group that may commit now does. -/
def tryCommit (s : State) : State := commitGo s.eng.closing.length s

end Sys2Proof.Machine
end

