-- ==== Sys2Proof/Machine/Digest.lean ====
section
/-! DEFINITION. Signature and log records as bytes (R384 to R389), the digests of a recording (R397, R409), and what every meaning
passes through: whether its command reaches the node, and the digest of what it writes. -/

namespace Sys2Proof.Machine
open Sys2Proof

/-- A GUID's bytes as UEFI orders them, of its hexadecimal digits as a number. -/
def guid (x : Nat) : Bytes :=
  (toLe 4 (x / 2 ^ 96)) ++ toLe 2 (x / 2 ^ 80 % 2 ^ 16) ++ toLe 2 (x / 2 ^ 64 % 2 ^ 16) ++ (toLe 8 (x % 2 ^ 64)).reverse
/-- Severity by the action taken (R385); a fatal cause is viral, a FAULT_CAUSE bit or FAULT. -/
def sigSeverity (d : Det) : Nat :=
  if [6, 9, 0x0A, 0x23].contains d.cause || (d.cause = 0x24 && d.action = 2) then 1
  else if d.action = 1 || d.action = 4 then 2
  else if d.action = 6 then 3
  else 0
/-- The Allawick section (R386). Supply and clock are measured (log entry 19). -/
def sigSection (d : Det) : Bytes :=
  toLe 2 1 ++ toLe 1 d.kind ++ toLe 1 d.cause ++ toLe 1 d.unitKind ++ toLe 1 d.island ++ toLe 2 d.unit ++ toLe 2 d.physical ++
    toLe 1 d.action ++ toLe 1 d.profile ++ toLe 2 d.node ++ toLe 1 d.spares ++ [0] ++ toLe 4 d.boot ++ toLe 4 d.gen ++
    toLe 8 d.uptime ++ toLe 8 d.epoch ++ toLe 4 d.run ++ toLe 4 d.patternSet ++ toLe 2 d.pattern ++ toLe 1 d.vStep ++
    toLe 1 d.fStep ++ toLe 2 (Config.measured (3 * d.unitKind) d.unit) ++ toLe 2 (d.clock.getD (Config.measured (3 * d.unitKind + 1) d.unit)) ++
    toLe 2 (if d.kind = 1 then fieldOfInt 16 d.temp else Config.measured (3 * d.unitKind + 2) d.unit) ++ toLe 2 d.heater ++
    toLe 4 d.iteration ++ toLe 8 d.location ++ toLe 4 d.expected ++ toLe 4 d.observed ++ toLe 4 d.count ++ zeros 4 ++
    toLe 8 d.related ++ toLe 2 d.tenant ++ toLe 2 d.qp ++ toLe 2 d.cid ++ toLe 1 d.opcode ++ [0] ++ toLe 8 d.handle ++ zeros 16
/-- A signature record of 328 bytes (R384). The CMC and MCE types are UEFI's (log entry 43). -/
def sigRecord (n : Nat) (d : Det) : Bytes :=
  let sev := sigSeverity d
  let id := slice Config.platformId 0 16
  [0x43, 0x50, 0x45, 0x52] ++ toLe 2 0x0101 ++ toLe 4 0xFFFFFFFF ++ toLe 2 1 ++ toLe 4 sev ++ toLe 4 1 ++ toLe 4 328 ++ zeros 8 ++
    id ++ zeros 16 ++ guid 0x4E1D7A306C254F8B9A023B57E1C4D6A9 ++
    guid (if sev = 2 then 0x2DCE8BB1BDD7450EB9AD9CF4EBD4F890 else 0xE8F56FFE919C4CC5BA8865ABE14913BB) ++
    toLe 8 n ++ toLe 4 (b2n (d.action == 1)) ++ zeros 8 ++ zeros 12 ++
    toLe 4 200 ++ toLe 4 128 ++ toLe 2 0x0100 ++ [3, 0] ++ toLe 4 1 ++ guid 0x9C2F4E610B7D4A388E156D20A7C3B94F ++ id ++ toLe 4 sev ++
    slice [0x45, 0x52, 0x57, 0x2D, 0x54, 0x4E, 0x31, 0x2D, 0x41, 0x30] 0 20 ++ sigSection d

/-- A log record's 64 bytes (R389). -/
def logBytes (r : LogRec) : Bytes :=
  let b := toLe 8 r.seq ++ toLe 4 r.boot ++ toLe 2 r.code ++ toLe 1 r.source ++ toLe 1 r.severity ++ toLe 8 r.uptime ++ slice r.body 0 36
  b ++ toLe 4 (crc32c b)

/-! The digest domain (R397): the writes of a command are read off the states before and after it, in the order below (log entry
44); fields that a layout names as uptime stand as 0. -/

/-- A digest event: island, what is written, target, bytes. -/
structure DigEvent where
  island : Nat := 0
  what : Nat := 0
  target : Nat := 0
  bytes : Bytes := []
  deriving DecidableEq, Repr

/-- An event as it is digested (R409). -/
def eventBytes (e : DigEvent) : Bytes :=
  toLe 2 (Config.digestKind e.what).toNat ++ zeros 2 ++ toLe 4 e.bytes.length ++ toLe 8 e.target ++ e.bytes

/-- The stretch of addresses, first and length, that holds every byte in which two memories differ. -/
def changedSpan (a b : Mem) : Option (Nat × Nat) :=
  match ((a.filter fun c => !b.contains c) ++ b.filter fun c => !a.contains c).map Prod.fst with
  | [] => none
  | x :: xs => let lo := xs.foldl min x; some (lo, xs.foldl max x + 1 - lo)

/-- Bytes of objects with a copy or home in T0 or T1, and the headers of the object table. -/
def objectEvents (s t : State) : List DigEvent :=
  (t.obj.recs.flatMap fun p =>
    let o := (tabGet s.obj.recs p.1).getD {}
    let head (o : ObjRec) (s : State) : Bytes := objHeader s { o with lastTouch := 0 }
    (match if p.2.home ≤ 1 || (p.2.upper ≤ 1 && servingTier p.2 == p.2.upper) then changedSpan o.mem p.2.mem else none with
      | some (a, n) => [{ island := 36, what := 0, target := p.2.handle, bytes := memRead p.2.mem a n }]
      | none => []) ++
    if o == p.2 || head o s == head p.2 t then [] else [{ island := 36, what := 1, target := p.2.handle, bytes := head p.2 t }]) ++
  ((s.obj.recs.filter fun p => (tabGet t.obj.recs p.1).isNone).map fun p =>
    { island := 36, what := 1, target := p.2.handle, bytes := zeros 64 })

/-- Epoch, versioned tables with the version pool, epoch rings, binders. -/
def engineEvents (s t : State) : List DigEvent :=
  (if s.eng.epoch = t.eng.epoch then [] else [{ island := 61, what := 2, bytes := toLe 8 t.eng.epoch }]) ++
  ((t.idx.vers.filter fun v => !s.idx.vers.contains v).map fun v =>
    { island := 61, what := 3, target := v.table, bytes := toLe 8 v.index ++ toLe 8 v.tag ++ v.data.getD [] }) ++
  ((t.idx.lists.filter fun l => (tabGet s.idx.lists l.1).map IList.ring != some l.2.ring).flatMap fun l =>
    (l.2.ring.head?.map fun r => { island := 61, what := 4, target := l.1, bytes := toLe 8 r.epoch ++ toLe 4 r.len ++ toLe 4 r.chaff }).toList) ++
  ((t.eng.binders.filter fun b => (tabGet s.eng.binders b.1).map Binder.value != some b.2.value).map fun b =>
    { island := 61, what := 5, target := b.1, bytes := toLe 8 b.2.value })

/-- What reaches the flash: units programmed, journal records, units of journal extents. -/
def flashEvents (s t : State) : List DigEvent :=
  ((t.fls.spares.filter fun u => decide (s.fls.progSeq < u.2.seq)).map fun u =>
    { island := chanIsland (blkChan u.2.blk), what := 6, target := u.1, bytes := u.2.data }) ++
  ((t.eng.closing.filter fun r => r.durable && !s.eng.closing.any fun q => q.seq == r.seq && q.durable).map fun r =>
    { island := 61, what := 7, target := r.seq, bytes := journalImage { r with uptime := 0, crc := 0 } }) ++
  ((t.fls.jext.filter fun u => decide (s.fls.nextExt ≤ u.1)).map fun u => { island := 60, what := 8, target := u.1, bytes := u.2.data })

/-- What leaves the node or is kept for it: host writes, messages first sent, Zalpol responses and events, signature and log records, the
generation in force. -/
def outputEvents (s t : State) : List DigEvent :=
  ((t.hif.out.drop s.hif.out.length).map fun w => { island := 59, what := 9, target := w.addr, bytes := w.bytes }) ++
  ((t.fab.sent.drop s.fab.sent.length).map fun m =>
    { island := 55, what := 10, target := m.id
      bytes := toLe 2 m.dst ++ toLe 1 m.vc ++ toLe 1 m.type ++ toLe 2 m.tenant ++ toLe 8 m.epoch ++ m.body }) ++
  (t.stew.mbx.flatMap fun b =>
    let old := mbxOf s b.1
    (match b.2.req.bind ZReq.resp with
      | some r => if old.req.bind ZReq.resp = some r then [] else [{ island := 1, what := 11, target := b.1, bytes := r }]
      | none => []) ++ (b.2.events.drop old.events.length).map fun e => { island := 1, what := 12, target := b.1, bytes := e }) ++
  ((t.rel.sigs.reverse.filter fun r => decide (s.rel.nextSig ≤ r.1)).map fun r =>
    { island := 62, what := 13, target := r.1, bytes := sigRecord r.1 { r.2 with uptime := 0 } }) ++
  ((t.rel.log.reverse.filter fun r => decide (s.rel.logSeq < r.seq)).map fun r =>
    { island := 38, what := 14, target := r.seq, bytes := logBytes { r with uptime := 0 } }) ++
  if s.stew.cur = t.stew.cur then [] else [{ island := 1, what := 15, bytes := toLe 4 t.stew.cur.number }]

/-- The digest events of a command: its writes, read off the states before and after it. -/
def digestEvents (s t : State) : List DigEvent := objectEvents s t ++ engineEvents s t ++ flashEvents s t ++ outputEvents s t

/-- One event digested by its island: after 65,536 events the window closes and the next begins at 0 (R406, R409). -/
def digestOne (d : Dig) (e : DigEvent) : Dig :=
  let w := tabGetD d.open_ e.island { island := e.island }
  let w := { w with events := w.events + 1, digest := crc64 (eventBytes e) w.digest }
  if w.events = 65536 then
    { open_ := tabSet d.open_ e.island { island := e.island, window := w.window + 1 }, closed := d.closed ++ [w] }
  else { d with open_ := tabSet d.open_ e.island w }

/-- Whether digests are kept: a recording or a replay runs, and did before the command. -/
def digesting (s t : State) : Bool := (s.recd.active && t.recd.active) || (s.recd.replaying && t.recd.replaying)

/-- The digests after a command's writes. -/
def digestsAfter (s t : State) : Dig := if digesting s t then (digestEvents s t).foldl digestOne t.dig else t.dig

/-- A meaning's outcome with the digests of its writes (R409). -/
def digested (s : State) : Res → Res
  | .next t => .next { t with dig := digestsAfter s t }
  | r => r

/-- The outcome of a command that reaches the node only while it is not halted; else nothing happens. -/
def whileUp (s : State) (r : Res) : Res := if halted s then .next s else digested s r

end Sys2Proof.Machine
end

