-- ==== Sys2Proof/Machine/HuskCmds.lean ====
section
/-! DEFINITION. The commands of husks, commit groups, versions and rebuilds (chapter 08). -/

namespace Sys2Proof.Machine
open Sys2Proof

/-- A fatal detection: signature record, LAST_GASP, FAULT_CAUSE (R388, R393, R394). -/
def fatal (bit : Nat) (d : Det) (s : State) : State := raiseCause bit (detect d (latchGasp d.cause d.island s))

/-- HUSK_ADMISSION (R213, R214): the first husk waiting takes the lowest free slot and reserves its lock entries, its age
is the next. -/
def execHuskAdmission (h : Nat) (s : State) : Res := whileUp s <|
  match tabGet s.eng.husks h with
  | none => .next s
  | some x =>
    if x.hstate != .waitingSlot || s.eng.jdown || !huskRoom s x ||
        s.eng.husks.any (fun p => p.2.hstate == .waitingSlot && decide (p.1 < h)) then .next s
    else
      let slot := (List.range 4096).find? fun i => !(slotsUsed s).contains i
      .next (s.onEng fun e => { e with
        nextAge := e.nextAge + 1, reserved := e.reserved + huskNeeds x,
        husks := tabMod e.husks h fun y => { y with
          hstate := .admitted, slot := slot, age := e.nextAge, reserved := huskNeeds x, plan := declaredPlan s x } })

/-- Whether a list of a collection has no room for another entry. -/
def listFullNow (s : State) (d : Bytes) (coll l : Nat) : Bool :=
  decide (65536 ≤ listLen (liveList s d coll l).2 + pendingAppends s coll l)
/-- Whether the list a husk waits for has room again (R205). -/
def listRoom (s : State) (w : Nat × Nat) : Bool :=
  match collAt s w.1 s.eng.epoch with
  | none => true
  | some d => !listFullNow s d w.1 (listIdAt s d w.2 s.eng.epoch)

/-- The full list that a husk names itself: it waits before it takes a lock (R108, R205). -/
def explicitFull (s : State) (x : Husk) : Option (Nat × Nat) :=
  x.actions.findSome? fun a =>
    if a.kind != 1 || a.arg == 0xFFFFF then none
    else (collAt s a.coll s.eng.epoch).bind fun d =>
      let l := listIdAt s d a.arg s.eng.epoch
      let loc := deLoc (dirEntry s d l s.eng.epoch)
      if (loc == 1 || loc == 2) && decide (coCount d < 2 ^ 20) && listFullNow s d a.coll l then some (a.coll, l)
      else none

/-- HUSK_LOCK_REQUEST (R205): a husk in prepare requests its next lock; one whose list was split begins again. -/
def execHuskLockRequest (h : Nat) (s : State) : Res := whileUp s <|
  match tabGet s.eng.husks h with
  | none => .next s
  | some x =>
    if x.hstate != .admitted && x.hstate != .preparing then .next s
    else match x.waitList with
      | some w =>
        if listRoom s w then
          .next (modHusk h (fun y => { y with waitList := none, plan := declaredPlan s y, resolved := false }) s)
        else .next s
      | none =>
        match if x.hstate == .admitted then explicitFull s x else none with
        | some w => .next (waitFull h w.1 w.2 s)
        | none => .next (requestLock h s)

/-- HUSK_LOCK_GRANT (R210): the request a husk waits on is granted once nothing conflicts, the earliest of those that may
be granted first. -/
def execHuskLockGrant (h : Nat) (s : State) : Res := whileUp s <|
  match s.eng.locks.find? fun l => lockOf true h l && !l.held with
  | none => .next s
  | some l =>
    if !huskMayHold s h l.range || grantBehind s true h then .next s
    else .next (grantLock h (modHusk h (fun y => { y with hstate := .preparing }) s))

/-- The units of a journal extent for bytes of an object (R181): 4,096 bytes each. -/
def extUnits (s : State) (h n : Nat) : List JUnit :=
  (List.range (ceilDiv n 4096)).map fun i =>
    let off := 4096 * i
    let b := objBytes s h off (min 4096 (n - off))
    { data := b, crc := crc32c b, lost := lostBlocks s h off b.length, handle := h, off := off }

/-- A computed range written into journal extents, its scales with it: the units' numbers and the state (R181, R277). -/
def writeExts (dst len count : Nat) (s : State) : List Nat × State :=
  let b := ewBran s dst
  let us := extUnits s dst len ++ if b = 0 then [] else extUnits s b (scaleBytes (objFormat s dst) count)
  let n := (us.map fun u => u.data.length).sum
  (us.zipIdx.map fun p => s.fls.nextExt + p.2, s.onFls fun f => { f with
    jext := f.jext ++ us.zipIdx.map fun p => (f.nextExt + p.2, p.1)
    nextExt := f.nextExt + us.length
    endur := { f.endur with journal := f.endur.journal + n, programmed := f.endur.programmed + n } })

/-- ELEMENTWISE_COMPUTE_DONE (R181): a persistent destination's computed range goes into journal extents, a volatile one's
husk joins the group. -/
def execElementwiseComputeDone (h : Nat) (s : State) : Res := whileUp s <|
  match tabGet s.eng.husks h with
  | none => .next s
  | some x =>
    if x.hstate != .computing || x.ops != 0 || x.persistent then .next s
    else
      let dst := ((x.actions.head?).map Action.target).getD 0
      if ((objOf s dst).map fun o => decide (2 ≤ o.home)).getD false then
        let n := ((x.actions.head?).map Action.len).getD 0
        let (us, s) := writeExts dst n (ewCount s (huskEntry s x)) s
        .next (modHusk h (fun y => { y with
          persistent := true, actions := y.actions.map fun a => if acComputed a then { a with exts := us } else a }) s)
      else .next (joinGroup h s)

/-- JOURNAL_EXTENTS_DURABLE (R181): every unit of the husk's extents is durable and it joins the open group. -/
def execJournalExtentsDurable (h : Nat) (s : State) : Res := whileUp s <|
  match tabGet s.eng.husks h with
  | none => .next s
  | some x =>
    if x.hstate != .computing || !x.persistent then .next s
    else .next (joinGroup h s)

/-- COMMIT_GROUP_CLOSE (R215): the group interval has passed with husks in the open group, which closes; while the records
not yet durable leave it no room it waits (R245). -/
def execCommitGroupClose (s : State) : Res := whileUp s <|
  if now s < s.eng.groupSince + genGroup (gen s) * 1000 || !mayClose s then .next s
  else .next ((closeGroup s).onEng fun e => { e with groupSince := s.aon.uptime })

/-- The record being written is durable. -/
def markDurable : List JRec → List JRec
  | [] => []
  | r :: rs => if r.durable then r :: markDurable rs else { r with durable := true } :: rs

/-- JOURNAL_RECORD_DURABLE (R215): the oldest record not yet durable is; its group commits, or waits as R219, R220 and R96
say. -/
def execJournalRecordDurable (s : State) : Res := digested s <|
  match s.eng.closing.find? fun r => !r.durable with
  | none => .next s
  | some r =>
    if s.aon.inReset.contains 61 then .next s
    else
      let n := journalBytes r.husks
      let s := s.onFls fun f => { f with endur := { f.endur with
        journal := f.endur.journal + n, programmed := f.endur.programmed + n } }
      let s := s.onEng fun e => { e with closing := markDurable e.closing, jtries := 0, jfailAt := none }
      .next (if s.eng.waitFor.isSome then s else tryCommit s)

/-- JOURNAL_WRITE_FAIL (R218): the same record goes to another block. -/
def execJournalWriteFail (s : State) : Res := digested s <|
  match s.eng.closing.find? fun r => !r.durable with
  | none => .next s
  | some _ =>
    if s.aon.inReset.contains 61 then .next s
    else .next (s.onEng fun e => { e with jtries := e.jtries + 1, jfailAt := some (e.jfailAt.getD s.aon.uptime) })

/-- A husk whose results lie in place: it never fails (R181, R204). -/
def neverFails (x : Husk) : Bool := x.hstate == .computing || ((x.hstate == .grouped || x.hstate == .committing) && x.actions.any acComputed)

/-- JOURNAL_UNAVAILABLE (R218): no block took the record for 100 ms: husk admission stops, the husks that wait, those of
records not yet durable among them, complete with JOURNAL_UNAVAILABLE, FAULT_N asserts, a signature record is built. A husk whose
results lie in place waits on in the open group. -/
def execJournalUnavailable (s : State) : Res := whileUp s <|
  match s.eng.jfailAt with
  | none => .next s
  | some t =>
    if s.eng.jdown || now s < t + 100000000 then .next s
    else
      let kept := s.eng.closing.filter JRec.durable
      let waiting := (s.eng.husks.filter fun p =>
        !neverFails p.2 && !(kept.any fun r => r.husks.any fun h => h.1 == p.1)).map Prod.fst
      let back := ((s.eng.closing.filter fun r => !r.durable).flatMap fun r => r.husks).filterMap fun h =>
        if ((tabGet s.eng.husks h.1).map neverFails).getD false then some h.1 else none
      let s := back.foldl (fun s h => modHusk h (fun y => { y with hstate := .grouped }) s) (s.onEng fun e => { e with
        jdown := true, closing := kept, group := back ++ e.group })
      let s := waiting.foldl (fun s h => failHusk h { st := St.journalUnavailable } s) s
      .next (fatal Cause.journal { kind := 3, cause := 0x23, unitKind := 9, island := 61 } s)

/-- DRAIN_ENTRY_FREED (R220): an epoch whose counter reached zero gives its entry back; what waited for one goes on. -/
def execDrainEntryFreed (epoch : Nat) (s : State) : Res := whileUp s <|
  if epoch = s.eng.epoch || tabGet s.eng.drain epoch != some 0 then .next s
  else
    let s := s.onEng fun e => { e with drain := tabDel e.drain epoch }
    .next (if s.eng.waitFor = some 0 then tryCommit s else s)

/-- EPOCH_RING_WAIT_END (R96): the commit that waited for a ring slot is tried again. -/
def execEpochRingWaitEnd (s : State) : Res := whileUp s <| .next (if s.eng.waitFor = some 1 then tryCommit s else s)

/-- VERSION_POOL_WAIT_END (R219): the commit that waited for the version pool is tried again. -/
def execVersionPoolWaitEnd (s : State) : Res := whileUp s <| .next (if s.eng.waitFor = some 2 then tryCommit s else s)

/-- Versions that a newer one, tagged no later than the floor, has superseded are dropped; a deletion that old is dropped
with its entry (R222). -/
def keptVersions (f : Nat) : List TVer → List TVer → List TVer
  | _, [] => []
  | newer, v :: vs =>
    let gone := newer.any (fun n => n.table == v.table && n.index == v.index && decide (n.tag ≤ f)) ||
      (v.data.isNone && decide (v.tag ≤ f))
    if gone then keptVersions f (v :: newer) vs else v :: keptVersions f (v :: newer) vs

/-- Ring slots that a newer one, no later than the floor, has superseded are dropped (R222). -/
def keptRing (f : Nat) : List Ring → List Ring
  | [] => []
  | r :: rs => if r.epoch ≤ f then [r] else r :: keptRing f rs

/-- Storage swapped in for good becomes the live handle's own, and the shadow handle ends (R200, R222). -/
def settleSwap (w : Nat × Nat × Nat) (s : State) : State :=
  match objOf s w.2.1 with
  | none => s
  | some sh =>
    let s := modObj (hIndex w.1) (fun o => { o with mem := sh.mem, size := sh.size, poison := sh.poison }) s
    let s := match tabGet s.obj.brans w.2.1 with
      | none => s
      | some b =>
        let s := match tabGet s.obj.brans w.1 with
          | some old => removeObject (hIndex old) s
          | none => s
        s.onObj fun v => { v with brans := tabSet (tabDel v.brans w.2.1) w.1 b }
    (removeObject (hIndex w.2.1) s).onIdx fun x => { x with
      swaps := x.swaps.filter (· != w)
      vers := x.vers.filter fun v => !(v.table == w.1 && decide (v.tag < w.2.2)) }

/-- VERSION_RECLAIM (R222): versions, ring slots, swapped-out tables, installed-over lists and freed map slots below the floor are
reclaimed. -/
def execVersionReclaim (s : State) : Res := whileUp s <|
  let f := epochFloor s
  let done := s.idx.swaps.filter fun w => decide (w.2.2 ≤ f) &&
    !(s.idx.swaps.any fun v => v.1 == w.1 && decide (w.2.2 < v.2.2) && decide (v.2.2 ≤ f))
  let old := s.idx.swaps.filter fun w => decide (w.2.2 ≤ f) && !done.contains w
  let s := old.foldl (fun s w => (removeObject (hIndex w.2.1) s).onIdx fun x => { x with
    swaps := x.swaps.filter (· != w) }) s
  let s := done.foldl (fun s w => settleSwap w s) s
  let gone := s.idx.lists.filter fun p => p.2.freeAfter.any fun e => decide (e ≤ f)
  let s := s.onIdx fun x => { x with
    vers := keptVersions f [] x.vers
    freedSlots := x.freedSlots.filter fun m => decide (f < m.2.2)
    lists := (x.lists.filter (fun p => !gone.any fun q => q.1 == p.1)).map fun p =>
      (p.1, { p.2 with ring := keptRing f p.2.ring }) }
  let free (h : Nat) (s : State) : State := if (objOf s h).isSome then removeObject (hIndex h) s else s
  .next (gone.foldl (fun s p => free p.2.coarseH (free p.2.exactH (free p.1 s))) s)

/-- Whether a background stream that draws on a bucket may be served (R363, R365). -/
def streamOk (s : State) (row inst id : Nat) : Bool := backgroundUp s && (bucketOk s row inst || s.fab.urgent.contains (2, id))
/-- A background stream served: its bucket pays, it is urgent no longer. -/
def streamPay (row inst id n : Nat) (s : State) : State :=
  (bucketCharge row inst n s).onFab fun f => { f with urgent := f.urgent.filter (· != (2, id)) }

/-- SETTLING (R97): a tombstone older than every epoch retained or bound becomes settled chaff, in the chaff-sweep class, which pays for
the bitmap byte written. -/
def execSettling (list pos : Nat) (s : State) : Res := whileUp s <|
  match tabGet s.idx.lists list with
  | none => .next s
  | some l =>
    match l.ents[pos]? with
    | none => .next s
    | some x =>
      if x.tomb && !x.settled && decide (x.delEpoch < epochFloor s) && streamOk s 6 1 1 && replayBegins s 61 0 5 list then
        let s := streamPay 6 1 1 1 (backToken 61 0 5 list s)
        .next (putList list { l with ents := listSet l.ents pos { x with settled := true } } s)
      else .next s

/-- A shadow object beside a live one: same owner, class, size, home and format. -/
def shadowOf (h : Nat) (s : State) : Nat × State :=
  match objOf s h with
  | none => (0, s)
  | some o =>
    let n : ObjRec := {
      size := o.size, home := o.home, format := o.format, chanLocal := o.chanLocal, place := o.place, node := true }
    match addObject (hTenant h) (hClass h) n s with
    | some p => p
    | none => (0, s)

/-- The bran object of a shadow table, which the node makes with it where its rows are scaled (R83, R224). -/
def shadowBran (sh : Nat) (b : Bytes) (s : State) : State :=
  match objOf s sh with
  | none => s
  | some o =>
    if b.isEmpty then s
    else match addObject (hTenant sh) (hClass sh) { size := roundUp b.length 64, home := o.home, mem := memWrite [] 0 b, node := true } s with
      | some (h, s) => s.onObj fun v => { v with brans := tabSet v.brans sh h }
      | none => s

/-- A list's shadow: the list object and its two extents (R109). -/
def shadowList (d : Bytes) (coll l : Nat) (s : State) : Nat × State :=
  let (h, x) := liveList s d coll l
  let (sh, s) := shadowOf h s
  let (ex, s) := shadowOf x.exactH s
  let (co, s) := shadowOf x.coarseH s
  (sh, putList sh { x with exactH := ex, coarseH := co, ents := [], ring := [], head := 0 } s)

/-- A centroid row of a collection from exact values (R75). -/
def centroidBytes (s : State) (d : Bytes) (v : List Rat) : Bytes :=
  let c := convertRow (coarseWord s d) (coCoarseDims d) none (fun _ => .nearest) (v.map numOf)
  c.1 ++ c.2.1

/-- One TABLE_ENTRY of the node. -/
def nodeEntry (coll table index : Nat) (b : Bytes) : Action :=
  { kind := 4, coll := coll, target := table, arg := index, data := b, len := b.length }

/-- The actions of a rebuild's swap husk, its shadow objects made (R109, R110, R165, R224). -/
def swapActions (b : Rebuild) (d : Bytes) (s : State) : List Action × State :=
  let inst (l sh : Nat) : Action := { kind := 5, coll := b.coll, target := l, arg := sh }
  if b.kind = 0 then
    let (sh, s) := shadowList d b.coll b.list s
    ([inst b.list sh], s)
  else if b.kind = 1 then
    let l := (liveList s d b.coll b.list).2
    let (p, q) := splitCentres s d b.coll b.list (shadowParts l b.since).1
    let n := coCount d
    let (sa, s) := shadowList d b.coll b.list s
    let (sb, s) := shadowList d b.coll b.list s
    let dir := dirEntry s d b.list s.eng.epoch
    ([inst b.list sa, nodeEntry b.coll (coCentroids d) b.list (centroidBytes s d p),
      nodeEntry b.coll (coCentroids d) n (centroidBytes s d q), { nodeEntry b.coll 0 b.coll d with flags := 64 },
      nodeEntry b.coll (coDirectory d) n (putAt dir 0 (toLe 8 sb)), inst n sb], s)
  else if b.kind = 2 then
    let (sh, s) := shadowList d b.coll b.list s
    ([inst b.list sh, inst b.list2 0, nodeEntry b.coll (coDirectory d) b.list2 (zeros 9 ++ [1] ++ zeros 2 ++ toLe 4 b.list)], s)
  else
    let (sh, s) := shadowOf (coCentroids d) s
    let rows := (List.range (coCount d)).map fun j => Config.retrained b.coll j s.eng.epoch
    let f := coarseWord s d
    let rb := rowBytes f (coCoarseDims d)
    let sb := scaleBytes f (coCoarseDims d)
    let s := modObj (hIndex sh) (fun o => { o with mem := memWrite [] 0 (rows.flatMap fun r => slice r 0 rb) }) s
    ([{ kind := 6, coll := b.coll, target := coCentroids d, arg := sh }],
      shadowBran sh (rows.flatMap fun r => slice (r.drop rb) 0 sb) s)

/-- The rows of a re-hashed table: R165 says that the rebuild writes a shadow table and not which old row each new one
takes (log entry 12). -/
def rehashed (s : State) (t : Nat) (new : Bytes) : List (Bytes × Bytes) :=
  let rb := rowBytes (mhFormat new) (mhElems new)
  (List.range (mhRows new)).map fun j =>
    let r := Config.rehashedRow t j s.eng.epoch
    (slice r 0 rb, slice (r.drop rb) 0 (scaleBytes (mhFormat new) (mhElems new)))

/-- The swap husk's actions of a re-hash (R165): the shadow's storage and the descriptor that goes with it. -/
def rehashActions (b : Rebuild) (s : State) : List Action × State :=
  let old := emHeader s b.coll s.eng.epoch
  let new := putAt (putAt (putAt old 0 [1, BitVec.ofNat 8 b.hash]) 8 (toLe 8 b.rows)) 0x10 (toLe 8 b.seed)
  let rows := rehashed s b.coll new
  let rb := rowBytes (mhFormat new) (mhElems new)
  let (sh, s) := shadowOf b.coll s
  let s := modObj (hIndex sh) (fun o => { o with
    size := max o.size (roundUp (64 + b.rows * rb) 64), mem := memWrite (memWrite [] 0 new) 64 (rows.flatMap Prod.fst) }) s
  let s := shadowBran sh (rows.flatMap Prod.snd) s
  ([{ kind := 6, target := b.coll, arg := sh },
    { kind := 4, flags := 4, target := b.coll, data := new, len := 64 }], s)

/-- Whether another split of a collection has its swap husk in the engine: the next takes the list ID after it (R109). -/
def splitSwaps (s : State) (coll : Nat) : Bool :=
  s.eng.husks.any fun p => (p.2.rebuild.bind (tabGet s.idx.rebuilds)).any fun b => b.kind == 1 && b.coll == coll

/-- The tenant of a rebuild's target, whose rebuild bucket it draws on (R362). -/
def rebuildTenant (s : State) (b : Rebuild) : Nat :=
  if b.kind = 4 then hTenant b.coll else ((collAt s b.coll s.eng.epoch).map coOwner).getD 0
/-- Bytes that a rebuild reads from the live copies (R109, R165). -/
def rebuildReads (s : State) (b : Rebuild) : Nat :=
  let list (l : IList) : Nat := objSize s l.exactH + objSize s l.coarseH
  if b.kind = 4 then objSize s b.coll
  else if b.kind = 3 then ((s.idx.lists.filter fun p => p.2.coll == b.coll).map fun p => objSize s p.2.coarseH).sum
  else match collAt s b.coll s.eng.epoch with
    | none => 0
    | some d => ((b.list :: if b.kind = 2 then [b.list2] else []).map fun l =>
        let x := liveList s d b.coll l
        objSize s x.1 + list x.2).sum
/-- Bytes of the objects that a state has beyond another's. -/
def newBytes (s t : State) : Nat := ((t.obj.recs.filter fun p => (tabGet s.obj.recs p.1).isNone).map fun p => p.2.size).sum
/-- The list object of a chaff sweep, the target of its token (R398). -/
def sweepTarget (s : State) (b : Rebuild) : Nat := ((collAt s b.coll s.eng.epoch).map fun d => (liveList s d b.coll b.list).1).getD 0
/-- A rebuild's swap husk is formed; its reads and writes are charged to its bucket (R224, R362). -/
def formSwap (id : Nat) (b : Rebuild) (p : List Action × State) (s : State) : State :=
  let t := rebuildTenant s b
  let sweep (u : State) : State := if b.kind = 0 then backToken 61 0 6 (sweepTarget s b) u else u
  formHusk { tenant := t, actions := p.1, rebuild := some id } (streamPay 5 t (5 + t) (rebuildReads s b + newBytes s p.2) (sweep p.2))

/-- REBUILD_SHADOW_COMPLETE (R224): the swap husk of a running rebuild is formed, once its rebuild bucket lets it; a rebuild whose
target is gone discards its shadow. -/
def execRebuildShadowComplete (id : Nat) (s : State) : Res := whileUp s <|
  match tabGet s.idx.rebuilds id with
  | none => .next s
  | some b =>
    if !b.running || s.eng.husks.any (fun p => p.2.rebuild == some id) then .next s
    else if b.kind = 4 then
      if staleHandle s b.coll then .next (endRebuild id St.bufStale 0 s)
      else
        .next (if streamOk s 5 (hTenant b.coll) (5 + hTenant b.coll) then formSwap id b (rehashActions b s) s else s)
    else match collAt s b.coll s.eng.epoch with
      | none => .next (endRebuild id St.collectionUnknown 0 s)
      | some d =>
        if b.kind = 1 && 2 ^ 20 ≤ coCount d then .next (endRebuild id St.listFull 0 s)
        else if b.kind = 1 && splitSwaps s b.coll then .next s
        else
          .next (if streamOk s 5 (coOwner d) (5 + coOwner d) && (b.kind != 0 || replayBegins s 61 0 6 (sweepTarget s b)) then formSwap id b (swapActions b d s) s else s)

/-- COMMAND_RANGE_GRANT (R209, R210): a waiting command's ranges are granted all at once. -/
def execCommandRangeGrant (n : Nat) (s : State) : Res := whileUp s <|
  match cmdOf s n with
  | none => .next s
  | some c =>
    let rs := (s.eng.locks.filter (lockOf false n)).map Lock.range
    if c.holds || !cmdMayHold s n rs || grantBehind s false n then .next s
    else
      let s := s.onEng fun e => { e with
        locks := e.locks.map fun l => if lockOf false n l then { l with held := true } else l }
      .next (modQp c.qp (fun q => { q with wait := false }) (modCmd n (fun c => { c with holds := true }) s))

/-- WAIT_GE_TIMEOUT (R226): a WAIT_GE whose time has passed completes with BINDER_TIMEOUT and the value; its queue
resumes. -/
def execWaitGeTimeout (qp : Nat) (s : State) : Res := whileUp s <|
  match (qpOf s qp).waitGe with
  | none => .next s
  | some w =>
    if now s < w.deadline then .next s
    else
      let v := ((tabGet s.eng.binders w.binder).map Binder.value).getD 0
      .next (checkDelete qp (postCompl qp { cid := w.cid, status := St.binderTimeout, epoch := v }
        (modQp qp (fun q => { q with waitGe := none, wait := false }) (timerToken 59 3 s))))

end Sys2Proof.Machine
end

