-- ==== Sys2Proof/Machine/FabOps.lean ====
section
/-! DEFINITION. The sending side of the fabric (R342 to R354, R356). -/

namespace Sys2Proof.Machine
open Sys2Proof

/-- A flash transfer in its owner's bucket and meter (R362, R250). -/
def flashMove (o : ObjRec) (tier n : Nat) (write : Bool) (s : State) : State :=
  let s := meterMove o tier n write s
  if tier = 2 || tier = 3 then bucketCharge 2 (hTenant o.handle) n s else s

/-! Sending. -/

/-- A node's forwarding entry at an epoch (R344). -/
def forwardEntry (s : State) (node e : Nat) : Bytes := tableRow s forwardHandle node e (32 * node) 32
/-- VALID and GCM of a forwarding entry. -/
def fwdValid (b : Bytes) : Bool := bitOf (byteAt b 1) 0
def fwdGcm (b : Bytes) : Bool := bitOf (byteAt b 1) 2

/-- A tenant's fabric key: the wrapped key of the generation, opened under the first half of the tenant's XTS key (R440). -/
def fabricKey (s : State) (t : Nat) : Option Bytes :=
  match tabGet s.fls.xts t, genFabricKey (gen s) t with
  | some x, some w => Config.keyUnwrap (x.take 32) w
  | _, _ => none

/-- The epoch whose forwarding entry a message uses: that of the work it serves (R344). -/
def msgEpoch (s : State) (m : Msg) : Nat := if m.epoch = 0 then s.eng.epoch else m.epoch
/-- The port of a (destination, virtual channel) stream: the lowest of the mask that is up (R344). -/
def streamPort (s : State) (node e : Nat) : Option Nat :=
  (List.range 4).find? fun p => bitOf (byteAt (forwardEntry s node e) 0) p && s.fab.ports.getD p false
/-- The status that stops a message before it is sent: no VALID forwarding entry, or no key for a GCM destination (R345,
R369). -/
def sendStatus (s : State) (dst t e : Nat) : Nat :=
  let f := forwardEntry s dst e
  if !fwdValid f then St.peerUnknown
  else if fwdGcm f && ((fabricKey s t).isNone || s.stew.boot == 2 ^ 32 - 1) then St.keyNotLoaded
  else St.success

/-- A virtual channel as an opening entry starts it: four control units, 64 on request and bulk, none on response (R353 to
R355). -/
def freshVc (vc : Nat) : VcSt :=
  { credit := if vc = 0 then 4 else 0, granted := if vc = 0 then 4 else if vc = 2 then 0 else 64 }

/-- A virtual channel of a peer. -/
def vcOf (s : State) (n vc : Nat) : VcSt := tabGetD (tabGetD s.fab.peers n {}).vcs vc (freshVc vc)
/-- Changes a virtual channel of a peer. -/
def modVc (n vc : Nat) (f : VcSt → VcSt) (s : State) : State :=
  modPeer n (fun p => { p with vcs := tabSet p.vcs vc (f (tabGetD p.vcs vc (freshVc vc))) }) s

/-- A frame of a message (R343), sequence, ack and credit still 0. -/
def frameOf (s : State) (m : Msg) (off : Nat) (b : Bytes) (last : Bool) : Bytes :=
  let gcm := m.type != 1 && fwdGcm (forwardEntry s m.dst (msgEpoch s m))
  toLe 1 1 ++ toLe 1 m.type ++ toLe 1 (m.vc + 4 * b2n gcm + 8 * b2n last) ++ [0] ++ toLe 2 (genNode (gen s)) ++ toLe 2 m.dst ++
    toLe 4 s.stew.boot ++ zeros 12 ++ toLe 8 m.epoch ++ toLe 4 m.id ++ toLe 4 off ++ toLe 4 m.body.length ++
    toLe 2 m.tenant ++ toLe 2 b.length ++ b

/-- The frames of a message in ascending offset (R346). -/
def framesOf (s : State) (m : Msg) : List Bytes :=
  let n := genPayload (gen s)
  let k := max 1 (ceilDiv m.body.length n)
  (List.range k).map fun i => frameOf s m (i * n) ((m.body.drop (i * n)).take n) (i + 1 == k)

/-- Credit units of a frame (R353). -/
def frameUnits (f : Bytes) : Nat := ceilDiv (48 + fld f 0x2E 2) 256

/-- The info of a stream key (R345). -/
def streamInfo (src dst vc kind boot openId round : Nat) : Bytes :=
  [0x54, 0x46, 0x54, 0x31] ++ toLe 2 src ++ toLe 2 dst ++ toLe 1 vc ++ toLe 1 kind ++ toLe 4 boot ++ toLe 4 openId ++ toLe 4 round

/-- Rounds of a counter when a frame with these low 32 bits left: the counter as it stands now, the frame no further back than one
round (R345). -/
def sentRound (total seq : Nat) : Nat := (total - (total % 2 ^ 32 + 2 ^ 32 - seq) % 2 ^ 32) / 2 ^ 32

/-- A frame as it leaves: sealed where its GCM bit is set (R345). -/
def sealFrame (s : State) (dst : Nat) (f : Bytes) : Bytes :=
  let vc := byteAt f 2 % 4
  if !bitOf (byteAt f 2) 2 then f
  else
    let p := tabGetD s.fab.peers dst {}
    let ack := byteAt f 1 == 0
    let v := vcOf s dst vc
    Config.gcmSeal ((fabricKey s (fld f 0x2C 2 % 1024)).getD [])
      (streamInfo (genNode (gen s)) dst vc (b2n ack) s.stew.boot p.openId
        (sentRound (if ack then v.ackCount else v.txSeq) (fld f 0x0C 4)))
      (fld f 0x0C 4 + 2 ^ 32 * byteAt f 3) f

/-- The epoch that a frame names, for its forwarding entry. -/
def frameEpoch (s : State) (f : Bytes) : Nat := if fld f 0x18 8 = 0 then s.eng.epoch else fld f 0x18 8

/-- A frame leaves by its stream's port, to the next hop and address of its forwarding entry (R342, R344). -/
def wireFrame (n vc port : Nat) (f : Bytes) (s : State) : State :=
  let e := forwardEntry s n (frameEpoch s f)
  s.onFab fun x => { x with frames := x.frames ++ [{
    port := port, mac := fld e 4 6, addr := fld e 0x10 16, dscp := bitsOf (fld (gen s).node 0x28 4) (8 * vc) 6, sport := 49152 + mix64 (4 * n + vc) % 16384,
    dport := genUdp (gen s), node := n, frame := sealFrame s n f }] }

/-- The credit field of a frame: its channel's total; of a HELLO, the initial grant of request and bulk (R355, R356; log entry 27).
-/
def creditField (s : State) (n ty : Nat) (v : VcSt) : Nat := if ty = 1 then (vcOf s n 1).granted else v.granted

/-- Message types that answer another message: reserved by the asker, they need no credit (R351, R354). -/
def isAnswer (ty : Nat) : Bool := ty == 0x03 || ty == 0x0F || ty == 0x11 || ty == 0x21 || ty == 0x101
/-- The fabric flow of a frame on a channel: one per tenant and channel (R362). -/
def flowOf (f : Bytes) (vc : Nat) : Nat := fld f 0x2C 2 % 1024 * 4 + vc

/-- The first frame that waits on a channel gets its finish tag at the arbiter of its port: its bytes by its flow's weight, in 1/65,536
(R364). -/
def tagHead (n vc : Nat) (s : State) : State :=
  let v := vcOf s n vc
  match v.tag, v.waitTx with
  | none, (_, f) :: _ =>
    match streamPort s n (if fld f 0x18 8 = 0 then s.eng.epoch else fld f 0x18 8) with
    | none => s
    | some port =>
      let flow := flowOf f vc
      modVc n vc (fun v => { v with
        tag := some (max (tabGetD s.fab.portV port 0) (tabGetD s.fab.flowTags (port * 4096 + flow) 0) +
          65536 * f.length / max 1 (bucketWeight s 3 flow)) }) s
  | _, _ => s

/-- The first frame that waits on a virtual channel, its type and its port, where it may be sent now: credit and the flow's bucket allow
and a port is up (R352, R353). Answers need no credit; an urgent queue passes its bucket (R365). -/
def readyFrame (s : State) (n vc : Nat) : Option (Nat × Nat × Bytes) :=
  let v := vcOf s n vc
  match v.waitTx with
  | [] => none
  | (ty, f) :: _ =>
    let u := if isAnswer ty then 0 else frameUnits f
    match streamPort s n (frameEpoch s f) with
    | none => none
    | some port =>
      if !halted s && ((tabGetD s.fab.peers n {}).open_ || ty % 256 == 1) && decide (v.charged + u ≤ v.credit || u = 0) &&
          (bucketOk s 3 (flowOf f vc) || s.fab.urgent.contains (1, 4 * n + vc)) then some (port, ty, f) else none

/-- A frame is first sent: it takes the next sequence number, is charged to its flow and kept until acknowledged; the arbiter's virtual time
is its tag (R352, R353, R363, R364). -/
def sendFrame (n vc : Nat) (x : Nat × Nat × Bytes) (s : State) : State :=
  let v := vcOf s n vc
  let (port, ty, f) := x
  let flow := flowOf f vc
  let tag := v.tag.getD 0
  let g := putAt f 0x0C (toLe 4 v.txSeq ++ toLe 4 v.rxSeq ++ toLe 4 (creditField s n (ty % 256) v))
  let s := token 0x0C (55 + port) port 2 flow (bucketCharge 3 flow f.length s)
  let s := (wireFrame n vc port g s).onFab fun x => { x with
    urgent := x.urgent.filter (· != (1, 4 * n + vc)), portV := tabSet x.portV port (max tag (tabGetD x.portV port 0))
    flowTags := tabSet x.flowTags (port * 4096 + flow) (max tag (tabGetD x.flowTags (port * 4096 + flow) 0)) }
  tagHead n vc (modVc n vc (fun v => { v with
    waitTx := v.waitTx.drop 1, tag := none, txSeq := v.txSeq + 1,
    charged := v.charged + if isAnswer ty then 0 else frameUnits f, ackDue := false,
    oldestAt := if v.unacked.isEmpty then now s else v.oldestAt,
    firstAt := if v.unacked.isEmpty then now s else v.firstAt,
    unacked := v.unacked ++ [(v.txSeq, g)] }) s)

/-- Frames waiting on a virtual channel are sent in order while they may be. -/
def pumpGo : Nat → Nat → Nat → State → State
  | 0, _, _, s => s
  | k + 1, n, vc, s =>
    match readyFrame s n vc with
    | none => s
    | some x => pumpGo k n vc (sendFrame n vc x s)

/-- Sends what a virtual channel's credit allows. -/
def pump (n vc : Nat) (s : State) : State := pumpGo (vcOf s n vc).waitTx.length n vc (tagHead n vc s)

/-- The stream that a port's arbiter serves next: an urgent one, oldest first; else the smallest finish tag, on equal tags the lower flow
(R364, R365). -/
def nextStream (s : State) (port : Nat) : Option (Nat × Nat) :=
  let ready := (tabKeys s.fab.peers).flatMap fun n => (List.range 4).filterMap fun vc =>
    (readyFrame s n vc).bind fun x => if x.1 = port then some ((n, vc), (vcOf s n vc).tag.getD 0, flowOf x.2.2 vc) else none
  match s.fab.urgent.find? fun u => u.1 == 1 && ready.any fun r => r.1 == (u.2 / 4, u.2 % 4) with
  | some u => some (u.2 / 4, u.2 % 4)
  | none =>
    (ready.foldl (fun (b : Option ((Nat × Nat) × Nat × Nat)) r =>
      match b with
      | none => some r
      | some x => if r.2.1 < x.2.1 || (r.2.1 = x.2.1 && r.2.2 < x.2.2) then some r else some x) none).map Prod.fst

/-- A port's arbiter serves its streams until none may send. -/
def servePort : Nat → Nat → State → State
  | 0, _, s => s
  | k + 1, port, s =>
    match nextStream s port with
    | none => s
    | some (n, vc) =>
      match readyFrame s n vc with
      | none => s
      | some x => servePort k port (sendFrame n vc x s)

/-- Every port's arbiter serves its streams: buckets have been refilled, or a port has come up. -/
def pumpAll (s : State) : State :=
  let s := (tabKeys s.fab.peers).foldl (fun s n => (List.range 4).foldl (fun s vc => tagHead n vc s) s) s
  let k := (s.fab.peers.map fun p => (p.2.vcs.map fun v => v.2.waitTx.length).sum).sum
  (List.range 4).foldl (fun s port => servePort k port s) s

/-- The HELLO body (R356). -/
def helloBody (s : State) (openId : Nat) : Bytes :=
  toLe 4 (gen s).number ++ toLe 1 (genClass (gen s)) ++ toLe 1 (nodeStateCode s.stew.st) ++ toLe 2 (genPayload (gen s)) ++
    toLe 4 s.stew.job ++ toLe 4 openId

/-- A message queued on its channel, and sent as far as credit allows; it enters the output where it is first sent
(R346). -/
def queueMsg (m : Msg) (s : State) : State :=
  let fs := framesOf s m
  pump m.dst m.vc ((modVc m.dst m.vc (fun v => { v with
    firstAt := if v.unacked.isEmpty && v.waitTx.isEmpty then now s else v.firstAt,
    waitTx := v.waitTx ++ fs.map fun f => (m.type + 256 * b2n m.answer, f) }) s).onFab fun f => { f with sent := f.sent ++ [m] })

/-- The next message ID. -/
def nextMsgId (s : State) : Nat := s.fab.nextMsg

/-- Bytes of the receive pool set aside (R355): the control reserve, what the open entries may still send under the credit granted to them,
the parts and messages received and not yet acted on, the reservations. -/
def poolHeld (s : State) : Nat :=
  let owed (n vc : Nat) : Nat := 256 * ((vcOf s n vc).granted - (vcOf s n vc).accepted)
  2 ^ 24 + ((s.fab.peers.filter fun p => p.2.open_).map fun p => owed p.1 1 + owed p.1 3).sum +
    (s.fab.peers.map fun p => (p.2.vcs.map fun v => v.2.partial_.length).sum).sum + (s.fab.rxMsgs.map fun m => m.2.body.length).sum +
    s.fab.poolUsed
/-- Whether the receive pool has room for an answer or a grant (R354, R355). -/
def poolRoom (s : State) (n : Nat) : Bool := decide (poolHeld s + n ≤ genRxPool (gen s))

/-- The initial grant of an entry: 64 units on request and on bulk when the pool has them, else 0 (R355). -/
def firstGrant (n : Nat) (s : State) : State :=
  if poolRoom s 32768 then s
  else modVc n 3 (fun v => { v with granted := v.accepted }) (modVc n 1 (fun v => { v with granted := v.accepted }) s)

/-- HELLO toward a peer whose entry is closed, once (R356); its answer is reserved (R354). -/
def sendHello (n : Nat) (s : State) : State :=
  let p := tabGetD s.fab.peers n {}
  if p.open_ || !fwdValid (forwardEntry s n s.eng.epoch) || (tabGetD p.vcs 0 (freshVc 0)).unacked.any (fun f => byteAt f.2 1 == 1) ||
      (tabGetD p.vcs 0 (freshVc 0)).waitTx.any (fun f => f.1 == 1) then s
  else
    let id := nextMsgId s
    let s := firstGrant n (modPeer n (fun p => { p with openId := p.openId + 1 }) s)
    let s := s.onFab fun f => { f with
      nextMsg := f.nextMsg + 1
      resv := f.resv ++ [{ msg := id, node := n, bytes := 16, kind := 1, at_ := s.aon.uptime }] }
    queueMsg { dst := n, type := 1, id := id, body := helloBody s (tabGetD s.fab.peers n {}).openId } s

/-- Sends a message, opening the peer entry first (R356); one that cannot be sent is not (R369), which is logged where it is for a boot
count that can rise no more (R345). -/
def sendMsg (m : Msg) (s : State) : State :=
  if sendStatus s m.dst m.tenant (msgEpoch s m) = St.success then queueMsg m (sendHello m.dst s)
  else if s.stew.boot = 2 ^ 32 - 1 && fwdGcm (forwardEntry s m.dst (msgEpoch s m)) then logEv Log.fabricError 55 0 [] s
  else s

/-- A request that expects an answer: its reservation, its message ID (R354); of a T4 request what is left of its transfer. -/
def sendRequestFor (m : Msg) (answer cmd : Nat) (job : Option T4Job) (s : State) : Nat × State :=
  let id := nextMsgId s
  let s := s.onFab fun f => { f with
    nextMsg := f.nextMsg + 1, poolUsed := f.poolUsed + answer
    resv := f.resv ++ [{ msg := id, node := m.dst, bytes := answer, kind := m.type, cmd := cmd, at_ := s.aon.uptime, job := job }] }
  (id, sendMsg { m with id := id } s)
def sendRequest (m : Msg) (answer cmd : Nat) (s : State) : Nat × State := sendRequestFor m answer cmd none s

/-- STATUS body (R347). -/
def statusBody (status detail value : Nat) : Bytes := toLe 2 status ++ toLe 2 detail ++ zeros 4 ++ toLe 8 value

/-! Pooled memory (R350). -/

/-- The window and address behind a byte of the T4 windows, taken one behind another. -/
def windowAt : List (Nat × Nat × Nat) → Nat → Option (Nat × Nat)
  | [], _ => none
  | (n, base, len) :: ws, x => if x < len then some (n, base + x) else windowAt ws (x - len)

/-- The pool endpoint and address behind a byte offset of the T4 home of a handle: its start is free (log entry 26). -/
def t4Place (s : State) (h off : Nat) : Option (Nat × Nat) :=
  let ws := genT4 (gen s)
  windowAt ws ((Config.poolStart h + off) % (ws.map fun w => w.2.2).sum)

/-- The bytes of an object's T4 home: the stored stream of a CHECKPOINT object (R280), else its own. -/
def t4Bytes (s : State) (i : Nat) (o : ObjRec) : Bytes := (tabGet s.fls.ckpt i).getD (memRead o.mem 0 o.size)
/-- The next chunk, at most 1 MiB, of a transfer with an object's T4 home is asked for or written (R350); it waits while the receive
pool has no room for the answer (R354). -/
def t4Send (j : T4Job) (s : State) : State :=
  match tabGet s.obj.recs j.obj, (tabGet s.obj.recs j.obj).bind fun o => t4Place s o.handle j.off with
  | some o, some (n, a) =>
    let len := min (j.stop - j.off) 1048576
    let answer := if j.write then 16 else len
    if !poolRoom s answer then s.onFab fun f => { f with t4wait := f.t4wait ++ [j] }
    else
      let body := toLe 8 a ++ toLe 4 len ++ zeros 4
      let m : Msg := { dst := n, vc := if j.write then 3 else 1, type := if j.write then 0x22 else 0x20, tenant := hTenant o.handle,
                       epoch := s.eng.epoch, body := if j.write then body ++ slice (t4Bytes s j.obj o) j.off len else body }
      (sendRequestFor m answer 0 (some { j with off := j.off + len }) s).2
  | _, _ => s
/-- An object's T4 home is read or written whole. -/
def t4Whole (who : T4Who) (i : Nat) (write : Bool) (s : State) : State :=
  match tabGet s.obj.recs i with
  | none => s
  | some o => t4Send { who := who, obj := i, off := 0, stop := (t4Bytes s i o).length, write := write } s
/-- Transfers that waited for room in the receive pool go on, the oldest first (R354). -/
def t4Pump (s : State) : State := s.fab.t4wait.foldl (fun s j => t4Send j s) (s.onFab fun f => { f with t4wait := [] })
/-- A reservation is given back. -/
def dropResv (id : Nat) (s : State) : State :=
  s.onFab fun f => { f with
    poolUsed := f.poolUsed - ((f.resv.filter fun r => r.msg == id).map fun r => if r.kind = 1 then 0 else r.bytes).sum
    resv := f.resv.filter fun r => r.msg != id }
/-- The status that keeps an object's T4 requests from being sent: of the first chunk whose endpoint cannot be asked. -/
def t4Status (s : State) (i : Nat) : Nat :=
  match tabGet s.obj.recs i with
  | none => St.peerUnknown
  | some o => ((List.range (max 1 (ceilDiv (t4Bytes s i o).length 1048576))).findSome? fun k =>
      match t4Place s o.handle (1048576 * k) with
      | none => some St.peerUnknown
      | some (n, _) => let st := sendStatus s n (hTenant o.handle) s.eng.epoch; if st = 0 then none else some st).getD 0
/-- Transfers with pooled memory under way or waiting. -/
def t4Jobs (s : State) : List T4Job := s.fab.resv.filterMap Resv.job ++ s.fab.t4wait
/-- Whether a transfer of an object for someone is under way. -/
def t4For (s : State) (i : Nat) (who : T4Who) : Bool := (t4Jobs s).any fun j => j.obj == i && j.who == who
/-- Whether a promotion, write-back or rehome of an object has T4 requests outstanding. -/
def t4Busy (s : State) (i : Nat) : Bool := t4For s i .move

end Sys2Proof.Machine
end

