-- ==== Sys2Proof/Machine/Objects.lean ====
section
/-! DEFINITION. The object commands and the life of upper copies (chapter 09). -/

namespace Sys2Proof.Machine
open Sys2Proof

/-- A handle refused: counted for the tenant and logged (R248). -/
def refuseHandle (t st : Nat) (s : State) : State :=
  logEv Log.badHandle 36 1 (toLe 2 t ++ toLe 2 st)
    (s.onObj fun o =>
      if st = St.bufStale then { o with stale := tabAdd o.stale t 1 } else { o with foreign := tabAdd o.foreign t 1 })

/-- A command that fails with a status alone. -/
def failCmd (n st : Nat) (s : State) : State := finishCmd n { status := st } s

/-- The handle check of an object command (R248): the object, or the state in which the command has failed. -/
def withObject (n : Nat) (c : Cmd) (s : State) (k : Nat → ObjRec → Res) : Res :=
  let h := fld c.entry 8 8
  match handleStatus s c.tenant h with
  | some st => .next (failCmd n st (refuseHandle c.tenant st s))
  | none => match objOf s h with
    | some o => k (hIndex h) o
    | none => .next s

/-- Field checks of ALLOC (R231 to R233, R236). -/
def allocChecks (t : Nat) (e : Bytes) : List Chk :=
  let c := byteAt e 4
  let tier := byteAt e 5
  let place := fld e 6 2
  let size := fld e 0x10 8
  let f := fld e 0x18 4
  let len := fld e 0x1C 4
  [(1, decide (byteAt e 1 < 3)), (4, decide (1 ≤ c) && decide (c ≤ 5) && (c != 5 || t == 0)), (5, classHome c tier),
   (6, if tier = 1 then place % 32768 / 512 == 0 && (place / 32768 == 1 || place == 0) else place == 0),
   (8, zeroAt e 8 8), (0x10, decide (64 ≤ size) && decide (size ≤ 2 ^ 40) && size % 64 == 0), (0x18, f == 0 || fwOk f),
   (0x1C, decide (len ≤ size)), (0x20, if len = 0 then zeroAt e 0x20 8 else fld e 0x20 8 % 64 == 0), (0x28, zeroAt e 0x28 24)]

/-- ALLOC (R236, R251): a new object, zero-filled or holding the host bytes; its handle at 0x08 of the completion. One homed in T4 is written to
its pool first (R350). -/
def execAlloc (n : Nat) (data : Bytes) (s : State) : Res := whileUp s <|
  match readyCmd s n 0x50 with
  | none => .next s
  | some c =>
    let e := c.entry
    let t := c.tenant
    let cls := byteAt e 4
    let tier := byteAt e 5
    let size := fld e 0x10 8
    let len := fld e 0x1C 4
    let loc := tier == 1 && 32768 ≤ fld e 6 2
    let place := if loc then placeCode s 1 (fld e 6 2) % 512 else 0
    let o : ObjRec := {
      size := size, home := tier, format := fld e 0x18 4, checkpoint := bitOf (byteAt e 1) 0,
      protected_ := bitOf (byteAt e 1) 1, chanLocal := loc, place := place, writtenEpoch := s.eng.epoch,
      mem := memWrite [] 0 (slice data 0 len) }
    match firstBad (allocChecks t e) with
    | some off => .next (finishCmd n (badField 0 off) s)
    | none =>
      if o.protected_ && (tabGet s.fls.xts t).isNone then .next (failCmd n St.keyNotLoaded s)
      else if loc && 2 ^ 30 < size then .next (failCmd n St.insufficientCapacity s)
      else match requestSpace t tier (homeCharge o) true (cls == 5) 0 (if loc then some place else none) (accrue s) with
        | none => .next (failCmd n St.insufficientCapacity s)
        | some s1 => match addObject t cls o s1 with
          | none => .next (failCmd n St.insufficientCapacity s)
          | some (h, s2) =>
            if tier = 2 && !flashRoom s o 2 then .next (waitFold s)
            else if tier = 4 then
              (if t4Status s2 (hIndex h) != St.success then .next (failCmd n (t4Status s2 (hIndex h)) s)
               else .next (t4Whole (.alloc n) (hIndex h) true (modCmd n (fun c => { c with ran := true })
                 (headerChange 4 (recordData c.qp c.cid (slice data 0 len) false s2)))))
            else
              .next (finishCmd n { status := St.success, word := some h }
                (writeHome (hIndex h) tier false (pagesOf 0 len)
                  (headerChange tier (recordData c.qp c.cid (slice data 0 len) false s2))))

/-! MOVE (R236, R238, R247). -/

/-- An object's MOVE waits on it. -/
def waitMove (i : Nat) (w : MoveW) (s : State) : State := modObj i (fun o => { o with waiters := o.waiters ++ [w] }) s
/-- A MOVE that has taken effect. -/
def moved (w : MoveW) (s : State) : State := finishCmd w.cmd { status := St.success } s
/-- Whether a target is channel-local. -/
def isLocal (w : MoveW) : Bool := w.tier == 1 && decide (32768 ≤ w.place)
/-- Whether an upper copy in a MOVE's tier stands where the MOVE asks for it (R236). -/
def samePlace (o : ObjRec) (w : MoveW) : Bool :=
  match w.tier with
  | 0 => o.placeUp % 512 == w.place % 512
  | 1 => codeLocal o.placeUp == isLocal w && (!isLocal w || w.place % 512 == 511 || o.placeUp % 512 == w.place % 512)
  | _ => true
/-- Space for a MOVE's target: evictable bytes, or not, in its tile or channel (R241). -/
def moveSpace (t : Nat) (w : MoveW) (n : Nat) (fixed : Bool) (s : State) : Option State :=
  if isLocal w && 2 ^ 30 < n then none
  else requestSpace t w.tier n fixed false (w.place % 512) (if isLocal w then some (placeCode s 1 w.place % 512) else none) (accrue s)

/-- Whether a PACK request of an object is outstanding. -/
def packBusy (s : State) (i : Nat) : Bool := s.fls.pack.any fun p => p.2.obj == some i
/-- The shared DMA asks for a PACK slot (R280, R293): to code a CHECKPOINT object's bytes, or to expand its stored stream. -/
def packAsk (i : Nat) (element : Nat) (src : Bytes) (expand : Bool) (s : State) : State :=
  s.onFls fun f => { f with
    nextPack := f.nextPack + 1,
    pack := tabSet f.pack f.nextPack { who := 0x1000, element := element, src := src, expand := expand, obj := some i } }
/-- A CHECKPOINT object written home whole (R282). -/
def packWrite (i : Nat) (s : State) : State :=
  match tabGet s.obj.recs i with
  | some o => packAsk i (fwElem o.format) (memRead o.mem 0 o.size) false s
  | none => s
/-- A CHECKPOINT home's stream read for an upper copy. -/
def packExpand (i : Nat) (s : State) : State :=
  match tabGet s.fls.ckpt i with
  | some b => packAsk i 0 b true s
  | none => s

/-- Promotion to a faster tier (R238). -/
def promote (i : Nat) (w : MoveW) (s : State) : State :=
  match tabGet s.obj.recs i with
  | none => s
  | some o =>
    let t := hTenant o.handle
    match o.st with
    | .absent =>
      if o.rehome.isSome then waitMove i w s
      else if o.home = 4 && t4Status s i != St.success then failCmd w.cmd (t4Status s i) s
      else match moveSpace t w o.size (o.hostPins != 0) s with
        | none => failCmd w.cmd St.insufficientCapacity s
        | some s1 =>
          let s2 := headerChange o.home (waitMove i w (modObj i (fun o => { o with
            st := .promoting, upper := w.tier, placeUp := placeCode s w.tier w.place }) s1))
          if o.home = 4 then t4Whole .move i false s2 else packExpand i s2
    | .promoting | .writingBack => waitMove i w s
    | .resident | .evicting =>
      let s := cancelEvict i s
      let s := modObj i (fun o => { o with waiters := o.waiters.filter fun v => !v.evict })
        ((o.waiters.filter fun v => v.evict && o.st == .resident).foldl (fun s v =>
          finishCmd v.cmd { status := St.moveCancelled } s) s)
      if o.target != 255 then waitMove i w s
      else if o.upper = w.tier && samePlace o w then moved w s
      else match moveSpace t w o.size (o.hostPins != 0) s with
        | none => failCmd w.cmd St.insufficientCapacity s
        | some s1 => waitMove i w (modObj i (fun o => { o with target := w.tier, placeNext := placeCode s w.tier w.place }) s1)
    | .freeing => failCmd w.cmd St.bufStale s

/-- Eviction asked for by a MOVE to home (R238). -/
def evictMove (i : Nat) (w : MoveW) (s : State) : State :=
  match tabGet s.obj.recs i with
  | none => s
  | some o =>
    match o.st with
    | .absent => moved w s
    | .promoting | .writingBack | .evicting => waitMove i w s
    | .resident =>
      if o.target != 255 || o.pinsUpper != 0 || o.hostPins != 0 then waitMove i w s
      else if o.dirty then waitMove i w (evictCopy i s)
      else moved w (headerChange o.home (evictCopy i (accrue s)))
    | .freeing => failCmd w.cmd St.bufStale s

/-- Rehome to another tier (R247): it waits for an earlier one, evicts an upper copy that its target meets or passes, and
then takes its space and begins to copy under a pin on the home. -/
def startRehome (i : Nat) (w : MoveW) (s : State) : State :=
  match tabGet s.obj.recs i with
  | none => s
  | some o =>
    if o.rehome.isSome then waitMove i w s
    else if o.home = w.tier then moved w s
    else if o.st = .freeing then failCmd w.cmd St.bufStale s
    else if o.home = 4 && t4Status s i != St.success then failCmd w.cmd (t4Status s i) s
    else if o.st != .absent && w.tier ≤ o.upper then
      if o.st == .resident && o.target == 255 && o.pinsUpper == 0 && o.hostPins == 0 && !o.dirty then
        begin i o w (evictCopy i (accrue s))
      else if o.st == .resident && o.target == 255 && o.pinsUpper == 0 && o.hostPins == 0 then
        waitMove i { w with evict := true } (evictCopy i s)
      else waitMove i { w with evict := true } s
    else begin i o w s
where
  begin (i : Nat) (o : ObjRec) (w : MoveW) (s : State) : State :=
    match moveSpace (hTenant o.handle) w (homeCharge o) true s with
    | none => failCmd w.cmd St.insufficientCapacity s
    | some s1 =>
      if w.tier = 4 && t4Status s i != St.success then failCmd w.cmd (t4Status s i) s
      else
      let s2 := modObj i (fun o => { o with
        rehome := some { tier := w.tier, place := placeCode s w.tier w.place, cmd := w.cmd }, pinsHome := o.pinsHome + 1 }) s1
      if o.home = 4 then t4Whole .move i false s2 else if w.tier = 4 then t4Whole .move i true s2 else s2

/-- A MOVE carried on from the object's present state. -/
def moveStep (i : Nat) (s : State) (w : MoveW) : State :=
  match tabGet s.obj.recs i with
  | none => failCmd w.cmd St.bufStale s
  | some o =>
    if w.rehome then startRehome i { w with evict := false } s
    else if w.tier < o.home then promote i w s
    else if w.tier = o.home then evictMove i w s
    else startRehome i { w with rehome := true } s

/-- After a change of state, every MOVE that waited is carried on, in order (R238). -/
def settleObj (i : Nat) (s : State) : State :=
  match tabGet s.obj.recs i with
  | none => s
  | some o => o.waiters.foldl (moveStep i) (modObj i (fun o => { o with waiters := [] }) s)

/-- Field checks of MOVE (R236). -/
def moveChecks (e : Bytes) : List Chk :=
  let tier := byteAt e 5
  let place := fld e 6 2
  [(1, decide (byteAt e 1 < 2)), (4, zeroAt e 4 1), (5, decide (tier ≤ 4)),
   (6, if tier = 1 then place % 32768 / 512 == 0 && (place / 32768 == 1 || place == 0)
     else if tier = 0 then decide (place < 512) else place == 0), (0x10, zeroAt e 0x10 48)]

/-- A MOVE's own checks on its object: tiers of its class, experts' data, table-bound objects, sizes (R145, R231, R247). -/
def moveRefused (s : State) (o : ObjRec) (rehome : Bool) (tier place : Nat) : Option Result :=
  let c := hClass o.handle
  if (tier = 0 || tier = 4) && isExpertData s o.handle then some (badField 0 5)
  else if rehome then
    (if tier = o.home then none
     else if tableBound s o.handle then some { status := St.objectInTable }
     else if !classHome c tier then some (badField 0 5) else none)
  else if tier < o.home then
    (if !classUpper c tier || (indexTiers s o.handle).any fun ts => !ts.contains tier then some (badField 0 5)
     else if tier = 0 && (decide (720896 < o.size) || s.shv.absent.contains place) then some (badField 0 6) else none)
  else none

/-- A MOVE command (R236): checks, then its first step. -/
def doMove (n : Nat) (rehome : Bool) (s : State) : Res :=
  match readyCmd s n 0x52 with
  | none => .next s
  | some c =>
    if bitOf (byteAt c.entry 1) 0 != rehome then .next s
    else withObject n c s fun i o =>
      let tier := byteAt c.entry 5
      let place := fld c.entry 6 2
      let re := rehome || decide (o.home < tier)
      match moveRefused s o re tier (place % 512) with
      | some r => .next (finishCmd n r s)
      | none =>
        .next (moveStep i (modCmd n (fun c => { c with ran := true }) s)
          { cmd := n, evict := !re && tier == o.home, rehome := re, tier := tier, place := place })

/-- MOVE without REHOME (R236, R238). -/
def execMove (n : Nat) (s : State) : Res := whileUp s <| doMove n false s

/-- MOVE with REHOME (R247). -/
def execMoveRehome (n : Nat) (s : State) : Res := whileUp s <| doMove n true s

/-- PIN (R236, R240): one host pin more; the first one on an object with an upper copy must fit the tenant's share. -/
def execPin (n : Nat) (s : State) : Res := whileUp s <|
  match readyCmd s n 0x53 with
  | none => .next s
  | some c => withObject n c s fun i o =>
    if o.hostPins = 65535 then .next (finishCmd n (badField 0 8) s)
    else if o.hostPins = 0 && o.st != .absent &&
        (genShare (gen s) c.tenant o.upper).1 < tenantFixed s c.tenant o.upper + o.size then
      .next (failCmd n St.insufficientCapacity s)
    else
      .next (finishCmd n { status := St.success }
        (modObj i (fun o => { o with hostPins := o.hostPins + 1 }) (cancelEvict i s)))

/-- UNPIN (R236): one host pin less; a waiting eviction goes on once none is left. -/
def execUnpin (n : Nat) (s : State) : Res := whileUp s <|
  match readyCmd s n 0x54 with
  | none => .next s
  | some c => withObject n c s fun i o =>
    if o.hostPins = 0 then .next (finishCmd n (badField 0 8) s)
    else .next (finishCmd n { status := St.success } (modObj i (fun o => maybeEvict { o with hostPins := o.hostPins - 1 }) s))

/-- A READ ends (R236): the bytes as readers find them, to host memory; lost data gives POISON with EP set. -/
def endRead (n : Nat) (s : State) : State :=
  match cmdOf s n with
  | none => s
  | some c =>
    let h := fld c.entry 8 8
    let off := fld c.entry 0x10 8
    let len := fld c.entry 0x1C 4
    finishCmd n { status := if objPoisoned s h off len then St.poison else St.success, bytes := objImage s h off len, addr := fld c.entry 0x20 8 } s

/-- READ (R236): a pin, the owner's flash bucket, the bytes; those of a home in T4 are asked of its pool first (R350). -/
def execRead (n : Nat) (s : State) : Res := whileUp s <|
  match readyCmd s n 0x55 with
  | none => .next s
  | some c => withObject n c s fun i o =>
    let off := fld c.entry 0x10 8
    let len := fld c.entry 0x1C 4
    if o.size < off + len then .next (finishCmd n (badField 0 (if o.size ≤ off then 0x10 else 0x1C)) s)
    else
      let (k, s) := pinObj i s
      let s := modCmd n (fun c => { c with pins := c.pins ++ [k] }) s
      let s := bucketCharge 2 (hTenant o.handle) (if servingTier o = 2 || servingTier o = 3 then len else 0) s
      if servingTier o != 4 then .next (endRead n s)
      else if t4Status s i != St.success then .next (failCmd n (t4Status s i) s)
      else
        let s := meterMove o 4 len false (modCmd n (fun c => { c with ran := true }) s)
        .next (if o.checkpoint then t4Whole (.read n) i false s
          else t4Send { who := .read n, obj := i, off := off / 64 * 64, stop := roundUp (off + len) 64, write := false } s)

/-- FREE (R248): stale, owner, table-bound in this order; accepted, the handle is stale, host pins drop, MOVEs that wait
end, and the object is FREEING. -/
def execFree (n : Nat) (s : State) : Res := whileUp s <|
  match readyCmd s n 0x51 with
  | none => .next s
  | some c => withObject n c s fun i o =>
    if tableBound s o.handle then .next (failCmd n St.objectInTable s)
    else
      let s := modObj i (fun o => { o with
        st := .freeing, hostPins := 0, waiters := [], rehome := none, freeCmd := some n,
        pinsHome := if o.rehome.isSome then o.pinsHome - 1 else o.pinsHome }) (accrue s)
      let s := (o.waiters.map MoveW.cmd ++ ((o.rehome.map Rehome.cmd).toList)).foldl (fun s m => failCmd m St.bufStale s) s
      .next (headerChange o.home (modCmd n (fun c => { c with ran := true }) s))

/-! What happens to copies in time. -/

/-- Whether a tier holds no more than its pool, and a pseudo-channel no more than its 1 GiB: decided evictions have been released
(R229, R234, R242). -/
def spaceThere (s : State) (tier code : Nat) : Bool :=
  decide (poolUsed s tier (if tier = 0 then some (code % 512) else none) ≤ poolCap s tier (code % 512)) &&
    (tier != 1 || !codeLocal code || decide (channelUsed s (code % 512) ≤ 2 ^ 30))

/-- PROMOTION_COPY_COMPLETE (R238): the copy is whole; the object is RESIDENT, or its copy switches tier in one step with
DIRTY and the page map; MOVEs that waited go on. -/
def execPromotionCopyComplete (idx : Nat) (s : State) : Res := whileUp s <|
  match tabGet s.obj.recs idx with
  | none => .next s
  | some o =>
    if o.st = .promoting && !t4Busy s idx && !packBusy s idx && spaceThere s o.upper o.placeUp && flashRoom s o o.upper then
      let s := flashMove o o.home o.size false (accrue s)
      let s := if o.upper = 2 || o.upper = 3 then writeHome idx o.upper true (allPages o) (flashMove o o.upper o.size true s) else s
      .next (settleObj idx (headerChange o.home (modObj idx (fun o => { o with st := .resident }) s)))
    else if (o.st = .resident) && o.target != 255 && o.old.isNone && spaceThere s o.target o.placeNext && flashRoom s o o.target then
      let s := writeHome idx o.target true (allPages o) (flashMove o o.target o.size true (flashMove o o.upper o.size false (accrue s)))
      .next (settleObj idx (headerChange o.home (modObj idx (fun o => { o with
        upper := o.target, target := 255, placeUp := o.placeNext, turn := !o.turn,
        old := if o.pinsUpper = 0 then none else some o.upper, placeOld := o.placeUp, pinsOld := o.pinsUpper, pinsUpper := 0 }) s)))
    else .next s

/-- A T4 request of an object has failed: its move ends, with the status, and the object stays in its prior state (R251). -/
def t4Stop (i st : Nat) (s : State) : State :=
  let mine (j : T4Job) : Bool := j.obj == i && j.who == .move
  let s := s.onFab fun f => { f with
    poolUsed := f.poolUsed - ((f.resv.filter fun r => r.job.any mine).map Resv.bytes).sum,
    resv := f.resv.filter fun r => !r.job.any mine, t4wait := f.t4wait.filter fun j => !mine j }
  match tabGet s.obj.recs i with
  | none => s
  | some o =>
    match o.rehome with
    | some r => settleObj i (failCmd r.cmd st (modObj i (fun o => { o with rehome := none, pinsHome := o.pinsHome - 1 }) (accrue s)))
    | none =>
      let gone := o.waiters.filter fun w => if o.st = .promoting then !w.evict && w.tier == o.upper else w.evict
      let kept := o.waiters.filter fun w => !gone.contains w
      let end_ (s : State) : State := settleObj i (gone.foldl (fun s w => failCmd w.cmd st s) s)
      match o.st with
      | .promoting => end_ (modObj i (fun o => { dropUpper o with waiters := kept }) (accrue s))
      | .writingBack => end_ (modObj i (fun o => { o with st := .resident, waiters := kept }) s)
      | _ => s

/-- WRITE_BACK_START (R238, R244): an EVICTING dirty copy begins to be written home under the epoch of this moment; a clean
one is released. -/
def execWriteBackStart (idx : Nat) (s : State) : Res := whileUp s <|
  match tabGet s.obj.recs idx with
  | none => .next s
  | some o =>
    if o.st != .evicting || o.pinsUpper != 0 || o.hostPins != 0 then .next s
    else if o.dirty && o.home = 4 && t4Status s idx != St.success then .next (t4Stop idx (t4Status s idx) (modObj idx (fun o => { o with st := .writingBack }) s))
    else if !o.dirty then .next (settleObj idx (headerChange o.home (dropClean idx (accrue s))))
    else
      let s := headerChange o.home (modObj idx (fun o => { o with st := .writingBack, wbEpoch := s.eng.epoch }) s)
      .next (if o.checkpoint then (if packBusy s idx then s else packWrite idx s)
        else if o.home = 4 then t4Whole .move idx true s else s)

/-- WRITE_BACK_DURABLE (R238, R244): the copy is home and unpinned: it is released, written_epoch becomes the noted epoch,
and what waited goes on. -/
def execWriteBackDurable (idx : Nat) (s : State) : Res := whileUp s <|
  match tabGet s.obj.recs idx with
  | none => .next s
  | some o =>
    if o.st != .writingBack || o.pinsUpper != 0 || o.hostPins != 0 || t4Busy s idx || packBusy s idx then .next s
    else if !flashRoom s o o.home then .next (s.onFls fun f => { f with reserveWaits := f.reserveWaits + 1 })
    else
      let s := writeHome idx o.home false (allPages o) (flashMove o o.home o.size true (accrue s))
      .next (settleObj idx (headerChange o.home (modObj idx (fun o => { dropUpper o with writtenEpoch := o.wbEpoch }) s)))

/-- The next dirty page of a copy is cleaned to its home in T4; once the last is there, the copy is DIRTY only where pages were written
meanwhile (R244, R350). -/
def cleanPage (i : Nat) (s : State) : State :=
  match tabGet s.obj.recs i with
  | none => s
  | some o =>
    match o.cleaning with
    | p :: _ =>
      t4Send { who := .clean, obj := i, off := 4096 * p, stop := min (4096 * p + 4096) o.size, write := true }
        (modObj i (fun o => { o with homeMem := memWrite o.homeMem (4096 * p) (memRead o.mem (4096 * p) (min 4096 (o.size - 4096 * p))) }) s)
    | [] => headerChange o.home (modObj i (fun o => { o with
        dirty := !o.pages.isEmpty, homeMem := if o.pages.isEmpty then [] else o.homeMem,
        dirtySince := if o.pages.isEmpty then none else some (now s), writtenEpoch := o.wbEpoch }) s)

/-- CLEANING_PASS (R244): a dirty copy's cleaning interval has passed; its dirty pages are written home, a CHECKPOINT object
whole (R282). -/
def execCleaningPass (idx : Nat) (s : State) : Res := whileUp s <|
  match tabGet s.obj.recs idx with
  | none => .next s
  | some o =>
    match o.dirtySince with
    | none => .next s
    | some t =>
      if now s < t + genCleaning (gen s) || !o.dirty || o.st == .writingBack || o.st == .freeing || packBusy s idx ||
          !backgroundUp s || !replayBegins s 36 0 7 o.handle || (o.home = 4 && (t4Busy s idx || !o.cleaning.isEmpty || t4Status s idx != St.success)) then .next s
      else
        let n := if o.checkpoint then o.size else o.pages.length * 4096
        let s := backToken 36 0 7 o.handle (timerToken 36 5 s)
        let s := bucketCharge 6 2 n (meterMove o o.home n true s)
        if o.checkpoint then .next (packWrite idx (modObj idx (fun o => { o with pages := [], wbEpoch := s.eng.epoch }) s))
        else if o.home = 4 then
          .next (cleanPage idx (modObj idx (fun o => { o with cleaning := o.pages, pages := [], wbEpoch := s.eng.epoch }) s))
        else
        let s := writeHome idx o.home false o.pages s
        .next (headerChange o.home (modObj idx (fun o => { o with
          dirty := false, pages := [], homeMem := [], dirtySince := none, writtenEpoch := s.eng.epoch }) s))

/-- REHOME_SWITCH (R247): the home switches in one step; pins taken on the old home keep it until they drop; MOVEs that
waited go on. -/
def execRehomeSwitch (idx : Nat) (s : State) : Res := whileUp s <|
  match tabGet s.obj.recs idx with
  | none => .next s
  | some o =>
    match o.rehome with
    | none => .next s
    | some r =>
      if t4Busy s idx || o.old.isSome || packBusy s idx || !flashRoom s o r.tier then .next s
      else
        let s := flashMove o r.tier o.size true (flashMove o o.home o.size false (accrue s))
        let s := modObj idx (fun o => { o with
          home := r.tier, rehome := none, old := if o.pinsHome ≤ 1 then none else some o.home, placeOld := homeCode o, pinsOld := o.pinsHome - 1,
          pinsHome := 0, place := r.place % 512, chanLocal := codeLocal r.place, writtenEpoch := s.eng.epoch }) s
        let s := writeHome idx r.tier false (allPages o) s
        .next (settleObj idx (headerChange (max o.home r.tier) (finishCmd r.cmd { status := St.success } s)))

/-- OLD_LOCATION_RELEASE (R239): a location left by a switch is released once the pins taken on it have dropped. -/
def execOldLocationRelease (idx : Nat) (s : State) : Res := whileUp s <|
  match tabGet s.obj.recs idx with
  | none => .next s
  | some o =>
    if o.old.isSome && o.pinsOld == 0 then .next (modObj idx (fun o => { o with old := none }) (accrue s)) else .next s

/-- FREE_RELEASE (R248): a FREEING object without pins gives back its space and index, and the FREE completes. -/
def execFreeRelease (idx : Nat) (s : State) : Res := whileUp s <|
  match tabGet s.obj.recs idx with
  | none => .next s
  | some o =>
    if o.st != .freeing || pinsAll o != 0 then .next s
    else
      let s := (removeObject idx s).onShv fun v => { v with cvt := v.cvt.filter fun c => !(c.tag == o.handle && c.tagKind == 0) }
      let s := (dropUnits idx false s).onFls fun f => { f with
        ckpt := tabDel f.ckpt idx, pack := f.pack.filter fun p => p.2.obj != some idx }
      let s := s.onIdx fun x => { x with lists := tabDel x.lists o.handle }
      .next (match o.freeCmd with
        | some n => finishCmd n { status := St.success } s
        | none => s)

/-! Transfers with pooled memory (R350). -/

/-- A transfer has ended (R350): a CHECKPOINT object's stream is expanded for its promotion, the next page is cleaned, a READ or an ALLOC
completes, a home holds the write. -/
def t4Done (j : T4Job) (s : State) : State :=
  match j.who with
  | .move => if ((tabGet s.obj.recs j.obj).any fun o => o.st == .promoting) then packExpand j.obj s else s
  | .clean =>
    if ((tabGet s.obj.recs j.obj).any fun o => o.cleaning.isEmpty) then s
    else cleanPage j.obj (modObj j.obj (fun o => { o with cleaning := o.cleaning.drop 1 }) s)
  | .store e _ => modObj j.obj (fun o => { o with writtenEpoch := max o.writtenEpoch e }) s
  | .alloc n => finishCmd n { status := St.success, word := (tabGet s.obj.recs j.obj).map ObjRec.handle } s
  | .read n => endRead n s
  | .awn _ => s

/-- A transfer has failed (R251): a move ends and the object stays as it was; pages not cleaned are dirty still; a command ends with the
status, and so do those that an awn's read is for; a write at home, whose record the journal keeps, is sent again. -/
def t4Fail (j : T4Job) (st : Nat) (s : State) : State :=
  match j.who with
  | .move => t4Stop j.obj st s
  | .clean => modObj j.obj (fun o => { o with pages := nub (o.pages ++ o.cleaning), cleaning := [] }) s
  | .store _ a => s.onFab fun f => { f with t4wait := f.t4wait ++ [{ j with off := a }] }
  | .alloc n => failCmd n st (modObj j.obj (fun o => { o with st := .freeing }) s)
  | .read n => failCmd n st s
  | .awn id =>
    ((tabGet s.shv.reads id).map fun a => a.users.foldl (fun s u =>
      modCmd u.1 (fun c => { c with viol := if c.viol = 0 then st else c.viol }) s) s).getD s

end Sys2Proof.Machine
end

