-- ==== Sys2Proof/Machine/Admit.lean ====
section
/-! DEFINITION. Admission at the queue engine (R31, R315, R316): steering, field checks, epoch binding, sheaf shapes, ranges. -/

namespace Sys2Proof.Machine
open Sys2Proof

/-- Opcodes of R316. -/
def knownOp (op : Nat) : Bool :=
  decide (0x20 ≤ op) && decide (op ≤ 0x22) || decide (0x30 ≤ op) && decide (op ≤ 0x35) || op == 0x40 || op == 0x41 ||
    decide (0x50 ≤ op) && decide (op ≤ 0x55)
/-- Opcodes that need STEERED. -/
def needsSteer (op : Nat) : Bool := op == 0x20 || decide (0x30 ≤ op) && decide (op ≤ 0x35)
/-- Opcodes bound to an epoch (R194). DESIGN CHOICE (log entry 92): the object commands 0x50 to 0x55, for which R194 has no row, bind
none. -/
def bindsEpoch (op : Nat) : Bool := op == 0x20 || decide (0x30 ≤ op) && decide (op ≤ 0x34)
/-- Opcodes that are husks (R194). -/
def isHuskOp (op : Nat) : Bool := op == 0x21 || op == 0x22 || op == 0x35 || op == 0x41

/-! Field checks in offset order (R15, R16). -/

/-- A 64-byte-aligned address. -/
def alignedAt (e : Bytes) (o : Nat) : Bool := fld e o 8 % 64 == 0
/-- A field in a range. -/
def inRange (v lo hi : Nat) : Bool := decide (lo ≤ v) && decide (v ≤ hi)
/-- The bind field at 0x10: an epoch with EPOCH set, a barrier ID with BARRIER set, otherwise 0. -/
def bindField (e : Bytes) (barrier : Bool) : Bool :=
  let f := byteAt e 1
  if bitOf f 0 then decide (fld e 0x10 8 < 2 ^ 48) else if barrier && bitOf f 1 then decide (fld e 0x10 8 < 2 ^ 32)
  else zeroAt e 0x10 8

/-- SEARCH (R98). -/
def searchChecks (e : Bytes) : List Chk :=
  let k := byteAt e 6
  [(1, decide (byteAt e 1 < 16) && byteAt e 1 % 4 != 3), (6, inRange k 1 64), (7, decide (byteAt e 7 ≤ 64)),
   (8, decide (fld e 8 2 ≤ 1024)), (0x0A, inRange (fld e 0x0A 2) k 1024), (0x0E, zeroAt e 0x0E 2),
   (0x10, bindField e true), (0x18, alignedAt e 0x18), (0x24, zeroAt e 0x24 4), (0x28, alignedAt e 0x28),
   (0x30, decide (32 + 16 * k ≤ fld e 0x30 4)), (0x34, zeroAt e 0x34 12)]
/-- INSERT and DELETE (R105). -/
def updateChecks (e : Bytes) : List Chk :=
  let del := byteAt e 0 == 0x22
  let n := byteAt e 6
  [(1, decide (byteAt e 1 < 2)), (6, inRange n 1 (if !del && byteAt e 1 == 1 then 32 else 64)), (7, zeroAt e 7 9),
   (0x10, alignedAt e 0x10), (0x18, !del || decide (8 * n ≤ fld e 0x18 4)), (0x1C, zeroAt e 0x1C 36)]
/-- EXPERT_CALL and GATE (R146). -/
def expertEntryChecks (e : Bytes) : List Chk :=
  let g := byteAt e 0 == 0x31
  [(1, decide (byteAt e 1 < 8)), (4, inRange (fld e 4 2) 1 1024), (6, decide (byteAt e 6 ≤ 64)), (7, zeroAt e 7 1),
   (0x10, bindField e false), (0x18, alignedAt e 0x18), (0x20, if g then zeroAt e 0x20 8 else alignedAt e 0x20),
   (0x28, alignedAt e 0x28), (0x34, !g || zeroAt e 0x34 4), (0x3C, zeroAt e 0x3C 4)]
/-- GATHER (R162). -/
def gatherChecks (e : Bytes) : List Chk :=
  [(1, decide (byteAt e 1 < 4)), (4, inRange (fld e 4 2) 1 1024), (6, zeroAt e 6 2), (0x10, bindField e false),
   (0x18, alignedAt e 0x18), (0x28, alignedAt e 0x28), (0x30, zeroAt e 0x30 16)]
/-- MEMORY_LAYER (R167). -/
def memoryChecks (e : Bytes) : List Chk :=
  [(1, decide (byteAt e 1 < 16)), (4, inRange (fld e 4 2) 1 1024), (6, decide (byteAt e 6 ≤ 64)), (7, zeroAt e 7 1),
   (0x10, bindField e false), (0x20, alignedAt e 0x20), (0x30, alignedAt e 0x30), (0x38, zeroAt e 0x38 8)]
/-- ATTENTION (R188). -/
def attentionChecks (e : Bytes) : List Chk :=
  [(1, decide (byteAt e 1 < 2)), (4, inRange (fld e 4 2) 1 64), (6, zeroAt e 6 2), (0x10, bindField e false),
   (0x18, alignedAt e 0x18), (0x24, !zeroAt e 0x24 4), (0x38, zeroAt e 0x38 8)]
/-- ELEMENTWISE (R181). -/
def elementChecks (e : Bytes) : List Chk :=
  let op := byteAt e 1
  let act := byteAt e 4
  [(1, inRange op 2 5), (4, decide (act ≤ 4) || act == 255 && op != 4), (5, zeroAt e 5 3),
   (0x10, op ≤ 3 || zeroAt e 0x10 8), (0x20, fld e 0x20 4 % 32 == 0 && decide (fld e 0x20 4 ≤ 2 ^ 30)),
   (0x24, zeroAt e 0x24 28)]
/-- BINDER (R226). -/
def binderChecks (e : Bytes) : List Chk :=
  let op := byteAt e 1
  [(1, decide (op < 4)), (4, decide (fld e 4 4 < 2 ^ 17)), (8, if op = 0 then !zeroAt e 8 8 else op != 3 || zeroAt e 8 8),
   (0x10, if op = 2 then decide (fld e 0x10 4 ≤ 60000000) else zeroAt e 0x10 4), (0x14, zeroAt e 0x14 44)]
/-- HUSK (R203). -/
def huskEntryChecks (e : Bytes) : List Chk :=
  let d := fld e 0x10 4
  let p := fld e 0x14 4
  [(1, zeroAt e 1 1), (4, zeroAt e 4 4), (8, alignedAt e 8), (0x10, inRange d 96 2112 && d % 32 == 0),
   (0x14, decide (p ≤ 1048576)), (0x18, if p = 0 then zeroAt e 0x18 8 else alignedAt e 0x18), (0x20, zeroAt e 0x20 32)]
/-- FREE, PIN, UNPIN and READ (R236). DESIGN CHOICE (log entry 91): a field that R236 gives only to other opcodes is to be 0. -/
def objectChecks (e : Bytes) : List Chk :=
  let rd := byteAt e 0 == 0x55
  [(1, zeroAt e 1 1), (4, zeroAt e 4 1), (5, zeroAt e 5 1), (6, zeroAt e 6 2), (0x10, rd || zeroAt e 0x10 8),
   (0x18, zeroAt e 0x18 4), (0x1C, if rd then inRange (fld e 0x1C 4) 1 (2 ^ 32 - 64) else zeroAt e 0x1C 4),
   (0x20, if rd then alignedAt e 0x20 else zeroAt e 0x20 8), (0x28, zeroAt e 0x28 24)]

/-- The checks of an entry's own fields. -/
def entryChecks (t : Nat) (e : Bytes) : List Chk :=
  match byteAt e 0 with
  | 0x20 => searchChecks e
  | 0x21 | 0x22 => updateChecks e
  | 0x30 | 0x31 => expertEntryChecks e
  | 0x32 => gatherChecks e
  | 0x33 => memoryChecks e
  | 0x34 => attentionChecks e
  | 0x35 => elementChecks e
  | 0x40 => binderChecks e
  | 0x41 => huskEntryChecks e
  | 0x50 => allocChecks t e
  | 0x52 => moveChecks e
  | _ => objectChecks e

/-! Sheaf shapes (R89, R138, R166, R181, R188). -/

/-- Every stage of a sheaf has one role: the reading of R138's and R181's one-stage shapes beside R42 (log entry 34). -/
def allRole (d : Bytes) (r : Nat) : Bool := (shEntries d).all fun e => sgRole e == r
/-- A stage of a role, zeros where there is none. -/
def roleEntry (d : Bytes) (r : Nat) : Bytes := (shRole d r).getD (zeros 64)

/-- Whether a sheaf has the shape an opcode needs. -/
def shapeOk (op : Nat) (d : Bytes) : Bool :=
  match op with
  | 0x20 => [1, 2, 3, 4].all fun r => (rolesOf d).contains r
  | 0x30 => rolesOf d == [3, 6]
  | 0x31 => allRole d 3
  | 0x32 => allRole d 5
  | 0x33 => rolesOf d == [1, 3, 5] && sgSplit (shStage d 0) && byteAt (shStage d 2) 0x29 == 2
  | 0x34 => rolesOf d == [7, 7] && byteAt (shStage d 0) 0x2C == 1 && byteAt (shStage d 1) 0x2C == 0
  | 0x35 => allRole d 7
  | _ => true

/-- Whether a collection's shape matches a search sheaf (R89). -/
def searchShape (d coll : Bytes) : Bool :=
  let c := roleEntry d 1
  let r := roleEntry d 4
  byteAt c 0x28 == coCoarse coll && byteAt c 0x29 == coCoarse coll && fld c 0x2C 2 == coCoarseDims coll &&
    ((shEntries d).all fun e => sgRole e != 2 || 2 ^ byteAt e 0x28 == coWidth coll) &&
    byteAt r 0x28 == coFormat coll && byteAt r 0x29 == coFormat coll && byteAt r 0x2A == coMetric coll &&
    fld r 0x2C 2 == coDims coll

/-! Outcomes. -/

/-- What admission decides of the head entry: it waits (1 lock table or husk slot, 2 drain table, 0 other), is refused
with an epoch for 0x08, or is admitted with its command, ranges and pins. -/
inductive Admit where
  | wait (why : Nat)
  | refuse (epoch : Nat) (r : Result)
  | go (c : Cmd) (rs : List Range) (pins : List Nat)

/-- A handle that a data-path command reads: BUF_STALE, ACCESS_VIOLATION, or none (R49, R189, R248); the system tenant may
read any tenant's data (log entry 36). -/
def readStatus (s : State) (t h : Nat) : Option Nat :=
  if staleHandle s h then some St.bufStale else if hTenant h == t || t == 0 then none else some St.accessViolation

/-- The first failing one of several conditions, each with its outcome. -/
def firstFail : List (Bool × Result) → Option Result
  | [] => none
  | (ok, r) :: rs => if ok then firstFail rs else some r

/-- An outcome of a status alone. -/
def plain (st : Nat) : Result := { status := st }

/-- A command's own handle at 0x08, or the standing table of a stage (R43). -/
def tableOf (e stage : Bytes) (off : Nat) : Nat := orDef (fld e off 8) (fld stage 0x20 8)

/-- k of an expert command (R146). -/
def expertK (d e : Bytes) : Nat :=
  if byteAt e 6 != 0 then byteAt e 6 else if byteAt e 0 = 0x30 then byteAt (roleEntry d 6) 0x28 else byteAt (roleEntry d 3) 0x28
/-- Table of an expert command. DESIGN CHOICE (log entry 96): a GATE that gives 0 takes the standing table of its WINNOW stage. -/
def expertTable (d e : Bytes) : Nat := tableOf e (if byteAt e 0 = 0x30 then roleEntry d 6 else roleEntry d 3) 8
/-- The format word of an EXPERT stage's output rows (R44, R147): the element as the stage names it, the rest, scale and zero point, from
the table object's own word (R71). -/
def expertWord (s : State) (d e : Bytes) : Nat := objFormat s (expertTable d e) / 256 * 256 + byteAt (roleEntry d 6) 0x29

/-- Bytes of one output part of an expert command (R147): the row with its scales, and the record. -/
def expertPart (s : State) (d e : Bytes) (ep : Nat) : Nat :=
  let n := xhModel (exHeader s (expertTable d e) ep)
  let f := expertWord s d e
  recordBytes (expertK d e) + if byteAt e 0 = 0x30 then roundUp (rowBytes f n + scaleBytes f n) 64 else 0

/-- The descriptors of a table's experts at an epoch; one that names no weight object is no expert. -/
def namedExperts (s : State) (t ep : Nat) : List Bytes :=
  ((List.range (xhCount (exHeader s t ep))).map fun i => exDesc s t i ep).filter fun x => xdWeights x != 0

/-- Bytes of the largest slice and of its bran of an expert (R152): 32 stored rows. -/
def sliceBytes (x : Bytes) (k : Nat) : Nat × Nat :=
  (wShapes x k).foldl (fun a r => (max a.1 (min 32 r.1 * (wRow x r.2 + wMeta x r.2)), max a.2 (min 32 r.1 * scaleBytes (xdFormat x) r.2)))
    (0, 0)

/-- Whether an object is RESIDENT in T1 with pins (R157). -/
def pinnedT1 (s : State) (h : Nat) : Bool := h == 0 || ((objOf s h).map fun o => residentT1 o && decide (0 < pinsAll o)).getD false

/-- Admission checks of an EXPERT_CALL or GATE (R145 to R157). -/
def expertAdmit (s : State) (t : Nat) (d e : Bytes) (ep : Nat) : Option Result × List Nat :=
  let h := expertTable d e
  let call := byteAt e 0 == 0x30
  match readStatus s t h with
  | some st => (some (plain st), [])
  | none =>
    let hd := exHeader s h ep
    let tk := fld e 4 2
    let xs := namedExperts s h ep
    let st := roleEntry d 6
    let pool := xhStaging hd
    let big := (xs.map fun x => objSize s (xdWeights x) + objSize s (xdBran x)).foldl max 0
    let slices := xs.map fun x => sliceBytes x (xhModel hd)
    let fbs := if shDeadlineOn d then (xs.filter xdHasFb).map fun x => exDesc s h (xdFallback x) ep else []
    let bad := firstFail [
      (headerKind hd == 1, plain St.formatUnsupported),
      (decide (expertPart s d e ep * tk ≤ fld e 0x30 4), badField 0 0x30),
      (!call || decide (actRowBytes hd * tk ≤ fld e 0x34 4), badField 0 0x34),
      (decide (gateRowBytes hd * tk ≤ fld e 0x38 4), badField 0 0x38),
      (!call || slices.all (fun x => decide (2 * x.1 ≤ sgLanding st) && decide (2 * x.2 ≤ sgBran st)),
        plain St.sramOvercommit),
      (if pool = 0 then xs.all (expertDirect s) else decide (big ≤ objSize s pool), plain St.insufficientCapacity),
      (fbs.all fun x => xdWeights x != 0 && pinnedT1 s (xdWeights x) && pinnedT1 s (xdBran x), plain St.fallbackNotResident)]
    (bad, nub (fbs.flatMap fun x => ([xdWeights x, xdBran x].filter (· != 0)).map hIndex))

/-- Whether a GATHER stage's row parameters are a table's (R44, R159): the element format, and the row bytes where the stage gives them,
with or without the row's scales (log entry 90). -/
def gatherShape (st hd : Bytes) : Bool :=
  let rb := rowBytes (mhFormat hd) (mhElems hd)
  byteAt st 0x28 == fwElem (mhFormat hd) && [0, rb, rb + scaleBytes (mhFormat hd) (mhElems hd)].contains (fld st 0x2C 4)

/-- Admission checks of a GATHER (R159 to R163): its index block is checked when it has been read. -/
def gatherAdmit (s : State) (t : Nat) (d e : Bytes) (ep : Nat) : Option Result :=
  let st := roleEntry d 5
  let h := tableOf e st 8
  match readStatus s t h with
  | some x => some (plain x)
  | none =>
    let hd := emHeader s h ep
    firstFail [(headerKind hd == 2 && gatherShape st hd, plain St.formatUnsupported),
      (byteAt st 0x29 != 2 || bitOf (byteAt e 1) 1, badField 0 1)]

/-- Bytes of one output part of a MEMORY_LAYER (R163, R167). -/
def memoryPart (s : State) (d e : Bytes) (ep : Nat) : Nat :=
  let hd := emHeader s (tableOf e (roleEntry d 5) 0x18) ep
  roundUp (4 * mhElems hd) 64 + if bitOf (byteAt e 1) 3 then recordBytes (orDef (byteAt e 6) (byteAt (roleEntry d 3) 0x28)) else 0

/-- Admission checks of a MEMORY_LAYER (R166, R167). -/
def memoryAdmit (s : State) (pw : Bool) (t : Nat) (d e : Bytes) (ep : Nat) : Option Result :=
  let c := roleEntry d 1
  let ks := tableOf e c 8
  let vs := tableOf e (roleEntry d 5) 0x18
  match readStatus s t ks, readStatus s t vs with
  | some x, _ => some (plain x)
  | none, some x => some (plain x)
  | none, none =>
    let hd := emHeader s vs ep
    let n := fld c 0x30 4
    firstFail [
      (headerKind hd == 2 && mhKind hd == 0 && decide (n ≤ mhRows hd) && fwElem (objFormat s ks) == byteAt c 0x29 &&
        gatherShape (roleEntry d 5) hd, plain St.formatUnsupported),
      (decide (keyQueryBytes s c ks * fld e 4 2 ≤ fld e 0x28 4), badField 0 0x28),
      (decide (memoryPart s d e ep * fld e 4 2 ≤ fld e 0x2C 4), badField 0 0x2C),
      (!rowTooLong pw (ceilDiv n (sgWidth c)), plain St.rowTooLong)]

/-- Shard i of a cache descriptor at an epoch (R182). -/
def cacheShard (s : State) (h i ep : Nat) : Bytes := tableRow s h i ep (64 + 48 * i) 48
/-- The shards of a cache in order. -/
def cacheShards (s : State) (h ep : Nat) : List Bytes :=
  (List.range (fld (tableRow s h headerIndex ep 0 64) 6 2)).map fun i => cacheShard s h i ep
/-- Shards follow one another from position 0 on distinct culms, each with a position at least (R182). -/
def shardsFollow : Nat → List Nat → List Bytes → Bool
  | _, _, [] => true
  | p, used, x :: xs =>
    fld x 4 4 == p && fld x 8 4 != 0 && !used.contains (fld x 0 2) && shardsFollow (p + fld x 8 4) (fld x 0 2 :: used) xs

/-- The format word a CONVERT stage writes (R44). -/
def convertWord (st : Bytes) : Nat := byteAt st 0x29 + 256 * byteAt st 0x2A + 65536 * byteAt st 0x2B

/-- Query heads of a cache header. -/
def cacheHeads (hd : Bytes) : Nat := byteAt hd 0 * byteAt hd 1
/-- Bytes of one query, and of one output part, of an ATTENTION (R188). -/
def attnSizes (d hd : Bytes) : Nat × Nat :=
  let n := fld hd 4 2
  let f := convertWord (shStage d 1)
  (roundUp (cacheHeads hd * n * elemBits (byteAt hd 2) / 8) 64, roundUp (cacheHeads hd * (rowBytes f n + scaleBytes f n)) 64)

/-- The ranges of an ATTENTION: the spans of K and V rows and scales below its length, in each shard it reads (R189). -/
def attnRanges (hd : Bytes) (len : Nat) (shards : List Bytes) : List Range :=
  (shards.filter fun x => decide (fld x 4 4 < len)).flatMap fun x =>
    let n := min (fld x 8 4) (len - fld x 4 4)
    let k := kvBytes (fld hd 8 4) (fld hd 4 2) (byteAt hd 0) n
    let v := kvBytes (fld hd 0x0C 4) (fld hd 4 2) (byteAt hd 0) n
    let h := fld x 0x10 8
    [objectKey h (fld x 0x18 4) k.1 false, objectKey h (fld x 0x1C 4) v.1 false] ++
      (if k.2 = 0 then [] else [objectKey h (fld x 0x20 4) k.2 false]) ++
      (if v.2 = 0 then [] else [objectKey h (fld x 0x24 4) v.2 false])

/-- Admission checks of an ATTENTION (R182, R188, R189), and its ranges: the descriptor is a T1 object, and it and its shards keep R182's
rules whoever wrote them. -/
def attnAdmit (s : State) (t : Nat) (d e : Bytes) (ep : Nat) : Option Result × List Range :=
  let h := fld e 8 8
  match readStatus s t h with
  | some x => (some (plain x), [])
  | none =>
    let hd := tableRow s h headerIndex ep 0 64
    let sh := cacheShards s h ep
    let used := sh.filter fun x => decide (fld x 4 4 < fld e 0x24 4)
    let z := attnSizes d hd
    let bad := firstFail [
      ((firstBad (cacheHeaderChecks hd)).isNone && shardsFollow 0 [] sh, badField 0 8),
      (cacheFormatOk hd, plain St.formatUnsupported),
      (decide (z.1 * fld e 4 2 ≤ fld e 0x20 4), badField 0 0x20),
      (decide (fld e 0x24 4 ≤ (sh.map fun x => fld x 8 4).sum), badField 0 0x24),
      (decide (z.2 * fld e 4 2 ≤ fld e 0x30 4), badField 0 0x30)]
    (bad <|> (used.findSome? fun x => readStatus s t (fld x 0x10 8)).map plain <|>
      (if ((objOf s h).map residentT1).getD false && sh.all fun x => (firstBad (shardStatic s h hd x)).isNone then none
       else some (badField 0 8)), attnRanges hd (fld e 0x24 4) sh)

/-- Admission checks of a SEARCH at its bound epoch (R89, R99, R104). -/
def searchAdmit (s : State) (t : Nat) (d e : Bytes) (ep : Nat) : Option Result :=
  match collAt s (fld e 4 2) ep with
  | none => some (plain St.collectionUnknown)
  | some c => firstFail [
      (coOwner c == t || t == 0, plain St.accessViolation), (searchShape d c, plain St.formatUnsupported),
      (decide (fld e 0x0C 2 ≤ coWidth c), badField 0 0x0C), (decide ((queryLayout s c).2.2 ≤ fld e 0x20 4), badField 0 0x20)]

/-- What keeps the scan of a probed list of this node from being made: the list object's handle and rights (R61, R248), and for a
culm its placement where the directory names it (R170, R192). -/
def listBad (s : State) (t : Nat) (culm : Bool) (x : Bytes) : Option Nat :=
  match readStatus s t (deList x) with
  | some st => some st
  | none =>
    if culm && deLoc x == 1 &&
      !((objOf s (deList x)).map fun o => inPc o (deWhere x % 512)).getD false
    then some St.culmPlacement else none

/-- The SCAN stage that scans a list of this node: of several, one in culm mode takes the lists in T1 and one in tile mode those in T2
(R45), else the first. -/
def scanIndex (d x : Bytes) : Nat :=
  let is := (List.range (shStages d)).filter fun i => sgRole (shStage d i) == 2
  (is.find? fun i => sgCulm (shStage d i) == (deLoc x == 1)).getD (is.headD 0)

/-- The first such status among the lists to scan here. -/
def listsBad (s : State) (t : Nat) (d : Bytes) (ls : List (Nat × Nat × Bytes)) : Option Nat :=
  (localLists ls).findSome? fun r => listBad s t (sgCulm (shStage d (scanIndex d r.2.2))) r.2.2

/-- Items of a command (R47, R138). -/
def itemsOf (e : Bytes) : Nat :=
  match byteAt e 0 with
  | 0x20 => 1
  | 0x30 | 0x31 | 0x32 | 0x33 | 0x34 => fld e 4 2
  | _ => 0

/-- Candidates that enter a search's first selection after the scans: merged lists of a SPLIT stage hold the depth alone (R100, R128). -/
def scanOut (d e : Bytes) : Nat :=
  let st := roleEntry d 2
  if sgSplit st then fld e 0x0A 2 else orDef (fld e 8 2) (fld (roleEntry d 1) 0x2E 2) * orDef (byteAt e 7) (fld st 0x2A 2)

/-- What an item takes in an input slot and in an output slot of stage i (R139): the rows and 32-byte entries it brings there, of which
the data of a GATHER bag is known once its index block is read (log entry 35). -/
def itemSizes (s : State) (d e : Bytes) (ep i : Nat) (bag : List (Nat × Nat)) : Nat × Nat :=
  let st := shStage d i
  match byteAt e 0 with
  | 0x20 =>
    let c := (collAt s (fld e 4 2) ep).getD []
    let (sk, fq, tot) := queryLayout s c
    let probe := 32 * orDef (fld e 8 2) (fld (roleEntry d 1) 0x2E 2)
    let deep := 32 * fld e 0x0A 2
    match sgRole st with
    | 1 => (tot, probe)
    | 2 => (probe + (fq - sk), 32 * scanOut d e)
    | 4 => (deep + (tot - fq), deep)
    | _ => if (upTo d i).any fun j => sgRole (shStage d j) == 4 then (deep, 32 * byteAt e 6) else (32 * scanOut d e, deep)
  | 0x30 =>
    let hd := exHeader s (expertTable d e) ep
    let rec_ := recordBytes (expertK d e)
    if sgRole st = 3 then (gateRowBytes hd + actRowBytes hd, rec_ + actRowBytes hd) else (rec_ + actRowBytes hd, expertPart s d e ep)
  | 0x31 => (gateRowBytes (exHeader s (expertTable d e) ep), expertPart s d e ep)
  | 0x32 =>
    let hd := emHeader s (tableOf e (roleEntry d 5) 8) ep
    let row := rowBytes (mhFormat hd) (mhElems hd) + scaleBytes (mhFormat hd) (mhElems hd)
    (bag.length * (if bitOf (byteAt e 1) 1 then 12 else 8),
      if byteAt (roleEntry d 5) 0x29 = 0 then roundUp (bag.length * row) 64 else if bag.isEmpty then 0 else roundUp (4 * mhElems hd) 64)
  | 0x33 =>
    let q := keyQueryBytes s (roleEntry d 1) (tableOf e (roleEntry d 1) 8)
    let sel := 32 * (orDef (byteAt e 6) (byteAt (roleEntry d 3) 0x28) * max 1 (byteAt (roleEntry d 3) 0x29))
    match sgRole st with
    | 1 => (q, sel)
    | 3 => (sel, sel)
    | _ => (sel, memoryPart s d e ep)
  | 0x34 =>
    let hd := tableRow s (fld e 8 8) headerIndex ep 0 64
    let z := attnSizes d hd
    let mid := cacheHeads hd * fld hd 4 2 * 4
    if i = 0 then (z.1, mid) else (mid, z.2)
  | _ => (0, 0)

/-- Whether items fit the slots of a stage, given what each of them takes there (R139). -/
def slotsHold (st : Bytes) (zs : List (Nat × Nat)) : Bool :=
  decide ((zs.map Prod.fst).sum ≤ fld st 0x0C 4) && decide ((zs.map Prod.snd).sum ≤ fld st 0x10 4)

/-- Whether an item fits an empty slot of every stage of its sheaf (R139). -/
def itemFits (s : State) (d e : Bytes) (ep : Nat) : Bool :=
  (List.range (shStages d)).all fun i => slotsHold (shStage d i) [itemSizes s d e ep i []]

/-- The epoch a data-path command binds to, or the status of R104. -/
def bindTo (s : State) (e : Bytes) : Except Nat Nat :=
  let f := byteAt e 1
  let named := if bitOf f 0 then some (fld e 0x10 8)
    else if byteAt e 0 == 0x20 && bitOf f 1 then
      some (((s.eng.barriers.find? fun b => b.id == fld e 0x10 4).map Barrier.epoch).getD 0)
    else none
  match named with
  | none => .ok s.eng.epoch
  | some x => if s.eng.epoch < x then .error St.epochAhead else if x < oldestRetained s then .error St.epochNotRetained else .ok x

/-- Who waits at admission: a queue by its number, a SUB_SEARCH by its sender and message. -/
def subWaiter (node msg : Nat) : Nat := 4096 + node * 2 ^ 32 + msg
/-- Whether what a waiter of that number brought still waits. -/
def stillWaits (s : State) (k : Nat) : Bool :=
  if k < 4096 then
    let x := qpOf s k
    x.wait && x.qstate == .enabled && !x.deleting && !x.fetched.isEmpty
  else s.fab.rxMsgs.any fun r => subWaiter r.1 r.2.id == k
/-- Whether another waits at admission for the same thing, 1 lock entries or a husk slot, 2 a drain entry, and came before (R213, R214,
R220). -/
def waitsAhead (s : State) (k why : Nat) : Bool :=
  (s.eng.waiting.takeWhile fun p => p.1 != k).any fun p => p.2 == why && stillWaits s p.1
/-- A waiter takes its place in the order of arrival, and is counted, unless it has waited for the same thing since before (R213, R220). -/
def noteWaiter (k why : Nat) (since : Bool) (s : State) : State :=
  s.onEng fun e => { e with
    waiting := if since && e.waiting.contains (k, why) then e.waiting else e.waiting.filter (fun p => p.1 != k) ++ [(k, why)]
    rangeWaits := e.rangeWaits + b2n (!since && why == 1), drainWaits := e.drainWaits + b2n (!since && why == 2) }
/-- What waited has been served. -/
def endWaiter (k : Nat) (s : State) : State := s.onEng fun e => { e with waiting := e.waiting.filter fun p => p.1 != k }
/-- Whether a husk that was formed waits for lock entries or a slot. -/
def huskWaits (s : State) : Bool := s.eng.husks.any fun p => p.2.hstate == .waitingSlot && !huskRoom s p.2

/-- Whether an epoch's drain entry exists or can be taken by a queue's head (R220). -/
def drainRoom (s : State) (q e : Nat) : Bool :=
  e == s.eng.epoch || (tabGet s.eng.drain e).isSome || decide (s.eng.drain.length < 128) && !waitsAhead s q 2
/-- Whether so many entries of the range-lock table may be reserved for a queue's head (R213). -/
def locksRoom (s : State) (q n : Nat) : Bool := n == 0 || decide (locksUsed s + n ≤ 8192) && !waitsAhead s q 1 && !huskWaits s

/-- The husk an opcode will form reserves this many entries (R213). -/
def entryNeeds (e : Bytes) : Nat :=
  match byteAt e 0 with
  | 0x21 | 0x22 => 1 + 6 * byteAt e 6
  | 0x41 => 1 + 6 * ((fld e 0x10 4 - 64) / 32)
  | _ => 7

/-- Ranges of an object command (R209, R248): READ shares its bytes; FREE excludes the object's readers. -/
def objectRanges (s : State) (t : Nat) (e : Bytes) : List Range :=
  let h := fld e 8 8
  if (handleStatus s t h).isSome then []
  else if byteAt e 0 = 0x55 then [objectKey h (fld e 0x10 8) (fld e 0x1C 4) false]
  else if byteAt e 0 = 0x51 && !tableBound s h then [objectKey h 0 (objSize s h) true]
  else []

/-- Checks of a data-path command bound to an epoch: outcome, ranges, pins. -/
def boundAdmit (s : State) (t : Nat) (d e : Bytes) (ep : Nat) : Option Result × List Range × List Nat :=
  let orFit (r : Option Result) : Option Result := r <|> (if itemFits s d e ep then none else some (plain St.sramOvercommit))
  match byteAt e 0 with
  | 0x20 => (orFit (searchAdmit s t d e ep), [], [])
  | 0x30 | 0x31 => let r := expertAdmit s t d e ep; (orFit r.1, [], r.2)
  | 0x32 => (gatherAdmit s t d e ep, [], [])
  | 0x33 => (orFit (memoryAdmit s false t d e ep), [], [])
  | _ => let r := attnAdmit s t d e ep; (orFit r.1, r.2, [])

/-- What admission decides of an entry (R31, R315, R316, R319), the checks in the order of the opcode table. -/
def admitCheck (s : State) (q : Nat) (e : Bytes) : Admit :=
  let p := qpOf s q
  let t := p.tenant
  let op := byteAt e 0
  let ent := steerEntry s (t * 1024 + byteAt p.ctx 2 % 4 * 256 + op) s.eng.epoch
  let sh := if bitOf ent 9 then some (ent % 256) else none
  let d := (sh.bind (genSheaf (gen s))).getD []
  let c : Cmd := { qp := q, tenant := t, opcode := op, cid := fld e 2 2, entry := e, sheaf := sh, desc := d, items := itemsOf e,
                   cls := genClass (gen s) }
  if !knownOp op then .refuse 0 (plain St.invalidOpcode)
  else if !bitOf ent 8 || (needsSteer op && sh.isNone) then .refuse 0 (plain St.accessViolation)
  else match firstBad (entryChecks t e) with
    | some off => .refuse 0 (badField 0 off)
    | none =>
      if s.eng.waitFor.isSome then .wait 0
      else if needsSteer op && !shapeOk op d then .refuse 0 (plain St.formatUnsupported)
      else if bindsEpoch op then
        match bindTo s e with
        | .error st => .refuse 0 (plain st)
        | .ok ep =>
          if !drainRoom s q ep then .wait 2
          else
            let r := boundAdmit s t d e ep
            match r.1 with
            | some x => .refuse ep x
            | none =>
              if !locksRoom s q r.2.1.length then .wait 1
              else .go { c with
                epoch := some ep, cls := classAt s ep,
                barrier := if op == 0x20 && bitOf (byteAt e 1) 1 then some (fld e 0x10 4) else none } r.2.1 r.2.2
      else if isHuskOp op then
        if (slotsUsed s).length < 4096 && locksRoom s q (entryNeeds e) then .go c [] [] else .wait 1
      else
        let rs := if 0x50 ≤ op then objectRanges s t e else []
        if locksRoom s q rs.length then .go c rs [] else .wait 1

/-- A refused entry's completion (R103): the bound epoch, 0 before binding. -/
def refuseEntry (q cid epoch : Nat) (r : Result) (s : State) : State :=
  postCompl q { cid := cid, status := r.status, epoch := epoch, detail := r.detail, fieldIn := r.fieldIn,
                fieldOffset := r.fieldOffset } s

/-- An admitted command enters the node: its number, epoch, pins and ranges; a command whose ranges must wait holds up its
queue, and so does a WAIT_GE (R31, R210, R226). -/
def enterCmd (c : Cmd) (rs : List Range) (pins : List Nat) (s : State) : State :=
  let n := s.hif.nextCmd
  let s := match c.epoch with
    | some e => bindEpoch e s
    | none => s
  let (ks, s) := pins.foldl (fun (a : List Nat × State) i => let r := pinObj i a.2; (a.1 ++ [r.1], r.2)) ([], s)
  let s := s.onEng fun e => { e with
    locks := e.locks ++ rs.map fun r => { husk := false, id := n, range := r, held := false } }
  let s := if rs.isEmpty then s else token 0x0D 61 0 2 (0x1000 + c.qp) s
  let held := cmdMayHold s n rs && !(grantBehind s false n && !rs.isEmpty)
  let s := s.onEng fun e => { e with
    locks := e.locks.map fun l => if lockOf false n l then { l with held := held } else l }
  let s := s.onHif fun h => { h with
    nextCmd := n + 1, cmds := tabSet h.cmds n { c with holds := held, pins := ks } }
  modQp c.qp (fun p => { p with wait := !held || (c.opcode == 0x40 && byteAt c.entry 1 == 2) }) s

/-- Finish tag of a queue's head (R364): cost 1 by weight, in 1/65,536. -/
def finishTag (s : State) (q : Nat) : Nat := max s.hif.vtime (qpOf s q).wftag + 65536 / max 1 (bucketWeight s 1 q)

/-- The head entry of a queue through admission (R31): its choice is an ordering token in Trace; a served entry is charged
to its buckets (R363, R398). -/
def admitHead (q : Nat) (s : State) : State :=
  match (qpOf s q).fetched with
  | [] => s
  | f :: fs =>
    let popped (ep : Nat) (s : State) : State :=
      let s := modQp q (fun p => { p with fetched := fs, wait := false, wftag := finishTag s q }) (token 0x01 59 0 8 (q + 65536 * ep) s)
      let s := endWaiter q s
      let s := s.onHif fun h => { h with vtime := max h.vtime (tabGetD h.qps q {}).wftag }
      let s := s.onFab fun b => { b with urgent := b.urgent.filter (· != (0, q)) }
      bucketCharge 1 q 1 (bucketCharge 0 (qpOf s q).tenant 1 s)
    match admitCheck s q f.entry with
    | .wait why =>
      noteWaiter q why (qpOf s q).wait (modQp q (fun p => { p with wait := true }) s)
    | .refuse ep r => refuseEntry q (fld f.entry 2 2) ep r (popped ep s)
    | .go c rs pins => enterCmd c rs pins (popped (c.epoch.getD 0) s)

/-- Whether a command of a queue holds up its later entries: one whose ranges wait, or a WAIT_GE (R319). -/
def queueBlocked (s : State) (q : Nat) : Bool :=
  (qpOf s q).waitGe.isSome ||
    s.hif.cmds.any fun p => p.2.qp == q && (!p.2.holds || (p.2.opcode == 0x40 && byteAt p.2.entry 1 == 2 && !p.2.ran))

/-- Whether the node admits at all now: serving, not stopped, not quiescing, ring not full, crossing to island 61 ready
(R24, R32, R401, R403). -/
def admits (s : State) : Bool :=
  isServing s && !s.hif.stopped && !quiescing s && !ringFull s && !s.aon.notReady.contains (59, 61)

/-- Whether a queue has an entry to be chosen: enabled, not being deleted, a fetched entry, nothing ahead of it. -/
def queueReady (s : State) (q : Nat) : Bool :=
  let p := qpOf s q
  p.qstate == .enabled && !p.deleting && !p.fetched.isEmpty && !p.wait && !queueBlocked s q

/-- The queue the engine serves next (R363 to R365): an urgent one, oldest first; else, among those whose buckets let them
pass, the smallest finish tag, the lower ID on a tie. -/
def nextQueue (s : State) : Option Nat :=
  let ready := (tabKeys s.hif.qps).filter (queueReady s)
  match s.fab.urgent.find? fun u => u.1 == 0 && ready.contains u.2 with
  | some u => some u.2
  | none =>
    (ready.filter fun q => bucketOk s 0 (qpOf s q).tenant && bucketOk s 1 q).foldl (fun b q =>
      match b with
      | none => some q
      | some x => if finishTag s q < finishTag s x then some q else some x) none

end Sys2Proof.Machine
end

