-- ==== Sys2Proof/Machine/Queues.lean ====
section
/-! DEFINITION. Host interface: doorbells, fetch, admission, completions, registers, resets of functions and link, window. -/

namespace Sys2Proof.Machine
open Sys2Proof

/-! Doorbells (R301, R302, R313, R321). -/

/-- Whether a function answers at all: function 0, and the VFs that SR-IOV has enabled (R299). -/
def fnLive (s : State) (fn : Nat) : Bool := fn == 0 || (decide (fn ≤ s.hif.vfs) && decide (fn < 1024))
/-- Whether a function answers memory requests: in D3hot it answers configuration requests only (R321). -/
def fnAnswers (s : State) (fn : Nat) : Bool := fnLive s fn && !s.hif.d3.contains fn
/-- The global queue pair behind a function's local number: of function 0, the number itself (R301, R302). -/
def qpIndex (s : State) (fn index : Nat) : Option Nat :=
  if fn = 0 then (if index < 4096 then some index else none)
  else
    let b := genQps (gen s) fn
    if index < b.2 && index < 64 then some (b.1 + index) else none

/-- An access that is counted as an error and has no other effect (R303). -/
def accessError (s : State) : State := s.onHif fun h => { h with accessErr := h.accessErr + 1 }
/-- An ignored doorbell (R313). -/
def ignoreDoorbell (q : Nat) (s : State) : State := modQp q (fun p => { p with dbInvalid := true }) s
/-- Entries of a queue pair's SQ and CQ (R312). -/
def sqEntries (p : Qp) : Nat := fld p.ctx 0x18 4
def cqEntries (p : Qp) : Nat := fld p.ctx 0x1C 4

/-- A doorbell reaching its queue pair: function 0's for other tenants' queues are discarded and counted, those of a function
in D3hot discarded. -/
def doorbell (fn index : Nat) (s : State) (k : Nat → Qp → State → State) : Res :=
  .next (
    if !fnAnswers s fn then s
    else match qpIndex s fn index with
      | none => accessError s
      | some q =>
        match tabGet s.hif.qps q with
        | some p => if p.tenant = fn then k q p s else if fn = 0 then s.onHif fun h => { h with dbDiscards := h.dbDiscards + 1 } else s
        | none => if fn = 0 then s.onHif fun h => { h with dbDiscards := h.dbDiscards + 1 } else s)

/-- SQ_TAIL_DOORBELL (R313): a tail below sq_entries of an ENABLED queue is taken; another is ignored. It is a wake event. -/
def execSqTailDoorbell (fn index value : Nat) (s : State) : Res := whileUp s <|
  doorbell fn index s fun q p s =>
    let v := value % 65536
    let s := wakeEvent (recordInput 1 0 false (toLe 2 q ++ toLe 2 v ++ zeros 4) s)
    if p.qstate = .enabled && v < sqEntries p then modQp q (fun p => { p with sqTail := v }) s else ignoreDoorbell q s

/-- CQ_HEAD_DOORBELL (R313): a head between the present one, exclusive, and cq_tail, inclusive, of an ENABLED or ERROR queue
releases the slots before it; another is ignored. -/
def execCqHeadDoorbell (fn index value : Nat) (s : State) : Res := whileUp s <|
  doorbell fn index s fun q p s =>
    let v := value % 65536
    let n := cqEntries p
    let s := wakeEvent (recordInput 2 0 false (toLe 2 q ++ toLe 2 v ++ zeros 4) s)
    let d := (v + n - p.cqHead) % n
    if (p.qstate = .enabled || p.qstate = .error) && v < n && 1 ≤ d && d ≤ (p.cqTail + n - p.cqHead) % n then
      modQp q (fun p => { p with cqHead := v }) s
    else ignoreDoorbell q s

/-! Fetch and admission. -/

/-- SQ_ENTRY_FETCH (R314): the entry at the head, as the fetch returned it; the head moves past it. -/
def execSqEntryFetch (qp : Nat) (entry : Bytes) (s : State) : Res := whileUp s <|
  let p := qpOf s qp
  if p.qstate != .enabled || p.deleting || p.sqHead == p.sqTail then .next s
  else
    let e := slice entry 0 64
    .next (modQp qp (fun p => { p with
      sqHead := (p.sqHead + 1) % sqEntries p
      fetched := p.fetched ++ [{ slot := p.sqHead, entry := e, since := s.aon.uptime }] })
      (recordInput 3 0 false (toLe 2 qp ++ toLe 2 p.sqHead ++ zeros 4 ++ e) s))

/-- COMMAND_ADMISSION (R31, R319, R364): the queue that the engine's choice falls on is admitted; another waits its turn. -/
def execCommandAdmission (qp : Nat) (s : State) : Res := whileUp s <|
  .next (if admits s && nextQueue s == some qp then admitHead qp s else s)

/-- ADMISSION_WAIT_END (R319): a head that waits at admission is tried again. -/
def execAdmissionWaitEnd (qp : Nat) (s : State) : Res := whileUp s <|
  let p := qpOf s qp
  .next (if admits s && p.qstate == .enabled && !p.deleting && p.wait && !queueBlocked s qp && !p.fetched.isEmpty
    then admitHead qp s else s)

/-! Completions. -/

/-- COMPLETION_DRAIN (R57, R318): completions leave staging, oldest first, while the queue has room. -/
def execCompletionDrain (qp : Nat) (s : State) : Res := whileUp s <| .next (checkDelete qp (drainCq qp s))

/-- A queue enters ERROR or TIMED_OUT: its QUEUE_ERROR bit sets and function 0's entry 0 is sent (R310). -/
def queueError (q : Nat) (s : State) : State :=
  sendMsi 0 0 (s.onHif fun h => { h with qError := setPut h.qError q true })

/-! Functions and link stopped (R320, R330). -/

/-- The items of a command that have not started at their head stage are dropped: those of the batch being formed and of
batches that the head has not begun. A command none of whose items is left ends. -/
def dropUnstarted (n : Nat) (s : State) : State :=
  match cmdOf s n with
  | none => s
  | some c =>
    let mine (i : Item) : Bool := i.cmd == n
    let gone := (s.shv.rts.map fun r => (r.2.open_.filter mine).length).sum +
      ((s.shv.stages.filter fun p => p.1 / 32 % 16 == 0).map fun p =>
        ((p.2.inputs.filter fun i => i.1 == 255).map fun i => (i.2.items.filter mine).length).sum).sum
    let s := s.onShv fun v => { v with
      rts := v.rts.map fun r => (r.1, { r.2 with open_ := r.2.open_.filter fun i => !mine i })
      stages := v.stages.map fun p =>
        if p.1 / 32 % 16 = 0 then
          (p.1, { p.2 with inputs := p.2.inputs.map fun i =>
            if i.1 = 255 then (i.1, { i.2 with items := i.2.items.filter fun x => !mine x }) else i })
        else p }
    let left := if c.arrived then c.items - gone else 0
    discardReads (if c.itemsDone = left then endCmd n s else modCmd n (fun c => { c with items := left }) s)

/-- Husk states that a stop of their queue fails (R320). -/
def stopFails (x : HState) : Bool :=
  match x with
  | .waitingSlot | .admitted | .preparing | .waiting | .grouped => true
  | _ => false

/-- A command of a stopped function (R320): its output is suppressed, its unstarted items are dropped, a husk of it that has
not reached COMPUTING or COMMITTING fails. -/
def stopCmd (n : Nat) (s : State) : State :=
  let s := modCmd n (fun c => { c with suppressed := true }) s
  match s.eng.husks.find? fun p => p.2.cmd == some n with
  | some p => if stopFails p.2.hstate then failHusk p.1 { st := St.hostAccessError } s else s
  | none => match cmdOf s n with
    | some c => if isHuskOp c.opcode || (c.sheaf.isSome && c.items != 0) then dropUnstarted n s else s
    | none => s

/-! Timeouts of completions. -/

/-- QUEUE_DRAIN_TIMEOUT (R318, R320): the oldest staged completion has waited for drain_deadline: the queue is TIMED_OUT, its
staged and later completions are discarded, and its commands are stopped as those of a stopped function. -/
def execQueueDrainTimeout (qp : Nat) (s : State) : Res := whileUp s <|
  let p := qpOf s qp
  match p.staged with
  | [] => .next s
  | c :: _ =>
    match c.since with
    | none => .next s
    | some t =>
      if now s < t + drainDeadline p || !(p.qstate == .enabled || p.qstate == .error) then .next s
      else
        let s := timerToken 59 0 s
        let s := modQp qp (fun p => { p with
          qstate := .timedOut, staged := [], fetched := [], wait := false, waitGe := none,
          unsignalled := 0, firstUnsig := none }) s
        let s := p.staged.foldl (fun s c => freeStaging c.batch s) s
        let body := toLe 2 qp ++ toLe 2 p.cqTail ++ zeros 4
        let s := logEv Log.queueTimeout 59 1 body (raiseEvent p.tenant EvCode.queueTimeout body (queueError qp s))
        let cmds := (s.hif.cmds.filter fun c => c.2.qp == qp).map Prod.fst
        .next (checkDelete qp (cmds.foldl (fun s n => stopCmd n s) s))

/-- COALESCE_TIMEOUT (R322): coalesce_time has passed since the first unsignalled completion. -/
def execCoalesceTimeout (qp : Nat) (s : State) : Res := whileUp s <|
  let p := qpOf s qp
  match p.firstUnsig with
  | none => .next s
  | some t => .next (if now s < t + 1000 * fld p.ctx 0x26 2 || s.hif.d3.contains p.tenant then s else signalCq qp s)

/-! MSI-X table (R322): 2,048 entries of function 0, 64 of each VF. -/

/-- Table entries of a function. -/
def vecCount (fn : Nat) : Nat := if fn = 0 then 2048 else 64

/-- MSIX_ENTRY_MASK: later messages of the entry set its pending bit. -/
def execMsixEntryMask (fn ent : Nat) (s : State) : Res := whileUp s <|
  .next (if fnAnswers s fn && ent < vecCount fn then
    s.onHif fun h => { h with vecOpen := setPut h.vecOpen (fn * 2048 + ent) false } else s)

/-- MSIX_ENTRY_UNMASK: a pending message is sent. -/
def execMsixEntryUnmask (fn ent : Nat) (s : State) : Res := whileUp s <|
  if fnAnswers s fn && ent < vecCount fn then
    let k := fn * 2048 + ent
    let held := s.hif.vecPend.contains k
    let s := s.onHif fun h => { h with vecOpen := setPut h.vecOpen k true, vecPend := setPut h.vecPend k false }
    .next (if held then sendMsi fn ent s else s)
  else .next s

/-! Register writes and reads. -/

/-- A register write is an external input (R399). -/
def recordReg (fn off value : Nat) (s : State) : State :=
  recordInput 5 0 false (toLe 4 off ++ toLe 2 fn ++ zeros 2 ++ toLe 8 value) s

/-- FAULT_CAUSE_CLEAR (R309): bits written 1 clear; one whose cause is still present sets again. -/
def execFaultCauseClear (value : Nat) (s : State) : Res := whileUp s <|
  .next (if !fnAnswers s 0 then s else (recordReg 0 0x30 value s).onAon fun a => { a with
    faultCause := (a.faultCause &&& ~~~(BitVec.ofNat 64 value)) ||| (a.faultCause &&& a.faultPresent) })

/-- QUEUE_ERROR_CLEAR (R310): the bits of one 64-bit register; queue states are untouched. -/
def execQueueErrorClear (reg value : Nat) (s : State) : Res := whileUp s <|
  if !fnAnswers s 0 then .next s
  else if 64 ≤ reg then .next (accessError s)
  else .next ((recordReg 0 (0x40 + 8 * reg) value s).onHif fun h => { h with
    qError := h.qError.filter fun q => !(q / 64 == reg && value.testBit (q % 64)) })

/-- QUEUE_STATUS_CLEAR (R311): doorbell_invalid and host_access are cleared by a 1. -/
def execQueueStatusClear (fn index value : Nat) (s : State) : Res := whileUp s <|
  if !fnAnswers s fn then .next s
  else match qpIndex s fn index with
    | none => .next (accessError s)
    | some q =>
      .next (modQp q (fun p => { p with
        dbInvalid := p.dbInvalid && !value.testBit 2, hostAccess := p.hostAccess && !value.testBit 3 })
        (recordReg fn ((if fn = 0 then 0x1000 else 0x2000) + 8 * index) value s))

/-- NODE_STATUS (R305). -/
def nodeStatusReg (s : State) : Nat :=
  nodeStateCode s.stew.st + 2 ^ 3 * genProfile (gen s) + 2 ^ 5 * s.stew.pstate +
    2 ^ 7 * b2n (s.stew.goal.isSome || s.stew.exiting) + 2 ^ 8 * genClass (gen s) + 2 ^ 10 * b2n s.aon.viral +
    2 ^ 11 * b2n (faultN s) + 2 ^ 12 * b2n s.stew.busy + 2 ^ 13 * genNode (gen s)

/-- The 64 pending bits of a register of a function's PBA (R301, R302). -/
def pbaReg (s : State) (fn reg : Nat) : Nat :=
  ((List.range 64).map fun i => if s.hif.vecPend.contains (fn * 2048 + 64 * reg + i) then 2 ^ i else 0).sum

/-- The status registers common to function 0 and the VFs, at R304's offsets. -/
def globalReg (s : State) (off : Nat) : Option Nat :=
  match off with
  | 0x00 => some identReg
  | 0x08 => some (nodeStatusReg s)
  | 0x10 => some (now s)
  | 0x18 => some s.stew.boot
  | 0x20 => some s.eng.epoch
  | 0x28 => some ((gen s).number + 2 ^ 32 * ((s.stew.prev.map Gen.number).getD 0))
  | 0x30 => some s.aon.faultCause.toNat
  | _ => none

/-- The log and last-gasp registers of function 0 (R392, R393). -/
def gaspReg (s : State) (off : Nat) : Option Nat :=
  match off with
  | 0x300 => some (logFailCount s)
  | 0x308 => some s.aon.gasp.toNat
  | 0x310 => some s.aon.gaspUp
  | _ => none

/-- Half of an MSI-X table entry (R301, R302): the message's address, or its data with the mask bit behind it (log entry 110). -/
def msixReg (s : State) (fn i : Nat) : Nat :=
  let v := tabGetD s.hif.msixTab (fn * 4096 + i) 0
  if i % 2 = 0 then v else v % 2 ^ 32 + if vecMasked s (fn * 2048 + i / 2) then 2 ^ 32 else 0
/-- Where an offset lies in a function's MSI-X table: the number of its eight bytes (R301, R302). -/
def msixIndex (fn off : Nat) : Option Nat :=
  if fn = 0 && inRange off 0x2000000 0x2007FFF then some ((off - 0x2000000) / 8)
  else if fn != 0 && inRange off 0x8000 0x83FF then some ((off - 0x8000) / 8)
  else none
/-- Eight bytes of an MSI-X table written, or four of them. -/
def writeMsix (fn off width value : Nat) (s : State) : State :=
  match msixIndex fn off with
  | none => s
  | some i =>
    let k := fn * 4096 + i
    let old := tabGetD s.hif.msixTab k 0
    let v := if width = 8 then value % 2 ^ 64 else if off % 8 = 0 then old / 2 ^ 32 * 2 ^ 32 + value % 2 ^ 32
      else old % 2 ^ 32 + value % 2 ^ 32 * 2 ^ 32
    s.onHif fun h => { h with msixTab := tabSet h.msixTab k v }

/-- A queue's bits of one QUEUE_ERROR register (R310). -/
def queueErrorReg (s : State) (reg : Nat) : Nat :=
  ((List.range 64).map fun i => if s.hif.qError.contains (64 * reg + i) then 2 ^ i else 0).sum

/-- A queue status register by function (R311). -/
def statusOf (s : State) (fn index : Nat) : Option Nat :=
  (qpIndex s fn index).map fun q => queueStatusReg (qpOf s q)

/-- A mailbox page's 64-bit word: the status, the write-only doorbell and, where a read of it has no effect, the release
register as 0, the message window as the outbound area holds it (R326); none in the reserved space. -/
def mbxWord (s : State) (box o : Nat) (view : Bool) : Option Nat :=
  let m := mbxOf s box
  if o = 0 then some (mbxStatusReg m s.stew.busy)
  else if o = 8 then some 0
  else if o = 0x10 then (if view then some 0 else none)
  else if 0x40 ≤ o then some (fld (m.outArea) (o - 0x40) 8)
  else none

/-- A 64-bit register's value by function and offset (R301, R302, R326); none at an offset that holds none. -/
def regValue (s : State) (fn off : Nat) : Option Nat :=
  if fn = 0 then
    (globalReg s off) <|> (gaspReg s off) <|>
    (if inRange off 0x40 0x23F then some (queueErrorReg s ((off - 0x40) / 8))
     else if inRange off 0x1000 0x8FFF then statusOf s 0 ((off - 0x1000) / 8)
     else if inRange off 0x100000 0x100FFF then mbxWord s 0 (off - 0x100000) false
     else if inRange off 0x200000 0x5FFFFF then mbxWord s ((off - 0x200000) / 4096) ((off - 0x200000) % 4096) true
     else if inRange off 0x1000000 0x100FFFF && off % 8 == 0 then some 0
     else if inRange off 0x2000000 0x2007FFF then some (msixReg s 0 ((off - 0x2000000) / 8))
     else if inRange off 0x2008000 0x20080FF then some (pbaReg s 0 ((off - 0x2008000) / 8))
     else none)
  else
    (if off = 0x30 then none else globalReg s off) <|>
    (if inRange off 0x1000 0x1FFF then mbxWord s fn (off - 0x1000) false
     else if inRange off 0x2000 0x21FF then statusOf s fn ((off - 0x2000) / 8)
     else if inRange off 0x3000 0x33FF then some 0
     else if inRange off 0x8000 0x83FF then some (msixReg s fn ((off - 0x8000) / 8))
     else if off = 0x8400 then some (pbaReg s fn 0)
     else none)

/-- Whether an offset of a function lies in a mailbox page (R301, R302). -/
def mbxOffset (fn off : Nat) : Bool :=
  if fn = 0 then inRange off 0x100000 0x100FFF || inRange off 0x200000 0x5FFFFF else inRange off 0x1000 0x1FFF
/-- Whether island 1 is in reset: accesses to mailboxes reach nothing and are logged (R303, R330). -/
def stewardDown (s : State) : Bool := s.aon.inReset.contains 1
/-- An access to a mailbox while island 1 is in reset: a read is aborted, a write discarded. -/
def mbxAbort (s : State) : State := logEv Log.mbxReset 59 1 [] (s.onHif fun h => { h with readData := 2 ^ 64 - 1 })

/-- REGISTER_LOW_HALF_READ (R303): bits [31:0] are returned and [63:32] latched for the same function; at another offset the
read returns 0 and is counted. -/
def execRegisterLowHalfRead (fn off : Nat) (s : State) : Res := whileUp s <|
  if !fnAnswers s fn then .next s
  else if mbxOffset fn off && stewardDown s then .next (mbxAbort s)
  else match (if off % 8 = 0 then regValue s fn off else none) with
    | some v => .next (s.onHif fun h => { h with readData := v % 2 ^ 32, latch := tabSet h.latch fn (v / 2 ^ 32) })
    | none => .next ((accessError s).onHif fun h => { h with readData := 0 })

/-- REGISTER_WRITE_OTHER (R301 to R303): the MSI-X table takes the write, its mask bits left to the rows that set and clear them; a
read-only register ignores it; another width or alignment, or a reserved offset, is counted. -/
def execRegisterWriteOther (fn off width value : Nat) (s : State) : Res := whileUp s <|
  if !fnAnswers s fn then .next s
  else if mbxOffset fn off && stewardDown s then .next (mbxAbort s)
  else if (width = 4 || width = 8) && off % width = 0 && (regValue s fn (off / 8 * 8)).isSome then
    .next (writeMsix fn off width value (recordReg fn off value s))
  else .next (accessError s)

/-- A queue pair of a stopped function goes DISABLED; its pending WAIT_GE and staged completions go (R320). -/
def stopQueue (q : Nat) (s : State) : State :=
  let p := qpOf s q
  let s := modQp q (fun p => { p with
    qstate := .disabled, fetched := [], wait := false, waitGe := none, staged := [], unsignalled := 0, firstUnsig := none }) s
  let s := p.staged.foldl (fun s c => freeStaging c.batch s) s
  let cmds := (s.hif.cmds.filter fun c => c.2.qp == q).map Prod.fst
  checkDelete q (cmds.foldl (fun s n => stopCmd n s) s)

/-- Every queue of a function stops. -/
def stopFunction (fn : Nat) (s : State) : State :=
  ((s.hif.qps.filter fun p => p.2.tenant == fn).map Prod.fst).foldl (fun s q => stopQueue q s) s

/-- A mailbox page reset to empty: a command in progress runs to its end and its response is discarded (R330). -/
def resetMbx (t : Nat) (s : State) : State :=
  modMbx t (fun m =>
    let live := m.req.any fun r => r.resp.isNone
    { m with
      inArea := [], inFull := false, outArea := [], outFull := false, inDiscard := false, events := [],
      req := if live then m.req else none, drop := live }) s

/-- A pin or link event is an external input (R399): its source and new state. -/
def recordPin (src st : Nat) (s : State) : State := recordInput 0x0B 0 false (toLe 2 src ++ toLe 2 st ++ zeros 4) s

/-- FUNCTION_LEVEL_RESET (R320, R330). -/
def execFunctionLevelReset (fn : Nat) (s : State) : Res := whileUp s <|
  .next (if fnLive s fn then resetMbx fn (stopFunction fn (recordPin 2 fn s)) else s)

/-- Every queue of every function stops and every mailbox is emptied (R320, R330). -/
def stopAll (s : State) : State :=
  let s := (tabKeys s.hif.qps).foldl (fun s q => stopQueue q s) s
  logEv Log.queueStop 59 1 [] ((tabKeys s.stew.mbx).foldl (fun s t => resetMbx t s) s)

/-- PERST_N_ASSERT (R320): fundamental reset. -/
def execPerstNAssert (s : State) : Res := whileUp s <|
  .next ((stopAll ((recordPin 1 0 s).onAon fun a => { a with perstLow := true })).onHif fun h => { h with linkUp := false })

/-- HOT_RESET (R320): the link stays, so AER reports it. -/
def execHotReset (s : State) : Res := whileUp s <|
  .next ((stopAll (recordPin 3 0 s)).onHif fun h => { h with aer := h.aer + 1 })

/-- LINK_DOWN (R320): link disable or surprise link down. -/
def execLinkDown (s : State) : Res := whileUp s <|
  .next ((stopAll (recordPin 4 0 s)).onHif fun h => { h with linkUp := false })

/-- LINK_TRAINING (R296): the rate and width that both ends support, highest first; FLIT mode at 64 GT/s, and below it where
the partner supports it. The operands are the partner's highest. -/
def execLinkTraining (rate width : Nat) (flit : Bool) (s : State) : Res := whileUp s <|
  match [128, 64, 32, 16, 10, 5].find? (fun r => decide (r ≤ rate)), [16, 8, 4, 2, 1].find? (fun w => decide (w ≤ width)) with
  | some r, some w =>
    if s.aon.pcieLost then .next s
    else .next (((recordPin 4 1 s).onAon fun a => { a with perstLow := false }).onHif fun h => { h with
      linkUp := true, linkRate := r, linkWidth := w, linkFlit := r == 128 || flit })
  | _, _ => .next s

/-- FUNCTION_D_STATE_CHANGE (R321): completions wait while the function is in D3hot and drain when it leaves. -/
def execFunctionDStateChange (fn : Nat) (d3 : Bool) (s : State) : Res := whileUp s <|
  if !fnLive s fn then .next s
  else
    let s := s.onHif fun h => { h with d3 := setPut h.d3 fn d3 }
    .next (if d3 then s
      else ((s.hif.qps.filter fun p => p.2.tenant == fn).map Prod.fst).foldl (fun s q => drainCq q s) s)

/-- SRIOV_VF_ENABLE (R299): VFs 1 to the number enabled answer. -/
def execSriovVfEnable (vfs : Nat) (s : State) : Res := whileUp s <|
  .next (s.onHif fun h => { h with vfs := min vfs 1023 })

/-- BAR2_RESIZE (R300): a power of two from 1 to 256 GiB. -/
def execBar2Resize (gib : Nat) (s : State) : Res := whileUp s <|
  .next (if (List.range 9).any (fun i => gib == 2 ^ i) then s.onHif fun h => { h with bar2 := gib } else s)

/-! Host reads that fail or arrive poisoned (R320, R324). -/

/-- The queue of a failed read goes ERROR and stops fetching; a poisoned or unreadable entry completes with ENTRY_UNREAD. -/
def entryUnread (qp : Nat) (s : State) : State :=
  let p := qpOf s qp
  if p.qstate != .enabled || p.deleting || p.sqHead == p.sqTail then s
  else
    let s := modQp qp (fun p => { p with
      qstate := .error, hostAccess := true, sqHead := (p.sqHead + 1) % sqEntries p, fetched := [], wait := false }) s
    postCompl qp { status := St.hostAccessError, unread := true, detail := p.sqHead } (queueError qp s)

/-- Whether a command has still to read data of the host. -/
def readsHost (c : Cmd) : Bool := !c.ran && (c.opcode ≤ 0x34 || c.opcode == 0x41 || c.opcode == 0x50) && c.result.isNone

/-- HOST_ACCESS_ERROR (R320): of an entry or command data, the queue goes ERROR; of a Zalpol command's DMA, the command
answers. -/
def execHostAccessError (src : HostSrc) (s : State) : Res := whileUp s <|
  match src with
  | .sqEntry qp => .next (entryUnread qp s)
  | .cmd n =>
    match cmdOf s n with
    | none => .next s
    | some c =>
      if !readsHost c then .next s
      else
        let live := (qpOf s c.qp).qstate == .enabled
        let s := if live then
            queueError c.qp (modQp c.qp (fun p => { p with qstate := .error, hostAccess := true, fetched := [], wait := false }) s)
          else s
        .next (failCmd n St.hostAccessError s)
  | .zalpol box =>
    .next (if ((mbxOf s box).req.any fun r => r.passed && r.resp.isNone) then zRespond box St.hostAccessError 0 [] s else s)

/-- HOST_DATA_POISONED (R324): the command completes POISON and has no effect; the event is logged, with no signature. A
poisoned entry is an entry read that fails. -/
def execHostDataPoisoned (src : HostSrc) (s : State) : Res := whileUp s <|
  match src with
  | .sqEntry qp => .next (entryUnread qp s)
  | .cmd n =>
    match cmdOf s n with
    | none => .next s
    | some c =>
      if !readsHost c then .next s
      else .next (failCmd n St.poison (logEv Log.hostPoison 59 1 (toLe 2 c.qp ++ toLe 2 c.cid)
        (recordInput 4 0 true (toLe 2 c.qp ++ toLe 2 c.cid ++ zeros 12) s)))
  | .zalpol box =>
    if ((mbxOf s box).req.any fun r => r.passed && r.resp.isNone) then
      .next (zRespond box St.poison 0 [] (logEv Log.hostPoison 1 1 (toLe 2 box) s))
    else .next s

/-! The memory window (R323, R324). -/

/-- WINDOW_READ: mapped bytes as they stand, zeros where nothing is mapped, poison for lost data and after viral. A read does
not cross its 64-byte line; one through BAR2 is not answered while function 0 is in D3hot (R321). -/
def execWindowRead (cxl : Bool) (addr len : Nat) (s : State) : Res := whileUp s <|
  let n := min len (64 - addr % 64)
  if s.hif.bar2 * 2 ^ 30 ≤ addr || (!cxl && !fnAnswers s 0) then .next s
  else match tabGet s.hif.window (addr / 2 ^ 21) with
    | none =>
      .next (s.onHif fun h => { h with winOut := some (zeros n, s.aon.viral), winMiss := h.winMiss + 1 })
    | some (h, base) =>
      let off := base + addr % 2 ^ 21
      let bad := objPoisoned s h off n
      .next (s.onHif fun x => { x with
        winOut := some (objImage s h off n, bad || s.aon.viral)
        poisonList := if bad && cxl then setPut x.poisonList (addr / 64 * 64) true else x.poisonList })

/-- WINDOW_WRITE: discarded, counted and logged; the object's bytes stand. -/
def execWindowWrite (cxl : Bool) (addr : Nat) (s : State) : Res := whileUp s <|
  .next (logEv Log.windowWrite 59 1 (toLe 8 addr ++ toLe 1 (b2n cxl)) (s.onHif fun h => { h with winWrites := h.winWrites + 1 }))

/-- QUEUE_ENGINE_INTERNAL_TIMEOUT (R324): viral, FAULT_CAUSE queue_engine, a signature record with cause 0x0A. -/
def execQueueEngineInternalTimeout (s : State) : Res := whileUp s <|
  .next (raiseViral (fatal Cause.queueEngine { kind := 0, cause := 0x0A, unitKind := 9, island := 59 } s))

end Sys2Proof.Machine
end

