-- ==== Sys2Proof/Machine/Commands.lean ====
section
/-! DEFINITION. The data-path, binder and husk commands of a queue: what each computes on its host data (chapters 04, 06, 07,
08). Their items flow through the sheaf afterwards. -/

namespace Sys2Proof.Machine
open Sys2Proof

/-- A command's own step has run, with its outcome where it is known already. -/
def ranWith (n : Nat) (r : Option Result) (s : State) : State := modCmd n (fun c => { c with ran := true, result := r }) s

/-- A command on host data: it must be waiting for it; the data is recorded with its place (R399). -/
def onData (n op : Nat) (data : Bytes) (s : State) (k : Cmd → State → State) : Res :=
  match readyCmd s n op with
  | none => .next s
  | some c => .next (k c (recordData c.qp c.cid data false s))

/-- The bound epoch of a command. -/
def cEpoch (c : Cmd) : Nat := c.epoch.getD 0

/-! SEARCH (chapter 04). -/

/-- Parameters of a search: the entry's, or its stages' where it gives 0 (R98). -/
def seNprobe (c : Cmd) : Nat := orDef (fld c.entry 8 2) (fld (roleEntry c.desc 1) 0x2E 2)
def seKept (c : Cmd) (st : Bytes) : Nat := orDef (byteAt c.entry 7) (fld st 0x2A 2)
def seCutoff (c : Cmd) (st : Bytes) : Nat := orDef (fld c.entry 0x0C 2) (fld st 0x2C 2)

/-- How a probed list is scanned: candidates kept, cutoff, and the tile, which of a SPLIT stage is the one its position in the probe list
gives (R48, R98). -/
def scanHow (c : Cmd) (r : Nat × Nat × Bytes) : Nat × Nat × Nat :=
  let st := shStage c.desc (scanIndex c.desc r.2.2)
  (seKept c st, seCutoff c st, sgBase st + if sgSplit st then r.1 % max 1 (sgWidth st) else 0)

/-- The lists of a search asked of each owner (R111): (owner, list IDs in probe order). -/
def remoteOwners (ls : List (Nat × Nat × Bytes)) : List (Nat × List Nat) :=
  let rs := (ls.filter fun r => deLoc r.2.2 == 3).map fun r => (deWhere r.2.2 % 2 ^ 14, r.2.1)
  (nub (rs.map Prod.fst)).map fun o => (o, (rs.filter fun r => r.1 == o).map Prod.snd)

/-- The candidates of the first selection given: their exact vectors scored and the best k selected (R39, R100, R101). -/
def withCand (s : State) (d : Bytes) (p : Part) (c : Cmd) : Cmd :=
  let (_, fq, tot) := queryLayout s d
  let rr := rerank s d (fld c.entry 4 2) (cEpoch c) c.cls (byteAt c.entry 6) (sgBase (roleEntry c.desc 4)) (slice c.query fq (tot - fq)) p.hits
  let f := c.fan.getD {}
  { c with
    cand := p.hits, bad := if rr.2 then [0] else c.bad
    fan := some { f with mine := { rr.1 with nan := rr.1.nan + f.nans }, fp := exactFp d } }

/-- The lists to scan given: those of this node scanned, the first selection made of what the scans keep (R100, R104). -/
def withLists (s : State) (d : Bytes) (ls : List (Nat × Nat × Bytes)) (c : Cmd) : Cmd :=
  let (sk, _, _) := queryLayout s d
  let r := scanLists s d (fld c.entry 4 2) (cEpoch c) (leNat (slice c.query sk (coWidth d / 8))) (scanHow c) ls
  let f := c.fan.getD {}
  withCand s d (winnowDeep c.piecewise false 0 (fld c.entry 0x0A 2) c.cls r.1)
    { c with probe := ls, bad := if r.2.2.2 then [0] else c.bad, fan := some { f with chaff := r.2.1, lists := r.2.2.1 } }

/-- The centroids selected given: the probe list, its lists of other nodes to be asked of their owners (R104, R111). -/
def withProbe (s : State) (d : Bytes) (p : Part) (c : Cmd) : Cmd :=
  let ls := probeLists s d (cEpoch c) (p.hits.map Hit.payload)
  let f := c.fan.getD {}
  withLists s d ls { c with ask := if f.slot then c.ask else remoteOwners ls, fan := some { f with nans := p.nan } }

/-- A search with its query block: everything its stages compute, at its bound epoch. -/
def startSearch (s : State) (d query : Bytes) (c : Cmd) : Cmd :=
  let st := roleEntry c.desc 1
  let f := coarseWord s d
  let q := query.take (rowBytes f (coCoarseDims d) + scaleBytes f (coCoarseDims d))
  withProbe s d (probePart s d st c.piecewise (seNprobe c) c.cls (cEpoch c) q)
    { c with query := query, bad := if centroidLost s d st (cEpoch c) then [0] else [] }

/-- A coordinator's own list among its peers' answers, whose scores are FP32 (R102, R136): its own scores as FP32. DESIGN CHOICE (log
entry 100). -/
def fanList (f : Fan) : Part := { f.mine with hits := f.mine.hits.map fun h => { h with score := bitsF32 f.fp h.score } }

/-- A search's outcome out of its merged selection (R102 to R104, R113). -/
def searchResult (c : Cmd) : Result :=
  let f := c.fan.getD {}
  let b := byteAt c.entry 1
  if !c.bad.isEmpty then plain St.poison
  else if f.missing != 0 && bitOf b 2 then plain St.peerTimeout
  else
    { status := if f.missing = 0 then St.success else St.partialResult, count := f.mine.hits.length,
      bytes := resultBlock (cEpoch c) f.lists f.chaff f.missing c.cls f.fp (bitOf b 3) f.mine, addr := fld c.entry 0x28 8 }

/-- A SUB_ANSWER body (R349). -/
def subAnswerBody (f : Fan) : Bytes :=
  let p := f.mine
  toLe 2 0 ++ toLe 2 p.hits.length ++ toLe 2 f.missing ++
    toLe 1 (b2n p.sel.pinf + 2 * b2n p.sel.ninf + 4 * b2n p.rest.pinf + 8 * b2n p.rest.ninf) ++ [0] ++ toLe 4 f.chaff ++
    toLe 4 p.nan ++ accBytes p.sel ++ accBytes p.rest ++ p.hits.flatMap (resultEntry f.fp true)

/-- The answer to a sub-search as its item leaves: its list, or the status its reads met (R113, R349). -/
def subAnswer (c : Cmd) : Bytes :=
  let st := if c.viol != 0 then c.viol else if c.bad.isEmpty then 0 else St.poison
  if st = 0 then subAnswerBody (c.fan.getD {}) else toLe 2 st ++ zeros 94

/-- A SUB_SEARCH body (R348). -/
def subSearchBody (c : Cmd) (epoch : Nat) (ids : List Nat) : Bytes :=
  let st := roleEntry c.desc 2
  let hd := toLe 2 (fld c.entry 4 2) ++ toLe 1 (byteAt c.entry 6) ++ toLe 1 (seKept c st) ++ toLe 2 (fld c.entry 0x0A 2) ++
    toLe 2 (seCutoff c st) ++ toLe 8 epoch ++ toLe 1 c.cls ++ [0] ++ toLe 2 ids.length ++ toLe 4 c.query.length ++ zeros 8
  let b := hd ++ ids.flatMap (toLe 4)
  slice b 0 (roundUp b.length 64) ++ c.query

/-- The epoch a sub-search carries for a node: the one its barrier recorded for it, 0 for the owner's current (R112). -/
def subEpoch (s : State) (c : Cmd) (node : Nat) : Nat :=
  match c.barrier with
  | none => 0
  | some b => ((s.eng.barriers.find? fun x => x.id == b).bind fun x => tabGet x.map node).getD 0

/-- Changes a command's coordinator merge. -/
def modFan (n : Nat) (f : Fan → Fan) (s : State) : State := modCmd n (fun c => { c with fan := c.fan.map f }) s

/-- One sub-search sent to an owner: the owner then owes its lists; an owner that cannot be reached, or that
the barrier's map does not name (R359), counts as absent. -/
def askOwner (n : Nat) (c : Cmd) (o : Nat × List Nat) (s : State) : State :=
  let cnt := o.2.length
  if sendStatus s o.1 c.tenant s.eng.epoch != St.success || (c.barrier.isSome && subEpoch s c o.1 == 0) then
    modFan n (fun f => { f with missing := f.missing + cnt }) s
  else
    let m : Msg := { dst := o.1, vc := 1, type := 0x10, tenant := c.tenant, epoch := s.eng.epoch, body := subSearchBody c (subEpoch s c o.1) o.2 }
    modFan n (fun f => { f with owed := f.owed ++ [(o.1, cnt)] }) (sendRequest m (96 + 16 * byteAt c.entry 6) n s).2

/-- A coordinator's merge is complete once no owner owes an answer: its slot is freed (R135). -/
def closeFan (n : Nat) (s : State) : State :=
  match (cmdOf s n).bind Cmd.fan with
  | none => s
  | some f =>
    if !f.owed.isEmpty || !f.slot then s
    else (modFan n (fun f => { f with slot := false }) s).onShv fun v => { v with coordSlots := v.coordSlots + 1 }

/-- A search that asks other nodes takes its coordinator slot and sends its sub-searches (R111, R112, R135). -/
def askOwners (n : Nat) (s : State) : State :=
  match cmdOf s n with
  | none => s
  | some c =>
    if c.ask.isEmpty then s
    else
      let wait := ((collAt s (fld c.entry 4 2) (cEpoch c)).map coFanout).getD 0
      let s := s.onShv fun v => { v with coordSlots := v.coordSlots - 1 }
      let s := modCmd n (fun c => { c with ask := [], fan := c.fan.map fun f => { f with
        slot := true, mine := fanList f, fp := true, deadline := s.aon.uptime + wait } }) s
      closeFan n (c.ask.foldl (fun s o => askOwner n c o s) s)

/-- Candidates dropped for NaN in Federation are counted at the stages that scored them (R120). -/
def searchDrops (c : Cmd) (s : State) : State :=
  let f := c.fan.getD {}
  let sh := c.sheaf.getD 0
  countNans c.cls sh c.desc 1 f.nans (countNans c.cls sh c.desc 4 (f.mine.nan - f.nans) s)

/-- SEARCH (R98 to R104): the query block has arrived. A row of centroids above the limit, an EPOCH search of lists that other nodes hold, a
list that may not be read or scanned where it lies end it. -/
def execSearch (n : Nat) (data : Bytes) (s : State) : Res := whileUp s <|
  match readyCmd s n 0x20 with
  | none => .next s
  | some c =>
    match collAt s (fld c.entry 4 2) (cEpoch c) with
    | none => .next (failCmd n St.collectionUnknown s)
    | some d =>
      let st := roleEntry c.desc 1
      let f := coarseWord s d
      let coarse := data.take (rowBytes f (coCoarseDims d) + scaleBytes f (coCoarseDims d))
      let x := startSearch s d (slice data 0 (queryLayout s d).2.2) c
      if rowTooLong c.piecewise (centroidRowLen s d st c.cls (cEpoch c) coarse) then .next (failCmd n St.rowTooLong s)
      else if bitOf (byteAt c.entry 1) 0 && !x.ask.isEmpty then .next (finishCmd n (badField 0 1) s)
      else
        let s := recordData c.qp c.cid data false s
        match listsBad s c.tenant c.desc x.probe with
        | some b => .next (ranWith n (some (plain b)) (if b = St.accessViolation then countViolation c.tenant s else s))
        | none => .next (modCmd n (fun _ => { x with ran := true }) (searchDrops x s))

/-! INSERT, UPSERT, DELETE (R105, R106). -/

/-- The first reserved field of an insert record's head that is not 0: offset in the record. -/
def recordBad (r : Bytes) : Option Nat := firstBad [(8, decide (fld r 8 4 < 2 ^ 20)), (0x0C, zeroAt r 0x0C 4)]

/-- An update's husk formed from its actions. -/
def formUpdate (n : Nat) (c : Cmd) (as : List Action) (s : State) : State :=
  match huskRefusal s c.tenant none with
  | some st => failCmd n st s
  | none => formHusk { tenant := c.tenant, actions := as, cmd := some n } (ranWith n none s)

/-- An INSERT or UPSERT formed from its records (R105): one husk with one action a record. -/
def doInsert (n : Nat) (upsert : Bool) (data : Bytes) (s : State) : Res :=
  match readyCmd s n 0x21 with
  | none => .next s
  | some c =>
    if bitOf (byteAt c.entry 1) 0 != upsert then .next s
    else match collAt s (fld c.entry 4 2) s.eng.epoch with
      | none => .next (failCmd n St.collectionUnknown s)
      | some d =>
        let cnt := byteAt c.entry 6
        let tot := (recordLayout s d).2.2.2
        let rs := (List.range cnt).map fun i => slice data (i * tot) tot
        if coOwner d != c.tenant && c.tenant != 0 then .next (failCmd n St.accessViolation s)
        else if fld c.entry 0x18 4 < cnt * tot then .next (finishCmd n (badField 0 0x18) s)
        else match rs.zipIdx.findSome? fun r => (recordBad r.1).map (r.2 * tot + ·) with
          | some off => .next (finishCmd n (badField 1 off) s)
          | none =>
            .next (formUpdate n c (rs.zipIdx.map fun (r, i) => {
              kind := 1, flags := b2n upsert, coll := fld c.entry 4 2, len := tot, src := i * tot, target := fld r 0 8, arg := fld r 8 4, data := r })
              (recordData c.qp c.cid (slice data 0 (cnt * tot)) false s))

/-- INSERT. -/
def execInsert (n : Nat) (data : Bytes) (s : State) : Res := whileUp s <| doInsert n false data s

/-- UPSERT (R105 flag). -/
def execUpsert (n : Nat) (data : Bytes) (s : State) : Res := whileUp s <| doInsert n true data s

/-- DELETE (R105): one action a vector ID. -/
def execDelete (n : Nat) (data : Bytes) (s : State) : Res := whileUp s <|
  match readyCmd s n 0x22 with
  | none => .next s
  | some c =>
    match collAt s (fld c.entry 4 2) s.eng.epoch with
    | none => .next (failCmd n St.collectionUnknown s)
    | some d =>
      if coOwner d != c.tenant && c.tenant != 0 then .next (failCmd n St.accessViolation s)
      else
        let cnt := byteAt c.entry 6
        .next (formUpdate n c ((List.range cnt).map fun i => {
          kind := 2, flags := byteAt c.entry 1 % 2, coll := fld c.entry 4 2, target := fld data (8 * i) 8 })
          (recordData c.qp c.cid (slice data 0 (8 * cnt)) false s))

/-! EXPERT_CALL and GATE (R140 to R151). -/

/-- Counters that the rows of an expert command raise: experts not VALID, candidates dropped for NaN in Federation (R120,
R146). -/
def countRows (c : Cmd) (t rows : Nat) (sels : List Sel) (s : State) : State :=
  let inv := invalidCount s t (cEpoch c) * rows
  countNans c.cls (c.sheaf.getD 0) c.desc 3 (sels.map Sel.nan).sum
    (if inv = 0 then s else s.onIdx fun x => { x with invalidEx := tabAdd x.invalidEx t inv })

/-- The selections of an expert command's tokens out of its gating rows (R146). -/
def tokenSels (s : State) (c : Cmd) (gate : Bytes) : List Sel :=
  gateSels s (expertTable c.desc c.entry) (cEpoch c) c.cls (bitsOf (byteAt c.entry 1) 1 2) (expertK c.desc c.entry) (fld c.entry 4 2)
    (sgBase (roleEntry c.desc 3)) gate

/-- EXPERT_CALL: the gating rows are selected, the activation rows travel with their items to the EXPERT stage. -/
def execExpertCall (n : Nat) (data acts : Bytes) (s : State) : Res := whileUp s <|
  onData n 0x30 (data ++ acts) s fun c s =>
    let t := expertTable c.desc c.entry
    let tk := fld c.entry 4 2
    let rb := actRowBytes (exHeader s t (cEpoch c))
    let sels := tokenSels s c data
    modCmd n (fun c => { c with
      ran := true, sels := sels, rows := (List.range tk).map fun i => slice acts (i * rb) rb }) (countRows c t tk sels s)

/-- GATE: the selection records alone. -/
def execGate (n : Nat) (data : Bytes) (s : State) : Res := whileUp s <|
  onData n 0x31 data s fun c s =>
    let sels := tokenSels s c data
    modCmd n (fun c => { c with ran := true, sels := sels })
      (countRows c (expertTable c.desc c.entry) (fld c.entry 4 2) sels s)

/-! GATHER and MEMORY_LAYER (R159 to R167). -/

/-- The first field of an index block that breaks R162: offsets that fall or do not start at 0, bags too long. -/
def bagsBad (bags rows : Nat) (b : Bytes) : Option Nat :=
  let os := bagOffsets bags b
  (List.range (bags + 1)).findSome? fun j =>
    let o := os.getD j 0
    let ok := if j = 0 then o == 0 else decide (os.getD (j - 1) 0 ≤ o) && decide (o - os.getD (j - 1) 0 ≤ rows)
    if ok then none else some (4 * j)

/-- Default rows read, counted in the table's counter (R161). -/
def countDefaults (t n : Nat) (s : State) : State :=
  if n = 0 then s else s.onIdx fun x => { x with defaults := tabAdd x.defaults t n }

/-- Table and combine mode of the rows a GATHER or MEMORY_LAYER command reads (R44, R162, R167). -/
def bagTable (c : Cmd) : Nat × Nat :=
  let st := roleEntry c.desc 5
  if c.opcode = 0x33 then (tableOf c.entry st 0x18, 2) else (tableOf c.entry st 8, byteAt st 0x29)

/-- What the rows of each of a command's items come to: bytes, default rows, whether data is lost (R163, R167). -/
def bagOuts (s : State) (c : Cmd) : List (Bytes × Nat × Bool) :=
  c.bags.map fun b => bagOut s (bagTable c).1 (cEpoch c) (bagTable c).2 b

/-- The places where a flag is set. -/
def placesOf (l : List Bool) : List Nat := (l.zipIdx.filter Prod.fst).map Prod.snd

/-- GATHER (R162, R163): its index block is checked now that it has been read; the rows are then known. -/
def execGather (n : Nat) (data : Bytes) (s : State) : Res := whileUp s <|
  match readyCmd s n 0x32 with
  | none => .next s
  | some c =>
    let st := roleEntry c.desc 5
    let bags := fld c.entry 4 2
    let w := bitOf (byteAt c.entry 1) 1
    let ib := fld c.entry 0x20 4
    let s := recordData c.qp c.cid (slice data 0 ib) false s
    if ib < 4 * (bags + 1) then .next (finishCmd n (badField 0 0x20) s)
    else match bagsBad bags (fld st 0x2A 2) data with
      | some off => .next (finishCmd n (badField 1 off) s)
      | none =>
        if ib < (indexLayout bags ((bagOffsets bags data).getLastD 0) w).2.2 then .next (finishCmd n (badField 0 0x20) s)
        else
          let c := { c with bags := bagsOf bags w data }
          let outs := bagOuts s c
          if fld c.entry 0x24 4 < (outs.map fun o => o.1.length).sum then .next (finishCmd n (badField 0 0x24) s)
          else if c.bags.any fun b => (List.range (shStages c.desc)).any fun i =>
              !slotsHold (shStage c.desc i) [itemSizes s c.desc c.entry (cEpoch c) i b] then .next (failCmd n St.sramOvercommit s)
          else
            .next (modCmd n (fun _ => { c with ran := true, bad := placesOf (outs.map fun o => o.2.2) })
              (countDefaults (bagTable c).1 (outs.map fun o => o.2.1).sum s))

/-- The keys selected for each query of a MEMORY_LAYER given: weights, the rows to read, what is lost (R140, R166, R167). -/
def withKeys (s : State) (ps : List Part) (c : Cmd) : Cmd :=
  let st := roleEntry c.desc 1
  let ks := tableOf c.entry st 8
  let sels := ps.map (selOf (keyFp s st ks) (bitsOf (byteAt c.entry 1) 1 2) (byteAt (roleEntry c.desc 3) 0x2A))
  let c := { c with sels := sels, bags := sels.map Sel.slots }
  let lost := keyLost s st ks (cEpoch c)
  { c with bad := placesOf ((bagOuts s c).map fun o => o.2.2 || lost) }

/-- The query rows of a MEMORY_LAYER. -/
def keyQuery (s : State) (c : Cmd) (i : Nat) : Bytes :=
  let st := roleEntry c.desc 1
  let qb := keyQueryBytes s st (tableOf c.entry st 8)
  slice c.query (i * qb) qb

/-- The selection size of a MEMORY_LAYER (R167). -/
def memoryK (c : Cmd) : Nat := orDef (byteAt c.entry 6) (byteAt (roleEntry c.desc 3) 0x28)

/-- MEMORY_LAYER (R166, R167): keys scored, the best k selected, their value rows weighted and summed. -/
def execMemoryLayer (n : Nat) (data : Bytes) (s : State) : Res := whileUp s <|
  onData n 0x33 data s fun c s =>
    let st := roleEntry c.desc 1
    let c := { c with query := data }
    let x := withKeys s ((List.range (fld c.entry 4 2)).map fun i =>
      keyPart s st (roleEntry c.desc 3) (tableOf c.entry st 8) (cEpoch c) (memoryK c) c.cls (keyQuery s c i)) c
    modCmd n (fun _ => { x with ran := true })
      (countDefaults (bagTable x).1 ((bagOuts s x).map fun o => o.2.1).sum
        (countNans c.cls (c.sheaf.getD 0) c.desc 1 (x.sels.map Sel.nan).sum s))

/-! ATTENTION (R182 to R188). -/

/-- Row p of head g among rows of a format (R183): its bytes and scales. -/
def kvRow (s : State) (kv f dim heads off soff p g : Nat) : Bytes × Bytes :=
  let rb := rowBytes f dim
  let sb := scaleBytes f dim
  (objBytes s kv (off + (p * heads + g) * rb) rb, if sb = 0 then [] else objBytes s kv (soff + (p * heads + g) * sb) sb)

/-- The partial of one query head over a shard's first n positions (R185). -/
def shardPartial (s : State) (hd x : Bytes) (n h scale : Nat) (q : Bytes) : Partial :=
  let dim := fld hd 4 2
  let g := h / max 1 (byteAt hd 1)
  let fk := fld hd 8 4
  let fv := fld hd 0x0C 4
  let kv := fld x 0x10 8
  let ks := (List.range n).map fun p => kvRow s kv fk dim (byteAt hd 0) (fld x 0x18 4) (fld x 0x20 4) p g
  let vs := (List.range n).map fun p =>
    let r := kvRow s kv fv dim (byteAt hd 0) (fld x 0x1C 4) (fld x 0x24 4) p g
    decodeRow fv dim r.1 r.2
  culmAttend dim (byteAt hd 2) fk q ks vs scale

/-- The shards that an ATTENTION reads (R188). -/
def shardsUsed (len : Nat) (shards : List Bytes) : List Bytes := shards.filter fun x => decide (fld x 4 4 < len)

/-- The attention of one query: FP32 outputs of every head (R187). -/
def attnQuery (s : State) (hd : Bytes) (shards : List Bytes) (len scale : Nat) (q : Bytes) : List (List Nat) :=
  let dim := fld hd 4 2
  let qb := dim * elemBits (byteAt hd 2) / 8
  (List.range (cacheHeads hd)).map fun h =>
    combine dim ((shardsUsed len shards).map fun x =>
      shardPartial s hd x (min (fld x 8 4) (len - fld x 4 4)) h scale (slice q (h * qb) qb))

/-- Whether a shard's object lies where its culm reads it (R170). -/
def shardPlaced (s : State) (x : Bytes) : Bool :=
  ((objOf s (fld x 0x10 8)).map fun o => inPc o (fld x 0 2)).getD false

/-- ATTENTION: every query's heads over the cache at the bound epoch; the second CONVERT stage rounds them. -/
def execAttention (n : Nat) (data : Bytes) (s : State) : Res := whileUp s <|
  onData n 0x34 data s fun c s =>
    let h := fld c.entry 8 8
    let e := cEpoch c
    let hd := tableRow s h headerIndex e 0 64
    let sh := cacheShards s h e
    let len := fld c.entry 0x24 4
    let qb := (attnSizes c.desc hd).1
    if !(shardsUsed len sh).all (shardPlaced s) then ranWith n (some (plain St.culmPlacement)) s
    else
      let lost := (attnRanges hd len sh).any fun r => objPoisoned s r.name r.lo (r.hi + 1 - r.lo)
      modCmd n (fun c => { c with
        ran := true, query := data, bad := if lost then List.range (fld c.entry 4 2) else []
        rows := (List.range (fld c.entry 4 2)).map fun i =>
          (attnQuery s hd sh len (fld c.entry 0x34 4) (slice data (i * qb) qb)).flatten.flatMap (toLe 4) }) s

/-! What leaves the terminal stage (R48, R57, R61). -/

/-- The rows of an EXPERT stage rounded into its output format: bytes and the conversions made (R44, R147). -/
def expertRow (s : State) (c : Cmd) (x : Sel) (row : Bytes) : Bytes × Bytes × List (Nat × Bool × Bool × Num) × List Num :=
  let t := expertTable c.desc c.entry
  let vs := (tokenOut s t (cEpoch c) x row).map v32
  let cv := convertRow (expertWord s c.desc c.entry) (xhModel (exHeader s t (cEpoch c))) none (fun _ => .nearest) vs
  (cv.1, cv.2.1, cv.2.2, vs)

/-- Whether an expert command's token meets lost weights or scales, or a read of its item did (R61, R148). -/
def tokenBad (s : State) (c : Cmd) (i : Nat) (x : Sel) : Bool :=
  c.bad.contains i || (c.opcode == 0x30 && x.runs.any fun r => expertPoisoned s (exDesc s (expertTable c.desc c.entry) r (cEpoch c)))

/-- The rounding of row h of an ATTENTION query by the second CONVERT stage (R76, R187); a query is an item, so its elements are
numbered from 0 for stochastic rounding. -/
def headRow (c : Cmd) (dim h : Nat) (x : Bytes) : Bytes × Bytes × List (Nat × Bool × Bool × Num) × List Num :=
  let st := shStage c.desc 1
  let md (i : Nat) : RMode := if byteAt st 0x2D = 1 then .random (stochBits c.tenant c.qp c.cid (h * dim + i)) else .nearest
  let vs := (unpack 32 dim x).map v32
  let cv := convertRow (convertWord st) dim none md vs
  (cv.1, cv.2.1, cv.2.2, vs)

/-- The head dimension of an ATTENTION command's cache. -/
def attnDim (s : State) (c : Cmd) : Nat := fld (tableRow s (fld c.entry 8 8) headerIndex (cEpoch c) 0 64) 4 2

/-- The rounded head rows of query i of an ATTENTION. -/
def queryRows (s : State) (c : Cmd) (i : Nat) : List (Bytes × Bytes × List (Nat × Bool × Bool × Num) × List Num) :=
  let dim := attnDim s c
  (chunks (4 * dim) (c.rows.getD i [])).zipIdx.map fun x => headRow c dim x.2 x.1

/-- Bytes in a 64-byte-aligned place. -/
def padded (b : Bytes) : Bytes := slice b 0 (roundUp b.length 64)

/-- What item i of a command leaves as result data (R102, R141, R147, R163, R167, R188). -/
def itemData (s : State) (c : Cmd) (i : Nat) : Bytes :=
  let x := c.sels.getD i {}
  let mark : Sel := { x with poison := tokenBad s c i x }
  if c.opcode = 0x30 then
    let r := expertRow s c x (c.rows.getD i [])
    padded (r.1 ++ r.2.1) ++ selRecord true (expertK c.desc c.entry) mark
  else if c.opcode = 0x31 then selRecord true (expertK c.desc c.entry) mark
  else if c.opcode = 0x34 then padded ((queryRows s c i).flatMap fun r => r.1 ++ r.2.1)
  else
    (bagOut s (bagTable c).1 (cEpoch c) (bagTable c).2 (c.bags.getD i [])).1 ++
      if c.opcode = 0x33 && bitOf (byteAt c.entry 1) 3 then selRecord false (memoryK c) mark else []

/-- Where a command's result data goes. -/
def outAddr (c : Cmd) : Nat := fld c.entry (if c.opcode = 0x33 then 0x30 else 0x28) 8

/-- The outcome of a command's items (R148, R163, R167, R188): their data in order, the lost ones marked. -/
def itemsResult (s : State) (c : Cmd) : Result :=
  let ds := (List.range c.items).map (itemData s c)
  let bad := (List.range c.items).filter fun i => tokenBad s c i (c.sels.getD i {})
  let lenTo (i : Nat) : Nat := ((ds.take i).map List.length).sum
  { status := if bad.isEmpty then St.success else St.poison, count := c.items
    detail := if c.opcode = 0x30 then (c.sels.filter Sel.fell).length
      else if c.opcode = 0x32 || c.opcode = 0x33 then min ((bagOuts s c).map fun o => o.2.1).sum 65535 else 0
    bytes := ds.flatten, addr := outAddr c, lost := bad.map fun i => (lenTo i, (ds.getD i []).length) }

/-- A command's outcome as its last item leaves the terminal stage: its own, or what its reads met (R61). -/
def finalResult (s : State) (c : Cmd) : Result :=
  if c.viol != 0 then plain c.viol
  else match c.result with
    | some r => r
    | none => if c.opcode = 0x20 then searchResult c else itemsResult s c

/-! ELEMENTWISE (R180, R181). -/

/-- The operands of an ELEMENTWISE entry: a, b where the operation has one, dst. -/
def ewOperands (e : Bytes) : List Nat :=
  [fld e 8 8] ++ (if byteAt e 1 ≤ 3 then [fld e 0x10 8] else []) ++ [fld e 0x18 8]

/-- Whether an object lies in a pseudo-channel whole, where a culm reaches it (R170). -/
def inChannel (s : State) (pc h : Nat) : Bool :=
  ((objOf s h).map fun o => inPc o pc).getD false

/-- The pseudo-channel of an ELEMENTWISE entry's objects: that of a. -/
def ewChannel (s : State) (e : Bytes) : Nat := ((objOf s (fld e 8 8)).map t1Code).getD 0 % 512

/-- Whether a tensor of n elements fits its object, and its scales their bran object. -/
def ewHolds (s : State) (n h : Nat) : Bool :=
  let f := objFormat s h
  decide (n ≤ elemsOf f (objSize s h)) && decide (scaleBytes f n ≤ if fwScale f = 0 then 0 else objSize s (ewBran s h))

/-- Checks of an ELEMENTWISE command's objects and their bran (R170, R171, R180, R181, R202). -/
def ewRefused (s : State) (t : Nat) (e : Bytes) : Option Result :=
  let hs := ewOperands e
  let n := ewCount s e
  let brans := (hs.filter fun h => fwScale (objFormat s h) != 0).map (ewBran s)
  firstFail [
    (hs.all fun h => !staleHandle s h, plain St.bufStale),
    (hs.all fun h => hTenant h == t, plain St.accessViolation),
    (!dataBound s (fld e 0x18 8), plain St.objectInTable),
    (hs.all fun h => ewFormatOk (objFormat s h), plain St.formatUnsupported),
    (hs.all (inChannel s (ewChannel s e)) && brans.all (inChannel s (ewChannel s e)), plain St.culmPlacement),
    (n % 32 == 0 && inRange n 32 (2 ^ 30) && hs.all (ewHolds s n), badField 0 0x20)]

/-- An ELEMENTWISE command forms its husk: one COMPUTED OBJECT_WRITE on dst. -/
def doElementwise (n op : Nat) (s : State) : Res :=
  match readyCmd s n 0x35 with
  | none => .next s
  | some c =>
    if byteAt c.entry 1 != op then .next s
    else match ewRefused s c.tenant c.entry with
      | some r => .next (finishCmd n r s)
      | none =>
        let dst := fld c.entry 0x18 8
        .next (formUpdate n c [{ kind := 3, flags := 2, target := dst, len := rowBytes (objFormat s dst) (ewCount s c.entry) }] s)

/-- ELEMENTWISE ADD. -/
def execElementwiseAdd (n : Nat) (s : State) : Res := whileUp s <| doElementwise n 2 s
/-- ELEMENTWISE MUL. -/
def execElementwiseMul (n : Nat) (s : State) : Res := whileUp s <| doElementwise n 3 s
/-- ELEMENTWISE ACT. -/
def execElementwiseAct (n : Nat) (s : State) : Res := whileUp s <| doElementwise n 4 s
/-- ELEMENTWISE CONVERT. -/
def execElementwiseConvert (n : Nat) (s : State) : Res := whileUp s <| doElementwise n 5 s

/-! BINDER (R225 to R228). -/

/-- A binder operation's own checks, then its effect; the order of operations is a token (R227). -/
def onBinder (n op : Nat) (s : State) (k : Cmd → Nat → Binder → State → State) : Res :=
  match readyCmd s n 0x40 with
  | none => .next s
  | some c =>
    if byteAt c.entry 1 != op then .next s
    else
      let b := fld c.entry 4 4
      .next (
        match tabGet s.eng.binders b with
        | none => modQp c.qp (fun p => { p with wait := false }) (failCmd n St.binderUnknown s)
        | some x =>
          if x.owner != c.tenant then modQp c.qp (fun p => { p with wait := false }) (failCmd n St.accessViolation s)
          else k c b x (token 0x0F 61 0 2 59 s))

/-- The completion of a binder operation carries the value after it. -/
def binderDone (n b : Nat) (s : State) : State :=
  finishCmd n { status := St.success, word := some (((tabGet s.eng.binders b).map Binder.value).getD 0) } s

/-- BINDER_ADD: saturating. -/
def execBinderAdd (n : Nat) (s : State) : Res := whileUp s <|
  onBinder n 0 s fun c b _ s => binderDone n b (binderAdd b (fld c.entry 8 8) s)

/-- BINDER_SET. -/
def execBinderSet (n : Nat) (s : State) : Res := whileUp s <|
  onBinder n 1 s fun c b _ s =>
    binderDone n b (checkWaits b (s.onEng fun e => { e with
      binders := tabMod e.binders b fun x => { x with value := fld c.entry 8 8 } }))

/-- BINDER_WAIT_GE: completes at once where the value is reached; else it waits, and its queue with it, until the value or
the timeout. -/
def execBinderWaitGe (n : Nat) (s : State) : Res := whileUp s <|
  onBinder n 2 s fun c b x s =>
    if fld c.entry 8 8 ≤ x.value || c.suppressed then modQp c.qp (fun p => { p with wait := false }) (binderDone n b s)
    else
      modQp c.qp (fun p => { p with
        wait := true
        waitGe := some {
          cid := c.cid, binder := b, target := fld c.entry 8 8,
          deadline := s.aon.uptime + 1000 * orDef (fld c.entry 0x10 4) 1000000 } }) (endCmd n s)

/-- BINDER READ. -/
def execBinderOpRead (n : Nat) (s : State) : Res := whileUp s <| onBinder n 3 s fun _ b _ s => binderDone n b s

/-! HUSK (R198, R199, R203). -/

/-- Checks of a husk descriptor's header (R198). Through a mailbox the submitter t names itself, or, as the system tenant, any tenant;
another is out of the field's range (log entry 108). -/
def huskHeaderChecks (zalpol : Bool) (t payload : Nat) (d : Bytes) : List Chk :=
  [(0, inRange (byteAt d 0) 1 64), (1, decide (byteAt d 1 < 2)), (2, if zalpol then decide (fld d 2 2 < 1024) && (t == 0 || fld d 2 2 == t) else zeroAt d 2 2),
   (4, if bitOf (byteAt d 1) 0 then decide (fld d 4 4 < 2 ^ 17) else zeroAt d 4 4), (8, zeroAt d 8 8),
   (0x10, fld d 0x10 4 == payload), (0x14, zeroAt d 0x14 4), (0x18, zeroAt d 0x18 8), (0x20, zeroAt d 0x20 8),
   (0x28, zeroAt d 0x28 2), (0x2A, zeroAt d 0x2A 1), (0x2B, zeroAt d 0x2B 1), (0x2C, zeroAt d 0x2C 4), (0x30, zeroAt d 0x30 16)]

/-- Checks of one action's fields (R199, R200). -/
def actionChecks (s : State) (payload : Nat) (a : Bytes) : List Chk :=
  let k := byteAt a 0
  let f := byteAt a 1
  let len := fld a 4 4
  let none_ := k == 2 || 4 < k
  let ix := k == 1 || k == 2 || k == 5 || (k == 4 && (tableEntryBytes s (fld a 8 8) false).isSome && hClass (fld a 8 8) == 3)
  [(0, inRange k 1 7), (1, if k = 1 || k = 2 then decide (f < 2) else if k = 4 then f % 4 == 0 && decide (f < 8) else f == 0),
   (2, ix || zeroAt a 2 2), (4, if none_ then len == 0 else if k = 3 then inRange len 1 1048576 else len != 0),
   (0x10, if none_ then zeroAt a 0x10 8 else fld a 0x10 8 % 64 == 0 && decide (fld a 0x10 8 + len ≤ payload)),
   (0x18, if k = 1 then decide (fld a 0x18 8 < 2 ^ 20) else k != 2 || zeroAt a 0x18 8)]

/-- An action of its 32 bytes and the payload. -/
def actionOf (a payload : Bytes) : Action :=
  { kind := byteAt a 0, flags := byteAt a 1, coll := fld a 2 2, len := fld a 4 4, target := fld a 8 8, src := fld a 0x10 8,
    arg := fld a 0x18 8, data := slice payload (fld a 0x10 8) (fld a 4 4) }

/-- What a submitted husk is refused for: the place of a field, or the index of an action beyond the submitter's rights
(R203). -/
inductive HuskBad where
  | field (area off : Nat)
  | action (i : Nat)
  deriving DecidableEq, Repr

/-- Whether an action lies within a tenant's rights, as far as they are known before it is resolved (R203). -/
def ownAction (s : State) (t : Nat) (a : Action) : Bool :=
  match a.kind with
  | 1 | 2 => t == 0 || ((collAt s a.coll s.eng.epoch).map coOwner).getD t == t
  | 3 => hTenant a.target == t
  | _ => (if a.target = 0 then t == 0 else hTenant a.target == t) &&
    ((entryNames s a.target (acIndex a) a.data).filter (· != 0)).all fun h => hTenant h == t

/-- A submitted husk checked: its actions, or why it is refused, the first action that no rule lets a tenant take first. -/
def parseHusk (s : State) (zalpol : Bool) (t : Nat) (d payload : Bytes) : Except HuskBad (List Action) :=
  match firstBad (huskHeaderChecks zalpol t payload.length d) with
  | some o => .error (.field 1 o)
  | none =>
    let as := (List.range (byteAt d 0)).map fun i => slice d (64 + 32 * i) 32
    match as.zipIdx.findSome? fun a => (firstBad (actionChecks s payload.length a.1)).map (64 + 32 * a.2 + ·) with
    | some o => .error (.field 1 o)
    | none =>
      let xs := as.map (actionOf · payload)
      match xs.findIdx? fun a => 5 ≤ a.kind with
      | some i => .error (.action ((xs.findIdx? fun a => 5 ≤ a.kind || !ownAction s (if zalpol then fld d 2 2 else t) a).getD i))
      | none =>
        match xs.findSome? fun a => if a.kind = 1 then (recordBad a.data).map (a.src + ·) else none with
        | some o => .error (.field 2 o)
        | none => .ok xs

/-- HUSK: checked, its payload copied into staging, its husk formed. -/
def execHusk (n : Nat) (desc payload : Bytes) (s : State) : Res := whileUp s <|
  match readyCmd s n 0x41 with
  | none => .next s
  | some c =>
    let d := slice desc 0 (fld c.entry 0x10 4)
    let pl := slice payload 0 (fld c.entry 0x14 4)
    let s := recordData c.qp c.cid (d ++ pl) false s
    if 64 + 32 * byteAt d 0 != fld c.entry 0x10 4 && inRange (byteAt d 0) 1 64 then .next (finishCmd n (badField 0 0x10) s)
    else match parseHusk s false c.tenant d pl with
      | .error (.field a o) => .next (finishCmd n (badField a o) s)
      | .error (.action i) => .next (finishCmd n { status := St.accessViolation, detail := i } s)
      | .ok as =>
        let b := if bitOf (byteAt d 1) 0 then some (fld d 4 4) else none
        match huskRefusal s c.tenant b with
        | some st => .next (failCmd n st s)
        | none =>
          match stagePayload c.tenant pl s with
          | none => .next (failCmd n St.insufficientCapacity s)
          | some (ix, s) =>
            .next (formHusk { tenant := c.tenant, actions := as, cmd := some n, staging := ix, binder := b.map (binderOf s) }
              (ranWith n none s))

end Sys2Proof.Machine
end

