-- ==== Sys2Proof/Machine/Sheaves.lean ====
section
/-! DEFINITION. Sheaves at run time (chapter 02): tiles and islands, credits, what a batch runs, the forming of batches. -/

namespace Sys2Proof.Machine
open Sys2Proof

/-! Tiles and islands. -/

/-- The cluster island of a logical tile. -/
def tileIsland (t : Nat) : Nat := 2 + t / 16
/-- The descriptor under which items run: that of their commands' admission, else the one in force. -/
def itemsDesc (s : State) (sh : Nat) (its : List Item) : Bytes :=
  match its.findSome? fun i => cmdOf s i.cmd with
  | some c => c.desc
  | none => (genSheaf (gen s) sh).getD []

/-- Batches on a stage tile: in its input slots or running. -/
def stageBatches (r : StageRt) : List Batch := r.inputs.map Prod.snd ++ r.running.toList
/-- The stage tiles of a sheaf that hold anything. -/
def sheafStages (s : State) (sh : Nat) : List (Nat × StageRt) := s.shv.stages.filter fun p => p.1 / 512 == sh
/-- Batches of a sheaf in flight: (stage, batch). -/
def inFlight (s : State) (sh : Nat) : List (Nat × Batch) :=
  ((sheafStages s sh).flatMap fun p => (stageBatches p.2).map fun b => (p.1 / 32 % 16, b)) ++
    ((s.shv.waitMerge.filter fun w => w.1 == sh).map fun w => w.2)

/-- The lanes of a stage on live tiles (R377). -/
def liveLanes (s : State) (e : Bytes) : List Nat :=
  (List.range (sgWidth e)).filter fun k => !s.shv.absent.contains (sgBase e + k)
/-- The lane a batch is dealt to: its live tiles in turn (R48, R377). -/
def dealLane (s : State) (e : Bytes) (seq : Nat) : Nat :=
  (liveLanes s e).getD (seq % max 1 (liveLanes s e).length) 0
/-- Whether a stage works as a SPLIT stage now: it has a live tile left. -/
def splitOn (s : State) (e : Bytes) : Bool := sgSplit e && !(liveLanes s e).isEmpty
/-- The lanes of a stage that take a batch: all of a SPLIT stage's, else the one it is dealt to (R48). -/
def lanesOf (s : State) (e : Bytes) (seq : Nat) : List Nat := if splitOn s e then liveLanes s e else [dealLane s e seq]

/-- The lane that carries lane j's slice of a SPLIT stage: itself, or, of a dead tile, the stage's next live one (R377). -/
def carrier (s : State) (e : Bytes) (j : Nat) : Nat :=
  (((liveLanes s e).find? fun k => decide (j ≤ k)) <|> (liveLanes s e).head?).getD j
/-- The slices that a lane of a stage works on (R48, R377). -/
def slicesOf (s : State) (e : Bytes) (k : Nat) : List Nat :=
  if sgSplit e then (List.range (sgWidth e)).filter fun j => carrier s e j == k else [k]

/-- The tiles of a sheaf. -/
def sheafTiles (d : Bytes) : List Nat := (shEntries d).flatMap sgTiles

/-- Run-time state of a sheaf. -/
def sheafRt (s : State) (sh : Nat) : SheafRt := tabGetD s.shv.rts sh {}
/-- Changes a sheaf's run-time state. -/
def modRt (sh : Nat) (f : SheafRt → SheafRt) (s : State) : State := s.onShv fun v => { v with rts := tabSet v.rts sh (f (tabGetD v.rts sh {})) }

/-! Credits (R53 to R55). -/

/-- The key of an edge. -/
def edKey (sh p q : Nat) : Nat := (sh * 16 + p) * 16 + q

/-- The sequence number of a batch by its place in the sheaf's order: that of a batch in flight, else the one it will have (R47). -/
def seqOf (s : State) (sh num : Nat) : Nat :=
  match (inFlight s sh).find? fun p => p.2.num == num with
  | some p => p.2.seq
  | none => num - (sheafRt s sh).base

/-- A successor grants credits in sequence order while the lane of the next batch has a free slot. -/
def grantGo (s : State) (sh : Nat) (e : Bytes) : Nat → Edge → Edge
  | 0, x => x
  | n + 1, x =>
    let lane (b : Nat) : Nat := if splitOn s e then 0 else dealLane s e (seqOf s sh b)
    if (x.out.filter fun b => lane b == lane x.granted).length < sgSlots e then
      grantGo s sh e n { x with out := x.out ++ [x.granted], held := x.held ++ [x.granted], granted := x.granted + 1 }
    else x

/-- As many grants as a stage's slots allow. -/
def grantEdge (s : State) (sh : Nat) (e : Bytes) (x : Edge) : Edge := grantGo s sh e (sgSlots e * max 1 (sgWidth e)) x

/-- The batches that have still to cross an edge out of stage p: in flight at it or before it. -/
def dueAt (s : State) (sh : Nat) (d : Bytes) (p : Nat) : List Nat :=
  ((inFlight s sh).filter fun x => (upTo d p).contains x.1).map fun x => x.2.num

/-- An edge not used yet, or lost with its islands' power: the slots that batches hold now, and credits granted from the first batch
that has still to cross it (R54). -/
def newEdge (s : State) (sh : Nat) (d : Bytes) (p q : Nat) : Edge :=
  let slots := nub (((sheafStages s sh).filter fun x => x.1 / 32 % 16 == q).flatMap fun x =>
    (x.2.inputs.filter fun i => i.1 == p).map fun i => i.2.num)
  grantEdge s sh (shStage d q) { out := slots, granted := (dueAt s sh d p).foldl min (sheafRt s sh).next }

/-- An edge: one not used yet has its first credits granted. -/
def edgeOf (s : State) (sh : Nat) (d : Bytes) (p q : Nat) : Edge := (tabGet s.shv.edges (edKey sh p q)).getD (newEdge s sh d p q)

/-- Changes an edge. -/
def modEdge (sh : Nat) (d : Bytes) (p q : Nat) (f : Edge → Edge) (s : State) : State :=
  s.onShv fun v => { v with edges := tabSet v.edges (edKey sh p q) (f (edgeOf s sh d p q)) }

/-- Whether every transfer from a tile to a stage's tiles can be made now (R46, R55). -/
def edgeUp (s : State) (from_ : Nat) (e : Bytes) : Bool := (sgTiles e).all fun t => pathUp s (tileIsland from_) (tileIsland t)

/-- Whether a tile's output can be sent to every successor of its stage. -/
def outUp (s : State) (d : Bytes) (i from_ : Nat) : Bool := (sgSuccs (shStage d i)).all fun q => edgeUp s from_ (shStage d q)

/-- Whether a tile of a stage holds the credit for a batch from every successor, the edges ready (R53, R55). -/
def holdsCredit (s : State) (sh : Nat) (d : Bytes) (i from_ num : Nat) : Bool :=
  outUp s d i from_ && (sgSuccs (shStage d i)).all fun q => (edgeOf s sh d i q).held.contains num

/-- A batch's credits are spent. -/
def spendCredit (sh : Nat) (d : Bytes) (i num : Nat) (s : State) : State :=
  (sgSuccs (shStage d i)).foldl (fun s q =>
    modEdge sh d i q (fun x => { x with held := x.held.filter (· != num) }) s) s

/-- A sheaf's edges as a new numbering begins at a batch: credits granted ahead for it and later ones are granted again, since they are
dealt anew (R47, R48); edges of a sheaf with no batch in flight begin anew. -/
def restartEdges (sh base : Nat) (s : State) : State :=
  let idle := (inFlight s sh).isEmpty
  let keep (l : List Nat) : List Nat := l.filter (· < base)
  s.onShv fun v => { v with edges := (v.edges.filter fun p => p.1 / 256 != sh || !idle).map fun p =>
    if p.1 / 256 != sh then p
    else
      let x := { p.2 with out := keep p.2.out, held := keep p.2.held, granted := min p.2.granted base }
      (p.1, grantEdge s sh (shStage ((genSheaf (gen s) sh).getD []) (p.1 % 16)) x) }

/-! Expert stages: what a batch runs (R151 to R155). -/

/-- An expert as a batch runs it: index, version, table; the versions of one index are experts of their own (R151). -/
abbrev ExKey := Nat × Nat × Nat

/-- The expert table of a command on an EXPERT stage. -/
def cmdTable (c : Cmd) : Nat := expertTable c.desc c.entry

/-- The version of a table's entry that a reader at an epoch sees: the epoch that set it, 0 for the object's own bytes (R219). -/
def verTag (s : State) (t i e : Nat) : Nat := ((versionAt s t i e).map TVer.tag).getD 0

/-- An expert index as a command sees it. -/
def exKey (s : State) (c : Cmd) (x : Nat) : ExKey := (x, verTag s (cmdTable c) x (cEpoch c), cmdTable c)
/-- The descriptor of an expert version. -/
def keyDesc (s : State) (k : ExKey) : Bytes := exDesc s k.2.2 k.1 k.2.1
/-- The weight and bran objects of an expert version. -/
def keyObjs (s : State) (k : ExKey) : List Nat := [xdWeights (keyDesc s k), xdBran (keyDesc s k)].filter (· != 0)

/-- Ascending index, then epoch of the version, then table (R151). -/
def keyLt (a b : ExKey) : Bool :=
  decide (a.1 < b.1) || a.1 == b.1 && (decide (a.2.1 < b.2.1) || a.2.1 == b.2.1 && decide (a.2.2 < b.2.2))
/-- A key put into its place; one that is there stays alone. -/
def keyPut (k : ExKey) : List ExKey → List ExKey
  | [] => [k]
  | x :: xs => if k = x then x :: xs else if keyLt k x then k :: x :: xs else x :: keyPut k xs

/-- The selections of a batch's items: (item, command, selection). -/
def batchSels (s : State) (b : Batch) : List (Item × Cmd × Sel) :=
  b.items.filterMap fun i => (cmdOf s i.cmd).bind fun c => (c.sels[i.idx]?).map fun x => (i, c, x)

/-- The experts a batch runs, ascending (R151). -/
def batchKeys (s : State) (b : Batch) : List ExKey :=
  (batchSels s b).foldl (fun l p => p.2.2.runs.foldl (fun l x => keyPut (exKey s p.2.1 x) l) l) []

/-- The items of a batch that run an expert version: (command number, index in the command). -/
def keyUsers (s : State) (b : Batch) (k : ExKey) : List (Nat × Nat) :=
  ((batchSels s b).filter fun p => p.2.2.runs.any fun x => exKey s p.2.1 x == k).map fun p => (p.1.cmd, p.1.idx)

/-- Whether an expert version is present (R155). -/
def keyPresent (s : State) (k : ExKey) : Bool := expertPresent s k.2.2 (keyDesc s k)

/-- A batch of a sheaf as the pins on staged copies name it. -/
def pinKey (sh num : Nat) : Nat := sh + 256 * num

/-- Changes a staging pool. -/
def modPool (t : Nat) (f : StagePool → StagePool) (s : State) : State :=
  s.onShv fun v => { v with pools := tabSet v.pools t (f (tabGetD v.pools t {})) }

/-- The epoch at which the items that run an expert version read. -/
def keyEpoch (s : State) (us : List (Nat × Nat)) : Nat := ((us.findSome? fun u => cmdOf s u.1).map cEpoch).getD s.eng.epoch

/-- The staging requests of a batch as the awn of an EXPERT stage starts on it (R58, R154): one for each expert version that is not
read directly; a copy that is there already is pinned. -/
def requestStaging (sh : Nat) (b : Batch) (s : State) : State :=
  (batchKeys s b).foldl (fun s k =>
    if expertDirect s (keyDesc s k) then s
    else
      let hs := keyObjs s k
      modPool k.2.2 (fun p =>
        if hs.all fun h => p.copies.any fun c => c.1 == h then
          { p with
            copies := p.copies.map fun c => if hs.contains c.1 then (c.1, c.2.1, c.2.2.1, now s) else c
            pins := p.pins ++ (hs.filter fun h => !p.pins.contains (h, pinKey sh b.num)).map fun h => (h, pinKey sh b.num) }
        else { p with pending := p.pending ++ [(sh, b.num, k.1, k.2.1)] }) s) s

/-! Batches (R47, R48). -/

/-- A batch enters the input slots of a stage from a predecessor; 255 is the head's own. -/
def enterStage (sh : Nat) (d : Bytes) (q src : Nat) (b : Batch) (s : State) : State :=
  let e := shStage d q
  let s := (lanesOf s e b.seq).foldl (fun s k =>
    modStage (stKey sh q k) (fun r => { r with inputs := r.inputs ++ [(src, b)] }) s) s
  if sgRole e = 6 then requestStaging sh b s else s

/-- A batch's output goes to every successor. -/
def deliverOn (sh : Nat) (d : Bytes) (i : Nat) (b : Batch) (s : State) : State :=
  (sgSuccs (shStage d i)).foldl (fun s q => enterStage sh d q i b s) s

/-- The head stage closes its open batch (R47): it takes the next sequence number, from 0 where a generation has taken effect since the
last, and its token (R398). -/
def closeBatch (sh : Nat) (s : State) : State :=
  let r := sheafRt s sh
  if r.open_.isEmpty then s
  else
    let d := itemsDesc s sh r.open_
    let new := r.ver != (gen s).number
    let base := if new then r.next else r.base
    let b : Batch := { num := r.next, seq := r.next - base, items := r.open_ }
    let s := modRt sh (fun r => { r with open_ := [], since := none, next := r.next + 1, base := base, ver := (gen s).number }) s
    let s := if new then restartEdges sh base s else s
    enterStage sh d 0 255 b (token 0x04 (tileIsland (sgBase (shStage d 0))) sh 2 r.open_.length s)

/-- What an item takes in the slots of stage i of its sheaf (R139). -/
def slotSize (s : State) (i : Nat) (it : Item) : Nat × Nat :=
  match cmdOf s it.cmd with
  | some c => itemSizes s c.desc c.entry (cEpoch c) i (c.bags.getD it.idx [])
  | none => (0, 0)

/-- Whether an item may join the open batch: the same descriptor, room in a slot of every stage (R139). -/
def mayJoin (s : State) (c : Cmd) (it : Item) (its : List Item) : Bool :=
  (its.filterMap fun i => cmdOf s i.cmd).all (fun x => x.desc == c.desc) &&
    (List.range (shStages c.desc)).all fun i => slotsHold (shStage c.desc i) ((its ++ [it]).map (slotSize s i))

/-- One item joins the open batch, which closes before it where it does not fit and after it where it is full. -/
def joinItem (n sh : Nat) (c : Cmd) (s : State) (i : Nat) : State :=
  let it : Item := { cmd := n, idx := i }
  let s := if (sheafRt s sh).open_.isEmpty || mayJoin s c it (sheafRt s sh).open_ then s else closeBatch sh s
  let s := modRt sh (fun r => { r with open_ := r.open_ ++ [it], since := some (r.since.getD (now s)) }) s
  if shBatchMax c.desc ≤ (sheafRt s sh).open_.length then closeBatch sh s else s

/-- Commands on a sheaf whose items have not all left it. -/
def cmdsOn (s : State) (sh : Nat) : List (Nat × Cmd) := s.hif.cmds.filter fun p => p.2.sheaf == some sh && p.2.items != 0

/-- Whether a command's items are ready at the head stage: its host data is there (R47). -/
def headReady (c : Cmd) : Bool := c.ran && !c.arrived && c.items != 0

/-- Whether work admitted under another descriptor of a sheaf is still to be done: items of a new version wait for it at the head
(R51; log entry 101). -/
def oldInside (s : State) (n sh : Nat) (c : Cmd) : Bool := (cmdsOn s sh).any fun p => p.2.desc != c.desc && decide (p.1 < n)

/-- Whether a stage of a sheaf has no live tile left (R377). -/
def noLiveStage (s : State) (d : Bytes) : Bool := (shEntries d).any fun e => (liveLanes s e).isEmpty

/-- A command ends by itself, outside any batch: to its queue, or to the coordinator that asked (R348). -/
def endOutside (n : Nat) (c : Cmd) (r : Result) (s : State) : State :=
  match c.peer with
  | some (node, msg) =>
    endCmd n (if c.suppressed then s else sendMsg {
                        dst := node, vc := 2, type := 0x11, id := msg, tenant := c.tenant, epoch := cEpoch c,
                        body := toLe 2 r.status ++ zeros 94 } s)
  | none => finishCmd n r s

/-- HEAD_STAGE_ITEM_ARRIVAL (R47): the items of a command reach the head stage without a break and join batches; without a window the
batch stays open only while a further command is ready there in the same cycle. A sheaf with a stage that has no live tile completes
them with INSUFFICIENT_CAPACITY (R377). -/
def execHeadStageItemArrival (n : Nat) (s : State) : Res := whileUp s <|
  match cmdOf s n with
  | none => .next s
  | some c =>
    match c.sheaf with
    | none => .next s
    | some sh =>
      let head := sgTiles (shStage c.desc 0)
      if !headReady c || oldInside s n sh c || !head.all (fun t => islandUp s (tileIsland t)) then .next s
      else if noLiveStage s c.desc then .next (endOutside n c (plain St.insufficientCapacity) s)
      else
        let s := (List.range c.items).foldl (joinItem n sh c) (modCmd n (fun c => { c with arrived := true }) s)
        let more := (cmdsOn s sh).any fun p => headReady p.2 && p.2.desc == c.desc
        .next (if shWindow c.desc = 0 && !more then closeBatch sh s else s)

/-- BATCH_WINDOW_EXPIRY (R47). -/
def execBatchWindowExpiry (sheaf : Nat) (s : State) : Res := whileUp s <|
  let r := sheafRt s sheaf
  match r.since with
  | none => .next s
  | some t => .next (if t + shWindow (itemsDesc s sheaf r.open_) ≤ now s then closeBatch sheaf s else s)

end Sys2Proof.Machine
end

