-- ==== Sys2Proof/Machine/Awns.lean ====
section
/-! DEFINITION. Awns (R58 to R62): what a stage's awn has to read for a batch, the reads it issues, the directory, the operations it
sends to culms. -/

namespace Sys2Proof.Machine
open Sys2Proof

/-! Culms as awns see them (R168 to R175). -/

/-- The base-die island of a logical culm (R169). -/
def culmIsland (k : Nat) : Nat := 39 + k % 8
/-- A logical culm's run-time state. -/
def culmOf (s : State) (k : Nat) : Culm := tabGetD s.stk.culms k { phys := k / 8 }
/-- Changes a logical culm's state. -/
def modCulm (k : Nat) (f : Culm → Culm) (s : State) : State := s.onStk fun m => { m with culms := tabSet m.culms k (f (culmOf s k)) }
/-- Whether an operation may be sent to a culm's queue: its island up, a queue credit held (R175). -/
def culmRoom (s : State) (k : Nat) : Bool := islandUp s (culmIsland k) && decide ((culmOf s k).sent < (culmOf s k).credit + 16)
/-- An operation enters a culm's queue (R175). -/
def pushOp (k : Nat) (o : COp) (s : State) : State := modCulm k (fun u => { u with queue := u.queue ++ [o], sent := u.sent + 1 }) s

/-- Where a channel-local object begins in its pseudo-channel (R174; log entry 73). -/
def culmBase (h : Nat) : Nat := 64 * (Config.channelBase h % 2 ^ 24)
/-- The header of an operation (R174). -/
def opHeader (op culm tenant tag : Nat) : Bytes := toLe 1 op ++ [0] ++ toLe 2 culm ++ toLe 2 tenant ++ [0, 0] ++ toLe 8 tag

/-- A SCAN operation's body: list header, parameters, epoch, list, rank, tile, query sketch (R176). -/
def scanOp (d : Bytes) (c : Cmd) (sketch : Bytes) (r : Nat × Nat × Bytes) : Bytes :=
  let how := scanHow c r
  toLe 4 (culmBase (deList r.2.2)) ++ toLe 1 (byteAt d 5) ++ toLe 1 how.1 ++ toLe 2 how.2.1 ++ toLe 8 (cEpoch c) ++ toLe 4 r.2.1 ++
    toLe 2 r.1 ++ toLe 2 how.2.2 ++ zeros 24 ++ padded sketch

/-- An ATTEND operation's body for query i over a shard (R183, R184, R188). -/
def attendOp (s : State) (c : Cmd) (x : Bytes) (i : Nat) : Bytes :=
  let hd := tableRow s (fld c.entry 8 8) headerIndex (cEpoch c) 0 64
  let len := fld c.entry 0x24 4
  let base := culmBase (fld x 0x10 8)
  let sc (f at_ : Nat) : Bytes := toLe 4 (if fwScale f = 0 then 0 else base + fld x at_ 4)
  let qb := (attnSizes c.desc hd).1
  let rows := cacheHeads hd * fld hd 4 2 * elemBits (byteAt hd 2) / 8
  toLe 4 (base + fld x 0x18 4) ++ toLe 4 (base + fld x 0x1C 4) ++ sc (fld hd 8 4) 0x20 ++ sc (fld hd 0x0C 4) 0x24 ++
    slice hd 8 8 ++ toLe 4 (min (fld x 8 4) (len - fld x 4 4)) ++ slice x 8 4 ++ slice c.entry 0x34 4 ++ slice hd 4 2 ++ slice hd 0 2 ++
    slice hd 2 1 ++ zeros 7 ++ slice c.query (i * qb) rows

/-- Operation i of an ELEMENTWISE command, of at most 2^20 elements (R180, R181). -/
def ewOp (s : State) (e : Bytes) (i : Nat) : Bytes :=
  let n := ewCount s e
  let at_ := i * 2 ^ 20
  let off (h : Nat) : Bytes := toLe 4 (if h = 0 then 0 else culmBase h + rowBytes (objFormat s h) at_)
  let soff (h : Nat) : Bytes := toLe 4 (if ewBran s h = 0 then 0 else culmBase (ewBran s h) + scaleBytes (objFormat s h) at_)
  let (a, b, d) := (fld e 8 8, fld e 0x10 8, fld e 0x18 8)
  off a ++ off b ++ off d ++ toLe 4 (min (2 ^ 20) (n - at_)) ++ toLe 4 (objFormat s a) ++ toLe 4 (objFormat s b) ++ toLe 4 (objFormat s d) ++
    soff a ++ soff b ++ soff d ++ toLe 1 (byteAt e 4) ++ zeros 7

/-- The objects of an ELEMENTWISE command's operations: a, b, dst and the bran of each. -/
def ewObjs (s : State) (e : Bytes) : List Nat :=
  let hs := [fld e 8 8, fld e 0x10 8, fld e 0x18 8]
  hs ++ hs.map (ewBran s)

/-! Streams (R39, R58). -/

/-- The items of a batch with their commands. -/
def batchCmds (s : State) (b : Batch) : List (Item × Cmd) := b.items.filterMap fun i => (cmdOf s i.cmd).map fun c => (i, c)

/-- An item as a read names it. -/
def userOf (i : Item) : Nat × Nat := (i.cmd, i.idx)

/-- A stretch put among others: one that is there already serves its items too, so that a batch reads nothing twice (R164). -/
def segPut (g : Seg) : List Seg → List Seg
  | [] => [g]
  | x :: xs =>
    if { x with users := [] } = { g with users := [] } then { x with users := x.users ++ g.users.filter fun u => !x.users.contains u } :: xs
    else x :: segPut g xs

/-- Bytes of data, and of scales, of one scale block of rows of n elements; of a whole row where rows do not divide into blocks (R83). -/
def branUnits (f n rb sb : Nat) : Nat × Nat :=
  let k := blockLen (fwBlock f) n
  if k = 0 || n % k != 0 then (max 1 rb, sb) else (max 1 (rb / (n / k)), sb / (n / k))

/-- A stretch of rows lo to hi of rb bytes, from a start in an object, with their scales in its bran object. -/
def rowsSeg (s : State) (u : Nat × Nat) (h start f n rb lo hi ver : Nat) : Seg :=
  let sb := scaleBytes f n
  let z := branUnits f n rb sb
  { users := [u], handle := h, base := start + lo * rb, off := start + lo * rb, stop := start + hi * rb, ver := ver
    bran := if sb = 0 then 0 else branOf s h, branOff := lo * sb, unit := z.1, branUnit := z.2 }

/-- A stretch without scales. -/
def plainSeg (u : Nat × Nat) (h lo hi ver : Nat) : Seg := { users := [u], handle := h, base := lo, off := lo, stop := hi, ver := ver }

/-- The newest version of any row of a table that a reader at an epoch sees (R26). -/
def tableTag (s : State) (h e : Nat) : Nat := ((s.idx.vers.find? fun v => v.table == h && decide (v.tag ≤ e)).map TVer.tag).getD 0

/-- The stretches of a table that a CENTROID stage's lane scores: its rows, and their metadata in 2:4 form (R37, R39, R48). -/
def scoredSegs (s : State) (u : Nat × Nat) (st : Bytes) (lane h f n count e : Nat) : List Seg :=
  match laneRows st lane count with
  | [] => []
  | lo :: more =>
    let hi := lo + 1 + more.length
    let o := swapAt s h e
    let rb := if sgSparse st then keptBytes f n else rowBytes f n
    let mb := metaBytes n
    let v := tableTag s h e
    rowsSeg s u o 0 f n rb lo hi v ::
      if sgSparse st then
        let m := objSize s o / (rb + mb) * rb
        [plainSeg u o (m + lo * mb) (m + hi * mb) v]
      else []

/-- What a tile reads to scan a list in tile mode: its header, the bitmaps and low halves of the positions below its length, and the 64-byte
blocks of its second pass (R92, R93, R177). -/
def listSegs (u : Nat × Nat) (h w n : Nat) (p2 : List Nat) : List Seg :=
  let sz := segmentSize w
  let half := 64 * w
  let seg (k : Nat) : Seg :=
    let o := 1664 + k * sz
    plainSeg u h o (o + 128 + ceilDiv (min 1024 (n - 1024 * k) * w) 16) 0
  let second (p : Nat) : List Nat :=
    let o := 1664 + p / 1024 * sz + 128 + half
    let q := p % 1024
    [(o + q * w / 16) / 64, (o + (q * w + w - 1) / 16) / 64, (o + half + 8 * q) / 64, (o + half + 8192 + 8 * q) / 64]
  plainSeg u h 0 1664 0 :: (List.range (ceilDiv n 1024)).map seg ++ (sortNat (p2.flatMap second)).map fun b => plainSeg u h (64 * b) (64 * b + 64) 0

/-- What the awn of a SCAN stage's lane reads for a search: the directory entries of its lists, and each list, or the operation to the culm
that holds it (R39, R48, R192). -/
def scanSegs (s : State) (i lane : Nat) (it : Item) (c : Cmd) : List Seg :=
  let st := shStage c.desc i
  match collAt s (fld c.entry 4 2) (cEpoch c) with
  | none => []
  | some d =>
    let u := userOf it
    let (sk, _, _) := queryLayout s d
    let q := slice c.query sk (coWidth d / 8)
    let mine (r : Nat × Nat × Bytes) : Bool := scanIndex c.desc r.2.2 == i && (!sgSplit st || (slicesOf s st lane).contains (r.1 % max 1 (sgWidth st)))
    ((localLists c.probe).filter mine).flatMap fun r =>
      let h := deList r.2.2
      let l := listOf s h (fld c.entry 4 2) r.2.1
      let dir := plainSeg u (coDirectory d) (r.2.1 / 4 * 64) (r.2.1 / 4 * 64 + 64) (verTag s (coDirectory d) r.2.1 (cEpoch c))
      dir :: if sgCulm st && deLoc r.2.2 == 1 then
          [{ users := [u], handle := h, culm := some (deWhere r.2.2 % 512), objs := [h]
             op := 1 :: zeros 15 ++ scanOp d c q r }]
        else
          let how := scanHow c r
          listSegs u h (coWidth d) (lengthAt l (cEpoch c)) (culmScan l (coWidth d) how.1 how.2.1 (cEpoch c) (leNat q) {}).2.2.2

/-- The exact vectors of a search's candidates (R39). -/
def exactSegs (s : State) (it : Item) (c : Cmd) : List Seg :=
  match collAt s (fld c.entry 4 2) (cEpoch c) with
  | none => []
  | some d =>
    let n := rowBytes (coFormat d) (coDims d)
    c.cand.map fun h =>
      plainSeg (userOf it) (listOf s (deList (dirEntry s d h.list (cEpoch c))) (fld c.entry 4 2) h.list).exactH (h.pos * n) (h.pos * n + n) 0

/-- A stored row of an embedding table (R159). -/
def storedSeg (s : State) (u : Nat × Nat) (t e j : Nat) : Seg :=
  let h := emHeader s t e
  rowsSeg s u (swapAt s t e) 64 (mhFormat h) (mhElems h) (rowBytes (mhFormat h) (mhElems h)) j (j + 1) (verTag s t j e)

/-- The rows an index of an embedding table reads: the default row, both components of a composed row, or its row (R160, R161). -/
def indexSegs (s : State) (u : Nat × Nat) (t e i : Nat) : List Seg :=
  let h := emHeader s t e
  if emInvalid h i then
    (if mhDefault h = 0 then []
     else [plainSeg u (mhDefault h) 0 (rowBytes (mhFormat h) (mhElems h) + scaleBytes (mhFormat h) (mhElems h)) 0])
  else if mhKind h = 2 then let p := emParts s h e i; [storedSeg s u p.1.1 e p.1.2, storedSeg s u p.2.1 e p.2.2]
  else [storedSeg s u t e (emRow h i)]

/-- The weights and bran of an expert version for the items of a batch that run it: read directly, or from its staged copy (R144, R153). -/
def expertSegs (s : State) (users : List (Nat × Nat)) (k : ExKey) : List Seg :=
  let d := keyDesc s k
  let hd := exHeader s k.2.2 (keyEpoch s users)
  let direct := expertDirect s d
  let (h, br, ver) := if direct then (xdWeights d, xdBran d, 0) else (xhStaging hd, xhStaging hd, xdWeights d)
  let n := xhModel hd
  (wShapes d n).zipIdx.flatMap fun m =>
    let (rows, depth) := m.1
    let (wo, bo) := wStart d n m.2
    let rb := wRow d depth
    let sb := scaleBytes (xdFormat d) depth
    let z := branUnits (xdFormat d) depth rb sb
    let g : Seg := { users := users, handle := h, base := wo, off := wo, stop := wo + rows * rb, ver := ver, expert := some k
                     bran := if sb = 0 then 0 else br, branOff := bo, unit := z.1, branUnit := z.2 }
    let mo := wo + rows * rb
    g :: if xdSparse d then [{ g with base := mo, off := mo, stop := mo + rows * wMeta d depth, bran := 0 }] else []

/-- The operations of an attention query: one for each shard it reads (R188). -/
def attendSegs (s : State) (it : Item) (c : Cmd) : List Seg :=
  (shardsUsed (fld c.entry 0x24 4) (cacheShards s (fld c.entry 8 8) (cEpoch c))).map fun x =>
    { users := [userOf it], handle := fld x 0x10 8, culm := some (fld x 0 2 % 512), objs := [fld x 0x10 8]
      op := 6 :: zeros 15 ++ attendOp s c x it.idx }

/-- What the awn of a stage's lane reads for one item (R39); an EXPERT stage's reads come expert by expert. -/
def itemSegs (s : State) (i lane : Nat) (it : Item) (c : Cmd) : List Seg :=
  let st := shStage c.desc i
  let u := userOf it
  let e := cEpoch c
  let scored (h f n count : Nat) : List Seg := (slicesOf s st lane).flatMap fun k => scoredSegs s u st k h f n count e
  match sgRole st with
  | 1 =>
    if c.opcode = 0x33 then
      let h := tableOf c.entry st 8
      scored h (keyWords s st h).2 (fld st 0x2C 2) (fld st 0x30 4)
    else if c.peer.isSome then []
    else match collAt s (fld c.entry 4 2) e with
      | some d => scored (coCentroids d) (coarseWord s d) (coCoarseDims d) (coCount d)
      | none => []
  | 2 => scanSegs s i lane it c
  | 4 => exactSegs s it c
  | 5 => if c.opcode = 0x33 || i = 0 then (c.bags.getD it.idx []).flatMap fun p => indexSegs s u (bagTable c).1 e p.1 else []
  | 7 => if c.opcode = 0x34 && byteAt st 0x2C = 1 then attendSegs s it c else []
  | _ => []

/-- What the awn of a stage's lane reads for a batch, each stretch once. -/
def streamOf (s : State) (i lane : Nat) (b : Batch) : List Seg :=
  ((batchCmds s b).filter fun p => p.2.result.isNone).foldl (fun l p => (itemSegs s i lane p.1 p.2).foldl (fun l g => segPut g l) l) []

/-- What is left to read for a batch at a stage tile: of a stream not begun, all of it. -/
def streamAt (s : State) (key i lane : Nat) (b : Batch) : Stream :=
  ((stageOf s key).streams.find? fun x => x.num == b.num).getD { num := b.num, left := streamOf s i lane b }

/-- A stage tile's stream of a batch replaced. -/
def putStream (key : Nat) (x : Stream) (s : State) : State :=
  modStage key (fun r => { r with streams := r.streams.filter (fun y => y.num != x.num) ++ [x] }) s

/-- The expert versions of a batch that its awn has still to take up. -/
def keysLeft (s : State) (key : Nat) (x : Stream) (b : Batch) : List ExKey :=
  (batchKeys s b).filter fun k => !x.got.contains k && !(stageOf s key).ranEx.contains k

/-- Whether a stage tile has something left to read for a batch. -/
def readsLeft (s : State) (sh i lane : Nat) (b : Batch) : Bool :=
  let key := stKey sh i lane
  let x := streamAt s key i lane b
  !x.left.isEmpty || (sgRole (shStage (itemsDesc s sh b.items) i) == 6 && !(keysLeft s key x b).isEmpty)

/-- The batches whose streams a stage tile's awn knows: those in its input slots or running, and, for a GATHER command, those on their way
to it (R58). -/
def knownBatches (s : State) (sh i lane : Nat) : List Batch :=
  let early := ((inFlight s sh).map Prod.snd).filter fun b =>
    sgRole (shStage (itemsDesc s sh b.items) i) == 5 && (lanesOf s (shStage (itemsDesc s sh b.items) i) b.seq).contains lane &&
      (batchCmds s b).all fun p => p.2.opcode == 0x32
  stageBatches (stageOf s (stKey sh i lane)) ++
    early.filter fun b => (inFlight s sh).any fun p => p.2.num == b.num && p.1 != i && (upTo (itemsDesc s sh b.items) i).contains p.1

/-- The earlier of two batches. -/
def earlierOf (m : Option Batch) (b : Batch) : Option Batch :=
  match m with
  | none => some b
  | some x => if b.num < x.num then some b else some x

/-- The batch that a stage tile's awn reads for next: the earliest with something left to read, within the run-ahead of the batch the stage
works on (R59). -/
def awnBatch (s : State) (sh i lane : Nat) : Option Batch :=
  let bs := knownBatches s sh i lane
  let r := stageOf s (stKey sh i lane)
  match (r.running <|> bs.foldl earlierOf none).map Batch.num with
  | none => none
  | some work =>
    (bs.filter fun b => decide (b.num ≤ work + sgAhead (shStage (itemsDesc s sh b.items) i)) && readsLeft s sh i lane b).foldl earlierOf none

/-! Issuing (R59 to R62). -/

/-- What keeps an item from a stretch: the status it completes with (R61, R170, R192). -/
def userBad (s : State) (g : Seg) (u : Nat × Nat) : Option Nat :=
  match cmdOf s u.1 with
  | none => none
  | some c =>
    match g.culm with
    | some k => (g.objs.findSome? (readStatus s c.tenant)) <|> if g.objs.all (inChannel s k) then none else some St.culmPlacement
    | none => readStatus s c.tenant g.handle <|> if objSize s g.handle < g.stop then some St.accessViolation else none

/-- An item that may not have what it needs: its command completes with the status (R61). -/
def markUser (s : State) (p : (Nat × Nat) × Nat) : State :=
  let s' := modCmd p.1.1 (fun c => { c with viol := if c.viol = 0 then p.2 else c.viol }) s
  match cmdOf s p.1.1 with
  | some c => if p.2 = St.accessViolation then countViolation c.tenant s' else s'
  | none => s'

/-- Tenants of the items a read serves. -/
def userTenants (s : State) (us : List (Nat × Nat)) : List Nat := nub (us.filterMap fun u => (cmdOf s u.1).map Cmd.tenant)

/-- Whether the buckets that a read of a tier is charged to let it pass: the tenants' flash, or the fabric flows of their requests (R59,
R362). -/
def readBucketOk (s : State) (us : List (Nat × Nat)) (tier : Nat) : Bool :=
  (userTenants s us).all fun t =>
    if tier = 2 || tier = 3 then bucketOk s 2 t else if tier = 4 then bucketOk s 3 (t * 4 + 1) else true

/-- A flash read in the bucket of the first item's tenant (R362; log entry 98). -/
def chargeRead (us : List (Nat × Nat)) (tier n : Nat) (s : State) : State :=
  if tier = 2 || tier = 3 then bucketCharge 2 ((userTenants s us).headD 0) n s else s

/-- The tier an awn's read of an object goes to: that of the copy a reader finds, home where that is a T0 copy on another tile; none where
the copy lies in the tile's own SRAM (R58, R235). -/
def awnTier (o : ObjRec) (tile : Nat) : Option Nat :=
  if servingTier o = 0 then (if o.placeUp % 512 = tile then none else some o.home) else some (servingTier o)

/-- Reads of a stage tile still outstanding (R59). -/
def outstanding (s : State) (key : Nat) : Nat := (s.shv.reads.filter fun p => p.2.stage == key && !p.2.landed).length

/-- The 64-byte blocks of scales that a read needs and the stage does not hold (R61, R84). -/
def branBlocks (s : State) (key : Nat) (g : Seg) (len : Nat) : List Nat :=
  if g.bran = 0 then []
  else
    let a := g.branOff + (g.off - g.base) / g.unit * g.branUnit
    let b := g.branOff + ceilDiv (min (g.off + len) g.stop - g.base) g.unit * g.branUnit
    ((List.range (ceilDiv b 64 - a / 64)).map (a / 64 + ·)).filter fun x => !s.shv.reads.any fun p =>
      p.2.stage == key && p.2.bran && p.2.obj / 8 == hIndex g.bran && p.2.ver == g.ver && p.2.off == 64 * x

/-- The sizes a read may have at an offset: powers of two from 64 bytes to 4 KiB, aligned to themselves, no larger than what is left
(R59; log entry 98). -/
def readSizes (off stop : Nat) : List Nat := [4096, 2048, 1024, 512, 256, 128, 64].filter fun n => off % n == 0 && (n == 64 || decide (off + n ≤ stop))

/-- The size of the next read of a stretch, for which there is room together with its scales (R59, R61, R62). -/
def readSize (s : State) (key : Nat) (e : Bytes) (g : Seg) : Option Nat :=
  let r := stageOf s key
  (readSizes g.off g.stop).find? fun n =>
    let k := if sgBran e = 0 then 0 else (branBlocks s key g n).length
    decide (r.landing + n ≤ sgLanding e) && decide (r.bran + 64 * k ≤ sgBran e) && decide (outstanding s key + 1 + k ≤ 256)

/-- The finish tag of a read that is now first of its tenant at the directory's arbiter: its bytes by the weight of the tenant's flash bucket, in
1/65,536 (R364; log entry 121). -/
def readTag (s : State) (a : AwnRd) : Nat :=
  let t := (userTenants s a.users).headD 0
  max s.shv.dirV (tabGetD s.shv.dirTags t 0) + 65536 * a.len / max 1 (bucketWeight s 2 t)

/-- The first unserved read of each tenant has its tag. -/
def tagReads (s : State) : State :=
  let wait := s.shv.reads.filter fun p => !p.2.seen
  let first (p : Nat × AwnRd) : Bool := !wait.any fun q => decide (q.1 < p.1) &&
    (userTenants s q.2.users).headD 0 == (userTenants s p.2.users).headD 0
  s.onShv fun v => { v with reads := v.reads.map fun p =>
    if !p.2.seen && p.2.tag.isNone && first p then (p.1, { p.2 with tag := some (readTag s p.2) }) else p }

/-- The read that the directory's arbiter serves next: an urgent one, oldest first; else, of the tenants' first reads, the smallest finish tag, on
equal tags the lower tenant (R364, R365). -/
def nextRead (s : State) : Option Nat :=
  let ready := s.shv.reads.filter fun p => !p.2.seen && p.2.tag.isSome
  match s.fab.urgent.find? fun u => u.1 == 0 && s.shv.reads.any fun p => p.1 + 8192 == u.2 && !p.2.seen with
  | some u => some (u.2 - 8192)
  | none =>
    let rank (p : Nat × AwnRd) : Nat × Nat := (p.2.tag.getD 0, (userTenants s p.2.users).headD 0)
    (ready.foldl (fun (b : Option (Nat × AwnRd)) p =>
      match b with
      | none => some p
      | some x => if (rank p).1 < (rank x).1 || ((rank p).1 = (rank x).1 && (rank p).2 < (rank x).2) then some p else some x) none).map Prod.fst

/-- A read is entered: its pin taken, its space held. -/
def addRead (key : Nat) (b : Batch) (g : Seg) (h tier off len : Nat) (bran : Bool) (s : State) : State :=
  let (pin, s) := pinAt (hIndex h) tier (cancelEvict (hIndex h) s)
  let id := s.shv.nextRead
  let s := s.onShv fun v => { v with
    nextRead := id + 1, reads := tabSet v.reads id {
      stage := key, num := b.num, users := g.users, obj := pin, pins := [pin], off := off, len := len, bran := bran, ver := g.ver
      expert := g.expert, at_ := now s } }
  tagReads (modStage key (fun r => { r with
    landing := if bran then r.landing else r.landing + len
    bran := if bran then r.bran + len else r.bran }) s)

/-- What a running batch has landed is used and its space freed where its own next read finds no room: a batch larger than its landing zone
or bran region goes through it piece by piece. DESIGN CHOICE (log entry 98). -/
def consumeLanded (key : Nat) (b : Batch) (s : State) : State :=
  if (stageOf s key).running.map Batch.num != some b.num || outstanding s key != 0 then s
  else (s.shv.reads.filter fun p => p.2.stage == key && p.2.num == b.num && p.2.landed).foldl (fun s p => dropRead p.1 p.2 s) s

/-- The next read of a stretch, with the reads of its scales in the same cycle group (R59, R61). -/
def issueRead (key tile : Nat) (e : Bytes) (b : Batch) (x : Stream) (g : Seg) (rest : List Seg) (s : State) : State :=
  match (objOf s g.handle).bind fun o => awnTier o tile with
  | none => putStream key { x with left := rest } s
  | some tier =>
    if !readBucketOk s g.users tier then s
    else match readSize s key e g with
      | none => consumeLanded key b s
      | some n =>
        let brs := if sgBran e = 0 then [] else branBlocks s key g n
        let brTier := ((objOf s g.bran).map servingTier).getD 1
        let s := chargeRead g.users tier n (addRead key b g g.handle tier g.off n false s)
        let s := brs.foldl (fun s x => chargeRead g.users brTier 64 (addRead key b g g.bran brTier (64 * x) 64 true s)) s
        putStream key { x with left := if g.off + n < g.stop then { g with off := g.off + n } :: rest else rest } s

/-- A culm operation is sent: every object it names is pinned until its result lands (R60, R175). -/
def sendOp (key k tile : Nat) (num : Nat) (users : List (Nat × Nat)) (husk : Option Nat) (tenant : Nat) (objs : List Nat) (op : Bytes)
    (s : State) : State :=
  let (pins, s) := ((nub objs).filter (· != 0)).foldl (fun (a : List Nat × State) h =>
    let r := pinObj (hIndex h) a.2; (a.1 ++ [r.1], r.2)) (([] : List Nat), s)
  let id := s.shv.nextRead
  let s := s.onShv fun v => { v with
    nextRead := id + 1, reads := tabSet v.reads id {
      stage := key, num := num, users := users, obj := pins.headD 0, pins := pins, culm := true, husk := husk, seen := true, lead := true
      at_ := now s } }
  pushOp k { op := byteAt op 0, tenant := tenant, tag := id, body := opHeader (byteAt op 0) k tenant id ++ op.drop 16, objs := objs, husk := husk, tile := tile } s

/-- The next read or operation of a batch's stream: items without the right to it complete with a status and are left out (R61). -/
def issueSeg (key tile : Nat) (e : Bytes) (b : Batch) (x : Stream) (g : Seg) (rest : List Seg) (s : State) : State :=
  let us := g.users.filter (liveUser s)
  let bad := us.filterMap fun u => (userBad s g u).map fun st => (u, st)
  let ok := us.filter fun u => (userBad s g u).isNone
  let s := bad.foldl markUser s
  if ok.isEmpty then putStream key { x with left := rest } s
  else match g.culm with
    | none => issueRead key tile e b x { g with users := ok } rest s
    | some k =>
      if !culmRoom s k || 256 ≤ outstanding s key then s
      else putStream key { x with left := rest }
        (sendOp key k tile b.num ok none ((userTenants s ok).headD 0) g.objs g.op s)

/-- The husk that computes for an ELEMENTWISE command of a sheaf, and has operations left to issue (R181). -/
def ewHusk (s : State) (sh : Nat) : Option (Nat × Husk × Nat × Cmd) :=
  s.eng.husks.findSome? fun p =>
    (p.2.cmd.bind fun n => (cmdOf s n).map fun c => (n, c)).bind fun q =>
      if p.2.hstate == .computing && q.2.sheaf == some sh && decide (p.2.issued < ceilDiv (ewCount s q.2.entry) (2 ^ 20)) then
        some (p.1, p.2, q.1, q.2) else none

/-- The awn of an ELEMENTWISE command's stage issues its next operation; one whose objects no longer lie in its pseudo-channel is not
issued, and the command completes with CULM_PLACEMENT (R170, R175, R181, R192). -/
def issueElementwise (key tile : Nat) (w : Nat × Husk × Nat × Cmd) (s : State) : State :=
  let (h, x, n, c) := w
  let objs := ewObjs s c.entry
  let k := ewChannel s c.entry
  let next (s : State) : State := modHusk h (fun y => { y with issued := y.issued + 1 }) s
  let ok := (objs.filter (· != 0)).findSome? (readStatus s c.tenant) <|>
    if (objs.filter (· != 0)).all (inChannel s k) then none else some St.culmPlacement
  match ok with
  | some st => next (modHusk h (fun y => { y with ops := y.ops - 1 }) (markUser s ((n, 0), st)))
  | none =>
    if !culmRoom s k || 256 ≤ outstanding s key then s
    else next (sendOp key k tile (2 ^ 64) [(n, 0)] (some h) c.tenant objs (toLe 1 (byteAt c.entry 1) ++ zeros 15 ++ ewOp s c.entry x.issued) s)

/-- The awn of an EXPERT stage takes up the next expert version that is present; it goes no further while the next is not (R151, R155). -/
def takeKey (key : Nat) (b : Batch) (x : Stream) (s : State) : Stream :=
  if !x.left.isEmpty then x
  else match keysLeft s key x b with
    | [] => x
    | k :: _ => if keyPresent s k then { x with left := expertSegs s (keyUsers s b k) k, got := x.got ++ [k] } else x

/-- AWN_READ_ISSUE (R58 to R62): the stage tile's awn makes the next read of its batches, or sends their next culm operation; or, of a stage
that ELEMENTWISE commands run on, the command's next operation. -/
def execAwnReadIssue (sheaf stage lane : Nat) (elementwise : Bool) (s : State) : Res := whileUp s <|
  let key := stKey sheaf stage lane
  match if elementwise then none else awnBatch s sheaf stage lane with
  | some b =>
    let e := shStage (itemsDesc s sheaf b.items) stage
    let x := streamAt s key stage lane b
    let x := if sgRole e = 6 then takeKey key b x s else x
    let tile := sgBase e + lane
    .next (if !islandUp s (tileIsland tile) then s
      else match x.left with
        | [] => s
        | g :: rest => issueSeg key tile e b x g rest s)
  | none =>
    match if elementwise then ewHusk s sheaf else none with
    | none => .next s
    | some w =>
      let e := shStage w.2.2.2.desc stage
      .next (if stage = 0 && decide (lane < sgWidth e) && islandUp s (tileIsland (sgBase e + lane)) then
        issueElementwise key (sgBase e + lane) w s else s)

/-! The directory and landing (R26, R60, R61). -/

/-- Two outstanding reads of one range and version (R26). -/
def sameRange (a b : AwnRd) : Bool := a.obj == b.obj && a.off == b.off && a.len == b.len && a.ver == b.ver && a.bran == b.bran && !a.culm && !b.culm

/-- The flash blocks a read's units lie in now (R267). -/
def flashBlks (s : State) (a : AwnRd) : List Nat :=
  let up := ((tabGet s.obj.recs (a.obj / 8)).map fun o => o.home != a.obj % 8).getD false
  if a.obj % 8 = 2 || a.obj % 8 = 3 then
    nub ((pagesOf a.off a.len).filterMap fun p => (tabGet s.fls.units (unitKey (a.obj / 8) up p)).map Unit.blk)
  else []

/-- A read of a home in T4 is asked of its pool (R350): a CHECKPOINT object's stream, or the range; where the pool cannot be asked its items end
with the status (R369). -/
def askPool (id : Nat) (a : AwnRd) (s : State) : State :=
  let i := a.obj / 8
  let job : T4Job := { who := .awn id, obj := i, off := a.off, stop := a.off + a.len }
  if a.obj % 8 != 4 then s
  else if t4Status s i != St.success then t4Fail job (t4Status s i) s
  else if ((tabGet s.obj.recs i).any fun o => o.checkpoint) then t4Whole (.awn id) i false s else t4Send job s

/-- AWN_DIRECTORY_READ (R26, R364): the arbiter's choice is joined to an outstanding read of the same range and version, or issued; a read that is
not its choice waits its turn. -/
def execAwnDirectoryRead (id : Nat) (s : State) : Res := whileUp s <|
  match tabGet s.shv.reads id with
  | none => .next s
  | some a =>
    if a.seen || !islandUp s 36 || nextRead s != some id then .next s
    else
      let joined := s.shv.reads.any fun p => p.1 != id && p.2.seen && p.2.lead && !p.2.landed && sameRange p.2 a
      let t := (userTenants s a.users).headD 0
      let tag := a.tag.getD 0
      let s := (token 0x0A 36 0 2 t s).onFab fun f => { f with urgent := f.urgent.filter (· != (0, 8192 + id)) }
      let s := tagReads (s.onShv fun v => { v with
        dirV := max v.dirV tag, dirTags := tabSet v.dirTags t (max tag (tabGetD v.dirTags t 0))
        reads := tabMod v.reads id fun r => { r with seen := true, lead := !joined, blks := if joined then [] else flashBlks s a } })
      .next (if joined then s else askPool id a s)

/-- An item whose read met lost data (R61). -/
def loseUser (s : State) (u : Nat × Nat) : State :=
  modCmd u.1 (fun c => { c with bad := if c.bad.contains u.2 then c.bad else c.bad ++ [u.2] }) s

/-- One read's data lands: its pins drop; data that no item waits for any more is discarded (R60, R61). -/
def landOne (poisoned : Bool) (s : State) (id : Nat) (a : AwnRd) : State :=
  let s := a.pins.foldl (fun s k => dropPin k s) s
  let live := a.users.any (liveUser s)
  let s := modStat a.stage (fun t => { t with
    awnBytes := t.awnBytes + a.len, awnDiscard := if live then t.awnDiscard else t.awnDiscard + a.len }) s
  if live then
    (if poisoned then a.users.foldl loseUser s else s).onShv fun v => { v with
      reads := tabMod v.reads id fun r => { r with landed := true, pins := [] } }
  else dropRead id a s

/-- The island behind a tier's data (R29, R32): the base die of a T1 unit's stack, the flash islands of T2 and T3, the fabric of T4; the
model follows the memory stacks' and the flash link's. -/
def tierIslands (s : State) (o : ObjRec) (tier off len : Nat) : List Nat :=
  if tier = 1 then
    (let c := if tier = o.home then homeCode o else o.placeUp
     if codeLocal c then [39 + c % 8] else nub ((pagesOf off len).map fun u => 39 + u % 8))
  else if tier = 2 || tier = 3 then nub ((pagesOf off len).filterMap fun p =>
    (tabGet s.fls.units (unitKey (hIndex o.handle) (o.home != tier) p)).map fun u => 47 + u.blk % 32 / 4)
  else []

/-- AWN_DATA_LAND (R26, R60): the directory's read ends for every awn that waits on it; while an island on its way is down the data
waits at the crossing (R32), and that of a home in T4 for its pool's answers (R350). -/
def execAwnDataLand (id : Nat) (poisoned : Bool) (s : State) : Res := whileUp s <|
  match tabGet s.shv.reads id with
  | none => .next s
  | some a =>
    let way := ((tabGet s.obj.recs (a.obj / 8)).map fun o => tierIslands s o (a.obj % 8) a.off a.len).getD []
    if !a.seen || !a.lead || a.landed || a.culm || !islandUp s 36 || !way.all (islandUp s) || t4For s (a.obj / 8) (.awn id) then .next s
    else
      let all := s.shv.reads.filter fun p => p.1 == id || (p.2.seen && !p.2.lead && !p.2.landed && sameRange p.2 a)
      let s := match tabGet s.obj.recs (a.obj / 8) with
        | some o => meterMove o (a.obj % 8) a.len false s
        | none => s
      .next (all.foldl (fun s p => landOne poisoned s p.1 p.2) s)

end Sys2Proof.Machine
end

