-- ==== Sys2Proof/Machine/Stook.lean ====
section
/-! DEFINITION. The stook (R128 to R134): the partial lists of SPLIT stages, their merges, what the root delivers. -/

namespace Sys2Proof.Machine
open Sys2Proof

/-! Partial lists (R48, R116, R118). -/

/-- The form of the lists that a SPLIT stage sends for a command's items: FP32 scores, order, entries of a list, partitions. -/
structure ListForm where
  fp : Bool := true
  order : Nat := 0
  k : Nat := 0
  parts : Nat := 1
  deriving DecidableEq, Repr

/-- The form of a selection of n entries, in partitions of at most 64 (R100, R116). -/
def deepForm (fp : Bool) (order n : Nat) : ListForm :=
  if n ≤ 64 then { fp := fp, order := order, k := n } else { fp := fp, order := order, k := (deepParts n).2, parts := (deepParts n).1 }

/-- Centroids that a search selects of a collection. -/
def probeCount (c : Cmd) (d : Bytes) : Nat := min (seNprobe c) (coCount d)

/-- The form of a SPLIT stage's lists for a command: of a CENTROID stage in the order of its metric or its WINNOW stage, of a SCAN stage
smallest distance first (R44, R100, R118). -/
def listForm (s : State) (c : Cmd) (st : Bytes) : ListForm :=
  if sgRole st = 2 then deepForm false 0 (fld c.entry 0x0A 2)
  else if c.opcode = 0x33 then
    let wn := roleEntry c.desc 3
    { fp := keyFp s st (tableOf c.entry st 8), order := byteAt wn 0x2A, k := memoryK c, parts := max 1 (byteAt wn 0x29) }
  else match collAt s (fld c.entry 4 2) (cEpoch c) with
    | some d => if c.peer.isSome then {} else deepForm (centroidFp s d st) (metricOrder (byteAt st 0x2A)) (probeCount c d)
    | none => {}

/-- The candidates that slices of a stage form for an item: of the table, or of the lists at their positions of the probe list (R48). -/
def leafRow (s : State) (c : Cmd) (i item : Nat) (slices : List Nat) : List Hit :=
  let st := shStage c.desc i
  let e := cEpoch c
  let rows (n : Nat) : List Nat := slices.flatMap fun k => laneRows st k n
  if c.opcode = 0x33 then keyHits s st (tableOf c.entry st 8) e (keyQuery s c item) (rows (fld st 0x30 4))
  else match collAt s (fld c.entry 4 2) e with
    | none => []
    | some d =>
      if sgRole st = 2 then
        let (sk, _, _) := queryLayout s d
        (scanLists s d (fld c.entry 4 2) e (leNat (slice c.query sk (coWidth d / 8))) (scanHow c) (c.probe.filter fun r =>
          scanIndex c.desc r.2.2 == i && (!sgSplit st || slices.contains (r.1 % max 1 (sgWidth st))))).1
      else if c.peer.isSome then []
      else
        let f := coarseWord s d
        centroidHits s d st e (c.query.take (rowBytes f (coCoarseDims d) + scaleBytes f (coCoarseDims d))) (rows (coCount d))

/-- The lists of slices of a stage for an item, one for each partition. -/
def sliceParts (s : State) (c : Cmd) (i item : Nat) (slices : List Nat) : List Part :=
  let f := listForm s c (shStage c.desc i)
  partLists c.piecewise f.fp f.order f.k f.parts c.cls (leafRow s c i item slices)

/-- The partial lists of a lane for an item of a batch; an empty one of an item that is gone. -/
def leafParts (s : State) (i lane : Nat) (it : Item) : ListForm × List Part :=
  match cmdOf s it.cmd with
  | none => ({}, [{}])
  | some c => (listForm s c (shStage c.desc i), sliceParts s c i it.idx (slicesOf s (shStage c.desc i) lane))

/-- The lists a batch's items have in a SPLIT stage: (item of the batch, partition), in item order. -/
def batchLists (s : State) (i : Nat) (b : Batch) : List (Nat × Nat) :=
  b.items.zipIdx.flatMap fun p =>
    (List.range (((cmdOf s p.1.cmd).map fun c => (listForm s c (shStage c.desc i)).parts).getD 1)).map fun q => (p.2, q)

/-- The lists a lane has still to send for its batch. -/
def unsent (s : State) (sh i lane : Nat) (b : Batch) : List (Nat × Nat) :=
  (batchLists s i b).filter fun x => !(stageOf s (stKey sh i lane)).sent.contains x

/-! Node slots (R129 to R132). -/

/-- The level-1 engines of a SPLIT stage, and the engines above them. -/
def stookLeaves (s : State) (e : Bytes) : List Nat := nub ((liveLanes s e).map fun k => (sgBase e + k) / 8)
/-- Participating children of an engine for a stage. -/
def stookNeed (s : State) (e : Bytes) (engine : Nat) : Nat :=
  if engine < 64 then ((liveLanes s e).filter fun k => (sgBase e + k) / 8 == engine).length
  else if engine < 72 then ((stookLeaves s e).filter fun j => j / 8 == engine - 64).length
  else (nub ((stookLeaves s e).map (· / 8))).length

/-- The parent of an engine below the root (R128). -/
def stookUp (engine : Nat) : Nat := if engine < 64 then 64 + engine / 8 else 72

/-- Whether a slot is for one item's merge. -/
def sameSlot (a b : StSlot) : Bool :=
  a.engine == b.engine && a.sheaf == b.sheaf && a.stage == b.stage && a.num == b.num && a.item == b.item && a.part == b.part

/-- A list put into its child buffer at an engine: a free buffer of the item's slot, or one of the stage's two slots; none
where neither is free (R131, R132). -/
def putLeafList (m : StSlot) (child : Nat) (p : Part) (sl : List StSlot) : Option (List StSlot) :=
  match sl.find? (sameSlot m) with
  | some x =>
    if x.kids.any fun c => c.1 == child then none
    else some (sl.map fun y => if sameSlot m y then { y with kids := y.kids ++ [(child, p)] } else y)
  | none =>
    if (sl.filter fun y => y.engine == m.engine && y.sheaf == m.sheaf && y.stage == m.stage).length < 2 then
      some (sl ++ [{ m with kids := [(child, p)], merging := false }])
    else none

/-- The stage entry behind a batch's lists. -/
def stookEntry (s : State) (sheaf stage num : Nat) : Bytes :=
  let its := (((inFlight s sheaf).find? fun p => p.2.num == num).map fun p => p.2.items).getD []
  shStage (itemsDesc s sheaf its) stage

/-- Whether a lane's reads for its batch are all there. -/
def landedAll (s : State) (sh i lane : Nat) (b : Batch) : Bool :=
  !readsLeft s sh i lane b && !(s.shv.reads.any fun p => p.2.stage == stKey sh i lane && p.2.num == b.num && !p.2.landed)

/-- The next list of a lane, and the slots once it has entered its child buffer: none while that buffer is not free (R132). -/
def leafSend (s : State) (sh i lane : Nat) (b : Batch) : Option ((Nat × Nat) × List StSlot) :=
  let e := shStage (itemsDesc s sh b.items) i
  let t := sgBase e + lane
  match unsent s sh i lane b with
  | [] => none
  | x :: _ =>
    let l := leafParts s i lane (b.items.getD x.1 {})
    let m : StSlot := { engine := t / 8, sheaf := sh, stage := i, num := b.num, seq := b.seq, item := x.1, part := x.2, fp := l.1.fp
                        need := stookNeed s e (t / 8), k := l.1.k, order := l.1.order }
    (putLeafList m (t % 8) (l.2.getD x.2 {}) s.shv.slots).map fun sl => (x, sl)

/-- STOOK_LIST_ARRIVAL (R132): the next partial list of a leaf tile, its data read, crosses into a free child buffer of its level-1
engine's slot. -/
def execStookListArrival (leaf : StageRef) (lane : Nat) (s : State) : Res := whileUp s <|
  let sheaf := leaf.sheaf
  let stage := leaf.stage
  let key := stKey sheaf stage lane
  match (stageOf s key).running with
  | none => .next s
  | some b =>
    let e := shStage (itemsDesc s sheaf b.items) stage
    if !splitOn s e || !pathUp s (tileIsland (sgBase e + lane)) 34 || !landedAll s sheaf stage lane b then .next s
    else match leafSend s sheaf stage lane b with
      | none => .next s
      | some (x, sl) => .next (modStage key (fun r => { r with sent := r.sent ++ [x] }) (s.onShv fun v => { v with slots := sl }))

/-- The round-robin key of a merge (R133). -/
def mergeKey (m : StSlot) : Nat := m.sheaf + 256 * m.stage + 4096 * m.part
/-- The order of merges: ascending (sheaf, stage, partition). -/
def mergeRank (m : StSlot) : Nat := (m.sheaf * 16 + m.stage) * 256 + m.part

/-- Whether a merge's output has a place: a child buffer at the parent, or, of the root, the stage's place in root staging, which holds one
list of a stage. DESIGN CHOICE (log entry 95). -/
def mergePlace (s : State) (m : StSlot) : Bool :=
  if m.engine = 72 then !(s.shv.rootOut.any fun y => y.sheaf == m.sheaf && y.stage == m.stage)
  else (putLeafList { m with engine := stookUp m.engine } (m.engine % 8) {} s.shv.slots).isSome

/-- The first of merges in the order of R133; of several items of one (sheaf, stage, partition) that of the earliest batch, then item.
DESIGN CHOICE (log entry 95). -/
def firstMerge (l : List StSlot) : Option StSlot :=
  l.foldl (fun (b : Option StSlot) m =>
    match b with
    | none => some m
    | some x => if mergeRank m < mergeRank x || (mergeRank m = mergeRank x && (m.num < x.num || (m.num = x.num && m.item < x.item)))
        then some m else some x) none

/-- STOOK_MERGE_START (R132, R133): of the merges whose lists are complete and whose output has a place, the next after the one last
served. -/
def execStookMergeStart (engine : Nat) (s : State) : Res := whileUp s <|
  let here := s.shv.slots.filter fun m => m.engine == engine
  let ready := here.filter fun m => m.kids.length == m.need && mergePlace s m
  if here.any StSlot.merging || !islandOn s 34 then .next s
  else
    let last := tabGet s.shv.lastMerge engine
    let after := ready.filter fun m => match last with | some l => decide (l < mergeRank m) | none => true
    match firstMerge (if after.isEmpty then ready else after) with
    | none => .next s
    | some m => .next ((token 0x06 34 engine 4 (mergeKey m) s).onShv fun v => { v with
        lastMerge := tabSet v.lastMerge engine (mergeRank m)
        slots := v.slots.map fun y => if sameSlot m y then { y with merging := true } else y })

/-- STOOK_MERGE_COMPLETE (R132, R134): the merged list stands in the parent's slot, or in root staging, and the child buffers are free:
those of a level-1 engine's tiles are counted back to them. -/
def execStookMergeComplete (engine : Nat) (s : State) : Res := whileUp s <|
  match s.shv.slots.find? fun m => m.engine == engine && m.merging with
  | none => .next s
  | some m =>
    let e := stookEntry s m.sheaf m.stage m.num
    let out := mergeParts m.fp m.order m.k (m.kids.map Prod.snd)
    let rest := s.shv.slots.filter fun y => !sameSlot m y
    if engine = 72 then
      .next (s.onShv fun v => { v with slots := rest, rootOut := v.rootOut ++ [{ m with kids := [(0, out)], merging := false }] })
    else match putLeafList { m with engine := stookUp engine, need := stookNeed s e (stookUp engine) } (engine % 8) out rest with
      | none => .next s
      | some sl => .next (s.onShv fun v => { v with
          slots := sl
          kidFreed := if engine < 64 then m.kids.foldl (fun t c => tabAdd t (8 * engine + c.1) 1) v.kidFreed else v.kidFreed })

/-! Delivery (R56, R132). -/

/-- The merged lists of an item that the stook has delivered for a stage, by partition; none while one is missing. -/
def mergedLists (s : State) (c : Cmd) (i item : Nat) : Option (List Part) :=
  (List.range (listForm s c (shStage c.desc i)).parts).mapM fun q =>
    (c.merged.find? fun m => m.1 == i && m.2.1 == item && m.2.2.1 == q).map fun m => m.2.2.2

/-- The lists of a search's SCAN stage i: those the stook delivered of a SPLIT stage, those its tile selects else. -/
def scanParts (s : State) (c : Cmd) (i : Nat) : Option (List Part) :=
  if splitOn s (shStage c.desc i) then mergedLists s c i 0 else some (sliceParts s c i 0 [0])

/-- What merged lists select: the best n of a partitioned selection (R100, R116). -/
def selectLists (f : ListForm) (n : Nat) (ps : List Part) : Part := if f.parts = 1 then ps.headD {} else deepOf f.fp f.order n ps

/-- A command whose item's merged lists of a stage are all delivered goes on with them: the lists to scan, the candidates, the keys. -/
def takeMerged (s : State) (i : Nat) (c : Cmd) : Cmd :=
  let st := shStage c.desc i
  let f := listForm s c st
  if c.result.isSome then c
  else if c.opcode = 0x33 then
    match (List.range c.items).mapM (mergedLists s c i) with
    | none => c
    | some ls => withKeys s (ls.map fun ps => if f.parts = 1 then ps.headD {} else joinParts f.fp ps) c
  else match collAt s (fld c.entry 4 2) (cEpoch c) with
    | none => c
    | some d =>
      if sgRole st = 2 then
        match ((rolesOf c.desc).zipIdx.filter fun r => r.1 == 2).mapM fun r => scanParts s c r.2 with
        | none => c
        | some ls =>
          withCand s d (selectLists f (fld c.entry 0x0A 2)
            ((List.range f.parts).map fun q => mergeParts f.fp f.order f.k (ls.map fun l => l.getD q {}))) c
      else if c.peer.isSome then c
      else match mergedLists s c i 0 with
        | none => c
        | some ps => withProbe s d (selectLists f (probeCount c d) ps) c

/-- Whether every merged list of a batch has been delivered, and every tile of its stage has finished with it (R54, R132). -/
def splitDone (s : State) (sh i : Nat) (b : Batch) : Bool :=
  (batchLists s i b).all (fun x => s.shv.delivered.contains (sh, i, b.num, x.1, x.2)) &&
    !((sheafStages s sh).any fun p => p.1 / 32 % 16 == i && (stageBatches p.2).any fun x => x.num == b.num)

/-- A batch whose merged lists are all delivered is complete at the successor. -/
def finishSplit (sh i : Nat) (b : Batch) (s : State) : State :=
  if !splitDone s sh i b then s
  else
    let d := itemsDesc s sh b.items
    deliverOn sh d i b (spendCredit sh d i b.num (s.onShv fun v => { v with
      waitMerge := v.waitMerge.filter fun x => !(x.1 == sh && x.2.1 == i && x.2.2.num == b.num)
      delivered := v.delivered.filter fun x => !(x.1 == sh && x.2.1 == i && x.2.2.1 == b.num) }))

/-- Whether the root holds the credits for a batch from every successor, the way to their tiles up (R55, R56). -/
def rootCredit (s : State) (sh : Nat) (d : Bytes) (i num : Nat) : Bool :=
  (sgSuccs (shStage d i)).all fun q =>
    (sgTiles (shStage d q)).all (fun t => pathUp s 34 (tileIsland t)) && (edgeOf s sh d i q).held.contains num

/-- STOOK_ROOT_DELIVERY (R56, R132): one merged list goes to the successor under its credits; with the last one the batch is complete
there. -/
def execStookRootDelivery (sheaf stage : Nat) (s : State) : Res := whileUp s <|
  match s.shv.rootOut.find? fun m => m.sheaf == sheaf && m.stage == stage with
  | none => .next s
  | some m =>
    match s.shv.waitMerge.find? fun w => w.1 == sheaf && w.2.1 == stage && w.2.2.num == m.num with
    | none => .next s
    | some w =>
      let b := w.2.2
      if !rootCredit s sheaf (itemsDesc s sheaf b.items) stage b.num then .next s
      else
        let it := b.items.getD m.item {}
        let s := s.onShv fun v => { v with
          rootOut := v.rootOut.filter fun y => !sameSlot m y
          delivered := v.delivered ++ [(sheaf, stage, b.num, m.item, m.part)] }
        let s := modCmd it.cmd (fun c =>
          let c := { c with merged := c.merged ++ [(stage, it.idx, m.part, (m.kids.map Prod.snd).headD {})] }
          if (mergedLists s c stage it.idx).isSome then takeMerged s stage c else c) s
        .next (finishSplit sheaf stage b s)

end Sys2Proof.Machine
end

