-- ==== Sys2Proof/Machine/Stages.lean ====
section
/-! DEFINITION. Stages at work: starting and finishing a batch, credits coming back, roles changing, tiller swaps, expert staging and
late experts (chapters 02 and 06). -/

namespace Sys2Proof.Machine
open Sys2Proof

/-! Starting a batch (R50, R53). -/

/-- Whether an earlier batch dealt to a lane has still to come to its stage (R48). -/
def earlierDue (s : State) (sh : Nat) (d : Bytes) (i k num : Nat) : Bool :=
  let up := (upTo d i).filter (· != i)
  (inFlight s sh).any fun p => up.contains p.1 && decide (p.2.num < num) && (lanesOf s (shStage d i) p.2.seq).contains k

/-- The stage tiles of the generation in force on a logical tile: (sheaf, stage, lane). -/
def onTile (s : State) (t : Nat) : List (Nat × Nat × Nat) :=
  (genSheaves (gen s)).flatMap fun d =>
    ((shEntries d).zipIdx.filter fun e => decide (sgBase e.1 ≤ t) && decide (t < sgBase e.1 + sgWidth e.1)).map fun e =>
      (fld d 0 2, e.2, t - sgBase e.1)

/-- The tile of a stage tile that runs a batch. -/
def runningTile (s : State) (k : Nat) (r : StageRt) : Option Nat :=
  r.running.map fun b => sgBase (shStage (itemsDesc s (k / 512) b.items) (k / 32 % 16)) + k % 32

/-- Whether a logical tile runs a batch of some stage. -/
def tileRuns (s : State) (t : Nat) : Bool := s.shv.stages.any fun p => runningTile s p.1 p.2 == some t

/-- Whether a tile still has work of an older version of a sheaf to do: a batch, or a command whose items have not passed it (R51). -/
def oldWork (s : State) (t : Nat) : Bool :=
  (s.shv.stages.any fun p => (stageBatches p.2).any fun b =>
    let d := itemsDesc s (p.1 / 512) b.items
    sgBase (shStage d (p.1 / 32 % 16)) + p.1 % 32 == t && genSheaf (gen s) (p.1 / 512) != some d) ||
    s.hif.cmds.any fun p => p.2.items != 0 && (p.2.sheaf.map fun sh => genSheaf (gen s) sh != some p.2.desc && (sheafTiles p.2.desc).contains t &&
      (!p.2.arrived || (inFlight s sh).any fun x => (x.2.items.any fun i => i.cmd == p.1) &&
        (List.range (shStages p.2.desc)).any fun j =>
          (sgTiles (shStage p.2.desc j)).contains t && (upTo p.2.desc j).contains x.1)).getD false

/-- Whether a tile takes up a new role only once older batches are done, and a batch is of the new version (R51). -/
def roleWaits (s : State) (t sh : Nat) (d : Bytes) : Bool := s.shv.switching.contains t && genSheaf (gen s) sh == some d && oldWork s t

/-- The next batch in a stage tile's input slots, complete from every predecessor (R45, R48). -/
def nextInput (s : State) (sh i k : Nat) : Option Batch :=
  let r := stageOf s (stKey sh i k)
  ((r.inputs.map Prod.snd).foldl earlierOf none).filter fun b =>
    i == 0 || (shPreds (itemsDesc s sh b.items) i).all fun p => r.inputs.any fun x => x.1 == p && x.2.num == b.num

/-- The searches of a batch that ask other nodes have their coordinator slots, and room for the answers (R135, R349). -/
def coordReady (s : State) (b : Batch) : Bool :=
  let cs := (batchCmds s b).filter fun p => !p.2.ask.isEmpty && p.2.result.isNone
  decide (cs.length ≤ s.shv.coordSlots) && (cs.isEmpty || poolRoom s (cs.map fun p => (96 + 16 * byteAt p.2.entry 6) * p.2.ask.length).sum)

/-- Whether a stage tile holds what its output needs: credits of its successors, none of a SPLIT stage, a place in staging of the terminal
stage (R53, R56, R57). -/
def outputReady (s : State) (sh : Nat) (d : Bytes) (i k : Nat) (b : Batch) : Bool :=
  let e := shStage d i
  (splitOn s e || holdsCredit s sh d i (sgBase e + k) b.num) &&
    (byteAt e 8 != 0xFF || decide (b.num < (sheafRt s sh).freed + 64)) && (sgRole e != 2 || coordReady s b)

/-- The batch a stage tile could start now: the next in sequence, complete from every predecessor, its output provided for (R45, R53,
R57). -/
def startable (s : State) (sh i k : Nat) : Option Batch :=
  if (stageOf s (stKey sh i k)).running.isSome then none
  else (nextInput s sh i k).filter fun b =>
    let d := itemsDesc s sh b.items
    let e := shStage d i
    let t := sgBase e + k
    let dead := (liveLanes s e).isEmpty
    !tileRuns s t && !earlierDue s sh d i k b.num && outputReady s sh d i k b && (dead || !s.shv.absent.contains t) &&
      (tabGet s.shv.swapping t).isNone && islandOn s (tileIsland t) && !roleWaits s t sh d

/-- Whether a shared tile's turn is a sheaf's: the first startable one in ascending sheaf order after the last served (R50). -/
def sharesTurn (s : State) (t sh : Nat) : Bool :=
  let on := (onTile s t).filter fun p => (startable s p.1 p.2.1 p.2.2).isSome
  let ids := on.map Prod.fst
  let last := tabGet s.shv.lastShare t
  let after := ids.filter fun x => match last with | some l => decide (l < x) | none => true
  let pick := if after.isEmpty then ids.foldl min 255 else after.foldl min 255
  ids.isEmpty || !ids.contains sh || pick == sh

/-- The commands of a batch's items, each once. -/
def batchNums (b : Batch) : List Nat := nub (b.items.map Item.cmd)

/-- What a batch's start does to the sheaf: its credits are spent, or, of a SPLIT stage, it waits for its merges from now; the searches of a
SCAN stage ask other nodes (R53, R56, R135). -/
def claimOutput (sh : Nat) (d : Bytes) (i : Nat) (b : Batch) (s : State) : State :=
  let e := shStage d i
  let s := if splitOn s e then
      (if s.shv.waitMerge.any fun w => w.1 == sh && w.2.1 == i && w.2.2.num == b.num then s
       else s.onShv fun v => { v with waitMerge := v.waitMerge ++ [(sh, i, b)] })
    else spendCredit sh d i b.num s
  let s := if sgRole e = 2 then (batchNums b).foldl (fun s n => askOwners n s) s else s
  if byteAt e 8 = 0xFF then modRt sh (fun r => { r with staged := r.staged ++ [b.num] }) s else s

/-- STAGE_BATCH_START (R53). A stage with no live tile left passes its items on with INSUFFICIENT_CAPACITY (R377). -/
def execStageBatchStart (sheaf stage lane : Nat) (s : State) : Res := whileUp s <|
  match startable s sheaf stage lane with
  | none => .next s
  | some b =>
    let d := itemsDesc s sheaf b.items
    let e := shStage d stage
    let t := sgBase e + lane
    if !sharesTurn s t sheaf then .next s
    else
      let s := if 1 < (onTile s t).length then
          (token 0x05 (tileIsland t) t 1 sheaf s).onShv fun v => { v with lastShare := tabSet v.lastShare t sheaf }
        else s
      let s := claimOutput sheaf d stage b s
      let s := if (liveLanes s e).isEmpty then b.items.foldl (fun s i => modCmd i.cmd (fun c => { c with
          viol := if c.viol = 0 then St.insufficientCapacity else c.viol }) s) s else s
      let s := if stage = 0 then b.items.foldl (fun s i => modCmd i.cmd (fun c => { c with started := true }) s) s else s
      .next (modStage (stKey sheaf stage lane) (fun r => { r with
        running := some b, startAt := now s, sent := [], ranEx := [], holdOn := none }) s)

/-! Conversions that a stage's tile makes (R85). -/

/-- Conversions of one format at a tile's unit, where it narrows; the source is FP32. -/
def noteAt (sh i tile f : Nat) (xs : List Num) (ys : List (Nat × Bool × Bool × Num)) (s : State) : State :=
  if narrows 1 f then noteConvert { tag := sh + 256 * i, tagKind := 1, unit := tile, fmt := fwElem f } xs ys s else s

/-- The intermediates of an expert version for the items that run it. -/
def noteExpert (sh i tile : Nat) (b : Batch) (s : State) (k : ExKey) : State :=
  (batchSels s b).foldl (fun s p =>
    if !(p.2.2.runs.any fun x => exKey s p.2.1 x == k) then s
    else
      let hd := exHeader s k.2.2 (cEpoch p.2.1)
      let rb := rowBytes (xhAct hd) (xhModel hd)
      let row := p.2.1.rows.getD p.1.idx []
      let a := expertMid s hd (keyDesc s k) (row.take rb) (row.drop rb)
      noteAt sh i tile (hWord (xhAct hd)) a (expertH hd (keyDesc s k) a).2.2 s) s

/-- The rows that an item's bag composes (R160). -/
def noteBag (sh i tile : Nat) (c : Cmd) (bag : List (Nat × Nat)) (s : State) : State :=
  let h := emHeader s (bagTable c).1 (cEpoch c)
  bag.foldl (fun s p =>
    if emConverts h p.1 then let v := emMix s h (cEpoch c) p.1; noteAt sh i tile (mhFormat h) v (emRound h v).2.2 s else s) s

/-- The conversions of a batch at a stage's tile, item by item. -/
def noteStage (sh i tile : Nat) (b : Batch) (s : State) : State :=
  let role := sgRole (shStage (itemsDesc s sh b.items) i)
  let s := if role = 6 then (batchKeys s b).foldl (noteExpert sh i tile b) s else s
  (batchCmds s b).foldl (fun s p =>
    let c := p.2
    if c.result.isSome then s
    else if role = 6 then
      let r := expertRow s c (c.sels.getD p.1.idx {}) (c.rows.getD p.1.idx [])
      noteAt sh i tile (expertWord s c.desc c.entry) r.2.2.2 r.2.2.1 s
    else if role = 5 then noteBag sh i tile c (c.bags.getD p.1.idx []) s
    else if role = 7 && c.opcode = 0x34 && i = 1 then
      (queryRows s c p.1.idx).foldl (fun s r => noteAt sh i tile (convertWord (shStage c.desc 1)) r.2.2.2 r.2.2.1 s) s
    else s) s

/-! The end of an item's way (R48, R57). -/

/-- A command whose last item has left ends: its completion holds the batch's place in staging, or, for a sub-search, its
answer goes to the coordinator (R57, R349). -/
def leaveCmd (sh num n : Nat) (c : Cmd) (s : State) : State :=
  match c.peer with
  | some (node, msg) =>
    endCmd n (if c.suppressed then s else sendMsg {
                        dst := node, vc := 2, type := 0x11, id := msg, tenant := c.tenant, epoch := cEpoch c, body := subAnswer c } s)
  | none => endCmd n (if c.suppressed then s else postCompl c.qp { complOf s c (finalResult s c) with batch := some (sh, num) } s)

/-- One item leaves the terminal stage. -/
def leaveItem (sh num : Nat) (s : State) (i : Item) : State :=
  let s := modCmd i.cmd (fun c => { c with itemsDone := c.itemsDone + 1 }) s
  match cmdOf s i.cmd with
  | none => s
  | some c => if c.arrived && c.itemsDone = c.items then leaveCmd sh num i.cmd c s else s

/-- Tile time shared out among a batch's tenants by item count (R49). -/
def meterTile (b : Batch) (ns : Nat) (s : State) : State :=
  let ts := b.items.filterMap fun i => (cmdOf s i.cmd).map Cmd.tenant
  (nub ts).foldl (fun s t => addMeter t 0 (ns * (ts.filter (· == t)).length / ts.length) s) s

/-- A stage tile is done with a batch's landed data and its stream (R59). -/
def freeLanding (key num : Nat) (s : State) : State :=
  let s := (s.shv.reads.filter fun p => p.2.stage == key && p.2.num == num).foldl (fun s p => dropRead p.1 p.2 s) s
  modStage key (fun r => { r with streams := r.streams.filter fun x => x.num != num }) s

/-- Whether the terminal stage has to wait with a batch: for an earlier one, for answers of other nodes, for the way to island 59 (R48,
R135). -/
def terminalWaits (s : State) (sh t : Nat) (b : Batch) : Bool :=
  ((inFlight s sh).any fun p => decide (p.2.num < b.num)) || !pathUp s (tileIsland t) 59 ||
    (batchCmds s b).any fun p => p.2.result.isNone && (p.2.fan.map fun f => !f.owed.isEmpty).getD false

/-- Whether a running batch still waits: for its reads, its experts, its lists' way to the stook, or, at the end, for what the batch hands
over to. -/
def finishWaits (s : State) (sh i lane : Nat) (b : Batch) : Bool :=
  let d := itemsDesc s sh b.items
  let e := shStage d i
  let t := sgBase e + lane
  !(liveLanes s e).isEmpty &&
    (!landedAll s sh i lane b || (sgRole e == 6 && !((batchKeys s b).all (stageOf s (stKey sh i lane)).ranEx.contains)) ||
      if splitOn s e then !(unsent s sh i lane b).isEmpty
      else if byteAt e 8 = 0xFF then terminalWaits s sh t b
      else !outUp s d i t)

/-- The staged copies that a batch has pinned are let go (R154). -/
def unpinBatch (sh num : Nat) (s : State) : State :=
  s.onShv fun v => { v with pools := v.pools.map fun p => (p.1, { p.2 with pins := p.2.pins.filter fun y => y.2 != pinKey sh num }) }

/-- STAGE_BATCH_FINISH (R48, R54, R57): the output goes on, the input slot's credit returns; at the terminal stage the items
leave in order. -/
def execStageBatchFinish (sheaf stage lane : Nat) (s : State) : Res := whileUp s <|
  let k := stKey sheaf stage lane
  let r := stageOf s k
  match r.running with
  | none => .next s
  | some b =>
    let d := itemsDesc s sheaf b.items
    let e := shStage d stage
    if finishWaits s sheaf stage lane b then .next s
    else
      let s := meterTile b (now s - r.startAt) (noteStage sheaf stage (sgBase e + lane) b s)
      let s := freeLanding k b.num s
      let s := if sgRole e = 6 then unpinBatch sheaf b.num s else s
      let s := modStage k (fun r => { r with
        running := none, holdOn := none, sent := [], ranEx := [], inputs := r.inputs.filter fun x => x.2.num != b.num }) s
      let s := modStat k (fun t => { t with batches := t.batches + 1, items := t.items + b.items.length }) s
      let held := (sheafStages s sheaf).any fun p => p.1 / 32 % 16 == stage && (stageBatches p.2).any fun x => x.num == b.num
      let s := if held then s else (shPreds d stage).foldl (fun s p =>
        modEdge sheaf d p stage (fun x => { x with out := x.out.filter (· != b.num), freed := x.freed + 1 }) s) s
      if splitOn s e then .next (finishSplit sheaf stage b s)
      else if byteAt e 8 != 0xFF then .next (deliverOn sheaf d stage b s)
      else .next (freeStaging (some (sheaf, b.num)) (b.items.foldl (leaveItem sheaf b.num) s))

/-- CREDIT_RETURN_ARRIVAL (R54, R55): the Gray-coded count reaches the predecessor, which then holds the credits that the
freed slots give. -/
def execCreditReturnArrival (sheaf stage succ : Nat) (s : State) : Res := whileUp s <|
  match tabGet s.shv.edges (edKey sheaf stage succ) with
  | none => .next s
  | some x =>
    let d := (((inFlight s sheaf).head?).map fun p => itemsDesc s sheaf p.2.items).getD ((genSheaf (gen s) sheaf).getD [])
    let e := shStage d succ
    if x.seen = x.freed || !(sgTiles (shStage d stage)).all (fun t => edgeUp s t e) then .next s
    else .next (modEdge sheaf d stage succ (fun x => grantEdge s sheaf e { x with seen := x.freed }) s)

/-- STAGE_GENERATION_SWITCH (R51): a tile with no work of an older version left takes up its new role. -/
def execStageGenerationSwitch (tile : Nat) (s : State) : Res := whileUp s <|
  .next (if oldWork s tile then s else s.onShv fun v => { v with switching := v.switching.filter (· != tile) })

/-! Tiller swaps (R46, R52). -/

/-- TILLER_SWAP_START (R52): at the tile's next batch boundary its stages stop starting batches and the copy begins. -/
def execTillerSwapStart (tile : Nat) (s : State) : Res := whileUp s <|
  match tabGet s.shv.swapping tile with
  | none => .next s
  | some x =>
    if 32 ≤ x || tileRuns s tile || !islandUp s (tileIsland tile) || !islandUp s 61 ||
        (x = 16 && (tabGet s.shv.tillerUse (tile / 16)).any (· != tile)) then .next s
    else .next (s.onShv fun v => { v with swapping := tabSet v.swapping tile (x + 32) })

/-- A substitution that a threshing run waits for is done: its conditions apply from now (R381). -/
def threshApplied (kind unit : Nat) (s : State) : State :=
  s.onRel fun r => { r with runs := r.runs.map fun x =>
    if x.st == .running && x.unitKind == kind && x.unit == unit && !x.applied then { x with applied := true, began := s.aon.uptime }
    else x }

/-- TILLER_SWAP_COMPLETE (R52): the logical tile stands on its new physical slot and its stages resume. -/
def execTillerSwapComplete (tile : Nat) (s : State) : Res := whileUp s <|
  match tabGet s.shv.swapping tile with
  | none => .next s
  | some x =>
    if x < 32 || !islandUp s (tileIsland tile) || !islandUp s 61 then .next s
    else .next (threshApplied 0 tile (s.onShv fun v => { v with
      swapping := tabDel v.swapping tile, slotOf := tabSet v.slotOf tile (x - 32)
      tillerUse := if x = 48 then tabSet v.tillerUse (tile / 16) tile
        else v.tillerUse.filter fun p => !(p.1 == tile / 16 && p.2 == tile) }))

/-! Expert staging and late experts (R153 to R158). -/

/-- Copies a pool may give up for an expert of the objects given, oldest use first: complete, not pinned, none of its own. -/
def freeCopies (p : StagePool) (hs : List Nat) : List (Nat × Bool × Nat × Nat) :=
  (p.copies.filter fun c => c.2.1 && !hs.contains c.1 && !p.pins.any fun x => x.1 == c.1).foldl (fun l c =>
    (l.takeWhile fun x => decide (x.2.2.2 ≤ c.2.2.2)) ++ c :: l.dropWhile fun x => decide (x.2.2.2 ≤ c.2.2.2)) []

/-- Copies reclaimed until a size fits in the pool. -/
def reclaim (cap need : Nat) : List (Nat × Bool × Nat × Nat) → StagePool → StagePool
  | [], p => p
  | c :: cs, p =>
    if (p.copies.map fun x => x.2.2.1).sum + need ≤ cap then p
    else reclaim cap need cs { p with copies := p.copies.filter fun x => x.1 != c.1 }

/-- The request a table's pool grants next (R154): round-robin over sheaves after the last, in (batch, expert, version) order. -/
def nextStaging (s : State) (t : Nat) : Option (Nat × Nat × Nat × Nat) :=
  let p := (tabGetD s.shv.pools t {}).pending
  let last := tabGet s.shv.lastGrant t
  let after := p.filter fun r => match last with | some l => decide (l < r.1) | none => true
  let sh := ((if after.isEmpty then p else after).map Prod.fst).foldl min 255
  (p.filter fun r => r.1 == sh).foldl (fun (b : Option (Nat × Nat × Nat × Nat)) r =>
    match b with
    | none => some r
    | some x => if r.2.1 < x.2.1 || (r.2.1 = x.2.1 && keyLt (r.2.2.1, r.2.2.2, t) (x.2.2.1, x.2.2.2, t)) then some r else some x) none

/-- The items that still run a requested expert version. -/
def requestUsers (s : State) (table : Nat) (r : Nat × Nat × Nat × Nat) : List (Nat × Nat) :=
  match (inFlight s r.1).find? fun p => p.2.num == r.2.1 with
  | some (_, b) => keyUsers s b (r.2.2.1, r.2.2.2, table)
  | none => []

/-- EXPERT_STAGING_GRANT (R154): space for the next expert version, reclaimed where needed; its objects are read whole. A batch that runs
it pins its copies; one whose tokens took the fallback does not, and the staging goes on for later batches (R156). -/
def execExpertStagingGrant (table : Nat) (s : State) : Res := whileUp s <|
  match nextStaging s table with
  | none => .next s
  | some r =>
    let us := requestUsers s table r
    let p := tabGetD s.shv.pools table {}
    let hs := keyObjs s (r.2.2.1, r.2.2.2, table)
    let new := hs.filter fun h => !p.copies.any fun c => c.1 == h
    let need := (new.map (objSize s)).sum
    let cap := objSize s (xhStaging (exHeader s table (keyEpoch s us)))
    let p2 := reclaim cap need (freeCopies p hs) p
    let owner := hTenant table
    if cap < (p2.copies.map fun x => x.2.2.1).sum + need || !bucketOk s 2 owner || !islandUp s 36 then .next s
    else
      let s := modPool table (fun _ => { p2 with
        pending := p2.pending.erase r
        copies := (p2.copies.map fun c => if hs.contains c.1 then (c.1, c.2.1, c.2.2.1, now s) else c) ++
          new.map fun h => (h, false, objSize s h, now s)
        pins := if us.isEmpty then p2.pins else p2.pins ++ hs.map fun h => (h, pinKey r.1 r.2.1) }) s
      .next (bucketCharge 2 owner need ((token 0x07 36 0 2 r.1 s).onShv fun v => { v with lastGrant := tabSet v.lastGrant table r.1 }))

/-- EXPERT_STAGING_COMPLETE (R155). -/
def execExpertStagingComplete (table handle : Nat) (s : State) : Res := whileUp s <|
  let p := tabGetD s.shv.pools table {}
  if !(p.copies.any fun c => c.1 == handle && !c.2.1) || !islandUp s 36 then .next s
  else
    let s := match objOf s handle with
      | some o => meterMove o (servingTier o) o.size false s
      | none => s
    .next (modPool table (fun p => { p with
      copies := p.copies.map fun c => if c.1 = handle then (c.1, true, c.2.2.1, now s) else c }) s)

/-- The batch is done with an expert version's staged copies (R154): it has run it, which is their last use, or its tokens take the
fallback. -/
def unpinExpert (run : Bool) (sh num : Nat) (k : ExKey) (s : State) : State :=
  let hs := keyObjs s k
  modPool k.2.2 (fun p => { p with
    pins := p.pins.filter fun y => !(hs.contains y.1 && y.2 == pinKey sh num)
    copies := if run then p.copies.map fun c => if hs.contains c.1 then (c.1, c.2.1, c.2.2.1, now s) else c else p.copies }) s

/-- Token slots that selected a late expert version run its fallback instead (R156). -/
def fallBack (key : Nat) (b : Batch) (k : ExKey) (s : State) : State :=
  (keyUsers s b k).foldl (fun s u =>
    match cmdOf s u.1 with
    | none => s
    | some c =>
      let y := c.sels.getD u.2 {}
      let z := { y with runs := y.runs.map fun r => if r = k.1 then xdFallback (keyDesc s k) else r, fell := true }
      modStat key (fun t => { t with fallback := t.fallback + 1 }) (modCmd u.1 (fun c => { c with sels := listSet c.sels u.2 z }) s)) s

/-- A stage routes a late expert version's tokens to the fallback, which takes its place in the order, and lets its copies go: a fallback
that has run already runs for these tokens. -/
def takeFallback (sh key : Nat) (b : Batch) (k : ExKey) (s : State) : State :=
  let fbs := (keyUsers s b k).filterMap fun u => (cmdOf s u.1).map fun c => exKey s c (xdFallback (keyDesc s k))
  modStage key (fun r => { r with
    holdOn := none, ranEx := r.ranEx.filter fun x => !fbs.contains x
    streams := r.streams.map fun x => if x.num = b.num then { x with got := x.got.filter fun y => !fbs.contains y } else x })
    (fallBack key b k (unpinExpert false sh b.num k s))

/-- The deadline of a batch that started at a time has come, for an expert version with a fallback (R156, R157). -/
def lateKey (s : State) (d : Bytes) (startAt : Nat) (k : ExKey) : Bool :=
  shDeadlineOn d && xdHasFb (keyDesc s k) && !keyPresent s k && decide (startAt + shDeadline d ≤ now s)

/-- An expert version has run: what its reads landed is used (R59, R84). -/
def consumeKey (key num : Nat) (k : ExKey) (s : State) : State :=
  (s.shv.reads.filter fun p => p.2.stage == key && p.2.num == num && p.2.expert == some k && p.2.landed).foldl
    (fun s p => dropRead p.1 p.2 s) s

/-- Whether an expert version's slices have all been read for a batch (R152, R155). -/
def keyRead (s : State) (key num : Nat) (k : ExKey) : Bool :=
  ((stageOf s key).streams.any fun x => x.num == num && x.got.contains k && !x.left.any fun g => g.expert == some k) &&
    !(s.shv.reads.any fun p => p.2.stage == key && p.2.num == num && p.2.expert == some k && !p.2.landed)

/-- EXPERT_REACH (R156): the next expert version of the batch runs if present, once its slices have landed (R155); else the stage holds, or,
past the deadline, its tokens run the fallback. -/
def execExpertReach (sheaf stage lane : Nat) (s : State) : Res := whileUp s <|
  let key := stKey sheaf stage lane
  let r := stageOf s key
  match r.running with
  | none => .next s
  | some b =>
    let d := itemsDesc s sheaf b.items
    let t := sgBase (shStage d stage) + lane
    let tok (v : Nat) (s : State) : State := if shDeadlineOn d then token 0x08 (tileIsland t) t 1 v s else s
    match (batchKeys s b).find? fun x => !r.ranEx.contains x with
    | none => .next s
    | some k =>
      if sgRole (shStage d stage) != 6 || !islandOn s (tileIsland t) then .next s
      else if keyPresent s k then
        .next (if keyRead s key b.num k then
            modStage key (fun r => { r with ranEx := r.ranEx ++ [k], holdOn := none })
              (consumeKey key b.num k (unpinExpert true sheaf b.num k (tok 0 s)))
          else modStage key (fun r => { r with holdOn := none }) s)
      else if lateKey s d r.startAt k then .next (takeFallback sheaf key b k (tok 1 s))
      else .next (modStage key (fun r => { r with holdOn := some k }) s)

/-- EXPERT_DEADLINE_EXPIRY (R156). -/
def execExpertDeadlineExpiry (sheaf stage lane : Nat) (s : State) : Res := whileUp s <|
  let key := stKey sheaf stage lane
  let r := stageOf s key
  match r.running, r.holdOn with
  | some b, some k =>
    let d := itemsDesc s sheaf b.items
    let t := sgBase (shStage d stage) + lane
    if islandOn s (tileIsland t) && lateKey s d r.startAt k then
      .next (takeFallback sheaf key b k (token 0x08 (tileIsland t) t 1 1 s))
    else .next s
  | _, _ => .next s

end Sys2Proof.Machine
end

