-- ==== Sys2Proof/Machine/Culms.lean ====
section
/-! DEFINITION. Culms at run time (chapter 07): the operations of their queues, results, spares, pseudo-channel grants. -/

namespace Sys2Proof.Machine
open Sys2Proof

/-- The operation at the head of a culm's queue, where it may start: the queue not held, its island up. -/
def culmNext (s : State) (k : Nat) : Option COp :=
  let u := culmOf s k
  if u.held || !islandUp s (culmIsland k) then none else u.queue.head?

/-- The operation at the head of a culm's queue, of an opcode. -/
def culmHead (s : State) (k op : Nat) : Option COp := (culmNext s k).filter fun o => o.op == op

/-- An operation ends: its queue entry is freed and its result is on its way (R174, R175). On an unserved pseudo-channel it
was not executed: CULM_RETIRED returns and the issuing tile has performed it, counted as a substitute (R191). -/
def endOp (k : Nat) (o : COp) (status : Nat) (data : Bytes) (s : State) : State :=
  let gone := (culmOf s k).unserved
  let s := modCulm k (fun u => { u with
    queue := u.queue.drop 1, credit := u.credit + 1,
    results := u.results ++ [(o.tag, if gone then St.culmRetired else status, data)] }) s
  s.onStk fun m => { m with cvtTile := if gone then m.cvtTile + 1 else m.cvtTile }

/-- The items an operation serves meet lost data (R192). -/
def poisonOp (o : COp) (s : State) : State :=
  match tabGet s.shv.reads o.tag with
  | some r => r.users.foldl loseUser s
  | none => s

/-- Whether an operation's common header is as R174 gives it: an opcode, its reserved fields 0. -/
def headerOk (b : Bytes) : Bool := inRange (byteAt b 0) 1 6 && zeroAt b 1 1 && decide (fld b 2 2 < 512) && decide (fld b 4 2 < 1024) && zeroAt b 6 2

/-- Whether fields hold 64-byte-aligned offsets (R174). -/
def offsetsOk (b : Bytes) (fs : List Nat) : Bool := fs.all fun f => fld b f 4 % 64 == 0

/-- An offset of an operation within an object of its pseudo-channel (R174). -/
def withinObj (h off : Nat) : Nat := off - culmBase h

/-- Whether a SCAN operation's fields are in the ranges of R176, over the list object at which its header_offset points. -/
def scanOk (o : COp) : Bool :=
  let b := o.body
  headerOk b && o.op == 1 && offsetsOk b [0x10] && inRange (byteAt b 0x14) 6 10 && inRange (byteAt b 0x15) 1 64 &&
    decide (fld b 0x16 2 ≤ 2 ^ byteAt b 0x14) && decide (fld b 0x18 8 < 2 ^ 48) && decide (fld b 0x20 4 < 2 ^ 20) &&
    decide (fld b 0x24 2 < 1024) && decide (fld b 0x26 2 < 512) && zeroAt b 0x28 24 && withinObj (o.objs.headD 0) (fld b 0x10 4) == 0

/-- What a SCAN operation finds in its list object at its epoch. -/
def scanOf (s : State) (o : COp) : ScanAcc :=
  let b := o.body
  let w := 2 ^ byteAt b 0x14
  let list := fld b 0x20 4 % 2 ^ 20
  culmScan (listOf s (o.objs.headD 0) 0 list) w (byteAt b 0x15) (fld b 0x16 2) (fld b 0x18 8) (leNat (slice b 0x40 (w / 8)))
    { node := genNode (gen s), tile := fld b 0x26 2, rank := fld b 0x24 2, list := list }

/-- Whether a SCAN operation meets lost data of its list object (R192). -/
def scanMeetsLost (s : State) (o : COp) : Bool :=
  let h := o.objs.headD 0
  let l := listOf s h 0 (fld o.body 0x20 4 % 2 ^ 20)
  scanLost s h (2 ^ byteAt o.body 0x14) (lengthAt l (fld o.body 0x18 8)) (scanOf s o).2.2.2

/-- CULM_SCAN_OP (R176 to R178): over the list object behind the operation at its epoch, nothing of a list that nothing was inserted into
yet. An operation whose opcode is none of R174's is answered here with INVALID_FIELD. -/
def execCulmScanOp (culm : Nat) (s : State) : Res := whileUp s <|
  match (culmNext s culm).filter fun o => !inRange o.op 2 6 with
  | none => .next s
  | some o =>
    let list := fld o.body 0x20 4 % 2 ^ 20
    if !scanOk o then .next (endOp culm o St.invalidField (scanResult o.tag list St.invalidField ([], 0, 0, [])) s)
    else
      let lost := scanMeetsLost s o
      let st := if lost then St.poison else 0
      .next (endOp culm o st (scanResult o.tag list st (scanOf s o)) (if lost then poisonOp o s else s))

/-! Element-wise operations (R180, R192). -/

/-- An operand of an element-wise operation: object, bran object, format word, offsets in them. -/
structure EwArg where
  obj : Nat := 0
  bran : Nat := 0
  fmt : Nat := 0
  off : Nat := 0
  soff : Nat := 0
  deriving DecidableEq, Repr

/-- Operand i of an operation: a, b, dst. -/
def ewArg (o : COp) (i : Nat) : EwArg :=
  let h := o.objs.getD i 0
  let r := o.objs.getD (3 + i) 0
  { obj := h, bran := r, fmt := fld o.body (0x20 + 4 * i) 4, off := withinObj h (fld o.body (0x10 + 4 * i) 4)
    soff := withinObj r (fld o.body (0x2C + 4 * i) 4) }

/-- The elements and scales of an operand of n elements. -/
def ewRow (s : State) (x : EwArg) (n : Nat) : Bytes × Bytes :=
  (objBytes s x.obj x.off (rowBytes x.fmt n), if fwScale x.fmt = 0 then [] else objBytes s x.bran x.soff (scaleBytes x.fmt n))

/-- Bytes of one scale of a format. -/
def scaleSize (f : Nat) : Nat := if fwScale f = 2 then 2 else 1

/-- Whether some of elements i to i + m - 1 of an operand, or a scale of theirs, is lost. -/
def ewLost (s : State) (x : EwArg) (i m : Nat) : Bool :=
  let r := elemBits (fwElem x.fmt)
  let k := blockLen (fwBlock x.fmt) 1
  let z := scaleSize x.fmt
  x.obj != 0 && (objPoisoned s x.obj (x.off + i * r / 8) (max 1 (m * r / 8)) ||
    (fwScale x.fmt != 0 && objPoisoned s x.bran (x.soff + i / k * z) ((ceilDiv (i + m) k - i / k) * z)))

/-- Whether elements i to i + m - 1 of dst come from lost data: their sources, or, of a scaled dst, those that give their scales (R78,
R192). -/
def dstLost (s : State) (o : COp) (n i m : Nat) : Bool :=
  let d := ewArg o 2
  let k := if fwScale d.fmt = 0 then 1 else blockLen (fwBlock d.fmt) 1
  let lo := i / k * k
  let len := min n (roundUp (i + m) k) - lo
  ewLost s (ewArg o 0) lo len || ewLost s (ewArg o 1) lo len

/-- The 64-byte blocks of dst and of its bran that come from lost data (R192). -/
def lostDst (s : State) (o : COp) (n : Nat) : List Nat × List Nat :=
  let d := ewArg o 2
  let per := max 1 (64 * 8 / elemBits (fwElem d.fmt))
  let k := blockLen (fwBlock d.fmt) 1
  (((List.range (ceilDiv n per)).filter fun j => dstLost s o n (j * per) (min per (n - j * per))).map (d.off / 64 + ·),
   if fwScale d.fmt = 0 then [] else
    nub (((List.range (ceilDiv n k)).filter fun j => dstLost s o n (j * k) (min k (n - j * k))).map fun j => (d.soff + j * scaleSize d.fmt) / 64))

/-- What an element-wise operation computes out of a and b: dst's bytes, its generated scales, the values and their conversions. -/
def ewResult (s : State) (op : Nat) (o : COp) : Bytes × Bytes × List Num × List (Nat × Bool × Bool × Num) :=
  let n := fld o.body 0x1C 4
  let (ra, rb) := (ewRow s (ewArg o 0) n, ewRow s (ewArg o 1) n)
  elementwise op (byteAt o.body 0x38) n (ewArg o 0).fmt (ewArg o 1).fmt (ewArg o 2).fmt ra.1 ra.2 rb.1 rb.2

/-- Whether an element-wise operation accepts its operands' formats: b's of ADD and MUL alone (R180). -/
def ewFormatsOk (op : Nat) (o : COp) : Bool :=
  ewFormatOk (ewArg o 0).fmt && (!(op == 2 || op == 3) || ewFormatOk (ewArg o 1).fmt) && ewFormatOk (ewArg o 2).fmt

/-- Whether an element-wise operation's fields are in R180's ranges. -/
def ewOk (op : Nat) (b : Bytes) : Bool :=
  let n := fld b 0x1C 4
  headerOk b && n % 32 == 0 && inRange n 32 (2 ^ 30) && (byteAt b 0x38 == 0xFF || decide (byteAt b 0x38 ≤ 4)) &&
    !(op == 4 && byteAt b 0x38 == 0xFF) && zeroAt b 0x39 7 && offsetsOk b [0x10, 0x14, 0x18, 0x2C, 0x30, 0x34]

/-- An element-wise operation (R180): a and b read, dst and its generated scales written in place, the conversions counted under the culm,
or under the tile that performs it where the pseudo-channel is unserved (R85, R191). -/
def runElementwise (op k : Nat) (s : State) : Res :=
  match culmHead s k op with
  | none => .next s
  | some o =>
    let d := ewArg o 2
    if !ewFormatsOk op o then .next (endOp k o St.formatUnsupported [] s)
    else if !ewOk op o.body then .next (endOp k o St.invalidField [] s)
    else
      let r := ewResult s op o
      let lost := lostDst s o (fld o.body 0x1C 4)
      let s := writeObj (hIndex d.obj) d.off r.1 lost.1 s
      let s := if r.2.1.isEmpty then s else writeObj (hIndex d.bran) d.soff r.2.1 lost.2 s
      let gone := (culmOf s k).unserved
      let s := if narrows (if op = 5 then (ewArg o 0).fmt else 1) d.fmt then
        noteConvert { tag := d.obj, unitKind := if gone then 0 else 1, unit := if gone then o.tile else k, fmt := fwElem d.fmt }
          r.2.2.1 r.2.2.2 s else s
      .next (endOp k o 0 [] (if lost.1.isEmpty then s else poisonOp o s))

/-- CULM_ADD_OP. -/
def execCulmAddOp (culm : Nat) (s : State) : Res := whileUp s <| runElementwise 2 culm s
/-- CULM_MUL_OP. -/
def execCulmMulOp (culm : Nat) (s : State) : Res := whileUp s <| runElementwise 3 culm s
/-- CULM_ACT_OP. -/
def execCulmActOp (culm : Nat) (s : State) : Res := whileUp s <| runElementwise 4 culm s
/-- CULM_CONVERT_OP. -/
def execCulmConvertOp (culm : Nat) (s : State) : Res := whileUp s <| runElementwise 5 culm s

/-! Attention (R184 to R186). -/

/-- Whether an ATTEND operation takes a format word for K or V (R182). -/
def kvFormatOk (f : Nat) : Bool := fwOk f && isCulmElem (fwElem f) && fwZero f == 0 && (fwScale f == 0 || fwBlock f != 1)

/-- Whether an ATTEND operation's fields are in the ranges of R182 and R184. -/
def attendOk (b : Bytes) : Bool :=
  let d := fld b 0x34 2
  headerOk b && inRange (fld b 0x28 4) 1 (fld b 0x2C 4) && inRange d 32 256 && d % 32 == 0 && byteAt b 0x36 != 0 && byteAt b 0x37 != 0 &&
    decide (byteAt b 0x36 * byteAt b 0x37 ≤ 32) && zeroAt b 0x39 7 && offsetsOk b [0x10, 0x14, 0x18, 0x1C]

/-- Whether an ATTEND operation takes its formats. -/
def attendFormatsOk (o : COp) : Bool := kvFormatOk (fld o.body 0x20 4) && kvFormatOk (fld o.body 0x24 4) && inRange (byteAt o.body 0x38) 1 2

/-- The partial of query head h of an ATTEND operation over the shard's positions. -/
def attendPart (s : State) (o : COp) (h : Nat) : Partial :=
  let b := o.body
  let kv := o.objs.headD 0
  let at_ (f : Nat) : Nat := withinObj kv (fld b f 4)
  let (fk, fv, n, d) := (fld b 0x20 4, fld b 0x24 4, fld b 0x28 4, fld b 0x34 2)
  let (g, fq) := (byteAt b 0x36, byteAt b 0x38)
  let qb := d * elemBits fq / 8
  let x := h / byteAt b 0x37
  let ks := (List.range n).map fun p => kvRow s kv fk d g (at_ 0x10) (at_ 0x18) p x
  let vs := (List.range n).map fun p =>
    let r := kvRow s kv fv d g (at_ 0x14) (at_ 0x1C) p x
    decodeRow fv d r.1 r.2
  culmAttend d fq fk (slice b (0x40 + h * qb) qb) ks vs (fld b 0x30 4)

/-- The partials of every query head of an ATTEND operation (R186). -/
def attendData (s : State) (o : COp) : Bytes :=
  (List.range (byteAt o.body 0x36 * byteAt o.body 0x37)).flatMap fun h => partialBytes (attendPart s o h)

/-- Whether an ATTEND operation's positions hold lost data (R192). -/
def attendLost (s : State) (o : COp) : Bool :=
  let b := o.body
  let kv := o.objs.headD 0
  let at_ (f : Nat) : Nat := withinObj kv (fld b f 4)
  let rows := fld b 0x28 4 * byteAt b 0x36
  let d := fld b 0x34 2
  let span (f off soff : Nat) : Bool :=
    objPoisoned s kv off (rows * rowBytes f d) || (fwScale f != 0 && objPoisoned s kv soff (rows * scaleBytes f d))
  span (fld b 0x20 4) (at_ 0x10) (at_ 0x18) || span (fld b 0x24 4) (at_ 0x14) (at_ 0x1C)

/-- CULM_ATTEND_OP (R184 to R186): the partials of every query head over the shard's positions. -/
def execCulmAttendOp (culm : Nat) (s : State) : Res := whileUp s <|
  match culmHead s culm 6 with
  | none => .next s
  | some o =>
    if !attendFormatsOk o then .next (endOp culm o St.formatUnsupported [] s)
    else if !attendOk o.body then .next (endOp culm o St.invalidField [] s)
    else
      let bad := attendLost s o
      .next (endOp culm o (if bad then St.poison else 0) (attendData s o) (if bad then poisonOp o s else s))

/-- CULM_RESULT_RETURN (R175, R178): the oldest result lands at the awn that issued the operation, by its tag, and the pins it took drop; an
ELEMENTWISE husk has one operation less to wait for. -/
def execCulmResultReturn (culm : Nat) (s : State) : Res := whileUp s <|
  match (culmOf s culm).results with
  | [] => .next s
  | r :: rs =>
    if !islandUp s (culmIsland culm) then .next s
    else
      let s := modCulm culm (fun u => { u with results := rs }) s
      match tabGet s.shv.reads r.1 with
      | none => .next s
      | some a =>
        let s := if r.2.1 = St.formatUnsupported || r.2.1 = St.invalidField then a.users.foldl (fun s u => markUser s (u, r.2.1)) s else s
        match a.husk with
        | some h =>
          let s := a.pins.foldl (fun s k => dropPin k s) s
          .next (modHusk h (fun x => { x with ops := x.ops - 1 }) (s.onShv fun v => { v with reads := tabDel v.reads r.1 }))
        | none => .next (landOne false s r.1 a)

/-! Spares (R190, R191). -/

/-- The lowest free spare of a stack: a physical slot 64 to 67 neither retired nor in use (R190). -/
def freeSpare (s : State) (stack : Nat) : Option Nat :=
  [64, 65, 66, 67].find? fun x => !s.stk.badCulms.contains (stack, x) &&
    !s.stk.culms.any fun u => u.1 % 8 == stack && u.2.phys == x && !u.2.unserved

/-- CULM_SUBSTITUTION (R190, R191): the held queue's pseudo-channel is switched to the lowest free spare and resumes; with
none left it is unserved, which is a detection. After a threshing run's pass it returns to its own slot (R381). -/
def execCulmSubstitution (culm : Nat) (s : State) : Res := whileUp s <|
  let u := culmOf s culm
  if !u.held then .next s
  else match u.back <|> freeSpare s (culm % 8) with
    | some x => .next (threshApplied 1 culm (modCulm culm (fun u => { u with phys := x, held := false, back := none }) s))
    | none =>
      .next (detect { kind := 3, cause := 0x22, unitKind := 3, island := culmIsland culm, unit := culm, physical := u.phys,
                      action := 2, spares := 0 } (modCulm culm (fun u => { u with unserved := true, held := false }) s))

/-- PSEUDO_CHANNEL_GRANT (R172): the controller serves the waiting kinds; where both wait, by bytes in the ratio 5 PHY to
3 culm. Its choice is an ordering token (R398). -/
def execPseudoChannelGrant (culm kinds bytes : Nat) (s : State) : Res := whileUp s <|
  if kinds = 0 || 3 < kinds then .next s
  else
    let s := modCulm culm (fun u =>
      let u := if u.waitSet = kinds then u else { u with waitSet := kinds, phyBytes := 0, culmBytes := 0, grants := 0 }
      let phy := kinds = 1 || (kinds = 3 && decide (3 * u.phyBytes ≤ 5 * u.culmBytes))
      { u with
        phyBytes := if phy then u.phyBytes + bytes else u.phyBytes
        culmBytes := if phy then u.culmBytes else u.culmBytes + bytes, grants := u.grants + 1 }) s
    .next (token 0x09 (culmIsland culm) (culm / 8) 4 ((culmOf s culm).grants % 2 ^ 30 + 2 ^ 30 * kinds) s)

end Sys2Proof.Machine
end

