-- ==== Sys2Proof/Machine/Clock.lean ====
section
/-! DEFINITION. The node's clock: what a step does while no command waits. Log entry 1. -/

namespace Sys2Proof.Machine
open Sys2Proof

/-- The tile clock of a profile, MHz (R33). -/
def profileMhz (g : Gen) : Nat := if genProfile g = 0 then 1700 else if genProfile g = 2 then 1300 else 1500

/-- The tile clock of a cluster: the profile's, lowered by the power envelope or a thermal throttle, 800 MHz in P1; 0 where
the cluster is off or in reset (R414, R428, R429, R458). -/
def tileMhz (s : State) (cl : Nat) : Nat :=
  if s.aon.off.contains (2 + cl) || s.aon.inReset.contains (2 + cl) then 0
  else if s.stew.pstate = 1 then 800
  else
    let c := min (profileMhz (gen s)) s.aon.capMhz
    ((s.aon.clusterMhz.find? fun p => p.1 == cl).map fun p => min p.2 c).getD c

/-- Whether a cluster's clock skips pulses: the envelope at its floor, or the cluster throttled to its floor and hot (R428, R458). -/
def pulsesSkip (s : State) (cl : Nat) : Bool :=
  s.aon.skipping || (s.aon.clusterMhz.any fun p => p.1 == cl && decide (p.2 ≤ 1300)) && decide (1520 ≤ hottest s (4 * cl) 4)

/-- Tile cycles that end in the present nanosecond, skipped pulses left out (R428). -/
def tileCycles (s : State) (cl : Nat) : Nat :=
  if pulsesSkip s cl && Config.pulseSkipped (now s) then 0
  else (now s + 1) * tileMhz s cl / 1000 - now s * tileMhz s cl / 1000

/-- Whether a tile's cycle goes to a swap or a re-role: its buffers are copied, or a swap waits with no batch running, or older batches are
finished before a new role (R51, R52). -/
def tileSwaps (s : State) (t : Nat) : Bool :=
  s.shv.switching.contains t || (tabGet s.shv.swapping t).any fun x => decide (32 ≤ x) || !tileRuns s t

/-- Whether a running batch, its data there, cannot hand its output on: a leaf's child buffer is not free (R132), the terminal stage waits,
an island on the way is down (R57). -/
def outputBlocked (s : State) (sh i k : Nat) (b : Batch) : Bool :=
  let d := itemsDesc s sh b.items
  let e := shStage d i
  if splitOn s e then !(unsent s sh i k b).isEmpty && (leafSend s sh i k b).isNone
  else if byteAt e 8 = 0xFF then terminalWaits s sh (sgBase e + k) b
  else !outUp s d i (sgBase e + k)

/-- The category of a stage's cycle, the first that applies (R63): 0 SWAP, 1 HOLD, 2 AWN_WAIT, 3 BLOCK, 4 STARVE, 5 SHARE, 6 BUSY. DESIGN
CHOICE (log entry 93): a stage that has a complete input batch and its output credit and has not started it counts SHARE. -/
def stageCategory (s : State) (sh i k t : Nat) : Nat :=
  let r := stageOf s (stKey sh i k)
  if tileSwaps s t then 0
  else match r.running with
    | some b =>
      if r.holdOn.isSome then 1
      else if !landedAll s sh i k b then 2
      else if outputBlocked s sh i k b then 3
      else 6
    | none =>
      match nextInput s sh i k with
      | none => 4
      | some b => if outputReady s sh (itemsDesc s sh b.items) i k b then 5 else 3

/-- A counter record with n cycles of a category. -/
def addCycles (cat n : Nat) (x : Stat) : Stat :=
  match cat with
  | 0 => { x with swap := (x.swap + n) % 2 ^ 64 }
  | 1 => { x with hold := (x.hold + n) % 2 ^ 64 }
  | 2 => { x with awnWait := (x.awnWait + n) % 2 ^ 64 }
  | 3 => { x with block := (x.block + n) % 2 ^ 64 }
  | 4 => { x with starve := (x.starve + n) % 2 ^ 64 }
  | 5 => { x with share := (x.share + n) % 2 ^ 64 }
  | _ => { x with busy := (x.busy + n) % 2 ^ 64 }

/-- Every stage tile of a sheaf counts the cycles of this nanosecond (R63, R64). -/
def countSheaf (s0 : State) (s : State) (d : Bytes) : State :=
  let sh := fld d 0 2
  (shEntries d).zipIdx.foldl (fun s e =>
    (List.range (sgWidth e.1)).foldl (fun s k =>
      let t := sgBase e.1 + k
      let n := tileCycles s0 (t / 16)
      if n = 0 then s else modStat (stKey sh e.2 k) (addCycles (stageCategory s0 sh e.2 k t) n) s) s) s

/-- One nanosecond passes (R418): the uptime counts, and with it the stage counters of every sheaf in force (R63).
Everything else that the spec lets happen at a time is a command of its own, sent when that time has come. -/
def tick (s : State) : State :=
  ((genSheaves (gen s)).foldl (countSheaf s) s).onAon fun a => { a with uptime := a.uptime + 1 }

end Sys2Proof.Machine
end

