-- ==== Sys2Proof/Machine/Mailbox.lean ====
section
/-! DEFINITION. Mailboxes and what every Zalpol command passes before it is carried out (R326 to R340). -/

namespace Sys2Proof.Machine
open Sys2Proof

/-! The page (R326, R327). -/

/-- Whether an access reaches a mailbox page: function 0's pages, or a VF's own. -/
def ownPage (s : State) (fn box : Nat) : Bool := fnAnswers s fn && fn == box
/-- The read-only view of a tenant's page in function 0. -/
def viewPage (s : State) (fn box : Nat) : Bool := fnAnswers s fn && fn == 0 && box != 0 && decide (box < 1024)
/-- The BAR0 offset of a function's own mailbox page. -/
def pageBase (fn : Nat) : Nat := if fn = 0 then 0x100000 else 0x1000

/-- A write discarded because IN_FULL is set (R330). -/
def mbxDiscard (box : Nat) (s : State) : State := accessError (modMbx box (fun m => { m with inDiscard := true }) s)

/-- MBX_WINDOW_WRITE: bytes at a page offset of the window go into the inbound area (R326, R330). -/
def execMbxWindowWrite (fn box off : Nat) (bytes : Bytes) (s : State) : Res :=
  if !fnAnswers s fn || s.aon.inReset.contains 59 then .next s
  else if stewardDown s then .next (mbxAbort s)
  else if viewPage s fn box then .next (accessError s)
  else if !ownPage s fn box || off < 0x40 || 0x1000 < off + bytes.length then .next s
  else if (mbxOf s box).inFull then .next (mbxDiscard box s)
  else .next (modMbx box (fun m => { m with inArea := putAt m.inArea (off - 0x40) bytes })
    (recordReg fn (pageBase fn + off) (leNat bytes) s))

/-- The inbound message as it stands: header and body (R331). -/
def inMessage (m : Mbx) : Bytes := slice m.inArea 0 (32 + min (fld m.inArea 8 4) 4000)

/-- MBX_DOORBELL_RING: IN_FULL sets and a wake event crosses to island 1; the message is an external input (R327, R328). -/
def execMbxDoorbellRing (fn box value : Nat) (s : State) : Res :=
  if !fnAnswers s fn || s.aon.inReset.contains 59 then .next s
  else if stewardDown s then .next (mbxAbort s)
  else if viewPage s fn box then .next (accessError s)
  else if !ownPage s fn box || !bitOf value 0 then .next s
  else
    let m := mbxOf s box
    if m.inFull then .next (mbxDiscard box s)
    else .next (wakeEvent (modMbx box (fun m => { m with inFull := true, inSince := now s })
      (stewardInt 0 (recordInput 6 box false (inMessage m) s))))

/-- MBX_STATUS_CLEAR: IN_DISCARD is write-1-to-clear. -/
def execMbxStatusClear (fn box value : Nat) (s : State) : Res :=
  if !fnAnswers s fn || s.aon.inReset.contains 59 then .next s
  else if stewardDown s then .next (mbxAbort s)
  else if viewPage s fn box then .next (accessError s)
  else if !ownPage s fn box then .next s
  else .next (modMbx box (fun m => { m with inDiscard := m.inDiscard && !bitOf value 3 })
    (recordReg fn (pageBase fn) value s))

/-- The value an MBX_RELEASE read returns where it releases a message. -/
def releaseValue (m : Mbx) : Nat := fld m.outArea 4 2 + 2 ^ 16 + 2 ^ 17 * b2n (bitOf (byteAt m.outArea 2) 1)

/-- MBX_RELEASE_READ: the receipt for the outbound message clears OUT_FULL; with a response, the mailbox is ready for its
next request (R326, R327). The view of function 0 never releases. -/
def execMbxReleaseRead (fn box : Nat) (s : State) : Res :=
  if !fnAnswers s fn || s.aon.inReset.contains 59 then .next s
  else if stewardDown s then .next (mbxAbort s)
  else if viewPage s fn box then .next (s.onHif fun h => { h with readData := 0 })
  else if !ownPage s fn box then .next s
  else
    let m := mbxOf s box
    let v := if m.outFull then releaseValue m else 0
    let s := (recordReg fn (pageBase fn + 0x10) v s).onHif fun h => { h with readData := v }
    if !m.outFull then .next s
    else .next (modMbx box (fun m => { m with
      outFull := false, req := if bitOf (byteAt m.outArea 2) 1 then m.req else none }) s)

/-! The checks of R332. -/

/-- Who may send a command: S the system mailbox, T a tenant or the system mailbox for it, K a secured session (R334). -/
inductive Sender where
  | sys
  | tenant
  | session
  deriving DecidableEq, Repr

/-- A command's request: sender, recovery command, body fields (offset, bytes) (R334). -/
abbrev ZSpec := Sender × Bool × List (Nat × Nat)

/-- The commands of R334. -/
def zSpec (code : Nat) : Option ZSpec :=
  match code with
  | 0x0110 => some (.tenant, false, [(0x20, 64)])
  | 0x0111 => some (.tenant, false, [(0x20, 2)])
  | 0x0112 => some (.tenant, true, [(0x20, 2)])
  | 0x0113 => some (.sys, false, [(0x20, 2), (0x22, 2), (0x24, 2), (0x26, 1)])
  | 0x0114 => some (.sys, false, [(0x20, 4), (0x24, 4), (0x28, 8), (0x30, 8), (0x38, 1)])
  | 0x0115 => some (.tenant, false, [(0x20, 8), (0x28, 8)])
  | 0x0801 => some (.sys, false, [(0x20, 1)])
  | 0x0201 => some (.sys, false, [(0x20, 8), (0x28, 4), (0x2C, 4), (0x30, 4)])
  | 0x0202 => some (.sys, true, [(0x20, 4)])
  | 0x0203 => some (.sys, false, [(0x20, 1), (0x28, 8), (0x30, 4)])
  | 0x0204 => some (.tenant, false, [(0x20, 2), (0x22, 1), (0x23, 1), (0x28, 8), (0x30, 4)])
  | 0x0205 => some (.tenant, false, [(0x20, 8), (0x28, 1), (0x29, 1), (0x30, 8), (0x38, 4)])
  | 0x0301 | 0x0302 => some (.tenant, false, [(0x20, 64)])
  | 0x0303 | 0x0304 => some (.tenant, false, [(0x20, 2)])
  | 0x0305 => some (.tenant, false, [(0x20, 8), (0x28, 1), (0x2C, 4), (0x30, 4), (0x38, 8), (0x40, 8), (0x48, 1)])
  | 0x0310 => some (.tenant, false, [(0x20, 8), (0x28, 8), (0x30, 2), (0x34, 4), (0x38, 8)])
  | 0x0311 => some (.tenant, false, [(0x20, 8), (0x28, 4), (0x2C, 4), (0x30, 8)])
  | 0x0320 => some (.tenant, false, [(0x20, 8)])
  | 0x0321 => some (.tenant, false, [(0x20, 8), (0x28, 2)])
  | 0x0330 => some (.tenant, false, [])
  | 0x0331 | 0x0332 => some (.tenant, false, [(0x20, 4)])
  | 0x0401 => some (.sys, false, [(0x20, 1), (0x21, 1), (0x22, 2), (0x24, 4)])
  | 0x0402 => some (.sys, false, [(0x20, 8), (0x28, 4)])
  | 0x0403 | 0x0404 | 0x0405 => some (.sys, false, [(0x20, 1)])
  | 0x0406 => some (.sys, false, [(0x20, 1), (0x21, 1), (0x22, 1), (0x23, 1)])
  | 0x0407 => some (.session, false, [(0x20, 64)])
  | 0x0408 => some (.session, false, [])
  | 0x0410 => some (.sys, false, [(0x20, 8), (0x28, 4)])
  | 0x0411 => some (.sys, false, [(0x20, 1)])
  | 0x0501 => some (.sys, false, [(0x20, 1), (0x22, 2), (0x24, 1), (0x25, 1), (0x26, 1), (0x28, 4), (0x2C, 4)])
  | 0x0502 => some (.sys, false, [(0x20, 4)])
  | 0x0503 | 0x0504 => some (.sys, false, [(0x20, 8), (0x28, 8), (0x30, 4)])
  | 0x0505 => some (.sys, false, [(0x20, 8), (0x28, 8), (0x30, 8)])
  | 0x0506 => some (.sys, false, [(0x20, 8), (0x28, 8)])
  | 0x0601 => some (.tenant, false, [])
  | 0x0701 => some (.sys, true, [(0x20, 1)])
  | 0x0702 => some (.sys, false, [])
  | _ => none

/-- Where a command's body ends, from the start of the message (R332). -/
def bodyEnd (fs : List (Nat × Nat)) : Nat := 0x20 + roundUp (((fs.getLast?).map fun f => f.1 + f.2 - 0x20).getD 0) 8

/-- The reserved gaps of a body: (offset, bytes). -/
def bodyGaps (at_ : Nat) (stop : Nat) : List (Nat × Nat) → List (Nat × Nat)
  | [] => if at_ < stop then [(at_, stop - at_)] else []
  | f :: fs => (if at_ < f.1 then [(at_, f.1 - at_)] else []) ++ bodyGaps (f.1 + f.2) stop fs

/-- Header and reserved fields in offset order (R15, R332). -/
def headerChecks (z : ZSpec) (m : Bytes) : List Chk :=
  [(2, zeroAt m 2 1), (3, zeroAt m 3 1), (6, decide (fld m 6 2 < 1024)), (8, decide (fld m 8 4 ≤ 4000)),
   (0x0C, zeroAt m 0x0C 2), (0x0E, zeroAt m 0x0E 2), (0x10, (fld m 0x10 8 == 0) == !z.2.1), (0x18, zeroAt m 0x18 8)] ++
  (bodyGaps 0x20 (bodyEnd z.2.2) z.2.2).map fun g => (g.1, zeroAt m g.1 g.2)

/-- The reads that RECOVERY accepts, which a replay answers too (R333, R410). -/
def recoveryReads : List Nat := [0x0204, 0x0205, 0x0320, 0x0332, 0x0304, 0x0403, 0x0406, 0x0502, 0x0503, 0x0504, 0x0601, 0x0702]

/-- Whether the node's state accepts a command (R333). -/
def stateAccepts (s : State) (box code : Nat) (m : Bytes) : Bool :=
  match s.stew.st with
  | .start => code == 0x0115 || (s.stew.rom && box == 0 && (code == 0x0410 || code == 0x0411))
  | .standby => true
  | .service => code != 0x0506
  | _ => ([0x0112, 0x0202, 0x0701, 0x0115] ++ recoveryReads).contains code || (code == 0x0801 && byteAt m 0x20 == 0)

/-- The first failing check of R332: status and detail. -/
def requestBad (s : State) (box : Nat) (m : Bytes) : Option (Nat × Nat) :=
  let code := fld m 0 2
  match zSpec code with
  | none => some (St.invalidOpcode, 0)
  | some z =>
    match firstBad (headerChecks z m) with
    | some off => some (St.invalidField, off)
    | none =>
      if 0x20 + fld m 8 4 != bodyEnd z.2.2 then some (St.invalidField, 8)
      else if z.1 == .session || (z.1 == .sys && box != 0) || (box != 0 && fld m 6 2 != box) then some (St.accessViolation, 0)
      else if s.recd.replaying && !recoveryReads.contains code then some (St.busy, 0)
      else if !stateAccepts s box code m then some (St.nodeState, 0)
      else if z.2.1 && ((mbxOf s box).recSeq.any fun r => decide (fld m 0x10 8 < r)) then some (St.recoveryStale, 0)
      else none

/-! The Steward (R327 to R330, R339). -/

/-- A response to a request in hand, by header alone. -/
def answerOf (m : Bytes) (status detail : Nat) (body : Bytes) : Bytes :=
  mailMsg (fld m 0 2) 1 (fld m 4 2) (fld m 6 2) status detail (fld m 0x10 8) body

/-- Whether a mailbox has a request the Steward may take: complete, its last response released (R327). -/
def mbxReady (m : Mbx) : Bool := m.inFull && m.req.isNone

/-- The mailbox the Steward serves next (its boot program serves the system mailbox alone, R448): an urgent one, else, where the tenant's bucket lets it pass,
the next in tenant order after the last (R328, R363, R365). -/
def nextMailbox (s : State) : Option Nat :=
  let all := (s.stew.mbx.filter fun p => mbxReady p.2 && (!s.stew.rom || p.1 == 0)).map Prod.fst
  let ready := if s.stew.busy then all else all.filter (bucketOk s 0)
  match s.fab.urgent.find? fun u => u.1 == 0 && decide (4096 ≤ u.2) && all.contains (u.2 - 4096) with
  | some u => some (u.2 - 4096)
  | none =>
    match ready.find? (s.stew.lastServed < ·) with
    | some t => some t
    | none => ready.head?

/-- A request taken out of the inbound area with what answers it. -/
def takeInto (box : Nat) (r : ZReq) (s : State) : State := modMbx box (fun m => { m with inFull := false, req := some r }) s

/-- MBX_REQUEST_TAKE (R328, R330, R332, R339): the Steward takes the next request, checks it and answers or carries it out;
while it restarts, the mailbox hardware answers BUSY. -/
def execMbxRequestTake (s : State) : Res := whileUp s <|
  if stewardDown s || quiescing s || ringFull s then .next s
  else match nextMailbox s with
    | none => .next s
    | some t =>
      let m := inMessage (mbxOf s t)
      if s.stew.busy then .next (takeInto t { msg := m, at_ := now s, resp := some (answerOf m St.busy 0 []) } s)
      else
        let s := (bucketCharge 0 t 1 (token 0x02 1 0 2 t (s.onFab fun f => { f with
          urgent := f.urgent.filter (· != (0, 4096 + t)) }))).onStew fun w => { w with lastServed := t }
        let b := mbxOf s t
        match requestBad s t m with
        | some (st, d) => .next (takeInto t { msg := m, at_ := now s, resp := some (answerOf m st d []) } s)
        | none =>
          let rec_ := ((zSpec (fld m 0 2)).map fun z => z.2.1).getD false
          if rec_ && b.recSeq == some (fld m 0x10 8) then
            .next (takeInto t { msg := m, at_ := now s, resp := some (putAt b.recResp 4 (slice m 4 2)) } s)
          else .next (takeInto t { msg := m, at_ := now s, passed := true } s)

/-- MBX_RESPONSE_POST (R327 step 4). -/
def execMbxResponsePost (box : Nat) (s : State) : Res := whileUp s <|
  let m := mbxOf s box
  match m.req.bind ZReq.resp with
  | none => .next s
  | some r =>
    if m.outFull || stewardDown s then .next s
    else .next (mailMsi box (modMbx box (fun m => { m with outArea := r, outFull := true }) s))

/-- MBX_EVENT_DELIVER (R327, R337): the oldest event, with the count of events lost since the one before. -/
def execMbxEventDeliver (box : Nat) (s : State) : Res := whileUp s <|
  let m := mbxOf s box
  match m.events with
  | [] => .next s
  | e :: es =>
    if m.outFull || stewardDown s || s.stew.busy then .next s
    else .next (mailMsi box (modMbx box (fun m => { m with
      outArea := putAt e 0x0E (toLe 2 m.lost), outFull := true, events := es, lost := 0 }) s))

/-! Carrying out. -/

/-- The islands a Zalpol command's work needs beside the Steward's own: flash for media commands, the husk engine for
husks, host interface for queue, vector and window commands, the log for log and recording reads (R329). -/
def zDomains (code : Nat) : List Nat :=
  if inRange code 0x0110 0x0114 then [59]
  else if [0x0201, 0x0202, 0x0301, 0x0302, 0x0303, 0x0310, 0x0311, 0x0330, 0x0331, 0x0332].contains code then [61]
  else if code == 0x0320 || code == 0x0321 then [36]
  else if code == 0x0304 || code == 0x0305 then [36, 61]
  else if inRange code 0x0401 0x0406 then [47, 48, 49, 50, 51, 52, 53, 54]
  else if code == 0x0504 then [62]
  else if code == 0x0505 || code == 0x0506 then [38]
  else []

/-- Whether an island is in reset or powered off. -/
def domainDown (s : State) (i : Nat) : Bool := s.aon.inReset.contains i || s.aon.off.contains i

/-- A Zalpol command to be carried out: taken, passed, not answered, with no husk formed yet, its domains up (R329). -/
def zReady (s : State) (box code : Nat) : Option Bytes :=
  match (mbxOf s box).req with
  | some r =>
    if r.passed && r.resp.isNone && fld r.msg 0 2 == code && !s.stew.busy &&
      !(s.eng.husks.any fun h => h.2.mbx == some box) && !(zDomains code).any (domainDown s) then some r.msg else none
  | none => none

/-- Carries out a Zalpol command whose turn it is. -/
def onZalpol (box code : Nat) (s : State) (k : Bytes → State → State) : Res :=
  match zReady s box code with
  | some m => .next (k m s)
  | none => .next s

/-- The tenant a command acts for (R331). -/
def zTenant (m : Bytes) : Nat := fld m 6 2 % 1024

/-- The answer of a failed check: status, detail. -/
def zFail (box status detail : Nat) (s : State) : State := zRespond box status detail [] s

/-- The answer of a command's own field checks, or what follows. -/
def zChecked (box : Nat) (l : List Chk) (s : State) (k : State → State) : State :=
  match firstBad l with
  | some off => zFail box St.invalidField (min off 0xFFFF) s
  | none => k s

/-- A husk-forming Zalpol command's husk, or the status that refuses it. -/
def zHusk (box : Nat) (x : Husk) (s : State) : State :=
  match huskRefusal s x.tenant (x.binder.map Prod.fst) with
  | some st => zFail box st 0 s
  | none => formHusk { x with mbx := some box } s

/-- Host data a Zalpol command read by DMA, recorded under queue pair 0xFFF and its sequence (R76, R399). -/
def zData (m data : Bytes) (s : State) : State := recordData 0xFFF (fld m 4 2) data false s

/-- MBX_DOMAIN_DOWN_TIMEOUT (R329): a command that has waited 1 s for a domain ends without effect, unless its husk is
committing. -/
def execMbxDomainDownTimeout (box : Nat) (s : State) : Res := whileUp s <|
  match (mbxOf s box).req with
  | none => .next s
  | some r =>
    if !r.passed || r.resp.isSome || !(zDomains (fld r.msg 0 2)).any (domainDown s) || now s < r.at_ + 10 ^ 9 then .next s
    else match s.eng.husks.find? fun h => h.2.mbx == some box with
      | none => .next (zFail box St.mbxDomainDown 0 s)
      | some p => .next (if stopFails p.2.hstate then failHusk p.1 { st := St.mbxDomainDown } s else s)

end Sys2Proof.Machine
end

