-- ==== Sys2Proof/Machine/GenCmds.lean ====
section
/-! DEFINITION. Generation images: layout, checks and the commands that apply, roll back and read generations (R42 to R44, R65,
R439 to R445). -/

namespace Sys2Proof.Machine
open Sys2Proof

/-! The image (R439, R440). -/

/-- The content of a section type of a generation. -/
def genSection (g : Gen) (t : Nat) : Bytes :=
  match t with
  | 1 => g.node | 2 => g.tenants | 3 => g.pools | 4 => g.t4 | 5 => g.buckets | 6 => g.sheaves | _ => g.keys
/-- Bytes of one entry of a section type. -/
def sectionEntry (t : Nat) : Nat :=
  match t with
  | 1 => 64 | 2 => 8 | 3 => 24 | 4 => 32 | 5 => 24 | 6 => 1088 | _ => 48

/-- Directory entries of an image: (type, offset, bytes, count, where the entry stands). -/
def imageDir (b : Bytes) : List (Nat × Nat × Nat × Nat × Nat) :=
  (List.range (fld b 6 2)).map fun i =>
    let o := 32 + 16 * i
    (fld b o 2, fld b (o + 4) 4, fld b (o + 8) 4, fld b (o + 12) 4, o)

/-- Step 1 of R443: magic, format, length, checksum, sections inside the image. -/
def imageWhole (b : Bytes) (n : Nat) : Bool :=
  fld b 0 4 == 0x4E454747 && fld b 4 2 == 1 && fld b 0x10 4 == n && b.length == n &&
    fld b 0x14 4 == crc32c (putAt b 0x14 (zeros 4)) && decide (32 + 16 * fld b 6 2 ≤ n) &&
    (imageDir b).all fun d => decide (d.2.1 + d.2.2.1 ≤ n)

/-- A generation made of an image: absent types as in the base (R440). -/
def genOf (base : Gen) (b : Bytes) : Gen :=
  let sec (t : Nat) : Bytes :=
    match (imageDir b).find? fun d => d.1 == t with
    | some d => slice b d.2.1 d.2.2.1
    | none => genSection base t
  { number := fld b 8 4, base := fld b 0x0C 4, node := sec 1, tenants := sec 2, pools := sec 3, t4 := sec 4, buckets := sec 5,
    sheaves := sec 6, keys := sec 7 }

/-- The image of a whole generation, every type present (R440). -/
def genImage (g : Gen) : Bytes :=
  let place := (List.range 7).foldl (fun (a : List (Nat × Bytes) × Nat) i =>
    let c := genSection g (i + 1)
    (a.1 ++ [(a.2, c)], roundUp (a.2 + c.length) 64)) (([] : List (Nat × Bytes)), 192)
  let dir := place.1.zipIdx.flatMap fun p =>
    toLe 2 (p.2 + 1) ++ zeros 2 ++ toLe 4 p.1.1 ++ toLe 4 p.1.2.length ++ toLe 4 (p.1.2.length / sectionEntry (p.2 + 1))
  let data := place.1.foldl (fun b p => slice b 0 p.1 ++ p.2) ([] : Bytes)
  let head := toLe 4 0x4E454747 ++ toLe 2 1 ++ toLe 2 7 ++ toLe 4 g.number ++ toLe 4 g.base ++ toLe 4 data.length ++ zeros 12
  let b := putAt (putAt data 0 head) 32 dir
  putAt b 0x14 (toLe 4 (crc32c b))

/-! Field ranges and reserved fields (R443 step 3). -/

/-- A field that may be 0 for its default. -/
def orZero (v lo hi : Nat) : Bool := v == 0 || inRange v lo hi

/-- NODE (R441). -/
def nodeChecks (b : Bytes) : List Chk :=
  [(0, decide (fld b 0 2 < 2 ^ 14)), (2, inRange (fld b 2 2) 1 16384), (4, decide (fld b 4 2 < 2 ^ 14)),
   (6, decide (fld b 6 2 < 2 ^ 14)), (8, decide (byteAt b 8 < 4)), (9, orZero (byteAt b 9) 4 64),
   (0x0C, orZero (fld b 0x0C 4) 10 1000), (0x10, orZero (fld b 0x10 4) 256 16384), (0x14, orZero (fld b 0x14 4) 10 3600),
   (0x18, orZero (fld b 0x18 4) 1 3600), (0x1C, [0, 1024, 2048, 4096, 8192].contains (fld b 0x1C 2)),
   (0x1E, decide (fld b 0x1E 2 ≤ 1000)), (0x20, orZero (fld b 0x20 4) 256 8192), (0x24, decide (byteAt b 0x24 ≤ 100)),
   (0x25, decide (byteAt b 0x25 ≤ 100)), (0x26, decide (fld b 0x26 2 ≤ 100)),
   (0x28, (List.range 4).all fun i => decide (byteAt b (0x28 + i) < 64)),
   (0x2C, decide (fld b 0x2C 4 < 256) && (List.range 4).all fun p => bitsOf (fld b 0x2C 4) (2 * p) 2 != 3),
   (0x30, orZero (fld b 0x30 8) 16 4000), (0x38, orZero (fld b 0x38 8) 100 16000)]

/-- Instances of a bucket row (R362). -/
def bucketCount (row : Nat) : Nat :=
  match row with
  | 0 => 1024 | 1 => 4096 | 2 => 1024 | 3 => 4096 | 4 => 32 | 5 => 1024 | 6 => 5 | _ => 0

/-- Two T4 windows of one endpoint overlap. -/
def windowsMeet (a b : Bytes) : Bool :=
  fld a 0 2 == fld b 0 2 && decide (fld a 8 8 < fld b 8 8 + fld b 0x10 8) && decide (fld b 8 8 < fld a 8 8 + fld a 0x10 8)

/-- One entry of a section against those before it. -/
def sectionChecks (t : Nat) (before : List Bytes) (b : Bytes) : List Chk :=
  let fresh (n : Nat) : Bool := before.all fun r => slice r 0 n != slice b 0 n
  match t with
  | 1 => nodeChecks b
  | 2 => [(0, decide (fld b 0 2 < 1024) && fresh 2), (2, decide (byteAt b 2 < 2)), (3, decide (byteAt b 3 ≤ 64)),
      (4, decide (fld b 4 2 + byteAt b 3 ≤ 4096)), (6, zeroAt b 6 2)]
  | 3 => [(0, decide (fld b 0 2 < 1024) && fresh 3), (2, decide (byteAt b 2 ≤ 4)), (3, zeroAt b 3 5),
      (8, decide (fld b 8 8 ≤ fld b 0x10 8))]
  | 4 => [(0, decide (fld b 0 2 < 2 ^ 14) && before.all fun r => !windowsMeet r b), (2, zeroAt b 2 6), (0x18, zeroAt b 0x18 8)]
  | 5 => [(0, decide (fld b 0 4 / 256 < bucketCount (byteAt b 0)) && fresh 4), (4, zeroAt b 4 4),
      (0x10, decide (1 ≤ fld b 0x10 4)), (0x14, decide (1 ≤ fld b 0x14 2)), (0x16, zeroAt b 0x16 2)]
  | 7 => [(0, decide (fld b 0 2 < 1024) && fresh 2), (2, zeroAt b 2 6)]
  | _ => []

/-- Role parameters (R44). -/
def roleChecks (e : Bytes) : List Chk :=
  let dims := inRange (fld e 0x2C 2) 32 8192 && fld e 0x2C 2 % 32 == 0
  let rest (o : Nat) : Chk := (o, zeroAt e o (0x40 - o))
  match sgRole e with
  | 1 => [(0x28, isElem (byteAt e 0x28)), (0x29, isElem (byteAt e 0x29)), (0x2A, decide (byteAt e 0x2A ≤ 2)), (0x2B, zeroAt e 0x2B 1),
      (0x2C, dims), (0x2E, inRange (fld e 0x2E 2) 1 1024), (0x30, inRange (fld e 0x30 4) 1 1048576), rest 0x34]
  | 2 => [(0x28, inRange (byteAt e 0x28) 6 10), (0x29, zeroAt e 0x29 1), (0x2A, inRange (fld e 0x2A 2) 1 64),
      (0x2C, decide (fld e 0x2C 2 ≤ 2 ^ byteAt e 0x28)), rest 0x2E]
  | 3 => [(0x28, inRange (byteAt e 0x28) 1 64), (0x29, inRange (byteAt e 0x29) 1 16), (0x2A, decide (byteAt e 0x2A ≤ 1)),
      (0x2B, decide (byteAt e 0x2B ≤ 1)), rest 0x2C]
  | 4 => [(0x28, isElem (byteAt e 0x28)), (0x29, isElem (byteAt e 0x29)), (0x2A, decide (byteAt e 0x2A ≤ 2)), (0x2B, zeroAt e 0x2B 1),
      (0x2C, dims), rest 0x2E]
  | 5 => [(0x28, isElem (byteAt e 0x28)), (0x29, decide (byteAt e 0x29 ≤ 3)), (0x2A, inRange (fld e 0x2A 2) 1 1024), rest 0x30]
  | 6 => [(0x28, inRange (byteAt e 0x28) 1 64), (0x29, isElem (byteAt e 0x29)), rest 0x2A]
  | 7 => [(0x28, isElem (byteAt e 0x28)), (0x29, isElem (byteAt e 0x29)), (0x2A, decide (byteAt e 0x2A ≤ 2)),
      (0x2B, decide (byteAt e 0x2B ≤ 2)), (0x2C, decide (byteAt e 0x2C ≤ 1)),
      (0x2D, decide (byteAt e 0x2D ≤ 1)), rest 0x2E]
  | _ => [(0x28, decide (byteAt e 0x28 ≤ 1)), (0x29, decide (byteAt e 0x29 ≤ 1)), rest 0x2A]

/-- A stage entry of a sheaf of n stages (R43). -/
def stageChecks (n : Nat) (e : Bytes) : List Chk :=
  let slot (o : Nat) : Bool := fld e o 4 % 256 == 0 && inRange (fld e o 4) 256 262144
  let succ (o : Nat) : Bool := decide (byteAt e o < n) || byteAt e o == 0xFF
  [(0, inRange (byteAt e 0) 1 8), (1, decide (byteAt e 1 < 16)), (2, decide (fld e 2 2 < 512)), (4, inRange (byteAt e 4) 1 32),
   (5, inRange (byteAt e 5) 1 64), (6, inRange (byteAt e 6) 2 64), (7, zeroAt e 7 1), (8, succ 8),
   (9, succ 9 && (byteAt e 8 != 0xFF || byteAt e 9 == 0xFF)), (0x0A, zeroAt e 0x0A 2), (0x0C, slot 0x0C), (0x10, slot 0x10),
   (0x14, fld e 0x14 4 % 4096 == 0 && decide (16384 ≤ fld e 0x14 4)), (0x18, fld e 0x18 4 % 256 == 0),
   (0x1C, zeroAt e 0x1C 4)] ++ roleChecks e

/-- A sheaf descriptor's header (R42). -/
def sheafHeadChecks (before : List Bytes) (d : Bytes) : List Chk :=
  let n := byteAt d 0x10
  [(0, decide (fld d 0 2 < 256) && before.all fun r => fld r 0 2 != fld d 0 2), (2, decide (fld d 2 2 < 1024)),
   (4, inRange (byteAt d 4) 2 16), (5, decide (byteAt d 5 < 4)), (6, inRange (fld d 6 2) 1 1024),
   (8, decide (fld d 8 4 ≤ 1000000)),
   (0x0C, if shDeadlineOn d then inRange (fld d 0x0C 4) 1 1000000 else zeroAt d 0x0C 4),
   (0x10, decide (n ≤ 15) && (shShared d || n == 0)), (0x11, zeroAt d 0x11 15)] ++
  ((List.range 15).map fun i => (0x20 + 2 * i, if i < n then decide (fld d (0x20 + 2 * i) 2 < 1024) else zeroAt d (0x20 + 2 * i) 2)) ++
  [(0x3E, zeroAt d 0x3E 2)]

/-- What rejects a generation: status, detail, and the sheaf and stage it names. -/
structure GenBad where
  st : Nat := 0
  detail : Nat := 0
  sheaf : Nat := 0xFFFF
  stage : Nat := 0xFF
  deriving DecidableEq, Repr

/-- The first bad field of a sheaf descriptor that stands at an offset of the image. -/
def sheafField (at_ : Nat) (before : List Bytes) (d : Bytes) : Option GenBad :=
  let bad (o : Nat) (i : Nat) : GenBad := { st := St.invalidField, detail := min (at_ + o) 0xFFFF, sheaf := fld d 0 2, stage := i }
  match firstBad (sheafHeadChecks before d) with
  | some o => some (bad o 0xFF)
  | none => (List.range 16).findSome? fun i =>
      let e := shStage d i
      (firstBad (if i < shStages d then stageChecks (shStages d) e else [(0, zeroAt e 0 64)])).map fun o => bad (0x40 + 64 * i + o) i

/-- The first bad field of one section. -/
def sectionBad (b : Bytes) (d : Nat × Nat × Nat × Nat × Nat) : Option GenBad :=
  let (t, off, n, _, _) := d
  let es := records (sectionEntry t) (slice b off n)
  es.zipIdx.findSome? fun e =>
    let at_ := off + e.2 * sectionEntry t
    let before := es.take e.2
    if t = 6 then sheafField at_ before e.1
    else (firstBad (sectionChecks t before e.1)).map fun o => { st := St.invalidField, detail := min (at_ + o) 0xFFFF }

/-- Header and directory fields of an image. -/
def dirChecks (b : Bytes) : List Chk :=
  let ds := imageDir b
  [(6, inRange (fld b 6 2) 1 7), (0x18, zeroAt b 0x18 8)] ++ ds.zipIdx.flatMap fun p =>
    let (t, off, n, cnt, o) := p.1
    [(o, inRange t 1 7 && (ds.take p.2).all fun x => x.1 != t), (o + 2, zeroAt b (o + 2) 2), (o + 4, off % 64 == 0 && decide (32 + 16 * ds.length ≤ off)),
     (o + 8, n == cnt * sectionEntry t && (t != 1 || cnt == 1)), (o + 12, t != 6 || decide (cnt ≤ 0xFFFF))]

/-- Step 3 of R443. -/
def imageFields (b : Bytes) : Option GenBad :=
  match firstBad (dirChecks b) with
  | some o => some { st := St.invalidField, detail := min o 0xFFFF }
  | none => (imageDir b).findSome? (sectionBad b)

/-! The checks of a whole generation (R443 steps 4 to 6). -/

/-- Step 4: queue-pair ranges overlap, or a queue pair that is not DISABLED would be removed or moved. -/
def queuesBad (s : State) (g : Gen) : Bool :=
  let ps := genPairs g
  (nub (ps.map Prod.fst)).length != ps.length ||
    s.hif.qps.any fun q => q.2.qstate != .disabled &&
      !(ps.contains (q.1, q.2.tenant) && (genQps g q.2.tenant).1 == (genQps (gen s) q.2.tenant).1)

/-- Whether a path of a sheaf returns to a stage it has left: a stage reaches itself. -/
def sheafCycles (d : Bytes) (i : Nat) : Bool := ((shPreds d i).flatMap fun p => upTo d p).contains i

/-- Whether a stage breaks the shape of R45: stage 0 without and every other with predecessors, at most four, reached from
stage 0 and reaching the one terminal stage. -/
def stageUnreachable (d : Bytes) (i : Nat) : Bool :=
  let n := (shPreds d i).length
  let ends := (List.range (shStages d)).filter fun j => byteAt (shStage d j) 8 == 0xFF
  (n == 0) != (i == 0) || decide (4 < n) || !(upTo d i).contains 0 || ends.length != 1 || !(upTo d (ends.headD 0)).contains i

/-- Stages on a tile: (sheaf, stage entry). -/
def tileStages (g : Gen) (t : Nat) : List (Nat × Bytes) :=
  (genSheaves g).flatMap fun d =>
    ((shEntries d).filter fun e => decide (sgBase e ≤ t) && decide (t < sgBase e + sgWidth e)).map fun e => (fld d 0 2, e)

/-- Whether a stage's tiles conflict (R50, R65, R377, R378). -/
def tilesConflict (s : State) (g : Gen) (sh : Nat) (e : Bytes) : Bool :=
  decide (512 < sgBase e + sgWidth e) || (sgTiles e).any fun t =>
    let on := tileStages g t
    s.shv.absent.contains t || decide (1 < (on.filter fun p => p.1 == sh).length) || decide (4 < on.length) ||
      (on.any fun p => sgRole p.2 != sgRole e) || (sgRole e == 6 && decide (1 < on.length))

/-- Bytes of T0 copies on a tile that cannot be evicted, since they are pinned (R38). -/
def pinnedT0 (s : State) (t : Nat) : Nat :=
  (s.obj.recs.map fun p => if hasUpper p.2 && p.2.upper == 0 && p.2.placeUp % 512 == t && decide (0 < pinsAll p.2) then p.2.size else 0).sum

/-- Whether an EXPERT stage's standing table has operands of 16 bits (R37, R65). -/
def expertsWide (s : State) (e : Bytes) : Bool :=
  let t := fld e 0x20 8
  let hd := exHeader s t s.eng.epoch
  t != 0 && (isWide (fwElem (xhAct hd)) ||
    (List.range (xhCount hd)).any fun i => isWide (fwElem (xdFormat (exDesc s t i s.eng.epoch))))

/-- Whether a role refuses a stage's formats or flags (R37, R44, R65, R78, R81): a CONVERT stage chooses no scale for UINT8 and UINT4,
nor for B1 (log entry 87). -/
def formatsBad (s : State) (e : Bytes) : Bool :=
  let r := sgRole e
  let a := byteAt e 0x28
  let b := byteAt e 0x29
  ((r == 1 || r == 4) && (!isMac a || !isMac b || isInt a != isInt b)) || ((r == 5) && a == 13) || ((r == 6) && b == 13) ||
    (r == 7 && byteAt e 0x2A != 0 && [10, 12, 13].contains b) ||
    (sgSparse e && (!(r == 1 || r == 6) || (r == 1 && [a, b].any isWide) || (r == 6 && expertsWide s e))) ||
    (sgDot e && !(r == 1 || r == 4)) || (sgSplit e && !(r == 1 || r == 2)) || (sgCulm e && r != 2)

/-- Whether a deadline sheaf's fallback experts are in T1 (R65, R157). -/
def fallbacksResident (s : State) (e : Bytes) : Bool :=
  let t := fld e 0x20 8
  t == 0 || (List.range (xhCount (exHeader s t s.eng.epoch))).all fun i =>
    let x := exDesc s t i s.eng.epoch
    !xdHasFb x || expertDirect s (exDesc s t (xdFallback x) s.eng.epoch)

/-- Steering entries in force that name a sheaf: (tenant, sheaf). -/
def steered (s : State) : List (Nat × Nat) :=
  (nub ((s.idx.vers.filter fun v => v.table == steerHandle).map TVer.index)).filterMap fun i =>
    let v := steerEntry s i s.eng.epoch
    if bitOf v 9 then some (i / 1024, v % 256) else none

/-- The first sheaf and stage for which a check fails. -/
def firstStage (g : Gen) (st : Nat) (f : Bytes → Nat → Bool) : Option GenBad :=
  (genSheaves g).findSome? fun d => ((List.range (shStages d)).find? (f d)).map fun i =>
    { st := st, sheaf := fld d 0 2, stage := i }

/-- R65's last row: unassigned owners and listed tenants, a privileged PACK slot, steering entries left without a sheaf. -/
def sharingBad (s : State) (g : Gen) : Option GenBad :=
  let st := St.sheafNotShared
  ((genSheaves g).findSome? fun d =>
    if (shOwner d :: (if shShared d then shShareList d else [])).any fun t => !genAssigned g t then some { st := st, sheaf := fld d 0 2 }
    else ((List.range (shStages d)).find? fun i => sgRole (shStage d i) == 8 && byteAt (shStage d i) 0x29 == 1 && shOwner d != 0).map
      fun i => { st := st, sheaf := fld d 0 2, stage := i }) <|>
  (steered s).findSome? fun p =>
    match genSheaf g p.2 with
    | some d => if shAllows d p.1 then none else some { st := st, sheaf := p.2 }
    | none => some { st := st, sheaf := p.2 }

/-- Node slots the SPLIT stages of a generation reserve: two at every engine above a tile (R131). -/
def stookSlots (g : Gen) : Nat :=
  (((genSheaves g).flatMap shEntries).filter sgSplit).foldl (fun n e =>
    let l1 := nub ((sgTiles e).map (· / 8))
    n + 2 * (l1.length + (nub (l1.map (· / 8))).length + 1)) 0

/-- A tier's pool under a generation (R229, R240). -/
def poolUnder (s : State) (g : Gen) (tier : Nat) : Nat :=
  match tier with
  | 0 => ((List.range 512).map fun t => if s.shv.absent.contains t then 0 else 720896 - tileBuffers g t).sum
  | 1 => t1Cap g
  | 2 => t2Cap s
  | 3 => t3Cap s
  | _ => ((genT4 g).map fun w => w.2.2).sum

/-- Whether the shares of a tier exceed its pool (R240). -/
def sharesBad (s : State) (g : Gen) : Bool :=
  (List.range 5).any fun tier =>
    decide (poolUnder s g tier < (((records 24 g.pools).filter fun r => byteAt r 2 == tier).map fun r => fld r 8 8).sum)

/-- R65 in table order, then R131. -/
def sheavesBad (s : State) (g : Gen) : Option GenBad :=
  (if 256 < (genSheaves g).length then some { st := St.sheafLimit } else none) <|>
  firstStage g St.sheafCycle sheafCycles <|>
  firstStage g St.sheafUnreachable stageUnreachable <|>
  firstStage g St.tileConflict (fun d i => tilesConflict s g (fld d 0 2) (shStage d i)) <|>
  firstStage g St.sramOvercommit (fun d i => (sgTiles (shStage d i)).any fun t =>
    decide (720896 < tileBuffers g t + pinnedT0 s t)) <|>
  firstStage g St.formatUnsupported (fun d i => formatsBad s (shStage d i)) <|>
  firstStage g St.fallbackNotResident (fun d i => shDeadlineOn d && sgRole (shStage d i) == 6 && !fallbacksResident s (shStage d i)) <|>
  sharingBad s g <|>
  (if 3328 < stookSlots g then some { st := St.stookOvercommit } else none)

/-- Whether a generation enters Trace. -/
def entersTrace (s : State) (g : Gen) : Bool := genProfile g == 3 && genProfile (gen s) != 3

/-- Steps 4 to 6 of R443, those of R34 and R400 for a generation that enters Trace; the evictor then frees the space the
generation needs (R34, R38). -/
def generationBad (g : Gen) (s : State) : Except GenBad State :=
  if queuesBad s g then .error { st := St.queueState }
  else match sheavesBad s g with
    | some b => .error b
    | none =>
      if sharesBad s g then .error { st := St.insufficientCapacity }
      else
        if !ringThere s g || (entersTrace s g && decide (t2Cap s < poolUsed s 2 none - objSize s s.obj.spillH + genSpill g)) then
          .error { st := St.insufficientCapacity }
        else if s.stew.st == .service && genNode g != genNode (gen s) then .error { st := St.nodeState } else .ok (genRoom g s)

/-! The commands. -/

/-- A failed GEN_APPLY's answer: no commit epoch, the generation in force, the sheaf and stage named (R334). -/
def genFail (box : Nat) (b : GenBad) (s : State) : State :=
  zRespond box b.st b.detail (toLe 8 0 ++ toLe 4 (gen s).number ++ toLe 2 b.sheaf ++ toLe 1 b.stage) s

/-- The CONFIG husk of a generation, which waits as the pending one; a refusal leaves nothing pending. -/
def genHusk (box : Nat) (g : Gen) (s : State) : State :=
  match huskRefusal s 0 none with
  | some st => zFail box st 0 s
  | none => zHusk box { tenant := 0, config := true, actions := [{ kind := 7, target := g.number }] } (s.onStew fun w => { w with pendGen := some g })

/-- GEN_APPLY (R334, R443). -/
def execGenApply (box : Nat) (image : Bytes) (s : State) : Res := whileUp s <|
  if s.stew.pendGen.isSome then .next s
  else onZalpol box 0x0201 s fun m s =>
    let n := fld m 0x28 4
    let b := slice image 0 n
    let cur := gen s
    let num := fld m 0x30 4
    let base := fld m 0x2C 4
    if 2 ^ 26 < n || n < 48 then genFail box { st := St.invalidField, detail := 0x28 } s
    else
      let s := zData m b s
      if !imageWhole b n then genFail box { st := St.imageInvalid } s
      else if fld b 8 4 != num || fld b 0x0C 4 != base then genFail box { st := St.generationMismatch } s
      else if cur.number = num && cur.base = base then
        zRespond box St.success 0 (toLe 8 s.eng.epoch ++ toLe 4 num ++ [0xFF, 0xFF, 0xFF]) s
      else if base != cur.number || num ≤ cur.number then genFail box { st := St.generationMismatch } s
      else match imageFields b with
        | some x => genFail box x s
        | none =>
          let g := genOf cur b
          match generationBad g s with
          | .error x => genFail box x s
          | .ok s => genHusk box g s

/-- ROLLBACK (R334, R445). -/
def execRollback (box : Nat) (s : State) : Res := whileUp s <|
  if s.stew.pendGen.isSome then .next s
  else onZalpol box 0x0202 s fun m s =>
    let leave := fld m 0x20 4
    if leave = (gen s).number && s.stew.prev.isSome then
      match s.stew.prev with
      | none => zFail box St.generationMismatch 0 s
      | some g =>
        match imageFields (genImage g) with
        | some x => zFail box x.st x.detail s
        | none =>
          match generationBad g s with
          | .error x => zFail box x.st x.detail s
          | .ok s => genHusk box g s
    else if s.stew.left = some leave then
      zRespond box St.success 0 (toLe 8 s.eng.epoch ++ toLe 4 (gen s).number) s
    else zFail box St.generationMismatch 0 s

/-- GEN_READ (R334). -/
def execGenRead (box : Nat) (s : State) : Res := whileUp s <|
  onZalpol box 0x0203 s fun m s =>
    let w := byteAt m 0x20
    zChecked box [(0x20, decide (w ≤ 2) && (w != 1 || s.stew.prev.isSome))] s fun s =>
      let g := if w = 0 then gen s else if w = 1 then s.stew.prev.getD {} else factoryGen
      let b := genImage g
      let body := toLe 4 g.number ++ toLe 4 b.length
      if fld m 0x30 4 < b.length then zRespond box St.bufferShort 0 body s
      else zRespond box St.success 0 body (hostWrite box (fld m 0x28 8) b false s)

end Sys2Proof.Machine
end

