-- ==== Sys2Proof/Machine/Zalpol.lean ====
section
/-! DEFINITION. Zalpol commands of queues, vectors, window, time, statistics, collections, rebuilds, tables, objects, binders,
meters and recovery (R334). -/

namespace Sys2Proof.Machine
open Sys2Proof

/-! Queues (R312, R320, R334). -/

/-- Whether a queue pair is a tenant's. -/
def ownsQueue (s : State) (t q : Nat) : Bool := (tabGet s.hif.qps q).any fun p => p.tenant == t

/-- Reserved fields of a queue context standing at 0x20 of a message (R15). -/
def contextReserved (c : Bytes) : List Chk :=
  [(0x20, decide (fld c 0 2 < 4096)), (0x22, decide (byteAt c 2 < 4)), (0x23, zeroAt c 3 1), (0x26, zeroAt c 6 2),
   (0x45, zeroAt c 0x25 1), (0x48, zeroAt c 0x28 24)]

/-- Ranges of a queue context, and the vector it names (R312, R322). -/
def contextRanges (s : State) (t : Nat) (c : Bytes) : List Chk :=
  [(0x24, decide (fld c 4 2 < vecCount t) && (vecSlot s t (fld c 4 2)).isSome), (0x28, fld c 8 8 % 4096 == 0),
   (0x30, fld c 0x10 8 % 4096 == 0), (0x38, inRange (fld c 0x18 4) 2 65536), (0x3C, inRange (fld c 0x1C 4) 2 65536),
   (0x40, fld c 0x20 4 == 0 || inRange (fld c 0x20 4) 1000 10000000), (0x46, decide (fld c 0x26 2 ≤ 1000))]

/-- QUEUE_CREATE: the context is loaded and the queue is ENABLED, its heads and tails 0, its phase 1 (R312, R313). -/
def execQueueCreate (box : Nat) (s : State) : Res := whileUp s <|
  onZalpol box 0x0110 s fun m s =>
    let c := slice m 0x20 64
    let q := fld c 0 2
    let t := zTenant m
    zChecked box (contextReserved c) s fun s =>
      if !ownsQueue s t q then zFail box St.accessViolation 0 s
      else zChecked box (contextRanges s t c) s fun s =>
        if (qpOf s q).qstate != .disabled then zFail box St.queueState 0 s
        else zRespond box St.success 0 [] (modQp q (fun p => { tenant := p.tenant, ctx := c, qstate := .enabled }) s)

/-- QUEUE_DELETE: fetching stops; the answer comes when the last admitted command has ended (R320). -/
def execQueueDelete (box : Nat) (s : State) : Res := whileUp s <|
  onZalpol box 0x0111 s fun m s =>
    let q := fld m 0x20 2
    zChecked box [(0x20, decide (q < 4096))] s fun s =>
      if !ownsQueue s (zTenant m) q then zFail box St.accessViolation 0 s
      else if (qpOf s q).qstate = .disabled then zRespond box St.success 0 [] s
      else checkDelete q (modQp q (fun p => { p with deleting := true, fetched := [], wait := false }) s)

/-- A queue in ERROR or TIMED_OUT returned to DISABLED: what is staged goes, and its commands' later completions too. -/
def clearQueue (q : Nat) (s : State) : State :=
  let p := qpOf s q
  let s := modQp q (fun p => { tenant := p.tenant, ctx := p.ctx, wftag := p.wftag }) s
  let s := s.onHif fun h => { h with cmds := h.cmds.map fun c => if c.2.qp = q then (c.1, { c.2 with suppressed := true }) else c }
  p.staged.foldl (fun s c => freeStaging c.batch s) s

/-- QUEUE_RESET: ERROR and TIMED_OUT return to DISABLED (R320, R334). -/
def execQueueReset (box : Nat) (s : State) : Res := whileUp s <|
  onZalpol box 0x0112 s fun m s =>
    let q := fld m 0x20 2
    zChecked box [(0x20, decide (q < 4096))] s fun s =>
      if !ownsQueue s (zTenant m) q then zFail box St.accessViolation 0 s
      else match (qpOf s q).qstate with
        | .enabled => zFail box St.queueState 0 s
        | .disabled => zRespond box St.success 0 [0] s
        | _ => zRespond box St.success 0 [0] (clearQueue q s)

/-! Vectors (R322, R334). -/

/-- Function and table entry of a vector command. -/
def vecFn (m : Bytes) : Nat := fld m 0x22 2
def vecEnt (m : Bytes) : Nat := fld m 0x24 2

/-- Ranges of a vector command. -/
def vecChecks (m : Bytes) : List Chk :=
  [(0x20, decide (fld m 0x20 2 < 2048) || fld m 0x20 2 == 0xFFFF), (0x22, decide (vecFn m < 1024)),
   (0x24, decide (vecEnt m < vecCount (vecFn m))), (0x26, decide (byteAt m 0x26 ≤ 1))]

/-- Whether a slot is free: unbound, and not bound anew. -/
def slotFree (s : State) (k : Nat) : Bool := tabGet s.hif.vecs k == some none

/-- VECTOR_BIND: a free slot named, or the lowest free one; an op beyond 1 is answered here. -/
def execVectorBind (box : Nat) (s : State) : Res := whileUp s <|
  if ((zReady s box 0x0113).any fun m => byteAt m 0x26 == 1) then .next s
  else onZalpol box 0x0113 s fun m s =>
    zChecked box (vecChecks m) s fun s =>
      let want := fld m 0x20 2
      if (vecSlot s (vecFn m) (vecEnt m)).isSome then zFail box St.queueState 0 s
      else
        let slot := if want = 0xFFFF then (List.range 2048).find? (slotFree s) else if slotFree s want then some want else none
        match slot with
        | some k => zRespond box St.success 0 (toLe 2 k)
            (s.onHif fun h => { h with vecs := tabSet h.vecs k (some (vecFn m * 2048 + vecEnt m)) })
        | none => zFail box (if want = 0xFFFF then St.insufficientCapacity else St.queueState) 0 s

/-- VECTOR_UNBIND: an entry other than 0 that no ENABLED queue context names. -/
def execVectorUnbind (box : Nat) (s : State) : Res := whileUp s <|
  if ((zReady s box 0x0113).any fun m => byteAt m 0x26 != 1) then .next s
  else onZalpol box 0x0113 s fun m s =>
    zChecked box (vecChecks m) s fun s =>
      let want := fld m 0x20 2
      match vecSlot s (vecFn m) (vecEnt m) with
      | none => zFail box St.queueState 0 s
      | some k =>
        if want != 0xFFFF && want != k then zFail box St.invalidField 0x20 s
        else if vecEnt m = 0 || s.hif.qps.any (fun p => p.2.qstate == .enabled && p.2.tenant == vecFn m &&
            fld p.2.ctx 4 2 == vecEnt m) then zFail box St.queueState 0 s
        else zRespond box St.success 0 (toLe 2 k) (s.onHif fun h => { h with
          vecs := tabSet h.vecs k none, vecPend := h.vecPend.filter (· != vecFn m * 2048 + vecEnt m) })

/-! The memory window (R323, R334). -/

/-- One unit leaves the window, its pin with it. -/
def unmapUnit (u : Nat) (s : State) : State :=
  match tabGet s.hif.window u with
  | none => s
  | some (h, _) => dropPin (pinKeyOf (hIndex h) 1 ((objOf s h).any fun o => !o.turn)) (s.onHif fun x => { x with window := tabDel x.window u })

/-- One unit enters the window with a pin on its object; a unit mapped before gives its old mapping up. -/
def mapUnit (h : Nat) (u off : Nat) (s : State) : State :=
  let s := (pinObj (hIndex h) (unmapUnit u s)).2
  s.onHif fun x => { x with window := tabSet x.window u (h, off) }

/-- Units of a window command: first and count within BAR2. -/
def windowChecks (s : State) (m : Bytes) : List Chk :=
  let first := fld m 0x20 4
  let n := fld m 0x24 4
  [(0x20, decide (first < s.hif.bar2 * 512)), (0x24, decide (1 ≤ n) && decide (first + n ≤ s.hif.bar2 * 512))]

/-- WINDOW_MAP: 2 MiB units onto an object RESIDENT in T1; an op beyond 1 is answered here. -/
def execWindowMap (box : Nat) (s : State) : Res := whileUp s <|
  if ((zReady s box 0x0114).any fun m => byteAt m 0x38 == 1) then .next s
  else onZalpol box 0x0114 s fun m s =>
    let h := fld m 0x28 8
    let n := fld m 0x24 4
    let off := fld m 0x30 8
    zChecked box (windowChecks s m ++ [(0x30, off % 2 ^ 21 == 0), (0x38, byteAt m 0x38 == 0)]) s fun s =>
      if staleHandle s h then zFail box St.bufStale 0 (refuseHandle 0 St.bufStale s)
      else match objOf s h with
        | none => zFail box St.bufStale 0 s
        | some o =>
          if dataBound s h then zFail box St.objectInTable 0 s
          else if !residentT1 o || o.protected_ then zFail box St.invalidField 0x28 s
          else if o.size < off + n * 2 ^ 21 then zFail box St.invalidField 0x30 s
          else zRespond box St.success 0 [] ((List.range n).foldl (fun s i =>
            mapUnit h (fld m 0x20 4 + i) (off + i * 2 ^ 21) s) s)

/-- WINDOW_UNMAP: the units' mappings and pins go. -/
def execWindowUnmap (box : Nat) (s : State) : Res := whileUp s <|
  if ((zReady s box 0x0114).any fun m => byteAt m 0x38 != 1) then .next s
  else onZalpol box 0x0114 s fun m s =>
    zChecked box (windowChecks s m ++ [(0x28, zeroAt m 0x28 8)]) s fun s =>
      zRespond box St.success 0 [] ((List.range (fld m 0x24 4)).foldl (fun s i => unmapUnit (fld m 0x20 4 + i) s) s)

/-! Time and power (R17, R325, R448). -/

/-- TIME_POST: the pair goes into the event log as it stands; a boot program that serves holds it. -/
def execTimePost (box : Nat) (s : State) : Res := whileUp s <|
  onZalpol box 0x0115 s fun m s =>
    let pair := slice m 0x20 16
    let s := if s.stew.rom then s.onStew fun w => { w with heldPost := some pair } else logEv Log.timePost 1 0 pair s
    zRespond box St.success 0 (toLe 4 s.stew.boot ++ zeros 4 ++ toLe 8 (now s)) s

/-- POWER_SET (R325, R430): P2 and P3 are refused while the window maps anything, and entered in steps; the answer comes at
the end. A command for a state waits while another transition or a wake is under way. -/
def execPowerSet (box : Nat) (s : State) : Res := whileUp s <|
  let w := s.stew
  if w.goal.isSome || w.exiting || w.pwReq.isSome || w.wake then .next s
  else onZalpol box 0x0801 s fun m s =>
    let p := byteAt m 0x20
    zChecked box [(0x20, decide (p ≤ 3))] s fun s =>
      if 2 ≤ p && !s.hif.window.isEmpty then zFail box St.windowMapped 0 s
      else if p = w.pstate then zRespond box St.success 0 [] s
      else if p = 1 && w.pstate = 0 then zRespond box St.success 0 [] (s.onStew fun w => { w with pstate := 1 })
      else if p = 0 || w.pstate != 0 then
        s.onStew fun w => { w with wake := true, pwReq := if p = 0 then some box else none }
      else s.onStew fun w => { w with goal := some p, pwStep := 0, pwReq := some box }

/-! Statistics (R64, R86). -/

/-- A stage counter record (R64). -/
def statRecord (s : State) (sh i t : Nat) (x : Stat) : Bytes :=
  toLe 2 sh ++ toLe 1 i ++ [0] ++ toLe 2 t ++ toLe 2 (tabGetD s.shv.slotOf t (t % 16)) ++ toLe 8 x.busy ++ toLe 8 x.starve ++
    toLe 8 x.block ++ toLe 8 x.awnWait ++ toLe 8 x.hold ++ toLe 8 x.share ++ toLe 8 x.swap ++ toLe 8 x.batches ++
    toLe 8 x.items ++ toLe 8 x.awnBytes ++ toLe 8 x.awnDiscard ++ toLe 8 x.fallback ++ toLe 4 s.stew.boot ++ zeros 4 ++
    toLe 8 (now s)

/-- Stage tiles of a sheaf whose records a read returns: (stage, index of the tile in the stage, tile). -/
def statKeys (d : Bytes) (stage : Nat) : List (Nat × Nat × Nat) :=
  ((shEntries d).zipIdx.filter fun e => stage == 0xFF || stage == e.2).flatMap fun e =>
    (List.range (sgWidth e.1)).map fun k => (e.2, k, sgBase e.1 + k)

/-- Records at a 128-byte stride. -/
def strided (rs : List Bytes) : Bytes := rs.flatMap fun r => slice r 0 128

/-- SHEAF_STATS: the R64 records, and CLEAR after the copy. -/
def execSheafStats (box : Nat) (s : State) : Res := whileUp s <|
  onZalpol box 0x0204 s fun m s =>
    let sh := fld m 0x20 2
    let st := byteAt m 0x22
    match genSheaf (gen s) sh with
    | none => zFail box St.invalidField 0x20 s
    | some d =>
      if shOwner d != zTenant m then zFail box St.accessViolation 0 s
      else zChecked box [(0x22, decide (st < shStages d) || st == 0xFF), (0x23, decide (byteAt m 0x23 ≤ 1))] s fun s =>
        let ks := statKeys d st
        if fld m 0x30 4 < 128 * ks.length then zRespond box St.bufferShort 0 (toLe 4 ks.length) s
        else
          let rs := ks.map fun k => statRecord s sh k.1 k.2.2 (tabGetD s.shv.stats (stKey sh k.1 k.2.1) {})
          let s := hostWrite box (fld m 0x28 8) (strided rs) false s
          let s := if bitOf (byteAt m 0x23) 0 then s.onShv fun v => { v with
              stats := v.stats.filter fun p => !ks.any fun k => stKey sh k.1 k.2.1 == p.1 }
            else s
          zRespond box St.success 0 (toLe 4 ks.length) s

/-- A conversion statistics record (R86). -/
def cvtRecord (r : CvRec) : Bytes :=
  toLe 8 r.tag ++ toLe 1 r.tagKind ++ toLe 1 r.unitKind ++ toLe 2 r.unit ++ toLe 1 r.fmt ++ zeros 3 ++ toLe 4 r.sumSq ++
    toLe 4 r.maxerr ++ toLe 8 r.count ++ toLe 8 r.sat ++ toLe 8 r.nanz ++ toLe 8 r.excl ++ toLe 4 r.boot ++ zeros 4 ++
    toLe 8 r.uptime

/-- Records in ascending (unit kind, unit). -/
def cvtOrder (l : List CvRec) : List CvRec := l.foldr ins []
where
  ins (x : CvRec) : List CvRec → List CvRec
    | [] => [x]
    | y :: ys => if x.unitKind * 65536 + x.unit ≤ y.unitKind * 65536 + y.unit then x :: y :: ys else y :: ins x ys

/-- The combined record of a tensor: sums in order, the largest error, the latest update (R86). -/
def cvtCombined (tag kind : Nat) (rs : List CvRec) : CvRec :=
  let u := (Config.combinedUnit tag).toNat
  rs.foldl (fun c r => { c with
      fmt := r.fmt, sumSq := fAdd c.sumSq r.sumSq, maxerr := max c.maxerr r.maxerr, count := c.count + r.count
      sat := c.sat + r.sat, nanz := c.nanz + r.nanz, excl := c.excl + r.excl
      boot := max c.boot r.boot, uptime := max c.uptime r.uptime })
    { tag := tag, tagKind := kind, unitKind := u % 256, unit := u / 256 }

/-- The rights to a conversion tag: the object's, or the sheaf's; a status, with the field it concerns. -/
def cvtRights (s : State) (t : Nat) (m : Bytes) : Option (Nat × Nat) :=
  let tag := fld m 0x20 8
  if byteAt m 0x28 = 0 then (handleStatus s t tag).map fun st => (st, 0)
  else if 4096 ≤ tag then some (St.invalidField, 0x20)
  else match genSheaf (gen s) (tag % 256) with
    | none => some (St.invalidField, 0x20)
    | some d => if shOwner d = t then none else some (St.accessViolation, 0)

/-- The records lost of all units (R86). -/
def cvtLostCount (s : State) : Nat := (s.shv.cvtLost.map Prod.snd).sum

/-- CONVERT_STATS: the combined record, then the units' own, and CLEAR after the copy. -/
def execConvertStats (box : Nat) (s : State) : Res := whileUp s <|
  onZalpol box 0x0205 s fun m s =>
    let tag := fld m 0x20 8
    let k := byteAt m 0x28
    zChecked box [(0x28, decide (k ≤ 1)), (0x29, decide (byteAt m 0x29 ≤ 1))] s fun s =>
      match cvtRights s (zTenant m) m with
      | some (st, d) => zFail box st d s
      | none =>
        let own (r : CvRec) : Bool := r.tag == tag && r.tagKind == k
        let rs := cvtOrder (s.shv.cvt.filter own)
        let n := rs.length + 1
        let body := toLe 4 n ++ toLe 4 (cvtLostCount s)
        if fld m 0x38 4 < 128 * n then zRespond box St.bufferShort 0 body s
        else
          let s := hostWrite box (fld m 0x30 8) (strided ((cvtCombined tag k rs :: rs).map cvtRecord)) false s
          let s := if bitOf (byteAt m 0x29) 0 then s.onShv fun v => { v with
              cvt := v.cvt.map fun r => if own r then
                { tag := r.tag, tagKind := r.tagKind, unitKind := r.unitKind, unit := r.unit, fmt := r.fmt } else r }
            else s
          zRespond box St.success 0 body s

/-! Collections (R87, R88, R334). -/

/-- Whether a Zalpol command on a collection is in the engine: another waits for it, as it would on the entry's lock. -/
def collBusy (s : State) (c : Nat) : Bool :=
  s.eng.husks.any fun p => p.2.mbx.isSome && p.2.actions.any fun a => a.kind == 4 && a.target == 0 && a.arg == c

/-- The collection a command names, in offset 0x20. -/
def collWaits (s : State) (box code : Nat) : Bool := (zReady s box code).any fun m => collBusy s (fld m 0x20 2)

/-- The husk of a collection command: one entry of the collection table, written by the Steward (flag bit 7). -/
def collHusk (box t c : Nat) (d : Bytes) (s : State) : State :=
  zHusk box { tenant := t, actions := [{ kind := 4, flags := 128, coll := c, arg := c, data := d, len := d.length }] } s

/-- The descriptor's checks at their place in the message, 0x20 on. -/
def collAtMsg (l : List Chk) : List Chk := l.map fun c => (0x20 + c.1, c.2)

/-- The checks of two lists in offset order. -/
def chkOrder (l : List Chk) : List Chk := l.foldr ins []
where
  ins (x : Chk) : List Chk → List Chk
    | [] => [x]
    | y :: ys => if x.1 ≤ y.1 then x :: y :: ys else y :: ins x ys

/-- COLLECTION_CREATE: its objects become table-bound from the commit epoch on (R202). -/
def execCollectionCreate (box : Nat) (s : State) : Res := whileUp s <|
  if collWaits s box 0x0301 then .next s
  else onZalpol box 0x0301 s fun m s =>
    let d := slice m 0x20 64
    let t := zTenant m
    let c := fld d 0 2
    zChecked box ((0x20, (collAt s c s.eng.epoch).isNone) :: chkOrder (collAtMsg (collChecks d ++ collTiers s d ++ [(0x10, zeroAt d 0x10 4)]))) s fun s =>
      if coOwner d != t && t != 0 then zFail box St.accessViolation 0 s
      else match [coCentroids d, coDirectory d, coMap d].findSome? (handleStatus s (coOwner d)) with
        | some st => zFail box st 0 s
        | none => collHusk box t c d s

/-- What a collection change may not alter: everything but split_threshold, chaff_threshold, assign_sheaf, fanout_timeout
and SHARDED; centroid_count is ignored (R88, R334). -/
def changeChecks (old d : Bytes) : List Chk :=
  let same (o n : Nat) : Chk := (o, fld old o n == fld d o n)
  [same 2 2, same 5 1, same 6 1, same 7 1, same 8 2, same 0x0A 1, same 0x0C 2, same 0x18 8, same 0x20 8, same 0x28 8,
   same 0x30 8]

/-- COLLECTION_CHANGE. -/
def execCollectionChange (box : Nat) (s : State) : Res := whileUp s <|
  if collWaits s box 0x0302 then .next s
  else onZalpol box 0x0302 s fun m s =>
    let d := slice m 0x20 64
    let t := zTenant m
    let c := fld d 0 2
    match collAt s c s.eng.epoch with
    | none => zFail box St.collectionUnknown 0 s
    | some old =>
      if coOwner old != t && t != 0 then zFail box St.accessViolation 0 s
      else zChecked box (chkOrder (collAtMsg (collChecks d ++ changeChecks old d))) s (collHusk box t c d)

/-- COLLECTION_DELETE. -/
def execCollectionDelete (box : Nat) (s : State) : Res := whileUp s <|
  if collWaits s box 0x0303 then .next s
  else onZalpol box 0x0303 s fun m s =>
    let t := zTenant m
    let c := fld m 0x20 2
    match collAt s c s.eng.epoch with
    | none => zFail box St.collectionUnknown 0 s
    | some old => if coOwner old != t && t != 0 then zFail box St.accessViolation 0 s else collHusk box t c [] s

/-- List IDs of a collection that stand for lists of their own: not INVALID, not ALIAS (R91). -/
def liveIds (s : State) (d : Bytes) : List Nat :=
  (List.range (coCount d)).filter fun l => let x := dirEntry s d l s.eng.epoch; inRange (deLoc x) 1 3 && !deAlias x

/-- COLLECTION_STATS (R334). -/
def execCollectionStats (box : Nat) (s : State) : Res := whileUp s <|
  onZalpol box 0x0304 s fun m s =>
    let t := zTenant m
    let c := fld m 0x20 2
    match collAt s c s.eng.epoch with
    | none => zFail box St.collectionUnknown 0 s
    | some d =>
      if coOwner d != t && t != 0 then zFail box St.accessViolation 0 s
      else
        let ids := liveIds s d
        let ls := (ids.filter fun l => deLoc (dirEntry s d l s.eng.epoch) != 3).map fun l => (liveList s d c l).2
        let vis (l : IList) : Nat := (l.ents.filter fun x => !x.tomb && !x.settled).length
        let x := tabGetD s.idx.cstats c {}
        let rb (on : Bool) : Nat := (s.idx.rebuilds.filter fun p => p.2.kind < 4 && p.2.coll == c && p.2.running == on).length
        zRespond box St.success 0 (toLe 8 s.eng.epoch ++ toLe 8 (ls.map vis).sum ++ toLe 4 ids.length ++
          toLe 4 ((ls.map listLen).foldl max 0) ++ toLe 8 (ls.map fun l => listSettled l + listRecent l).sum ++
          toLe 8 x.ringWaits ++ toLe 8 x.fullWaits ++ toLe 4 (rb false) ++ toLe 4 (rb true) ++ toLe 8 x.late) s

/-! Rebuilds (R109, R165, R224, R336). -/

/-- A REBUILD of a kind, carried out where the message asks for it. -/
def onRebuild (box kind : Nat) (s : State) (k : Bytes → State → State) : Res :=
  if ((zReady s box 0x0305).any fun m => byteAt m 0x28 == kind || (kind == 0 && decide (4 < byteAt m 0x28))) then
    onZalpol box 0x0305 s k
  else .next s

/-- A rebuild accepted: queued, answered with its ID (R336). -/
def acceptRebuild (box : Nat) (m : Bytes) (b : Rebuild) (s : State) : State :=
  let (id, s) := addRebuild { b with mbx := some box, seq := fld m 4 2 } s
  zRespond box St.success 0 (toLe 4 id) s

/-- The collection of a rebuild, checked. -/
def rebuildColl (box : Nat) (m : Bytes) (s : State) (k : Nat → Bytes → State → State) : State :=
  let c := fld m 0x20 8
  if 65536 ≤ c then zFail box St.invalidField 0x20 s
  else if 4 < byteAt m 0x28 then zFail box St.invalidField 0x28 s
  else match collAt s c s.eng.epoch with
    | none => zFail box St.collectionUnknown 0 s
    | some d => if coOwner d != zTenant m && zTenant m != 0 then zFail box St.accessViolation 0 s else k c d s

/-- Whether a list ID names a list of this node. -/
def localList (s : State) (d : Bytes) (l : Nat) : Bool :=
  let x := dirEntry s d l s.eng.epoch
  decide (l < coCount d) && inRange (deLoc x) 1 2 && !deAlias x

/-- REBUILD_SWEEP; a kind beyond 4 is answered here. -/
def execRebuildSweep (box : Nat) (s : State) : Res := whileUp s <|
  onRebuild box 0 s fun m s => rebuildColl box m s fun c d s =>
    zChecked box [(0x2C, localList s d (fld m 0x2C 4))] s (acceptRebuild box m { kind := 0, coll := c, list := fld m 0x2C 4 })

/-- REBUILD_SPLIT. -/
def execRebuildSplit (box : Nat) (s : State) : Res := whileUp s <|
  onRebuild box 1 s fun m s => rebuildColl box m s fun c d s =>
    zChecked box [(0x2C, localList s d (fld m 0x2C 4))] s (acceptRebuild box m { kind := 1, coll := c, list := fld m 0x2C 4 })

/-- REBUILD_MERGE: the lower ID keeps the entries (R109). -/
def execRebuildMerge (box : Nat) (s : State) : Res := whileUp s <|
  onRebuild box 2 s fun m s => rebuildColl box m s fun c d s =>
    let a := fld m 0x2C 4
    let b := fld m 0x30 4
    zChecked box [(0x2C, localList s d a), (0x30, localList s d b && a != b)] s
      (acceptRebuild box m { kind := 2, coll := c, list := min a b, list2 := max a b })

/-- REBUILD_RETRAIN. -/
def execRebuildRetrain (box : Nat) (s : State) : Res := whileUp s <|
  onRebuild box 3 s fun m s => rebuildColl box m s fun c _ s => acceptRebuild box m { kind := 3, coll := c } s

/-- A handle checked for a Zalpol command (R248). -/
def zHandle (box t h : Nat) (s : State) (k : ObjRec → State → State) : State :=
  match handleStatus s t h with
  | some st => zFail box st 0 (refuseHandle t st s)
  | none => match objOf s h with
    | some o => k o s
    | none => zFail box St.bufStale 0 s

/-- REBUILD_REHASH: a hashed embedding table takes new rows, seed and hash (R159, R165). -/
def execRebuildRehash (box : Nat) (s : State) : Res := whileUp s <|
  onRebuild box 4 s fun m s =>
    let h := fld m 0x20 8
    zHandle box (zTenant m) h s fun _ s =>
      let e := emHeader s h s.eng.epoch
      let rows := fld m 0x38 8
      let seed := fld m 0x40 8
      let hash := byteAt m 0x48
      zChecked box [(0x20, tableKind s h == 2 && mhKind e == 1),
        (0x38, inRange rows 1 (2 ^ 40) && (hash != 2 || 2 ^ Nat.log2 rows == rows)), (0x40, hash != 2 || seed % 2 == 1),
        (0x48, inRange hash 1 2)] s
        (acceptRebuild box m { kind := 4, coll := h, rows := rows, seed := seed, hash := hash })

/-! Tables and husks (R203, R334). -/

/-- TABLE_WRITE: one TABLE_ENTRY action per entry. -/
def execTableWrite (box : Nat) (data : Bytes) (s : State) : Res := whileUp s <|
  onZalpol box 0x0310 s fun m s =>
    let h := fld m 0x20 8
    let first := fld m 0x28 8
    let n := fld m 0x30 2
    let len := fld m 0x34 4
    let hd := first == headerIndex
    zChecked box [(0x20, h != 0), (0x30, inRange n 1 64 && (!hd || n == 1)), (0x34, inRange len 1 1048576)] s fun s =>
      let b := slice data 0 (n * len)
      let as := (List.range n).map fun i =>
        ({ kind := 4, flags := if hd then 4 else 0, target := h, arg := if hd then 0 else first + i, src := i * len,
           data := slice b (i * len) len, len := len } : Action)
      zHusk box { tenant := zTenant m, actions := as } (zData m b s)

/-- The descriptor offset of the source field of the action whose data holds a payload offset (R334). -/
def sourceField (d : Bytes) (o : Nat) : Nat :=
  match (List.range (byteAt d 0)).find? fun i =>
    let a := slice d (64 + 32 * i) 32
    decide (fld a 0x10 8 ≤ o) && decide (o < fld a 0x10 8 + fld a 4 4) with
  | some i => 64 + 32 * i + 0x10
  | none => 0

/-- ZALPOL_HUSK: a husk through a mailbox, with the rights of R198. -/
def execZalpolHusk (box : Nat) (desc payload : Bytes) (s : State) : Res := whileUp s <|
  onZalpol box 0x0311 s fun m s =>
    let d := slice desc 0 (fld m 0x28 4)
    let pl := slice payload 0 (fld m 0x2C 4)
    let s := zData m (d ++ pl) s
    if 64 + 32 * byteAt d 0 != fld m 0x28 4 || 1048576 < fld m 0x2C 4 then zFail box St.invalidField 0 s
    else match parseHusk s true (zTenant m) d pl with
      | .error (.field a o) => zFail box St.invalidField (if a = 2 then sourceField d o else o) s
      | .error (.action i) => zFail box St.accessViolation i s
      | .ok as =>
        let b := if bitOf (byteAt d 1) 0 then some (fld d 4 4) else none
        let t := fld d 2 2
        match huskRefusal s t b with
        | some st => zFail box st 0 s
        | none => match stagePayload t pl s with
          | none => zFail box St.insufficientCapacity 0 s
          | some (ix, s) => zHusk box { tenant := t, actions := as, staging := ix, binder := b.map (binderOf s) } s

/-! Objects and binders (R225, R233, R249). -/

/-- OBJECT_QUERY: the object header. -/
def execObjectQuery (box : Nat) (s : State) : Res := whileUp s <|
  onZalpol box 0x0320 s fun m s =>
    zHandle box (zTenant m) (fld m 0x20 8) s fun o s => zRespond box St.success 0 (objHeader s o) s

/-- Whether an object may pass to another tenant (R249). -/
def mayTransfer (s : State) (o : ObjRec) : Bool :=
  (o.home == 3 || o.home == 4) && o.st == .absent && pinsAll o == 0 && o.rehome.isNone && !tableBound s o.handle && !o.protected_

/-- The generation after one: 0 is skipped (R232). -/
def nextGeneration (g : Nat) : Nat := if (g + 1) % 65536 = 0 then 1 else (g + 1) % 65536

/-- OBJECT_TRANSFER: the object keeps its index and takes the next generation under the receiving tenant (R249). -/
def execObjectTransfer (box : Nat) (s : State) : Res := whileUp s <|
  onZalpol box 0x0321 s fun m s =>
    let h := fld m 0x20 8
    let r := fld m 0x28 2
    zHandle box (zTenant m) h s fun o s =>
      zChecked box [(0x20, mayTransfer s o), (0x28, decide (r < 1024))] s fun s =>
        let (share, limit) := genShare (gen s) r o.home
        if share < tenantFixed s r o.home + o.size || limit < tenantIn s r o.home + o.size then
          zFail box St.insufficientCapacity 0 s
        else
          let i := hIndex h
          let g := nextGeneration (hGen h)
          let h' := mkHandle r (hClass h) i g
          let s := (accrue s).onObj fun x => { x with gens := tabSet x.gens i g }
          zRespond box St.success 0 (toLe 8 h') (headerChange o.home (modObj i (fun o => { o with handle := h' }) s))

/-- The lowest number from n on that is no key of a table whose keys rise. -/
def firstFree (n : Nat) : Tab Binder → Nat
  | [] => n
  | (k, _) :: t => if k = n then firstFree (n + 1) t else n

/-- BINDER_ALLOC: the lowest-numbered free binder. -/
def execBinderAlloc (box : Nat) (s : State) : Res := whileUp s <|
  onZalpol box 0x0330 s fun m s =>
    let i := firstFree 0 s.eng.binders
    if 131072 ≤ i then zFail box St.insufficientCapacity 0 s
    else zRespond box St.success 0 (toLe 4 i) (s.onEng fun e => { e with
      binderSeq := e.binderSeq + 1, binders := tabSet e.binders i { owner := zTenant m, alloc := e.binderSeq } })

/-- A binder command's binder, checked. -/
def zBinder (box : Nat) (m : Bytes) (s : State) (k : Nat → Binder → State → State) : State :=
  let i := fld m 0x20 4
  zChecked box [(0x20, decide (i < 131072))] s fun s =>
    match tabGet s.eng.binders i with
    | none => zFail box St.binderUnknown 0 s
    | some x => if x.owner = zTenant m then k i x s else zFail box St.accessViolation 0 s

/-- Queues with a WAIT_GE pending on a binder. -/
def waitersOf (s : State) (b : Nat) : List Nat :=
  (s.hif.qps.filter fun p => p.2.waitGe.any fun w => w.binder == b).map Prod.fst

/-- The waits on a freed binder complete with BINDER_UNKNOWN. -/
def endWaits (b : Nat) (s : State) : State :=
  (waitersOf s b).foldl (fun s q =>
    match (qpOf s q).waitGe with
    | some w => checkDelete q (postCompl q { cid := w.cid, status := St.binderUnknown }
        (modQp q (fun p => { p with waitGe := none, wait := false }) s))
    | none => s) s

/-- BINDER_FREE. -/
def execBinderFree (box : Nat) (s : State) : Res := whileUp s <|
  onZalpol box 0x0331 s fun m s => zBinder box m s fun i _ s =>
    zRespond box St.success 0 [] (endWaits i (s.onEng fun e => { e with binders := tabDel e.binders i }))

/-- BINDER_READ: the binder's state (R225). -/
def execBinderRead (box : Nat) (s : State) : Res := whileUp s <|
  onZalpol box 0x0332 s fun m s => zBinder box m s fun i x s =>
    zRespond box St.success 0 (toLe 8 x.value ++ toLe 2 x.owner ++ toLe 1 (1 + 2 * b2n x.saturated) ++ [0] ++
      toLe 2 (waitersOf s i).length ++ zeros 2) s

/-! Meters and recovery (R250, R339, R425). -/

/-- A tenant's meters as exported: byte-time in KiB-seconds (R250). -/
def metersOut (s : State) (t : Nat) : List Nat :=
  (tabGetD s.obj.meters t (List.replicate 10 0)).zipIdx.map fun p => if inRange p.2 1 5 then p.1 / (1024 * 10 ^ 9) else p.1

/-- METER_READ. -/
def execMeterRead (box : Nat) (s : State) : Res := whileUp s <|
  onZalpol box 0x0601 s fun m s =>
    let s := accrue s
    zRespond box St.success 0 (toLe 4 s.stew.boot ++ zeros 4 ++ toLe 8 (now s) ++
      (metersOut s (zTenant m)).flatMap (toLe 8)) s

/-- RECOVER action 0: a recovery under way starts again from phase 1 (R425); a complete one has nothing to repeat. An action
beyond 1 is answered here. -/
def execRecoverRestart (box : Nat) (s : State) : Res := whileUp s <|
  if ((zReady s box 0x0701).any fun m => byteAt m 0x20 == 1) then .next s
  else onZalpol box 0x0701 s fun m s =>
    zChecked box [(0x20, byteAt m 0x20 == 0)] s fun s =>
      let s := if s.stew.phase = 6 then s else s.onStew fun w => { w with phase := 1, restarts := w.restarts + 1 }
      zRespond box St.success 0 (toLe 1 (nodeStateCode s.stew.st)) s

/-- RECOVER action 1: from FAULT to STANDBY once no cause is present; in STANDBY nothing changes (R334, R394). -/
def execRecoverLeaveFault (box : Nat) (s : State) : Res := whileUp s <|
  if ((zReady s box 0x0701).any fun m => byteAt m 0x20 != 1) then .next s
  else onZalpol box 0x0701 s fun _ s =>
    if s.stew.st = .standby then zRespond box St.success 0 (toLe 1 (nodeStateCode .standby)) s
    else if s.aon.faultPresent != 0 || s.stew.st != .fault then zFail box St.nodeState 0 s
    else zRespond box St.success 0 (toLe 1 (nodeStateCode .standby)) (s.onStew fun w => { w with st := .standby })

/-- RECOVERY_STATUS. -/
def execRecoveryStatus (box : Nat) (s : State) : Res := whileUp s <|
  onZalpol box 0x0702 s fun _ s =>
    zRespond box St.success 0 (toLe 1 s.stew.phase ++ zeros 7 ++ toLe 8 s.stew.lastReplayed ++ toLe 8 s.eng.epoch ++
      toLe 4 s.stew.restarts) s

end Sys2Proof.Machine
end

