-- ==== Sys2Proof/Machine/Flash.lean ====
section
/-! DEFINITION. Flash media (chapter 10): format, tables, channels, reads, patrols, moves, erases, failures. -/

namespace Sys2Proof.Machine
open Sys2Proof

/-! Media tables and admission (R254, R255). -/

/-- The checks of a media table's header (R255). -/
def mediaChecks (b : Bytes) : List Chk :=
  [(0, fld b 0 4 == 0x5446444D), (4, fld b 4 2 == 1), (7, byteAt b 7 == 3 || byteAt b 7 == 4),
   (8, byteAt b 8 == 2 ^ byteAt b 7 - 1), (0x20, [8192, 16384, 32768].contains (fld b 0x20 4)), (0x24, fld b 0x24 4 != 0),
   (0x28, fld b 0x28 4 != 0), (0x2C, fld b 0x2C 4 != 0), (0x35, zeroAt b 0x35 3),
   (0x38, decide (64 ≤ fld b 0x38 4) && decide (fld b 0x38 4 + fld b 0x3C 4 ≤ b.length)),
   (0x3C, decide ((2 * 8 * 8 * 5 + 2 * 8 + 2 * 7) * byteAt b 8 ≤ fld b 0x3C 4))]

/-- Whether a LUN matches a table: device model and manufacturer. -/
def lunMatches (l : Lun) (b : Bytes) : Bool := l.maker == byteAt b 6 && l.model == slice b 0x0C 20

/-- The loaded table a LUN matches: the latest. -/
def findTable (ts : List Bytes) (l : Lun) : Option Nat := ((ts.zipIdx.filter fun p => lunMatches l p.1).getLast?).map Prod.snd

/-- Whether a page's spare bytes hold the LDPC parity of its units that a media table names (R254). -/
def parityFits (l : Lun) (t : Bytes) : Bool := decide (fld t 0x30 2 * (l.page / 4096) ≤ l.spare)

/-- LUNs admitted in ascending order up to 8 TB (R254); the first that would pass it, and those behind it, stay unused. -/
def admitLuns (ts : List Bytes) : Nat → List (Nat × Lun) → List (Nat × Lun)
  | _, [] => []
  | used, (k, l) :: rest =>
    let l := { l with table := findTable ts l }
    if !((l.table.bind fun i => ts[i]?).any (parityFits l)) then (k, { l with admitted := false }) :: admitLuns ts used rest
    else if 8 * 10 ^ 12 < used + l.bytes then ((k, l) :: rest).map fun p => (p.1, { p.2 with admitted := false })
    else (k, { l with admitted := true }) :: admitLuns ts (used + l.bytes) rest

/-- A channel's LUNs matched and admitted anew. -/
def admitChan (ts : List Bytes) (c : Chan) : Chan :=
  let ls := admitLuns ts 0 c.luns
  { c with luns := ls, unusedLuns := (ls.filter fun l => !l.2.admitted).length }

/-- LUNs that identification found, in ascending order (R254): TLC or QLC with an SLC mode, page size and parameter page good. -/
def foundLuns (ch : Nat) (ls : List LunId) : List (Nat × Lun) :=
  (List.range 32).filterMap fun k => (ls.find? fun l => l.ch == ch && l.lun == k && l.good && (l.bits == 3 || l.bits == 4) && l.slc &&
    [8192, 16384, 32768].contains l.page).map
    fun l => (k, { retiredBlocks := (nub l.bad).length, table := none, model := slice l.model 0 20, maker := l.maker, bytes := l.bytes, blocks := l.blocks, page := l.page, spare := l.spare })

/-- MEDIA_TABLE_LOAD (R255, R334): the table is verified and its LUNs are matched. -/
def execMediaTableLoad (box : Nat) (image : Bytes) (s : State) : Res := whileUp s <|
  onZalpol box 0x0402 s fun m s =>
    let n := fld m 0x28 4
    let b := slice image 0 n
    if n < 64 || 2 ^ 25 < n then zFail box St.invalidField 0x28 s
    else
      let s := zData m b s
      if (firstBad (mediaChecks b)).isSome || !Config.mediaTableSigned b then zFail box St.imageInvalid 0 s
      else
        let ts := s.fls.tables ++ [b]
        let hit := (s.fls.chans.map fun c => (c.2.luns.filter fun l => lunMatches l.2 b).length).sum
        zRespond box St.success 0 (toLe 2 hit) (s.onFls fun f => { f with
          tables := ts, chans := f.chans.map fun c => (c.1, admitChan ts c.2) })

/-! FORMAT (R256, R271, R334). -/

/-- FORMAT: accepted while no queue is ENABLED and the window maps nothing (R336: a repeat answers BUSY). -/
def execFormat (box : Nat) (s : State) : Res := whileUp s <|
  onZalpol box 0x0401 s fun m s =>
    let slc := byteAt m 0x20
    let spare := byteAt m 0x21
    let j := fld m 0x22 2
    zChecked box [(0x20, inRange slc 3 20), (0x21, inRange spare 4 28), (0x22, inRange j 16 256),
        (0x24, fld m 0x24 4 == 0x54414D52)] s fun s =>
      if s.fls.formatting.isSome then zFail box St.busy 0 s
      else if s.hif.qps.any fun q => q.2.qstate == .enabled then zFail box St.queueState 0 s
      else if !s.hif.window.isEmpty then zFail box St.windowMapped 0 s
      else zRespond box St.success 0 [] (s.onFls fun f => { f with formatting := some (fld m 4 2, slc, spare, j) })

/-- Whether an object ends with a format: every persistent one, whose bytes the old media key covered, and the index
objects (R193, R271). -/
def formatEnds (o : ObjRec) : Bool := decide (2 ≤ o.home) || hClass o.handle == 3

/-- The newest version of each entry, deletions left out. -/
def newestVersions (l : List TVer) : List TVer :=
  (l.foldl (fun acc v => if acc.any fun w => w.table == v.table && w.index == v.index then acc else acc ++ [v]) []).filter
    fun v => v.data.isSome

/-- The versions that stand after a format: those in force of tables that stay, as of epoch 1. -/
def formatVersions (s : State) : List TVer :=
  let keep (v : TVer) : Bool := v.table != 0 && ((v.table == steerHandle || v.table == forwardHandle) ||
    ((objOf s v.table).map fun o => !formatEnds o).getD false)
  (newestVersions (s.idx.vers.filter keep)).map fun v => { v with tag := 1 }

/-- The blocks after a format: retired ones stay, every other is free, with one erase more where it held anything. -/
def formatBlks (t : Tab Blk) : Tab Blk :=
  t.map fun p => (p.1, if p.2.mode = 255 then p.2
    else { erases := p.2.erases + if p.2.mode != 0 || p.2.eraseDue then 1 else 0 })

/-- FORMAT_COMPLETE: regions by the new percentages, a new media key, an empty index at epoch 1, free blocks; a held
recording goes (R405). -/
def execFormatComplete (s : State) : Res := whileUp s <|
  match s.fls.formatting with
  | none => .next s
  | some (seq, slc, spare, j) =>
    if !s.eng.husks.isEmpty || !s.hif.cmds.isEmpty then .next s
    else
      let vers := formatVersions s
      let gone := (s.obj.recs.filter fun p => formatEnds p.2 && !(p.2.handle == steerHandle || p.2.handle == forwardHandle) &&
        !(s.recd.active && p.2.handle == s.obj.spillH)).map Prod.fst
      let s := gone.foldl (fun s i => removeObject i s) s
      let s := s.onObj fun o => { o with recs := o.recs.map fun p => (p.1, { p.2 with writtenEpoch := 1 }) }
      let s := s.onIdx fun x => { x with vers := vers, swaps := [], lists := [], maps := [], cstats := [] }
      let s := s.onEng fun e => { e with
        epoch := 1, drain := [(1, 0)], oldest := 1, barriers := [], group := [], closing := [], waitFor := none, journal := [] }
      let s := s.onStew fun w => { w with clsHist := [(0, genClass w.cur)] }
      let s := recordInput 0x0C 0 false (toLe 32 (Config.randomDraw s.fls.keyCtr)) s
      let s := s.onFls fun f => { f with
        slcPct := slc, sparePct := spare, journalGb := j, formatted := true, formatting := none,
        mediaKey := Config.randomDraw f.keyCtr, keyCtr := f.keyCtr + 1, blks := formatBlks f.blks, units := []
        spares := [], waitPages := [], saved := [], savedSeq := f.progSeq, mapLog := [], jext := []
        dirtyMap := 0, endur := {}, lunEndur := [], lifeSent := 0, foldUrgent := false, sweeping := false, ckpt := [], pack := [] }
      let s := s.onAon fun a => { a with stream := [] }
      let s := if s.recd.active then s else s.onRec fun r => { r with
        held := false, snap := none, snapMap := [], snapAt := none, spill := [], ring := [], header := [] }
      .next (commandDone 0 0x0401 seq St.success 0 [] s)

/-! Channels (R252, R275, R276). -/

/-- A MEDIA event (R337). -/
def mediaEvent (ch key kind : Nat) (s : State) : State :=
  raiseEvent 0 EvCode.media (toLe 1 ch ++ toLe 1 (key / 8) ++ toLe 1 (key % 8) ++ toLe 1 kind) s

/-- Live units on a channel. -/
def chanUnits (s : State) (ch : Nat) : List (Nat × Unit) := s.fls.units.filter fun u => blkChan u.2.blk == ch && unitLive s u.2

/-- CHANNEL_STATUS. -/
def execChannelStatus (box : Nat) (s : State) : Res := whileUp s <|
  onZalpol box 0x0403 s fun m s =>
    let ch := byteAt m 0x20
    match chanOf s ch with
    | none => zFail box St.invalidField 0x20 s
    | some c =>
      let code := match c.st with | .inService => 0 | .draining => 1 | .retired => 2 | .admitting => 3
      let left := if c.st = .draining then 4096 * (chanUnits s ch).length else 0
      let cap := if c.st = .inService then ((c.luns.filter fun l => l.2.admitted && !l.2.retired).map fun l => lunGood l.2).sum else 0
      zRespond box St.success 0 (toLe 1 code ++ toLe 1 (c.luns.filter fun l => l.2.admitted).length ++ toLe 1 c.unusedLuns ++
        toLe 1 (c.luns.filter fun l => l.2.retired).length ++ toLe 4 c.rate ++ toLe 8 left ++ toLe 8 cap) s

/-- CHANNEL_DRAIN (R275): allocation on the channel stops; its units are moved away. -/
def execChannelDrain (box : Nat) (s : State) : Res := whileUp s <|
  onZalpol box 0x0404 s fun m s =>
    let ch := byteAt m 0x20
    match chanOf s ch with
    | none => zFail box St.invalidField 0x20 s
    | some c =>
      let s' := modChan ch (fun c => { c with st := .draining, drainSeq := fld m 4 2 }) s
      if c.st = .draining || c.st = .admitting then zFail box St.busy 0 s
      else if c.st = .retired then zFail box St.invalidField 0x20 s
      else if t2Cap s' < poolUsed s 2 none || t3Cap s' < poolUsed s 3 none then zFail box St.insufficientCapacity 0 s
      else if (chansUp s).length ≤ 24 then zFail box St.flushBudget 0 s
      else if s.fls.chans.any fun x => x.2.st == .draining then zFail box St.busy 0 s
      else zRespond box St.success 0 [] s'

/-- A channel's flush reserve passes to those in service (R275). -/
def passReserve (ch : Nat) (s : State) : State :=
  let n := ((chanOf s ch).map Chan.reserve).getD 0
  let k := max 1 (chansUp s).length
  s.onFls fun f => { f with chans := f.chans.map fun c =>
    if c.1 = ch then (c.1, { c.2 with reserve := 0 })
    else if c.2.st = .inService then (c.1, { c.2 with reserve := c.2.reserve + ceilDiv n k }) else c }

/-- CHANNEL_DRAIN_COMPLETE: no bytes remain: the channel is RETIRED. -/
def execChannelDrainComplete (ch : Nat) (s : State) : Res := whileUp s <|
  match chanOf s ch with
  | none => .next s
  | some c =>
    if c.st != .draining || !(chanUnits s ch).isEmpty then .next s
    else
      let s := passReserve ch (modChan ch (fun c => { c with st := .retired }) s)
      let s := s.onFls fun f => { f with endur := { f.endur with retiredChans := f.endur.retiredChans + 1 } }
      .next (commandDone 0 0x0404 c.drainSeq St.success 0 []
        (mediaEvent ch 0 2 (logEv Log.mediaChange (chanIsland ch) 0 (toLe 1 ch ++ [2]) s)))

/-- CHANNEL_ADMIT (R275 step 5): accepted for a RETIRED channel. -/
def execChannelAdmit (box : Nat) (s : State) : Res := whileUp s <|
  onZalpol box 0x0405 s fun m s =>
    let ch := byteAt m 0x20
    match chanOf s ch with
    | none => zFail box St.invalidField 0x20 s
    | some c =>
      if c.st = .draining || c.st = .admitting then zFail box St.busy 0 s
      else if c.st = .inService then zFail box St.invalidField 0x20 s
      else zRespond box St.success 0 [] (modChan ch (fun c => { c with st := .admitting, drainSeq := fld m 4 2 }) s)

/-- How the LUNs of a channel are identified (R253, R254, R261): reset, ID, parameter page, temperature. -/
def identifyOps (ch : Nat) (c : Chan) : List OnfiOp :=
  c.luns.flatMap fun l =>
    let n := blkField ch l.1 0
    [.reset n, .readId n, .readParameterPage n]
/-- Every block of the admitted LUNs of a channel is erased (R275). -/
def eraseOps (ch : Nat) (c : Chan) : List OnfiOp :=
  (c.luns.filter fun l => l.2.admitted).flatMap fun l => (List.range l.2.blocks).map fun i => .eraseBlock (blkField ch l.1 i)
/-- The program records of blocks that identification finds bad (R275). -/
def badRecords (luns : List LunId) : Tab Blk :=
  luns.flatMap fun l => (nub l.bad).map fun i => (blkField l.ch l.lun i, { mode := 255 })

/-- CHANNEL_ADMIT_COMPLETE: the module's LUNs identified, trained and erased; a module no table matches is not admitted. -/
def execChannelAdmitComplete (ch rate : Nat) (luns : List LunId) (s : State) : Res := whileUp s <|
  match chanOf s ch with
  | none => .next s
  | some c =>
    if c.st != .admitting then .next s
    else
      let c' := admitChan s.fls.tables { c with luns := foundLuns ch luns, rate := min rate 3600, st := .inService, reserve := 67108864 }
      if !(c'.luns.any fun l => l.2.admitted) then
        .next (commandDone 0 0x0405 c.drainSeq St.mediaTableMissing 0 (toLe 8 0) (modChan ch (fun c => { c with st := .retired }) s))
      else
        let cap := ((c'.luns.filter fun l => l.2.admitted).map fun l => lunGood l.2).sum
        let s := onfi (identifyOps ch c' ++ eraseOps ch c') (forgetBlocks (fun b => blkChan b == ch) s)
        let s := s.onFls fun f => { f with
          chans := tabSet f.chans ch c'
          blks := (badRecords (luns.filter fun l => l.ch == ch)).foldl (fun t p => tabSet t p.1 p.2) (f.blks.filter fun p => blkChan p.1 != ch)
          lunEndur := f.lunEndur.filter fun p => p.1 % 32 != ch }
        .next (pumpPages (commandDone 0 0x0405 c.drainSeq St.success 0 (toLe 8 cap) s))

/-! Endurance (R277, R278). -/

/-- In-service bulk blocks of the node or one LUN: their number, and the erase counts of the listed ones. -/
def bulkWear (s : State) (only : Option (Nat × Nat)) : Nat × List Nat :=
  let places := (lunPlaces s).filter fun p => only.all fun o => o == (p.1, p.2.1)
  let pick (p : Nat × Blk) : Bool := places.any fun q => q.1 == blkChan p.1 && q.2.1 == blkLunKey p.1
  let mine := s.fls.blks.filter fun p => pick p && !inSlc s p.1
  ((places.map fun p => (regionSpan s false p.2.2).2).sum - (mine.filter fun p => p.2.mode == 255).length,
    (mine.filter fun p => p.2.mode != 255).map fun p => p.2.erases)

/-- Rated bulk cycles: the least of the tables behind the LUNs asked about. -/
def bulkRated (s : State) (only : Option (Nat × Nat)) : Nat :=
  match ((lunPlaces s).filter fun p => only.all fun o => o == (p.1, p.2.1)).map fun p => mtRated (lunTable s p.2.2) 2 with
  | [] => 1
  | x :: xs => xs.foldl min x

/-- mean_bulk, max_bulk, min_bulk, life_used. -/
def wearOf (s : State) (only : Option (Nat × Nat)) : Nat × Nat × Nat × Nat :=
  let (n, es) := bulkWear s only
  let mean := es.sum / max 1 n
  (mean, es.foldl max 0, if es.length < n then 0 else es.foldl min (es.headD 0), mean * 1000 / bulkRated s only)

/-- An endurance record (R277). -/
def endurRecord (s : State) (only : Option (Nat × Nat)) (e : Endur) : Bytes :=
  let (mean, hi, lo, life) := wearOf s only
  toLe 8 e.submitted ++ toLe 8 e.journal ++ toLe 8 e.fold ++ toLe 8 e.relocate ++ toLe 8 e.level ++ toLe 8 e.drain ++
    toLe 8 e.programmed ++ toLe 8 e.direct ++ toLe 8 e.erasesSlc ++ toLe 8 e.erasesBulk ++ toLe 4 mean ++ toLe 4 hi ++
    toLe 4 lo ++ toLe 4 life ++ toLe 4 e.retiredBlocks ++ toLe 2 e.retiredLuns ++ toLe 2 e.retiredChans ++
    toLe 4 s.stew.boot ++ zeros 4 ++ toLe 8 (now s)

/-- ENDURANCE: of the node, or of one LUN. -/
def execEndurance (box : Nat) (s : State) : Res := whileUp s <|
  onZalpol box 0x0406 s fun m s =>
    let ch := byteAt m 0x21
    let key := byteAt m 0x22 * 8 + byteAt m 0x23
    if byteAt m 0x20 = 0 then zRespond box St.success 0 (endurRecord s none s.fls.endur) s
    else zChecked box [(0x20, byteAt m 0x20 == 1), (0x21, decide (ch < 32)), (0x22, decide (byteAt m 0x22 < 4)),
        (0x23, decide (byteAt m 0x23 < 8) && (lunOf s ch key).isSome)] s fun s =>
      zRespond box St.success 0 (endurRecord s (some (ch, key)) (tabGetD s.fls.lunEndur (blkField ch key 0) {})) s

/-- life_used that first reaches 800, 900 or 1,000 permille is logged and reported (R278). -/
def lifeCheck (s : State) : State :=
  let life := (wearOf s none).2.2.2
  match [1000, 900, 800].find? fun x => decide (x ≤ life) with
  | some x =>
    if x ≤ s.fls.lifeSent then s
    else raiseEvent 0 EvCode.lifeThreshold (toLe 4 life)
      (logEv Log.mediaChange 60 0 (toLe 4 life) (s.onFls fun f => { f with lifeSent := x }))
  | none => s

/-! Reading (R260 to R264). -/

/-- Whether a block's age is known (R260). -/
def ageKnown (s : State) (r : Blk) : Bool := r.refBoot == s.stew.boot
/-- A block's age in seconds. -/
def ageOf (s : State) (r : Blk) : Nat := r.ageAtRef + (now s - r.refUp) / 10 ^ 9
/-- Lower edges of the age bins 1 to 7, in seconds (R261). -/
def ageEdges : List Nat := [3600, 86400, 604800, 2592000, 7776000, 31536000, 94608000]
/-- The age bin of an age. -/
def ageBin (a : Nat) : Nat := (ageEdges.filter fun e => decide (e ≤ a)).length
/-- The temperature bin of twice a difference: the middle of two whole temperatures may lie on a half. -/
def tempBin (t : Int) : Nat := if t ≤ -80 then 0 else if t ≤ -30 then 1 else if t < 30 then 2 else if t < 80 then 3 else 4
/-- The temperature a read uses: the LUN's last good value for 10 s, then the channel's highest (R261). -/
def readTemp (s : State) (b : Nat) : Int :=
  match lunOf s (blkChan b) (blkLunKey b) with
  | none => 25
  | some l =>
    if now s ≤ l.tempAt + 10 ^ 10 then l.temp
    else (((chanOf s (blkChan b)).map fun c => c.luns.map fun x => x.2.temp).getD []).foldl max l.temp
/-- The threshold-grid set of a read, indices varying last to first (R255, R261). -/
def gridSet (s : State) (b : Nat) : Nat :=
  let r := blkOf s b
  let bin := min 7 (8 * r.erases / mtRated (blkTable s b) r.mode)
  (((r.mode - 1) * 8 + bin) * 8 + ageBin (ageOf s r)) * 5 + tempBin (2 * readTemp s b - (r.tmin + r.tmax))

/-- A unit no step decodes (R263): poisoned, its block marked RELOCATE; a new loss is a detection (R373). -/
def loseUnit (k : Nat) (s : State) : State :=
  match tabGet s.fls.units k with
  | none => s
  | some u =>
    let s := modBlk u.blk (fun r => { r with relocate := true }) s
    if u.poisoned then s
    else
      let s := mapChange k (some { u with poisoned := true }) s
      let o := (tabGet s.obj.recs u.obj).getD {}
      let here := if u.upper then o.st == .resident || o.st == .evicting || o.st == .writingBack else servingTier o == o.home
      let lost := if u.upper then (List.range 64).map (64 * u.upage + ·) else homePoison s u.obj
      let s := if here then modObj u.obj (fun o => { o with poison := nub (o.poison ++ lost) }) s else s
      detect { kind := 0, cause := 4, unitKind := 4, island := chanIsland (blkChan u.blk), unit := u.blk % 1024, action := 3,
               location := u.blk + 2 ^ 32 * u.page, handle := o.handle, tenant := hTenant o.handle } s

/-- Page reads of a read that stops at a step (R263): one for the first, one for each ladder set, three for the soft decode. -/
def readsOfStep (d : Nat) : Nat := if d ≤ 9 then d else 12
/-- A page read at the offsets set for it. -/
def readAt (s : State) (b page set : Nat) : List OnfiOp :=
  [.setFeatures (blkLun b) (byteAt (blkTable s b) 9) set, .readPage b page, .readStatus (blkLun b)]
/-- Number of set i of a mode's retry ladder, of its calibration ladder: the sets as the media table stores them, the 640 of the threshold
grid first (R255). -/
def retrySet (mode i : Nat) : Nat := 640 + (mode - 1) * 8 + i
def calibrationSet (mode i : Nat) : Nat := 656 + (mode - 1) * 7 + i
/-- The page reads of a read that stops at a step (R263): at the grid's set, at the retry ladder's in order, and for the soft decode three
more, around the best of them (log entry 111). -/
def readsAt (s : State) (b page d : Nat) : List OnfiOp :=
  let mode := (blkOf s b).mode
  ((List.range (readsOfStep d)).map fun i =>
    if i = 0 then readAt s b page (gridSet s b)
    else if i ≤ 8 then readAt s b page (retrySet mode (i - 1))
    else [.readPage b page, .readStatus (blkLun b)]).flatten

/-- One unit's read outcome (R263, R264), read for a stream of its channel: counted, recorded, RELOCATE above 0.6 × C or at the soft decode. -/
def readUnit (stream : Nat) (x : UnitRead) (s : State) : State :=
  match tabGet s.fls.units x.unit with
  | none => s
  | some u =>
    let b := u.blk
    let p := replayRead (blkChan b) x.decode s
    let x := { x with decode := p.1 }
    let s := recordInput 8 (blkChan b) false (toLe 4 (1 + 2 ^ 24 * if 10 < x.decode then 0xFF else x.decode - 1)) p.2
    let s := modLun (blkChan b) (blkLunKey b) (fun l => { l with
      retries := l.retries + b2n (inRange x.decode 2 9), softs := l.softs + b2n (x.decode == 10) }) s
    let s := onfi (readsAt s b u.page x.decode) (s.onFls fun f => { f with
      readSet := gridSet s b
      readPlain := if 10 < x.decode then f.readPlain else decryptUnit s (blkOf s b).key x.unit u.data })
    let s := chanIssue (blkChan b) (4096 * readsOfStep x.decode) stream s
    if 10 < x.decode then loseUnit x.unit s
    else if x.decode = 10 || 6 * mtCapability (blkTable s b) < 10 * x.corrected then modBlk b (fun r => { r with relocate := true }) s
    else s

/-- FLASH_READ_COMPLETE (R263): a read of a block whose age is unknown waits for its calibration (R262), and one whose channel's island is
off or in reset at its crossing (R32). What decodes is decrypted for the reader (R270). -/
def execFlashReadComplete (unit decode corrected : Nat) (s : State) : Res := whileUp s <|
  match tabGet s.fls.units unit with
  | none => .next s
  | some u =>
    if !ageKnown s (blkOf s u.blk) || !islandUp s (chanIsland (blkChan u.blk)) then .next s
    else .next (readUnit (hTenant ((tabGet s.obj.recs u.obj).getD {}).handle) { unit := unit, decode := decode, corrected := corrected } s)

/-- LUN_TEMPERATURE_READ (R261): a good reading is kept; a failed one leaves the last. -/
def execLunTemperatureRead (ch lun : Nat) (temp : Option Int) (s : State) : Res := whileUp s <|
  match temp with
  | none => .next s
  | some t =>
    .next (modLun ch lun (fun l => { l with temp := t, tempAt := now s })
      (onfi [.getFeatures (blkField ch lun 0) (byteAt (blkTable s (blkField ch lun 0)) 0x0B)] <| recordInput 0x0A (ch * 32 + lun) false (toLe 4 (fieldOfInt 32 (16 * t)) ++ zeros 4) s))

/-- The ladder set with the fewest corrected bits, the lowest on a tie (R262). -/
def bestSet (l : List Nat) : Nat :=
  ((l.zipIdx.foldl (fun (b : Nat × Nat) p => if p.1 < b.1 then p else b) (l.headD 0, 0))).2

/-- BLOCK_CALIBRATION (R262): a programmed block of unknown age takes the lower edge of the age bin that reads best. -/
def execBlockCalibration (blk : Nat) (counts : List Nat) (s : State) : Res := whileUp s <|
  let r := blkOf s blk
  if !(r.mode == 1 || r.mode == 2) || ageKnown s r || counts.length != 7 then .next s
  else
    let s := onfi ((List.range 7).flatMap fun i => readAt s blk (r.pages - 1) (calibrationSet r.mode i)) (s.onFls fun f => { f with
      calibrations := f.calibrations + 1 })
    let s := chanIssue (blkChan blk) (7 * mtPage (blkTable s blk)) (Config.backStream 0) s
    .next (modBlk blk (fun r => { r with
      refBoot := s.stew.boot, refUp := now s, ageAtRef := ageEdges.getD (bestSet counts) 0, calibrated := true }) s)

/-! The gleaner (R265, R266). -/

/-- The gleaner period, ns. -/
def gleanerPeriod (s : State) : Nat :=
  (match genProfile (gen s) with | 0 => 5 | 2 => 14 | _ => 7) * 86400 * 10 ^ 9
/-- Whether a block holds programmed pages. -/
def programmed (r : Blk) : Bool := (r.mode == 1 || r.mode == 2) && r.pages != 0
/-- Whether a block is due: its period has passed since its last patrol in this start. -/
def patrolDue (s : State) (r : Blk) : Bool :=
  programmed r && r.patBoot == s.stew.boot && decide (r.patUp + gleanerPeriod s ≤ now s)
/-- Background work begun: its token, and its bytes in its bucket (R362, R398). -/
def background (kind inst ch target n : Nat) (s : State) : State :=
  (bucketCharge 6 inst n (backToken (chanIsland ch) ch kind target s)).onFab fun f => { f with
    urgent := f.urgent.filter (· != (2, inst)) }
/-- Whether background work may begin: its bucket lets it, or it is urgent. -/
def backgroundOk (s : State) (inst : Nat) (urgent : Bool) : Bool :=
  backgroundUp s && (urgent || bucketOk s 6 inst || s.fab.urgent.contains (2, inst))
/-- Whether an operation of a kind may begin on a block: as background work of its bucket, and in a replay where the recording has it next. -/
def mayStartOn (s : State) (kind inst blk : Nat) (urgent : Bool) : Bool :=
  backgroundOk s inst urgent && replayBegins s (chanIsland (blkChan blk)) (blkChan blk) kind blk

/-- A block patrolled: every unit of it is read, at the first step and without errors where the row names no outcome; the most corrected
bits, the time. -/
def patrol (b : Nat) (reads : List UnitRead) (s : State) : State :=
  let mine := (s.fls.units.filter fun u => u.2.blk == b).map fun u =>
    (reads.find? fun x => x.unit == u.1).getD { unit := u.1, decode := 1, corrected := 0 }
  let s := mine.foldl (fun s x => readUnit (Config.backStream 0) x s) s
  modBlk b (fun r => { r with
    patBoot := s.stew.boot, patUp := now s, urgent := false, maxCorr := (mine.map UnitRead.corrected).foldl max 0 }) s

/-- GLEANER_PATROL (R265): the due block patrolled longest ago, or an urgent one. -/
def execGleanerPatrol (blk : Nat) (reads : List UnitRead) (s : State) : Res := whileUp s <|
  let r := blkOf s blk
  if !patrolDue s r || !ageKnown s r || !mayStartOn s 8 0 blk r.urgent || s.fls.sweeping ||
      (!r.urgent && s.fls.blks.any fun p => patrolDue s p.2 && decide (p.2.patUp < r.patUp)) then .next s
  else .next (patrol blk reads (background 8 0 (blkChan blk) blk (r.pages * mtPage (blkTable s blk)) s))

/-- GLEANER_AGING_PROMOTION (R265, R365): a block due for 24 h is promoted once; it is a wake event (R432). -/
def execGleanerAgingPromotion (blk : Nat) (s : State) : Res := whileUp s <|
  let r := blkOf s blk
  if !patrolDue s r || r.urgent || now s < r.patUp + gleanerPeriod s + 86400 * 10 ^ 9 then .next s
  else
    let s := (timerToken (chanIsland (blkChan blk)) 6 s).onFls fun f => { f with agings := f.agings + 1 }
    .next (wakeEvent (modBlk blk (fun r => { r with urgent := true }) (s.onFab fun f => { f with promoted := tabAdd f.promoted 3 1 })))

/-- Blocks the priority sweep has still to patrol (R266). -/
def sweepLeft (s : State) : List (Nat × Blk) := s.fls.blks.filter fun p => programmed p.2 && p.2.patBoot != s.stew.boot

/-- PRIORITY_SWEEP (R266): after a cold start every programmed block is patrolled, oldest data first. -/
def execPrioritySweep (blk : Nat) (reads : List UnitRead) (s : State) : Res := whileUp s <|
  let r := blkOf s blk
  let left := sweepLeft s
  if !s.fls.sweeping then .next s
  else if left.isEmpty then .next (s.onFls fun f => { f with sweeping := false })
  else if !(left.any fun p => p.1 == blk) || !ageKnown s r || !backgroundUp s || !replayBegins s (chanIsland (blkChan blk)) (blkChan blk) 8 blk ||
      left.any (fun p => decide (p.2.progBoot < r.progBoot) || (p.2.progBoot == r.progBoot && decide (p.2.progUp < r.progUp))) then
    .next s
  else
    let s := patrol blk reads (background 8 0 (blkChan blk) blk (r.pages * mtPage (blkTable s blk)) s)
    .next (s.onFls fun f => { f with sweeping := !(sweepLeft s).isEmpty })

/-! Moves (R257, R258, R264, R267, R269). -/

/-- A block emptied of live units, closed, is due for erase. -/
def emptied (b : Nat) (s : State) : State :=
  if (blkUnits s b).isEmpty && (blkOf s b).mode != 255 then modBlk b (fun r => { r with eraseDue := true }) s else s

/-- Whether a channel is idle: no read that has been issued waits for it. -/
def channelIdle (s : State) (ch : Nat) : Bool := !s.shv.reads.any fun r => !r.2.landed && r.2.blks.any fun b => blkChan b == ch
/-- Whether folding starts by the profile's rule (R257). -/
def foldStarts (s : State) (srcs : List Nat) : Bool :=
  let used := bufferUsed s
  let lim := bufferLimit s
  s.fls.foldUrgent || match genProfile (gen s) with
    | 0 => decide (9 * lim ≤ 10 * used)
    | 2 => (decide (lim ≤ 2 * used) && srcs.all fun b => decide (readTemp s b ≤ 40)) || decide (8 * lim ≤ 10 * used)
    | _ => decide (lim ≤ 2 * used) || srcs.all fun b => channelIdle s (blkChan b)

/-- FOLD (R257): one full buffer block per bulk bit, all under one key, into one free bulk block. -/
def execFold (srcs : List Nat) (blk : Nat) (s : State) : Res := whileUp s <|
  let key := (blkOf s (srcs.headD 0)).key
  let ok (b : Nat) : Bool := let r := blkOf s b
    r.mode == 1 && r.use == 2 && r.key == key && !r.eraseDue && decide (mtPages (blkTable s b) 1 ≤ r.pages)
  if srcs.isEmpty || srcs.length != byteAt (blkTable s blk) 7 || (nub srcs).length != srcs.length || !srcs.all ok ||
      !blkFree s blk || inSlc s blk || !foldStarts s srcs || !mayStartOn s 0 4 blk s.fls.foldUrgent then .next s
  else
    let n := (srcs.map fun b => blkBytes s b 1).sum
    let s := openBlk blk 2 3 key (background 0 4 (blkChan blk) blk n s)
    .next (srcs.foldl (fun s b => emptied b s) s)

/-- The least count of live units among a region's closed blocks. -/
def leastUnits (s : State) (slc : Bool) : List (Nat × Nat) :=
  (s.fls.blks.filter fun p => inSlc s p.1 == slc && inRange p.2.use 1 3 && (p.2.mode == 1 || p.2.mode == 2) && !p.2.eraseDue &&
    decide (mtPages (blkTable s p.1) p.2.mode ≤ p.2.pages)).map fun p => (p.1, (blkUnits s p.1).length)

/-- A block to take moved units of a mode, use and key: an open one, or a free one opened. -/
def takeBlock (slc : Bool) (r : Blk) (s : State) : Option State :=
  if (openFor s r.mode r.use r.key).isSome then some s
  else (nextFree s slc).map fun b => openBlk b r.mode r.use r.key s

/-- GARBAGE_COLLECTION (R258): the block with the fewest valid units of a region is reclaimed; urgent below 2 % free. -/
def execGarbageCollection (slc : Bool) (blk : Nat) (s : State) : Res := whileUp s <|
  let all := leastUnits s slc
  match all.find? fun p => p.1 == blk with
  | none => .next s
  | some p =>
    let urgent := decide (regionFree s slc * 100 < 2 * regionBlocks s slc)
    if all.any (fun q => decide (q.2 < p.2)) || !mayStartOn s 1 4 blk urgent then .next s
    else match takeBlock slc (blkOf s blk) s with
      | none => .next s
      | some s1 => .next (emptied blk (background 1 4 (blkChan blk) blk (4096 * p.2) s1))

/-- A block retired: out of its pools, counted on its LUN and in the endurance records, logged (R273). -/
def retireBlk (b : Nat) (s : State) : State :=
  if (blkOf s b).mode = 255 then s
  else
    let s := modBlk b (fun r => { r with mode := 255, eraseDue := false, relocate := false }) s
    let s := modLun (blkChan b) (blkLunKey b) (fun l => { l with retiredBlocks := l.retiredBlocks + 1 }) s
    logEv Log.mediaChange (chanIsland (blkChan b)) 0 (toLe 4 b)
      (endurAdd b (fun e => { e with retiredBlocks := e.retiredBlocks + 1 }) s)

/-- A channel all of whose LUNs are retired is retired (R275). -/
def chanCheck (ch : Nat) (s : State) : State :=
  match chanOf s ch with
  | none => s
  | some c =>
    if c.st = .retired || !(c.luns.all fun l => l.2.retired || !l.2.admitted) || !(c.luns.any fun l => l.2.retired) then s
    else
      let s := passReserve ch (modChan ch (fun c => { c with st := .retired }) s)
      let s := s.onFls fun f => { f with endur := { f.endur with retiredChans := f.endur.retiredChans + 1 } }
      detect { kind := 3, cause := 0x21, unitKind := 5, island := chanIsland ch, unit := ch, action := 2 } (mediaEvent ch 0 1 s)

/-- A LUN retired (R274): its pools shrink; what still reads is moved, what does not is found poisoned. -/
def retireLun (ch key : Nat) (s : State) : State :=
  if ((lunOf s ch key).map Lun.retired).getD true then s
  else
    let s := modLun ch key (fun l => { l with retired := true }) s
    let s := endurAdd (blkField ch key 0) (fun e => { e with retiredLuns := e.retiredLuns + 1 }) s
    chanCheck ch (detect { kind := 3, cause := 0x20, unitKind := 4, island := chanIsland ch, unit := blkField ch key 0, action := 2 }
      (mediaEvent ch key 0 s))

/-- A LUN whose retired blocks exceed its table's limit is retired (R274). -/
def lunCheck (ch key : Nat) (s : State) : State :=
  match lunOf s ch key with
  | none => s
  | some l => if byteAt (lunTable s l) 0x34 * l.blocks < 100 * l.retiredBlocks then retireLun ch key s else s

/-- RELOCATION (R264, R273): a RELOCATE block's readable units go to a newly opened block; units found uncorrectable are lost,
and their block is retired. -/
def execRelocation (blk dst : Nat) (bad : List Nat) (s : State) : Res := whileUp s <|
  let r := blkOf s blk
  if !r.relocate || !(r.mode == 1 || r.mode == 2) || !blkFree s dst || inSlc s dst != inSlc s blk || !mayStartOn s 2 0 blk false then .next s
  else
    let lost := bad.filter fun k => (tabGet s.fls.units k).any fun u => u.blk == blk
    let s := openBlk dst r.mode r.use r.key (background 2 0 (blkChan blk) blk (4096 * (blkUnits s blk).length) s)
    let s := lost.foldl (fun s k => loseUnit k s) s
    .next (if lost.isEmpty then emptied blk s else lunCheck (blkChan blk) (blkLunKey blk) (retireBlk blk s))

/-- Spread of erase counts at which levelling begins (R269). -/
def wearLimit (s : State) : Nat := if genProfile (gen s) = 2 then 200 else 400

/-- WEAR_LEVELLING (R269): beyond the spread, the youngest programmed block of the region, oldest data first, gives its
units to the free block of highest erase count. -/
def execWearLevelling (slc : Bool) (s : State) : Res := whileUp s <|
  let mine := s.fls.blks.filter fun p => inSlc s p.1 == slc && blkInService s p.1
  let n := (lunPlaces s).map fun p => (regionSpan s slc p.2.2).2
  let lo := if mine.length < n.sum then 0 else (mine.map fun p => p.2.erases).foldl min ((mine.head?.map fun p => p.2.erases).getD 0)
  let hi := (mine.map fun p => p.2.erases).foldl max 0
  let younger (a b : Nat × Blk) : Bool := decide (a.2.erases < b.2.erases) || (a.2.erases == b.2.erases &&
    (decide (a.2.progBoot < b.2.progBoot) || (a.2.progBoot == b.2.progBoot && decide (a.2.progUp < b.2.progUp))))
  let cold := (mine.filter fun p => programmed p.2 && !p.2.eraseDue).foldl (fun (b : Option (Nat × Blk)) p =>
    match b with | some x => some (if younger p x then p else x) | none => some p) none
  let old := (mine.filter fun p => blkFree s p.1).foldl (fun (b : Option (Nat × Blk)) p =>
    match b with | some x => some (if x.2.erases < p.2.erases then p else x) | none => some p) none
  match cold, old with
  | some c, some o =>
    if hi - lo ≤ wearLimit s || o.2.erases ≤ c.2.erases || !mayStartOn s 3 3 c.1 false then .next s
    else
      let s := openBlk o.1 c.2.mode c.2.use c.2.key (background 3 3 (blkChan c.1) c.1 (4096 * (blkUnits s c.1).length) s)
      .next (emptied c.1 s)
  | _, _ => .next s

/-- Whether a unit of a draining channel may be moved now: background work goes on, and in a replay the recording has the move next. -/
def mayDrain (s : State) (b : Nat) : Bool := backgroundUp s && replayBegins s (chanIsland (blkChan b)) (blkChan b) 4 b
/-- The stream a move of units runs in, by its cause: 0 fold or collection, 1 relocation, 2 wear levelling, 3 drain. -/
def moveStream (cause : Nat) : Nat := Config.backStream (match cause with | 0 => 4 | 1 => 0 | 2 => 3 | _ => 5)

/-- UNIT_MOVE_PROGRAMMED (R253, R267, R270): the unit was read, decoded and decrypted, and encrypted again under the same key and tweak,
which gives the same ciphertext; it was programmed and the program succeeded. The mapping switches only where it still points at the
location read; otherwise the copy is discarded. A block left empty is due for erase. -/
def execUnitMoveProgrammed (unit : Nat) (mv : UnitMove) (s : State) : Res := whileUp s <|
  let d := blkOf s mv.toBlk
  if !(d.mode == 1 || d.mode == 2) || d.eraseDue || mtPages (blkTable s mv.toBlk) d.mode ≤ mv.toPage ||
      d.key != (blkOf s mv.fromBlk).key || (mv.cause = 3 && !mayDrain s mv.fromBlk) then .next s
  else
    let drain := mv.cause = 3
    let s := if drain then bucketCharge 5 0 8192 (backToken (chanIsland (blkChan mv.fromBlk)) (blkChan mv.fromBlk) 4 mv.fromBlk s) else s
    let s := onfi [.readPage mv.fromBlk mv.fromPage, .readStatus (blkLun mv.fromBlk), .programPage mv.toBlk mv.toPage,
      .readStatus (blkLun mv.toBlk)] (modBlk mv.toBlk (fun r => { r with pages := max r.pages (mv.toPage + 1) }) s)
    let s := endurAdd mv.toBlk (fun e => { e with
      programmed := e.programmed + 4096, fold := e.fold + if mv.cause = 0 then 4096 else 0,
      relocate := e.relocate + if mv.cause = 1 then 4096 else 0, level := e.level + if mv.cause = 2 then 4096 else 0,
      drain := e.drain + if drain then 4096 else 0 }) s
    let s := chanIssue (blkChan mv.toBlk) 4096 (moveStream mv.cause) (chanIssue (blkChan mv.fromBlk) 4096 (moveStream mv.cause) s)
    match tabGet s.fls.units unit with
    | none => .next s
    | some u =>
      if u.blk != mv.fromBlk || u.page != mv.fromPage then .next s
      else
        let s := s.onFls fun f => { f with readPlain := decryptUnit s d.key unit u.data }
        let p := programUnit mv.toBlk mv.toPage unit u s
        .next (emptied mv.fromBlk (mapChange unit (some p.1) p.2))

/-- Reads in flight that resolved to a block (R267). -/
def readsOn (s : State) (b : Nat) : Nat := (s.shv.reads.filter fun r => !r.2.landed && r.2.blks.contains b).length

/-- Whether the snapshot of a held recording maps a unit of a block (R401). -/
def snapHolds (s : State) (b : Nat) : Bool := s.recd.snap.isSome && s.recd.snapMap.any fun u => u.2.blk == b

/-- BLOCK_ERASE (R267): a block due is erased once no read holds it; stale mappings of it go. -/
def execBlockErase (blk : Nat) (s : State) : Res := whileUp s <|
  let r := blkOf s blk
  if !r.eraseDue || readsOn s blk != 0 || !(blkUnits s blk).isEmpty || snapHolds s blk then .next s
  else
    let s := modBlk blk (fun r => { erases := r.erases + 1 }) s
    let s := endurAdd blk (fun e => { e with
      erasesSlc := e.erasesSlc + b2n (r.mode == 1), erasesBulk := e.erasesBulk + b2n (r.mode != 1) }) s
    .next (pumpPages (lifeCheck (onfi [.eraseBlock blk, .readStatus (blkLun blk)] (forgetBlocks (fun b => b == blk) (s.onFls fun f => { f with
      foldUrgent := f.foldUrgent && !inSlc s blk })))))

/-- MAPPING_PAGE_WRITE (R268): dirty mapping pages are persisted, the oldest changes first. -/
def execMappingPageWrite (bytes : Nat) (s : State) : Res := whileUp s <|
  .next ((saveMap (ceilDiv bytes 4096) s).onFls fun f => { f with
    dirtyMap := f.dirtyMap - min bytes f.dirtyMap,
    endur := { f.endur with programmed := f.endur.programmed + min bytes f.dirtyMap } })

/-! Failures (R273, R274, R276). -/

/-- A program, erase or busy outcome is an external input (R399). -/
def recordStatus (b page op : Nat) (s : State) : State :=
  recordInput 9 (blkChan b) false (toLe 4 b ++ toLe 2 page ++ toLe 1 op ++ [0]) s

/-- PROGRAM_FAILURE (R273): the last page's data is written again elsewhere and the block is retired. -/
def execProgramFailure (blk dst : Nat) (s : State) : Res := whileUp s <|
  let r := blkOf s blk
  if !(r.mode == 1 || r.mode == 2) || r.pages = 0 || !(blkFree s dst || (openFor s r.mode r.use r.key) == some dst) ||
      blk == dst || inSlc s dst != inSlc s blk then .next s
  else
    let page := r.pages - 1
    let s := recordStatus blk page 0 s
    let s := if blkFree s dst then openBlk dst r.mode r.use r.key s else s
    let us := (s.fls.units.filter fun u => u.2.blk == blk && u.2.page == page)
    let s := retireBlk blk (programPage dst us s)
    .next (lunCheck (blkChan blk) (blkLunKey blk) s)

/-- ERASE_FAILURE (R273): the block is retired. -/
def execEraseFailure (blk : Nat) (s : State) : Res := whileUp s <|
  if !(blkOf s blk).eraseDue || readsOn s blk != 0 then .next s
  else .next (lunCheck (blkChan blk) (blkLunKey blk) (retireBlk blk (recordStatus blk 0 1 s)))

/-- LUN_BUSY_TIMEOUT (R274): the third within an hour retires the LUN. -/
def execLunBusyTimeout (ch lun : Nat) (s : State) : Res := whileUp s <|
  match lunOf s ch lun with
  | none => .next s
  | some l =>
    if l.retired || !l.admitted then .next s
    else
      let at_ := (now s :: l.busyAt).filter fun t => decide (now s ≤ t + 3600 * 10 ^ 9)
      let s := modLun ch lun (fun l => { l with busyAt := at_ }) (recordStatus (blkField ch lun 0) 0 2 s)
      .next (if 3 ≤ at_.length then retireLun ch lun s else s)

/-- The record of a channel retired or lost. -/
def chanDet (ch : Nat) : Det := { kind := 3, cause := 0x21, unitKind := 5, island := chanIsland ch, unit := ch, action := 2 }

/-- A channel lost: its units are poisoned, its pools shrink (R276). -/
def loseChannel (ch : Nat) (s : State) : State :=
  let lost := chanUnits s ch
  let s := lost.foldl (fun s u => loseUnit u.1 s) s
  let s := passReserve ch (modChan ch (fun c => { c with st := .retired }) s)
  let s := s.onFls fun f => { f with endur := { f.endur with retiredChans := f.endur.retiredChans + 1 } }
  detect (chanDet ch) (mediaEvent ch 0 1 s)

/-- CHANNEL_LOSS (R276). -/
def execChannelLoss (ch : Nat) (s : State) : Res := whileUp s <|
  .next (if ((chanOf s ch).map Chan.st).getD .retired == .retired then s else loseChannel ch s)

end Sys2Proof.Machine
end

