-- ==== Sys2Proof/Machine/PackMath.lean ====
section
/-! DEFINITION. The coding of checkpoint streams (chapter 11): symbols, the code table, blocks, the stream, and its decoding.
Pure functions of the source bytes, the element code and the slot class (R281). -/

namespace Sys2Proof.Machine
open Sys2Proof

/-! Symbols (R283). -/

/-- g: elements of a symbol; 0 for an element code that is stored raw. -/
def packGroup : Nat → Nat
  | 1 | 2 | 3 | 5 => 1
  | 4 | 6 => 2
  | 7 | 8 => 4
  | _ => 0
/-- Bits of a symbol. -/
def packSymBits (f : Nat) : Nat := if packGroup f = 0 then 0 else packGroup f * (floatShape f).1
/-- Byte length of block i of a source of n bytes. -/
def packBlkLen (n i : Nat) : Nat := min 4096 (n - 4096 * i)
/-- Bit positions, within block i of m bytes, of its coded elements: whole elements, in whole groups. -/
def packElems (f i m : Nat) : List Nat :=
  let w := elemBits f
  let first := (w - 32768 * i % w) % w
  let whole := (8 * m - first) / w
  if packGroup f = 0 || 8 * m < first then []
  else (List.range (whole / packGroup f * packGroup f)).map fun j => first + w * j
/-- The symbols of a block's bytes: the exponents of g elements, the first in the low bits. -/
def packSyms (f i : Nat) (b : Bytes) : List Nat :=
  let v := leNat b
  let (eb, mb, _) := floatShape f
  (chunks (packGroup f) (packElems f i b.length)).map fun g =>
    (g.zipIdx.map fun p => bitsOf v (p.1 + mb) eb * 2 ^ (eb * p.2)).sum
/-- Whether a bit of a block is part of a coded exponent field: the positions of coded elements given. -/
def packCoded (f : Nat) (els : List Nat) : List Nat :=
  let (eb, mb, _) := floatShape f
  els.flatMap fun e => (List.range eb).map (e + mb + ·)
/-- Drops ascending positions from ascending positions. -/
def packDrop : List Nat → List Nat → List Nat
  | [], _ => []
  | x :: xs, [] => x :: xs
  | x :: xs, y :: ys => if x = y then packDrop xs ys else x :: packDrop xs (y :: ys)
/-- Positions of the raw section's bits, in source bit order (R290). -/
def packRawPos (f i m : Nat) : List Nat := packDrop (List.range (8 * m)) (packCoded f (packElems f i m))

/-! Bit streams: each byte filled from bit 0 upward (R290). -/

/-- Bits packed into bytes, padded with 0. -/
def bitsToBytes (bs : List Bool) : Bytes :=
  (chunks 8 bs).map fun c => BitVec.ofNat 8 ((c.zipIdx.map fun p => b2n p.1 * 2 ^ p.2).sum)
/-- The first n bits of bytes. -/
def bytesToBits (b : Bytes) (n : Nat) : List Bool := (List.range n).map fun i => bitOf (byteAt b (i / 8)) (i % 8)
/-- A code's bits, most significant first. -/
def codeBits (len code : Nat) : List Bool := (List.range len).map fun i => bitOf code (len - 1 - i)

/-! The table (R285 to R287). -/

/-- Counts of the symbols of a sample, in ascending symbol value, absent ones left out. -/
def packHist (n : Nat) (syms : List Nat) : List (Nat × Nat) :=
  ((List.range n).map fun y => (y, syms.count y)).filter fun p => p.2 != 0
/-- Merges two lists of (weight, symbols) in ascending weight; of equal weights the first list's come first. -/
def packMergeGo : Nat → List (Nat × List Nat) → List (Nat × List Nat) → List (Nat × List Nat)
  | 0, a, b => a ++ b
  | _, [], b => b
  | _, a, [] => a
  | k + 1, x :: xs, y :: ys => if x.1 ≤ y.1 then x :: packMergeGo k xs (y :: ys) else y :: packMergeGo k (x :: xs) ys
/-- Packages of two neighbours; an odd one at the end is left out. -/
def packPair : List (Nat × List Nat) → List (Nat × List Nat)
  | x :: y :: r => (x.1 + y.1, x.2 ++ y.2) :: packPair r
  | _ => []
/-- Coins in ascending weight, equal weights by symbol value. -/
def packInsert (x : Nat × List Nat) : List (Nat × List Nat) → List (Nat × List Nat)
  | [] => [x]
  | y :: ys => if y.1 ≤ x.1 then y :: packInsert x ys else x :: y :: ys
/-- The list of the package-merge method after a number of rounds; a coin stands before a package of its weight (log entry
40). -/
def packRounds (coins : List (Nat × List Nat)) : Nat → List (Nat × List Nat)
  | 0 => coins
  | k + 1 =>
    let ps := packPair (packRounds coins k)
    packMergeGo (coins.length + ps.length) coins ps
/-- Code lengths of an optimal prefix code limited to a number of bits, by symbol value (R287). -/
def packLens (symBits limit : Nat) (syms : List Nat) : List Nat :=
  let h := packHist (2 ^ symBits) syms
  match h with
  | [] => List.replicate (2 ^ symBits) 0
  | [p] => (List.range (2 ^ symBits)).map fun y => b2n (y == p.1)
  | _ =>
    let coins := h.foldl (fun l p => packInsert (p.2, [p.1]) l) []
    let taken := ((packRounds coins (limit - 1)).take (2 * h.length - 2)).flatMap Prod.snd
    (List.range (2 ^ symBits)).map fun y => taken.count y
/-- The symbols with a code in ascending (length, symbol): (symbol, length). -/
def packOrder (lens : List Nat) : List (Nat × Nat) :=
  (List.range 16).flatMap fun l => if l = 0 then [] else (lens.zipIdx.filter fun p => p.1 == l).map fun p => (p.2, l)
/-- Canonical codes: (symbol, length, code) (R286). -/
def packCodes (lens : List Nat) : List (Nat × Nat × Nat) :=
  let rec go : List (Nat × Nat) → Nat → Nat → List (Nat × Nat × Nat)
    | [], _, _ => []
    | (y, l) :: r, prev, code =>
      let c := code * 2 ^ (l - prev)
      (y, l, c) :: go r l (c + 1)
  match packOrder lens with
  | [] => []
  | (y, l) :: r => go ((y, l) :: r) l 0
/-- Whether a table is valid (R285). -/
def packTableOk (maxLen : Nat) (lens : List Nat) : Bool :=
  let nz := lens.filter (· != 0)
  (nz == [1]) || (nz.all (· ≤ maxLen) && ((nz.map fun l => 2 ^ (15 - l)).sum == 2 ^ 15) && nz.all (· ≤ 15))
/-- The table's bytes: two lengths in each (R285). -/
def packTableBytes (lens : List Nat) : Bytes := (chunks 2 lens).map fun c => BitVec.ofNat 8 (c.getD 0 0 + 16 * c.getD 1 0)
/-- The lengths of a table's bytes. -/
def packTableLens (b : Bytes) : List Nat := b.flatMap fun x => [x.toNat % 16, x.toNat / 16]

/-! Blocks (R289 to R291). -/

/-- The longest code of a slot class (R292). -/
def packLimit (privileged : Bool) : Nat := if privileged then 11 else 15
/-- Blocks of a source. -/
def packCount (n : Nat) : Nat := ceilDiv n 4096
/-- Block i of the source. -/
def packSrc (src : Bytes) (i : Nat) : Bytes := (src.drop (4096 * i)).take (packBlkLen src.length i)
/-- The symbols the table is built from: those of the first 64 blocks (R287). -/
def packSample (f : Nat) (src : Bytes) : List Nat :=
  (List.range (min 64 (packCount src.length))).flatMap fun i => packSyms f i (packSrc src i)
/-- The lengths of a source's table; none where no symbol is coded. -/
def packTable (f : Nat) (privileged : Bool) (src : Bytes) : List Nat :=
  let sample := packSample f src
  if packGroup f = 0 || sample.isEmpty then [] else packLens (packSymBits f) (packLimit privileged) sample
/-- A stored block of its parts, its crc in place (R289). -/
def packSealed (raw : Bool) (n codeLen rawLen : Nat) (payload : Bytes) : Bytes :=
  let h := toLe 1 (b2n raw) ++ [0] ++ toLe 2 n ++ toLe 4 codeLen ++ toLe 4 rawLen
  h ++ toLe 4 (crc32c (h ++ zeros 4 ++ payload)) ++ payload
/-- A block stored RAW. -/
def packRaw (b : Bytes) : Bytes := packSealed true b.length 0 b.length b
/-- Whether a symbol of a block has no code (R291). -/
def packMissed (f : Nat) (lens : List Nat) (i : Nat) (b : Bytes) : Bool :=
  !lens.isEmpty && (packSyms f i b).any fun y => lens.getD y 0 == 0
/-- Block i as it is stored: coded, or RAW where a symbol is missing or coding does not shorten it (R291). -/
def packBlock (f : Nat) (lens : List Nat) (i : Nat) (b : Bytes) : Bytes :=
  if lens.isEmpty || packMissed f lens i b then packRaw b
  else
    let codes := packCodes lens
    let bits := (packSyms f i b).flatMap fun y =>
      match codes.find? fun c => c.1 == y with
      | some c => codeBits c.2.1 c.2.2
      | none => []
    let v := leNat b
    let rawBits := (packRawPos f i b.length).map v.testBit
    let rawLen := ceilDiv rawBits.length 8
    if ceilDiv bits.length 8 + rawLen < b.length then
      packSealed false b.length bits.length rawLen (bitsToBytes bits ++ bitsToBytes rawBits)
    else packRaw b

/-! The stream (R284, R288). -/

/-- Blocks laid out from an offset, each on a 16-byte boundary: (offset, block). -/
def packPlace : Nat → List Bytes → List (Nat × Bytes)
  | _, [] => []
  | o, b :: bs => (roundUp o 16, b) :: packPlace (roundUp o 16 + b.length) bs
/-- Pads bytes with zeros to a length. -/
def padTo (n : Nat) (b : Bytes) : Bytes := b ++ zeros (n - b.length)
/-- The whole stream of a source's stored blocks. -/
def packStream (f : Nat) (privileged : Bool) (src : Bytes) (blocks : List Bytes) : Bytes :=
  let lens := packTable f privileged src
  let table := packTableBytes lens
  let coded := !lens.isEmpty
  let placed := packPlace (64 + table.length) blocks
  let stop := ((placed.getLast?).map fun p => p.1 + p.2.length).getD (64 + table.length)
  let at_ := roundUp stop 64
  let entries := placed.flatMap fun p => toLe 8 (p.1 + 2 ^ 44 * p.2.length)
  let index := entries ++ toLe 4 (crc32c entries)
  let h0 := toLe 4 0x4B434150 ++ toLe 2 1 ++ toLe 1 f ++ toLe 1 (b2n privileged) ++ toLe 8 src.length ++
    toLe 8 (at_ + index.length) ++ toLe 4 blocks.length ++
    toLe 1 (if coded then packSymBits f else 0) ++ toLe 1 (if coded then packGroup f else 0) ++
    toLe 1 (if coded then packLimit privileged else 0) ++ [0] ++ toLe 4 table.length ++ zeros 4 ++ toLe 8 at_
  let h := h0 ++ toLe 4 (crc32c (h0 ++ zeros 16 ++ table)) ++ zeros 12
  padTo at_ (placed.foldl (fun b p => padTo p.1 b ++ p.2) (h ++ table)) ++ index
/-- The largest a stored stream can be: what its home pool is charged (R282). -/
def packMax (n : Nat) : Nat := roundUp (n + 3 * ceilDiv n 512 + 4096) 4096

/-! Decoding (R295). -/

/-- Fields of a stream's header. -/
def pkSource (b : Bytes) : Nat := fld b 8 8
def pkStored (b : Bytes) : Nat := fld b 0x10 8
def pkBlocks (b : Bytes) : Nat := fld b 0x18 4
def pkMaxLen (b : Bytes) : Nat := byteAt b 0x1E
def pkTableLen (b : Bytes) : Nat := fld b 0x20 4
def pkIndex (b : Bytes) : Nat := fld b 0x28 8
/-- The code lengths a stream carries. -/
def pkLens (b : Bytes) : List Nat := packTableLens (slice b 64 (pkTableLen b))
/-- The index entry of block i: its bytes. -/
def pkBlock (b : Bytes) (i : Nat) : Bytes :=
  let e := fld b (pkIndex b + 8 * i) 8
  slice b (e % 2 ^ 44) (bitsOf e 44 13)
/-- Whether bytes begin as a stream does. -/
def pkIsStream (b : Bytes) : Bool := fld b 0 4 == 0x4B434150 && fld b 4 2 == 1
/-- Whether a stream may be expanded at all: header, table and index are right. -/
def pkGood (b : Bytes) : Bool :=
  pkIsStream b && decide (64 ≤ b.length) &&
  fld b 0x30 4 == crc32c (slice b 0 0x30 ++ zeros 4 ++ slice b 0x34 12 ++ slice b 64 (pkTableLen b)) &&
  (pkTableLen b == 0 || packTableOk (pkMaxLen b) (pkLens b)) &&
  fld b (pkIndex b + 8 * pkBlocks b) 4 == crc32c (slice b (pkIndex b) (8 * pkBlocks b)) &&
  (List.range (pkBlocks b)).all fun i =>
    let e := fld b (pkIndex b + 8 * i) 8
    decide (16 ≤ bitsOf e 44 13) && decide (bitsOf e 44 13 ≤ 4112) && decide (e % 2 ^ 44 + bitsOf e 44 13 ≤ pkStored b)
/-- What decoding a block gives. -/
inductive PkOut where
  | bytes (b : Bytes)
  | badCrc
  | badCode
  deriving DecidableEq, Repr
/-- Reads one symbol: the first code that the bits begin with. -/
def pkSym (codes : List (Nat × Nat × Nat)) : Nat → Nat → Nat → List Bool → Option (Nat × List Bool)
  | 0, _, _, _ => none
  | _, _, _, [] => none
  | k + 1, len, acc, b :: bs =>
    let l := len + 1
    let a := 2 * acc + b2n b
    match codes.find? fun c => c.2.1 == l && c.2.2 == a with
    | some c => some (c.1, bs)
    | none => pkSym codes k l a bs
/-- Reads n symbols; all bits must be used. -/
def pkSyms (codes : List (Nat × Nat × Nat)) : Nat → List Bool → Option (List Nat)
  | 0, bs => if bs.isEmpty then some [] else none
  | n + 1, bs =>
    match pkSym codes 15 0 0 bs with
    | none => none
    | some (y, r) => (pkSyms codes n r).map (y :: ·)
/-- Decodes stored block i of a stream of element f. -/
def packDecode (f : Nat) (lens : List Nat) (i : Nat) (b : Bytes) : PkOut :=
  let n := fld b 2 2
  let codeLen := fld b 4 4
  let rawLen := fld b 8 4
  let payload := b.drop 16
  if fld b 0xC 4 != crc32c (b.take 12 ++ zeros 4 ++ payload) then .badCrc
  else if bitOf (byteAt b 0) 0 then (if payload.length = n && rawLen == n then .bytes payload else .badCode)
  else
    let els := packElems f i n
    let pos := packRawPos f i n
    let (eb, mb, _) := floatShape f
    if rawLen != ceilDiv pos.length 8 || payload.length != ceilDiv codeLen 8 + rawLen then .badCode
    else match pkSyms (packCodes lens) (els.length / max 1 (packGroup f)) (bytesToBits payload codeLen) with
    | none => .badCode
    | some ys =>
      let raw := leNat (payload.drop (ceilDiv codeLen 8))
      let rawPart := (pos.zipIdx.map fun p => b2n (raw.testBit p.2) * 2 ^ p.1).sum
      let groups := chunks (packGroup f) els
      let expPart := ((groups.zip ys).map fun q =>
        (q.1.zipIdx.map fun p => bitsOf q.2 (eb * p.2) eb * 2 ^ (p.1 + mb)).sum).sum
      .bytes (toLe n (rawPart + expPart))

end Sys2Proof.Machine
end

