-- ==== Sys2Proof/Machine/Pack.lean ====
section
/-! DEFINITION. The PACK engine's commands (chapter 11): slot grants, coding and decoding of blocks, the switch of a CHECKPOINT
home to its new stream. -/

namespace Sys2Proof.Machine
open Sys2Proof

/-- A PACK request by number; changes to it. -/
def packOf (s : State) (n : Nat) : Option PackReq := tabGet s.fls.pack n
def modPack (n : Nat) (f : PackReq → PackReq) (s : State) : State := s.onFls fun x => { x with pack := tabMod x.pack n f }
/-- Ends a request: its slot is free. -/
def endPack (n : Nat) (s : State) : State := s.onFls fun x => { x with pack := tabDel x.pack n }
/-- Whether a slot is in use. -/
def slotUsed (s : State) (k : Nat) : Bool := s.fls.pack.any fun p => p.2.slot == some k
/-- Slot 8 goes to the oldest privileged request that waits for it; a second one waits for the first to finish (R293). -/
def grantPrivileged (s : State) : State :=
  if slotUsed s 8 then s
  else match s.fls.pack.find? fun p => p.2.privileged && p.2.slot.isNone with
    | some p => modPack p.1 (fun r => { r with slot := some 8 }) s
    | none => s

/-- PACK_SLOT_GRANT (R293): an ordinary slot goes to the request that has waited longest; in Trace the grant emits its
ordering token. -/
def execPackSlotGrant (s : State) : Res := whileUp s <|
  match s.fls.pack.find? (fun p => !p.2.privileged && p.2.slot.isNone), (List.range 8).find? (fun k => !slotUsed s k) with
  | some p, some k =>
    .next (token 0x11 37 0 2 p.2.who ((modPack p.1 (fun r => { r with slot := some k }) s).onFls fun x => { x with packLast := p.1 }))
  | _, _ => .next s

/-- PACK_BLOCK_ENCODE (R287 to R291): the next block of a request is coded, or stored RAW; RAW for want of a symbol is counted
for the slot. -/
def execPackBlockEncode (req : Nat) (s : State) : Res := whileUp s <|
  let s := grantPrivileged s
  match packOf s req with
  | none => .next s
  | some r =>
    match r.slot with
    | none => .next s
    | some k =>
      if r.expand || packCount r.src.length ≤ r.blocks.length then .next s
      else
        let i := r.blocks.length
        let b := packSrc r.src i
        let lens := packTable r.element r.privileged r.src
        let s := if packMissed r.element lens i b then s.onFls fun x => { x with packMissing := tabAdd x.packMissing k 1 } else s
        .next (modPack req (fun r => { r with blocks := r.blocks ++ [packBlock r.element lens i b] }) s)

/-- A stream that cannot be expanded: the whole object reads as poisoned (R295). -/
def poisonWhole (idx : Nat) (s : State) : State :=
  modObj idx (fun o => { o with poison := List.range (ceilDiv o.size 64) }) s
/-- A checkpoint stream fault's detection (R387 cause 0x07). -/
def packFault (idx : Nat) (s : State) : State :=
  match tabGet s.obj.recs idx with
  | some o => detect { kind := 0, cause := 7, unitKind := 9, island := 37, action := 3, tenant := hTenant o.handle, handle := o.handle } s
  | none => s
/-- An expansion's blocks have all been decoded: what was poisoned reads so, and the request ends. -/
def endExpand (req : Nat) (s : State) : State :=
  match packOf s req with
  | none => s
  | some r =>
    let bad := r.poisonBlocks.flatMap fun i => (List.range 64).map (64 * i + ·)
    let s := match r.obj with
      | some idx => modObj idx (fun o => { o with
          poison := o.poison ++ bad.filter fun k => !o.poison.contains k && decide (64 * k < o.size) }) s
      | none => s
    grantPrivileged (endPack req s)

/-- PACK_BLOCK_DECODE (R295): the next block of a stream is decoded, or poisoned on a fault of its own; a stream whose header,
table or index is wrong poisons the whole object. -/
def execPackBlockDecode (req : Nat) (s : State) : Res := whileUp s <|
  let s := grantPrivileged s
  match packOf s req with
  | none => .next s
  | some r =>
    if !r.expand || r.slot.isNone then .next s
    else
      let idx := r.obj.getD 0
      if !pkGood r.src then .next (grantPrivileged (endPack req (packFault idx (poisonWhole idx s))))
      else
        let i := r.blocks.length
        let s := match packDecode (byteAt r.src 6) (pkLens r.src) i (pkBlock r.src i) with
          | .bytes b => modPack req (fun r => { r with blocks := r.blocks ++ [b] }) s
          | .badCrc => packFault idx (modPack req (fun r => { r with
              blocks := r.blocks ++ [zeros (packBlkLen (pkSource r.src) i)], poisonBlocks := r.poisonBlocks ++ [i] }) s)
          | .badCode =>
            let s := packFault idx (modPack req (fun r => { r with
              blocks := r.blocks ++ [zeros (packBlkLen (pkSource r.src) i)], poisonBlocks := r.poisonBlocks ++ [i] }) s)
            logEv Log.packError 37 1 [] (s.onFls fun x => { x with packErrs := x.packErrs + 1 })
        .next (if pkBlocks r.src ≤ i + 1 then endExpand req s else s)

/-- The pages of a stream are programmed as the object's home, and the old stream's mappings are given up (R282). -/
def writeStream (idx : Nat) (b : Bytes) (s : State) : State :=
  match tabGet s.obj.recs idx with
  | none => s
  | some o =>
    let n := ceilDiv b.length 4096
    writePages o idx o.home false n (List.range n) (dropUnits idx true s)

/-- CHECKPOINT_STREAM_SWITCH (R282, R244): every block is coded: the home switches to the new stream in one step. A home in T4
is sent it (R350). Where the copy being written home has changed meanwhile, it is coded again before its write-back ends;
after a cleaning the copy stays dirty where pages were written since it began. -/
def execCheckpointStreamSwitch (idx : Nat) (s : State) : Res := whileUp s <|
  match s.fls.pack.find? (fun p => p.2.obj == some idx && !p.2.expand), tabGet s.obj.recs idx with
  | some p, some o =>
    if p.2.slot.isNone || p.2.blocks.length < packCount p.2.src.length then .next s
    else if o.home != 4 && !flashRoom s o o.home then .next (s.onFls fun f => { f with reserveWaits := f.reserveWaits + 1 })
    else
      let b := packStream p.2.element p.2.privileged p.2.src p.2.blocks
      let s := (endPack p.1 s).onFls fun f => { f with ckpt := tabSet f.ckpt idx b }
      let s := if o.home = 4 then t4Whole .move idx true s else writeStream idx b s
      if o.st = .writingBack then
        .next (if p.2.src == memRead o.mem 0 o.size then s else packWrite idx s)
      else
        .next (headerChange o.home (modObj idx (fun o =>
          if o.pages.isEmpty then { o with dirty := false, homeMem := [], dirtySince := none, writtenEpoch := o.wbEpoch }
          else { o with homeMem := memWrite [] 0 p.2.src, writtenEpoch := o.wbEpoch, dirtySince := some (now s) }) s))
  | _, _ => .next s

end Sys2Proof.Machine
end

