-- ==== Sys2Proof/Machine/Fabric.lean ====
section
/-! DEFINITION. The receiving side of the fabric, peers, node membership, barriers, telemetry, token buckets and aging
(chapter 14). -/

namespace Sys2Proof.Machine
open Sys2Proof

/-! Peers (R356, R357, R361). -/

/-- A peer entry. -/
def peerOf (s : State) (n : Nat) : Peer := tabGetD s.fab.peers n {}

/-- One of the node's messages to a lost peer ends (R357): a sub-search's lists count as missing, a T4 request ends with the
status, a telemetry item waits to be sent again. -/
def endResv (st : Nat) (s : State) (r : Resv) : State :=
  let s := dropResv r.msg s
  if r.kind = 0x10 then
    closeFan r.cmd (modCmd r.cmd (fun c => { c with fan := c.fan.map fun f => { f with
      missing := f.missing + ((f.owed.filter fun o => o.1 == r.node).map Prod.snd).sum,
      owed := f.owed.filter fun o => o.1 != r.node } }) s)
  else if r.kind = 0x20 || r.kind = 0x22 then
    ((r.job.map fun j => t4Fail j st s).getD s).onFab fun f => { f with t4done := f.t4done ++ [(r.msg, st)] }
  else if r.kind = 0x06 then
    s.onFab fun f => { f with telem := f.telem.map fun t => if t.1 = r.msg then (0, t.2) else t }
  else s

/-- A peer entry closes (R357): messages to the peer end with PEER_TIMEOUT or as their rule gives; what was received of it or
owed to it is discarded; work for its answers runs on. Its quarantine and the count of entries opened remain. -/
def closePeer (n : Nat) (s : State) : State :=
  let p := peerOf s n
  let rs := s.fab.resv.filter fun r => r.node == n
  let s := s.onFab fun f => { f with
    peers := tabSet f.peers n { openId := p.openId, violations := p.violations, quarantine := p.quarantine, boot := p.boot,
                                rxOpen := p.rxOpen, outOfOrder := p.outOfOrder, retrans := p.retrans },
    rxMsgs := f.rxMsgs.filter fun m => m.1 != n,
    urgent := f.urgent.filter fun u => !(u.1 == 1 && u.2 / 4 == n) }
  let s := s.onHif fun h => { h with
    cmds := h.cmds.map fun c => if c.2.peer.any fun q => q.1 == n then (c.1, { c.2 with suppressed := true }) else c }
  logEv Log.peerClosed 55 1 (toLe 2 n) (rs.foldl (endResv St.peerTimeout) s)

/-- The newest detection of a fabric fault goes to the collector as an event item (R361, R367): queued, sent as it can be. -/
def queueTelem (kind : Nat) (item : Bytes) (s : State) : State :=
  s.onFab fun f => { f with
    telem := f.telem ++ [(0, toLe 1 kind ++ zeros 3 ++ toLe 4 s.stew.boot ++ toLe 8 s.aon.uptime ++ item)] }

/-- Waiting telemetry items are sent to the collector, the oldest first (R367). -/
def telemPump (s : State) : State :=
  let dst := genCollector (gen s)
  if sendStatus s dst 0 s.eng.epoch != St.success || s.stew.st == .start then s
  else s.fab.telem.foldl (fun s t =>
    if t.1 != 0 || !poolRoom s 16 then s
    else
      let (id, s) := sendRequest { dst := dst, vc := 0, type := 0x06, body := t.2 } 16 0 s
      s.onFab fun f =>
        let (a, b) := f.telem.span fun x => !(x.1 == 0 && x.2 == t.2)
        { f with telem := a ++ (match b with | x :: r => (id, x.2) :: r | [] => []) }) s

/-- An item for the collector (R367). -/
def sendTelem (kind : Nat) (item : Bytes) (s : State) : State := telemPump (queueTelem kind item s)

/-- A frame beyond the credit granted (R353, R361): discarded and counted; 16 within 1 ms quarantine the peer. -/
def creditViolation (n : Nat) (s : State) : State :=
  let s := s.onFab fun f => { f with creditViol := f.creditViol + 1 }
  let vs := (now s :: (peerOf s n).violations).take 16
  let s := modPeer n (fun p => { p with violations := vs }) s
  if vs.length = 16 && decide (now s ≤ vs.getLastD 0 + 1000000) then
    let s := closePeer n (modPeer n (fun p => { p with quarantine := some (now s + 10 ^ 9), violations := [] }) s)
    sendTelem 2 (mailMsg Config.violationEvent 2 0 0 0 0 0 (toLe 2 n ++ zeros 6)) (logEv Log.quarantine 55 2 (toLe 2 n) s)
  else s

/-! Frames (R343, R345, R352, R353). -/

/-- How far a cumulative 32-bit number has come: the advance from a total, 0 where it does not lie ahead. -/
def ahead (total v : Nat) : Nat :=
  let d := (v + 2 ^ 32 - total % 2 ^ 32) % 2 ^ 32
  if d < 2 ^ 31 then d else 0

/-- The ack and credit of an accepted frame or ACK are taken (R352, R353). -/
def takeAck (n vc ack credit : Nat) (s : State) : State :=
  let v := vcOf s n vc
  let first := (v.unacked.head?.map Prod.fst).getD v.txSeq
  let k := min (ahead first ack) v.unacked.length
  let s := modVc n vc (fun v => { v with
    unacked := v.unacked.drop k, attempt := if k = 0 then v.attempt else ((v.unacked.drop k).head?.map fun f => byteAt f.2 3).getD 0,
    interval := if k = 0 then v.interval else 50000,
    oldestAt := if k = 0 then v.oldestAt else now s, firstAt := if k = 0 then v.firstAt else now s,
    credit := v.credit + ahead v.credit credit }) s
  pump n vc s

/-- The message a whole frame sequence forms joins those waiting to be acted on (R346). -/
def messageOf (f : Bytes) (body : Bytes) : Msg :=
  { dst := fld f 6 2 % 2 ^ 14, vc := byteAt f 2 % 4, type := byteAt f 1, id := fld f 0x20 4, tenant := fld f 0x2C 2 % 1024,
    epoch := fld f 0x18 8 % 2 ^ 48, body := body }

/-- Credit is granted back as buffers free: 64 units ahead of what was accepted, while the pool has them (R355). -/
def grantMore (n vc : Nat) (s : State) : State :=
  if vc = 2 || !poolRoom s (256 * ((vcOf s n vc).accepted + 64 - (vcOf s n vc).granted)) then s
  else modVc n vc (fun v => { v with
    granted := max v.granted (v.accepted + 64), ackDue := v.ackDue || decide (v.granted < v.accepted + 64) }) s

/-- Whether a frame is of an answer, which is accepted against its reservation and needs no credit; of HELLO, one that answers the node's
own (R354, R356). -/
def needsNoCredit (s : State) (n : Nat) (f : Bytes) : Bool :=
  isAnswer (byteAt f 1) ||
    (byteAt f 1 == 1 && s.fab.resv.any fun r => r.msg == fld f 0x20 4 && r.node == n && r.kind == 1)

/-- A frame accepted in its turn (R346, R352): its payload joins its message; the last one completes it. -/
def acceptFrame (n vc : Nat) (f : Bytes) (s : State) : State :=
  let pay := slice f 48 (fld f 0x2E 2)
  let u := if needsNoCredit s n f then 0 else frameUnits f
  let s := modVc n vc (fun v => { v with rxSeq := v.rxSeq + 1, accepted := v.accepted + u, ackDue := true }) s
  let part := (if fld f 0x24 4 = 0 then [] else (vcOf s n vc).partial_) ++ pay
  let last := bitOf (byteAt f 2) 3
  let s := modVc n vc (fun v => { v with partial_ := if last then [] else part }) s
  let s := if last then s.onFab fun x => { x with rxMsgs := x.rxMsgs ++ [(n, messageOf f part)] } else s
  takeAck n vc (fld f 0x10 4) (fld f 0x14 4) (grantMore n vc s)

/-- The stream key's parts for a frame received: the sender's ID, boot and open_id, the round of its counter (R345). -/
def rxInfo (s : State) (n vc kind : Nat) (round : Nat) : Bytes :=
  streamInfo n (genNode (gen s)) vc kind (peerOf s n).boot (peerOf s n).rxOpen round

/-- The frame with its payload in clear: as it came, or opened under its stream key (R345). -/
def openFrame (s : State) (n : Nat) (f : Bytes) : Option Bytes :=
  let vc := byteAt f 2 % 4
  if !bitOf (byteAt f 2) 2 then some f
  else
    let ack := byteAt f 1 == 0
    let v := vcOf s n vc
    let seq := fld f 0x0C 4
    let round := if ack then v.rounds + b2n (decide (seq + 2 ^ 31 ≤ v.rxAck)) else v.rxSeq / 2 ^ 32
    Config.gcmOpen ((fabricKey s (fld f 0x2C 2 % 1024)).getD []) (rxInfo s n vc (b2n ack) round) (seq + 2 ^ 32 * byteAt f 3) f

/-- A bad frame is discarded without acknowledgement and counted (R345, R369). -/
def badFrame (port : Nat) (s : State) : State :=
  logEv Log.fabricError (55 + port) 0 [] (s.onFab fun x => { x with badFrames := tabAdd x.badFrames port 1 })

/-- A HELLO frame that opens an entry (R356): sequence numbers and credits start from its header. -/
def helloFrame (n : Nat) (f : Bytes) (s : State) : State :=
  let fresh := !(peerOf s n).open_
  let openId := fld f 0x3C 4
  let s := if fresh || (peerOf s n).rxOpen = openId then s else closePeer n s
  let s := modPeer n (fun p => { p with
    boot := fld f 8 4, rxOpen := openId, quarantine := none }) s
  let seq := fld f 0x0C 4
  let v := vcOf s n 0
  if (peerOf s n).open_ && ahead v.rxSeq seq != 0 then modPeer n (fun p => { p with outOfOrder := p.outOfOrder + 1 }) s
  else if (peerOf s n).open_ && seq != v.rxSeq % 2 ^ 32 then s
  else
    let s := if (peerOf s n).open_ then s else
      firstGrant n <| modVc n 0 (fun v => { v with rxSeq := seq })
        (modVc n 1 (fun v => { v with credit := fld f 0x14 4 }) (modVc n 3 (fun v => { v with credit := fld f 0x14 4 }) s))
    acceptFrame n 0 (putAt f 0x14 (toLe 4 (vcOf s n 0).credit)) s

/-- An ACK frame (R345, R352): its count on its stream must rise, or begin the next round. -/
def ackFrame (n : Nat) (f : Bytes) (s : State) : State :=
  let vc := byteAt f 2 % 4
  let v := vcOf s n vc
  let c := fld f 0x0C 4
  let take (s : State) : State := takeAck n vc (fld f 0x10 4) (fld f 0x14 4) s
  if c + 2 ^ 31 ≤ v.rxAck then take (modVc n vc (fun v => { v with rxAck := c, rounds := v.rounds + 1 }) s)
  else if c ≤ v.rxAck && v.rxAck != 0 then s
  else take (modVc n vc (fun v => { v with rxAck := c }) s)

/-- A message frame on an open entry: accepted when its seq is next and its credit was granted (R352, R353). -/
def dataFrame (n : Nat) (f : Bytes) (s : State) : State :=
  let vc := byteAt f 2 % 4
  let v := vcOf s n vc
  let seq := fld f 0x0C 4
  if seq = v.rxSeq % 2 ^ 32 then
    if !needsNoCredit s n f && decide (v.granted < v.accepted + frameUnits f) then creditViolation n s
    else acceptFrame n vc f s
  else if ahead v.rxSeq seq != 0 then modPeer n (fun p => { p with outOfOrder := p.outOfOrder + 1 }) s
  else modVc n vc (fun v => { v with ackDue := true }) s

/-- The counter of frames that the MAC and the network layer discard, by what they are (R341). -/
def macDrop (port kind : Nat) (s : State) : State := s.onFab fun x => { x with macDrops := tabAdd x.macDrops (port * 4 + kind) 1 }

/-- FRAME_RECEIVE (R341, R343, R345, R352, R353, R356, R361, R366): PAUSE, VLAN and fragment frames are discarded and counted; a frame on the request or bulk channel is a wake event (R432); checks, quarantine, the sender's boot, authentication, then the
frame's own kind. In START nothing is served (R358). -/
def execFrameReceive (port : Nat) (form : FrameForm) (frame : Bytes) (s : State) : Res := whileUp s <|
  let n := fld frame 4 2 % 2 ^ 14
  if !s.fab.ports.getD port false || domainDown s (55 + port) then .next s
  else if form = .pause then .next (macDrop port 0 s)
  else if form = .vlan then .next (macDrop port 1 s)
  else if form = .fragment then .next (macDrop port 2 s)
  else if form = .badSum || decide (frame.length < 48) || byteAt frame 0 != 1 || fld frame 6 2 % 2 ^ 14 != genNode (gen s) then
    .next (badFrame port s)
  else if s.stew.st == .start then .next s
  else
    let s := recordInput 7 port false (toLe 1 port ++ zeros 7 ++ frame) s
    let s := if byteAt frame 2 % 2 = 1 then wakeEvent s else s
    let p := peerOf s n
    let hello := byteAt frame 1 == 1
    if p.quarantine.isSome && !(hello && fld frame 8 4 != p.boot) then
      .next (s.onFab fun x => { x with quarDrop := x.quarDrop + 1 })
    else
      let s := if p.open_ && fld frame 8 4 != p.boot then closePeer n s else s
      if hello then .next (helloFrame n frame s)
      else if !(peerOf s n).open_ then .next (sendHello n s)
      else match openFrame s n frame with
        | none => .next (badFrame port s)
        | some f => .next (if byteAt f 1 = 0 then ackFrame n f s else dataFrame n f s)

/-- ACK_SEND_TIMER (R352): an ACK frame with the next expected seq and the credit granted, counted (R345). -/
def execAckSendTimer (node vc : Nat) (s : State) : Res := whileUp s <|
  let v := vcOf s node vc
  if !(peerOf s node).open_ || !v.ackDue then .next s
  else match streamPort s node s.eng.epoch with
    | none => .next s
    | some port =>
      let s := modVc node vc (fun v => { v with ackCount := v.ackCount + 1 }) s
      let gcm := fwdGcm (forwardEntry s node s.eng.epoch)
      let f := toLe 1 1 ++ [0] ++ toLe 1 (vc + 4 * b2n gcm + 8) ++ [0] ++ toLe 2 (genNode (gen s)) ++ toLe 2 node ++
        toLe 4 s.stew.boot ++ toLe 4 (vcOf s node vc).ackCount ++ toLe 4 v.rxSeq ++ toLe 4 v.granted ++ zeros 24
      .next (wireFrame node vc port f (modVc node vc (fun v => { v with ackDue := false }) s))

/-- A stream's unacknowledged frames are sent again in order, each frame's attempt raised by one; one that would need attempt 256 closes
the peer (R352, R357). -/
def resend (node vc : Nat) (s : State) : State :=
  let v := vcOf s node vc
  if v.unacked.isEmpty then s
  else if 255 ≤ v.attempt then closePeer node s
  else
    let fs := v.unacked.map fun f => (f.1, putAt f.2 3 (toLe 1 (byteAt f.2 3 + 1)))
    let s := modPeer node (fun p => { p with retrans := p.retrans + fs.length }) s
    let s := modVc node vc (fun v => { v with
      attempt := v.attempt + 1, unacked := fs, interval := min (2 * v.interval) 1600000, oldestAt := now s, ackDue := false }) s
    fs.foldl (fun s f =>
      match streamPort s node (frameEpoch s f.2) with
      | some port => wireFrame node vc port (putAt f.2 0x10 (toLe 4 v.rxSeq ++ toLe 4 (creditField s node (byteAt f.2 1) v))) s
      | none => s) s

/-- RETRANSMISSION_TIMEOUT (R352). -/
def execRetransmissionTimeout (node vc : Nat) (s : State) : Res := whileUp s <|
  let v := vcOf s node vc
  if v.unacked.isEmpty || now s < v.oldestAt + v.interval then .next s else .next (resend node vc s)

/-- PEER_TIMEOUT (R357): the oldest frame to the peer has waited the peer timeout. -/
def execPeerTimeout (node vc : Nat) (s : State) : Res := whileUp s <|
  let v := vcOf s node vc
  if (v.unacked.isEmpty && v.waitTx.isEmpty) || now s < v.firstAt + genPeerTimeout (gen s) then .next s
  else .next (closePeer node (timerToken (55 + (streamPort s node s.eng.epoch).getD 0) 1 s))

/-- QUARANTINE_END (R361). -/
def execQuarantineEnd (node : Nat) (s : State) : Res := whileUp s <|
  match (peerOf s node).quarantine with
  | some t => .next (if now s < t then s else modPeer node (fun p => { p with quarantine := none }) s)
  | none => .next s

/-- PORT_LINK_CHANGE (R344): streams move to the lowest port of their mask that is up; those of a port that went down send
their unacknowledged frames again. -/
def execPortLinkChange (port : Nat) (up : Bool) (s : State) : Res := whileUp s <|
  if s.fab.ports.getD port false = up || 4 ≤ port || (up && (s.aon.ethLost || genPortMode (gen s) port == 0 || domainDown s (55 + port) || s.recd.replaying)) then .next s
  else
    let moved := (tabKeys s.fab.peers).flatMap fun n => (List.range 4).filterMap fun vc =>
      if streamPort s n s.eng.epoch == some port then some (n, vc) else none
    let s := logEv Log.port (55 + port) 0 (toLe 1 port ++ toLe 1 (b2n up)) (recordPin (55 + port) (b2n up) s)
    let s := s.onFab fun f => { f with ports := listSet f.ports port up }
    if up then .next (pumpAll s)
    else .next (moved.foldl (fun s p => resend p.1 p.2 s) s)

/-! Messages (R346, R347). A message is acted on in its turn on its (sender, virtual channel). -/

/-- The next message of a sender with an ID, of certain types, nothing before it on its channel. -/
def rxMsg (s : State) (node id : Nat) (types : List Nat) : Option Msg :=
  match s.fab.rxMsgs.find? fun m => m.1 == node && m.2.id == id && types.contains m.2.type with
  | none => none
  | some m =>
    match s.fab.rxMsgs.find? fun x => x.1 == node && x.2.vc == m.2.vc with
    | some x => if x.2.id = id && x.2.type = m.2.type then some m.2 else none
    | none => none
/-- A message has been acted on. -/
def rxDone (node : Nat) (m : Msg) (s : State) : State :=
  s.onFab fun f =>
    let (a, b) := f.rxMsgs.span fun x => !(x.1 == node && x.2 == m)
    { f with rxMsgs := a ++ b.drop 1 }

/-- STATUS that answers a message: on control for a control message, on response for the others (R347). -/
def answerStatus (node : Nat) (m : Msg) (st detail : Nat) (s : State) : State :=
  sendMsg { dst := node, vc := if m.vc = 0 then 0 else 2, type := 0x0F, id := m.id, tenant := m.tenant,
            epoch := if m.vc = 0 then 0 else m.epoch, body := statusBody st detail 0 } s

/-- A control message other than HELLO and TELEMETRY is served in STANDBY and SERVICE only (R358). -/
def onControl (node id : Nat) (types : List Nat) (s : State) (k : Msg → State → State) : Res :=
  match rxMsg s node id types with
  | none => .next s
  | some m => .next (if isServing s then k m (rxDone node m s) else rxDone node m s)

/-- HELLO (R356): the entry is open; a HELLO that answers no HELLO of the node is answered. -/
def execHello (node msg : Nat) (s : State) : Res := whileUp s <|
  match rxMsg s node msg [1] with
  | none => .next s
  | some m =>
    let s := rxDone node m s
    let mine := s.fab.resv.any fun r => r.msg == msg && r.node == node && r.kind == 1
    let was := (peerOf s node).open_
    let sent := !(vcOf s node 0).waitTx.isEmpty || (vcOf s node 0).txSeq != 0
    let s := dropResv (if mine then msg else 2 ^ 32) s
    let s := modPeer node (fun p => { p with
      open_ := true, cls := byteAt m.body 4, job := fld m.body 8 4, openId := if was || sent then p.openId else p.openId + 1 }) s
    let s := if byteAt m.body 4 = genClass (gen s) then s
      else logEv Log.classDiffers 55 1 (toLe 2 node) (s.onFab fun f => { f with classDiff := f.classDiff + 1 })
    let s := if mine then s else
      sendMsg { dst := node, type := 1, id := msg, body := helloBody s (peerOf s node).openId, answer := true } s
    let s := (List.range 4).foldl (fun s vc => pump node vc (grantMore node vc s)) s
    .next (if node = genCollector (gen s) then telemPump s else s)

/-- BARRIER (R223, R359): the pair (barrier ID, current epoch) is recorded as the newest entry, an older one of the ID and its
map are dropped, and the epoch is the answer. -/
def execBarrier (node msg : Nat) (s : State) : Res := whileUp s <|
  onControl node msg [2] s fun m s =>
    let id := fld m.body 0 4
    let s := s.onEng fun e => { e with
      barriers := ({ id := id, epoch := e.epoch } :: e.barriers.filter fun b => b.id != id).take 256 }
    sendMsg { dst := node, type := 3, id := m.id, body := toLe 4 id ++ toLe 2 St.success ++ zeros 2 ++ toLe 8 s.eng.epoch } s

/-- BARRIER_MAP (R359): stored with the barrier's entry; of a barrier not recorded, EPOCH_NOT_RETAINED. -/
def execBarrierMap (node msg : Nat) (s : State) : Res := whileUp s <|
  onControl node msg [4] s fun m s =>
    let id := fld m.body 0 4
    let n := fld m.body 4 2
    let ents := (records 8 (slice m.body 8 (8 * n))).map fun r => (bitsOf (fld r 0 8) 48 14, fld r 0 8 % 2 ^ 48)
    if n = 0 || 1024 < n then answerStatus node m St.invalidField 4 s
    else if !(s.eng.barriers.any fun b => b.id == id) then answerStatus node m St.epochNotRetained 0 s
    else answerStatus node m St.success 0 (s.onEng fun e => { e with
      barriers := e.barriers.map fun b => if b.id = id then { b with map := ents.foldl (fun t p => tabSet t p.1 p.2) b.map } else b })

/-- The first failing check of a JOIN or LEAVE (R358): sender, body fields, generation. -/
def joinBad (s : State) (node : Nat) (m : Msg) : Option (Nat × Nat) :=
  if node != genCoord (gen s) then some (St.accessViolation, 0)
  else match firstBad [(0, byteAt m.body 8 == 1 || fld m.body 0 4 != 0), (8, decide (byteAt m.body 8 ≤ 1)), (9, zeroAt m.body 9 7)] with
    | some off => some (St.invalidField, off)
    | none => if fld m.body 4 4 != (gen s).number then some (St.generationMismatch, 0) else none
/-- Whether a waiting JOIN message leaves. -/
def isLeave (s : State) (node msg : Nat) : Bool := ((rxMsg s node msg [5]).map fun m => byteAt m.body 8 == 1).getD false

/-- JOIN (R358): from STANDBY into SERVICE with the job ID; in SERVICE with the same job nothing changes. In another state it
is answered NODE_STATE or, where control is not served, discarded. -/
def execJoin (node msg : Nat) (s : State) : Res := whileUp s <|
  if isLeave s node msg then .next s
  else onControl node msg [5] s fun m s =>
    let job := fld m.body 0 4
    match joinBad s node m with
    | some (st, d) => answerStatus node m st d s
    | none =>
      if s.stew.st = .standby then answerStatus node m St.success 0 (s.onStew fun w => { w with st := .service, job := job })
      else if s.stew.job = job then answerStatus node m St.success 0 s
      else answerStatus node m St.nodeState 0 s

/-- Commands that serve peers. -/
def peerWork (s : State) : Bool := s.hif.cmds.any fun c => c.2.peer.isSome
/-- LEAVE (R358): request messages are admitted no more, admitted ones complete; then STANDBY, and the answer. The message
stays until then. -/
def execLeave (node msg : Nat) (s : State) : Res := whileUp s <|
  if !isLeave s node msg then .next s
  else match rxMsg s node msg [5] with
    | none => .next s
    | some m =>
      if !isServing s then .next (rxDone node m s)
      else match joinBad s node m with
        | some (st, d) => .next (answerStatus node m st d (rxDone node m s))
        | none =>
          if s.stew.st != .service then .next (answerStatus node m St.nodeState 0 (rxDone node m s))
          else if peerWork s then .next (s.onStew fun w => { w with leaving := some (node, msg) })
          else .next (answerStatus node m St.success 0 ((rxDone node m s).onStew fun w => { w with st := .standby, job := 0, leaving := none }))

/-- TELEMETRY received: answered with STATUS (R347); served also in RECOVERY and FAULT (R358). -/
def execTelemetry (node msg : Nat) (s : State) : Res := whileUp s <|
  match rxMsg s node msg [6] with
  | none => .next s
  | some m => .next (answerStatus node m St.success 0 (rxDone node m s))

/-- UNKNOWN_MESSAGE_TYPE (R347): STATUS INVALID_OPCODE. -/
def execUnknownMessageType (node msg : Nat) (s : State) : Res := whileUp s <|
  match s.fab.rxMsgs.find? fun m => m.1 == node && m.2.id == msg with
  | none => .next s
  | some x =>
    if [1, 2, 3, 4, 5, 6, 0x0F, 0x10, 0x11, 0x20, 0x21, 0x22].contains x.2.type then .next s
    else match rxMsg s node msg [x.2.type] with
      | none => .next s
      | some m =>
        if m.vc = 0 && !isServing s then .next (rxDone node m s)
        else .next (answerStatus node m (if m.vc != 0 && s.stew.st != .service then St.nodeState else St.invalidOpcode) 0 (rxDone node m s))

/-- A T4 request addressed to the node: INVALID_OPCODE in SERVICE, NODE_STATE elsewhere (R347, R358). -/
def refuseT4 (node id ty : Nat) (s : State) : Res :=
  match rxMsg s node id [ty] with
  | none => .next s
  | some m =>
    if quiescing s || ringFull s then .next s
    else .next (answerStatus node m (if s.stew.st = .service then St.invalidOpcode else St.nodeState) 0 (rxDone node m s))
/-- T4_READ received. -/
def execT4Read (node msg : Nat) (s : State) : Res := whileUp s <| refuseT4 node msg 0x20 s
/-- T4_WRITE received. -/
def execT4Write (node msg : Nat) (s : State) : Res := whileUp s <| refuseT4 node msg 0x22 s

/-! Answers. -/

/-- An answer's reservation (R354). -/
def resvOf (s : State) (node id : Nat) (kinds : List Nat) : Option Resv :=
  s.fab.resv.find? fun r => r.node == node && r.msg == id && kinds.contains r.kind
/-- An answer without a reservation is discarded and counted (R354). -/
def lateAnswer (s : State) : State := s.onFab fun f => { f with late := f.late + 1 }
/-- A late answer to a sub-search counts in its collection (R113, R334). -/
def lateSub (node msg : Nat) (s : State) : State :=
  match s.fab.gone.find? fun g => g.1 == node && g.2.1 == msg with
  | none => s
  | some g =>
    let s := s.onFab fun f => { f with gone := f.gone.erase g }
    s.onIdx fun x => { x with cstats := tabSet x.cstats g.2.2 { tabGetD x.cstats g.2.2 {} with late := (tabGetD x.cstats g.2.2 {}).late + 1 } }
/-- A T4 request has ended. -/
def t4Ended (r : Resv) (st : Nat) (s : State) : State := (dropResv r.msg s).onFab fun f => { f with t4done := f.t4done ++ [(r.msg, st)] }

/-- STATUS (R347): it ends a telemetry item, a T4 write's chunk or a refused request. -/
def execStatus (node msg : Nat) (s : State) : Res := whileUp s <|
  match rxMsg s node msg [0x0F] with
  | none => .next s
  | some m =>
    let s := rxDone node m s
    match resvOf s node msg [6, 0x10, 0x20, 0x22] with
    | none => .next (lateAnswer s)
    | some r =>
      if r.kind = 6 then .next (telemPump ((dropResv msg s).onFab fun f => { f with telem := f.telem.filter fun t => t.1 != msg }))
      else if r.kind = 0x22 && fld m.body 0 2 = 0 then
        let s := t4Ended r St.success s
        .next ((r.job.map fun j => if j.off < j.stop then t4Send j s else t4Done j s).getD s)
      else .next (endResv (fld m.body 0 2) s r)

/-- The bytes of a chunk of an object's T4 home, the last before an offset (R350): of a CHECKPOINT object's stream, or of its own. -/
def t4Land (i stop : Nat) (b : Bytes) (s : State) : State :=
  let at_ := stop - b.length
  match tabGet s.fls.ckpt i with
  | some c => s.onFls fun f => { f with ckpt := tabSet f.ckpt i (putAt c at_ b) }
  | none => modObj i (fun o => if o.dirty then { o with homeMem := memWrite o.homeMem at_ b } else { o with mem := memWrite o.mem at_ b }) s

/-- T4_DATA (R350): the bytes of a chunk arrive; the next is asked for, or the transfer has ended. -/
def execT4Data (node msg : Nat) (s : State) : Res := whileUp s <|
  match rxMsg s node msg [0x21] with
  | none => .next s
  | some m =>
    let s := rxDone node m s
    match resvOf s node msg [0x20] with
    | none => .next (lateAnswer s)
    | some r =>
      .next (match r.job with
        | none => t4Ended r St.success s
        | some j =>
          let s := t4Land j.obj j.off (slice m.body 0 r.bytes) (t4Ended r St.success s)
          if j.off < j.stop then t4Send j s else t4Done j s)

/-- T4_REQUEST_TIMEOUT (R350, R251): 100 ms without an answer. -/
def execT4RequestTimeout (msg : Nat) (s : State) : Res := whileUp s <|
  match s.fab.resv.find? fun r => r.msg == msg && (r.kind == 0x20 || r.kind == 0x22) with
  | none => .next s
  | some r => if now s < r.at_ + 100000000 then .next s else .next (endResv St.peerTimeout s r)

/-! Sub-searches (R348, R349, R135, R136). -/

/-- An accumulator out of an answer's header (R349). -/
def accIn (b : Bytes) (off : Nat) (flags : Nat) (bit : Nat) : Acc :=
  { v := signedOf 320 (fld b off 40), pinf := bitOf flags bit, ninf := bitOf flags (bit + 1) }
/-- A peer's answer as a part of the merge (R136). -/
def answerPart (node : Nat) (b : Bytes) : Part :=
  { hits := ((records 16 (slice b 96 (16 * fld b 2 2))).zipIdx.map fun p =>
      { payload := fld p.1 0 8, score := fld p.1 8 4, node := node, pos := p.2, list := fld p.1 0x0C 4 % 2 ^ 20 }),
    sel := accIn b 0x10 (byteAt b 6) 0, rest := accIn b 0x38 (byteAt b 6) 2, nan := fld b 0x0C 4 }

/-- SUB_ANSWER (R113, R135, R136, R349): its list, sums and counts enter the coordinator's merge; a failure's lists count as
missing; without a reservation it is late. -/
def execSubAnswer (node msg : Nat) (s : State) : Res := whileUp s <|
  match rxMsg s node msg [0x11] with
  | none => .next s
  | some m =>
    let s := rxDone node m s
    match resvOf s node msg [0x10] with
    | none => .next (lateSub node msg (lateAnswer s))
    | some r =>
      if fld m.body 0 2 != 0 then .next (endResv (fld m.body 0 2) s r)
      else
        let s := dropResv msg s
        match cmdOf s r.cmd with
        | none => .next s
        | some c =>
          let order := metricOrder (((collAt s (fld c.entry 4 2) (cEpoch c)).map coMetric).getD 0)
          .next (closeFan r.cmd (modCmd r.cmd (fun c => { c with fan := c.fan.map fun f => { f with
            mine := mergeParts true order (byteAt c.entry 6) [f.mine, answerPart node m.body],
            chaff := f.chaff + fld m.body 8 4, missing := f.missing + fld m.body 4 2,
            lists := f.lists + (((f.owed.filter fun o => o.1 == node).map Prod.snd).sum - fld m.body 4 2),
            owed := f.owed.filter fun o => o.1 != node } }) s))

/-- FANOUT_TIMEOUT (R113): the owners that have not answered are absent, their lists missing; later answers are late. -/
def execFanoutTimeout (n : Nat) (s : State) : Res := whileUp s <|
  match cmdOf s n with
  | none => .next s
  | some c =>
    match c.fan with
    | none => .next s
    | some f =>
      if f.owed.isEmpty || now s < f.deadline then .next s
      else
        let s := timerToken 59 2 s
        let rs := s.fab.resv.filter fun r => r.kind == 0x10 && r.cmd == n
        let s := rs.foldl (fun s r => dropResv r.msg s) (s.onFab fun b => { b with
          gone := b.gone ++ rs.map fun r => (r.node, r.msg, fld c.entry 4 2) })
        .next (closeFan n (modCmd n (fun c => { c with fan := c.fan.map fun f => { f with
          missing := f.missing + (f.owed.map Prod.snd).sum, owed := [] } }) s))

/-- The search entry a SUB_SEARCH stands for (R348). -/
def subEntry (b : Bytes) : Bytes :=
  [0x20, 0, 0, 0] ++ toLe 2 (fld b 0 2) ++ toLe 1 (byteAt b 2) ++ toLe 1 (byteAt b 3) ++ toLe 2 (fld b 0x12 2) ++
    toLe 2 (fld b 4 2) ++ toLe 2 (fld b 6 2) ++ zeros 2 ++ zeros 16 ++ toLe 4 (fld b 0x14 4) ++ zeros 12 ++ toLe 4 1120 ++ zeros 12
/-- Field checks of a SUB_SEARCH. -/
def subChecks (b : Bytes) : List Chk :=
  let k := byteAt b 2
  [(2, inRange k 1 64), (3, inRange (byteAt b 3) 1 64), (4, inRange (fld b 4 2) k 1024), (8, decide (fld b 8 8 < 2 ^ 48)),
   (0x10, decide (byteAt b 0x10 ≤ 2)), (0x11, zeroAt b 0x11 1), (0x12, inRange (fld b 0x12 2) 1 1024), (0x18, zeroAt b 0x18 8)]
/-- A sub-search refused: an answer with its status (R113). -/
def refuseSub (node : Nat) (m : Msg) (e st : Nat) (s : State) : State :=
  sendMsg { dst := node, vc := 2, type := 0x11, id := m.id, tenant := m.tenant, epoch := e, body := toLe 2 st ++ zeros 94 } s

/-- The lists a SUB_SEARCH's body `b` names, each with its entry of the collection's directory at epoch `ep` (R112). -/
def subLists (s : State) (b coll : Bytes) (ep : Nat) : List (Nat × Nat × Bytes) :=
  (List.range (fld b 0x12 2)).map fun i => let l := fld b (0x20 + 4 * i) 4 % 2 ^ 20; (i, l, dirEntry s coll l ep)

/-- SUB_SEARCH (R112, R119, R348): in SERVICE it is admitted, bound to the epoch it carries or the current one, and runs through
the sheaf its tenant is steered to for SEARCH; it starts no sub-search of its own. While the node leaves, quiesces or does not
admit, it waits. -/
def execSubSearch (node msg : Nat) (s : State) : Res := whileUp s <|
  match rxMsg s node msg [0x10] with
  | none => .next s
  | some m =>
    if s.stew.st != .service then .next (answerStatus node m St.nodeState 0 (rxDone node m s))
    else if !admits s || s.stew.leaving.isSome || s.eng.waitFor.isSome then .next s
    else
      let b := m.body
      let t := m.tenant
      let ent := steerEntry s (t * 1024 + 0x20) s.eng.epoch
      let e := subEntry b
      let d := (genSheaf (gen s) (ent % 256)).getD []
      let ep := if fld b 8 8 = 0 then s.eng.epoch else fld b 8 8
      let no (st : Nat) : Res := .next (refuseSub node m 0 st (rxDone node m s))
      if !bitOf ent 8 || !bitOf ent 9 then no St.accessViolation
      else if (firstBad (subChecks b)).isSome then no St.invalidField
      else if !shapeOk 0x20 d then no St.formatUnsupported
      else if s.eng.epoch < ep then no St.epochAhead
      else if ep < oldestRetained s then no St.epochNotRetained
      else if !drainRoom s (subWaiter node m.id) ep then
        .next (noteWaiter (subWaiter node m.id) 2 (s.eng.waiting.contains (subWaiter node m.id, 2)) s)
      else match searchAdmit s t d e ep, collAt s (fld b 0 2) ep with
        | some r, _ => no r.status
        | none, none => no St.collectionUnknown
        | none, some coll =>
          if !itemFits s d e ep then no St.sramOvercommit
          else
            let n := fld b 0x12 2
            let ls := subLists s b coll ep
            match listsBad s t d ls with
            | some x =>
              .next (refuseSub node m 0 x (rxDone node m (if x = St.accessViolation then countViolation t s else s)))
            | none =>
              let port := (streamPort s node s.eng.epoch).getD 0
              let c := withLists s coll ls {
                qp := 0xFFF, tenant := t, opcode := 0x20, cid := 0, entry := e, epoch := some ep, cls := byteAt b 0x10,
                sheaf := some (ent % 256), desc := d, items := 1, ran := true, peer := some (node, msg),
                query := slice b (roundUp (0x20 + 4 * n) 64) (fld b 0x14 4), fan := some { missing := n - (localLists ls).length } }
              .next (enterCmd c [] [] (token 0x01 59 0 8 (0x1000 + port + 65536 * ep)
                (searchDrops c (rxDone node m (endWaiter (subWaiter node m.id) s)))))

/-! Metering (R368), buckets (R363), aging (R365). -/

/-- METER_INTERVAL: one item for each tenant whose meters changed. -/
def execMeterInterval (s : State) : Res := whileUp s <|
  if now s < s.fab.meterAt + genMeter (gen s) then .next s
  else
    let s := (accrue s).onFab fun f => { f with meterAt := s.aon.uptime }
    .next (telemPump ((tabKeys s.obj.meters).foldl (fun s t =>
      let ms := metersOut s t
      if tabGet s.obj.meterSent t == some ms then s
      else
        queueTelem 1 (toLe 2 t ++ zeros 6 ++ ms.flatMap (toLe 8)) (s.onObj fun o => { o with meterSent := tabSet o.meterSent t ms })) s))

/-- BUCKET_REFILL (R363, R364): every bucket rises by its rate × 1 µs, up to its burst; what waited for a flow's bucket is sent, as each port's
arbiter chooses. T4 transfers that wait for room in the receive pool, and the writes of T4 homes that commits have left, go out before
(R243, R350, R354; log entry 121). -/
def execBucketRefill (s : State) : Res := whileUp s <|
  let s := s.onFab fun f => { f with buckets := f.buckets.map fun b =>
    let row := b.1 / 65536
    let inst := b.1 % 65536
    (b.1, { level := min (b.2.level + (bucketRate s row inst : Int)) ((bucketBurst s row inst : Int) * 1000000) }) }
  .next (pumpAll (t4Pump s))

/-- Since when a request waits, where one of that class and ID does: a queue's head, a mailbox, an awn read; a stream's frames;
a background stream (its wait is not held: log entry 41). -/
def waitingSince (s : State) (cls id : Nat) : Option Nat :=
  if cls = 0 then
    if id < 4096 then ((qpOf s id).fetched.head?).map Fetched.since
    else if id < 8192 then
      let m := mbxOf s (id - 4096)
      if mbxReady m then some m.inSince else none
    else ((tabGet s.shv.reads (id - 8192)).bind fun r => if r.seen then none else some r.at_)
  else if cls = 1 then
    let v := vcOf s (id / 4) (id % 4)
    if v.waitTx.isEmpty then none else some v.firstAt
  else if cls = 2 && id < 5 && !bucketOk s 6 id then some 0
  else if cls = 2 && 5 ≤ id && !bucketOk s 5 (id - 5) && s.idx.rebuilds.any fun b => b.2.running && rebuildTenant s b.2 == id - 5 then some 0
  else none
/-- The starvation bound of a class (R365). -/
def ageBound (s : State) (cls : Nat) : Nat :=
  if cls = 0 then genHostBound (gen s) else if cls = 1 then genFabricBound (gen s) else genBackBound (gen s)

/-- AGING_PROMOTION (R365): a request past its class's bound is promoted once to the urgent class; its arbiter's next choice
serves it. Frames are sent at once where credit allows. -/
def execAgingPromotion (cls id : Nat) (s : State) : Res := whileUp s <|
  match waitingSince s cls id with
  | none => .next s
  | some t =>
    if s.fab.urgent.contains (cls, id) || now s < t + ageBound s cls then .next s
    else
      let s := timerToken (if cls = 0 then 59 else if cls = 1 then 55 else 36) 4 s
      let s := wakeEvent (s.onFab fun f => { f with urgent := f.urgent ++ [(cls, id)], promoted := tabAdd f.promoted cls 1 })
      .next (if cls = 1 then pump (id / 4) (id % 4) s else s)

end Sys2Proof.Machine
end

