-- ==== Sys2Proof/Machine/Reliability.lean ====
section
/-! DEFINITION. Retirement and spares, threshing runs, detections and signature records, the event log, die links and
crossings (chapter 15; R24, R415, R417). -/

namespace Sys2Proof.Machine
open Sys2Proof

/-! Spares (R374 to R377). -/

/-- Physical slot of a logical tile. -/
def tileSlot (s : State) (t : Nat) : Nat := tabGetD s.shv.slotOf t (t % 16)
/-- Whether a cluster's tiller is free: neither standing for a tile, about to, nor retired. -/
def tillerFree (s : State) (cl : Nat) : Bool :=
  (tabGet s.shv.tillerUse cl).isNone && !s.shv.retired.contains (cl, 16) &&
    !(s.shv.swapping.any fun p => p.1 / 16 == cl && (p.2 == 16 || p.2 == 48))
/-- Free spare culms of a die. -/
def spareCulms (s : State) (stack : Nat) : Nat :=
  ([64, 65, 66, 67].filter fun x => !s.stk.badCulms.contains (stack, x) &&
    !s.stk.culms.any fun u => u.1 % 8 == stack && u.2.phys == x && !u.2.unserved).length

/-- A tile's T0 copies go home before it is left: readable words as they are, lost ones poisoned (R376). -/
def emptyT0 (t : Nat) (s : State) : State :=
  s.obj.recs.foldl (fun s p =>
    if p.2.upper != 0 || p.2.placeUp % 512 != t || p.2.st == .absent || p.2.st == .promoting then s
    else
      let s := if p.2.dirty then writeHome p.1 p.2.home false p.2.pages s else s
      modObj p.1 (fun o => { o with
        dirty := false, pages := [], homeMem := [], dirtySince := none, writtenEpoch := if o.dirty then s.eng.epoch else o.writtenEpoch }) s) s

/-- The copies of a dead tile, home by then, are released. -/
def dropT0 (t : Nat) (s : State) : State :=
  s.obj.recs.foldl (fun s p =>
    if p.2.upper = 0 && p.2.placeUp % 512 = t && p.2.st != .absent && pinsAll p.2 = 0 then dropClean p.1 (accrue s) else s) s

/-- Batches that wait on a dead tile go to a live one of their stage (R377); a SPLIT stage's other lanes have them already,
or the next live one takes the slice over. -/
def dealAgain (t : Nat) (s : State) : State :=
  s.shv.stages.foldl (fun s p =>
    let sh := p.1 / 512
    let i := p.1 / 32 % 16
    let k := p.1 % 32
    p.2.inputs.foldl (fun s x =>
      let d := itemsDesc s sh x.2.items
      let e := shStage d i
      if sgBase e + k != t || (liveLanes s e).isEmpty || p.2.running.any (fun b => b.num == x.2.num) then s
      else
        let lane := if sgSplit e then ((liveLanes s e).find? fun j => decide (k < j)).getD ((liveLanes s e).headD 0) else dealLane s e x.2.seq
        let key := stKey sh i lane
        let s := modStage p.1 (fun r => { r with inputs := r.inputs.filter (· != x) }) s
        if (stageBatches (stageOf s key)).any (fun b => b.num == x.2.num) then s
        else modStage key (fun r => { r with inputs := r.inputs ++ [x] }) s) s) s

/-- Items that a tile works on complete POISON (R375). -/
def poisonRunning (t : Nat) (s : State) : State :=
  s.shv.stages.foldl (fun s p =>
    if runningTile s p.1 p.2 != some t then s
    else ((p.2.running.map Batch.items).getD []).foldl (fun s i =>
      modCmd i.cmd (fun c => { c with viol := if c.viol = 0 then St.poison else c.viol }) s) s) s

/-- The threshing run that stops where another tile of its cluster, or culm of its die, is retired (R382): its unit returns,
its spare is free, COMMAND_DONE THRESH_UNAVAILABLE. -/
def stopRun (kind grp unit : Nat) (s : State) : State :=
  s.rel.runs.foldl (fun s x =>
    let same := x.st == .running && x.unitKind == kind && x.unit != unit &&
      (if kind = 0 then x.unit / 16 == grp else x.unit % 8 == grp)
    if !same then s
    else
      let s := if kind = 0 then
          s.onShv fun v => { v with
            swapping := if tabGetD v.slotOf x.unit (x.unit % 16) = 16 then tabSet v.swapping x.unit x.phys else tabDel v.swapping x.unit }
        else modCulm x.unit (fun u => if u.phys = x.phys then { u with held := false } else { u with held := true, back := some x.phys }) s
      let s := s.onRel fun r => { r with runs := r.runs.map fun y => if y.id = x.id then { y with st := .done } else y }
      commandDone 0 0x0501 x.seq St.threshUnavailable 0 [] s) s

/-- A tile is retired in service (R375 to R377): its tiller takes over, or its logical slot is dead. The detection is given
without its action. -/
def retireTile (t : Nat) (d : Det) (s : State) : State :=
  let cl := t / 16
  let phys := tileSlot s t
  let s := stopRun 0 cl t s
  let free := tillerFree s cl || (s.shv.tillerUse.any fun p => p.1 == cl && p.2 != t && (tabGet s.shv.swapping p.2).isSome)
  let s := emptyT0 t (s.onShv fun v => { v with retired := v.retired ++ [(cl, phys)] })
  let d := { d with unitKind := 0, island := tileIsland t, unit := t, physical := phys, spares := 0 }
  if free && phys != 16 then
    detect { d with action := 1 } (s.onShv fun v => { v with swapping := tabSet v.swapping t 16 })
  else
    detect { d with action := 2 } (dropT0 t (dealAgain t (s.onShv fun v => { v with absent := v.absent ++ [t], swapping := tabDel v.swapping t })))

/-- A culm is retired in service (R375, R190, R191): its queue is held until a spare, if one is left, is switched in. -/
def retireCulm (k : Nat) (d : Det) (s : State) : State :=
  let phys := (culmOf s k).phys
  let s := stopRun 1 (k % 8) k s
  let left := spareCulms s (k % 8)
  let s := s.onStk fun m => { m with badCulms := m.badCulms ++ [(k % 8, phys)] }
  detect { d with unitKind := 1, island := culmIsland k, unit := k, physical := phys, action := if left = 0 then 2 else 1, spares := left - 1 }
    (modCulm k (fun u => { u with held := true, back := none }) s)

/-! Threshing runs (R379 to R382). -/

/-- The key of a crossing unit: sending island × 64 + receiving island. -/
def crossKey (unit : Nat) : Nat := unit % 64 * 64 + unit / 256 % 64
/-- Whether a unit number names a crossing: one the model knows, or another pair of islands that the free predicate says
cross (log entry 33). -/
def isCrossing (unit : Nat) : Bool :=
  let (a, b) := (unit % 64, unit / 256 % 64)
  unit / 64 % 4 == 0 && decide (unit < 2 ^ 14) && a != b &&
    ((crossingsOf a).contains (min a b, max a b) || Config.otherCrossing a b)
/-- The island a run works in. -/
def runIsland (kind unit : Nat) : Nat := if kind = 0 then tileIsland unit else if kind = 1 then culmIsland unit else unit % 64
/-- Whether a unit can be taken out of service now (R382). -/
def canTake (s : State) (kind unit : Nat) : Bool :=
  if kind = 0 then tillerFree s (unit / 16) && (tabGet s.shv.swapping unit).isNone
  else if kind = 1 then spareCulms s (unit % 8) != 0 && !(culmOf s unit).held && !(culmOf s unit).unserved
  else !s.rel.laneBad.contains (crossKey unit) && !s.rel.laneReq.contains (crossKey unit)
/-- The physical slot, or lane, of a unit. -/
def unitPhys (s : State) (kind unit : Nat) : Nat :=
  if kind = 0 then tileSlot s unit else if kind = 1 then (culmOf s unit).phys else tabGetD s.rel.lanes (crossKey unit) 0
/-- A unit is taken out of service: tiller, spare culm or other lane (R381 step 1). -/
def takeOut (kind unit : Nat) (s : State) : State :=
  if kind = 0 then s.onShv fun v => { v with swapping := tabSet v.swapping unit 16 }
  else if kind = 1 then modCulm unit (fun u => { u with held := true, back := none }) s
  else s.onRel fun r => { r with laneReq := r.laneReq ++ [crossKey unit] }
/-- A unit returns to service after a pass (R381 step 4). -/
def bringBack (x : Thresh) (s : State) : State :=
  if x.unitKind = 0 then s.onShv fun v => { v with swapping := tabSet v.swapping x.unit x.phys }
  else if x.unitKind = 1 then modCulm x.unit (fun u => { u with held := true, back := some x.phys }) s
  else s.onRel fun r => { r with laneReq := r.laneReq ++ [crossKey x.unit] }
/-- Changes a run. -/
def modRun (id : Nat) (f : Thresh → Thresh) (s : State) : State :=
  s.onRel fun r => { r with runs := r.runs.map fun x => if x.id = id then f x else x }
/-- Running threshing runs. -/
def running (s : State) : List Thresh := s.rel.runs.filter fun x => x.st == .running
/-- Whether a queued run may begin: fewer than 16 proceed, none on its island (R379). -/
def mayBegin (s : State) (x : Thresh) : Bool :=
  decide ((running s).length < 16) && !((running s).any fun y => runIsland y.unitKind y.unit == runIsland x.unitKind x.unit)
/-- Queued runs begin in arrival order; one whose unit cannot be taken now ends THRESH_UNAVAILABLE. -/
def startRuns (s : State) : State :=
  s.rel.runs.foldl (fun s x =>
    if x.st != .queued || !mayBegin s x then s
    else if !canTake s x.unitKind x.unit then
      commandDone 0 0x0501 x.seq St.threshUnavailable 0 [] (modRun x.id (fun y => { y with st := .done }) s)
    else takeOut x.unitKind x.unit (modRun x.id (fun y => { y with st := .running, phys := unitPhys s x.unitKind x.unit }) s)) s

/-- THRESH_RUN (R334, R379 to R382). -/
def execThreshRun (box : Nat) (s : State) : Res := whileUp s <|
  onZalpol box 0x0501 s fun m s =>
    let kind := byteAt m 0x20
    let unit := fld m 0x22 2
    let known := if kind = 0 then decide (unit < 512) && !s.shv.absent.contains unit
      else if kind = 1 then decide (unit < 512) else isCrossing unit
    zChecked box [(0x20, decide (kind ≤ 2)), (0x22, known), (0x24, decide (byteAt m 0x24 ≤ 8)), (0x25, decide (byteAt m 0x25 ≤ 10)),
        (0x26, decide (byteAt m 0x26 ≤ 1) && (byteAt m 0x26 == 0 || kind == 0)),
        (0x28, Config.patternSetHeld (fld m 0x28 4) kind), (0x2C, inRange (fld m 0x2C 4) 1 600000)] s fun s =>
      if !canTake s kind unit || s.rel.runs.any (fun x => x.st != .done && x.unitKind == kind && x.unit == unit) then
        zFail box St.threshUnavailable 0 s
      else
        let id := s.rel.nextRun
        let s := s.onRel fun r => { r with
          nextRun := id + 1,
          runs := r.runs ++ [{ id := id, unitKind := kind, unit := unit, vStep := byteAt m 0x24, fStep := byteAt m 0x25,
                               heat := byteAt m 0x26 == 1, set_ := fld m 0x28 4, duration := fld m 0x2C 4, st := .queued,
                               seq := fld m 4 2 }] }
        zRespond box St.success 0 (toLe 4 id) (startRuns s)

/-- THRESH_STATUS (R334). -/
def execThreshStatus (box : Nat) (s : State) : Res := whileUp s <|
  onZalpol box 0x0502 s fun m s =>
    match s.rel.runs.find? fun x => x.id == fld m 0x20 4 with
    | none => zFail box St.invalidField 0x20 s
    | some x =>
      zRespond box St.success 0 (toLe 1 (match x.st with | .queued => 0 | .running => 1 | .done => 2) ++ zeros 3 ++ toLe 4 x.pattern) s

/-- The clock of a unit in its run: the profile's tile clock, or a culm's, raised by the frequency steps (R379); measured where a limit
lowers the tile clock, and on a crossing. -/
def threshClock (s : State) (x : Thresh) : Option Nat :=
  let free := decide (1700 ≤ s.aon.capMhz) && !s.aon.clusterMhz.any fun p => p.1 == x.unit / 16
  match x.unitKind with
  | 0 => if free then some (profileMhz (gen s) * (100 + x.fStep) / 100) else none
  | 1 => some (1000 * (100 + x.fStep) / 100)
  | _ => none

/-- A run's detection on a mismatch (R381, R386, R387). -/
def threshDet (s : State) (x : Thresh) (pattern iteration expected observed : Nat) : Det :=
  { kind := 1, cause := 0x10, run := x.id, pattern := pattern, patternSet := x.set_, vStep := x.vStep, fStep := x.fStep,
    iteration := iteration, expected := expected, observed := observed, temp := x.maxTemp, clock := threshClock s x,
    heater := if x.heat then fieldOfInt 16 (hottest s (4 * (x.unit / 16)) 4) else 0x8000 }

/-- The unit under test, or the spare under test, is retired (R375, R381). The spare that took over stays in service. -/
def retireTested (x : Thresh) (d : Det) (s : State) : State :=
  if x.unitKind = 0 then
    let cl := x.unit / 16
    let slot := if x.onSpare then 16 else x.phys
    detect { d with unitKind := 0, island := tileIsland x.unit, unit := x.unit, physical := slot, action := if x.onSpare then 2 else 1, spares := 0 }
      (s.onShv fun v => { v with retired := v.retired ++ [(cl, slot)] })
  else if x.unitKind = 1 then
    let st := x.unit % 8
    let slot := if x.onSpare then (freeSpare s st).getD 64 else x.phys
    let s := s.onStk fun m => { m with badCulms := m.badCulms ++ [(st, slot)] }
    detect { d with unitKind := 1, island := culmIsland x.unit, unit := x.unit, physical := slot, action := if x.onSpare then 2 else 1,
                    spares := spareCulms s st } s
  else
    let k := crossKey x.unit
    let lane := 1 - tabGetD s.rel.lanes k 0
    detect { d with unitKind := 2, island := x.unit % 64, unit := x.unit % 2 ^ 14 + 2 ^ 15 * lane, action := if x.onSpare then 2 else 1, spares := 0 }
      (s.onRel fun r => { r with laneBad := r.laneBad ++ [k] })

/-- THRESH_ITERATION_END (R381): the digest is compared; the first mismatch retires the unit at once and ends the run, whose
COMMAND_DONE follows with its record. -/
def execThreshIterationEnd (run pattern iteration expected observed : Nat) (s : State) : Res := whileUp s <|
  match s.rel.runs.find? fun x => x.id == run && x.st == .running && x.applied with
  | none => .next s
  | some x =>
    let s := modRun run (fun y => { y with pattern := pattern }) s
    if expected = observed then .next s
    else .next (startRuns (retireTested x (threshDet s x pattern iteration expected observed) (modRun run (fun y => { y with st := .done }) s)))

/-- THRESH_DURATION_END (R381): after the unit's pass it returns to service and the freed spare is tested; after the spare's
pass the run ends with outcome 0. -/
def execThreshDurationEnd (run : Nat) (s : State) : Res := whileUp s <|
  match s.rel.runs.find? fun x => x.id == run && x.st == .running && x.applied with
  | none => .next s
  | some x =>
    if now s < x.began + x.duration * 1000000 then .next s
    else if !x.onSpare then .next (bringBack x (modRun run (fun y => { y with onSpare := true, applied := false }) s))
    else
      .next (startRuns (commandDone 0 0x0501 x.seq St.success 0 (zeros 16) (modRun run (fun y => { y with st := .done }) s)))

/-! Errors of stored data (R372, R373, R375). -/

/-- A corrected error is counted against its unit; past 16 in an hour the unit has a record, one an hour at most (R372). Units by key:
pseudo-channels by number, tile SRAM from 1,024, culm SRAM from 2,048, stook engines from 3,072. -/
def corrected (key : Nat) (d : Det) (s : State) : State :=
  let ts := (now s :: (tabGetD s.stk.ecc key []).filter fun t => decide (now s < t + 3600 * 10 ^ 9))
  let s := s.onStk fun m => { m with ecc := tabSet m.ecc key ts }
  if ts.length ≤ 16 || (tabGet s.stk.eccSent key).any (fun t => decide (now s < t + 3600 * 10 ^ 9)) then s
  else detect { d with kind := 0, cause := 1, action := 4, count := ts.length }
    (s.onStk fun m => { m with eccSent := tabSet m.eccSent key s.aon.uptime })

/-- T1_PATROL_READ (R372, R373): a block read in an idle cycle: corrected data is written back and counted, with one record an
hour past 16; an uncorrectable block is poisoned. -/
def execT1PatrolRead (culm idx blkno errs : Nat) (s : State) : Res := whileUp s <|
  if !(culmOf s culm).queue.isEmpty || domainDown s (culmIsland culm) then .next s
  else
    let s := s.onStk fun m => { m with patrols := m.patrols + 1 }
    if errs = 0 then .next s
    else if errs = 1 then .next (corrected culm { unitKind := 3, island := culmIsland culm, unit := culm } s)
    else match tabGet s.obj.recs idx with
      | none => .next s
      | some o =>
        if o.poison.contains blkno || o.size ≤ 64 * blkno then .next s
        else .next (detect { kind := 0, cause := 2, unitKind := 3, island := culmIsland culm, unit := culm, action := 3,
                             location := 64 * blkno, handle := o.handle }
          (modObj idx (fun o => { o with poison := o.poison ++ [blkno] }) s))

/-- The T0 copy's block that an uncorrectable SRAM word of a tile held, if any, is lost (R376, R373; log entry 42). -/
def loseT0 (t loc : Nat) (s : State) : State :=
  match Config.sramObject t loc with
  | none => s
  | some (i, b) =>
    modObj i (fun o =>
      if o.upper = 0 && o.placeUp % 512 = t && o.st != .absent && !o.poison.contains b && 64 * b < o.size then { o with poison := o.poison ++ [b] } else o) s

/-- SRAM_UNCORRECTABLE (R371, R375): kind 0 a tile and 1 a culm: in-flight items complete POISON and the unit is retired; 2 a
stook engine: the items in its slots complete POISON; 3 object table or window map: viral; 4 awn directory, spine queue or queue engine
buffer of an island: the command whose items use the word completes POISON; 5 Steward SRAM: viral. Kinds 8 to 10 are corrected errors of a
tile's, a culm's, a stook engine's SRAM, which R372 counts (log entry 112). -/
def execSramUncorrectable (kind unit loc : Nat) (s : State) : Res := whileUp s <|
  let d : Det := { kind := 0, cause := 3, location := loc }
  if kind = 0 then
    if 512 ≤ unit || s.shv.absent.contains unit then .next s
    else .next (startRuns (retireTile unit d (loseT0 unit loc (poisonRunning unit s))))
  else if kind = 1 then
    if 512 ≤ unit then .next s
    else
      let s := match (culmOf s unit).queue with
        | o :: _ => poisonOp o s
        | [] => s
      .next (startRuns (retireCulm unit d s))
  else if kind = 2 then
    let hit := s.shv.slots.filter fun x => x.engine == unit
    let s := hit.foldl (fun s x =>
      match (inFlight s x.sheaf).find? fun p => p.2.num == x.num with
      | some p => match p.2.items[x.item]? with
        | some i => modCmd i.cmd (fun c => { c with viol := if c.viol = 0 then St.poison else c.viol }) s
        | none => s
      | none => s) s
    .next (detect { d with unitKind := 9, island := 34, unit := 0, action := 3 } s)
  else if kind = 3 then
    .next (raiseViral (detect { d with cause := 9, unitKind := 9, island := 36, action := 0 } (latchGasp 9 36 s)))
  else if kind = 4 then
    .next (detect { d with unitKind := 9, island := unit, action := 3, location := 0 }
      (modCmd loc (fun c => { c with viol := if c.viol = 0 then St.poison else c.viol }) s))
  else if kind = 5 then
    .next (raiseViral (detect { d with cause := 9, unitKind := 8, island := 1, action := 0 } (latchGasp 9 1 s)))
  else if kind = 8 && unit < 512 then .next (corrected (1024 + unit) { unitKind := 0, island := tileIsland unit, unit := unit, location := loc } s)
  else if kind = 9 && unit < 512 then .next (corrected (2048 + unit) { unitKind := 1, island := culmIsland unit, unit := unit, location := loc } s)
  else if kind = 10 && unit < 73 then .next (corrected (3072 + unit) { unitKind := 9, island := 34, location := loc } s)
  else .next s

/-- LOCKSTEP_DISAGREEMENT (R324, R387): viral, a fatal record with cause 0x09. -/
def execLockstepDisagreement (s : State) : Res := whileUp s <|
  .next (raiseViral (detect { kind := 0, cause := 9, unitKind := 8, island := 1, action := 0 } (latchGasp 9 1 s)))

/-! Signature records (R384 to R388). -/

/-- DETECTION_PROCESS (R388): the next detection is numbered, stored, raised as SIGNATURE and queued as telemetry; a threshing
run's COMMAND_DONE carries its number. Lost detections are logged at the next record. -/
def execDetectionProcess (s : State) : Res := whileUp s <|
  match s.rel.detq with
  | [] => .next s
  | d :: ds =>
    if s.stew.busy || domainDown s 1 then .next s
    else
      let n := s.rel.nextSig
      let gone := if 65536 ≤ s.rel.sigs.length then (s.rel.sigs.getLast?).map fun p => toLe 8 p.1 else none
      let s := token 0x13 62 0 1 d.island s
      let s := s.onRel fun r => { r with
        detq := ds, nextSig := n + 1, sigs := ((n, d) :: r.sigs).take 65536, sigUnread := true }
      let s := match gone with
        | none => s
        | some id => s.onFab fun f =>
            let old := f.telem.filter fun t => byteAt t.2 0 == 0 && slice t.2 (0x10 + 0x60) 8 == id
            { f with telem := f.telem.filter fun t => !old.contains t, telemLost := f.telemLost + old.length }
      let s := if s.rel.detLost = 0 then s
        else (logEv Log.detLost 62 2 (toLe 4 s.rel.detLost) s).onRel fun r => { r with detLost := 0 }
      let s := raiseEvent 0 EvCode.signature (toLe 8 n ++ toLe 1 d.kind) s
      let s := sendTelem 0 (sigRecord n d) s
      .next (match s.rel.runs.find? fun x => d.kind == 1 && x.id == d.run with
        | some x => commandDone 0 0x0501 x.seq St.success 0 (toLe 8 1 ++ toLe 8 n) s
        | none => s)

/-- SIGNATURE_READ (R334, R388): records in ascending number from the first asked for, at a 384-byte stride. -/
def execSignatureRead (box : Nat) (s : State) : Res := whileUp s <|
  onZalpol box 0x0503 s fun m s =>
    let first := fld m 0x20 8
    let rs := ((s.rel.sigs.reverse).filter fun p => decide (first ≤ p.1)).take (fld m 0x30 4 / 384)
    let b := rs.flatMap fun p => slice (sigRecord p.1 p.2) 0 384
    let next := ((rs.getLast?).map fun p => p.1 + 1).getD (max first (((s.rel.sigs.getLast?).map Prod.fst).getD s.rel.nextSig))
    zRespond box St.success 0 (toLe 4 rs.length ++ zeros 4 ++ toLe 8 next ++
      toLe 8 (((s.rel.sigs.getLast?).map Prod.fst).getD 0))
      ((hostWrite box (fld m 0x28 8) b false s).onRel fun r => { r with sigUnread := false })

/-! The event log (R389 to R392). -/

/-- Whether the log waits: the ring that the writer would use is held in reset, no power state being the cause (R391). -/
def logHeld (s : State) : Bool := (s.rel.ring38 && s.aon.inReset.contains 38) || (s.rel.ring62 && s.aon.inReset.contains 62)

/-- LOG_RECORD_WRITE (R390 to R392): the next record takes its sequence and goes to both rings, to the one that is left, or to
ring 62 alone while a power state has island 38 down; with both rings failed it is lost and counted. -/
def execLogRecordWrite (s : State) : Res :=
  match s.rel.logq with
  | [] => .next s
  | x :: xs =>
    if !s.rel.ring38 && !s.rel.ring62 then
      .next ((s.onRel fun r => { r with logq := xs }).onAon fun a => { a with lostLog := satAdd 16 a.lostLog 1 })
    else if logHeld s then .next s
    else
      let n := s.rel.logSeq + 1
      let y := { x with seq := n }
      let s := token 0x12 38 0 1 x.source s
      .next (s.onRel fun r => { r with
        logq := xs, logSeq := n, log := (y :: r.log).take 32768, only62 := if s.aon.off.contains 38 then y :: r.only62 else r.only62 })

/-- LOG_ARCHIVE_COPY (R390): the records not yet in the archive are copied; it keeps its 4,194,304 newest. -/
def execLogArchiveCopy (s : State) : Res := whileUp s <|
  if s.stew.busy || domainDown s 1 || !s.fls.formatted then .next s
  else
    let last := ((s.rel.archive.head?).map LogRec.seq).getD 0
    .next (s.onRel fun r => { r with archive := ((r.log.filter fun x => decide (last < x.seq)) ++ r.archive).take 4194304 })

/-- Log rings fail: the one left carries on with the failure as its next record; with both failed, LAST_GASP and FAULT_CAUSE
log (R391, R392). -/
def ringsFail (r38 r62 : Bool) (s : State) : State :=
  let a := r38 && s.rel.ring38
  let b := r62 && s.rel.ring62
  if !a && !b then s
  else
    let s := s.onAon fun x => { x with fail38 := satAdd 16 x.fail38 (b2n a), fail62 := satAdd 16 x.fail62 (b2n b) }
    let s := s.onRel fun r => { r with ring38 := r.ring38 && !a, ring62 := r.ring62 && !b }
    let isl := if a then 38 else 62
    let d : Det := { kind := 3, cause := 0x24, unitKind := 7, island := isl, action := 1 }
    if s.rel.ring38 || s.rel.ring62 then
      let q := s.rel.logq
      let s := logEv Log.ringFailed isl 2 (toLe 1 isl) (s.onRel fun r => { r with logq := [] })
      raiseEvent 0 EvCode.logRingFailed (toLe 1 isl) (detect d (s.onRel fun r => { r with logq := r.logq ++ q }))
    else raiseEvent 0 EvCode.logRingFailed [0xFF] (fatal Cause.log { d with action := 2 } s)

/-- LOG_RING_FAILURE (R391, R392). -/
def execLogRingFailure (r38 r62 : Bool) (s : State) : Res := whileUp s <| .next (ringsFail r38 r62 s)

/-- LOG_READ (R334, R389): records in ascending sequence from the first asked for, at a 64-byte stride, of the rings and the
archive behind them. -/
def execLogRead (box : Nat) (s : State) : Res := whileUp s <|
  onZalpol box 0x0504 s fun m s =>
    let first := fld m 0x20 8
    let last := ((s.rel.archive.head?).map LogRec.seq).getD 0
    let all := s.rel.archive.reverse ++ (s.rel.log.reverse.filter fun x => decide (last < x.seq))
    let rs := (all.filter fun x => decide (first ≤ x.seq)).take (fld m 0x30 4 / 64)
    let old := ((all.head?).map LogRec.seq).getD 0
    let next := ((rs.getLast?).map fun x => x.seq + 1).getD (max first old)
    zRespond box St.success 0 (toLe 4 rs.length ++ zeros 4 ++ toLe 8 next ++ toLe 8 old)
      (hostWrite box (fld m 0x28 8) (rs.flatMap logBytes) false s)

/-! Crossings and die links (R24, R374, R377, R415, R417). -/

/-- CROSSING_LANE_SWITCH (R374, R417): the standby lane becomes the active one. -/
def execCrossingLaneSwitch (crossing : Nat) (s : State) : Res := whileUp s <|
  if !s.rel.laneReq.contains crossing then .next s
  else
    let s := s.onRel fun r => { r with
      laneReq := r.laneReq.filter (· != crossing), lanes := tabSet r.lanes crossing (1 - tabGetD r.lanes crossing 0) }
    .next (threshApplied 2 (crossing / 64 + 256 * (crossing % 64)) s)

/-- CROSSING_RESYNC (R415): with both sides out of reset the handshake completes; the crossing is ready. -/
def execCrossingResync (island other : Nat) (s : State) : Res := whileUp s <|
  let k := (min island other, max island other)
  if domainDown s island || domainDown s other then .next s
  else .next (s.onAon fun a => { a with notReady := a.notReady.filter (· != k) })

/-- The island at a die link's end: 0 Sheaf–Link, 1 Sheaf–Flash, 2 Flash–Link. -/
def linkIsland (link : Nat) : Nat := if link ≤ 1 then 35 else 47

/-- DIE_LINK_CRC_RETRY (R24): counted; no record. -/
def execDieLinkCrcRetry (link : Nat) (s : State) : Res := whileUp s <|
  .next (if 3 ≤ link then s else s.onRel fun r => { r with linkRetry := tabAdd r.linkRetry link 1 })

/-- DIE_LINK_RETRIES_EXHAUSTED (R24): the data is delivered poisoned; the command that reads it completes POISON. -/
def execDieLinkRetriesExhausted (link n : Nat) (s : State) : Res := whileUp s <|
  if 3 ≤ link then .next s
  else
    let c := (cmdOf s n).getD {}
    let s := s.onRel fun r => { r with linkRetry := tabAdd r.linkRetry link 8, linkPoison := r.linkPoison ++ [link] }
    let s := modCmd n (fun c => { c with viol := if c.viol = 0 then St.poison else c.viol }) s
    .next (detect { kind := 0, cause := 5, unitKind := 6, island := linkIsland link, unit := link, action := 3, count := 8,
                    tenant := if (cmdOf s n).isSome then c.tenant else 1023, qp := if (cmdOf s n).isSome then c.qp else 65535,
                    cid := c.cid, opcode := c.opcode } s)

/-- DIE_LINK_DOWN (R24, R324, R394): data-path admission stops, FAULT_N, LAST_GASP, the FAULT state, viral signalling; each link that
goes down has its record. -/
def execDieLinkDown (link : Nat) (s : State) : Res := whileUp s <|
  if 3 ≤ link || s.rel.linksDown.contains link then .next s
  else
    let s := fatal Cause.dieLink { kind := 0, cause := 6, unitKind := 6, island := linkIsland link, unit := link, action := 0 } s
    .next ((raiseViral ((s.onHif fun h => { h with stopped := true }).onStew fun w => { w with st := .fault })).onRel fun r => { r with
      linksDown := r.linksDown ++ [link] })

end Sys2Proof.Machine
end

