-- ==== Sys2Proof/Machine/Record.lean ====
section
/-! DEFINITION. The recorder and the replay (chapter 16): starting checkpoint, spill, end and export of a recording; checking,
running and stopping a replay. -/

namespace Sys2Proof.Machine
open Sys2Proof

/-! The format (R406 to R408). -/

/-- A chunk as it is stored (R407). -/
def chunkImage (c : RecChunk) : Bytes :=
  let h := toLe 4 0x4B4E4843 ++ toLe 1 c.type ++ zeros 3 ++ toLe 8 c.seq ++ toLe 4 c.stream ++ toLe 4 c.body.length ++
    toLe 4 (crc32c c.body)
  slice (h ++ toLe 4 (crc32c h) ++ c.body) 0 (chunkBytes c)

/-- The whole recording as spilled: header and directory, then the chunks (R405, R406). -/
def recordingImage (r : Rec) : Bytes := r.header ++ r.spill.reverse.flatMap chunkImage
/-- Its length, without forming it. -/
def recordingLength (r : Rec) : Nat := r.header.length + (r.spill.map chunkBytes).sum

/-- The point instances the node holds: (island, class, w, number of instances, first) by the table of R398. -/
def pointList (g : Gen) : List (Nat × Nat) :=
  let one (cls island w : Nat) : List (Nat × Nat) := [(pointId cls island 0, w)]
  let many (cls w n : Nat) (island : Nat → Nat) : List (Nat × Nat) := (List.range n).map fun i => (pointId cls (island i) i, w)
  one 1 59 8 ++ one 2 1 2 ++ one 3 1 16 ++
    (genSheaves g).map (fun d => (pointId 4 (tileIsland (sgBase (shStage d 0))) (fld d 0 2), 2)) ++
    many 5 1 512 tileIsland ++ many 6 4 73 (fun _ => 34) ++ one 7 36 2 ++ many 8 1 512 tileIsland ++
    (List.range 512).map (fun k => (pointId 9 (culmIsland k) (k / 8), 4)) ++ one 0x0A 36 2 ++ many 0x0B 2 32 chanIsland ++
    many 0x0C 2 4 (55 + ·) ++ one 0x0D 61 2 ++ one 0x0E 61 2 ++ one 0x0F 61 2 ++ many 0x10 8 4 (fun _ => 36) ++ one 0x11 37 2 ++
    one 0x12 38 1 ++ one 0x13 62 1 ++
    [(pointId 0x14 59 0, 8), (pointId 0x14 59 2, 8), (pointId 0x14 59 3, 8), (pointId 0x14 59 4, 8), (pointId 0x14 36 4, 8),
     (pointId 0x14 36 5, 8), (pointId 0x14 55 4, 8)] ++
    (List.range 4).map (fun p => (pointId 0x14 (55 + p) 1, 8)) ++ (List.range 8).map (fun i => (pointId 0x14 (47 + i) 6, 8)) ++
    one 0x15 36 16 ++ one 0x15 61 16 ++ many 0x15 16 32 chanIsland

/-- The directory in ascending point ID (R406). -/
def pointOrder (l : List (Nat × Nat)) : List (Nat × Nat) := l.foldr ins []
where ins (x : Nat × Nat) : List (Nat × Nat) → List (Nat × Nat)
  | [] => [x]
  | y :: ys => if x.1 ≤ y.1 then x :: y :: ys else y :: ins x ys

/-- The directory's bytes. -/
def pointDirectory (g : Gen) : Bytes := (pointOrder (pointList g)).flatMap fun p => toLe 4 p.1 ++ toLe 1 p.2 ++ zeros 3

/-- The active firmware slot. -/
def activeSlot (s : State) : Slot := if s.stew.active = 0 then s.stew.slot0 else s.stew.slot1

/-- Header and directory of a recording that starts now, to the next 64-byte boundary (R406). -/
def recordHeader (s : State) (epoch snap : Nat) : Bytes :=
  let dir := pointDirectory (gen s)
  let h := toLe 4 0x52444345 ++ toLe 2 1 ++ zeros 2 ++ slice Config.platformId 0 16 ++ toLe 4 (activeSlot s).version ++
    toLe 4 (gen s).number ++ toLe 8 epoch ++ toLe 4 s.stew.boot ++ toLe 4 (dir.length / 8) ++ toLe 8 (now s) ++ toLe 8 snap ++
    toLe 4 65536 ++ zeros 56
  slice (h ++ toLe 4 (crc32c (h ++ dir)) ++ dir) 0 (roundUp (128 + dir.length) 64)

/-! The starting checkpoint (R401, R402, R408). -/

/-- A whole PACK stream of a source through slot 8. -/
def packWhole (f : Nat) (src : Bytes) : Bytes :=
  let lens := packTable f true src
  packStream f true src ((List.range (packCount src.length)).map fun i => packBlock f lens i (packSrc src i))

/-- A section's head. -/
def sectionHead (handle kind tier place source stored : Nat) : Bytes :=
  toLe 8 handle ++ toLe 1 kind ++ toLe 1 tier ++ toLe 2 place ++ zeros 4 ++ toLe 8 source ++ toLe 8 stored

/-- The tweak of a unit of a PROTECTED object (R402). -/
def unitTweak (index u : Nat) : Nat := index * 2 ^ 28 + u

/-- Bytes of a PROTECTED object under its tenant's key, unit by unit. -/
def protectBytes (key : Bytes) (index : Nat) (f : Bytes → Nat → Bytes → Bytes) (b : Bytes) : Bytes :=
  (List.range (ceilDiv b.length 4096)).flatMap fun u => f key (unitTweak index u) ((b.drop (4096 * u)).take 4096)

/-- The section of an object's copy in a tier. -/
def objectSection (s : State) (i : Nat) (o : ObjRec) (tier : Nat) : Bytes :=
  let src := if tier != servingTier o && o.dirty then memRead o.homeMem 0 o.size else objImage s o.handle 0 o.size
  let content := if o.protected_ then protectBytes (tabGetD s.fls.xts (hTenant o.handle) []) i Config.xts src
    else packWhole (fwElem o.format) src
  sectionHead o.handle (if o.protected_ then 3 else 0) tier ((if tier = o.home then homeCode o else o.placeUp) % 512) o.size content.length ++ objHeader s o ++ content

/-- The tiers of T0 and T1 in which an object has bytes. -/
def upperTiers (o : ObjRec) : List Nat :=
  (if o.home ≤ 1 then [o.home] else []) ++ if o.upper ≤ 1 && (o.st == .resident || o.st == .evicting || o.st == .writingBack) then [o.upper] else []

/-- The starting checkpoint: objects but for the recorder ring, the Steward image, the islands' registers in ascending island (log entry 44). -/
def checkpointBytes (s : State) (snap : Nat) : Bytes :=
  let sec (kind x : Nat) : Bytes :=
    let src := Config.islandImage snap x
    let p := packWhole 0 src
    sectionHead 0 kind 0 0 src.length p.length ++ p
  (s.obj.recs.filter fun p => s.obj.ringH == 0 || p.2.handle != s.obj.ringH).flatMap (fun p => (upperTiers p.2).flatMap (objectSection s p.1 p.2)) ++ sec 1 64 ++ (List.range 64).flatMap (sec 2)

/-- Bytes cut into chunks of at most 1,048,576, oldest first. -/
def checkpointChunks (b : Bytes) : List RecChunk :=
  let b := slice b 0 (roundUp b.length 8)
  (List.range (ceilDiv b.length 1048576)).map fun i => { type := 1, seq := i + 1, body := (b.drop (1048576 * i)).take 1048576 }

/-- Whether the quiesce is complete (R401 step 1). -/
def quiesced (s : State) : Bool :=
  s.hif.cmds.isEmpty && s.eng.husks.isEmpty && s.eng.group.isEmpty && s.eng.closing.isEmpty &&
    s.stk.culms.all fun c => c.2.queue.isEmpty

/-- RECORDING_START (R401): once the quiesce is complete, the previous recording goes (R405); snapshot, header, directory and
checkpoint; then recording runs. A spill region that cannot hold the checkpoint ends the recording at once (R404). -/
def execRecordingStart (s : State) : Res := whileUp s <|
  match s.recd.due with
  | none => .next s
  | some e =>
    if !quiesced s then .next s
    else
      let snap := s.recd.snaps + 1
      let h := recordHeader s e snap
      let cs := checkpointChunks (checkpointBytes s snap)
      let cap := genSpill (gen s)
      let fits := decide (h.length + (cs.map chunkBytes).sum + 64 ≤ cap)
      let s := s.onRec fun r => { r with
        active := true, held := true, snap := some snap, snaps := snap, due := none, ring := [], snapMap := s.fls.units, snapAt := some (keepOf s),
        spill := if fits then cs.reverse else [], nextChunk := if fits then cs.length + 1 else 1, header := h, spillCap := cap,
        budget := genSnapshot (gen s), endReason := none }
      let region := takeSystem cap 2 (dropSystem s.obj.spillH s)
      let s := { (region.2.onObj fun o => { o with spillH := region.1 }) with dig := {} }
      .next (if fits then s else endRecording .spillFull s)

/-! The recording's life (R403 to R405). -/

/-- CHUNK_SPILL (R403): the oldest chunk of the ring moves to the spill region; a region without room for it and for the END
chunk ends the recording with reason 1 (R404). -/
def execChunkSpill (s : State) : Res := whileUp s <|
  match s.recd.ring with
  | [] => .next s
  | c :: cs =>
    if s.recd.active && s.recd.spillCap < recordingLength s.recd + chunkBytes c + 64 then .next (endRecording .spillFull s)
    else .next (s.onRec fun r => { r with ring := cs, spill := c :: r.spill })

/-- Bytes of units superseded since the snapshot (R401). -/
def superseded (s : State) : Nat :=
  4096 * (s.recd.snapMap.filter fun p =>
    !((tabGet s.fls.units p.1).any fun u => u.blk == p.2.blk && u.page == p.2.page)).length

/-- RECORDING_END (R404): 1 the next chunk no longer fits the spill region, 2 the units superseded reach the snapshot budget,
3 an uncorrectable error in the ring, with its signature record. Reason 0 follows a generation, reason 4 a warm reset. -/
def execRecordingEnd (reason : Nat) (s : State) : Res := whileUp s <|
  if !s.recd.active then .next s
  else if reason = 1 then
    .next (if (s.recd.ring.head?).any fun c => decide (s.recd.spillCap < recordingLength s.recd + chunkBytes c + 64)
      then endRecording .spillFull s else s)
  else if reason = 2 then .next (if s.recd.budget ≤ superseded s then endRecording .budget s else s)
  else if reason = 3 then
    .next (detect { kind := 0, cause := 2, unitKind := 9, island := 38, action := 3 } (endRecording .ringError s))
  else .next s

/-- SNAPSHOT_RELEASE (R404): a region's free blocks fall below 2 % while a snapshot is held. -/
def execSnapshotRelease (s : State) : Res := whileUp s <|
  let low (slc : Bool) : Bool := decide (100 * regionFree s slc < 2 * regionBlocks s slc)
  if s.recd.snap.isNone || !(low true || low false) then .next s
  else .next (logEv Log.recording 38 1 (toLe 8 (s.recd.snap.getD 0)) (s.onRec fun r => { r with snap := none, snapMap := [], snapAt := none }))

/-- RECORD_EXPORT (R334, R405): bytes of the spill region to host memory; the length counts the bytes spilled. -/
def execRecordExport (box : Nat) (s : State) : Res := whileUp s <|
  onZalpol box 0x0505 s fun m s =>
    let len := if s.recd.held then recordingLength s.recd else 0
    let off := fld m 0x20 8
    let n := if off < len then min (fld m 0x30 8) (len - off) else 0
    let s := hostWrite box (fld m 0x28 8) (if n = 0 then [] else ((recordingImage s.recd).drop off).take n) false s
    zRespond box St.success 0 (toLe 8 n ++ toLe 8 len) s

/-! Replay (R410 to R413). -/

/-- What a volatile object's entry and an upper copy leave behind at a cold start (R246): volatile objects end, persistent
ones return ABSENT at home with the content of R244, those whose FREE was accepted end. Freed indices join in ascending order. -/
def loseVolatile (s : State) : State :=
  let gone := (s.obj.recs.filter fun p => decide (p.2.home ≤ 1) || p.2.st == .freeing || p.2.freeCmd.isSome).map Prod.fst
  let s := s.onObj fun o => { o with recs := o.recs.map fun p => (p.1, { dropUpper p.2 with
    pinsHome := 0, pinsUpper := 0, pinsOld := 0, hostPins := 0, lastTouch := 0, waiters := [], rehome := none, old := none,
    poison := if p.2.upper != 255 && !p.2.dirty then homePoison s p.1 else p.2.poison,
    place := if 2 ≤ p.2.home then 0 else p.2.place, culmOnly := false }) }
  gone.foldl (fun s i => removeObject i s) (s.onFls fun f => { f with units := f.units.filter fun u => !u.2.upper })

/-- Reserved fields of a recording's header and directory (R15, R406). -/
def recordingReserved (b : Bytes) : List Chk :=
  [(6, zeroAt b 6 2), (0x44, zeroAt b 0x44 56)] ++
    (List.range (fld b 0x2C 4)).map fun i => (128 + 8 * i + 5, zeroAt b (128 + 8 * i + 5) 3)

/-- A recording as it is read: the fields R412 checks, the first failing one. -/
def recordingBad (b : Bytes) (s : State) : Option (Nat × Nat) :=
  let n := 128 + 8 * fld b 0x2C 4
  if b.length < n || fld b 0 4 != 0x52444345 then some (St.invalidField, 0)
  else if fld b 4 2 != 1 then some (St.invalidField, 4)
  else if fld b 0x7C 4 != crc32c (b.take 0x7C ++ (b.take n).drop 128) then some (St.invalidField, 0x7C)
  else if (firstBad (recordingReserved b)).isSome then some (St.invalidField, min ((firstBad (recordingReserved b)).getD 0) 0xFFFF)
  else if slice b 8 16 != slice Config.platformId 0 16 then some (St.invalidField, 8)
  else if fld b 0x18 4 != (activeSlot s).version then some (St.imageInvalid, 0)
  else if s.recd.snap != some (fld b 0x38 8) then some (St.invalidField, 0x38)
  else none

/-- The chunks of a recording from an offset (R407), ending with END or the last whole chunk; a gap or a failed CRC stands as
a chunk of type 0 with the sequence it would have. -/
def readChunks : Nat → Nat → Nat → Bytes → List RecChunk
  | 0, _, _, _ => []
  | k + 1, off, seq, b =>
    let h := (b.drop off).take 32
    let n := fld h 0x14 4
    let fault (q : Nat) : List RecChunk := [{ type := 0, seq := q }]
    if h.length < 32 then []
    else if fld h 0 4 != 0x4B4E4843 || fld h 0x1C 4 != crc32c (h.take 28) then fault seq
    else if b.length < off + 32 + n then []
    else
      let body := (b.drop (off + 32)).take n
      if fld h 8 8 != seq || fld h 0x18 4 != crc32c body then fault (fld h 8 8)
      else
        let c : RecChunk := { type := byteAt h 4, seq := seq, stream := fld h 0x10 4, body := body }
        if byteAt h 4 = 5 then [c] else c :: readChunks k (off + chunkBytes c) (seq + 1) b

/-- A section of a starting checkpoint: head, object header, content. -/
structure RecSection where
  head : Bytes := []
  object : Bytes := []
  content : Bytes := []
  deriving DecidableEq, Repr

/-- The sections of the checkpoint chunks, joined (R408). -/
def readSections : Nat → Bytes → List RecSection
  | 0, _ => []
  | k + 1, b =>
    if b.length < 32 then []
    else
      let kind := byteAt b 8
      let n := if kind == 0 || kind == 3 then 64 else 0
      let stored := fld b 0x18 8
      { head := b.take 32, object := (b.drop 32).take n, content := (b.drop (32 + n)).take stored } ::
        readSections k (b.drop (32 + n + stored))

/-- The sections of a recording's chunks. -/
def sectionsOf (cs : List RecChunk) : List RecSection :=
  let b := (cs.filter fun c => c.type == 1).flatMap RecChunk.body
  readSections b.length b

/-- The source bytes of a section: a PACK stream expanded, or a PROTECTED object's bytes decrypted. -/
def sectionSource (s : State) (x : RecSection) : Bytes :=
  let h := fld x.head 0 8
  if byteAt x.head 8 = 3 then
    (protectBytes (tabGetD s.fls.xts (hTenant h) []) (hIndex h) Config.xtsOpen x.content).take (fld x.head 0x10 8)
  else
    (List.range (pkBlocks x.content)).flatMap fun i =>
      match packDecode (byteAt x.content 6) (pkLens x.content) i (pkBlock x.content i) with
      | .bytes b => b
      | _ => zeros (packBlkLen (pkSource x.content) i)

/-- An object's copy of the checkpoint restored into its tier (R410). -/
def restoreSection (s : State) (x : RecSection) : State :=
  let kind := byteAt x.head 8
  if kind != 0 && kind != 3 then s
  else
    let o := x.object
    let i := hIndex (fld o 0 8)
    let m := memWrite [] 0 (sectionSource s x)
    let flags := fld o 0x18 2
    let old := (tabGet s.obj.recs i).getD {}
    let up := byteAt x.head 9 = byteAt o 0x11
    let place := (if bitOf flags 4 then 32768 else 0) + fld o 0x1A 2
    let atHome := byteAt o 0x11 = 255 || 2 ≤ byteAt o 0x11
    let new : ObjRec := { old with
      handle := fld o 0 8, size := fld o 8 8, home := byteAt o 0x10, upper := byteAt o 0x11,
      st := if byteAt o 0x11 = 255 then .absent else .resident, format := fld o 0x14 4, dirty := bitOf flags 0,
      checkpoint := bitOf flags 1, protected_ := bitOf flags 2, chanLocal := if atHome then bitOf flags 4 else old.chanLocal,
      place := if atHome then fld o 0x1A 2 else old.place, placeUp := if atHome then 0 else place,
      lastTouch := fld o 0x20 8, writtenEpoch := fld o 0x28 8, hostPins := fld o 0x30 2,
      mem := if up || byteAt o 0x11 = 255 then m else old.mem, homeMem := if up || byteAt o 0x11 = 255 then old.homeMem else m }
    s.onObj fun y => { y with recs := tabSet y.recs i new }

/-- REPLAY_START (R410, R412): refused while a queue exists or a window unit is mapped, or where the recording is not this
node's; else the ports go down, the node's own state is set aside and the snapshot's stands in its place, the checkpoint is restored and the
recording's boot count shows. A recording that runs ends as at a cold start (log entry 45). -/
def execReplayStart (box : Nat) (image : Bytes) (s : State) : Res := whileUp s <|
  onZalpol box 0x0506 s fun m s =>
    let s := zData m image s
    let cs := readChunks image.length (roundUp (128 + 8 * fld image 0x2C 4) 64) 1 image
    let secs := sectionsOf cs
    if s.hif.qps.any fun q => q.2.qstate != .disabled then zFail box St.queueState 0 s
    else if !s.hif.window.isEmpty then zFail box St.windowMapped 0 s
    else match recordingBad image s with
      | some (st, d) => zFail box st d s
      | none =>
        if secs.any fun x => byteAt x.head 8 == 3 && (tabGet s.fls.xts (hTenant (fld x.head 0 8))).isNone then
          zFail box St.keyNotLoaded 0 s
        else
          let s := zRespond box St.success 0 [] s
          let s := s.onFab fun f => { f with ports := [false, false, false, false] }
          let own := keepOf s
          let s := loseVolatile (match s.recd.snapAt with | some k => putKept k s | none => s)
          let s := secs.foldl restoreSection s
          let s := { s with dig := {} }
          (s.onStew fun w => { w with boot := fld image 0x28 4 }).onRec fun r => { r with
            replaying := true, live := some own, active := false, ring := [], ended := false, diverged := none, replaySeq := fld m 4 2, progressAt := now s,
            chunks := cs.filter fun c => c.type != 1, seqDone := (cs.filter fun c => c.type == 1).length }

/-- The chunks up to and with the next DIGEST chunk or fault. -/
def nextWindow (r : Rec) : Option RecChunk := r.chunks.find? fun c => c.type == 4 || c.type == 0

/-- The first entry of a DIGEST chunk that the replay's own digests do not match: island, window, events and digest expected,
digest observed. -/
def firstMismatch (b : Bytes) (ds : List DigestEnt) : Option (Nat × Nat × Nat × Nat × Nat) :=
  (records 32 b).findSome? fun e =>
    let mine := ds.find? fun d => d.island == byteAt e 0 && d.window == fld e 8 8
    let got := mine.getD {}
    if mine.isSome && got.events == fld e 0x10 8 && got.digest == fld e 0x18 8 then none
    else some (byteAt e 0, fld e 8 8, got.events, fld e 0x18 8, got.digest)

/-- The replay's own digest windows so far, the open ones with what they hold. -/
def ownDigests (s : State) : List DigestEnt := s.dig.closed ++ s.dig.open_.map Prod.snd

/-- REPLAY_WINDOW_CLOSE (R410, R413): the replay's own digests of the windows in the next DIGEST chunk are compared with it;
a chunk that is not the next one to compare is not compared. -/
def execReplayWindowClose (seq : Nat) (s : State) : Res := whileUp s <|
  if !s.recd.replaying || s.recd.diverged.isSome || s.recd.ended then .next s
  else match nextWindow s.recd with
    | none => .next s
    | some c =>
      if c.seq ≠ seq then .next s
      else if c.type = 0 then .next (stopReplay c.seq 3 0 0 0 0 0 s)
      else match firstMismatch c.body (ownDigests s) with
        | some (i, w, e, want, got) => .next (stopReplay c.seq 0 i w e want got s)
        | none => .next (s.onRec fun r => { r with
            chunks := r.chunks.filter fun x => decide (c.seq < x.seq), seqDone := c.seq, progressAt := now s })

/-- REPLAY_STALL (R412): no progress for 1 s stops the replay at the next unconsumed chunk. -/
def execReplayStall (s : State) : Res := whileUp s <|
  match s.recd.chunks with
  | [] => .next s
  | c :: _ =>
    if !s.recd.replaying || s.recd.diverged.isSome || s.recd.ended || now s < s.recd.progressAt + 10 ^ 9 then .next s
    else .next (stopReplay c.seq 1 0 0 0 0 0 s)

end Sys2Proof.Machine
end

