-- ==== Sys2Proof/Machine/Power.lean ====
section
/-! DEFINITION. Start-up and recovery, power-loss flush, warm reset, power states, power envelope and temperature (chapters 17
and 19). -/

namespace Sys2Proof.Machine
open Sys2Proof

/-! What a reset of every island leaves (R246, R421, R422). -/

/-- The bytes of a persistent object as its home and the journal give them (R244, R425 phase 4). -/
def journalled (s : State) (o : ObjRec) : Mem :=
  if !o.dirty then o.mem
  else s.eng.journal.reverse.foldl (fun m r =>
    if r.epoch ≤ o.writtenEpoch || s.eng.epoch < r.epoch then m
    else r.husks.foldl (fun m h => h.2.actions.foldl (fun m a =>
      if acComputed a then a.exts.foldl (fun m n => match tabGet s.fls.jext n with
        | some u => if u.handle == o.handle then memWrite m u.off u.data else m
        | none => m) m
      else if a.kind == 3 && a.target == o.handle then memWrite m a.arg (slice a.data 0 a.len) else m) m) m) o.homeMem

/-- In-place results of husks that have not committed leave no trace in persistent objects (R181). -/
def undoComputed (s : State) : State :=
  let hs := s.eng.husks.filter fun h => h.2.hstate == .computing || h.2.hstate == .grouped || h.2.hstate == .committing
  let ts := (hs.flatMap fun h => h.2.actions).flatMap fun a => if acComputed a then [hIndex a.target, hIndex (ewBran s a.target)] else []
  ts.foldl (fun s i => modObj i (fun o => if 2 ≤ o.home then { o with mem := journalled s o } else o) s) s

/-- Whether a firmware slot's image starts the Steward: valid, and its security version not below the minimum (R446). -/
def slotStarts (w : Stew) (x : Slot) : Bool := x.valid && decide (w.secMin ≤ x.sec)

/-- The FW_ACTIVATED event's body (R337). -/
def fwBody (w : Stew) (k status : Nat) : Bytes :=
  toLe 1 k ++ zeros 3 ++ toLe 4 (if k = 0 then w.slot0 else w.slot1).version ++ toLe 2 status ++ zeros 6

/-- The Steward verifies the active slot, else the other, else its boot program serves (R426, R448). -/
def bootSteward (s : State) : State :=
  let w := s.stew
  let ok (k : Nat) : Bool := slotStarts w (if k = 0 then w.slot0 else w.slot1)
  if ok w.active then s
  else if ok (1 - w.active) then
    raiseEvent 0 EvCode.fwActivated (fwBody w (1 - w.active) St.imageInvalid) (s.onStew fun w => { w with active := 1 - w.active })
  else s.onStew fun w => { w with rom := true }

/-- The queue pairs of the generation in force, every one DISABLED. -/
def freshQueues (g : Gen) : Tab Qp := (genPairs g).foldl (fun q p => tabSet q p.1 { tenant := p.2 }) []

/-- What each part keeps through a reset of its islands. Island 1: firmware, generations, boot count (R419, R442, R446). -/
def resetStew (warm : Bool) (w : Stew) : Stew :=
  { boot := w.boot, bootA := w.bootA, bootB := w.bootB, bootDone := warm, slot0 := w.slot0, slot1 := w.slot1, active := w.active,
    secMin := w.secMin, cur := w.cur, prev := w.prev, left := w.left, pendGen := w.pendGen, clsHist := w.clsHist,
    doeOut := w.doeOut, cxlOut := w.cxlOut, sessCtr := w.sessCtr }

/-- Island 59: nothing but what it has sent; after a die-link loss admission stays stopped until a cold start (R24). -/
def resetHif (warm : Bool) (g : Gen) (h : Hif) : Hif :=
  { qps := freshQueues g, out := h.out, msi := h.msi, aer := h.aer, nextCmd := h.nextCmd, stopped := warm && h.stopped }

/-- Island 61: the epoch and the journal (R193, R217, R225). A record not yet durable is lost unless the flush wrote it. -/
def resetEng (e : Eng) : Eng :=
  let j := (e.closing.filter JRec.durable).reverse ++ e.journal
  { epoch := e.epoch, drain := [(e.epoch, 0)], oldest := e.epoch, journal := j, jseq := ((j.head?).map JRec.seq).getD 0,
    nextHusk := e.nextHusk, binderSeq := e.binderSeq }

/-- Versioned tables and index objects of the tables that are left, at the newest version (R221). -/
def resetIdx (s : State) : Idx :=
  let live (h : Nat) : Bool := (objOf s h).isSome
  { vers := newestVersions (s.idx.vers.filter fun v => v.table == 0 || live v.table),
    swaps := (s.idx.swaps.foldl (fun (acc : List (Nat × Nat × Nat)) w =>
      if acc.any fun v => v.1 == w.1 then acc else acc ++ [w]) []).filter fun w => live w.1
    lists := s.idx.lists.filter fun l => live l.1, maps := s.idx.maps.filter fun m => live m.1, nextRebuild := s.idx.nextRebuild }

/-- Flash: records, the persisted mapping, keys, tables, endurance; ages unknown and the sweep begun after a cold start only (R260, R266,
R422). A drain ends without its event; a module being admitted is not (R336). -/
def resetFls (warm : Bool) (f : Fls) : Fls :=
  { f with
    chans := f.chans.map fun c => (c.1, { c.2 with
      st := match c.2.st with | .draining => .inService | .admitting => .retired | x => x
      luns := c.2.luns.map fun l => (l.1, { l.2 with busyAt := [] }) })
    blks := if warm then f.blks else f.blks.map fun b => (b.1, { b.2 with calibrated := false, urgent := false }), formatting := none,
    dirtyMap := 0, metaWaits := 0, reserveWaits := 0, foldWaits := 0, calibrations := 0, agings := 0,
    sweeping := f.sweeping || !warm, foldUrgent := false, pack := [], units := f.saved, mapLog := []
    waitPages := f.waitPages.filter fun w => !w.2.2.1 }

/-- Peers close, ports go down; signature items stay for the collector (R357, R367). -/
def resetFab (f : Fab) : Fab :=
  { sent := f.sent, frames := f.frames, telem := (f.telem.filter fun t => byteAt t.2 0 == 0).map fun t => (0, t.2) }

/-- The log rings, detections and runs go; store, archive, retired lanes and numbers stay (R376, R388, R389, R391). Records
of island 0 are still to be written. -/
def resetRel (r : Rel) : Rel :=
  { sigs := r.sigs, nextSig := r.nextSig, logSeq := r.logSeq, archive := r.archive, nextRun := r.nextRun, laneBad := r.laneBad,
    lanes := r.lanes.filter fun l => r.laneBad.contains l.1, logq := r.logq.filter fun x => x.source == 0 }

/-- The recorder is idle; what was spilled is held with its snapshot (R404). -/
def resetRec (r : Rec) : Rec :=
  { r with active := false, due := none, ring := [], replaying := false, chunks := [], diverged := none, ended := false }

/-- Island 0 at a cold start (R392, R393, R418, R421, R463). -/
def resetAon (a : Aon) : Aon :=
  { powered := true, straps := a.strapPins, strapPins := a.strapPins, pwrFailLow := a.pwrFailLow, holdupOk := a.holdupOk,
    perstLow := a.perstLow, inReset := if bitOf a.strapPins 4 then (List.range 62).map (· + 1) else [], sealPg := a.sealPg,
    stream := a.stream, sysLost := a.sysLost, pcieLost := a.pcieLost, ethLost := a.ethLost }

/-- Every island but 0 reset, and island 0 as the kind of reset says; then the Steward boots (R420 to R424). -/
def restart (warm : Bool) (s : State) : State :=
  let s := loseVolatile (undoComputed (endReplay s))
  let s := { s with idx := resetIdx s }
  let s := s.onAon fun a =>
    if warm then { a with
      inReset := [], off := [], notReady := [], flush := none, powerSamples := [], capMhz := 1700, skipping := false,
      clusterMhz := [], stackHot := [], refresh2 := [], critSince := none, pmeOut := false }
    else resetAon a
  let s := (s.onHif (resetHif warm (gen s))).onStew (resetStew warm)
  let s := (s.onEng resetEng).onFls (resetFls warm)
  let s := s.onShv fun v => { retired := v.retired, nextRead := v.nextRead }
  let s := s.onStk fun m => { badCulms := m.badCulms }
  let s := s.onObj fun o => { recs := o.recs, brans := o.brans.filter fun b => (tabGet o.recs (hIndex b.1)).isSome, gens := o.gens
                              top := o.top, freed := o.freed, accrued := now s, poolH := 0, tableH := 0, rxH := 0, spillH := o.spillH }
  bootSteward (((s.onFab resetFab).onRel resetRel).onRec resetRec)

/-- A cold start (R420, R421); the flush that came before it is logged (R437). -/
def coldStart (s : State) : State :=
  let was := s.aon.flush
  let s := restart false s
  match was with
  | some f => logEv Log.powerEvent 0 1 (toLe 1 f.cause ++ toLe 1 (b2n f.sealed)) s
  | none => s

/-- POWER_GOOD (R424, R437): rails have fallen and are in limits again: a cold start, unless a flush still runs to its seal. -/
def execPowerGood (s : State) : Res :=
  if s.aon.powered then .next s
  else
    let s := s.onAon fun a => { a with powered := true }
    .next (if (s.aon.flush.any fun f => !f.sealed) && !s.aon.inReset.contains 1 then s else coldStart s)

/-! The power-loss flush (R433 to R438). -/

/-- Journal records not yet durable (R435); a replay has none: nothing persistent was changed (R437). -/
def undurable (s : State) : List JRec := if s.recd.replaying then [] else s.eng.closing.filter fun r => !r.durable

/-- A power event (R434): the node quiesces and the flush begins; while HOLDUP_OK is low it is logged (R438). -/
def powerEvent (cause : Nat) (s : State) : State :=
  if halted s then s
  else
    let s := if s.aon.holdupOk then s else logEv Log.powerEvent 0 1 (toLe 1 cause ++ [0]) s
    s.onAon fun a => { a with flush := some { cause := cause, jrecs := undurable s, at_ := a.uptime } }

/-- PWR_FAIL_N_ASSERT (R433, R437): PWR_FAIL_N low for 2 µs. A flush that runs goes on as a power flush. -/
def execPwrFailNAssert (s : State) : Res :=
  if s.aon.pwrFailLow then .next s
  else
    let s := s.onAon fun a => { a with
      pwrFailLow := true, tripSeen := a.tripSeen || a.tripHold,
      flush := a.flush.map fun f => if f.sealed || !(f.warm || f.cause == 1) then f else { f with warm := false, cause := 0 } }
    .next (powerEvent 0 s)

/-- PWR_FAIL_N_GLITCH (R433): ignored and logged. -/
def execPwrFailNGlitch (s : State) : Res := .next (if s.aon.pwrFailLow then s else logEv Log.glitch 0 0 [] s)

/-- Whether a sealed flush may be followed by its cold start: power good, PWR_FAIL_N high, no thermal-trip hold (R420, R437,
R459). -/
def mayStart (s : State) : Bool :=
  (s.aon.flush.any Flush.sealed) && s.aon.powered && !s.aon.pwrFailLow && !s.aon.tripHold

/-- PWR_FAIL_N_RELEASE (R437, R459). -/
def execPwrFailNRelease (s : State) : Res :=
  if !s.aon.pwrFailLow then .next s
  else
    let s := s.onAon fun a => { a with
      pwrFailLow := false, tripHold := a.tripHold && !a.tripSeen, tripSeen := a.tripSeen && !a.tripHold }
    .next (if mayStart s then coldStart s else s)

/-- Every island except 0. -/
def otherIslands : List Nat := (List.range 63).map (· + 1)

/-- The flush set written: the journal records the stream holds, changed entries, and so many mapping pages (R245, R434, R435). -/
def flushWritten (rs : List JRec) (maps : Nat) (s : State) : State :=
  let left := rs.filter fun r => !s.eng.journal.any fun j => j.seq == r.seq
  let left := left.filter fun r => !(s.eng.closing.any fun j => j.seq == r.seq && j.durable)
  ((s.onAon fun a => { a with stream := a.stream ++ left }).onObj fun o => { o with dirtyHdr := 0 }) |> fun s =>
    (saveMap maps s).onFls fun f => { f with dirtyMap := 0 }

/-- FLUSH_COMPLETE (R422, R434, R437): the seal page is written and the islands are held in reset until the cold start; a warm
reset goes on with its start-up. -/
def execFlushComplete (s : State) : Res :=
  match s.aon.flush with
  | none => .next s
  | some f =>
    if f.sealed || s.aon.inReset.contains 1 then .next s
    else
      let s := flushWritten f.jrecs s.fls.mapLog.length s
      let s := s.onAon fun a => { a with
        sealPg := some { boot := s.stew.boot, up := a.uptime, cause := f.cause, gasp := a.gasp, gaspUp := a.gaspUp, fails := logFailCount s } }
      if f.warm then .next (restart true s)
      else
        let s := s.onAon fun a => { a with flush := some { f with sealed := true }, inReset := otherIslands }
        .next (if mayStart s then coldStart s else s)

/-- Bytes of a journal record (R216). -/
def jrecBytes (r : JRec) : Nat := journalBytes r.husks

/-- Records whose flush pages lie whole in the first n pages, 4,064 bytes of record to a page (R435, R436). -/
def wholeRecords : Nat → List JRec → List JRec
  | _, [] => []
  | n, r :: rs =>
    let k := ceilDiv (jrecBytes r) 4064
    if k ≤ n then r :: wholeRecords (n - k) rs else []

/-- Whole pages of the stream written by now: from 100 µs after the event, 1.25 bytes per ns for each channel in service,
4,112 bytes a page behind the 64-byte header (R434). -/
def flushPages (s : State) (f : Flush) : Nat :=
  ((now s - f.at_ - 100000) * (5 * min 32 (chansUp s).length) / 4 - 64) / 4112

/-- Pages of the stream for journal records (R435). -/
def journalPages (rs : List JRec) : Nat := (rs.map fun r => ceilDiv (jrecBytes r) 4064).sum

/-- HOLD_UP_ENDS (R436, R437): the rails fall; a flush that runs is cut short at its last whole page. -/
def execHoldUpEnds (s : State) : Res :=
  match s.aon.flush with
  | none => .next s
  | some f =>
    if f.warm then .next s
    else
      let n := flushPages s f
      let s := if f.sealed || s.aon.inReset.contains 1 then s
        else flushWritten (wholeRecords n f.jrecs) (n - journalPages f.jrecs - ceilDiv s.obj.dirtyHdr 4064) s
      .next (s.onAon fun a => { a with
        powered := false, inReset := otherIslands, sealPg := if f.sealed then a.sealPg else none })

/-- HOLDUP_OK_CHANGE (R438): logged; while it is low every changed entry is written before it counts. -/
def execHoldupOkChange (up : Bool) (s : State) : Res :=
  if s.aon.holdupOk = up then .next s
  else
    let s := logEv Log.holdup 0 0 (toLe 1 (b2n up)) (s.onAon fun a => { a with holdupOk := up })
    .next (if up then s else saveAll (s.onObj fun o => { o with dirtyHdr := 0 }))

/-- RAIL_OUT_OF_LIMITS (R437): with PWR_FAIL_N high, island 0 raises the power event itself. -/
def execRailOutOfLimits (rail : Nat) (s : State) : Res :=
  if 8 ≤ rail || s.aon.pwrFailLow then .next s
  else .next (powerEvent 4 (s.onAon fun a => { a with powered := false }))

/-! Resets (R420, R422, R423). -/

/-- A warm reset begins with its flush; during a flush or a thermal-trip hold it is discarded and logged (R422, R467). The
recording ends first (R404). -/
def startWarm (s : State) : State :=
  if bitOf s.aon.straps 4 then s
  else if halted s || s.aon.tripHold then logEv Log.powerEvent 0 0 [2] s
  else
    let s := endRecording .warmReset s
    s.onAon fun a => { a with flush := some { cause := 2, warm := true, jrecs := undurable s, at_ := a.uptime } }

/-- WARM_RESET (R422): its flush begins with power good; FLUSH_COMPLETE ends it with the reset of every island but 0. -/
def execWarmReset (s : State) : Res := .next (startWarm s)

/-- STEWARD_WATCHDOG (R420): the Steward restarts; its mailbox hardware answers BUSY meanwhile (R330). -/
def execStewardWatchdog (s : State) : Res := whileUp s <|
  .next (s.onStew fun w => { w with busy := true, busySince := now s, activating := none })

/-- ISLAND_RESET (R420): an island that a power state had off, on the way back to P0; a fabric port's island. -/
def execIslandReset (island : Nat) (s : State) : Res := whileUp s <|
  if s.stew.exiting && s.aon.off.contains island then
    .next (resetIsland island (s.onAon fun a => { a with off := a.off.filter (· != island) }))
  else if inRange island 55 58 then .next (resetPort (island - 55) s)
  else .next s

/-! Start-up and recovery (R424 to R427). -/

/-- A channel's LUNs after identification: those known keep what is recorded of them, new ones join (R254). -/
def identify (ch : Nat) (ts : List Bytes) (found : List LunId) (c : Chan) : Chan :=
  let now := foundLuns ch found
  let known := c.luns.map fun l => (l.1, match now.find? fun x => x.1 == l.1 with
    | some x => { l.2 with model := x.2.model, maker := x.2.maker, bytes := x.2.bytes, blocks := x.2.blocks, page := x.2.page, spare := x.2.spare }
    | none => l.2)
  let new := now.filter fun x => !c.luns.any fun l => l.1 == x.1
  admitChan ts { c with luns := (List.range 32).filterMap fun k => (known ++ new).find? fun l => l.1 == k }

/-- Known LUNs of a channel that did not answer. -/
def missing (ch : Nat) (found : List LunId) (c : Chan) : List Nat :=
  (c.luns.filter fun l => l.2.admitted && !l.2.retired && !(foundLuns ch found).any fun x => x.1 == l.1).map Prod.fst

/-- A LUN that does not answer at a cold start is retired with its units lost (R274, R276). -/
def loseLun (ch key : Nat) (s : State) : State :=
  let lost := (chanUnits s ch).filter fun u => blkLunKey u.2.blk == key
  retireLun ch key (lost.foldl (fun s u => loseUnit u.1 s) s)

/-- Phase 1 ends: the mapping rebuilt (R427), channels trained and identified; those that failed training are retired, and with fewer than 24 trained the
node waits in RECOVERY (R275, R426). -/
def endPhase1 (found : PhaseIn) (s : State) : State :=
  let s := rescan s
  let up := chansUp s
  let trained (ch : Nat) : Bool := found.chans.any fun p => p.1 == ch
  let bad := (up.filter fun c => !trained c.1).map Prod.fst
  if up.length - bad.length < 24 then
    (bad.foldl (fun s ch => detect { chanDet ch with action := 0 } s) s).onStew fun w => { w with st := .recovery }
  else
    let s := bad.foldl (fun s ch => loseChannel ch s) s
    let s := found.chans.foldl (fun s p =>
      match chanOf s p.1 with
      | some c =>
        if c.st != .inService then s
        else
          let s := (missing p.1 found.luns c).foldl (fun s k => loseLun p.1 k s) s
          onfi (identifyOps p.1 (identify p.1 s.fls.tables found.luns c))
            (modChan p.1 (fun c => { identify p.1 s.fls.tables found.luns c with rate := min p.2 3600 }) s)
      | none => s) s
    s.onStew fun w => { w with st := .start, phase := 2 }

/-- Records formed before the boot count was written are stamped with it (R419). -/
def stampBoot (n : Nat) (r : Rel) : Rel :=
  { r with logq := r.logq.map fun x => { x with boot := n }, detq := r.detq.map fun d => { d with boot := n } }

/-- Tenants whose wrapped key cannot be read: their PROTECTED objects read as POISON (R272). -/
def loseKey (s : State) (t : Nat) : State :=
  let s := s.onFls fun f => { f with xts := tabDel f.xts t }
  let s := s.obj.recs.foldl (fun s p =>
    if p.2.protected_ && hTenant p.2.handle == t then poisonWhole p.1 s else s) s
  detect { kind := 0, cause := 8, unitKind := 9, island := 60, action := 3, tenant := t } s

/-- Phase 2 ends: boot count, object table, keys, generations (R419, R426). -/
def endPhase2 (found : PhaseIn) (s : State) : State :=
  if !found.tableOk then
    raiseViral (detect { kind := 0, cause := 9, unitKind := 9, island := 36 } (latchGasp 9 36 s))
  else if !found.bootOk then
    (detect { kind := 0, cause := 4, unitKind := 9, island := 1 } s).onStew fun w => { w with st := .recovery }
  else
    let last := max (s.stew.bootA.getD 0) (s.stew.bootB.getD 0)
    let n := if s.stew.bootDone then s.stew.boot else min (last + 1) (2 ^ 32 - 1)
    let s := if !s.stew.bootDone && last == 2 ^ 32 - 1 then logEv Log.bootCountFull 1 1 [] s else s
    let s := s.onStew fun w => { w with boot := n, bootA := some n, bootB := some n, bootDone := true, st := .start, phase := 3 }
    (found.badKeys.foldl loseKey s).onRel (stampBoot n)

/-- Phase 3 ends: the flush stream is applied and erased (R436). -/
def endPhase3 (s : State) : State :=
  let rs := s.aon.stream.map fun r => { r with durable := true }
  let s := s.onEng fun e => { e with journal := rs.reverse ++ e.journal, jseq := max e.jseq ((rs.getLast?.map JRec.seq).getD 0) }
  (s.onAon fun a => { a with stream := [] }).onStew fun w => { w with phase := 4 }

/-- A journal record is replayed: its group is committed whole (R217). -/
def replayRecord (s : State) (r : JRec) : State :=
  (applyHusks r.epoch r.husks s).2.onEng fun e => { e with epoch := r.epoch, drain := [(r.epoch, 0)], oldest := r.epoch }

/-- The records that recovery replays: in sequence order up to the first missing number or a record or extent that is not whole (R217). -/
def replayable (s : State) : Nat → List JRec → List JRec
  | _, [] => []
  | n, r :: rs => if r.seq = n && recordGood s r then r :: replayable s (n + 1) rs else []

/-- Phase 4 ends: the records behind the last commit are replayed in order; extent units that no record refers to are gone (R181). A
profile that one of them entered begins no recording (R34). -/
def endPhase4 (s : State) : State :=
  let new := s.eng.journal.reverse.filter fun r => decide (s.eng.epoch < r.epoch)
  let rs := replayable s ((new.head?.map JRec.seq).getD 0) new
  let used := (s.eng.journal.flatMap JRec.husks).flatMap fun h => h.2.actions.flatMap Action.exts
  let s := (rs.foldl replayRecord s).onFls fun f => { f with jext := f.jext.filter fun u => used.contains u.1 }
  (s.onRec fun r => { r with due := none }).onStew fun w => { w with phase := 5, pendGen := none, lastReplayed := ((s.eng.journal.head?).map JRec.seq).getD 0 }

/-- Phase 5 ends: only the current epoch is retained; binders and barriers are dropped (R221, R223, R225); the SYSTEM objects, the ring of
a generation in Trace among them, are taken from the empty T1 pool (R34); map slots freed before are free (R222). -/
def endPhase5 (s : State) : State :=
  let e := s.eng.epoch
  let s := (keepSystem s).onIdx fun x => { x with freedSlots := [] }
  (s.onEng fun x => { x with drain := [(e, 0)], oldest := e, barriers := [], binders := [] }).onStew fun w => { w with
    phase := 6, clsHist := [(e, genClass w.cur)] }

/-- RECOVERY_PHASE_COMPLETE (R424 to R427): the phase in progress ends and the next begins. -/
def execRecoveryPhaseComplete (found : PhaseIn) (s : State) : Res := whileUp s <|
  if !(s.stew.st == .start || s.stew.st == .recovery) || s.stew.rom then .next s
  else match s.stew.phase with
    | 0 => .next (s.onStew fun w => { w with phase := 1 })
    | 1 => .next (endPhase1 found s)
    | 2 => .next (endPhase2 found s)
    | 3 => .next (endPhase3 s)
    | 4 => .next (endPhase4 s)
    | 5 => .next (endPhase5 s)
    | _ => .next s

/-! Start-up known-answer checks (R383). -/

/-- Working physical tiles of a cluster. -/
def workingTiles (s : State) (cl : Nat) : List Nat := (List.range 17).filter fun x => !s.shv.retired.contains (cl, x)

/-- A mismatch retires its unit, with a record of kind known answer (R375, R377, R383). -/
def knownBad (s : State) (b : BadUnit) : State :=
  let d : Det := { kind := 2, cause := 0x18, pattern := b.pattern, expected := b.expected, observed := b.observed, physical := b.phys }
  if b.kind = 0 then
    if s.shv.retired.contains (b.unit, b.phys) || 32 ≤ b.unit || 17 ≤ b.phys then s
    else
      let s := s.onShv fun v => { v with retired := v.retired ++ [(b.unit, b.phys)] }
      let n := (workingTiles s b.unit).length
      detect { d with unitKind := 0, island := 2 + b.unit, unit := 16 * b.unit + min b.phys 15,
                      action := if 16 ≤ n then 1 else 2, spares := n - 16 } s
  else if b.kind = 1 then
    if s.stk.badCulms.contains (b.unit, b.phys) || 8 ≤ b.unit || 68 ≤ b.phys then s
    else
      let s := s.onStk fun m => { m with badCulms := m.badCulms ++ [(b.unit, b.phys)] }
      let n := ((List.range 68).filter fun x => !s.stk.badCulms.contains (b.unit, x)).length
      detect { d with unitKind := 1, island := 39 + b.unit, unit := b.unit + 8 * min b.phys 63,
                      action := if 64 ≤ n then 1 else 2, spares := n - 64 } s
  else if b.kind = 2 then
    if !isCrossing (b.unit % 2 ^ 14) then s
    else
      let k := crossKey (b.unit % 2 ^ 14)
      let lane := b.unit / 2 ^ 15
      let d := { d with unitKind := 2, island := b.unit % 64, unit := b.unit, physical := 0, spares := 0 }
      if s.rel.laneBad.contains k then
        if tabGetD s.rel.lanes k 0 = lane then detect { d with action := 5 } s else s
      else detect { d with action := 1 } (s.onRel fun r => { r with laneBad := r.laneBad ++ [k], lanes := tabSet r.lanes k (1 - lane) })
  else if b.kind = 3 then ringsFail (b.phys == 38) (b.phys == 62) s
  else s

/-- KNOWN_ANSWER_CHECK (R383): alongside phases 3 to 5. -/
def execKnownAnswerCheck (bad : List BadUnit) (s : State) : Res := whileUp s <|
  if s.stew.st != .start || s.stew.phase < 3 || s.stew.kaDone then .next s
  else .next ((bad.foldl knownBad s).onStew fun w => { w with kaDone := true })

/-! The layout (R378). -/

/-- A cluster's logical slots map to its working tiles in ascending slot; those left over are absent (R378). -/
def layCluster (s : State) (cl : Nat) : State :=
  let ws := workingTiles s cl
  s.onShv fun v => (List.range 16).foldl (fun v i =>
    let t := 16 * cl + i
    match ws[i]? with
    | some x =>
      let v := if x = i then v else { v with slotOf := tabSet v.slotOf t x }
      if x = 16 then { v with tillerUse := tabSet v.tillerUse cl t } else v
    | none => { v with absent := v.absent ++ [t] }) v

/-- Logical culm (stack, pc) is slot pc; a retired one takes the lowest free spare, or its pseudo-channel is unserved (R169,
R190, R191). -/
def layCulm (s : State) (k : Nat) : State :=
  if !s.stk.badCulms.contains (k % 8, k / 8) then s
  else match freeSpare s (k % 8) with
    | some x => modCulm k (fun u => { u with phys := x }) s
    | none => modCulm k (fun u => { u with unserved := true }) s

/-- The number of the retirement record an inventory record follows from. -/
def relatedRecord (s : State) (unitKind island : Nat) : Nat :=
  ((s.rel.sigs.find? fun p => p.2.unitKind == unitKind && p.2.island == island && (p.2.action == 1 || p.2.action == 2)).map
    Prod.fst).getD 0

/-- One inventory record for every cluster or die that runs with retired units (R378, R387). -/
def inventory (s : State) : State :=
  let one (uk island spares : Nat) (s : State) : State :=
    detect { kind := 3, cause := 0x25, unitKind := uk, island := island, action := 6, spares := spares, related := relatedRecord s uk island } s
  let s := (List.range 32).foldl (fun s cl =>
    let n := (workingTiles s cl).length
    if n = 17 then s else one 0 (2 + cl) (n - 16) s) s
  (List.range 8).foldl (fun s k =>
    let n := ((List.range 68).filter fun x => !s.stk.badCulms.contains (k, x)).length
    if n = 68 then s else one 1 (39 + k) (n - 64) s) s

/-- STANDBY_ENTRY (R378, R424): recovery and the known-answer checks have both ended. Viral keeps the node in FAULT (R394,
R422). -/
def execStandbyEntry (s : State) : Res := whileUp s <|
  if s.stew.st != .start || s.stew.phase != 6 || !s.stew.kaDone then .next s
  else
    let s := s.onShv fun v => { v with slotOf := [], absent := [], tillerUse := [] }
    let s := (List.range 32).foldl layCluster (s.onStk fun m => { m with culms := [] })
    let s := (List.range 512).foldl layCulm s
    .next ((inventory s).onStew fun w => { w with st := if s.aon.viral then .fault else .standby })

/-- REPLAY_END (R410): a replay that has stopped, or consumed its last window, raises COMMAND_DONE; once the event has been
read, the node makes a cold start. -/
def execReplayEnd (s : State) : Res := whileUp s <|
  let r := s.recd
  if !r.replaying then .next s
  else if r.ended then
    .next (if (mbxOf s 0).events.isEmpty && !(mbxOf s 0).outFull then coldStart s else s)
  else match r.diverged, nextWindow r with
    | some w, _ => .next (commandDone 0 0x0506 r.replaySeq St.replayDiverged 0 (toLe 8 w) (s.onRec fun r => { r with ended := true }))
    | none, some c =>
      if c.type = 0 then
        .next (commandDone 0 0x0506 r.replaySeq St.replayDiverged 0 (toLe 8 c.seq)
          (stopReplay c.seq 3 0 0 0 0 0 (s.onRec fun r => { r with ended := true })))
      else .next s
    | none, none => .next (commandDone 0 0x0506 r.replaySeq St.success 0 (toLe 8 0) (s.onRec fun r => { r with ended := true, chunks := [] }))

/-! Power states (R429 to R432). -/

/-- Islands that a power state has off (R429). -/
def offIn (p : Nat) : List Nat :=
  if p = 2 then (List.range 36).map (· + 2) ++ (List.range 16).map (39 + ·)
  else if p = 3 then (List.range 64).filter fun i => !([0, 1, 59, 62].contains i)
  else []

/-- Whether the node has drained: step 1 of an entry. -/
def drained (s : State) : Bool :=
  s.hif.cmds.isEmpty && s.eng.husks.isEmpty && s.eng.group.isEmpty && s.eng.closing.isEmpty

/-- One step of an entry to P2 or P3 (R430). -/
def entryStep (k goal : Nat) (s : State) : State :=
  if k = 3 then saveAll (s.onObj fun o => { o with dirtyHdr := 0 })
  else if k = 4 then
    let s := (List.range 512).foldl (fun s t => dropT0 t (emptyT0 t s)) s
    s.onShv fun v => { v with stages := [], edges := [], reads := [] }
  else if k = 6 then s.onAon fun a => { a with off := (List.range 36).map (· + 2) }
  else if k = 7 && goal = 3 then s.onFab fun f => { f with ports := [false, false, false, false] }
  else if k = 8 then s.onAon fun a => { a with off := offIn goal }
  else s

/-- The answer of the POWER_SET that asked for a transition. -/
def answerPower (st : Nat) (s : State) : State :=
  match s.stew.pwReq with
  | some box => zRespond box st 0 [] (s.onStew fun w => { w with pwReq := none })
  | none => s

/-- POWER_STATE_REVERSIBLE_POINT (R325, R430): an entry step ends; work that has arrived stops the entry, and the node returns
to P0. -/
def execPowerStateReversiblePoint (s : State) : Res := whileUp s <|
  match s.stew.goal with
  | none => .next s
  | some g =>
    let k := s.stew.pwStep + 1
    if s.stew.wake then .next (s.onStew fun w => { w with goal := none, exiting := true })
    else if k = 1 && !drained s then .next s
    else
      let s := (entryStep k g s).onStew fun w => { w with pwStep := k }
      if k < 8 then .next s
      else .next (answerPower St.success (s.onStew fun w => { w with goal := none, pstate := g, pwStep := 0 }))

/-- POWER_STATE_WAKE (R432): 0 a doorbell, 1 a mailbox doorbell, 2 WAKE_N, 3 a request or bulk frame (not in P3), 4 an urgent
background request. In a lower state the exit begins; during an entry its next reversible point stops it. -/
def execPowerStateWake (src : Nat) (s : State) : Res := whileUp s <|
  if 4 < src || (src = 3 && s.stew.pstate = 3) || s.stew.exiting then .next s
  else
    let s := if src = 2 then recordPin 0 1 s else s
    if s.stew.goal.isSome then .next (s.onStew fun w => { w with wake := true })
    else if s.stew.pstate = 0 then .next s
    else .next (s.onStew fun w => { w with wake := true, exiting := true })

/-- POWER_STATE_EXIT_COMPLETE (R325, R431): islands are powered and their crossings resynchronised; ring 38 takes the records
written meanwhile; an interrupted POWER_SET is answered, as is one that asked for P0. -/
def execPowerStateExitComplete (s : State) : Res := whileUp s <|
  if !(s.stew.exiting || (s.stew.wake && s.stew.goal.isNone)) then .next s
  else
    let st := if s.stew.pstate = 0 then St.psEntryInterrupted else St.success
    let s := s.onAon fun a => { a with off := [], notReady := [] }
    let s := s.onRel fun r => { r with only62 := [] }
    .next (answerPower st (s.onStew fun w => { w with exiting := false, wake := false, goal := none, pstate := 0, pwStep := 0 }))

/-! The power envelope (R428). -/

/-- POWER_MEAN_SAMPLE (R428): every 10 µs the package power, 100 samples to the mean of 1 ms. -/
def execPowerMeanSample (mw : Nat) (s : State) : Res := whileUp s <|
  .next (s.onAon fun a => { a with powerSamples := (mw :: a.powerSamples).take 100 })

/-- The mean over the last 1 ms, mW. -/
def powerMean (s : State) : Nat := s.aon.powerSamples.sum / max 1 s.aon.powerSamples.length

/-- A clock one step lower, to the 1.3 GHz floor, and one step higher, to no ceiling at all. -/
def clockDown (s : State) (c : Nat) : Nat := max 1300 (min c (profileMhz (gen s)) - 50)
def clockUp (s : State) (c : Nat) : Nat := if profileMhz (gen s) ≤ c + 50 then 1700 else c + 50

/-- POWER_CLOCK_STEP (R428): above 800 W the tile clock falls by 50 MHz, and at the floor pulses are skipped; below 780 W it
rises again. -/
def execPowerClockStep (s : State) : Res := whileUp s <|
  let m := powerMean s
  if 800000 < m then
    let atFloor := decide (min s.aon.capMhz (profileMhz (gen s)) ≤ 1300)
    .next (s.onAon fun a => { a with capMhz := clockDown s a.capMhz, skipping := a.skipping || atFloor })
  else if m < 780000 then
    .next (s.onAon fun a => { a with capMhz := clockUp s a.capMhz, skipping := false })
  else .next s

/-! Temperature (R457 to R459). -/

/-- The hottest sensor of each location: a cluster, the rest of the Sheaf die, a stack's base die, its core dies, the Flash
I/O die, the Link I/O die. -/
def clusterTemp (s : State) (cl : Nat) : Int := hottest s (4 * cl) 4
def sheafRestTemp (s : State) : Int := hottest s 128 12
def baseTemp (s : State) (k : Nat) : Int := hottest s (140 + 8 * k) 4
def coreTemp (s : State) (k : Nat) : Int := hottest s (144 + 8 * k) 4
def flashIoTemp (s : State) : Int := hottest s 204 4
def linkIoTemp (s : State) : Int := hottest s 208 4

/-- Whether a location is at a critical temperature (R458). -/
def critical (s : State) : Bool :=
  ((List.range 32).any fun c => decide (1680 ≤ clusterTemp s c)) ||
  ((List.range 8).any fun k => decide (1600 ≤ coreTemp s k) || decide (1680 ≤ baseTemp s k)) ||
  decide (1680 ≤ sheafRestTemp s) || decide (1680 ≤ flashIoTemp s) || decide (1680 ≤ linkIoTemp s)

/-- A cluster's throttle after a sample: lowered a step at 95 °C, raised a step below 92 °C. -/
def throttleCluster (s : State) (t : List (Nat × Nat)) (cl : Nat) : List (Nat × Nat) :=
  let c := ((t.find? fun p => p.1 == cl).map Prod.snd).getD 1700
  let rest := t.filter fun p => p.1 != cl
  if 1520 ≤ clusterTemp s cl then rest ++ [(cl, clockDown s c)]
  else if clusterTemp s cl < 1472 then (if clockUp s c = 1700 then rest else rest ++ [(cl, clockUp s c)])
  else t

/-- The set of stacks for which a condition has come on, and has not gone off. -/
def heldSet (l : List Nat) (n : Nat) (on off : Nat → Bool) : List Nat :=
  (List.range n).filter fun k => on k || (l.contains k && !off k)

/-- THERMAL_SAMPLE (R379, R457, R458): the sensors and rails are read and recorded; clusters and stacks throttle or are
released; a threshing heater stops at the limit and the run keeps its highest temperature. -/
def execThermalSample (temps : List Int) (rails : List (Nat × Nat)) (s : State) : Res := whileUp s <|
  if temps.length != 212 then .next s
  else
    let s := temps.zipIdx.foldl (fun s t => recordInput 0x0A t.2 false (toLe 4 (fieldOfInt 32 t.1) ++ zeros 4) s) s
    let s := s.onAon fun a => { a with temps := temps, rails := rails }
    let s := s.onAon fun a => { a with
      clusterMhz := (List.range 32).foldl (throttleCluster s) a.clusterMhz
      stackHot := heldSet a.stackHot 8 (fun k => decide (1520 ≤ coreTemp s k)) fun k => decide (coreTemp s k < 1472)
      refresh2 := (List.range 8).filter fun k => decide (1360 < coreTemp s k)
      critSince := if critical s then some (a.critSince.getD a.uptime) else none }
    .next (s.onRel fun r => { r with runs := r.runs.map fun x =>
      if x.st == .running && x.unitKind == 0 then
        { x with maxTemp := max x.maxTemp (clusterTemp s (x.unit / 16)), heatOff := x.heatOff || decide (1520 ≤ clusterTemp s (x.unit / 16)) }
      else if x.st == .running && x.unitKind == 1 then { x with maxTemp := max x.maxTemp (baseTemp s (x.unit % 8)) }
      else x })

/-- THERMAL_TRIP (R459, R467): a critical temperature held for 10 µs: a power event, then every island held until PWR_FAIL_N was
asserted and released. -/
def execThermalTrip (s : State) : Res :=
  match s.aon.critSince with
  | none => .next s
  | some t =>
    if now s < t + 10000 || s.aon.tripHold then .next s
    else .next (powerEvent 1 (logEv Log.thermal 0 2 [] (s.onAon fun a => { a with tripHold := true, tripSeen := a.pwrFailLow })))

/-! Reference clocks (R456). -/

/-- REFCLK_LOSS: 0 SYS_REFCLK: the backup oscillator and a power event; 1 PCIE_REFCLK: the link goes down and the queues stop
as in R320; 2 ETH_REFCLK: all four ports go down. -/
def execRefclkLoss (clk : Nat) (s : State) : Res :=
  if clk = 0 then
    .next (if s.aon.sysLost then s else powerEvent 3 (s.onAon fun a => { a with sysLost := true }))
  else if clk = 1 then
    .next (if s.aon.pcieLost then s
      else
        let s := s.onAon fun a => { a with pcieLost := true }
        if halted s then s
        else (stopAll (recordPin 4 0 (logEv Log.refClock 0 2 [1] s))).onHif fun h => { h with linkUp := false })
  else if clk = 2 then
    .next (if s.aon.ethLost then s
      else (logEv Log.refClock 0 2 [2] (s.onAon fun a => { a with ethLost := true })).onFab fun f => { f with
        ports := [false, false, false, false] })
  else .next s

/-- REFCLK_RETURN: the clock is back; link and ports train again by LINK_TRAINING and PORT_LINK_CHANGE. -/
def execRefclkReturn (clk : Nat) (s : State) : Res :=
  .next (s.onAon fun a => { a with
    sysLost := a.sysLost && clk != 0, pcieLost := a.pcieLost && clk != 1, ethLost := a.ethLost && clk != 2 })

end Sys2Proof.Machine
end

