-- ==== Sys2Proof/Machine/Attest.lean ====
section
/-! DEFINITION. Firmware images, attestation and keys, the CXL memory-device mailbox (R272, R298, R446 to R449). -/

namespace Sys2Proof.Machine
open Sys2Proof

/-! Firmware (R446 to R448). -/

/-- Whether a firmware image is valid (R446): header, fused key, signature, digest, security version. -/
def imageValid (w : Stew) (b : Bytes) : Bool :=
  fld b 0 4 == 0x57464C54 && fld b 4 2 == 1 && decide (512 ≤ b.length) && fld b 0x10 4 == b.length &&
    Config.sha384 (slice b 0xA8 96) == Config.fusedKeyHash &&
    Config.signatureValid (slice b 0 0x48) (slice b 0x48 96) (slice b 0xA8 96) &&
    slice b 0x18 48 == slice (Config.sha384 (b.drop 0x200)) 0 48 && decide (w.secMin ≤ fld b 0x0C 4)

/-- Reserved fields of a firmware image's header (R15, R446). -/
def imageReserved (b : Bytes) : List Chk := [(6, zeroAt b 6 2), (0x108, zeroAt b 0x108 248)]

/-- A slot that holds an image. -/
def slotFrom (b : Bytes) : Slot :=
  { valid := true, version := fld b 8 4, sec := fld b 0x0C 4, genMin := fld b 0x14 2, genMax := fld b 0x16 2, image := b }

/-- A firmware slot by number. -/
def slotAt (w : Stew) (k : Nat) : Slot := if k = 0 then w.slot0 else w.slot1

/-- FW_LOAD (R334, R447): a valid image is written into the inactive slot. -/
def execFwLoad (box : Nat) (image : Bytes) (s : State) : Res := whileUp s <|
  onZalpol box 0x0410 s fun m s =>
    let n := fld m 0x28 4
    zChecked box [(0x28, inRange n 512 (2 ^ 25))] s fun s =>
      let b := slice image 0 n
      zChecked box (imageReserved b) (zData m b s) fun s =>
      if !imageValid s.stew b then zFail box St.imageInvalid 0 s
      else
        let k := 1 - s.stew.active
        zRespond box St.success 0 (toLe 1 k ++ zeros 3 ++ toLe 4 (fld b 8 4)) (s.onStew fun w =>
          if k = 0 then { w with slot0 := slotFrom b } else { w with slot1 := slotFrom b })

/-- Whether a command that ends in a Done event runs (R447): a rebuild asked for, a format, a drain or admit, a threshing run,
a replay. -/
def doneRunning (s : State) : Bool :=
  s.fls.formatting.isSome || s.recd.replaying || (s.rel.runs.any fun r => r.st != .done) ||
    (s.fls.chans.any fun c => c.2.st == .draining || c.2.st == .admitting) || !s.idx.rebuilds.isEmpty

/-- FW_ACTIVATE (R447): refused, or the Steward restarts from the slot while the mailbox hardware answers BUSY. -/
def execFwActivate (box : Nat) (s : State) : Res := whileUp s <|
  onZalpol box 0x0411 s fun m s =>
    let k := byteAt m 0x20
    zChecked box [(0x20, decide (k ≤ 1))] s fun s =>
      if s.stew.pendGen.isSome || doneRunning s then zFail box St.busy 0 s
      else
        let x := slotAt s.stew k
        if !slotStarts s.stew x || 1 < x.genMin || x.genMax < 1 then zFail box St.imageInvalid 0 s
        else (zRespond box St.success 0 [] s).onStew fun w => { w with busy := true, busySince := now s, activating := some k }

/-- FW_ACTIVATE_TIMEOUT (R447): the new image is not ready within 200 ms: the Steward restarts from the former slot and raises
FW_ACTIVATED with IMAGE_INVALID. -/
def execFwActivateTimeout (s : State) : Res := whileUp s <|
  match s.stew.activating with
  | none => .next s
  | some _ =>
    if now s < s.stew.busySince + 200000000 then .next s
    else .next (raiseEvent 0 EvCode.fwActivated (fwBody s.stew s.stew.active St.imageInvalid)
      (s.onStew fun w => { w with activating := none, busySince := now s }))

/-- STEWARD_RESTART_COMPLETE (R447, R448): the Steward is ready; a new image marks its slot active and raises the security
minimum; a TIME_POST pair the boot program held goes into the log. -/
def execStewardRestartComplete (s : State) : Res := whileUp s <|
  if !s.stew.busy then .next s
  else
    let s := s.onStew fun w => { w with busy := false }
    match s.stew.activating with
    | none => .next s
    | some k =>
      let s := s.onStew fun w => { w with activating := none, active := k, secMin := max w.secMin (slotAt w k).sec, rom := false }
      let s := s.onFls fun f => let ts := f.tables ++ Config.imageTables (slotAt s.stew k).image
        { f with tables := ts, chans := f.chans.map fun c => (c.1, admitChan ts c.2) }
      let s := match s.stew.heldPost with
        | some p => (logEv Log.timePost 1 0 p s).onStew fun w => { w with heldPost := none }
        | none => s
      .next (raiseEvent 0 EvCode.fwActivated (fwBody s.stew k 0) s)

/-! SPDM 1.3 over DOE (R449). The message codes are DSP0274's (log entry 18). -/

/-- An SPDM message: version 1.3, code, and what the spec fixes of it, with the rest as its standard says. -/
def spdmMsg (code : Nat) (given : Bytes) : Bytes := toLe 1 0x13 ++ toLe 1 code ++ given ++ Config.standardPayload code given

/-- Sends an SPDM message. -/
def spdmSend (b : Bytes) (s : State) : State := s.onStew fun w => { w with doeOut := w.doeOut ++ [b] }

/-- An SPDM ERROR: 1 InvalidRequest, 3 Busy, 4 UnexpectedRequest, 6 DecryptError, 65 UnsupportedRequest's place. -/
def spdmError (e : Nat) (s : State) : State := spdmSend (toLe 1 0x13 ++ toLe 1 0x7F ++ toLe 1 e ++ [0]) s

/-- Whether algorithms have been negotiated. -/
def negotiated (s : State) : Bool :=
  s.stew.spdm == .negotiated || s.stew.spdm == .sessionOpening || s.stew.spdm == .session

/-- Sets the phase of the connection. -/
def setSpdm (p : SpdmPhase) (s : State) : State := s.onStew fun w => { w with spdm := p }

/-- GET_VERSION: the connection begins anew. -/
def execGetVersion (s : State) : Res := whileUp s <|
  .next (spdmSend (spdmMsg 0x04 []) (s.onStew fun w => { w with spdm := .versioned, spdmSess := none, kreq := none }))

/-- GET_CAPABILITIES. -/
def execGetCapabilities (s : State) : Res := whileUp s <|
  .next (if s.stew.spdm = .versioned then spdmSend (spdmMsg 0x61 []) (setSpdm .capable s) else spdmError 4 s)

/-- NEGOTIATE_ALGORITHMS: the requester is to offer ECDSA P-384, SHA-384, secp384r1 and AES-256-GCM, and no others serve. -/
def execNegotiateAlgorithms (offered : Bool) (s : State) : Res := whileUp s <|
  .next (if s.stew.spdm != .capable then spdmError 4 s
    else if !offered then spdmError 1 s
    else spdmSend (spdmMsg 0x63 []) (setSpdm .negotiated s))

/-- GET_DIGESTS. -/
def execGetDigests (s : State) : Res := whileUp s <|
  .next (if negotiated s then spdmSend (spdmMsg 0x01 []) s else spdmError 4 s)

/-- GET_CERTIFICATE: slot 0 holds the chain. -/
def execGetCertificate (slot off len : Nat) (s : State) : Res := whileUp s <|
  .next (if !negotiated s then spdmError 4 s
    else if slot != 0 then spdmError 1 s
    else spdmSend (spdmMsg 0x02 (toLe 2 off ++ toLe 2 len)) s)

/-- CHALLENGE: signed with the identity key of slot 0. -/
def execChallenge (slot : Nat) (s : State) : Res := whileUp s <|
  .next (if !negotiated s then spdmError 4 s
    else if slot != 0 then spdmError 1 s
    else spdmSend (spdmMsg 0x03 []) s)

/-- The measurement of an index (R449). -/
def measurement (s : State) (i : Nat) : Bytes :=
  match i with
  | 1 => Config.sha384 Config.bootRom
  | 2 => Config.sha384 (slotAt s.stew s.stew.active).image
  | 3 => if (slotAt s.stew (1 - s.stew.active)).valid then Config.sha384 (slotAt s.stew (1 - s.stew.active)).image else zeros 48
  | 4 => Config.sha384 (genImage (gen s))
  | 5 => Config.sha384 s.fls.tables.flatten
  | _ => Config.sha384 (Config.retiredList s.shv.retired s.stk.badCulms s.rel.laneBad)

/-- GET_MEASUREMENTS: one index of 1 to 6, or every one under 0xFF; Busy during a FW_ACTIVATE restart. -/
def execGetMeasurements (index : Nat) (s : State) : Res := whileUp s <|
  .next (if s.stew.busy then spdmError 3 s
    else if !negotiated s then spdmError 4 s
    else if index = 0xFF then spdmSend (spdmMsg 0x60 ([1, 2, 3, 4, 5, 6].flatMap fun i => toLe 1 i ++ measurement s i)) s
    else if inRange index 1 6 then spdmSend (spdmMsg 0x60 (toLe 1 index ++ measurement s index)) s
    else if index = 0 then spdmSend (spdmMsg 0x60 [6]) s
    else spdmError 1 s)

/-- KEY_EXCHANGE: a session is being opened against slot 0. -/
def execKeyExchange (slot : Nat) (s : State) : Res := whileUp s <|
  .next (if s.stew.spdm != .negotiated then spdmError 4 s
    else if slot != 0 then spdmError 1 s
    else spdmSend (spdmMsg 0x64 (toLe 4 (s.stew.sessCtr + 1))) (s.onStew fun w => { w with
      spdm := .sessionOpening, sessCtr := w.sessCtr + 1 }))

/-- FINISH: the session opens where the requester's proof is good. -/
def execFinish (good : Bool) (s : State) : Res := whileUp s <|
  .next (if s.stew.spdm != .sessionOpening then spdmError 4 s
    else if good then spdmSend (spdmMsg 0x65 []) (s.onStew fun w => { w with spdm := .session, spdmSess := some w.sessCtr })
    else spdmError 6 (setSpdm .negotiated s))

/-- Whether a secured session is the one open. -/
def inSession (s : State) (sess : Nat) : Bool := s.stew.spdm == .session && s.stew.spdmSess == some sess

/-- HEARTBEAT. -/
def execHeartbeat (sess : Nat) (s : State) : Res := whileUp s <|
  .next (if inSession s sess then spdmSend (spdmMsg 0x68 []) s else spdmError 4 s)

/-- KEY_UPDATE. -/
def execKeyUpdate (sess : Nat) (s : State) : Res := whileUp s <|
  .next (if inSession s sess then spdmSend (spdmMsg 0x69 []) s else spdmError 4 s)

/-- END_SESSION. -/
def execEndSession (sess : Nat) (s : State) : Res := whileUp s <|
  .next (if inSession s sess then
      spdmSend (spdmMsg 0x6C []) (s.onStew fun w => { w with spdm := .negotiated, spdmSess := none, kreq := none })
    else spdmError 4 s)

/-- A vendor-defined response that carries a Zalpol response (R331, R334). -/
def kAnswer (m : Bytes) (status detail : Nat) (s : State) : State :=
  spdmSend (spdmMsg 0x7E (answerOf m status detail [])) s

/-- The checks of R332 on a K command; a command for mailboxes has no right to come this way, and none outside a session. -/
def kBad (s : State) (m : Bytes) (secure : Bool) : Option (Nat × Nat) :=
  match zSpec (fld m 0 2) with
  | none => some (St.invalidOpcode, 0)
  | some z =>
    match firstBad (headerChecks z m) with
    | some off => some (St.invalidField, off)
    | none =>
      if 0x20 + fld m 8 4 != bodyEnd z.2.2 then some (St.invalidField, 8)
      else if z.1 != .session || !secure then some (St.accessViolation, 0)
      else if s.recd.replaying then some (St.busy, 0)
      else if !stateAccepts s 0 (fld m 0 2) m then some (St.nodeState, 0)
      else none

/-- VENDOR_DEFINED_REQUEST: a K command, its target naming the tenant (R272, R334). One waits while another is carried out. -/
def execVendorDefinedRequest (sess : Nat) (msg : Bytes) (s : State) : Res := whileUp s <|
  if s.stew.kreq.isSome then .next (spdmError 3 s)
  else match kBad s msg (inSession s sess) with
    | some (st, d) => .next (kAnswer msg st d s)
    | none => .next (s.onStew fun w => { w with kreq := some (zTenant msg, msg) })

/-! Keys (R272). -/

/-- The K command to be carried out, with its tenant. -/
def kReady (s : State) (code : Nat) : Option (Nat × Bytes) :=
  match s.stew.kreq with
  | some (t, m) => if fld m 0 2 == code && !s.stew.busy then some (t, m) else none
  | none => none

/-- A K command ends. -/
def kDone (m : Bytes) (status detail : Nat) (s : State) : State :=
  kAnswer m status detail (s.onStew fun w => { w with kreq := none })

/-- KEY_LOAD (R272): two equal halves are refused; else the tenant's key is loaded and kept wrapped. -/
def execKeyLoad (s : State) : Res := whileUp s <|
  match kReady s 0x0407 with
  | none => .next s
  | some (t, m) =>
    let k := slice m 0x20 64
    if k.take 32 == k.drop 32 then .next (kDone m St.invalidField 0x20 s)
    else .next (kDone m St.success 0 (logEv Log.keyChange 60 0 (toLe 2 t ++ [1]) (s.onFls fun f => { f with xts := tabSet f.xts t k })))

/-- KEY_DESTROY (R272): refused while the tenant owns a live PROTECTED object; else the key goes and every block under it is due
for erase. -/
def execKeyDestroy (s : State) : Res := whileUp s <|
  match kReady s 0x0408 with
  | none => .next s
  | some (t, m) =>
    if s.obj.recs.any fun p => p.2.protected_ && hTenant p.2.handle == t then .next (kDone m St.keyInUse 0 s)
    else .next (kDone m St.success 0 (logEv Log.keyChange 60 0 (toLe 2 t ++ [0]) (s.onFls fun f => { f with
      xts := tabDel f.xts t
      blks := f.blks.map fun b => (b.1, if b.2.key = t && (b.2.mode = 1 || b.2.mode = 2) then { b.2 with eraseDue := true } else b.2) })))

/-! The CXL memory-device mailbox (R298). Payloads are CXL 3.1's (log entry 18). -/

/-- An answer of the CXL mailbox: return code and payload. -/
def cxlAnswer (rc : Nat) (b : Bytes) (s : State) : State := s.onStew fun w => { w with cxlOut := w.cxlOut ++ [(rc, b)] }

/-- Identify Memory Device. -/
def execCxlIdentifyMemoryDevice (s : State) : Res := whileUp s <|
  .next (cxlAnswer 0 (Config.standardPayload 0x4000 (toLe 8 s.hif.bar2)) s)

/-- Get Event Records: those held. -/
def execCxlGetEventRecords (s : State) : Res := whileUp s <|
  .next (cxlAnswer 0 (Config.standardPayload 0x0100 s.stew.cxlEvents.flatten) s)

/-- Clear Event Records. -/
def execCxlClearEventRecords (s : State) : Res := whileUp s <|
  .next (cxlAnswer 0 [] (s.onStew fun w => { w with cxlEvents := [] }))

/-- Get Health Info. -/
def execCxlGetHealthInfo (s : State) : Res := whileUp s <|
  .next (cxlAnswer 0 (Config.standardPayload 0x4200 (toLe 8 (nodeStatusReg s))) s)

/-- Get Poison List: the window addresses whose data was returned poisoned (R323). -/
def execCxlGetPoisonList (s : State) : Res := whileUp s <|
  .next (cxlAnswer 0 (Config.standardPayload 0x4300 (s.hif.poisonList.flatMap (toLe 8))) s)

/-- CXL_UNSUPPORTED_COMMAND: any other command completes with the CXL return code Unsupported, 3. -/
def execCxlUnsupportedCommand (opcode : Nat) (s : State) : Res := whileUp s <|
  .next (if [0x4000, 0x0100, 0x0101, 0x4200, 0x4300].contains opcode then s else cxlAnswer 3 [] s)

end Sys2Proof.Machine
end

