-- ==== Sys2Proof/Machine/Sideband.lean ====
section
/-! DEFINITION. Sideband: the SMBus target and the IEEE 1149.1 port (R464 to R467). -/

namespace Sys2Proof.Machine
open Sys2Proof

/-- THERMAL bits as islands 0 and 62 have them (R465). -/
def thermalBits (s : State) : Nat :=
  b2n (!s.aon.clusterMhz.isEmpty || !s.aon.stackHot.isEmpty) + 2 * b2n (decide (s.aon.capMhz < 1700)) + 4 * b2n ((List.range 32).any (pulsesSkip s)) +
    8 * b2n s.aon.tripHold

/-- The hottest sensor of the Sheaf die, the I/O dies and each stack (R465). -/
def mirrorTemps (s : State) : List Int :=
  [hottest s 0 140, flashIoTemp s, linkIoTemp s] ++ (List.range 8).map fun k => hottest s (140 + 8 * k) 8

/-- SMBUS_MIRROR_UPDATE (R464): the values of other islands, while they run. -/
def execSmbusMirrorUpdate (s : State) : Res := whileUp s <|
  .next (s.onAon fun a => { a with mirror :=
    { at_ := a.uptime, status := nodeStatusReg s, boot := s.stew.boot, up := a.uptime, temps := mirrorTemps s,
      rails := (List.range 8).map fun i => a.rails.getD i (0, 0), power := powerMean s / 100, thermal := thermalBits s } })

/-- A Block Read (R464, R465): the uptime of the mirror, then the content; without a valid PEC it is discarded. -/
def smbRead (pec : Bool) (content : Bytes) (s : State) : State :=
  if pec then s.onAon fun a => { a with smbReply := some (toLe 8 a.mirror.at_ ++ content) } else s

/-- IDENT, code 0x00. -/
def execSmbusIdent (pec : Bool) (s : State) : Res := .next (smbRead pec (toLe 8 identReg) s)
/-- NODE_STATUS, code 0x01. -/
def execSmbusNodeStatus (pec : Bool) (s : State) : Res := .next (smbRead pec (toLe 8 s.aon.mirror.status) s)
/-- BOOT_UPTIME, code 0x02. -/
def execSmbusBootUptime (pec : Bool) (s : State) : Res :=
  .next (smbRead pec (toLe 4 s.aon.mirror.boot ++ toLe 8 s.aon.mirror.up) s)
/-- FAULT_CAUSE, code 0x03: island 0's own. -/
def execSmbusFaultCause (pec : Bool) (s : State) : Res := .next (smbRead pec (toLe 8 s.aon.faultCause.toNat) s)
/-- LAST_GASP, code 0x04. -/
def execSmbusLastGasp (pec : Bool) (s : State) : Res :=
  .next (smbRead pec (toLe 8 s.aon.gasp.toNat ++ toLe 8 s.aon.gaspUp) s)
/-- LOG_FAIL_COUNT, code 0x05. -/
def execSmbusLogFailCount (pec : Bool) (s : State) : Res := .next (smbRead pec (toLe 8 (logFailCount s)) s)
/-- TEMPS, code 0x10. -/
def execSmbusTemps (pec : Bool) (s : State) : Res :=
  .next (smbRead pec (slice (s.aon.mirror.temps.flatMap fun t => toLe 2 (fieldOfInt 16 t)) 0 22) s)
/-- RAILS, code 0x11. -/
def execSmbusRails (pec : Bool) (s : State) : Res :=
  .next (smbRead pec (slice (s.aon.mirror.rails.flatMap fun r => toLe 2 r.1 ++ toLe 2 r.2) 0 32 ++ toLe 2 s.aon.mirror.power) s)
/-- THERMAL, code 0x12; the trip hold is island 0's own. -/
def execSmbusThermal (pec : Bool) (s : State) : Res :=
  .next (smbRead pec (toLe 2 (s.aon.mirror.thermal % 8 + 8 * b2n s.aon.tripHold)) s)
/-- SMBUS_WARM_RESET, code 0x40: Write Word 0x5752 starts a warm reset; any other value is discarded. -/
def execSmbusWarmReset (word : Nat) (pec : Bool) (s : State) : Res :=
  .next (if pec && word == 0x5752 then startWarm s else s)
/-- The codes of R465. -/
def smbCodes : List Nat := [0, 1, 2, 3, 4, 5, 0x10, 0x11, 0x12, 0x40]
/-- SMBUS_UNDEFINED_CODE (R465): a block of length 0. -/
def execSmbusUndefinedCode (code : Nat) (pec : Bool) (s : State) : Res :=
  .next (if pec && !smbCodes.contains code then s.onAon fun a => { a with smbReply := some [] } else s)

/-! JTAG (R466). -/

/-- Whether island 63 runs. -/
def jtagUp (s : State) : Bool := !domainDown s 63
/-- Selects an instruction; IDCODE connects the identification register. -/
def jtagSelect (i : JtagIr) (s : State) : State :=
  if jtagUp s then s.onAon fun a => { a with jtagIr := i, jtagDr := if i = .idcode then 0x0A1E04F3 else 0 } else s
/-- An instruction that only STRAP_JTAG_EN at 1 accepts; else BYPASS. -/
def jtagTest (i : JtagIr) (s : State) : State := jtagSelect (if bitOf s.aon.straps 4 then i else .bypass) s

/-- JTAG WARM_RESET, 0x00A5. -/
def execJtagWarmReset (s : State) : Res := .next (if jtagUp s then startWarm (jtagSelect .warmReset s) else s)
/-- JTAG IDCODE: 0x0A1E_04F3. -/
def execJtagIdcode (s : State) : Res := .next (jtagSelect .idcode s)
/-- JTAG BYPASS, selected by every instruction not accepted too; `instr` is the instruction scanned in. -/
def execJtagBypass (_instr : Nat) (s : State) : Res := .next (jtagSelect .bypass s)
/-- JTAG SAMPLE/PRELOAD. -/
def execJtagSamplePreload (s : State) : Res := .next (jtagSelect .sample s)
/-- JTAG EXTEST. -/
def execJtagExtest (s : State) : Res := .next (jtagTest .extest s)
/-- JTAG INTEST. -/
def execJtagIntest (s : State) : Res := .next (jtagTest .intest s)
/-- JTAG CLAMP. -/
def execJtagClamp (s : State) : Res := .next (jtagTest .clamp s)
/-- JTAG HIGHZ. -/
def execJtagHighz (s : State) : Res := .next (jtagTest .highz s)

end Sys2Proof.Machine
end

