-- ==== Sys2Proof/Machine/Dispatch.lean ====
section
/-! DEFINITION. One arm per command: each calls the command's own meaning. -/

namespace Sys2Proof.Machine
open Sys2Proof

def exec (i : Instr) (s : State) : Host.Outcome State Fault Refusal :=
  match i with
  | .sqTailDoorbell fn index value => Sys2Proof.Machine.execSqTailDoorbell fn index value s
  | .cqHeadDoorbell fn index value => Sys2Proof.Machine.execCqHeadDoorbell fn index value s
  | .sqEntryFetch qp entry => Sys2Proof.Machine.execSqEntryFetch qp entry s
  | .commandAdmission qp => Sys2Proof.Machine.execCommandAdmission qp s
  | .admissionWaitEnd qp => Sys2Proof.Machine.execAdmissionWaitEnd qp s
  | .search n data => Sys2Proof.Machine.execSearch n data s
  | .insert n data => Sys2Proof.Machine.execInsert n data s
  | .upsert n data => Sys2Proof.Machine.execUpsert n data s
  | .delete n data => Sys2Proof.Machine.execDelete n data s
  | .expertCall n data acts => Sys2Proof.Machine.execExpertCall n data acts s
  | .gate n data => Sys2Proof.Machine.execGate n data s
  | .gather n data => Sys2Proof.Machine.execGather n data s
  | .memoryLayer n data => Sys2Proof.Machine.execMemoryLayer n data s
  | .attention n data => Sys2Proof.Machine.execAttention n data s
  | .elementwiseAdd n => Sys2Proof.Machine.execElementwiseAdd n s
  | .elementwiseMul n => Sys2Proof.Machine.execElementwiseMul n s
  | .elementwiseAct n => Sys2Proof.Machine.execElementwiseAct n s
  | .elementwiseConvert n => Sys2Proof.Machine.execElementwiseConvert n s
  | .binderAdd n => Sys2Proof.Machine.execBinderAdd n s
  | .binderSet n => Sys2Proof.Machine.execBinderSet n s
  | .binderWaitGe n => Sys2Proof.Machine.execBinderWaitGe n s
  | .binderOpRead n => Sys2Proof.Machine.execBinderOpRead n s
  | .waitGeTimeout qp => Sys2Proof.Machine.execWaitGeTimeout qp s
  | .husk n desc payload => Sys2Proof.Machine.execHusk n desc payload s
  | .alloc n data => Sys2Proof.Machine.execAlloc n data s
  | .free n => Sys2Proof.Machine.execFree n s
  | .move n => Sys2Proof.Machine.execMove n s
  | .moveRehome n => Sys2Proof.Machine.execMoveRehome n s
  | .pin n => Sys2Proof.Machine.execPin n s
  | .unpin n => Sys2Proof.Machine.execUnpin n s
  | .read n => Sys2Proof.Machine.execRead n s
  | .commandRangeGrant n => Sys2Proof.Machine.execCommandRangeGrant n s
  | .completionDrain qp => Sys2Proof.Machine.execCompletionDrain qp s
  | .queueDrainTimeout qp => Sys2Proof.Machine.execQueueDrainTimeout qp s
  | .coalesceTimeout qp => Sys2Proof.Machine.execCoalesceTimeout qp s
  | .msixEntryUnmask fn ent => Sys2Proof.Machine.execMsixEntryUnmask fn ent s
  | .faultCauseClear value => Sys2Proof.Machine.execFaultCauseClear value s
  | .queueErrorClear reg value => Sys2Proof.Machine.execQueueErrorClear reg value s
  | .queueStatusClear fn index value => Sys2Proof.Machine.execQueueStatusClear fn index value s
  | .registerLowHalfRead fn off => Sys2Proof.Machine.execRegisterLowHalfRead fn off s
  | .registerWriteOther fn off width value => Sys2Proof.Machine.execRegisterWriteOther fn off width value s
  | .mbxWindowWrite fn box off bytes => Sys2Proof.Machine.execMbxWindowWrite fn box off bytes s
  | .mbxDoorbellRing fn box value => Sys2Proof.Machine.execMbxDoorbellRing fn box value s
  | .mbxStatusClear fn box value => Sys2Proof.Machine.execMbxStatusClear fn box value s
  | .mbxReleaseRead fn box => Sys2Proof.Machine.execMbxReleaseRead fn box s
  | .mbxRequestTake => Sys2Proof.Machine.execMbxRequestTake s
  | .mbxResponsePost box => Sys2Proof.Machine.execMbxResponsePost box s
  | .mbxEventDeliver box => Sys2Proof.Machine.execMbxEventDeliver box s
  | .queueCreate box => Sys2Proof.Machine.execQueueCreate box s
  | .queueDelete box => Sys2Proof.Machine.execQueueDelete box s
  | .queueReset box => Sys2Proof.Machine.execQueueReset box s
  | .vectorBind box => Sys2Proof.Machine.execVectorBind box s
  | .vectorUnbind box => Sys2Proof.Machine.execVectorUnbind box s
  | .windowMap box => Sys2Proof.Machine.execWindowMap box s
  | .windowUnmap box => Sys2Proof.Machine.execWindowUnmap box s
  | .timePost box => Sys2Proof.Machine.execTimePost box s
  | .powerSet box => Sys2Proof.Machine.execPowerSet box s
  | .genApply box image => Sys2Proof.Machine.execGenApply box image s
  | .rollback box => Sys2Proof.Machine.execRollback box s
  | .genRead box => Sys2Proof.Machine.execGenRead box s
  | .sheafStats box => Sys2Proof.Machine.execSheafStats box s
  | .convertStats box => Sys2Proof.Machine.execConvertStats box s
  | .collectionCreate box => Sys2Proof.Machine.execCollectionCreate box s
  | .collectionChange box => Sys2Proof.Machine.execCollectionChange box s
  | .collectionDelete box => Sys2Proof.Machine.execCollectionDelete box s
  | .collectionStats box => Sys2Proof.Machine.execCollectionStats box s
  | .rebuildSweep box => Sys2Proof.Machine.execRebuildSweep box s
  | .rebuildSplit box => Sys2Proof.Machine.execRebuildSplit box s
  | .rebuildMerge box => Sys2Proof.Machine.execRebuildMerge box s
  | .rebuildRetrain box => Sys2Proof.Machine.execRebuildRetrain box s
  | .rebuildRehash box => Sys2Proof.Machine.execRebuildRehash box s
  | .tableWrite box data => Sys2Proof.Machine.execTableWrite box data s
  | .zalpolHusk box desc payload => Sys2Proof.Machine.execZalpolHusk box desc payload s
  | .objectQuery box => Sys2Proof.Machine.execObjectQuery box s
  | .objectTransfer box => Sys2Proof.Machine.execObjectTransfer box s
  | .binderAlloc box => Sys2Proof.Machine.execBinderAlloc box s
  | .binderFree box => Sys2Proof.Machine.execBinderFree box s
  | .binderRead box => Sys2Proof.Machine.execBinderRead box s
  | .format box => Sys2Proof.Machine.execFormat box s
  | .formatComplete => Sys2Proof.Machine.execFormatComplete s
  | .mediaTableLoad box image => Sys2Proof.Machine.execMediaTableLoad box image s
  | .channelStatus box => Sys2Proof.Machine.execChannelStatus box s
  | .channelDrain box => Sys2Proof.Machine.execChannelDrain box s
  | .channelDrainComplete ch => Sys2Proof.Machine.execChannelDrainComplete ch s
  | .channelAdmit box => Sys2Proof.Machine.execChannelAdmit box s
  | .channelAdmitComplete ch rate luns => Sys2Proof.Machine.execChannelAdmitComplete ch rate luns s
  | .endurance box => Sys2Proof.Machine.execEndurance box s
  | .keyLoad => Sys2Proof.Machine.execKeyLoad s
  | .keyDestroy => Sys2Proof.Machine.execKeyDestroy s
  | .fwLoad box image => Sys2Proof.Machine.execFwLoad box image s
  | .fwActivate box => Sys2Proof.Machine.execFwActivate box s
  | .fwActivateTimeout => Sys2Proof.Machine.execFwActivateTimeout s
  | .threshRun box => Sys2Proof.Machine.execThreshRun box s
  | .threshStatus box => Sys2Proof.Machine.execThreshStatus box s
  | .threshIterationEnd run pattern iteration expected observed => Sys2Proof.Machine.execThreshIterationEnd run pattern iteration expected observed s
  | .threshDurationEnd run => Sys2Proof.Machine.execThreshDurationEnd run s
  | .signatureRead box => Sys2Proof.Machine.execSignatureRead box s
  | .logRead box => Sys2Proof.Machine.execLogRead box s
  | .recordExport box => Sys2Proof.Machine.execRecordExport box s
  | .replayStart box image => Sys2Proof.Machine.execReplayStart box image s
  | .meterRead box => Sys2Proof.Machine.execMeterRead box s
  | .recoverRestart box => Sys2Proof.Machine.execRecoverRestart box s
  | .recoverLeaveFault box => Sys2Proof.Machine.execRecoverLeaveFault box s
  | .recoveryStatus box => Sys2Proof.Machine.execRecoveryStatus box s
  | .functionLevelReset fn => Sys2Proof.Machine.execFunctionLevelReset fn s
  | .perstNAssert => Sys2Proof.Machine.execPerstNAssert s
  | .hotReset => Sys2Proof.Machine.execHotReset s
  | .linkDown => Sys2Proof.Machine.execLinkDown s
  | .linkTraining rate width flit => Sys2Proof.Machine.execLinkTraining rate width flit s
  | .functionDStateChange fn d3 => Sys2Proof.Machine.execFunctionDStateChange fn d3 s
  | .hostAccessError src => Sys2Proof.Machine.execHostAccessError src s
  | .hostDataPoisoned src => Sys2Proof.Machine.execHostDataPoisoned src s
  | .windowRead cxl addr len => Sys2Proof.Machine.execWindowRead cxl addr len s
  | .windowWrite cxl addr => Sys2Proof.Machine.execWindowWrite cxl addr s
  | .cxlIdentifyMemoryDevice => Sys2Proof.Machine.execCxlIdentifyMemoryDevice s
  | .cxlGetEventRecords => Sys2Proof.Machine.execCxlGetEventRecords s
  | .cxlClearEventRecords => Sys2Proof.Machine.execCxlClearEventRecords s
  | .cxlGetHealthInfo => Sys2Proof.Machine.execCxlGetHealthInfo s
  | .cxlGetPoisonList => Sys2Proof.Machine.execCxlGetPoisonList s
  | .cxlUnsupportedCommand opcode => Sys2Proof.Machine.execCxlUnsupportedCommand opcode s
  | .getVersion => Sys2Proof.Machine.execGetVersion s
  | .getCapabilities => Sys2Proof.Machine.execGetCapabilities s
  | .negotiateAlgorithms offered => Sys2Proof.Machine.execNegotiateAlgorithms offered s
  | .getDigests => Sys2Proof.Machine.execGetDigests s
  | .getCertificate slot off len => Sys2Proof.Machine.execGetCertificate slot off len s
  | .challenge slot => Sys2Proof.Machine.execChallenge slot s
  | .getMeasurements index => Sys2Proof.Machine.execGetMeasurements index s
  | .keyExchange slot => Sys2Proof.Machine.execKeyExchange slot s
  | .finish good => Sys2Proof.Machine.execFinish good s
  | .heartbeat sess => Sys2Proof.Machine.execHeartbeat sess s
  | .keyUpdate sess => Sys2Proof.Machine.execKeyUpdate sess s
  | .endSession sess => Sys2Proof.Machine.execEndSession sess s
  | .vendorDefinedRequest sess msg => Sys2Proof.Machine.execVendorDefinedRequest sess msg s
  | .headStageItemArrival n => Sys2Proof.Machine.execHeadStageItemArrival n s
  | .batchWindowExpiry sheaf => Sys2Proof.Machine.execBatchWindowExpiry sheaf s
  | .stageBatchStart sheaf stage lane => Sys2Proof.Machine.execStageBatchStart sheaf stage lane s
  | .stageBatchFinish sheaf stage lane => Sys2Proof.Machine.execStageBatchFinish sheaf stage lane s
  | .creditReturnArrival sheaf stage succ => Sys2Proof.Machine.execCreditReturnArrival sheaf stage succ s
  | .stageGenerationSwitch tile => Sys2Proof.Machine.execStageGenerationSwitch tile s
  | .awnReadIssue sheaf stage lane elementwise => Sys2Proof.Machine.execAwnReadIssue sheaf stage lane elementwise s
  | .awnDataLand id poisoned => Sys2Proof.Machine.execAwnDataLand id poisoned s
  | .awnDirectoryRead id => Sys2Proof.Machine.execAwnDirectoryRead id s
  | .stookListArrival leaf lane => Sys2Proof.Machine.execStookListArrival leaf lane s
  | .stookMergeStart engine => Sys2Proof.Machine.execStookMergeStart engine s
  | .stookMergeComplete engine => Sys2Proof.Machine.execStookMergeComplete engine s
  | .stookRootDelivery sheaf stage => Sys2Proof.Machine.execStookRootDelivery sheaf stage s
  | .tillerSwapStart tile => Sys2Proof.Machine.execTillerSwapStart tile s
  | .tillerSwapComplete tile => Sys2Proof.Machine.execTillerSwapComplete tile s
  | .expertStagingGrant table => Sys2Proof.Machine.execExpertStagingGrant table s
  | .expertStagingComplete table handle => Sys2Proof.Machine.execExpertStagingComplete table handle s
  | .expertReach sheaf stage lane => Sys2Proof.Machine.execExpertReach sheaf stage lane s
  | .expertDeadlineExpiry sheaf stage lane => Sys2Proof.Machine.execExpertDeadlineExpiry sheaf stage lane s
  | .pseudoChannelGrant culm kinds bytes => Sys2Proof.Machine.execPseudoChannelGrant culm kinds bytes s
  | .culmScanOp culm => Sys2Proof.Machine.execCulmScanOp culm s
  | .culmAddOp culm => Sys2Proof.Machine.execCulmAddOp culm s
  | .culmMulOp culm => Sys2Proof.Machine.execCulmMulOp culm s
  | .culmActOp culm => Sys2Proof.Machine.execCulmActOp culm s
  | .culmConvertOp culm => Sys2Proof.Machine.execCulmConvertOp culm s
  | .culmAttendOp culm => Sys2Proof.Machine.execCulmAttendOp culm s
  | .culmResultReturn culm => Sys2Proof.Machine.execCulmResultReturn culm s
  | .culmSubstitution culm => Sys2Proof.Machine.execCulmSubstitution culm s
  | .huskAdmission h => Sys2Proof.Machine.execHuskAdmission h s
  | .huskLockRequest h => Sys2Proof.Machine.execHuskLockRequest h s
  | .huskLockGrant h => Sys2Proof.Machine.execHuskLockGrant h s
  | .elementwiseComputeDone h => Sys2Proof.Machine.execElementwiseComputeDone h s
  | .journalExtentsDurable h => Sys2Proof.Machine.execJournalExtentsDurable h s
  | .commitGroupClose => Sys2Proof.Machine.execCommitGroupClose s
  | .journalRecordDurable => Sys2Proof.Machine.execJournalRecordDurable s
  | .journalWriteFail => Sys2Proof.Machine.execJournalWriteFail s
  | .journalUnavailable => Sys2Proof.Machine.execJournalUnavailable s
  | .drainEntryFreed epoch => Sys2Proof.Machine.execDrainEntryFreed epoch s
  | .epochRingWaitEnd => Sys2Proof.Machine.execEpochRingWaitEnd s
  | .versionPoolWaitEnd => Sys2Proof.Machine.execVersionPoolWaitEnd s
  | .versionReclaim => Sys2Proof.Machine.execVersionReclaim s
  | .settling list pos => Sys2Proof.Machine.execSettling list pos s
  | .rebuildShadowComplete id => Sys2Proof.Machine.execRebuildShadowComplete id s
  | .barrier node msg => Sys2Proof.Machine.execBarrier node msg s
  | .barrierMap node msg => Sys2Proof.Machine.execBarrierMap node msg s
  | .promotionCopyComplete idx => Sys2Proof.Machine.execPromotionCopyComplete idx s
  | .writeBackStart idx => Sys2Proof.Machine.execWriteBackStart idx s
  | .writeBackDurable idx => Sys2Proof.Machine.execWriteBackDurable idx s
  | .cleaningPass idx => Sys2Proof.Machine.execCleaningPass idx s
  | .rehomeSwitch idx => Sys2Proof.Machine.execRehomeSwitch idx s
  | .oldLocationRelease idx => Sys2Proof.Machine.execOldLocationRelease idx s
  | .freeRelease idx => Sys2Proof.Machine.execFreeRelease idx s
  | .lunTemperatureRead ch lun temp => Sys2Proof.Machine.execLunTemperatureRead ch lun temp s
  | .flashReadComplete unit decode corrected => Sys2Proof.Machine.execFlashReadComplete unit decode corrected s
  | .blockCalibration blk counts => Sys2Proof.Machine.execBlockCalibration blk counts s
  | .gleanerPatrol blk reads => Sys2Proof.Machine.execGleanerPatrol blk reads s
  | .gleanerAgingPromotion blk => Sys2Proof.Machine.execGleanerAgingPromotion blk s
  | .prioritySweep blk reads => Sys2Proof.Machine.execPrioritySweep blk reads s
  | .fold srcs blk => Sys2Proof.Machine.execFold srcs blk s
  | .garbageCollection slc blk => Sys2Proof.Machine.execGarbageCollection slc blk s
  | .relocation blk dst bad => Sys2Proof.Machine.execRelocation blk dst bad s
  | .wearLevelling slc => Sys2Proof.Machine.execWearLevelling slc s
  | .unitMoveProgrammed unit mv => Sys2Proof.Machine.execUnitMoveProgrammed unit mv s
  | .blockErase blk => Sys2Proof.Machine.execBlockErase blk s
  | .mappingPageWrite bytes => Sys2Proof.Machine.execMappingPageWrite bytes s
  | .programFailure blk dst => Sys2Proof.Machine.execProgramFailure blk dst s
  | .eraseFailure blk => Sys2Proof.Machine.execEraseFailure blk s
  | .lunBusyTimeout ch lun => Sys2Proof.Machine.execLunBusyTimeout ch lun s
  | .channelLoss ch => Sys2Proof.Machine.execChannelLoss ch s
  | .packSlotGrant => Sys2Proof.Machine.execPackSlotGrant s
  | .packBlockEncode req => Sys2Proof.Machine.execPackBlockEncode req s
  | .packBlockDecode req => Sys2Proof.Machine.execPackBlockDecode req s
  | .checkpointStreamSwitch idx => Sys2Proof.Machine.execCheckpointStreamSwitch idx s
  | .frameReceive port form frame => Sys2Proof.Machine.execFrameReceive port form frame s
  | .ackSendTimer node vc => Sys2Proof.Machine.execAckSendTimer node vc s
  | .retransmissionTimeout node vc => Sys2Proof.Machine.execRetransmissionTimeout node vc s
  | .hello node msg => Sys2Proof.Machine.execHello node msg s
  | .join node msg => Sys2Proof.Machine.execJoin node msg s
  | .leave node msg => Sys2Proof.Machine.execLeave node msg s
  | .telemetry node msg => Sys2Proof.Machine.execTelemetry node msg s
  | .status node msg => Sys2Proof.Machine.execStatus node msg s
  | .subSearch node msg => Sys2Proof.Machine.execSubSearch node msg s
  | .subAnswer node msg => Sys2Proof.Machine.execSubAnswer node msg s
  | .t4Read node msg => Sys2Proof.Machine.execT4Read node msg s
  | .t4Data node msg => Sys2Proof.Machine.execT4Data node msg s
  | .t4Write node msg => Sys2Proof.Machine.execT4Write node msg s
  | .unknownMessageType node msg => Sys2Proof.Machine.execUnknownMessageType node msg s
  | .t4RequestTimeout msg => Sys2Proof.Machine.execT4RequestTimeout msg s
  | .fanoutTimeout n => Sys2Proof.Machine.execFanoutTimeout n s
  | .peerTimeout node vc => Sys2Proof.Machine.execPeerTimeout node vc s
  | .quarantineEnd node => Sys2Proof.Machine.execQuarantineEnd node s
  | .portLinkChange port up => Sys2Proof.Machine.execPortLinkChange port up s
  | .meterInterval => Sys2Proof.Machine.execMeterInterval s
  | .bucketRefill => Sys2Proof.Machine.execBucketRefill s
  | .agingPromotion cls id => Sys2Proof.Machine.execAgingPromotion cls id s
  | .t1PatrolRead culm idx blkno errs => Sys2Proof.Machine.execT1PatrolRead culm idx blkno errs s
  | .sramUncorrectable kind unit loc => Sys2Proof.Machine.execSramUncorrectable kind unit loc s
  | .detectionProcess => Sys2Proof.Machine.execDetectionProcess s
  | .logRecordWrite => Sys2Proof.Machine.execLogRecordWrite s
  | .logArchiveCopy => Sys2Proof.Machine.execLogArchiveCopy s
  | .logRingFailure r38 r62 => Sys2Proof.Machine.execLogRingFailure r38 r62 s
  | .crossingLaneSwitch crossing => Sys2Proof.Machine.execCrossingLaneSwitch crossing s
  | .crossingResync island other => Sys2Proof.Machine.execCrossingResync island other s
  | .dieLinkCrcRetry link => Sys2Proof.Machine.execDieLinkCrcRetry link s
  | .dieLinkRetriesExhausted link n => Sys2Proof.Machine.execDieLinkRetriesExhausted link n s
  | .dieLinkDown link => Sys2Proof.Machine.execDieLinkDown link s
  | .recordingStart => Sys2Proof.Machine.execRecordingStart s
  | .chunkSpill => Sys2Proof.Machine.execChunkSpill s
  | .recordingEnd reason => Sys2Proof.Machine.execRecordingEnd reason s
  | .snapshotRelease => Sys2Proof.Machine.execSnapshotRelease s
  | .replayWindowClose seq => Sys2Proof.Machine.execReplayWindowClose seq s
  | .replayStall => Sys2Proof.Machine.execReplayStall s
  | .replayEnd => Sys2Proof.Machine.execReplayEnd s
  | .powerGood => Sys2Proof.Machine.execPowerGood s
  | .recoveryPhaseComplete found => Sys2Proof.Machine.execRecoveryPhaseComplete found s
  | .knownAnswerCheck bad => Sys2Proof.Machine.execKnownAnswerCheck bad s
  | .standbyEntry => Sys2Proof.Machine.execStandbyEntry s
  | .pwrFailNAssert => Sys2Proof.Machine.execPwrFailNAssert s
  | .pwrFailNGlitch => Sys2Proof.Machine.execPwrFailNGlitch s
  | .flushComplete => Sys2Proof.Machine.execFlushComplete s
  | .holdupOkChange up => Sys2Proof.Machine.execHoldupOkChange up s
  | .railOutOfLimits rail => Sys2Proof.Machine.execRailOutOfLimits rail s
  | .warmReset => Sys2Proof.Machine.execWarmReset s
  | .stewardWatchdog => Sys2Proof.Machine.execStewardWatchdog s
  | .islandReset island => Sys2Proof.Machine.execIslandReset island s
  | .powerStateReversiblePoint => Sys2Proof.Machine.execPowerStateReversiblePoint s
  | .powerStateWake src => Sys2Proof.Machine.execPowerStateWake src s
  | .powerStateExitComplete => Sys2Proof.Machine.execPowerStateExitComplete s
  | .powerMeanSample mw => Sys2Proof.Machine.execPowerMeanSample mw s
  | .powerClockStep => Sys2Proof.Machine.execPowerClockStep s
  | .thermalSample temps rails => Sys2Proof.Machine.execThermalSample temps rails s
  | .thermalTrip => Sys2Proof.Machine.execThermalTrip s
  | .refclkLoss clk => Sys2Proof.Machine.execRefclkLoss clk s
  | .refclkReturn clk => Sys2Proof.Machine.execRefclkReturn clk s
  | .smbusMirrorUpdate => Sys2Proof.Machine.execSmbusMirrorUpdate s
  | .smbusIdent pec => Sys2Proof.Machine.execSmbusIdent pec s
  | .smbusNodeStatus pec => Sys2Proof.Machine.execSmbusNodeStatus pec s
  | .smbusBootUptime pec => Sys2Proof.Machine.execSmbusBootUptime pec s
  | .smbusFaultCause pec => Sys2Proof.Machine.execSmbusFaultCause pec s
  | .smbusLastGasp pec => Sys2Proof.Machine.execSmbusLastGasp pec s
  | .smbusLogFailCount pec => Sys2Proof.Machine.execSmbusLogFailCount pec s
  | .smbusTemps pec => Sys2Proof.Machine.execSmbusTemps pec s
  | .smbusRails pec => Sys2Proof.Machine.execSmbusRails pec s
  | .smbusThermal pec => Sys2Proof.Machine.execSmbusThermal pec s
  | .smbusWarmReset word pec => Sys2Proof.Machine.execSmbusWarmReset word pec s
  | .smbusUndefinedCode code pec => Sys2Proof.Machine.execSmbusUndefinedCode code pec s
  | .jtagWarmReset => Sys2Proof.Machine.execJtagWarmReset s
  | .jtagIdcode => Sys2Proof.Machine.execJtagIdcode s
  | .jtagBypass instr => Sys2Proof.Machine.execJtagBypass instr s
  | .jtagSamplePreload => Sys2Proof.Machine.execJtagSamplePreload s
  | .jtagExtest => Sys2Proof.Machine.execJtagExtest s
  | .jtagIntest => Sys2Proof.Machine.execJtagIntest s
  | .jtagClamp => Sys2Proof.Machine.execJtagClamp s
  | .jtagHighz => Sys2Proof.Machine.execJtagHighz s
  | .pwrFailNRelease => Sys2Proof.Machine.execPwrFailNRelease s
  | .holdUpEnds => Sys2Proof.Machine.execHoldUpEnds s
  | .stewardRestartComplete => Sys2Proof.Machine.execStewardRestartComplete s
  | .msixEntryMask fn ent => Sys2Proof.Machine.execMsixEntryMask fn ent s
  | .sriovVfEnable vfs => Sys2Proof.Machine.execSriovVfEnable vfs s
  | .bar2Resize gib => Sys2Proof.Machine.execBar2Resize gib s
  | .queueEngineInternalTimeout => Sys2Proof.Machine.execQueueEngineInternalTimeout s
  | .lockstepDisagreement => Sys2Proof.Machine.execLockstepDisagreement s
  | .mbxDomainDownTimeout box => Sys2Proof.Machine.execMbxDomainDownTimeout box s

end Sys2Proof.Machine
end

