-- ==== Sys2Proof/Safety.lean ====
section
/-! DEFINITION. The terms claims are made in: the parts of the state and what a command leaves alone, the bytes of objects,
the canonical form of every memory, the bounds of the queues the spec bounds. -/

namespace Sys2Proof.Safety
open Sys2Proof Sys2Proof.Machine

/-- The parts of the state, by the units of the node they belong to; commands is the queue of waiting commands. -/
inductive StatePart where
  | aon | stew | hif | eng | idx | obj | shv | stk | fls | fab | rel | recd | commands
  deriving DecidableEq, Repr

/-- Two states agree on a part. -/
def sameOn (s t : State) : StatePart → Prop
  | .aon => t.aon = s.aon
  | .stew => t.stew = s.stew
  | .hif => t.hif = s.hif
  | .eng => t.eng = s.eng
  | .idx => t.idx = s.idx
  | .obj => t.obj = s.obj
  | .shv => t.shv = s.shv
  | .stk => t.stk = s.stk
  | .fls => t.fls = s.fls
  | .fab => t.fab = s.fab
  | .rel => t.rel = s.rel
  | .recd => t.recd = s.recd
  | .commands => t.pending = s.pending

/-- Everything outside the listed parts is unchanged. -/
def Frame (ps : List StatePart) (s t : State) : Prop := ∀ p, p ∉ ps → sameOn s t p

/-- The byte readers find at an offset of the object of an index (R230); 0 where no live object has the index. -/
def objByte (s : State) (i a : Nat) : Byte :=
  match tabGet s.obj.recs i with
  | some o => memGet o.mem a
  | none => 0

/-- Every sparse memory of an object table is in canonical form (no address twice, none listed that reads 0). -/
def RecsCanonical (o : Obj) : Prop := ∀ p ∈ o.recs, memWf p.2.mem = true ∧ memWf p.2.homeMem = true

/-- The sparse memories of the object table are in canonical form, as are those of the tables that a snapshot and a replay keep. -/
def MemoriesCanonical (s : State) : Prop :=
  RecsCanonical s.obj ∧ ∀ k, (s.recd.snapAt = some k ∨ s.recd.live = some k) → RecsCanonical k.obj

/-- No byte of any object changes. -/
def SameBytes (s t : State) : Prop := ∀ i a, objByte t i a = objByte s i a

/-- A command, run at a state, answers a next state of which the claim holds. -/
def Completes (c : Instr) (s : State) (claim : State → Prop) : Prop := ∃ t, exec c s = .next t ∧ claim t

/-- Of the host interface's unit, only the queue pair of a number may differ. -/
def OnlyQp (q : Nat) (s t : State) : Prop :=
  (∀ j, j ≠ q → tabGet t.hif.qps j = tabGet s.hif.qps j) ∧ t.hif = { s.hif with qps := t.hif.qps }

/-- Of the Steward's unit, only the mailbox of a tenant may differ. -/
def OnlyMbx (box : Nat) (s t : State) : Prop :=
  (∀ j, j ≠ box → tabGet t.stew.mbx j = tabGet s.stew.mbx j) ∧ t.stew = { s.stew with mbx := t.stew.mbx }

/-- The node runs, and the Steward may carry out the Zalpol command of a code that a mailbox's message holds (R327, R329). -/
def Serves (s : State) (box code : Nat) (m : Bytes) : Prop := halted s = false ∧ zReady s box code = some m

/-- The Zalpol command a mailbox has in progress is answered with a status, a detail and a body: its response repeats the
request's command, sequence, target and recovery sequence (R327, R331). -/
def Answers (box status detail : Nat) (body : Bytes) (s t : State) : Prop :=
  ∀ r, (mbxOf s box).req = some r → (mbxOf s box).drop = false →
    ∃ r', (mbxOf t box).req = some r' ∧ r'.msg = r.msg ∧
      r'.resp = some (mailMsg (fld r.msg 0 2) 1 (fld r.msg 4 2) (fld r.msg 6 2) status detail (fld r.msg 0x10 8) body)

/-- Every queue pair is DISABLED with nothing fetched, every mailbox in use is empty (R320, R330). -/
def QueuesStopped (s t : State) : Prop :=
  (∀ q p, tabGet s.hif.qps q = some p → (qpOf t q).qstate = .disabled ∧ (qpOf t q).fetched = []) ∧
  ∀ b m, tabGet s.stew.mbx b = some m → (mbxOf t b).inFull = false ∧ (mbxOf t b).outFull = false ∧ (mbxOf t b).events = []

/-- A command's next state with the digests of its writes beside it (R409). -/
def withDigests (s t : State) : State := { t with dig := digestsAfter s t }

/-- The command of a number completes with an outcome; beside that only what the recorder holds changes. -/
def Finishes (n : Nat) (r : Result) (s t : State) : Prop :=
  ∃ s', Frame [.recd] s s' ∧ t = withDigests s (finishCmd n r s')

/-- A command forms a husk, which waits for a slot under the next number of the engine, with the tenant and actions given. -/
def FormsHusk (tenant : Nat) (cmd mbx : Option Nat) (actions : List Action) (s t : State) : Prop :=
  (∃ x, tabGet t.eng.husks s.eng.nextHusk = some x ∧ x.hstate = .waitingSlot ∧ x.tenant = tenant ∧ x.cmd = cmd ∧ x.mbx = mbx ∧
    x.actions = actions) ∧ t.eng.nextHusk = s.eng.nextHusk + 1 ∧ t.eng.epoch = s.eng.epoch ∧
  ∀ j, j ≠ s.eng.nextHusk → tabGet t.eng.husks j = tabGet s.eng.husks j

/-- A command queues a rebuild under the next number, which may start at once (R224, R336). -/
def QueuesRebuild (b : Rebuild) (s t : State) : Prop :=
  t.idx.nextRebuild = s.idx.nextRebuild + 1 ∧
  ∃ run since, tabGet t.idx.rebuilds s.idx.nextRebuild = some { b with running := run, since := since }

/-- A group's journal record is durable, and a drain entry, every ring slot and the version pool have room for it (R96, R215,
R219, R220). -/
def MayCommit (r : JRec) (later : List JRec) (s : State) : Prop :=
  s.eng.closing = r :: later ∧ r.durable = true ∧ (∀ q ∈ later, q.durable = false) ∧ (s.eng.drain.length < 128 ∨ ∃ p ∈ s.eng.drain, p.2 = 0) ∧
  ringNeeds s (applyHusks r.epoch r.husks s).2 r.epoch (floorAfter s) = [] ∧
  poolFull s (applyHusks r.epoch r.husks s).2 = false

/-- A group has committed: its epoch is the current one, its record joins the journal, of which only records that no object needs any
more leave (R215, R244). -/
def Committed (r : JRec) (later : List JRec) (s t : State) : Prop :=
  t.eng.epoch = r.epoch ∧ t.eng.closing = later ∧ t.eng.waitFor = none ∧
  (∀ q ∈ t.eng.journal, q ∈ r :: s.eng.journal) ∧ ∀ q ∈ r :: s.eng.journal, recordNeeded t q = true → q ∈ t.eng.journal

/-- No lock request of a husk other than the one of a number waits (R210). -/
abbrev NoOtherHuskWaits (h : Nat) (s : State) : Prop := ∀ l ∈ s.eng.locks, l.husk = true → l.id ≠ h → l.held = true

/-- A Block Read is answered with the mirror's uptime and content where its PEC is valid, else discarded (R464). -/
def ReadsMirror (c : Bool → Instr) (content : Bytes) (s : State) : Prop :=
  Completes (c true) s (fun t => t.aon = { s.aon with smbReply := some (toLe 8 s.aon.mirror.at_ ++ content) } ∧ Frame [.aon] s t) ∧
  Completes (c false) s (fun t => t = s)

/-- A JTAG command selects an instruction and what its data register holds (R466). -/
def SelectsJtag (c : Instr) (ir : JtagIr) (dr : Nat) (s : State) : Prop :=
  Completes c s (fun t => t.aon = { s.aon with jtagIr := ir, jtagDr := dr } ∧ Frame [.aon] s t)

/-- A command of the CXL mailbox is answered with a return code and a payload (R298). -/
def AnswersCxl (c : Instr) (code : Nat) (payload : Bytes) (s : State) : Prop :=
  Completes c s (fun t => t.stew = { s.stew with cxlOut := s.stew.cxlOut ++ [(code, payload)] } ∧ Frame [.stew] s t)

/-- A batch stands in the input slots of the lanes that a stage takes it in, as it came from a predecessor (R45, R48). -/
def StandsAt (s : State) (d : Bytes) (sh q src : Nat) (b : Batch) (t : State) : Prop :=
  ∀ k ∈ lanesOf s (shStage d q) b.seq, (src, b) ∈ (stageOf t (stKey sh q k)).inputs

/-- The tokens of a batch that selected an expert version run its fallback instead (R156). -/
def TakesFallback (key : Nat) (b : Batch) (k : ExKey) (s t : State) : Prop :=
  (stageOf t key).holdOn = none ∧ (∀ x ∈ (stageOf t key).ranEx, x ∈ (stageOf s key).ranEx) ∧
  ((keyUsers s b k).Nodup → ∀ u ∈ keyUsers s b k, ∀ c, cmdOf s u.1 = some c → ∃ c', cmdOf t u.1 = some c' ∧
    c'.sels.getD u.2 {} = { c.sels.getD u.2 {} with
      runs := (c.sels.getD u.2 {}).runs.map fun r => if r = k.1 then xdFallback (keyDesc s k) else r, fell := true }) ∧
  Frame [.hif, .shv, .recd] s t

/-- The operation at a culm's head ends: its queue entry is freed and its result goes back under its tag, CULM_RETIRED of an unserved
pseudo-channel; other culms are as before (R174, R175, R191). -/
def OpEnds (k : Nat) (o : COp) (status : Nat) (data : Bytes) (s t : State) : Prop :=
  (culmOf t k).queue = (culmOf s k).queue.drop 1 ∧ (culmOf t k).credit = (culmOf s k).credit + 1 ∧
  (culmOf t k).results = (culmOf s k).results ++ [(o.tag, if (culmOf s k).unserved then 0x0902 else status, data)] ∧
  ∀ j, j ≠ k → tabGet t.stk.culms j = tabGet s.stk.culms j

/-- Of the bytes of objects only stretches of two may differ: of the first, and of the second where its stretch is not empty. -/
def WritesTwo (i off n i2 off2 n2 : Nat) (s t : State) : Prop :=
  ∀ j a, (j = i → a < off ∨ off + n ≤ a) → (j = i2 → a < off2 ∨ off2 + n2 ≤ a) → objByte t j a = objByte s j a

/-- An element-wise operation at a culm's head (R180): formats it does not take, fields out of range, or dst and its generated scales
written and nothing beside them. -/
def RunsElementwise (c : Instr) (op k : Nat) (s : State) : Prop :=
  ∀ o, culmHead s k op = some o →
    (ewFormatsOk op o = false → Completes c s (fun t => OpEnds k o 0x010A [] s t ∧ Frame [.stk] s t)) ∧
    (ewFormatsOk op o = true → ewOk op o.body = false → Completes c s (fun t => OpEnds k o 0x0102 [] s t ∧ Frame [.stk] s t)) ∧
    (ewFormatsOk op o = true → ewOk op o.body = true → Completes c s (fun t =>
      let d := ewArg o 2
      let r := ewResult s op o
      OpEnds k o 0 [] s t ∧ WritesTwo (hIndex d.obj) d.off r.1.length (hIndex d.bran) d.soff r.2.1.length s t ∧
      (MemoriesCanonical s → hIndex d.bran ≠ hIndex d.obj → (tabGet s.obj.recs (hIndex d.obj)).isSome = true →
        ∀ j < r.1.length, objByte t (hIndex d.obj) (d.off + j) = r.1.getD j 0) ∧
      (MemoriesCanonical s → (tabGet s.obj.recs (hIndex d.bran)).isSome = true →
        ∀ j < r.2.1.length, objByte t (hIndex d.bran) (d.soff + j) = r.2.1.getD j 0) ∧
      Frame [.hif, .obj, .shv, .stk] s t))

/-- An SPDM message leaves the node; of the Steward's unit beside that only the connection changes (R449). -/
def SendsSpdm (b : Bytes) (s t : State) : Prop :=
  t.stew.doeOut = s.stew.doeOut ++ [b] ∧ Frame [.stew] s t ∧
  t.stew = { s.stew with
    doeOut := t.stew.doeOut, spdm := t.stew.spdm, spdmSess := t.stew.spdmSess, sessCtr := t.stew.sessCtr, kreq := t.stew.kreq }

/-- A peer's entry is open and a message of a tenant in an epoch's forwarding may be sent to it (R345, R356, R369). -/
def CanAnswer (s : State) (node tenant epoch : Nat) : Prop :=
  (peerOf s node).open_ = true ∧ sendStatus s node tenant (if epoch = 0 then s.eng.epoch else epoch) = 0

/-- A received message is answered with STATUS where its sender may be answered: on control for a control message, on response
for another (R347). -/
def AnswersStatus (node : Nat) (m : Msg) (status : Nat) (s t : State) : Prop :=
  CanAnswer s node m.tenant (if m.vc = 0 then 0 else m.epoch) →
  t.fab.sent = s.fab.sent ++ [{
    dst := node, vc := if m.vc = 0 then 0 else 2, type := 0x0F, id := m.id, tenant := m.tenant,
    epoch := if m.vc = 0 then 0 else m.epoch, body := statusBody status 0 0 }]

/-- A received message has been acted on: it waits no more, the others wait as before (R346). -/
def Acted (node : Nat) (m : Msg) (s t : State) : Prop := t.fab.rxMsgs = s.fab.rxMsgs.erase (node, m)

/-- The detection queue of island 62 holds at most 1,024 detections and the signature store 65,536 records (R388), and
every mailbox at most 64 waiting events (R337). -/
def QueuesBounded (s : State) : Prop :=
  s.rel.detq.length ≤ 1024 ∧ s.rel.sigs.length ≤ 65536 ∧ ∀ p ∈ s.stew.mbx, p.2.events.length ≤ 64

/-- The parts of the state that a command may change: a table of its own beside the meanings, one row per set of units. -/
def mayChange : Instr → List StatePart
  | .crossingResync _ _ | .powerMeanSample _ | .powerClockStep | .refclkReturn _ | .smbusMirrorUpdate
  | .smbusIdent _ | .smbusNodeStatus _ | .smbusBootUptime _ | .smbusFaultCause _ | .smbusLastGasp _
  | .smbusLogFailCount _ | .smbusTemps _ | .smbusRails _ | .smbusThermal _ | .smbusUndefinedCode _ _
  | .jtagIdcode | .jtagBypass _ | .jtagSamplePreload | .jtagExtest | .jtagIntest | .jtagClamp | .jtagHighz => [.aon]
  | .powerSet _ | .collectionStats _ | .binderRead _ | .channelStatus _ | .endurance _ | .fwActivate _
  | .fwActivateTimeout | .threshStatus _ | .recoverRestart _ | .recoverLeaveFault _ | .recoveryStatus _
  | .cxlIdentifyMemoryDevice | .cxlGetEventRecords | .cxlClearEventRecords | .cxlGetHealthInfo
  | .cxlGetPoisonList | .cxlUnsupportedCommand _ | .getVersion | .getCapabilities | .negotiateAlgorithms _
  | .getDigests | .getCertificate _ _ _ | .challenge _ | .getMeasurements _ | .keyExchange _ | .finish _
  | .heartbeat _ | .keyUpdate _ | .endSession _ | .vendorDefinedRequest _ _ | .stewardWatchdog => [.stew]
  | .coalesceTimeout _ | .msixEntryUnmask _ _ | .windowRead _ _ _
  | .msixEntryMask _ _ | .sriovVfEnable _ | .bar2Resize _ => [.hif]
  | .huskAdmission _ | .journalWriteFail => [.eng]
  | .oldLocationRelease _ => [.obj]
  | .creditReturnArrival _ _ _ | .stageGenerationSwitch _ | .stookListArrival _ _ | .stookMergeComplete _
  | .tillerSwapStart _ => [.shv]
  | .mappingPageWrite _ | .packBlockEncode _ => [.fls]
  | .ackSendTimer _ _ | .quarantineEnd _ => [.fab]
  | .logArchiveCopy | .crossingLaneSwitch _ | .dieLinkCrcRetry _ | .pwrFailNGlitch => [.rel]
  | .pwrFailNAssert | .railOutOfLimits _ | .thermalTrip => [.aon, .rel]
  | .faultCauseClear _ => [.aon, .recd]
  | .queueCreate _ | .queueDelete _ | .vectorBind _ | .vectorUnbind _ | .genRead _ | .logRead _
  | .recordExport _ => [.stew, .hif]
  | .collectionCreate _ | .collectionChange _ | .collectionDelete _ | .binderAlloc _ => [.stew, .eng]
  | .rebuildSweep _ | .rebuildSplit _ | .rebuildMerge _ | .rebuildRetrain _ => [.stew, .idx]
  | .meterRead _ => [.stew, .obj]
  | .format _ | .channelDrain _ | .channelAdmit _ => [.stew, .fls]
  | .channelAdmitComplete _ _ _ => [.stew, .fls, .fab, .recd]
  | .timePost _ => [.stew, .rel]
  | .fwLoad _ _ | .powerStateWake _ => [.stew, .recd]
  | .commandRangeGrant _ => [.hif, .eng]
  | .functionDStateChange _ _ | .stookRootDelivery _ _ => [.hif, .shv]
  | .culmScanOp _ | .culmAttendOp _ => [.hif, .stk]
  | .windowWrite _ _ | .dieLinkRetriesExhausted _ _ | .registerLowHalfRead _ _ => [.hif, .rel]
  | .sqEntryFetch _ _ | .attention _ _ | .queueErrorClear _ _ | .queueStatusClear _ _ _ => [.hif, .recd]
  | .registerWriteOther _ _ _ _ => [.hif, .rel, .recd]
  | .commitGroupClose => [.eng, .recd]
  | .versionReclaim => [.idx, .obj]
  | .expertStagingComplete _ _ => [.obj, .shv]
  | .tillerSwapComplete _ => [.shv, .rel]
  | .batchWindowExpiry _ | .stookMergeStart _ => [.shv, .recd]
  | .culmSubstitution _ => [.stk, .rel]
  | .pseudoChannelGrant _ _ _ => [.stk, .recd]
  | .blockCalibration _ _ => [.fls, .fab, .recd]
  | .lunTemperatureRead _ _ _ | .packSlotGrant => [.fls, .recd]
  | .bucketRefill => [.fab, .rel, .recd]
  | .awnDirectoryRead _ => [.hif, .shv, .fab, .rel, .recd]
  | .snapshotRelease | .replayWindowClose _ | .replayStall => [.rel, .recd]
  | .mbxResponsePost _ | .mbxEventDeliver _ => [.aon, .stew, .hif]
  | .logRingFailure _ _ | .powerStateExitComplete => [.aon, .stew, .rel]
  | .linkTraining _ _ _ => [.aon, .hif, .recd]
  | .holdUpEnds => [.aon, .obj, .fls]
  | .islandReset _ => [.aon, .fab, .rel]
  | .logRecordWrite | .thermalSample _ _ => [.aon, .rel, .recd]
  | .windowUnmap _ => [.stew, .hif, .obj]
  | .completionDrain _ | .queueReset _ | .sheafStats _ | .convertStats _ => [.stew, .hif, .shv]
  | .signatureRead _ => [.stew, .hif, .rel]
  | .sqTailDoorbell _ _ _ | .cqHeadDoorbell _ _ _ => [.stew, .hif, .recd]
  | .tableWrite _ _ => [.stew, .eng, .recd]
  | .objectQuery _ | .objectTransfer _ => [.stew, .obj, .rel]
  | .channelDrainComplete _ | .keyLoad | .keyDestroy | .stewardRestartComplete => [.stew, .fls, .rel]
  | .blockErase _ => [.stew, .fls, .fab, .rel, .recd]
  | .mediaTableLoad _ _ => [.stew, .fls, .recd]
  | .mbxRequestTake | .agingPromotion _ _ => [.stew, .fab, .recd]
  | .chunkSpill | .recordingEnd _ => [.stew, .rel, .recd]
  | .expertCall _ _ _ | .gate _ _ | .memoryLayer _ _ => [.hif, .idx, .recd]
  | .awnDataLand _ _ => [.hif, .obj, .shv]
  | .expertReach _ _ _ | .expertDeadlineExpiry _ _ _ => [.hif, .shv, .recd]
  | .settling _ _ => [.idx, .fab, .recd]
  | .t1PatrolRead _ _ _ _ => [.obj, .stk, .rel]
  | .packBlockDecode _ => [.obj, .fls, .rel]
  | .expertStagingGrant _ => [.shv, .fab, .recd]
  | .fold _ _ | .garbageCollection _ _ | .wearLevelling _ | .unitMoveProgrammed _ _ => [.fls, .fab, .recd]
  | .hello _ _ | .telemetry _ _ | .t4Read _ _ | .t4Write _ _ | .unknownMessageType _ _ => [.fab, .rel, .recd]
  | .dieLinkDown _ | .queueEngineInternalTimeout | .lockstepDisagreement => [.aon, .stew, .hif, .rel]
  | .warmReset | .smbusWarmReset _ _ | .jtagWarmReset => [.aon, .stew, .rel, .recd]
  | .holdupOkChange _ => [.aon, .obj, .fls, .rel]
  | .binderFree _ => [.stew, .hif, .eng, .shv]
  | .waitGeTimeout _ => [.stew, .hif, .shv, .recd]
  | .mbxWindowWrite _ _ _ _ | .mbxDoorbellRing _ _ _ | .mbxStatusClear _ _ _ | .mbxReleaseRead _ _
    => [.stew, .hif, .rel, .recd]
  | .genApply _ _ | .rollback _ | .zalpolHusk _ _ _ => [.stew, .eng, .obj, .recd]
  | .rebuildRehash _ => [.stew, .idx, .obj, .rel]
  | .channelLoss _ => [.stew, .obj, .fls, .rel]
  | .recordingStart => [.stew, .obj, .rel, .recd]
  | .threshRun _ | .threshIterationEnd _ _ _ _ _ | .threshDurationEnd _ | .standbyEntry => [.stew, .shv, .stk, .rel]
  | .gleanerAgingPromotion _ => [.stew, .fls, .fab, .recd]
  | .eraseFailure _ | .lunBusyTimeout _ _ => [.stew, .fls, .rel, .recd]
  | .join _ _ | .leave _ _ | .detectionProcess => [.stew, .fab, .rel, .recd]
  | .culmAddOp _ | .culmMulOp _ | .culmActOp _ | .culmConvertOp _ => [.hif, .obj, .shv, .stk]
  | .fanoutTimeout _ => [.hif, .shv, .fab, .recd]
  | .barrier _ _ | .barrierMap _ _ => [.eng, .fab, .rel, .recd]
  | .meterInterval => [.obj, .fab, .rel, .recd]
  | .knownAnswerCheck _ => [.aon, .stew, .shv, .stk, .rel]
  | .elementwiseAdd _ | .elementwiseMul _ | .elementwiseAct _ | .elementwiseConvert _ | .hostAccessError _
    => [.stew, .hif, .eng, .obj, .shv]
  | .rebuildShadowComplete _ => [.stew, .eng, .idx, .obj, .fab, .recd]
  | .replayStart _ _ => [.stew, .eng, .idx, .obj, .fls, .fab, .recd]
  | .programFailure _ _ => [.stew, .fls, .fab, .rel, .recd]
  | .stageBatchStart _ _ _ => [.hif, .shv, .fab, .rel, .recd]
  | .cleaningPass _ | .flashReadComplete _ _ _ | .gleanerPatrol _ _ | .prioritySweep _ _
  | .checkpointStreamSwitch _ => [.obj, .fls, .fab, .rel, .recd]
  | .powerStateReversiblePoint => [.aon, .stew, .obj, .shv, .fls, .fab, .recd]
  | .mbxDomainDownTimeout _ => [.stew, .hif, .eng, .idx, .obj, .shv]
  | .free _ | .unpin _ => [.stew, .hif, .eng, .obj, .shv, .rel]
  | .insert _ _ | .upsert _ _ | .delete _ _ | .binderAdd _ | .binderSet _ | .binderWaitGe _ | .binderOpRead _
  | .husk _ _ _ => [.stew, .hif, .eng, .obj, .shv, .recd]
  | .relocation _ _ _ => [.stew, .obj, .fls, .fab, .rel, .recd]
  | .culmResultReturn _ => [.hif, .eng, .obj, .shv, .stk, .rel]
  | .formatComplete => [.aon, .stew, .eng, .idx, .obj, .fls, .recd]
  | .freeRelease _ => [.stew, .hif, .eng, .idx, .obj, .shv, .fls]
  | .gather _ _ | .functionLevelReset _ | .huskLockRequest _ | .huskLockGrant _ | .journalExtentsDurable _
    => [.stew, .hif, .eng, .idx, .obj, .shv, .recd]
  | .commandAdmission _ | .admissionWaitEnd _ => [.stew, .hif, .eng, .obj, .shv, .fab, .recd]
  | .pin _ | .windowMap _ | .hostDataPoisoned _ => [.stew, .hif, .eng, .obj, .shv, .rel, .recd]
  | .journalUnavailable => [.aon, .stew, .hif, .eng, .idx, .obj, .shv, .rel]
  | .elementwiseComputeDone _ => [.stew, .hif, .eng, .idx, .obj, .shv, .fls, .recd]
  | .search _ _ | .queueDrainTimeout _ | .hotReset | .linkDown => [.stew, .hif, .eng, .idx, .obj, .shv, .rel, .recd]
  | .alloc _ _ => [.stew, .hif, .eng, .obj, .shv, .fls, .fab, .rel, .recd]
  | .read _ | .headStageItemArrival _ | .stageBatchFinish _ _ _ => [.stew, .hif, .eng, .obj, .shv, .fab, .rel, .recd]
  | .perstNAssert => [.aon, .stew, .hif, .eng, .idx, .obj, .shv, .rel, .recd]
  | .sramUncorrectable _ _ _ => [.aon, .stew, .hif, .obj, .shv, .stk, .fls, .fab, .rel, .recd]
  | .subSearch _ _ => [.stew, .hif, .eng, .idx, .obj, .shv, .fab, .rel, .recd]
  | .awnReadIssue _ _ _ _ => [.stew, .hif, .eng, .obj, .shv, .stk, .fab, .rel, .recd]
  | .move _ | .moveRehome _ | .promotionCopyComplete _ | .writeBackStart _ | .writeBackDurable _
  | .rehomeSwitch _ | .t4Data _ _ | .frameReceive _ _ _ | .retransmissionTimeout _ _ | .status _ _ | .t4RequestTimeout _
  | .peerTimeout _ _ | .portLinkChange _ _ => [.stew, .hif, .eng, .obj, .shv, .fls, .fab, .rel, .recd]
  | .refclkLoss _ => [.aon, .stew, .hif, .eng, .idx, .obj, .shv, .fab, .rel, .recd]
  | .subAnswer _ _ => [.stew, .hif, .eng, .idx, .obj, .shv, .fls, .fab, .rel, .recd]
  | .journalRecordDurable | .drainEntryFreed _ | .epochRingWaitEnd | .versionPoolWaitEnd
  | .recoveryPhaseComplete _ => [.aon, .stew, .hif, .eng, .idx, .obj, .shv, .fls, .fab, .rel, .recd]
  | .replayEnd | .powerGood | .flushComplete | .pwrFailNRelease
    => [.aon, .stew, .hif, .eng, .idx, .obj, .shv, .stk, .fls, .fab, .rel, .recd]

/-- The commands that may change bytes of objects: those that form or apply husks, compute in culms, make, free or restore
objects, and those that end what holds payload objects. -/
def writesObjects : Instr → Bool
  | .husk _ _ _ | .alloc _ _ | .zalpolHusk _ _ _ | .formatComplete | .replayStart _ _ | .functionLevelReset _
  | .queueDrainTimeout _
  | .perstNAssert | .hotReset | .linkDown | .culmAddOp _ | .culmMulOp _ | .culmActOp _ | .culmConvertOp _
  | .huskLockRequest _ | .huskLockGrant _ | .elementwiseComputeDone _ | .journalExtentsDurable _ | .journalRecordDurable | .journalUnavailable | .drainEntryFreed _
  | .epochRingWaitEnd | .versionPoolWaitEnd | .versionReclaim | .rebuildShadowComplete _ | .freeRelease _
  | .t4Data _ _ | .recordingStart | .replayEnd | .powerGood | .recoveryPhaseComplete _ | .flushComplete | .refclkLoss _
  | .pwrFailNRelease | .mbxDomainDownTimeout _ => true
  | _ => false

/-- The commands that reach a halted node: those of power, clocks, resets, SMBus and JTAG in islands 0 and 63, the mailbox
page's, and the journal and log records under way (R330, R391, R434, R463). -/
def reachesHalted : Instr → Bool
  | .mbxWindowWrite _ _ _ _ | .mbxDoorbellRing _ _ _ | .mbxStatusClear _ _ _ | .mbxReleaseRead _ _
  | .journalRecordDurable | .journalWriteFail | .logRecordWrite | .powerGood | .pwrFailNAssert | .pwrFailNGlitch
  | .flushComplete | .holdupOkChange _ | .railOutOfLimits _ | .warmReset | .thermalTrip | .refclkLoss _
  | .refclkReturn _ | .smbusIdent _ | .smbusNodeStatus _ | .smbusBootUptime _ | .smbusFaultCause _ | .smbusLastGasp _
  | .smbusLogFailCount _ | .smbusTemps _ | .smbusRails _ | .smbusThermal _ | .smbusWarmReset _ _
  | .smbusUndefinedCode _ _ | .jtagWarmReset | .jtagIdcode | .jtagBypass _ | .jtagSamplePreload | .jtagExtest
  | .jtagIntest | .jtagClamp | .jtagHighz | .pwrFailNRelease | .holdUpEnds => true
  | _ => false

end Sys2Proof.Safety
end

