-- ==== Sys2Proof/Certificates/Slice0/Obligations.lean ====
section
/-! DEFINITION. The statements for the provers: what every step keeps, and for every command what its next state is. A
hypothesis `halted s = false` says that the node runs (R434). -/

open Sys2Proof Sys2Proof.Machine Sys2Proof.Safety

/-- THE QUEUE OF COMMANDS: a step takes the command at the front and is exec of it on the state with the queue's rest.
With no command waiting one nanosecond passes, which is the model's choice (log entry 1). -/
def Obligations.AStepRunsTheFrontCommand : Prop :=
  (∀ (s : State) (c : Instr) (rest : List Instr), s.pending = c :: rest → step s = exec c { s with pending := rest }) ∧
  (∀ (s : State), s.pending = [] → ∃ t, step s = .next t ∧ t.aon.uptime = s.aon.uptime + 1 ∧ t.aon = { s.aon with uptime := t.aon.uptime } ∧
    Frame [.aon, .shv] s t)

/-- RESET: right after power is good the uptime, FAULT_CAUSE, QUEUE_ERROR, LAST_GASP and LOG_FAIL_COUNT are 0, the node is
in START, the factory generation, numbered 0, is in force, nothing is recorded, the only objects are SYSTEM ones that read
0, no command or husk is there and none waits (R306, R309, R310, R392, R393, R418, R425, R442). -/
def Obligations.ResetLeavesTheSpecsValues : Prop :=
  State.reset.aon.uptime = 0 ∧ State.reset.aon.faultCause = 0 ∧ (∀ r, queueErrorReg State.reset r = 0) ∧
  State.reset.aon.gasp = 0 ∧ logFailCount State.reset = 0 ∧ State.reset.stew.st = .start ∧ (gen State.reset).number = 0 ∧
  (∀ p ∈ State.reset.obj.recs, hClass p.2.handle = 5 ∧ p.2.mem = []) ∧ State.reset.hif.cmds = [] ∧ State.reset.eng.husks = [] ∧ State.reset.recd.active = false ∧
  (∀ p ∈ State.reset.hif.qps, p.2.qstate = .disabled ∧ p.2.sqHead = 0 ∧ p.2.sqTail = 0 ∧ p.2.cqHead = 0 ∧ p.2.cqTail = 0) ∧
  State.reset.pending = []

/-- NO COMMAND STOPS THE MODEL: every command at every state answers a next state, no fault and no refusal; it leaves the
queue of commands as it is. -/
def Obligations.EveryCommandAnswersANextState : Prop :=
  ∀ (c : Instr) (s : State), ∃ t, exec c s = .next t ∧ t.pending = s.pending

/-- A HALTED NODE (R434): from a power event to the next cold start, and while its islands are held in reset, a command
other than those of power, clocks, resets, the sideband, the mailbox page and the records under way has no effect at all. -/
def Obligations.AHaltedNodeDoesNothing : Prop :=
  ∀ (c : Instr) (s : State), halted s = true → reachesHalted c = false → exec c s = .next s

/-- THE FRAME OF EVERY COMMAND: what a command may change lies in the parts of the state that the table mayChange lists
for it; all other parts, and the queue of commands, are as before. -/
def Obligations.EveryCommandKeepsItsFrame : Prop :=
  ∀ (c : Instr) (s t : State), exec c s = .next t → Frame (mayChange c) s t

/-- OBJECT BYTES: only the commands that writesObjects lists change bytes of objects (husks applied, culm operations,
objects made, freed, swapped or restored); every other command leaves every byte of every object as it is. -/
def Obligations.OnlyListedCommandsWriteObjects : Prop :=
  ∀ (c : Instr) (s t : State), writesObjects c = false → exec c s = .next t → SameBytes s t

/-- AN INVARIANT OF EVERY STEP: the sparse memories of all objects stay in canonical form, no address listed twice and
none listed that reads 0 (R236), those of the tables that a snapshot and a replay keep as well (log entries 2 and 45). -/
def Obligations.StepsKeepMemoriesCanonical : Prop :=
  ∀ (s t : State), MemoriesCanonical s → step s = .next t → MemoriesCanonical t

/-- AN INVARIANT OF EVERY STEP: the detection queue holds at most 1,024 detections and the signature store 65,536 records
(R388), every mailbox at most 64 waiting events (R337). -/
def Obligations.StepsKeepQueuesBounded : Prop :=
  ∀ (s t : State), QueuesBounded s → step s = .next t → QueuesBounded t

/-- The state after reset meets both invariants. -/
def Obligations.ResetMeetsTheInvariants : Prop := MemoriesCanonical State.reset ∧ QueuesBounded State.reset

/-- ISOLATION OF FUNCTIONS (R299): the doorbells of a function leave every other tenant's queue pair as it is; its mailbox
commands every other mailbox, its MSI-X writes every other function's mask and pending bits. -/
def Obligations.FunctionsReachOnlyTheirOwn : Prop :=
  ∀ (s t : State) (fn : Nat),
    (∀ index value q p, tabGet s.hif.qps q = some p → p.tenant ≠ fn →
      (exec (.sqTailDoorbell fn index value) s = .next t ∨ exec (.cqHeadDoorbell fn index value) s = .next t) →
      tabGet t.hif.qps q = some p) ∧
    (∀ box off value bytes j, j ≠ fn →
      (exec (.mbxWindowWrite fn box off bytes) s = .next t ∨ exec (.mbxDoorbellRing fn box value) s = .next t ∨
        exec (.mbxStatusClear fn box value) s = .next t ∨ exec (.mbxReleaseRead fn box) s = .next t) →
      mbxOf t j = mbxOf s j) ∧
    (∀ ent k, ent < (if fn = 0 then 2048 else 64) → k / 2048 ≠ fn →
      (exec (.msixEntryMask fn ent) s = .next t ∨ exec (.msixEntryUnmask fn ent) s = .next t) →
      vecMasked t k = vecMasked s k ∧ t.hif.vecPend.contains k = s.hif.vecPend.contains k)

/-- GENERATION (R308): the register reads as the number of the generation in force, with the previous one's above it (0
where there is none), at 0x28 of every function, and a write leaves it. -/
def Obligations.TheGenerationRegisterNamesBothGenerations : Prop :=
  ∀ (s : State) (fn : Nat), fnAnswers s fn = true →
    regValue s fn 0x28 = some ((gen s).number + 2 ^ 32 * ((s.stew.prev.map Gen.number).getD 0)) ∧
    (halted s = false → Completes (.registerLowHalfRead fn 0x28) s (fun t =>
      t.hif.readData = (gen s).number % 2 ^ 32 ∧
      ((gen s).number < 2 ^ 32 → tabGet t.hif.latch fn = some ((s.stew.prev.map Gen.number).getD 0)))) ∧
    (∀ v, halted s = false → Completes (.registerWriteOther fn 0x28 8 v) s (fun t => regValue t fn 0x28 = regValue s fn 0x28))

/-- INTEGER FORMATS (R68): INT8 and INT4 codes are two's complement, UINT8 and UINT4 codes stand for q - z with the zero
point of the format word, the ranges of q are as given, and B1 is no number of the MAC array, of a float or of an integer
kind. -/
def Obligations.IntegerCodesHaveTheirValues : Prop :=
  (∀ z q, q < 256 → elemVal 9 z q = numOf (if q < 128 then (q : Rat) else (q : Rat) - 256)) ∧
  (∀ z q, q < 256 → z < 256 → elemVal 10 z q = numOf ((q : Rat) - z)) ∧
  (∀ z q, q < 16 → elemVal 11 z q = numOf (if q < 8 then (q : Rat) else (q : Rat) - 16)) ∧
  (∀ z q, q < 16 → z < 16 → elemVal 12 z q = numOf ((q : Rat) - z)) ∧
  (intRange 9 = (-128, 127) ∧ intRange 10 = (0, 255) ∧ intRange 11 = (-8, 7) ∧ intRange 12 = (0, 15)) ∧
  (∀ f n b, rowElems f n b = (unpack (elemBits (fwElem f)) n b).map (elemVal (fwElem f) (fwZero f))) ∧
  (isMac 13 = false ∧ isFloat 13 = false ∧ isInt 13 = false ∧ isCulmElem 13 = false)

/-- CANONICAL CODES (R286): the symbols with a length that is not 0 are taken in ascending (length, symbol) order; the
first code is all zeros, and each next one is the one before plus one, shifted left by the difference in length. -/
def Obligations.CodesAreAssignedCanonically : Prop :=
  ∀ (lens : List Nat), (∀ l ∈ lens, l ≤ 15) →
    (∀ y l, (∃ c, (y, l, c) ∈ packCodes lens) ↔ lens[y]? = some l ∧ l ≠ 0) ∧
    (packCodes lens).Pairwise (fun a b => a.2.1 < b.2.1 ∨ (a.2.1 = b.2.1 ∧ a.1 < b.1)) ∧
    (∀ c, (packCodes lens).head? = some c → c.2.2 = 0) ∧
    (∀ i c d, (packCodes lens)[i]? = some c → (packCodes lens)[i + 1]? = some d → d.2.2 = (c.2.2 + 1) * 2 ^ (d.2.1 - c.2.1))

/-- TOKEN BUCKETS (R363): a refill adds the rate of the generation in force times 1 microsecond (levels count millionths),
up to its burst; a request passes at a level above 0, or at rate 0; serving it subtracts its cost, below 0 if need be. The
fabric's flows (row 3) may be charged again at once by what the refill lets go. -/
def Obligations.BucketsRefillPassAndPay : Prop :=
  (∀ (s : State), halted s = false → Completes .bucketRefill s (fun t => Frame [.fab, .recd] s t ∧
    ∀ k b, tabGet s.fab.buckets k = some b → k / 65536 ≠ 3 ∨ s.fab.peers = [] → tabGet t.fab.buckets k = some {
      level := min (b.level + (bucketRate s (k / 65536) (k % 65536) : Int)) ((bucketBurst s (k / 65536) (k % 65536) : Int) * 1000000) })) ∧
  (∀ (s : State) (row id : Nat), (bucketOk s row id = true ↔ bucketRate s row id = 0 ∨ 0 < bucketLevel s row id)) ∧
  (∀ (s : State) (row id n : Nat), bucketRate s row id ≠ 0 →
    bucketLevel (bucketCharge row id n s) row id = bucketLevel s row id - (n : Int) * 1000000) ∧
  (∀ (s : State) (row id n : Nat), bucketRate s row id = 0 → bucketCharge row id n s = s)

/-- DOORBELLS (R313, R321): a doorbell of the queue pair's own function is taken where its value is in range, and else
sets doorbell_invalid; nothing else of the host interface changes, and what changes elsewhere is a wake-up. MSI-X TABLE
AND REGISTERS (R301 to R304, R309 to R311, R322). -/
def Obligations.DoorbellsVectorsAndRegistersAnswer : Prop :=
  (∀ (s : State) (fn index value q : Nat) (p : Qp), halted s = false → fnAnswers s fn = true →
    qpIndex s fn index = some q → tabGet s.hif.qps q = some p → p.tenant = fn →
    Completes (.sqTailDoorbell fn index value) s (fun t =>
      tabGet t.hif.qps q = some (if p.qstate = .enabled ∧ value % 65536 < fld p.ctx 0x18 4
        then { p with sqTail := value % 65536 } else { p with dbInvalid := true }) ∧
      OnlyQp q s t ∧ (s.recd.active = false → t.recd = s.recd) ∧
      (t.stew = s.stew ∨ t.stew = { s.stew with wake := true }) ∧ Frame [.hif, .stew, .recd] s t) ∧
    Completes (.cqHeadDoorbell fn index value) s (fun t =>
      tabGet t.hif.qps q = some (
        if (p.qstate = .enabled ∨ p.qstate = .error) ∧ value % 65536 < fld p.ctx 0x1C 4 ∧
          1 ≤ (value % 65536 + fld p.ctx 0x1C 4 - p.cqHead) % fld p.ctx 0x1C 4 ∧
          (value % 65536 + fld p.ctx 0x1C 4 - p.cqHead) % fld p.ctx 0x1C 4 ≤ (p.cqTail + fld p.ctx 0x1C 4 - p.cqHead) % fld p.ctx 0x1C 4
        then { p with cqHead := value % 65536 } else { p with dbInvalid := true }) ∧
      OnlyQp q s t ∧ (s.recd.active = false → t.recd = s.recd) ∧
      (t.stew = s.stew ∨ t.stew = { s.stew with wake := true }) ∧ Frame [.hif, .stew, .recd] s t)) ∧
  ((∀ (s : State) (fn ent : Nat), halted s = false → fnAnswers s fn = true → ent < (if fn = 0 then 2048 else 64) →
    Completes (.msixEntryMask fn ent) s (fun t =>
      t.hif = { s.hif with vecOpen := t.hif.vecOpen } ∧
      (∀ k, vecMasked t k = (vecMasked s k || k == fn * 2048 + ent)) ∧ Frame [.hif] s t) ∧
    Completes (.msixEntryUnmask fn ent) s (fun t =>
      (∀ k, vecMasked t k = (vecMasked s k && k != fn * 2048 + ent)) ∧
      t.hif.vecPend.contains (fn * 2048 + ent) = false ∧
      t.hif.msi = s.hif.msi ++ (if s.hif.vecPend.contains (fn * 2048 + ent) && (vecSlot s fn ent).isSome then [(fn, ent)] else []) ∧
      Frame [.hif] s t)) ∧
  (∀ (s : State) (v : Nat), halted s = false → fnAnswers s 0 = true →
    Completes (.faultCauseClear v) s (fun t =>
      t.aon = { s.aon with
        faultCause := (s.aon.faultCause &&& ~~~(BitVec.ofNat 64 v)) ||| (s.aon.faultCause &&& s.aon.faultPresent) } ∧
      (s.recd.active = false → t.recd = s.recd) ∧ Frame [.aon, .recd] s t)) ∧
  (∀ (s : State) (reg v : Nat), halted s = false → fnAnswers s 0 = true → reg < 64 →
    Completes (.queueErrorClear reg v) s (fun t =>
      t.hif = { s.hif with qError := t.hif.qError } ∧
      (∀ q, t.hif.qError.contains q = (s.hif.qError.contains q && !(q / 64 == reg && v.testBit (q % 64)))) ∧
      Frame [.hif, .recd] s t)) ∧
  (∀ (s : State) (fn index v q : Nat) (p : Qp), halted s = false → fnAnswers s fn = true → qpIndex s fn index = some q →
    tabGet s.hif.qps q = some p →
    Completes (.queueStatusClear fn index v) s (fun t =>
      tabGet t.hif.qps q = some { p with
        dbInvalid := p.dbInvalid && !v.testBit 2, hostAccess := p.hostAccess && !v.testBit 3 } ∧
      OnlyQp q s t ∧ Frame [.hif, .recd] s t)) ∧
  (∀ (s : State) (fn off v : Nat), halted s = false → fnAnswers s fn = true → (mbxOffset fn off && stewardDown s) = false →
    off % 8 = 0 → regValue s fn off = some v →
    Completes (.registerLowHalfRead fn off) s (fun t =>
      t.hif.readData = v % 2 ^ 32 ∧ tabGet t.hif.latch fn = some (v / 2 ^ 32) ∧
      t.hif = { s.hif with readData := t.hif.readData, latch := t.hif.latch } ∧ Frame [.hif] s t)) ∧
  (∀ (s : State) (fn off : Nat), halted s = false → fnAnswers s fn = true → mbxOffset fn off = true → s.aon.inReset.contains 1 = true →
    Completes (.registerLowHalfRead fn off) s (fun t => t.hif = { s.hif with readData := 2 ^ 64 - 1 } ∧ Frame [.hif, .rel] s t) ∧
    ∀ width v, Completes (.registerWriteOther fn off width v) s (fun t => t.stew = s.stew ∧ Frame [.hif, .rel] s t)) ∧
  (∀ (s : State) (fn off width v : Nat), halted s = false → fnAnswers s fn = true → (mbxOffset fn off && stewardDown s) = false →
    (¬(width = 4 ∨ width = 8) ∨ off % width ≠ 0 ∨ regValue s fn (off / 8 * 8) = none) →
    Completes (.registerWriteOther fn off width v) s (fun t =>
      t.hif = { s.hif with accessErr := s.hif.accessErr + 1 } ∧ Frame [.hif] s t)) ∧
  (∀ (s : State) (fn off width v x : Nat), halted s = false → fnAnswers s fn = true → (mbxOffset fn off && stewardDown s) = false → (width = 4 ∨ width = 8) → off % width = 0 →
    regValue s fn (off / 8 * 8) = some x →
    (msixIndex fn off = none → Completes (.registerWriteOther fn off width v) s (fun t => Frame [.recd] s t)) ∧
    ∀ i, msixIndex fn off = some i → Completes (.registerWriteOther fn off width v) s (fun t =>
      tabGet t.hif.msixTab (fn * 4096 + i) = some (
        if width = 8 then v % 2 ^ 64
        else if off % 8 = 0 then tabGetD s.hif.msixTab (fn * 4096 + i) 0 / 2 ^ 32 * 2 ^ 32 + v % 2 ^ 32
        else tabGetD s.hif.msixTab (fn * 4096 + i) 0 % 2 ^ 32 + v % 2 ^ 32 * 2 ^ 32) ∧
      (∀ k, k ≠ fn * 4096 + i → tabGet t.hif.msixTab k = tabGet s.hif.msixTab k) ∧
      t.hif = { s.hif with msixTab := t.hif.msixTab } ∧ Frame [.hif, .recd] s t)))

/-- FETCH AND ADMISSION (R31, R314, R319): a fetched entry joins its queue's entries; an entry that admission lets go
becomes a command of the next number and leaves the queue. COMPLETIONS (R57, R318, R320, R322): the oldest waiting
completion is written to the queue's next slot when there is room; a queue that waited for drain_deadline times out; the
coalescing time sends the message and counts anew. -/
def Obligations.QueuesFetchAdmitAndComplete : Prop :=
  ((∀ (s : State) (q : Nat) (entry : Bytes) (p : Qp), halted s = false → tabGet s.hif.qps q = some p →
    p.qstate = .enabled → p.deleting = false → p.sqHead ≠ p.sqTail →
    Completes (.sqEntryFetch q entry) s (fun t =>
      tabGet t.hif.qps q = some { p with
        sqHead := (p.sqHead + 1) % fld p.ctx 0x18 4,
        fetched := p.fetched ++ [{ slot := p.sqHead, entry := slice entry 0 64, since := s.aon.uptime }] } ∧
      OnlyQp q s t ∧ (s.recd.active = false → t.recd = s.recd) ∧ Frame [.hif, .recd] s t)) ∧
  (∀ (s : State) (q : Nat) (p : Qp) (f : Fetched) (fs : List Fetched) (c : Cmd) (rs : List Range) (pins : List Nat),
    halted s = false → admits s = true → tabGet s.hif.qps q = some p → p.fetched = f :: fs →
    admitCheck s q f.entry = .go c rs pins →
    (nextQueue s = some q → Completes (.commandAdmission q) s (fun t =>
      (∃ c', cmdOf t s.hif.nextCmd = some c' ∧ c'.entry = c.entry ∧ c'.opcode = c.opcode ∧ c'.epoch = c.epoch ∧ c'.ran = c.ran) ∧
      t.hif.nextCmd = s.hif.nextCmd + 1 ∧ (qpOf t q).fetched = fs ∧ t.eng.epoch = s.eng.epoch)) ∧
    (p.qstate = .enabled → p.deleting = false → p.wait = true → queueBlocked s q = false →
      Completes (.admissionWaitEnd q) s (fun t =>
        (∃ c', cmdOf t s.hif.nextCmd = some c' ∧ c'.entry = c.entry ∧ c'.opcode = c.opcode ∧ c'.epoch = c.epoch ∧ c'.ran = c.ran) ∧
        t.hif.nextCmd = s.hif.nextCmd + 1 ∧ (qpOf t q).fetched = fs ∧ t.eng.epoch = s.eng.epoch)))) ∧
  ((∀ (s : State) (q : Nat) (p : Qp) (c : Compl) (cs : List Compl), halted s = false → tabGet s.hif.qps q = some p →
    p.staged = c :: cs → canDrain s q = true →
    Completes (.completionDrain q) s (fun t =>
      (∃ w rest, t.hif.out = s.hif.out ++ w ++
        [⟨p.tenant, fld p.ctx 0x10 8 + 32 * p.cqTail, complBytes c p.sqHead p.phase, false⟩] ++ rest) ∧
      (qpOf t q).staged.length ≤ cs.length)) ∧
  (∀ (s : State) (q : Nat) (p : Qp) (c : Compl) (cs : List Compl) (since : Nat), halted s = false →
    tabGet s.hif.qps q = some p → p.staged = c :: cs → c.since = some since → (p.qstate = .enabled ∨ p.qstate = .error) →
    p.deleting = false → since + drainDeadline p ≤ s.aon.uptime →
    Completes (.queueDrainTimeout q) s (fun t =>
      (qpOf t q).qstate = .timedOut ∧ (qpOf t q).staged = [] ∧ (qpOf t q).fetched = [] ∧ t.hif.qError.contains q = true ∧
      ((∀ c ∈ s.hif.cmds, c.2.qp ≠ q) → t.hif.out = s.hif.out))) ∧
  (∀ (s : State) (q : Nat) (p : Qp) (since : Nat), halted s = false → tabGet s.hif.qps q = some p →
    p.firstUnsig = some since → since + 1000 * fld p.ctx 0x26 2 ≤ s.aon.uptime → s.hif.d3.contains p.tenant = false →
    Completes (.coalesceTimeout q) s (fun t =>
      tabGet t.hif.qps q = some { p with unsignalled := 0, firstUnsig := none } ∧
      (∀ j, j ≠ q → tabGet t.hif.qps j = tabGet s.hif.qps j) ∧
      (vecMasked s (p.tenant * 2048 + fld p.ctx 4 2) = false → (vecSlot s p.tenant (fld p.ctx 4 2)).isSome = true →
        t.hif.msi = s.hif.msi ++ [(p.tenant, fld p.ctx 4 2)]) ∧
      (vecMasked s (p.tenant * 2048 + fld p.ctx 4 2) = true → (vecSlot s p.tenant (fld p.ctx 4 2)).isSome = true →
        t.hif.msi = s.hif.msi ∧ t.hif.vecPend.contains (p.tenant * 2048 + fld p.ctx 4 2) = true) ∧ Frame [.hif] s t)))

/-- FUNCTIONS AND LINK (R296, R299, R300, R320, R321, R330): a reset of a function stops its queues and empties its
mailbox, a reset or loss of the link those of every function; the link trains to the highest rate and width both ends
support. HOST DATA THAT FAILS, AND THE WINDOW (R320, R323, R324): an entry that cannot be read stops its queue, with the
queue's error bit set; command data that fails to arrive ends its command; the window reads mapped bytes and takes no
write; an internal timeout of the queue engine makes the node viral. -/
def Obligations.FunctionsLinkAndHostErrorsActOnQueues : Prop :=
  ((∀ (s : State) (fn : Nat), halted s = false → fnLive s fn = true →
    Completes (.functionLevelReset fn) s (fun t =>
      (mbxOf t fn).inFull = false ∧ (mbxOf t fn).outFull = false ∧ (mbxOf t fn).events = [] ∧ (mbxOf t fn).inArea = [] ∧
      (∀ q p, tabGet s.hif.qps q = some p → p.tenant = fn → (qpOf t q).qstate = .disabled ∧ (qpOf t q).fetched = []) ∧
      t.hif.linkUp = s.hif.linkUp ∧ t.hif.vecOpen = s.hif.vecOpen)) ∧
  (∀ (s : State), halted s = false →
    Completes .perstNAssert s (fun t => QueuesStopped s t ∧ t.aon.perstLow = true ∧ t.hif.linkUp = false) ∧
    Completes .hotReset s (fun t => QueuesStopped s t ∧ t.hif.linkUp = s.hif.linkUp ∧ t.hif.aer = s.hif.aer + 1) ∧
    Completes .linkDown s (fun t => QueuesStopped s t ∧ t.hif.linkUp = false ∧ t.aon.perstLow = s.aon.perstLow ∧
      t.hif.aer = s.hif.aer)) ∧
  (∀ (s : State) (rate width r w : Nat) (flit : Bool), halted s = false → s.aon.pcieLost = false →
    r ∈ [128, 64, 32, 16, 10, 5] → r ≤ rate → (∀ x ∈ [128, 64, 32, 16, 10, 5], x ≤ rate → x ≤ r) →
    w ∈ [16, 8, 4, 2, 1] → w ≤ width → (∀ x ∈ [16, 8, 4, 2, 1], x ≤ width → x ≤ w) →
    Completes (.linkTraining rate width flit) s (fun t =>
      t.hif = { s.hif with linkUp := true, linkRate := r, linkWidth := w, linkFlit := r == 128 || flit } ∧
      t.aon = { s.aon with perstLow := false } ∧ Frame [.aon, .hif, .recd] s t)) ∧
  (∀ (s : State) (fn : Nat), halted s = false → fnLive s fn = true →
    Completes (.functionDStateChange fn true) s (fun t =>
      t.hif = { s.hif with d3 := t.hif.d3 } ∧ (∀ k, t.hif.d3.contains k = (s.hif.d3.contains k || k == fn)) ∧ Frame [.hif] s t) ∧
    Completes (.functionDStateChange fn false) s (fun t =>
      (∀ k, t.hif.d3.contains k = (s.hif.d3.contains k && k != fn)) ∧ Frame [.hif, .shv] s t)) ∧
  (∀ (s : State) (vfs : Nat), halted s = false →
    Completes (.sriovVfEnable vfs) s (fun t => t.hif = { s.hif with vfs := min vfs 1023 } ∧ Frame [.hif] s t)) ∧
  (∀ (s : State) (k : Nat), halted s = false → k ≤ 8 →
    Completes (.bar2Resize (2 ^ k)) s (fun t => t.hif = { s.hif with bar2 := 2 ^ k } ∧ Frame [.hif] s t))) ∧
  ((∀ (s : State) (q : Nat) (p : Qp), halted s = false → tabGet s.hif.qps q = some p → p.qstate = .enabled →
    p.deleting = false → p.sqHead ≠ p.sqTail →
    let stops (t : State) : Prop :=
      (qpOf t q).qstate = .error ∧ (qpOf t q).hostAccess = true ∧ (qpOf t q).fetched = [] ∧
      (qpOf t q).sqHead = (p.sqHead + 1) % fld p.ctx 0x18 4 ∧ t.hif.qError.contains q = true
    Completes (.hostAccessError (.sqEntry q)) s stops ∧ Completes (.hostDataPoisoned (.sqEntry q)) s stops) ∧
  (∀ (s : State) (n : Nat) (c : Cmd), halted s = false → cmdOf s n = some c → readsHost c = true →
    Completes (.hostAccessError (.cmd n)) s (fun t => cmdOf t n = none) ∧
    Completes (.hostDataPoisoned (.cmd n)) s (fun t => cmdOf t n = none)) ∧
  (∀ (s : State) (box : Nat) (r : ZReq), halted s = false → (mbxOf s box).req = some r → r.passed = true → r.resp = none →
    Completes (.hostAccessError (.zalpol box)) s (fun t => Answers box 0x0109 0 [] s t ∧ Frame [.stew] s t) ∧
    Completes (.hostDataPoisoned (.zalpol box)) s (fun t => Answers box 0x0701 0 [] s t ∧ Frame [.stew, .rel] s t)) ∧
  (∀ (s : State) (addr len h base : Nat) (cxl : Bool), halted s = false → addr < s.hif.bar2 * 2 ^ 30 → (cxl = true ∨ fnAnswers s 0 = true) →
    tabGet s.hif.window (addr / 2 ^ 21) = some (h, base) →
    Completes (.windowRead cxl addr len) s (fun t =>
      t.hif.winOut = some (objImage s h (base + addr % 2 ^ 21) (min len (64 - addr % 64)),
        objPoisoned s h (base + addr % 2 ^ 21) (min len (64 - addr % 64)) || s.aon.viral) ∧
      t.hif.winMiss = s.hif.winMiss ∧ Frame [.hif] s t)) ∧
  (∀ (s : State) (addr len : Nat) (cxl : Bool), halted s = false → addr < s.hif.bar2 * 2 ^ 30 → (cxl = true ∨ fnAnswers s 0 = true) →
    tabGet s.hif.window (addr / 2 ^ 21) = none →
    Completes (.windowRead cxl addr len) s (fun t =>
      t.hif = { s.hif with winOut := some (List.replicate (min len (64 - addr % 64)) 0, s.aon.viral), winMiss := s.hif.winMiss + 1 } ∧
      Frame [.hif] s t)) ∧
  (∀ (s : State) (addr : Nat) (cxl : Bool), halted s = false →
    Completes (.windowWrite cxl addr) s (fun t =>
      t.hif = { s.hif with winWrites := s.hif.winWrites + 1 } ∧ Frame [.hif, .rel] s t)) ∧
  (∀ (s : State), halted s = false → s.aon.viral = false →
    Completes .queueEngineInternalTimeout s (fun t =>
      t.aon.viral = true ∧ t.stew.st = .fault ∧ t.aon.faultCause.getLsbD 3 = true ∧ t.aon.faultCause.getLsbD 4 = true ∧
      t.hif.aer = s.hif.aer + 1)))

/-- THE MAILBOX PAGE (R326 to R330): the host fills the window, rings, reads the answer and releases it. THE STEWARD'S
SIDE OF A MAILBOX (R327 to R330, R332, R337): the next request is taken, checked and either refused or passed; a response
and the oldest event go to the outbound area; a command whose domains stay down for 1 s is answered. -/
def Obligations.MailboxesCarryMessagesToAndFro : Prop :=
  (∀ (s : State) (box : Nat), s.aon.inReset.contains 1 = false → s.aon.inReset.contains 59 = false → fnAnswers s box = true →
    (∀ (off : Nat) (b : Bytes), 0x40 ≤ off → off + b.length ≤ 0x1000 → (mbxOf s box).inFull = false →
      Completes (.mbxWindowWrite box box off b) s (fun t =>
        mbxOf t box = { mbxOf s box with inArea := putAt (mbxOf s box).inArea (off - 0x40) b } ∧ OnlyMbx box s t ∧
        Frame [.stew, .recd] s t)) ∧
    (∀ (v : Nat), v.testBit 0 = true → (mbxOf s box).inFull = false →
      Completes (.mbxDoorbellRing box box v) s (fun t =>
        mbxOf t box = { mbxOf s box with inFull := true, inSince := s.aon.uptime } ∧
        (∀ j, j ≠ box → tabGet t.stew.mbx j = tabGet s.stew.mbx j) ∧ Frame [.stew, .recd] s t)) ∧
    (∀ (v : Nat), Completes (.mbxStatusClear box box v) s (fun t =>
      mbxOf t box = { mbxOf s box with inDiscard := (mbxOf s box).inDiscard && !v.testBit 3 } ∧ OnlyMbx box s t ∧
      Frame [.stew, .recd] s t)) ∧
    ((mbxOf s box).outFull = true → Completes (.mbxReleaseRead box box) s (fun t =>
      mbxOf t box = { mbxOf s box with
        outFull := false,
        req := if (byteAt (mbxOf s box).outArea 2).testBit 1 then (mbxOf s box).req else none } ∧
      t.hif.readData = fld (mbxOf s box).outArea 4 2 + 2 ^ 16 + 2 ^ 17 * (if (byteAt (mbxOf s box).outArea 2).testBit 1 then 1 else 0) ∧
      OnlyMbx box s t ∧ Frame [.hif, .stew, .recd] s t))) ∧
  ((∀ (s : State) (box : Nat), halted s = false → s.aon.inReset.contains 1 = false → quiescing s = false →
    ringFull s = false → s.stew.busy = false → nextMailbox s = some box →
    (∀ st d, requestBad s box (inMessage (mbxOf s box)) = some (st, d) →
      Completes .mbxRequestTake s (fun t => (mbxOf t box).inFull = false ∧
        ∃ r, (mbxOf t box).req = some r ∧ r.msg = inMessage (mbxOf s box) ∧ r.passed = false ∧
          r.resp = some (answerOf (inMessage (mbxOf s box)) st d []))) ∧
    (requestBad s box (inMessage (mbxOf s box)) = none → fld (inMessage (mbxOf s box)) 0x10 8 = 0 →
      Completes .mbxRequestTake s (fun t => (mbxOf t box).inFull = false ∧
        ∃ r, (mbxOf t box).req = some r ∧ r.msg = inMessage (mbxOf s box) ∧ r.passed = true ∧ r.resp = none))) ∧
  (∀ (s : State) (box : Nat) (r : ZReq) (b : Bytes), halted s = false → s.aon.inReset.contains 1 = false →
    (mbxOf s box).req = some r → r.resp = some b → (mbxOf s box).outFull = false →
    Completes (.mbxResponsePost box) s (fun t =>
      mbxOf t box = { mbxOf s box with outArea := b, outFull := true } ∧ OnlyMbx box s t ∧ Frame [.aon, .hif, .stew] s t)) ∧
  (∀ (s : State) (box : Nat) (e : Bytes) (es : List Bytes), halted s = false → s.aon.inReset.contains 1 = false →
    s.stew.busy = false → (mbxOf s box).events = e :: es → (mbxOf s box).outFull = false →
    Completes (.mbxEventDeliver box) s (fun t =>
      mbxOf t box = { mbxOf s box with
        outArea := putAt e 0x0E (toLe 2 (mbxOf s box).lost), outFull := true, events := es, lost := 0 } ∧
      OnlyMbx box s t ∧ Frame [.aon, .hif, .stew] s t)) ∧
  (∀ (s : State) (box : Nat) (r : ZReq), halted s = false → (mbxOf s box).req = some r → (mbxOf s box).drop = false →
    r.passed = true → r.resp = none → (zDomains (fld r.msg 0 2)).any (domainDown s) = true → r.at_ + 10 ^ 9 ≤ s.aon.uptime →
    (∀ h ∈ s.eng.husks, h.2.mbx ≠ some box) →
    Completes (.mbxDomainDownTimeout box) s (fun t => Answers box 0x0108 0 [] s t ∧ Frame [.stew] s t)))

/-- SEARCH (R98 to R104): the query block of a search of a known collection has arrived: the centroids are scored and the best
nprobe selected, the lists they name are scanned, the best of what the scans keep are scored again and the best k selected; lists
of other nodes wait to be asked of them. The command then travels; with nothing lost and no list missing its outcome is 0, the
number of its hits and its result block. An unknown collection, a row too long and a list that may not be scanned end it. UPDATES
(R105): INSERT, UPSERT and DELETE each form one husk with one action a record, and have run. -/
def Obligations.SearchesRunAndUpdatesFormHusks : Prop :=
  ((∀ (s : State) (n : Nat) (data : Bytes) (c : Cmd) (d : Bytes), halted s = false → readyCmd s n 0x20 = some c →
    collAt s (fld c.entry 4 2) (cEpoch c) = some d →
    rowTooLong c.piecewise (centroidRowLen s d (roleEntry c.desc 1) c.cls (cEpoch c)
      (data.take (rowBytes (coarseWord s d) (coCoarseDims d) + scaleBytes (coarseWord s d) (coCoarseDims d)))) = false →
    ((byteAt c.entry 1).testBit 0 = true → (startSearch s d (slice data 0 (queryLayout s d).2.2) c).ask = []) →
    listsBad s c.tenant c.desc (startSearch s d (slice data 0 (queryLayout s d).2.2) c).probe = none →
    Completes (.search n data) s (fun t =>
      cmdOf t n = some { startSearch s d (slice data 0 (queryLayout s d).2.2) c with ran := true } ∧
      (c.cls ≠ 2 → t.idx = s.idx) ∧ t.idx = { s.idx with nanDrops := t.idx.nanDrops } ∧ SameBytes s t ∧
      Frame [.hif, .idx, .recd] s t)) ∧
  (∀ (s : State) (n : Nat) (data : Bytes) (c : Cmd), halted s = false → readyCmd s n 0x20 = some c →
    collAt s (fld c.entry 4 2) (cEpoch c) = none →
    Completes (.search n data) s (fun t => Finishes n { status := 0x0601 } s t)) ∧
  (∀ (s : State) (n : Nat) (data : Bytes) (c : Cmd) (d : Bytes), halted s = false → readyCmd s n 0x20 = some c →
    collAt s (fld c.entry 4 2) (cEpoch c) = some d →
    rowTooLong c.piecewise (centroidRowLen s d (roleEntry c.desc 1) c.cls (cEpoch c)
      (data.take (rowBytes (coarseWord s d) (coCoarseDims d) + scaleBytes (coarseWord s d) (coCoarseDims d)))) = true →
    Completes (.search n data) s (fun t => Finishes n { status := 0x0205 } s t)) ∧
  (∀ (s : State) (n : Nat) (data : Bytes) (c : Cmd) (d : Bytes) (st : Nat), halted s = false → readyCmd s n 0x20 = some c →
    collAt s (fld c.entry 4 2) (cEpoch c) = some d →
    rowTooLong c.piecewise (centroidRowLen s d (roleEntry c.desc 1) c.cls (cEpoch c)
      (data.take (rowBytes (coarseWord s d) (coCoarseDims d) + scaleBytes (coarseWord s d) (coCoarseDims d)))) = false →
    ((byteAt c.entry 1).testBit 0 = true → (startSearch s d (slice data 0 (queryLayout s d).2.2) c).ask = []) →
    listsBad s c.tenant c.desc (startSearch s d (slice data 0 (queryLayout s d).2.2) c).probe = some st →
    Completes (.search n data) s (fun t => (∃ c', cmdOf t n = some c' ∧ c'.ran = true ∧ c'.result = some { status := st }) ∧
      SameBytes s t)) ∧
  (∀ (s : State) (d q : Bytes) (c : Cmd), (∀ f, c.fan = some f → f.slot = false) →
    let row := probePart s d (roleEntry c.desc 1) c.piecewise (seNprobe c) c.cls (cEpoch c)
      (q.take (rowBytes (coarseWord s d) (coCoarseDims d) + scaleBytes (coarseWord s d) (coCoarseDims d)))
    let scan := scanLists s d (fld c.entry 4 2) (cEpoch c) (leNat (slice q (queryLayout s d).1 (coWidth d / 8))) (scanHow c)
      (startSearch s d q c).probe
    (startSearch s d q c).probe = probeLists s d (cEpoch c) (row.hits.map Hit.payload) ∧
    (startSearch s d q c).ask = remoteOwners (startSearch s d q c).probe ∧
    (startSearch s d q c).cand = (winnowDeep c.piecewise false 0 (fld c.entry 0x0A 2) c.cls scan.1).hits ∧
    ∃ f, (startSearch s d q c).fan = some f ∧ f.chaff = scan.2.1 ∧ f.lists = scan.2.2.1 ∧
      f.mine.hits = (rerank s d (fld c.entry 4 2) (cEpoch c) c.cls (byteAt c.entry 6) (sgBase (roleEntry c.desc 4))
        (slice q (queryLayout s d).2.1 ((queryLayout s d).2.2 - (queryLayout s d).2.1)) (startSearch s d q c).cand).1.hits) ∧
  (∀ (s : State) (c : Cmd) (f : Fan), c.opcode = 0x20 → c.viol = 0 → c.result = none → c.fan = some f → c.bad = [] →
    f.missing = 0 → finalResult s c = {
      status := 0, count := f.mine.hits.length, addr := fld c.entry 0x28 8
      bytes := resultBlock (cEpoch c) f.lists f.chaff 0 c.cls f.fp ((byteAt c.entry 1).testBit 3) f.mine })) ∧
  ((∀ (s : State) (n : Nat) (data d : Bytes) (c : Cmd), halted s = false → readyCmd s n 0x21 = some c →
    collAt s (fld c.entry 4 2) s.eng.epoch = some d → (coOwner d = c.tenant ∨ c.tenant = 0) →
    byteAt c.entry 6 * (recordLayout s d).2.2.2 ≤ fld c.entry 0x18 4 →
    (∀ i < byteAt c.entry 6, recordBad (slice data (i * (recordLayout s d).2.2.2) (recordLayout s d).2.2.2) = none) →
    huskRefusal s c.tenant none = none →
    let record (i : Nat) : Bytes := slice data (i * (recordLayout s d).2.2.2) (recordLayout s d).2.2.2
    let records (flag : Nat) : List Action := (List.range (byteAt c.entry 6)).map fun i => {
      kind := 1, flags := flag, coll := fld c.entry 4 2, len := (recordLayout s d).2.2.2, src := i * (recordLayout s d).2.2.2
      target := fld (record i) 0 8, arg := fld (record i) 8 4, data := record i }
    ((byteAt c.entry 1).testBit 0 = false → Completes (.insert n data) s (fun t =>
      FormsHusk c.tenant (some n) none (records 0) s t ∧ (∃ c', cmdOf t n = some c' ∧ c'.ran = true ∧ c'.result = none) ∧
      Frame [.hif, .eng, .recd] s t)) ∧
    ((byteAt c.entry 1).testBit 0 = true → Completes (.upsert n data) s (fun t =>
      FormsHusk c.tenant (some n) none (records 1) s t ∧ (∃ c', cmdOf t n = some c' ∧ c'.ran = true ∧ c'.result = none) ∧
      Frame [.hif, .eng, .recd] s t))) ∧
  (∀ (s : State) (n : Nat) (data d : Bytes) (c : Cmd), halted s = false → readyCmd s n 0x22 = some c →
    collAt s (fld c.entry 4 2) s.eng.epoch = some d → (coOwner d = c.tenant ∨ c.tenant = 0) →
    huskRefusal s c.tenant none = none →
    Completes (.delete n data) s (fun t =>
      FormsHusk c.tenant (some n) none ((List.range (byteAt c.entry 6)).map fun i => {
        kind := 2, flags := byteAt c.entry 1 % 2, coll := fld c.entry 4 2, target := fld data (8 * i) 8 }) s t ∧
      (∃ c', cmdOf t n = some c' ∧ c'.ran = true ∧ c'.result = none) ∧ Frame [.hif, .eng, .recd] s t)))

/-- EXPERT_CALL, GATE, MEMORY_LAYER, ATTENTION (R140 to R151, R166, R167, R182 to R188): each has run on its rows: one
selection, or one output row, for each token or query of the entry, while a shard that no culm reaches ends an ATTENTION. As its
items leave, a GATE's outcome is its selection records, each command's the number of its items at the address of its entry. -/
def Obligations.RowCommandsRunOnTheirRows : Prop :=
  (∀ (s : State) (n : Nat) (data acts : Bytes) (c : Cmd), halted s = false → readyCmd s n 0x30 = some c →
    Completes (.expertCall n data acts) s (fun t =>
      (∃ c', cmdOf t n = some c' ∧ c'.ran = true ∧ c'.sels.length = fld c.entry 4 2 ∧ c'.rows.length = fld c.entry 4 2 ∧
        c'.result = none) ∧
      Frame [.hif, .idx, .recd] s t)) ∧
  (∀ (s : State) (n : Nat) (data : Bytes) (c : Cmd), halted s = false → readyCmd s n 0x31 = some c →
    Completes (.gate n data) s (fun t =>
      (∃ c', cmdOf t n = some c' ∧ c'.ran = true ∧ c'.sels.length = fld c.entry 4 2 ∧ c'.result = none) ∧
      Frame [.hif, .idx, .recd] s t)) ∧
  (∀ (s : State) (n : Nat) (data : Bytes) (c : Cmd), halted s = false → readyCmd s n 0x33 = some c →
    Completes (.memoryLayer n data) s (fun t =>
      (∃ c', cmdOf t n = some c' ∧ c'.ran = true ∧ c'.sels.length = fld c.entry 4 2 ∧ c'.bags = c'.sels.map Sel.slots ∧
        c'.result = none) ∧
      Frame [.hif, .idx, .recd] s t)) ∧
  (∀ (s : State) (n : Nat) (data : Bytes) (c : Cmd), halted s = false → readyCmd s n 0x34 = some c →
    ((∀ x ∈ cacheShards s (fld c.entry 8 8) (cEpoch c), fld x 4 4 < fld c.entry 0x24 4 → shardPlaced s x = true) →
      Completes (.attention n data) s (fun t =>
        (∃ c', cmdOf t n = some c' ∧ c'.ran = true ∧ c'.rows.length = fld c.entry 4 2 ∧ c'.result = none) ∧
        Frame [.hif, .recd] s t)) ∧
    (∀ x ∈ cacheShards s (fld c.entry 8 8) (cEpoch c), fld x 4 4 < fld c.entry 0x24 4 → shardPlaced s x = false →
      Completes (.attention n data) s (fun t =>
        (∃ c', cmdOf t n = some c' ∧ c'.ran = true ∧ c'.result = some { status := 0x0901 }) ∧ Frame [.hif, .recd] s t))) ∧
  (∀ (s : State) (c : Cmd), c.viol = 0 → c.result = none → c.bad = [] →
    (c.opcode = 0x31 → finalResult s c = {
      count := c.items, addr := fld c.entry 0x28 8
      bytes := (List.range c.items).flatMap fun i => selRecord true (expertK c.desc c.entry) { c.sels.getD i {} with poison := false } }) ∧
    (c.opcode = 0x33 → (finalResult s c).status = 0 ∧ (finalResult s c).count = c.items ∧ (finalResult s c).addr = fld c.entry 0x30 8 ∧
      (finalResult s c).lost = []) ∧
    (c.opcode = 0x34 → (finalResult s c).status = 0 ∧ (finalResult s c).count = c.items ∧ (finalResult s c).addr = fld c.entry 0x28 8 ∧
      (finalResult s c).lost = []))

/-- GATHER and ELEMENTWISE (R162, R163, R180, R181): a gather whose index block and output area are in order has run on
its bags; each element-wise operation forms a husk with one COMPUTED write of its destination's elements. -/
def Obligations.GathersAndElementwiseRun : Prop :=
  (∀ (s : State) (n : Nat) (data : Bytes) (c : Cmd), halted s = false → readyCmd s n 0x32 = some c →
    4 * (fld c.entry 4 2 + 1) ≤ fld c.entry 0x20 4 →
    bagsBad (fld c.entry 4 2) (fld (roleEntry c.desc 5) 0x2A 2) data = none →
    (indexLayout (fld c.entry 4 2) ((bagOffsets (fld c.entry 4 2) data).getLastD 0) ((byteAt c.entry 1).testBit 1)).2.2 ≤
      fld c.entry 0x20 4 →
    (let bags := bagsOf (fld c.entry 4 2) ((byteAt c.entry 1).testBit 1) data;
      ((bags.map fun b => (bagOut s (tableOf c.entry (roleEntry c.desc 5) 8) (cEpoch c) (byteAt (roleEntry c.desc 5) 0x29) b).1.length).sum ≤
          fld c.entry 0x24 4) ∧
        ∀ b ∈ bags, ∀ i < shStages c.desc, slotsHold (shStage c.desc i) [itemSizes s c.desc c.entry (cEpoch c) i b] = true) →
    Completes (.gather n data) s (fun t =>
      (∃ c', cmdOf t n = some c' ∧ c'.ran = true ∧ c'.result = none ∧
        c'.bags = bagsOf (fld c.entry 4 2) ((byteAt c.entry 1).testBit 1) data) ∧ Frame [.hif, .idx, .recd] s t)) ∧
  (∀ (s : State) (n : Nat) (c : Cmd), halted s = false → readyCmd s n 0x35 = some c →
    ewRefused s c.tenant c.entry = none → huskRefusal s c.tenant none = none →
    let forms (t : State) : Prop :=
      FormsHusk c.tenant (some n) none
        [{ kind := 3, flags := 2, target := fld c.entry 0x18 8, len := rowBytes (objFormat s (fld c.entry 0x18 8)) (ewCount s c.entry) }] s t ∧
      (∃ c', cmdOf t n = some c' ∧ c'.ran = true ∧ c'.result = none) ∧ Frame [.hif, .eng] s t
    (byteAt c.entry 1 = 2 → Completes (.elementwiseAdd n) s forms) ∧ (byteAt c.entry 1 = 3 → Completes (.elementwiseMul n) s forms) ∧
    (byteAt c.entry 1 = 4 → Completes (.elementwiseAct n) s forms) ∧ (byteAt c.entry 1 = 5 → Completes (.elementwiseConvert n) s forms))

/-- BINDER OPERATIONS (R225 to R227): each completes with the binder's value; ADD saturates at 2^64 - 1, SET stores its
operand, WAIT_GE completes at once where the value is reached and else waits with its queue until its timeout, READ changes
nothing; an unknown binder and another tenant's end the command. HUSK (R198, R199, R203): a descriptor in order, with its payload
in staging, forms a husk with its actions. -/
def Obligations.BinderOperationsAndSubmittedHusks : Prop :=
  ((∀ (s : State) (n : Nat) (c : Cmd) (x : Binder), halted s = false → readyCmd s n 0x40 = some c →
    tabGet s.eng.binders (fld c.entry 4 4) = some x → x.owner = c.tenant →
    (byteAt c.entry 1 = 0 → Completes (.binderAdd n) s (fun t => cmdOf t n = none ∧
      tabGet t.eng.binders (fld c.entry 4 4) = some (if 2 ^ 64 - 1 ≤ x.value + fld c.entry 8 8
        then { x with value := 2 ^ 64 - 1, saturated := true } else { x with value := x.value + fld c.entry 8 8 }) ∧
      (∀ b, b ≠ fld c.entry 4 4 → tabGet t.eng.binders b = tabGet s.eng.binders b) ∧ t.eng.epoch = s.eng.epoch)) ∧
    (byteAt c.entry 1 = 1 → Completes (.binderSet n) s (fun t => cmdOf t n = none ∧
      tabGet t.eng.binders (fld c.entry 4 4) = some { x with value := fld c.entry 8 8 } ∧
      (∀ b, b ≠ fld c.entry 4 4 → tabGet t.eng.binders b = tabGet s.eng.binders b) ∧ t.eng.epoch = s.eng.epoch)) ∧
    (byteAt c.entry 1 = 2 → fld c.entry 8 8 ≤ x.value → Completes (.binderWaitGe n) s (fun t => cmdOf t n = none ∧
      t.eng.binders = s.eng.binders)) ∧
    (byteAt c.entry 1 = 2 → x.value < fld c.entry 8 8 → c.suppressed = false → ∀ p, tabGet s.hif.qps c.qp = some p →
      p.deleting = false → Completes (.binderWaitGe n) s (fun t =>
      (qpOf t c.qp).waitGe = some {
        cid := c.cid, binder := fld c.entry 4 4, target := fld c.entry 8 8,
        deadline := s.aon.uptime + 1000 * (if fld c.entry 0x10 4 = 0 then 1000000 else fld c.entry 0x10 4) } ∧
      (qpOf t c.qp).wait = true ∧ t.hif.out = s.hif.out ∧ t.eng.binders = s.eng.binders)) ∧
    (byteAt c.entry 1 = 3 → Completes (.binderOpRead n) s (fun t => Finishes n { status := 0, word := some x.value } s t))) ∧
  (∀ (s : State) (n : Nat) (c : Cmd) (st : Nat), halted s = false → readyCmd s n 0x40 = some c →
    ((tabGet s.eng.binders (fld c.entry 4 4) = none ∧ st = 0x0406) ∨
      ∃ x, tabGet s.eng.binders (fld c.entry 4 4) = some x ∧ x.owner ≠ c.tenant ∧ st = 0x0103) →
    let ends (t : State) : Prop := t = withDigests s (modQp c.qp (fun p => { p with wait := false }) (finishCmd n { status := st } s))
    (byteAt c.entry 1 = 0 → Completes (.binderAdd n) s ends) ∧ (byteAt c.entry 1 = 1 → Completes (.binderSet n) s ends) ∧
    (byteAt c.entry 1 = 2 → Completes (.binderWaitGe n) s ends) ∧ (byteAt c.entry 1 = 3 → Completes (.binderOpRead n) s ends)) ∧
  (∀ (s : State) (q : Nat) (p : Qp) (w : WaitGe) (x : Binder), halted s = false → tabGet s.hif.qps q = some p →
    p.waitGe = some w → w.deadline ≤ s.aon.uptime → tabGet s.eng.binders w.binder = some x →
    Completes (.waitGeTimeout q) s (fun t => (qpOf t q).waitGe = none ∧ (qpOf t q).wait = false ∧ t.eng = s.eng ∧
      (p.qstate = .enabled → p.staged = [] → canDrain s q = true →
        t.hif.out = s.hif.out ++ [⟨p.tenant, fld p.ctx 0x10 8 + 32 * p.cqTail,
          complBytes { cid := w.cid, status := 0x0407, epoch := x.value } p.sqHead p.phase, false⟩])))) ∧
  (∀ (s : State) (n : Nat) (desc payload : Bytes) (c : Cmd) (as : List Action) (h : Nat) (s1 : State), halted s = false →
    readyCmd s n 0x41 = some c →
    let d := slice desc 0 (fld c.entry 0x10 4)
    let pl := slice payload 0 (fld c.entry 0x14 4)
    let s0 := recordData c.qp c.cid (d ++ pl) false s
    64 + 32 * byteAt d 0 = fld c.entry 0x10 4 → parseHusk s0 false c.tenant d pl = .ok as →
    huskRefusal s0 c.tenant (if (byteAt d 1).testBit 0 then some (fld d 4 4) else none) = none →
    stagePayload c.tenant pl s0 = some (h, s1) →
    Completes (.husk n desc payload) s (fun t =>
      FormsHusk c.tenant (some n) none as s t ∧ (∃ c', cmdOf t n = some c' ∧ c'.ran = true ∧ c'.result = none) ∧
      (∃ x, tabGet t.eng.husks s.eng.nextHusk = some x ∧ x.staging = h ∧
        x.binder = if (byteAt d 1).testBit 0 then some (binderOf s (fld d 4 4)) else none)))

/-- OBJECT COMMANDS (R236, R240, R248): ALLOC completes with the handle of a new object of the class, size, tier, place, format and
attributes of its entry, that holds the host's bytes and then zeros; PIN and UNPIN count host pins; READ returns the bytes as readers
find them, with POISON where data is lost, and takes a pin until it has ended; FREE makes the object FREEING, ends what waits on it and
completes later; a handle that is stale or another tenant's ends each of the last four. -/
def Obligations.ObjectCommandsAllocPinReadFree : Prop :=
  (∀ (s : State) (n : Nat) (data : Bytes) (c : Cmd) (s1 : State) (h : Nat) (s2 : State), halted s = false →
    readyCmd s n 0x50 = some c → firstBad (allocChecks c.tenant c.entry) = none →
    let e := c.entry
    let loc := byteAt e 5 == 1 && decide (32768 ≤ fld e 6 2)
    let place := if loc then placeCode s 1 (fld e 6 2) % 512 else 0
    let o : ObjRec := {
      size := fld e 0x10 8, home := byteAt e 5, format := fld e 0x18 4, checkpoint := (byteAt e 1).testBit 0
      protected_ := (byteAt e 1).testBit 1, chanLocal := loc, place := place, writtenEpoch := s.eng.epoch
      mem := memWrite [] 0 (slice data 0 (fld e 0x1C 4)) }
    (o.protected_ = true → (tabGet s.fls.xts c.tenant).isSome = true) → (loc = true → o.size ≤ 2 ^ 30) →
    requestSpace c.tenant o.home (homeCharge o) true (byteAt e 4 == 5) 0 (if loc then some place else none) (accrue s) = some s1 →
    addObject c.tenant (byteAt e 4) o s1 = some (h, s2) → (o.home = 2 → flashRoom s o 2 = true) →
    (o.home = 4 → t4Status s2 (hIndex h) = 0 → Completes (.alloc n data) s (fun t =>
      t = withDigests s (t4Whole (.alloc n) (hIndex h) true (modCmd n (fun c => { c with ran := true })
        (headerChange 4 (recordData c.qp c.cid (slice data 0 (fld e 0x1C 4)) false s2)))) ∧
      ((∀ i ∈ s.obj.freed, i < 2 ^ 34) → tabGet t.obj.recs (hIndex h) = some { o with handle := h }))) ∧
    (o.home ≠ 4 → Completes (.alloc n data) s (fun t =>
      t = withDigests s (finishCmd n { status := 0, word := some h }
        (writeHome (hIndex h) o.home false (pagesOf 0 (fld e 0x1C 4))
          (headerChange o.home (recordData c.qp c.cid (slice data 0 (fld e 0x1C 4)) false s2)))) ∧
      (c.pins = [] → (∀ i ∈ s.obj.freed, i < 2 ^ 34) → tabGet t.obj.recs (hIndex h) = some { o with handle := h })))) ∧
  (∀ (s : State) (n : Nat) (c : Cmd) (o : ObjRec), halted s = false → readyCmd s n 0x53 = some c →
    handleStatus s c.tenant (fld c.entry 8 8) = none → objOf s (fld c.entry 8 8) = some o → o.hostPins < 65535 →
    (o.hostPins = 0 → o.st ≠ .absent →
      tenantFixed s c.tenant o.upper + o.size ≤ (genShare (gen s) c.tenant o.upper).1) →
    Completes (.pin n) s (fun t =>
      t = withDigests s (finishCmd n { status := 0 } (modObj (hIndex (fld c.entry 8 8))
        (fun o => { o with hostPins := o.hostPins + 1 }) (cancelEvict (hIndex (fld c.entry 8 8)) s))) ∧
      ∃ o', tabGet t.obj.recs (hIndex (fld c.entry 8 8)) = some o' ∧ o'.hostPins = o.hostPins + 1)) ∧
  (∀ (s : State) (n : Nat) (c : Cmd) (o : ObjRec), halted s = false → readyCmd s n 0x54 = some c →
    handleStatus s c.tenant (fld c.entry 8 8) = none → objOf s (fld c.entry 8 8) = some o → 0 < o.hostPins →
    Completes (.unpin n) s (fun t =>
      t = withDigests s (finishCmd n { status := 0 }
        (modObj (hIndex (fld c.entry 8 8)) (fun o => maybeEvict { o with hostPins := o.hostPins - 1 }) s)) ∧
      ∃ o', tabGet t.obj.recs (hIndex (fld c.entry 8 8)) = some o' ∧ o'.hostPins = o.hostPins - 1)) ∧
  (∀ (s : State) (n : Nat) (c : Cmd) (o : ObjRec), halted s = false → readyCmd s n 0x55 = some c →
    handleStatus s c.tenant (fld c.entry 8 8) = none → objOf s (fld c.entry 8 8) = some o →
    fld c.entry 0x10 8 + fld c.entry 0x1C 4 ≤ o.size →
    let off := fld c.entry 0x10 8
    let len := fld c.entry 0x1C 4
    let pinned := pinObj (hIndex (fld c.entry 8 8)) s
    let s1 := bucketCharge 2 (hTenant o.handle) (if servingTier o = 2 ∨ servingTier o = 3 then len else 0)
      (modCmd n (fun c => { c with pins := c.pins ++ [pinned.1] }) pinned.2)
    (servingTier o ≠ 4 → Completes (.read n) s (fun t => cmdOf t n = none ∧ SameBytes s t ∧
      t = withDigests s (finishCmd n {
        status := if objPoisoned s1 (fld c.entry 8 8) off len then 0x0701 else 0, bytes := objImage s1 (fld c.entry 8 8) off len
        addr := fld c.entry 0x20 8 } s1))) ∧
    (servingTier o = 4 → t4Status s1 (hIndex (fld c.entry 8 8)) = 0 → Completes (.read n) s (fun t => SameBytes s t ∧
      (∃ c', cmdOf t n = some c' ∧ c'.ran = true) ∧
      (poolRoom s1 1048576 = true → t4For t (hIndex (fld c.entry 8 8)) (.read n) = true)))) ∧
  (∀ (s : State) (n : Nat) (c : Cmd) (o : ObjRec), halted s = false → readyCmd s n 0x51 = some c →
    handleStatus s c.tenant (fld c.entry 8 8) = none → objOf s (fld c.entry 8 8) = some o → tableBound s o.handle = false →
    Completes (.free n) s (fun t =>
      (∃ o', tabGet t.obj.recs (hIndex (fld c.entry 8 8)) = some o' ∧ o'.st = .freeing ∧ o'.hostPins = 0 ∧
        o'.freeCmd = some n ∧ o'.waiters = [] ∧ o'.rehome = none) ∧ SameBytes s t)) ∧
  (∀ (s : State) (n : Nat) (c : Cmd) (st : Nat), halted s = false → handleStatus s c.tenant (fld c.entry 8 8) = some st →
    let ends (t : State) : Prop := t = withDigests s (failCmd n st (refuseHandle c.tenant st s))
    (readyCmd s n 0x51 = some c → Completes (.free n) s ends) ∧ (readyCmd s n 0x53 = some c → Completes (.pin n) s ends) ∧
    (readyCmd s n 0x54 = some c → Completes (.unpin n) s ends) ∧ (readyCmd s n 0x55 = some c → Completes (.read n) s ends))

/-- COMPLETING A COMMAND (R57, R103, R220, R251): the completion of a command whose queue waits for nothing and has room
is written, after its result data, and the command has left the node with its drain count and its range locks released. The result data
is written whole, with EP set where all of it is lost (R317, R324). -/
def Obligations.FinishingWritesOneCompletion : Prop :=
  (∀ (s : State) (n : Nat) (c : Cmd) (p : Qp) (r : Result), halted s = false → cmdOf s n = some c → c.suppressed = false →
    tabGet s.hif.qps c.qp = some p → p.qstate = .enabled → p.staged = [] → p.deleting = false → canDrain s c.qp = true →
    (∀ w ∈ resultWrites p.tenant r, w.bytes ≠ []) →
    (finishCmd n r s).hif.out = s.hif.out ++ resultWrites p.tenant r ++
      [⟨p.tenant, fld p.ctx 0x10 8 + 32 * p.cqTail, complBytes {
        cid := c.cid, status := r.status, epoch := r.word.getD (c.epoch.getD 0), count := r.count, detail := r.detail,
        fieldIn := r.fieldIn, fieldOffset := r.fieldOffset } p.sqHead p.phase, false⟩] ∧
    cmdOf (finishCmd n r s) n = none ∧
    (∀ l ∈ (finishCmd n r s).eng.locks, ¬(l.husk = false ∧ l.id = n)) ∧
    (∀ e k, c.epoch = some e → tabGet s.eng.drain e = some k → tabGet (finishCmd n r s).eng.drain e = some (k - 1)) ∧
    (qpOf (finishCmd n r s) c.qp).cqTail = (p.cqTail + 1) % fld p.ctx 0x1C 4) ∧
  (∀ (fn : Nat) (r : Result), r.bytes = [] → resultWrites fn r = []) ∧
  (∀ (fn : Nat) (r : Result), r.bytes ≠ [] → r.lost = [] → resultWrites fn r = [⟨fn, r.addr, r.bytes, r.status == 0x0701⟩]) ∧
  (∀ (fn : Nat) (r : Result) (lo n : Nat), r.lost = [(lo, n)] → 0 < lo → lo + n < r.bytes.length →
    resultWrites fn r = [⟨fn, r.addr, slice r.bytes 0 lo, false⟩, ⟨fn, r.addr + lo, slice r.bytes lo n, true⟩,
      ⟨fn, r.addr + (lo + n), r.bytes.drop (lo + n), false⟩])

/-- QUEUE COMMANDS (R312, R320, R334): CREATE enables a DISABLED queue of its tenant with the context given, DELETE
disables one with no command left, RESET returns ERROR and TIMED_OUT to DISABLED, discarding what is staged. TIME AND
POWER (R17, R325, R430): TIME_POST logs the pair and answers with boot count and uptime; POWER_SET enters P1 at once,
starts the way to P2 and P3 while no unit of the window is mapped, and starts the way out of them. -/
def Obligations.QueuesTimeAndPowerAreCommanded : Prop :=
  ((∀ (s : State) (box : Nat) (m : Bytes) (p : Qp), Serves s box 0x0110 m →
    tabGet s.hif.qps (fld m 0x20 2) = some p → p.tenant = zTenant m → p.qstate = .disabled →
    firstBad (contextReserved (slice m 0x20 64)) = none → firstBad (contextRanges s (zTenant m) (slice m 0x20 64)) = none →
    Completes (.queueCreate box) s (fun t => Answers box 0 0 [] s t ∧
      tabGet t.hif.qps (fld m 0x20 2) = some { tenant := p.tenant, ctx := slice m 0x20 64, qstate := .enabled } ∧
      OnlyQp (fld m 0x20 2) s t ∧ OnlyMbx box s t ∧ Frame [.hif, .stew] s t)) ∧
  (∀ (s : State) (box : Nat) (m : Bytes) (p : Qp), Serves s box 0x0111 m → fld m 0x20 2 < 4096 →
    tabGet s.hif.qps (fld m 0x20 2) = some p → p.tenant = zTenant m →
    (p.qstate = .disabled → Completes (.queueDelete box) s (fun t => Answers box 0 0 [] s t ∧ Frame [.stew] s t)) ∧
    (p.qstate ≠ .disabled → p.staged = [] → p.waitGe = none → (∀ c ∈ s.hif.cmds, c.2.qp ≠ fld m 0x20 2) →
      Completes (.queueDelete box) s (fun t =>
        tabGet t.hif.qps (fld m 0x20 2) = some { p with qstate := .disabled, deleting := false, fetched := [], wait := false } ∧
        OnlyQp (fld m 0x20 2) s t ∧ Frame [.hif, .stew] s t)) ∧
    (p.qstate ≠ .disabled → ((∃ c ∈ s.hif.cmds, c.2.qp = fld m 0x20 2) ∨ p.staged ≠ [] ∨ p.waitGe ≠ none) →
      Completes (.queueDelete box) s (fun t =>
        tabGet t.hif.qps (fld m 0x20 2) = some { p with deleting := true, fetched := [], wait := false } ∧
        OnlyQp (fld m 0x20 2) s t ∧ Frame [.hif] s t))) ∧
  (∀ (s : State) (box : Nat) (m : Bytes) (p : Qp), Serves s box 0x0112 m → fld m 0x20 2 < 4096 →
    tabGet s.hif.qps (fld m 0x20 2) = some p → p.tenant = zTenant m → p.qstate ≠ .enabled →
    Completes (.queueReset box) s (fun t => Answers box 0 0 [0] s t ∧
      (qpOf t (fld m 0x20 2)).qstate = .disabled ∧ (p.qstate ≠ .disabled → (qpOf t (fld m 0x20 2)).staged = []) ∧
      (∀ j, j ≠ fld m 0x20 2 → tabGet t.hif.qps j = tabGet s.hif.qps j) ∧ t.hif.out = s.hif.out))) ∧
  ((∀ (s : State) (box : Nat) (m : Bytes), Serves s box 0x0115 m → s.stew.rom = false →
    Completes (.timePost box) s (fun t =>
      Answers box 0 0 (toLe 4 s.stew.boot ++ zeros 4 ++ toLe 8 s.aon.uptime) s t ∧
      t.rel = { s.rel with logq := s.rel.logq ++ [{
        boot := s.stew.boot, code := Config.logCode Log.timePost, source := 1, severity := 0, uptime := s.aon.uptime,
        body := slice (slice m 0x20 16) 0 36 }] } ∧
      OnlyMbx box s t ∧ Frame [.stew, .rel] s t)) ∧
  (∀ (s : State) (box : Nat) (m : Bytes), Serves s box 0x0115 m → s.stew.rom = true →
    Completes (.timePost box) s (fun t =>
      Answers box 0 0 (toLe 4 s.stew.boot ++ zeros 4 ++ toLe 8 s.aon.uptime) s t ∧
      t.stew = { s.stew with mbx := t.stew.mbx, heldPost := some (slice m 0x20 16) } ∧ Frame [.stew] s t)) ∧
  (∀ (s : State) (box : Nat) (m : Bytes), Serves s box 0x0801 m → s.stew.goal = none → s.stew.exiting = false →
    s.stew.pwReq = none → s.stew.wake = false → byteAt m 0x20 ≤ 3 →
    (byteAt m 0x20 = s.stew.pstate → (2 ≤ s.stew.pstate → s.hif.window = []) →
      Completes (.powerSet box) s (fun t => Answers box 0 0 [] s t ∧ OnlyMbx box s t ∧ Frame [.stew] s t)) ∧
    (byteAt m 0x20 = 1 → s.stew.pstate = 0 → Completes (.powerSet box) s (fun t =>
      Answers box 0 0 [] s t ∧ t.stew.pstate = 1 ∧ Frame [.stew] s t)) ∧
    (2 ≤ byteAt m 0x20 → s.hif.window ≠ [] → Completes (.powerSet box) s (fun t =>
      Answers box 0x0206 0 [] s t ∧ t.stew.pstate = s.stew.pstate ∧ t.stew.goal = none ∧ Frame [.stew] s t)) ∧
    (2 ≤ byteAt m 0x20 → s.hif.window = [] → s.stew.pstate = 0 → Completes (.powerSet box) s (fun t =>
      t.stew = { s.stew with goal := some (byteAt m 0x20), pwStep := 0, pwReq := some box } ∧ Frame [.stew] s t)) ∧
    (byteAt m 0x20 = 0 → s.stew.pstate ≠ 0 → Completes (.powerSet box) s (fun t =>
      t.stew = { s.stew with wake := true, pwReq := some box } ∧ Frame [.stew] s t)) ∧
    (byteAt m 0x20 ≠ 0 → byteAt m 0x20 ≠ s.stew.pstate → s.stew.pstate ≠ 0 → (2 ≤ byteAt m 0x20 → s.hif.window = []) →
      Completes (.powerSet box) s (fun t => t.stew = { s.stew with wake := true } ∧ Frame [.stew] s t))))

/-- VECTOR COMMANDS (R322, R334): BIND gives an unbound table entry a free slot, the lowest where none is named; UNBIND
frees the slot of an entry that no enabled queue names; both answer with the slot. THE MEMORY WINDOW (R323, R334): MAP
lays an object RESIDENT in T1 into the window's units, each with its offset; UNMAP takes the units out; other units keep
their mapping, and no byte of an object changes. -/
def Obligations.VectorSlotsAndWindowUnitsAreBound : Prop :=
  ((∀ (s : State) (box : Nat) (m : Bytes) (k : Nat), Serves s box 0x0113 m → byteAt m 0x26 = 0 →
    firstBad (vecChecks m) = none → vecSlot s (vecFn m) (vecEnt m) = none →
    ((fld m 0x20 2 = k ∧ k ≠ 0xFFFF ∧ slotFree s k = true) ∨
      (fld m 0x20 2 = 0xFFFF ∧ k < 2048 ∧ slotFree s k = true ∧ ∀ j < k, slotFree s j = false)) →
    Completes (.vectorBind box) s (fun t => Answers box 0 0 (toLe 2 k) s t ∧
      t.hif = { s.hif with vecs := tabSet s.hif.vecs k (some (vecFn m * 2048 + vecEnt m)) } ∧ Frame [.hif, .stew] s t)) ∧
  (∀ (s : State) (box : Nat) (m : Bytes) (k : Nat), Serves s box 0x0113 m → byteAt m 0x26 = 1 →
    firstBad (vecChecks m) = none → vecSlot s (vecFn m) (vecEnt m) = some k → (fld m 0x20 2 = 0xFFFF ∨ fld m 0x20 2 = k) →
    vecEnt m ≠ 0 →
    (∀ p ∈ s.hif.qps, ¬(p.2.qstate = .enabled ∧ p.2.tenant = vecFn m ∧ fld p.2.ctx 4 2 = vecEnt m)) →
    Completes (.vectorUnbind box) s (fun t => Answers box 0 0 (toLe 2 k) s t ∧
      t.hif = { s.hif with
        vecs := tabSet s.hif.vecs k none, vecPend := s.hif.vecPend.filter (· != vecFn m * 2048 + vecEnt m) } ∧
      Frame [.hif, .stew] s t))) ∧
  ((∀ (s : State) (box : Nat) (m : Bytes) (o : ObjRec), Serves s box 0x0114 m → byteAt m 0x38 = 0 →
    firstBad (windowChecks s m) = none → fld m 0x30 8 % 2 ^ 21 = 0 → staleHandle s (fld m 0x28 8) = false →
    objOf s (fld m 0x28 8) = some o → dataBound s (fld m 0x28 8) = false → residentT1 o = true → o.protected_ = false →
    fld m 0x30 8 + fld m 0x24 4 * 2 ^ 21 ≤ o.size →
    Completes (.windowMap box) s (fun t => Answers box 0 0 [] s t ∧
      (∀ u, tabGet t.hif.window u = if fld m 0x20 4 ≤ u ∧ u < fld m 0x20 4 + fld m 0x24 4
        then some (fld m 0x28 8, fld m 0x30 8 + (u - fld m 0x20 4) * 2 ^ 21) else tabGet s.hif.window u) ∧
      (o.st ≠ .evicting → o.waiters = [] →
        t.hif = { s.hif with window := t.hif.window } ∧ SameBytes s t ∧ Frame [.hif, .stew, .obj] s t))) ∧
  (∀ (s : State) (box : Nat) (m : Bytes), Serves s box 0x0114 m → byteAt m 0x38 = 1 →
    firstBad (windowChecks s m) = none → fld m 0x28 8 = 0 →
    Completes (.windowUnmap box) s (fun t => Answers box 0 0 [] s t ∧
      (∀ u, tabGet t.hif.window u = if fld m 0x20 4 ≤ u ∧ u < fld m 0x20 4 + fld m 0x24 4
        then none else tabGet s.hif.window u) ∧
      t.hif = { s.hif with window := t.hif.window } ∧ SameBytes s t ∧ Frame [.hif, .stew, .obj] s t)))

/-- GENERATIONS (R334, R443, R445): an image that passes the checks, and a rollback to the previous generation, form the
CONFIG husk and make that generation the pending one; GEN_READ writes the whole image asked for. STATISTICS (R64, R86):
the records asked for go to the host at a 128-byte stride, the answer holds their number, and CLEAR zeroes them after the
copy. -/
def Obligations.GenerationsAndStatisticsAnswer : Prop :=
  ((∀ (s : State) (box : Nat) (image m : Bytes) (s1 : State), Serves s box 0x0201 m → s.stew.pendGen = none →
    48 ≤ fld m 0x28 4 → fld m 0x28 4 ≤ 2 ^ 26 →
    (let b := slice image 0 (fld m 0x28 4);
      imageWhole b (fld m 0x28 4) = true ∧ fld b 8 4 = fld m 0x30 4 ∧ fld b 0x0C 4 = (gen s).number ∧
      fld m 0x2C 4 = (gen s).number ∧ (gen s).number < fld m 0x30 4 ∧ imageFields b = none ∧
      generationBad (genOf (gen s) b) (zData m b s) = .ok s1 ∧ huskRefusal s1 0 none = none) →
    Completes (.genApply box image) s (fun t =>
      FormsHusk 0 none (some box) [{ kind := 7, target := fld m 0x30 4 }] s1 t ∧ t.stew.pendGen = some (genOf (gen s) (slice image 0 (fld m 0x28 4))))) ∧
  (∀ (s : State) (box : Nat) (m : Bytes) (g : Gen) (s1 : State), Serves s box 0x0202 m → s.stew.pendGen = none →
    fld m 0x20 4 = (gen s).number → s.stew.prev = some g → imageFields (genImage g) = none →
    generationBad g s = .ok s1 → huskRefusal s1 0 none = none →
    Completes (.rollback box) s (fun t =>
      FormsHusk 0 none (some box) [{ kind := 7, target := g.number }] s1 t ∧ t.stew.pendGen = some g)) ∧
  (∀ (s : State) (box : Nat) (m : Bytes) (g : Gen), Serves s box 0x0203 m →
    (byteAt m 0x20 = 0 ∧ g = gen s ∨ byteAt m 0x20 = 1 ∧ s.stew.prev = some g ∨ byteAt m 0x20 = 2 ∧ g = factoryGen) →
    ((genImage g).length ≤ fld m 0x30 4 → Completes (.genRead box) s (fun t =>
      Answers box 0 0 (toLe 4 g.number ++ toLe 4 (genImage g).length) s t ∧
      t.hif = { s.hif with out := s.hif.out ++ [⟨box, fld m 0x28 8, genImage g, false⟩] } ∧ OnlyMbx box s t ∧
      Frame [.hif, .stew] s t)) ∧
    (fld m 0x30 4 < (genImage g).length → Completes (.genRead box) s (fun t =>
      Answers box 0x0106 0 (toLe 4 g.number ++ toLe 4 (genImage g).length) s t ∧ OnlyMbx box s t ∧ Frame [.stew] s t)))) ∧
  ((∀ (s : State) (box : Nat) (m d : Bytes), Serves s box 0x0204 m → genSheaf (gen s) (fld m 0x20 2) = some d →
    shOwner d = zTenant m → (byteAt m 0x22 < shStages d ∨ byteAt m 0x22 = 0xFF) → byteAt m 0x23 ≤ 1 →
    statKeys d (byteAt m 0x22) ≠ [] → 128 * (statKeys d (byteAt m 0x22)).length ≤ fld m 0x30 4 →
    Completes (.sheafStats box) s (fun t =>
      Answers box 0 0 (toLe 4 (statKeys d (byteAt m 0x22)).length) s t ∧
      t.hif = { s.hif with out := s.hif.out ++ [⟨box, fld m 0x28 8,
        strided ((statKeys d (byteAt m 0x22)).map fun k =>
          statRecord s (fld m 0x20 2) k.1 k.2.2 (tabGetD s.shv.stats (stKey (fld m 0x20 2) k.1 k.2.1) {})), false⟩] } ∧
      t.shv = { s.shv with stats := t.shv.stats } ∧
      (byteAt m 0x23 = 0 → t.shv = s.shv) ∧
      (byteAt m 0x23 = 1 → ∀ j, tabGet t.shv.stats j =
        if ∃ k ∈ statKeys d (byteAt m 0x22), j = stKey (fld m 0x20 2) k.1 k.2.1 then none else tabGet s.shv.stats j) ∧
      OnlyMbx box s t ∧ Frame [.stew, .hif, .shv] s t)) ∧
  (∀ (s : State) (box : Nat) (m : Bytes) (rs : List CvRec), Serves s box 0x0205 m → byteAt m 0x28 ≤ 1 → byteAt m 0x29 ≤ 1 →
    cvtRights s (zTenant m) m = none →
    rs = cvtOrder (s.shv.cvt.filter fun r => r.tag == fld m 0x20 8 && r.tagKind == byteAt m 0x28) →
    128 * (rs.length + 1) ≤ fld m 0x38 4 →
    Completes (.convertStats box) s (fun t =>
      Answers box 0 0 (toLe 4 (rs.length + 1) ++ toLe 4 (cvtLostCount s)) s t ∧
      t.hif = { s.hif with out := s.hif.out ++ [⟨box, fld m 0x30 8,
        strided ((cvtCombined (fld m 0x20 8) (byteAt m 0x28) rs :: rs).map cvtRecord), false⟩] } ∧
      (byteAt m 0x29 = 0 → t.shv = s.shv) ∧
      (byteAt m 0x29 = 1 → t.shv.cvt.length = s.shv.cvt.length ∧ t.shv.cvtLost = s.shv.cvtLost ∧
        ∀ r ∈ t.shv.cvt, r.tag = fld m 0x20 8 → r.tagKind = byteAt m 0x28 → r.count = 0 ∧ r.sumSq = 0 ∧ r.maxerr = 0) ∧
      OnlyMbx box s t ∧ Frame [.stew, .hif, .shv] s t)))

/-- COLLECTION COMMANDS (R87, R88, R202, R334): create, change and delete each form a husk with one entry of the
collection table; COLLECTION_STATS answers with the epoch and the number of lists. -/
def Obligations.CollectionsAreCreatedChangedAndDeleted : Prop :=
  (∀ (s : State) (box : Nat) (m : Bytes), Serves s box 0x0301 m → collBusy s (fld m 0x20 2) = false →
    collAt s (fld m 0x20 2) s.eng.epoch = none → firstBad (collChecks (slice m 0x20 64)) = none →
    firstBad (collTiers s (slice m 0x20 64)) = none → zeroAt (slice m 0x20 64) 0x10 4 = true →
    (coOwner (slice m 0x20 64) = zTenant m ∨ zTenant m = 0) →
    (∀ h ∈ [coCentroids (slice m 0x20 64), coDirectory (slice m 0x20 64), coMap (slice m 0x20 64)],
      handleStatus s (coOwner (slice m 0x20 64)) h = none) →
    huskRefusal s (zTenant m) none = none →
    Completes (.collectionCreate box) s (fun t => Frame [.eng] s t ∧
      FormsHusk (zTenant m) none (some box) [{
        kind := 4, flags := 128, coll := fld m 0x20 2, arg := fld m 0x20 2, data := slice m 0x20 64, len := 64 }] s t)) ∧
  (∀ (s : State) (box : Nat) (m old : Bytes), Serves s box 0x0302 m → collBusy s (fld m 0x20 2) = false →
    collAt s (fld m 0x20 2) s.eng.epoch = some old → (coOwner old = zTenant m ∨ zTenant m = 0) →
    firstBad (collChecks (slice m 0x20 64)) = none → firstBad (changeChecks old (slice m 0x20 64)) = none →
    huskRefusal s (zTenant m) none = none →
    Completes (.collectionChange box) s (fun t => Frame [.eng] s t ∧
      FormsHusk (zTenant m) none (some box) [{
        kind := 4, flags := 128, coll := fld m 0x20 2, arg := fld m 0x20 2, data := slice m 0x20 64, len := 64 }] s t)) ∧
  (∀ (s : State) (box : Nat) (m old : Bytes), Serves s box 0x0303 m → collBusy s (fld m 0x20 2) = false →
    collAt s (fld m 0x20 2) s.eng.epoch = some old → (coOwner old = zTenant m ∨ zTenant m = 0) →
    huskRefusal s (zTenant m) none = none →
    Completes (.collectionDelete box) s (fun t => Frame [.eng] s t ∧
      FormsHusk (zTenant m) none (some box) [{
        kind := 4, flags := 128, coll := fld m 0x20 2, arg := fld m 0x20 2 }] s t)) ∧
  (∀ (s : State) (box : Nat) (m d : Bytes), Serves s box 0x0304 m → collAt s (fld m 0x20 2) s.eng.epoch = some d →
    (coOwner d = zTenant m ∨ zTenant m = 0) →
    Completes (.collectionStats box) s (fun t => OnlyMbx box s t ∧ Frame [.stew] s t ∧
      ∃ body, Answers box 0 0 body s t ∧ body.length = 64 ∧ fld body 0 8 = s.eng.epoch % 2 ^ 64 ∧
        fld body 0x10 4 = (liveIds s d).length % 2 ^ 32))

/-- REBUILDS (R109, R165, R224, R336): a rebuild that passes its checks is queued under the next ID, which the answer
holds; a merge keeps the lower list ID. -/
def Obligations.RebuildsAreQueuedAndNumbered : Prop :=
  (∀ (s : State) (box : Nat) (m d : Bytes), Serves s box 0x0305 m → fld m 0x20 8 < 65536 →
    collAt s (fld m 0x20 8) s.eng.epoch = some d → (coOwner d = zTenant m ∨ zTenant m = 0) →
    tabGet s.idx.rebuilds s.idx.nextRebuild = none →
    (byteAt m 0x28 = 0 → localList s d (fld m 0x2C 4) = true → Completes (.rebuildSweep box) s (fun t =>
      Answers box 0 0 (toLe 4 s.idx.nextRebuild) s t ∧ Frame [.stew, .idx] s t ∧
      QueuesRebuild { kind := 0, coll := fld m 0x20 8, list := fld m 0x2C 4, mbx := some box, seq := fld m 4 2 } s t)) ∧
    (byteAt m 0x28 = 1 → localList s d (fld m 0x2C 4) = true → Completes (.rebuildSplit box) s (fun t =>
      Answers box 0 0 (toLe 4 s.idx.nextRebuild) s t ∧ Frame [.stew, .idx] s t ∧
      QueuesRebuild { kind := 1, coll := fld m 0x20 8, list := fld m 0x2C 4, mbx := some box, seq := fld m 4 2 } s t)) ∧
    (byteAt m 0x28 = 2 → localList s d (fld m 0x2C 4) = true → localList s d (fld m 0x30 4) = true →
      fld m 0x2C 4 ≠ fld m 0x30 4 → Completes (.rebuildMerge box) s (fun t =>
      Answers box 0 0 (toLe 4 s.idx.nextRebuild) s t ∧ Frame [.stew, .idx] s t ∧
      QueuesRebuild {
        kind := 2, coll := fld m 0x20 8, list := min (fld m 0x2C 4) (fld m 0x30 4),
        list2 := max (fld m 0x2C 4) (fld m 0x30 4), mbx := some box, seq := fld m 4 2 } s t)) ∧
    (byteAt m 0x28 = 3 → Completes (.rebuildRetrain box) s (fun t =>
      Answers box 0 0 (toLe 4 s.idx.nextRebuild) s t ∧ Frame [.stew, .idx] s t ∧
      QueuesRebuild { kind := 3, coll := fld m 0x20 8, mbx := some box, seq := fld m 4 2 } s t))) ∧
  (∀ (s : State) (box : Nat) (m : Bytes) (o : ObjRec), Serves s box 0x0305 m → byteAt m 0x28 = 4 →
    handleStatus s (zTenant m) (fld m 0x20 8) = none → objOf s (fld m 0x20 8) = some o →
    tableKind s (fld m 0x20 8) = 2 → mhKind (emHeader s (fld m 0x20 8) s.eng.epoch) = 1 →
    1 ≤ fld m 0x38 8 → fld m 0x38 8 ≤ 2 ^ 40 →
    (byteAt m 0x48 = 1 ∨ byteAt m 0x48 = 2 ∧ 2 ^ Nat.log2 (fld m 0x38 8) = fld m 0x38 8 ∧ fld m 0x40 8 % 2 = 1) →
    tabGet s.idx.rebuilds s.idx.nextRebuild = none →
    Completes (.rebuildRehash box) s (fun t =>
      Answers box 0 0 (toLe 4 s.idx.nextRebuild) s t ∧ Frame [.stew, .idx] s t ∧
      QueuesRebuild {
        kind := 4, coll := fld m 0x20 8, rows := fld m 0x38 8, seed := fld m 0x40 8, hash := byteAt m 0x48,
        mbx := some box, seq := fld m 4 2 } s t))

/-- TABLES AND HUSKS THROUGH A MAILBOX (R198, R203, R334): TABLE_WRITE forms a husk with one TABLE_ENTRY action per entry,
its data the entry's bytes; ZALPOL_HUSK forms the husk of its descriptor, its payload in staging. METERS AND RECOVERY
(R250, R339, R394, R425): METER_READ answers with boot count, uptime and the tenant's ten meters; RECOVER starts an
unfinished recovery again from phase 1, and leaves FAULT for STANDBY once no cause is present; RECOVERY_STATUS answers
with the phase. -/
def Obligations.MailboxHusksMetersAndRecovery : Prop :=
  ((∀ (s : State) (box : Nat) (data m : Bytes), Serves s box 0x0310 m → fld m 0x20 8 ≠ 0 →
    1 ≤ fld m 0x30 2 → fld m 0x30 2 ≤ 64 → 1 ≤ fld m 0x34 4 → fld m 0x34 4 ≤ 1048576 →
    (fld m 0x28 8 = headerIndex → fld m 0x30 2 = 1) → huskRefusal s (zTenant m) none = none →
    Completes (.tableWrite box data) s (fun t => Frame [.eng, .recd] s t ∧
      FormsHusk (zTenant m) none (some box) ((List.range (fld m 0x30 2)).map fun i => {
        kind := 4, flags := if fld m 0x28 8 = headerIndex then 4 else 0, target := fld m 0x20 8,
        arg := if fld m 0x28 8 = headerIndex then 0 else fld m 0x28 8 + i, src := i * fld m 0x34 4,
        data := slice (slice data 0 (fld m 0x30 2 * fld m 0x34 4)) (i * fld m 0x34 4) (fld m 0x34 4),
        len := fld m 0x34 4 }) s t)) ∧
  (∀ (s : State) (box : Nat) (desc payload m : Bytes) (as : List Action) (ix : Nat) (s1 : State), Serves s box 0x0311 m →
    fld m 0x2C 4 ≤ 1048576 →
    let d := slice desc 0 (fld m 0x28 4)
    let pl := slice payload 0 (fld m 0x2C 4)
    let s0 := zData m (d ++ pl) s
    64 + 32 * byteAt d 0 = fld m 0x28 4 → parseHusk s0 true (zTenant m) d pl = .ok as →
    huskRefusal s0 (fld d 2 2) (if (byteAt d 1).testBit 0 then some (fld d 4 4) else none) = none →
    stagePayload (fld d 2 2) pl s0 = some (ix, s1) →
    Completes (.zalpolHusk box desc payload) s (fun t =>
      FormsHusk (fld d 2 2) none (some box) as s t ∧ ∃ x, tabGet t.eng.husks s.eng.nextHusk = some x ∧ x.staging = ix ∧
        x.binder = if (byteAt d 1).testBit 0 then some (binderOf s (fld d 4 4)) else none))) ∧
  ((∀ (s : State) (box : Nat) (m : Bytes), Serves s box 0x0601 m →
    Completes (.meterRead box) s (fun t => OnlyMbx box s t ∧ SameBytes s t ∧ Frame [.stew, .obj] s t ∧
      Answers box 0 0 (toLe 4 s.stew.boot ++ zeros 4 ++ toLe 8 s.aon.uptime ++ (metersOut t (zTenant m)).flatMap (toLe 8)) s t)) ∧
  (∀ (s : State) (box : Nat) (m : Bytes), Serves s box 0x0701 m → byteAt m 0x20 = 0 →
    Completes (.recoverRestart box) s (fun t => Answers box 0 0 (toLe 1 (nodeStateCode s.stew.st)) s t ∧
      t.stew.phase = (if s.stew.phase = 6 then 6 else 1) ∧
      t.stew.restarts = (if s.stew.phase = 6 then s.stew.restarts else s.stew.restarts + 1) ∧ Frame [.stew] s t)) ∧
  (∀ (s : State) (box : Nat) (m : Bytes), Serves s box 0x0701 m → byteAt m 0x20 = 1 →
    (s.stew.st = .standby ∨ s.stew.st = .fault ∧ s.aon.faultPresent = 0#64 →
      Completes (.recoverLeaveFault box) s (fun t =>
        Answers box 0 0 (toLe 1 (nodeStateCode .standby)) s t ∧ t.stew.st = .standby ∧ Frame [.stew] s t)) ∧
    (s.stew.st ≠ .standby → (s.stew.st ≠ .fault ∨ s.aon.faultPresent ≠ 0#64) →
      Completes (.recoverLeaveFault box) s (fun t =>
        Answers box 0x0105 0 [] s t ∧ t.stew.st = s.stew.st ∧ Frame [.stew] s t))) ∧
  (∀ (s : State) (box : Nat) (m : Bytes), Serves s box 0x0702 m →
    Completes (.recoveryStatus box) s (fun t => OnlyMbx box s t ∧ Frame [.stew] s t ∧
      Answers box 0 0 (toLe 1 s.stew.phase ++ zeros 7 ++ toLe 8 s.stew.lastReplayed ++ toLe 8 s.eng.epoch ++
        toLe 4 s.stew.restarts) s t)))

/-- OBJECTS AND BINDERS THROUGH A MAILBOX (R225, R233, R249): OBJECT_QUERY answers with the header; OBJECT_TRANSFER gives
an object at rest to another tenant under the next generation of its index, its bytes as they were; BINDER_ALLOC gives the
lowest free number, BINDER_READ answers with the value, BINDER_FREE takes the binder and ends the waits on it. -/
def Obligations.ObjectsAndBindersThroughAMailbox : Prop :=
  (∀ (s : State) (box : Nat) (m : Bytes) (o : ObjRec), Serves s box 0x0320 m →
    handleStatus s (zTenant m) (fld m 0x20 8) = none → objOf s (fld m 0x20 8) = some o →
    Completes (.objectQuery box) s (fun t => Answers box 0 0 (objHeader s o) s t ∧ OnlyMbx box s t ∧ Frame [.stew] s t)) ∧
  (∀ (s : State) (box : Nat) (m : Bytes) (o : ObjRec), Serves s box 0x0321 m →
    handleStatus s (zTenant m) (fld m 0x20 8) = none → objOf s (fld m 0x20 8) = some o → mayTransfer s o = true →
    fld m 0x28 2 < 1024 →
    tenantFixed s (fld m 0x28 2) o.home + o.size ≤ (genShare (gen s) (fld m 0x28 2) o.home).1 →
    tenantIn s (fld m 0x28 2) o.home + o.size ≤ (genShare (gen s) (fld m 0x28 2) o.home).2 →
    Completes (.objectTransfer box) s (fun t =>
      (let h' := mkHandle (fld m 0x28 2) (hClass (fld m 0x20 8)) (hIndex (fld m 0x20 8)) (nextGeneration (hGen (fld m 0x20 8)));
        Answers box 0 0 (toLe 8 h') s t ∧
        ∃ o', tabGet t.obj.recs (hIndex (fld m 0x20 8)) = some o' ∧ o'.handle = h' ∧ o'.size = o.size ∧ o'.home = o.home) ∧
      SameBytes s t ∧ OnlyMbx box s t ∧ Frame [.stew, .obj] s t)) ∧
  (∀ (s : State) (box : Nat) (m : Bytes), Serves s box 0x0330 m → firstFree 0 s.eng.binders < 131072 →
    tabGet s.eng.binders (firstFree 0 s.eng.binders) = none →
    Completes (.binderAlloc box) s (fun t => Answers box 0 0 (toLe 4 (firstFree 0 s.eng.binders)) s t ∧
      t.eng = { s.eng with
        binderSeq := s.eng.binderSeq + 1,
        binders := tabSet s.eng.binders (firstFree 0 s.eng.binders) { owner := zTenant m, alloc := s.eng.binderSeq } } ∧
      OnlyMbx box s t ∧ Frame [.stew, .eng] s t)) ∧
  (∀ (s : State) (box : Nat) (m : Bytes) (x : Binder), fld m 0x20 4 < 131072 →
    tabGet s.eng.binders (fld m 0x20 4) = some x → x.owner = zTenant m →
    (Serves s box 0x0331 m → Completes (.binderFree box) s (fun t => Answers box 0 0 [] s t ∧
      (∀ b, tabGet t.eng.binders b = if b = fld m 0x20 4 then none else tabGet s.eng.binders b) ∧
      (∀ q p w, tabGet s.hif.qps q = some p → p.waitGe = some w → w.binder = fld m 0x20 4 → (qpOf t q).waitGe = none))) ∧
    (Serves s box 0x0332 m → Completes (.binderRead box) s (fun t => OnlyMbx box s t ∧ Frame [.stew] s t ∧
      Answers box 0 0 (toLe 8 x.value ++ toLe 2 x.owner ++ toLe 1 (if x.saturated then 3 else 1) ++ [0] ++
        toLe 2 (waitersOf s (fld m 0x20 4)).length ++ zeros 2) s t)))

/-- MEDIA COMMANDS (R254 to R256, R271, R277, R334): a signed media table joins the loaded ones, the LUNs it matches
counted; FORMAT is accepted with its percentages and, once nothing runs, leaves empty media at epoch 1; the reports change
nothing. -/
def Obligations.MediaIsTabledFormattedAndReported : Prop :=
  (∀ (s : State) (box : Nat) (image m : Bytes), Serves s box 0x0402 m → 64 ≤ fld m 0x28 4 → fld m 0x28 4 ≤ 2 ^ 25 →
    (let b := slice image 0 (fld m 0x28 4);
      firstBad (mediaChecks b) = none → Config.mediaTableSigned b = true →
      Completes (.mediaTableLoad box image) s (fun t =>
        Answers box 0 0 (toLe 2 ((s.fls.chans.map fun c => (c.2.luns.filter fun l => lunMatches l.2 b).length).sum)) s t ∧
        t.fls.tables = s.fls.tables ++ [b] ∧
        (∀ ch, chanOf t ch = (chanOf s ch).map (admitChan (s.fls.tables ++ [b]))) ∧ OnlyMbx box s t ∧
        Frame [.stew, .fls, .recd] s t))) ∧
  (∀ (s : State) (box : Nat) (m : Bytes), Serves s box 0x0401 m → 3 ≤ byteAt m 0x20 → byteAt m 0x20 ≤ 20 → 4 ≤ byteAt m 0x21 →
    byteAt m 0x21 ≤ 28 → 16 ≤ fld m 0x22 2 → fld m 0x22 2 ≤ 256 → fld m 0x24 4 = 0x54414D52 → s.fls.formatting = none →
    (∀ q ∈ s.hif.qps, q.2.qstate ≠ .enabled) → s.hif.window = [] →
    Completes (.format box) s (fun t => Answers box 0 0 [] s t ∧ OnlyMbx box s t ∧ Frame [.stew, .fls] s t ∧
      t.fls = { s.fls with formatting := some (fld m 4 2, byteAt m 0x20, byteAt m 0x21, fld m 0x22 2) })) ∧
  (∀ (s : State) (seq slc spare j : Nat), halted s = false → s.fls.formatting = some (seq, slc, spare, j) → s.eng.husks = [] →
    s.hif.cmds = [] →
    Completes .formatComplete s (fun t =>
      t.eng.epoch = 1 ∧ t.eng.oldest = 1 ∧ t.eng.journal = [] ∧ t.idx.lists = [] ∧ t.idx.maps = [] ∧ t.idx.swaps = [] ∧
      (∀ v ∈ t.idx.vers, v.tag = 1 ∧ v.table ≠ 0) ∧
      t.fls.formatted = true ∧ t.fls.formatting = none ∧ t.fls.slcPct = slc ∧ t.fls.sparePct = spare ∧ t.fls.journalGb = j ∧
      t.fls.units = [] ∧ t.fls.spares = [] ∧ t.fls.saved = [] ∧ t.fls.mapLog = [] ∧ t.fls.mediaKey = Config.randomDraw s.fls.keyCtr ∧ t.fls.keyCtr = s.fls.keyCtr + 1 ∧
      (∀ i o, tabGet s.obj.recs i = some o → formatEnds o = true → o.handle ≠ steerHandle → o.handle ≠ forwardHandle →
        ¬(s.recd.active = true ∧ o.handle = s.obj.spillH) → tabGet t.obj.recs i = none))) ∧
  (∀ (s : State) (box : Nat) (m : Bytes) (c : Chan), Serves s box 0x0403 m → chanOf s (byteAt m 0x20) = some c →
    Completes (.channelStatus box) s (fun t => OnlyMbx box s t ∧ Frame [.stew] s t ∧
      ∃ body, Answers box 0 0 body s t ∧ body.length = 24 ∧ fld body 4 4 = c.rate % 2 ^ 32 ∧
        byteAt body 0 = (match c.st with | .inService => 0 | .draining => 1 | .retired => 2 | .admitting => 3))) ∧
  (∀ (s : State) (box : Nat) (m : Bytes), Serves s box 0x0406 m →
    (byteAt m 0x20 = 0 → Completes (.endurance box) s (fun t => OnlyMbx box s t ∧ Frame [.stew] s t ∧
      Answers box 0 0 (endurRecord s none s.fls.endur) s t)) ∧
    (byteAt m 0x20 = 1 → byteAt m 0x21 < 32 → byteAt m 0x22 < 4 → byteAt m 0x23 < 8 →
      (lunOf s (byteAt m 0x21) (byteAt m 0x22 * 8 + byteAt m 0x23)).isSome = true →
      Completes (.endurance box) s (fun t => OnlyMbx box s t ∧ Frame [.stew] s t ∧
        Answers box 0 0 (endurRecord s (some (byteAt m 0x21, byteAt m 0x22 * 8 + byteAt m 0x23))
          (tabGetD s.fls.lunEndur (blkField (byteAt m 0x21) (byteAt m 0x22 * 8 + byteAt m 0x23) 0) {})) s t)))

/-- CHANNELS (R254, R275, R276): a drain is accepted while the rest holds the data and more than 24 channels are in
service, ends RETIRED once no unit is left; a RETIRED channel is admitted again and returns to service with its new LUNs,
or stays RETIRED where no table matches; a lost channel is RETIRED and its units are poisoned. -/
def Obligations.ChannelsAreDrainedAdmittedAndLost : Prop :=
  (∀ (s : State) (box : Nat) (m : Bytes) (c : Chan) (ch : Nat), Serves s box 0x0404 m → ch = byteAt m 0x20 →
    chanOf s ch = some c → c.st = .inService →
    (let s' := modChan ch (fun c => { c with st := .draining, drainSeq := fld m 4 2 }) s;
      poolUsed s 2 none ≤ t2Cap s' ∧ poolUsed s 3 none ≤ t3Cap s') → 24 < (chansUp s).length →
    (∀ x ∈ s.fls.chans, x.2.st ≠ .draining) →
    Completes (.channelDrain box) s (fun t => Answers box 0 0 [] s t ∧
      chanOf t ch = some { c with st := .draining, drainSeq := fld m 4 2 } ∧ OnlyMbx box s t ∧ Frame [.stew, .fls] s t)) ∧
  (∀ (s : State) (ch : Nat) (c : Chan), halted s = false → chanOf s ch = some c → c.st = .draining → chanUnits s ch = [] →
    Completes (.channelDrainComplete ch) s (fun t =>
      chanOf t ch = some { c with st := .retired, reserve := 0 } ∧
      t.fls.endur.retiredChans = s.fls.endur.retiredChans + 1 ∧ t.fls.units = s.fls.units ∧ Frame [.stew, .fls, .rel] s t)) ∧
  (∀ (s : State) (box : Nat) (m : Bytes) (c : Chan), Serves s box 0x0405 m → chanOf s (byteAt m 0x20) = some c → c.st = .retired →
    Completes (.channelAdmit box) s (fun t => Answers box 0 0 [] s t ∧
      chanOf t (byteAt m 0x20) = some { c with st := .admitting, drainSeq := fld m 4 2 } ∧ OnlyMbx box s t ∧
      Frame [.stew, .fls] s t)) ∧
  (∀ (s : State) (ch rate : Nat) (luns : List LunId) (c : Chan), halted s = false → chanOf s ch = some c → c.st = .admitting →
    (let c' := admitChan s.fls.tables { c with luns := foundLuns ch luns, rate := min rate 3600, st := .inService, reserve := 67108864 };
      ((∃ l ∈ c'.luns, l.2.admitted = true) → Completes (.channelAdmitComplete ch rate luns) s (fun t =>
        chanOf t ch = some c' ∧ (s.fls.waitPages = [] → ∀ u ∈ t.fls.units, blkChan u.2.blk ≠ ch) ∧ Frame [.stew, .fls, .fab, .recd] s t)) ∧
      ((∀ l ∈ c'.luns, l.2.admitted = false) → Completes (.channelAdmitComplete ch rate luns) s (fun t =>
        chanOf t ch = some { c with st := .retired } ∧ t.fls.units = s.fls.units ∧ Frame [.stew, .fls] s t)))) ∧
  (∀ (s : State) (ch : Nat) (c : Chan), halted s = false → chanOf s ch = some c → c.st ≠ .retired →
    Completes (.channelLoss ch) s (fun t =>
      chanOf t ch = some { c with st := .retired, reserve := 0 } ∧
      ∀ k u, tabGet s.fls.units k = some u → blkChan u.blk = ch → unitLive s u = true →
        ∃ u', tabGet t.fls.units k = some u' ∧ u'.poisoned = true ∧ u'.blk = u.blk ∧ u'.page = u.page))

/-- READING FLASH (R260 to R264, R270): an outcome no step decodes poisons the unit and marks its block RELOCATE; any other
leaves the unit, decrypts it for its reader, and marks the block at the soft decode or above 0.6 × C; a replay reads what its recording
holds; temperatures and calibrations are kept. PATROLS
(R265, R266): a due block is patrolled with its time noted and its urgency gone; one due for a day more is promoted; the
priority sweep takes the blocks of the start before, oldest data first, and ends when none is left. -/
def Obligations.FlashIsReadAndPatrolled : Prop :=
  ((∀ (s : State) (unit decode corrected : Nat) (u : Machine.Unit), halted s = false → tabGet s.fls.units unit = some u →
    ageKnown s (blkOf s u.blk) = true → islandUp s (chanIsland (blkChan u.blk)) = true →
    let step := (replayRead (blkChan u.blk) decode s).1
    (s.recd.replaying = false → step = decode) ∧
    (10 < step → Completes (.flashReadComplete unit decode corrected) s (fun t =>
      tabGet t.fls.units unit = some { u with poisoned := true } ∧ (blkOf t u.blk).relocate = true)) ∧
    (step ≤ 10 → Completes (.flashReadComplete unit decode corrected) s (fun t =>
      t.fls.units = s.fls.units ∧ t.fls.readPlain = decryptUnit s (blkOf s u.blk).key unit u.data ∧
      Frame [.fls, .fab, .rel, .recd] s t ∧
      (blkOf t u.blk).relocate = ((blkOf s u.blk).relocate || decide (step = 10) ||
        decide (6 * mtCapability (blkTable s u.blk) < 10 * corrected))))) ∧
  (∀ (s : State) (ch lun : Nat) (l : Lun), halted s = false → lunOf s ch lun = some l →
    (∀ T, Completes (.lunTemperatureRead ch lun (some T)) s (fun t =>
      lunOf t ch lun = some { l with temp := T, tempAt := s.aon.uptime } ∧ Frame [.fls, .recd] s t)) ∧
    Completes (.lunTemperatureRead ch lun none) s (fun t => t = withDigests s s)) ∧
  (∀ (s : State) (blk : Nat) (counts : List Nat), halted s = false → ((blkOf s blk).mode = 1 ∨ (blkOf s blk).mode = 2) →
    ageKnown s (blkOf s blk) = false → counts.length = 7 →
    Completes (.blockCalibration blk counts) s (fun t =>
      blkOf t blk = { blkOf s blk with
        refBoot := s.stew.boot, refUp := s.aon.uptime, ageAtRef := ageEdges.getD (bestSet counts) 0, calibrated := true } ∧
      (∀ b, b ≠ blk → blkOf t b = blkOf s b) ∧ t.fls.units = s.fls.units ∧ Frame [.fls, .fab, .recd] s t))) ∧
  ((∀ (s : State) (blk : Nat) (reads : List UnitRead), halted s = false → patrolDue s (blkOf s blk) = true →
    ageKnown s (blkOf s blk) = true → mayStartOn s 8 0 blk (blkOf s blk).urgent = true → s.fls.sweeping = false →
    ((blkOf s blk).urgent = true ∨ ∀ p ∈ s.fls.blks, patrolDue s p.2 = true → (blkOf s blk).patUp ≤ p.2.patUp) →
    Completes (.gleanerPatrol blk reads) s (fun t =>
      (blkOf t blk).patBoot = s.stew.boot ∧ (blkOf t blk).patUp = s.aon.uptime ∧ (blkOf t blk).urgent = false ∧
      (s.recd.replaying = false → (∀ x ∈ reads, x.decode ≤ 10) → t.fls.units = s.fls.units ∧ t.obj = s.obj))) ∧
  (∀ (s : State) (blk : Nat), halted s = false → patrolDue s (blkOf s blk) = true → (blkOf s blk).urgent = false →
    (blkOf s blk).patUp + gleanerPeriod s + 86400 * 10 ^ 9 ≤ s.aon.uptime →
    Completes (.gleanerAgingPromotion blk) s (fun t =>
      blkOf t blk = { blkOf s blk with urgent := true } ∧ t.fls.agings = s.fls.agings + 1 ∧
      (∀ b, b ≠ blk → blkOf t b = blkOf s b) ∧ t.fls.units = s.fls.units)) ∧
  (∀ (s : State) (blk : Nat) (reads : List UnitRead), halted s = false → s.fls.sweeping = true →
    (sweepLeft s = [] → Completes (.prioritySweep blk reads) s (fun t => t.fls = { s.fls with sweeping := false } ∧ Frame [.fls] s t)) ∧
    ((∃ p ∈ sweepLeft s, p.1 = blk) → ageKnown s (blkOf s blk) = true → backgroundUp s = true →
      replayBegins s (chanIsland (blkChan blk)) (blkChan blk) 8 blk = true →
      (∀ p ∈ sweepLeft s, (blkOf s blk).progBoot < p.2.progBoot ∨
        (blkOf s blk).progBoot = p.2.progBoot ∧ (blkOf s blk).progUp ≤ p.2.progUp) →
      Completes (.prioritySweep blk reads) s (fun t =>
        (blkOf t blk).patBoot = s.stew.boot ∧ (blkOf t blk).patUp = s.aon.uptime ∧ (blkOf t blk).urgent = false))))

/-- MOVES (R257, R258, R264, R267, R269): folding, collection, relocation and levelling open the block their units go to
and release emptied blocks for erase; a unit's mapping switches only where it still points at the location read. -/
def Obligations.UnitsMoveBetweenBlocks : Prop :=
  (∀ (s : State) (srcs : List Nat) (blk : Nat), halted s = false → srcs ≠ [] → srcs.length = byteAt (blkTable s blk) 7 →
    (nub srcs).length = srcs.length →
    (∀ b ∈ srcs, (blkOf s b).mode = 1 ∧ (blkOf s b).use = 2 ∧ (blkOf s b).key = (blkOf s (srcs.headD 0)).key ∧
      (blkOf s b).eraseDue = false ∧ mtPages (blkTable s b) 1 ≤ (blkOf s b).pages) →
    blkFree s blk = true → inSlc s blk = false → foldStarts s srcs = true → mayStartOn s 0 4 blk s.fls.foldUrgent = true →
    Completes (.fold srcs blk) s (fun t =>
      (blkOf t blk).mode = 2 ∧ (blkOf t blk).use = 3 ∧ (blkOf t blk).key = (blkOf s (srcs.headD 0)).key ∧ (blkOf t blk).pages = 0 ∧
      (∀ b ∈ srcs, blkUnits s b = [] → (blkOf t b).eraseDue = true) ∧ t.fls.units = s.fls.units ∧ Frame [.fls, .fab, .recd] s t)) ∧
  (∀ (s s1 : State) (slc : Bool) (blk n : Nat), halted s = false → (blk, n) ∈ leastUnits s slc →
    (∀ q ∈ leastUnits s slc, n ≤ q.2) →
    mayStartOn s 1 4 blk (decide (regionFree s slc * 100 < 2 * regionBlocks s slc)) = true →
    takeBlock slc (blkOf s blk) s = some s1 →
    Completes (.garbageCollection slc blk) s (fun t =>
      (blkUnits s blk = [] → (blkOf t blk).mode ≠ 255 → (blkOf t blk).eraseDue = true) ∧ t.fls.units = s.fls.units ∧
      (∀ b, b ≠ blk → blkOf t b = blkOf s1 b) ∧ Frame [.fls, .fab, .recd] s t)) ∧
  (∀ (s : State) (blk dst : Nat) (bad : List Nat), halted s = false → (blkOf s blk).relocate = true →
    ((blkOf s blk).mode = 1 ∨ (blkOf s blk).mode = 2) → blkFree s dst = true → inSlc s dst = inSlc s blk →
    mayStartOn s 2 0 blk false = true →
    Completes (.relocation blk dst bad) s (fun t =>
      (blkOf t dst).mode = (blkOf s blk).mode ∧ (blkOf t dst).use = (blkOf s blk).use ∧ (blkOf t dst).key = (blkOf s blk).key ∧
      (bad = [] → blkUnits s blk = [] → (blkOf t blk).eraseDue = true) ∧
      ((∃ k ∈ bad, ∃ u, tabGet s.fls.units k = some u ∧ u.blk = blk) → (blkOf t blk).mode = 255))) ∧
  (∀ (s : State) (slc : Bool) (cb ob : Nat) (c o : Blk), halted s = false → (cb, c) ∈ s.fls.blks → (ob, o) ∈ s.fls.blks →
    tabGet s.fls.blks cb = some c → tabGet s.fls.blks ob = some o → inSlc s cb = slc → inSlc s ob = slc →
    blkInService s cb = true → programmed c = true → c.eraseDue = false → blkFree s ob = true →
    (∀ p ∈ s.fls.blks, inSlc s p.1 = slc → blkInService s p.1 = true → programmed p.2 = true → p.2.eraseDue = false →
      p ≠ (cb, c) → c.erases < p.2.erases) →
    (∀ p ∈ s.fls.blks, inSlc s p.1 = slc → blkFree s p.1 = true → p ≠ (ob, o) → p.2.erases < o.erases) →
    wearLimit s + c.erases < o.erases → mayStartOn s 3 3 cb false = true →
    Completes (.wearLevelling slc) s (fun t =>
      (blkOf t ob).mode = c.mode ∧ (blkOf t ob).use = c.use ∧ (blkOf t ob).key = c.key ∧
      (blkUnits s cb = [] → (blkOf t cb).eraseDue = true) ∧ t.fls.units = s.fls.units ∧ Frame [.fls, .fab, .recd] s t)) ∧
  (∀ (s : State) (unit : Nat) (mv : UnitMove) (u : Machine.Unit), halted s = false →
    ((blkOf s mv.toBlk).mode = 1 ∨ (blkOf s mv.toBlk).mode = 2) → (blkOf s mv.toBlk).eraseDue = false →
    mv.toPage < mtPages (blkTable s mv.toBlk) (blkOf s mv.toBlk).mode → (blkOf s mv.toBlk).key = (blkOf s mv.fromBlk).key →
    tabGet s.fls.units unit = some u → (mv.cause = 3 → mayDrain s mv.fromBlk = true) →
    Completes (.unitMoveProgrammed unit mv) s (fun t =>
      tabGet t.fls.units unit = some (if u.blk = mv.fromBlk ∧ u.page = mv.fromPage
        then { u with blk := mv.toBlk, page := mv.toPage, seq := s.fls.progSeq + 1 } else u) ∧
      (u.blk = mv.fromBlk → u.page = mv.fromPage →
        t.fls.readPlain = decryptUnit s (blkOf s mv.toBlk).key unit u.data ∧ t.fls.progSeq = s.fls.progSeq + 1) ∧
      (∀ k, k ≠ unit → tabGet t.fls.units k = tabGet s.fls.units k) ∧ SameBytes s t))

/-- ERASES, MAPPING AND FAILURES (R267, R268, R273, R274): a block due is erased, once more worn and out of the mapping,
when nothing reads it; a failed program or erase retires the block; the third busy timeout within an hour retires the LUN.
PACK (R282, R287 to R291, R293, R295): the request that waited longest takes an ordinary slot; blocks are coded and
decoded one at a time; a stream whose header is wrong poisons its object; a coded home switches to its new stream. -/
def Obligations.BlocksEraseFailAndPackSlotsCode : Prop :=
  ((∀ (s : State) (blk : Nat), halted s = false → (blkOf s blk).eraseDue = true → readsOn s blk = 0 → blkUnits s blk = [] →
    snapHolds s blk = false →
    Completes (.blockErase blk) s (fun t =>
      (s.fls.waitPages = [] → blkOf t blk = { erases := (blkOf s blk).erases + 1 } ∧ (∀ b, b ≠ blk → blkOf t b = blkOf s b) ∧
        (∀ k u, tabGet t.fls.units k = some u → u.blk ≠ blk)) ∧ Frame [.stew, .fls, .fab, .rel, .recd] s t)) ∧
  (∀ (s : State) (bytes : Nat), halted s = false →
    Completes (.mappingPageWrite bytes) s (fun t => t.fls.dirtyMap = s.fls.dirtyMap - bytes ∧
      t.fls.endur.programmed = s.fls.endur.programmed + min bytes s.fls.dirtyMap ∧ t.fls.units = s.fls.units ∧
      t.fls.saved = mapApply s.fls.saved (s.fls.mapLog.take (ceilDiv bytes 4096)) ∧
      t.fls.mapLog = s.fls.mapLog.drop (ceilDiv bytes 4096) ∧ Frame [.fls] s t)) ∧
  (∀ (s : State) (blk dst : Nat), halted s = false → ((blkOf s blk).mode = 1 ∨ (blkOf s blk).mode = 2) → (blkOf s blk).pages ≠ 0 →
    (blkFree s dst = true ∨ openFor s (blkOf s blk).mode (blkOf s blk).use (blkOf s blk).key = some dst) → blk ≠ dst →
    inSlc s dst = inSlc s blk →
    Completes (.programFailure blk dst) s (fun t => (blkOf t blk).mode = 255 ∧ SameBytes s t ∧
      ∀ k u, tabGet s.fls.units k = some u → u.blk = blk → u.page = (blkOf s blk).pages - 1 →
        (tabGet t.fls.units k).map Machine.Unit.blk = some dst)) ∧
  (∀ (s : State) (blk : Nat), halted s = false → (blkOf s blk).eraseDue = true → readsOn s blk = 0 →
    Completes (.eraseFailure blk) s (fun t => (blkOf t blk).mode = 255 ∧ t.fls.units = s.fls.units ∧ SameBytes s t)) ∧
  (∀ (s : State) (ch lun : Nat) (l : Lun), halted s = false → lunOf s ch lun = some l → l.retired = false → l.admitted = true →
    Completes (.lunBusyTimeout ch lun) s (fun t =>
      ∃ l', lunOf t ch lun = some l' ∧
        l'.busyAt = (s.aon.uptime :: l.busyAt).filter (fun x => decide (s.aon.uptime ≤ x + 3600 * 10 ^ 9)) ∧
        l'.retired = decide (3 ≤ l'.busyAt.length)))) ∧
  ((∀ (s : State) (p : Nat × PackReq) (k : Nat), halted s = false →
    s.fls.pack.find? (fun p => !p.2.privileged && p.2.slot.isNone) = some p → k < 8 → slotUsed s k = false →
    (∀ j < k, slotUsed s j = true) →
    Completes .packSlotGrant s (fun t => (packOf t p.1).map PackReq.slot = some (some k) ∧ t.fls.packLast = p.1 ∧
      (∀ n, n ≠ p.1 → packOf t n = packOf s n) ∧ Frame [.fls, .recd] s t)) ∧
  (∀ (s : State) (n k : Nat) (r : PackReq), halted s = false → packOf s n = some r → r.slot = some k → r.expand = false →
    r.blocks.length < packCount r.src.length →
    Completes (.packBlockEncode n) s (fun t => (∃ r', packOf t n = some r' ∧ r'.src = r.src ∧
      r'.blocks = r.blocks ++ [packBlock r.element (packTable r.element r.privileged r.src) r.blocks.length
        (packSrc r.src r.blocks.length)]) ∧ Frame [.fls] s t)) ∧
  (∀ (s : State) (n k : Nat) (r : PackReq), halted s = false → packOf s n = some r → r.slot = some k → r.expand = true →
    (pkGood r.src = false → Completes (.packBlockDecode n) s (fun t => packOf t n = none ∧
      ∀ o, tabGet s.obj.recs (r.obj.getD 0) = some o → ∃ o', tabGet t.obj.recs (r.obj.getD 0) = some o' ∧
        o'.poison = List.range (ceilDiv o.size 64) ∧ o'.mem = o.mem)) ∧
    (∀ b, pkGood r.src = true → packDecode (byteAt r.src 6) (pkLens r.src) r.blocks.length (pkBlock r.src r.blocks.length) = .bytes b →
      (r.blocks.length + 1 < pkBlocks r.src → Completes (.packBlockDecode n) s (fun t =>
        (∃ r', packOf t n = some r' ∧ r'.blocks = r.blocks ++ [b] ∧ r'.poisonBlocks = r.poisonBlocks) ∧ Frame [.fls] s t)) ∧
      (pkBlocks r.src ≤ r.blocks.length + 1 → Completes (.packBlockDecode n) s (fun t => packOf t n = none)))) ∧
  (∀ (s : State) (idx : Nat) (p : Nat × PackReq) (o : ObjRec), halted s = false →
    s.fls.pack.find? (fun p => p.2.obj == some idx && !p.2.expand) = some p → tabGet s.obj.recs idx = some o →
    p.2.slot.isSome = true → packCount p.2.src.length ≤ p.2.blocks.length → (o.home = 4 ∨ flashRoom s o o.home = true) →
    Completes (.checkpointStreamSwitch idx) s (fun t =>
      tabGet t.fls.ckpt idx = some (packStream p.2.element p.2.privileged p.2.src p.2.blocks) ∧
      (o.st ≠ .writingBack → packOf t p.1 = none ∧
        (o.pages = [] → (tabGet t.obj.recs idx).map ObjRec.dirty = some false)))))

/-- FRAMES RECEIVED (R341, R343, R345, R352, R353, R356, R361): PAUSE, VLAN and fragment frames and bad frames are counted; one from a quarantined peer is counted
and discarded; a message frame in turn and within its credit advances the sequence number and completes its message; a
HELLO frame of a closed entry takes the sender's boot and number. -/
def Obligations.FramesAreReceivedInTurn : Prop :=
  ∀ (s : State) (port n : Nat) (f : Bytes), halted s = false → s.fab.ports.getD port false = true →
    domainDown s (55 + port) = false → n = fld f 4 2 % 2 ^ 14 →
    Completes (.frameReceive port .pause f) s (fun t => t.fab = { s.fab with macDrops := tabAdd s.fab.macDrops (port * 4) 1 } ∧ Frame [.fab] s t) ∧
    Completes (.frameReceive port .vlan f) s (fun t => t.fab = { s.fab with macDrops := tabAdd s.fab.macDrops (port * 4 + 1) 1 } ∧ Frame [.fab] s t) ∧
    Completes (.frameReceive port .fragment f) s (fun t =>
      t.fab = { s.fab with macDrops := tabAdd s.fab.macDrops (port * 4 + 2) 1 } ∧ Frame [.fab] s t) ∧
    (∀ ok, (ok = .badSum ∨ (ok = .good ∧ (f.length < 48 ∨ byteAt f 0 ≠ 1 ∨ fld f 6 2 % 2 ^ 14 ≠ genNode (gen s)))) →
      Completes (.frameReceive port ok f) s (fun t => t.fab = { s.fab with badFrames := tabAdd s.fab.badFrames port 1 } ∧
        Frame [.fab, .rel] s t)) ∧
    (48 ≤ f.length → byteAt f 0 = 1 → fld f 6 2 % 2 ^ 14 = genNode (gen s) → s.stew.st ≠ .start →
      (∀ q, (peerOf s n).quarantine = some q → byteAt f 1 ≠ 1 → Completes (.frameReceive port .good f) s (fun t =>
        t.fab = { s.fab with quarDrop := s.fab.quarDrop + 1 } ∧ Frame [.fab, .stew, .recd] s t)) ∧
      ((peerOf s n).quarantine = none → (peerOf s n).open_ = true → (peerOf s n).boot = fld f 8 4 → 2 ≤ byteAt f 1 →
        (byteAt f 2).testBit 2 = false → fld f 0x0C 4 = (vcOf s n (byteAt f 2 % 4)).rxSeq % 2 ^ 32 →
        (isAnswer (byteAt f 1) = true ∨
          (vcOf s n (byteAt f 2 % 4)).accepted + frameUnits f ≤ (vcOf s n (byteAt f 2 % 4)).granted) →
        Completes (.frameReceive port .good f) s (fun t =>
          (let v := vcOf s n (byteAt f 2 % 4); let v' := vcOf t n (byteAt f 2 % 4);
            let part := (if fld f 0x24 4 = 0 then [] else v.partial_) ++ slice f 48 (fld f 0x2E 2);
            v'.rxSeq = v.rxSeq + 1 ∧ v'.accepted = v.accepted + (if isAnswer (byteAt f 1) then 0 else frameUnits f) ∧
            (if (byteAt f 2).testBit 3 then v'.partial_ = [] ∧ t.fab.rxMsgs = s.fab.rxMsgs ++ [(n, messageOf f part)]
              else v'.partial_ = part ∧ t.fab.rxMsgs = s.fab.rxMsgs)))) ∧
      ((peerOf s n).open_ = false → byteAt f 1 = 1 → ((peerOf s n).quarantine = none ∨ (peerOf s n).boot ≠ fld f 8 4) → Completes (.frameReceive port .good f) s (fun t =>
        (peerOf t n).boot = fld f 8 4 ∧ (peerOf t n).rxOpen = fld f 0x3C 4 ∧ (peerOf t n).quarantine = none ∧
        (vcOf t n 0).rxSeq = fld f 0x0C 4 + 1 ∧ (vcOf t n 1).credit = fld f 0x14 4)))

/-- LINK TIMERS AND PORTS (R344, R352, R357, R361): an ACK frame leaves; unacknowledged frames are sent again at a doubled
interval; a peer that keeps silent is closed; a quarantine ends; a port goes up or down. METERING, BUCKETS, AGING (R363,
R365, R368): the interval's items are queued and noted as sent; buckets rise by their rate to their burst; a request past
its bound is promoted. -/
def Obligations.FabricTimersMetersAndAging : Prop :=
  ((∀ (s : State) (node vc port : Nat), halted s = false → (peerOf s node).open_ = true → (vcOf s node vc).ackDue = true →
    streamPort s node s.eng.epoch = some port →
    Completes (.ackSendTimer node vc) s (fun t => (vcOf t node vc).ackDue = false ∧
      (vcOf t node vc).ackCount = (vcOf s node vc).ackCount + 1 ∧ (∃ x, t.fab.frames = s.fab.frames ++ [x] ∧ x.port = port ∧ x.node = node) ∧
      Frame [.fab] s t)) ∧
  (∀ (s : State) (node vc : Nat), halted s = false → (vcOf s node vc).unacked ≠ [] →
    (vcOf s node vc).oldestAt + (vcOf s node vc).interval ≤ s.aon.uptime →
    ((vcOf s node vc).attempt < 255 → Completes (.retransmissionTimeout node vc) s (fun t =>
      (vcOf t node vc).attempt = (vcOf s node vc).attempt + 1 ∧ (vcOf t node vc).oldestAt = s.aon.uptime ∧
      (vcOf t node vc).interval = min (2 * (vcOf s node vc).interval) 1600000 ∧
      (vcOf t node vc).unacked.map Prod.fst = (vcOf s node vc).unacked.map Prod.fst ∧
      (peerOf t node).open_ = (peerOf s node).open_ ∧ Frame [.fab] s t)) ∧
    (255 ≤ (vcOf s node vc).attempt → Completes (.retransmissionTimeout node vc) s (fun t => (peerOf t node).open_ = false))) ∧
  (∀ (s : State) (node vc : Nat), halted s = false → ((vcOf s node vc).unacked ≠ [] ∨ (vcOf s node vc).waitTx ≠ []) →
    (vcOf s node vc).firstAt + genPeerTimeout (gen s) ≤ s.aon.uptime →
    Completes (.peerTimeout node vc) s (fun t => (peerOf t node).open_ = false ∧ ∀ x ∈ t.fab.rxMsgs, x.1 ≠ node)) ∧
  (∀ (s : State) (node q : Nat), halted s = false → (peerOf s node).quarantine = some q → q ≤ s.aon.uptime →
    Completes (.quarantineEnd node) s (fun t => peerOf t node = { peerOf s node with quarantine := none } ∧ Frame [.fab] s t)) ∧
  (∀ (s : State) (port : Nat), halted s = false → port < 4 →
    (s.fab.ports.getD port false = true → Completes (.portLinkChange port false) s (fun t =>
      t.fab.ports = listSet s.fab.ports port false)) ∧
    (s.fab.ports.getD port false = false → s.aon.ethLost = false → genPortMode (gen s) port ≠ 0 → domainDown s (55 + port) = false →
      s.recd.replaying = false → Completes (.portLinkChange port true) s (fun t =>
      t.fab.ports = listSet s.fab.ports port true)))) ∧
  ((∀ (s : State), halted s = false → s.fab.meterAt + genMeter (gen s) ≤ s.aon.uptime →
    Completes .meterInterval s (fun t => t.fab.meterAt = s.aon.uptime ∧ SameBytes s t ∧
      ∀ k ∈ tabKeys t.obj.meters, tabGet t.obj.meterSent k = some (metersOut t k))) ∧
  (∀ (s : State) (cls id since : Nat), halted s = false → waitingSince s cls id = some since → (cls, id) ∉ s.fab.urgent →
    since + ageBound s cls ≤ s.aon.uptime →
    Completes (.agingPromotion cls id) s (fun t => tabGetD t.fab.promoted cls 0 = tabGetD s.fab.promoted cls 0 + 1 ∧
      (cls ≠ 1 → (cls, id) ∈ t.fab.urgent) ∧ Frame [.stew, .fab, .recd] s t)))

/-- CONTROL MESSAGES (R223, R347, R356, R358, R359): HELLO opens the entry; BARRIER records the current epoch under its ID
and answers with it; BARRIER_MAP is stored with its barrier; TELEMETRY is answered. JOIN AND LEAVE (R347, R358): the
coordinator's JOIN takes the node from STANDBY into SERVICE with its job, its LEAVE back once no peer's work is left; a T4
request is refused, a type the node does not know too. -/
def Obligations.ControlMessagesServeJoinAndLeave : Prop :=
  ((∀ (s : State) (node msg : Nat) (m : Msg), halted s = false → rxMsg s node msg [1] = some m →
    Completes (.hello node msg) s (fun t => Acted node m s t ∧ (peerOf t node).open_ = true ∧
      (peerOf t node).cls = byteAt m.body 4 ∧ (peerOf t node).job = fld m.body 8 4)) ∧
  (∀ (s : State) (node msg : Nat) (m : Msg), halted s = false → isServing s = true → rxMsg s node msg [2] = some m →
    Completes (.barrier node msg) s (fun t => Acted node m s t ∧
      t.eng = { s.eng with barriers := ({ id := fld m.body 0 4, epoch := s.eng.epoch } ::
        s.eng.barriers.filter fun b => b.id != fld m.body 0 4).take 256 } ∧
      (CanAnswer s node 0 0 → t.fab.sent = s.fab.sent ++ [{
        dst := node, type := 3, id := m.id,
        body := toLe 4 (fld m.body 0 4) ++ toLe 2 0 ++ zeros 2 ++ toLe 8 s.eng.epoch }]) ∧ Frame [.eng, .fab, .rel, .recd] s t)) ∧
  (∀ (s : State) (node msg : Nat) (m : Msg), halted s = false → isServing s = true → rxMsg s node msg [4] = some m →
    1 ≤ fld m.body 4 2 → fld m.body 4 2 ≤ 1024 →
    ((∃ b ∈ s.eng.barriers, b.id = fld m.body 0 4) → Completes (.barrierMap node msg) s (fun t => Acted node m s t ∧
      AnswersStatus node m 0 s t ∧
      t.eng.barriers.map (fun b => (b.id, b.epoch)) = s.eng.barriers.map (fun b => (b.id, b.epoch)) ∧
      (∀ b ∈ t.eng.barriers, b.id = fld m.body 0 4 → ∀ i < fld m.body 4 2,
        (tabGet b.map (bitsOf (fld m.body (8 + 8 * i) 8) 48 14)).isSome = true))) ∧
    ((∀ b ∈ s.eng.barriers, b.id ≠ fld m.body 0 4) → Completes (.barrierMap node msg) s (fun t => Acted node m s t ∧
      AnswersStatus node m 0x0401 s t ∧ t.eng = s.eng))) ∧
  (∀ (s : State) (node msg : Nat) (m : Msg), halted s = false → rxMsg s node msg [6] = some m →
    Completes (.telemetry node msg) s (fun t => Acted node m s t ∧ AnswersStatus node m 0 s t ∧ Frame [.fab, .rel, .recd] s t))) ∧
  ((∀ (s : State) (node msg : Nat) (m : Msg), halted s = false → rxMsg s node msg [5] = some m → joinBad s node m = none →
    (byteAt m.body 8 = 0 → s.stew.st = .standby → Completes (.join node msg) s (fun t => Acted node m s t ∧
      t.stew = { s.stew with st := .service, job := fld m.body 0 4 } ∧ AnswersStatus node m 0 s t ∧ Frame [.stew, .fab, .rel, .recd] s t)) ∧
    (byteAt m.body 8 = 0 → s.stew.st = .service → Completes (.join node msg) s (fun t => Acted node m s t ∧ t.stew = s.stew ∧
      AnswersStatus node m (if s.stew.job = fld m.body 0 4 then 0 else 0x0105) s t ∧ Frame [.fab, .rel, .recd] s t)) ∧
    (byteAt m.body 8 = 1 → s.stew.st = .service → peerWork s = false → Completes (.leave node msg) s (fun t =>
      Acted node m s t ∧ t.stew = { s.stew with st := .standby, job := 0, leaving := none } ∧ AnswersStatus node m 0 s t ∧
      Frame [.stew, .fab, .rel, .recd] s t)) ∧
    (byteAt m.body 8 = 1 → s.stew.st = .service → peerWork s = true → Completes (.leave node msg) s (fun t =>
      t.stew = { s.stew with leaving := some (node, msg) } ∧ Frame [.stew] s t))) ∧
  (∀ (s : State) (node msg : Nat) (m : Msg), halted s = false → quiescing s = false → ringFull s = false →
    (rxMsg s node msg [0x20] = some m → Completes (.t4Read node msg) s (fun t => Acted node m s t ∧
      AnswersStatus node m (if s.stew.st = .service then 0x0101 else 0x0105) s t ∧ Frame [.fab, .rel, .recd] s t)) ∧
    (rxMsg s node msg [0x22] = some m → Completes (.t4Write node msg) s (fun t => Acted node m s t ∧
      AnswersStatus node m (if s.stew.st = .service then 0x0101 else 0x0105) s t ∧ Frame [.fab, .rel, .recd] s t))) ∧
  (∀ (s : State) (node msg : Nat) (m : Msg), halted s = false →
    s.fab.rxMsgs.find? (fun x => x.1 == node && x.2.id == msg) = some (node, m) → rxMsg s node msg [m.type] = some m →
    m.type ∉ [1, 2, 3, 4, 5, 6, 0x0F, 0x10, 0x11, 0x20, 0x21, 0x22] → (m.vc = 0 → isServing s = true) →
    Completes (.unknownMessageType node msg) s (fun t => Acted node m s t ∧
      AnswersStatus node m (if m.vc ≠ 0 ∧ s.stew.st ≠ .service then 0x0105 else 0x0101) s t ∧ Frame [.fab, .rel, .recd] s t)))

/-- ANSWERS RECEIVED (R347, R350, R351, R354): an answer nobody waits for is counted late; a STATUS ends what it answers;
the bytes of T4_DATA enter the object; a T4 request without an answer for 100 ms ends with PEER_TIMEOUT. SUB-SEARCHES
(R112, R113, R348, R349): one that passes admission becomes a command of the next number that serves its peer; an answer
enters the coordinator's merge; owners that have not answered in time are missing and the search's outcome is known. -/
def Obligations.AnswersAndSubSearchesEndRequests : Prop :=
  ((∀ (s : State) (node msg : Nat) (m : Msg), halted s = false → rxMsg s node msg [0x0F] = some m →
    (resvOf s node msg [6, 0x10, 0x20, 0x22] = none → Completes (.status node msg) s (fun t => Acted node m s t ∧
      t.fab.late = s.fab.late + 1 ∧ Frame [.fab] s t)) ∧
    (∀ r, resvOf s node msg [6, 0x10, 0x20, 0x22] = some r → msg < s.fab.nextMsg → Completes (.status node msg) s (fun t =>
      (∀ x ∈ t.fab.resv, x.msg ≠ msg) ∧ (r.kind = 6 → ∀ x ∈ t.fab.telem, x.1 ≠ msg ∨ msg = 0)))) ∧
  (∀ (s : State) (node msg : Nat) (m : Msg), halted s = false → rxMsg s node msg [0x21] = some m →
    (resvOf s node msg [0x20] = none → Completes (.t4Data node msg) s (fun t => Acted node m s t ∧
      t.fab.late = s.fab.late + 1 ∧ Frame [.fab] s t)) ∧
    (∀ r, resvOf s node msg [0x20] = some r → Completes (.t4Data node msg) s (fun t =>
      t.fab.t4done = s.fab.t4done ++ [(msg, 0)] ∧ ∀ j, r.job = some j → j.who = .move →
        (let b := slice m.body 0 r.bytes
         (∀ o, tabGet s.fls.ckpt j.obj = none → tabGet s.obj.recs j.obj = some o → o.dirty = false →
          ∃ o', tabGet t.obj.recs j.obj = some o' ∧ o'.mem = memWrite o.mem (j.off - b.length) b) ∧
         (∀ c, tabGet s.fls.ckpt j.obj = some c → SameBytes s t ∧
          tabGet t.fls.ckpt j.obj = some (putAt c (j.off - b.length) b)))))) ∧
  (∀ (s : State) (msg : Nat) (r : Resv), halted s = false →
    s.fab.resv.find? (fun r => r.msg == msg && (r.kind == 0x20 || r.kind == 0x22)) = some r → r.at_ + 100000000 ≤ s.aon.uptime →
    Completes (.t4RequestTimeout msg) s (fun t => t.fab.t4done.getLast? = some (msg, 0x0A01)))) ∧
  ((∀ (s : State) (node msg : Nat) (m : Msg), halted s = false → rxMsg s node msg [0x10] = some m →
    (s.stew.st ≠ .service → Completes (.subSearch node msg) s (fun t => Acted node m s t ∧ AnswersStatus node m 0x0105 s t)) ∧
    (∀ d coll, s.stew.st = .service → admits s = true → s.stew.leaving = none → s.eng.waitFor = none →
      (let ent := steerEntry s (m.tenant * 1024 + 0x20) s.eng.epoch;
        let ep := if fld m.body 8 8 = 0 then s.eng.epoch else fld m.body 8 8;
        bitOf ent 8 = true → bitOf ent 9 = true → genSheaf (gen s) (ent % 256) = some d → firstBad (subChecks m.body) = none →
        shapeOk 0x20 d = true → ep ≤ s.eng.epoch → oldestRetained s ≤ ep → drainRoom s (subWaiter node m.id) ep = true →
        searchAdmit s m.tenant d (subEntry m.body) ep = none → collAt s (fld m.body 0 2) ep = some coll →
        itemFits s d (subEntry m.body) ep = true →
        listsBad s m.tenant d (subLists s m.body coll ep) = none →
        Completes (.subSearch node msg) s (fun t => Acted node m s t ∧ t.hif.nextCmd = s.hif.nextCmd + 1 ∧
          (∃ c, cmdOf t s.hif.nextCmd = some c ∧ c.opcode = 0x20 ∧ c.peer = some (node, msg) ∧ c.tenant = m.tenant ∧ c.epoch = some ep ∧
            c.ran = true ∧ c.probe = subLists s m.body coll ep ∧ c.fan.isSome = true))))) ∧
  (∀ (s : State) (node msg : Nat) (m : Msg), halted s = false → rxMsg s node msg [0x11] = some m →
    (resvOf s node msg [0x10] = none → Completes (.subAnswer node msg) s (fun t => Acted node m s t ∧
      t.fab.late = s.fab.late + 1 ∧ Frame [.fab, .idx] s t ∧
      ∀ g, s.fab.gone.find? (fun g => g.1 == node && g.2.1 == msg) = some g →
        (tabGetD t.idx.cstats g.2.2 {}).late = (tabGetD s.idx.cstats g.2.2 {}).late + 1)) ∧
    (∀ r c f, resvOf s node msg [0x10] = some r → cmdOf s r.cmd = some c → c.fan = some f →
      (let mine := ((f.owed.filter fun o => o.1 == node).map Prod.snd).sum; let owed := f.owed.filter fun o => o.1 != node;
      (fld m.body 0 2 = 0 → Completes (.subAnswer node msg) s (fun t => Acted node m s t ∧
        ∃ c' g, cmdOf t r.cmd = some c' ∧ c'.fan = some g ∧ c'.result = c.result ∧ g.owed = owed ∧
          g.missing = f.missing + fld m.body 4 2 ∧ g.chaff = f.chaff + fld m.body 8 4 ∧
          g.lists = f.lists + (mine - fld m.body 4 2) ∧
          g.mine = mergeParts true (metricOrder (((collAt s (fld c.entry 4 2) (cEpoch c)).map coMetric).getD 0)) (byteAt c.entry 6)
            [f.mine, answerPart node m.body] ∧ (owed = [] → g.slot = false))) ∧
      (fld m.body 0 2 ≠ 0 → Completes (.subAnswer node msg) s (fun t => Acted node m s t ∧
        ∃ c' g, cmdOf t r.cmd = some c' ∧ c'.fan = some g ∧ c'.result = c.result ∧ g.owed = owed ∧ g.missing = f.missing + mine ∧
          g.mine = f.mine))))) ∧
  (∀ (s : State) (n : Nat) (c : Cmd) (f : Fan), halted s = false → cmdOf s n = some c → c.fan = some f → f.owed ≠ [] →
    f.deadline ≤ s.aon.uptime →
    Completes (.fanoutTimeout n) s (fun t => (∀ r ∈ t.fab.resv, ¬(r.kind = 0x10 ∧ r.cmd = n)) ∧
      (∀ r ∈ s.fab.resv, r.kind = 0x10 → r.cmd = n → (r.node, r.msg, fld c.entry 4 2) ∈ t.fab.gone) ∧
      ∃ c' g, cmdOf t n = some c' ∧ c'.fan = some g ∧ c'.result = c.result ∧ g.owed = [] ∧ g.slot = false ∧ g.mine = f.mine ∧
        g.missing = f.missing + (f.owed.map Prod.snd).sum)))

/-- THRESHING (R379 to R382): a run that passes its checks is numbered and begins where its island is free; a mismatch
retires the unit and ends the run; the unit's pass is followed by its spare's, which ends the run. -/
def Obligations.ThreshingRunsAreHeld : Prop :=
  (∀ (s : State) (box : Nat) (m : Bytes), Serves s box 0x0501 m →
    (let kind := byteAt m 0x20; let unit := fld m 0x22 2;
      ((kind = 0 ∧ unit < 512 ∧ s.shv.absent.contains unit = false) ∨ (kind = 1 ∧ unit < 512) ∨ (kind = 2 ∧ isCrossing unit = true)) →
      byteAt m 0x24 ≤ 8 → byteAt m 0x25 ≤ 10 → byteAt m 0x26 ≤ 1 → (byteAt m 0x26 = 0 ∨ kind = 0) →
      Config.patternSetHeld (fld m 0x28 4) kind = true → 1 ≤ fld m 0x2C 4 → fld m 0x2C 4 ≤ 600000 → canTake s kind unit = true →
      (∀ x ∈ s.rel.runs, x.st ≠ .done → ¬(x.unitKind = kind ∧ x.unit = unit)) →
      Completes (.threshRun box) s (fun t => Answers box 0 0 (toLe 4 s.rel.nextRun) s t ∧ t.rel.nextRun = s.rel.nextRun + 1 ∧
        ∃ x ∈ t.rel.runs, x.id = s.rel.nextRun ∧ x.unitKind = kind ∧ x.unit = unit ∧ x.vStep = byteAt m 0x24 ∧
          x.fStep = byteAt m 0x25 ∧ x.duration = fld m 0x2C 4 ∧
          ((∀ y ∈ s.rel.runs, y.st = .done ∧ y.id ≠ s.rel.nextRun) → x.st = .running)))) ∧
  (∀ (s : State) (box : Nat) (m : Bytes) (x : Thresh), Serves s box 0x0502 m →
    s.rel.runs.find? (fun x => x.id == fld m 0x20 4) = some x →
    Completes (.threshStatus box) s (fun t => OnlyMbx box s t ∧ Frame [.stew] s t ∧
      Answers box 0 0 (toLe 1 (match x.st with | .queued => 0 | .running => 1 | .done => 2) ++ zeros 3 ++ toLe 4 x.pattern) s t)) ∧
  (∀ (s : State) (run pattern iteration expected observed : Nat) (x : Thresh), halted s = false →
    s.rel.runs.find? (fun x => x.id == run && x.st == .running && x.applied) = some x →
    (expected = observed → Completes (.threshIterationEnd run pattern iteration expected observed) s (fun t =>
      t.rel = { s.rel with runs := s.rel.runs.map fun y => if y.id = run then { y with pattern := pattern } else y } ∧
      Frame [.rel] s t)) ∧
    (expected ≠ observed → s.rel.detq.length < 1024 →
      Completes (.threshIterationEnd run pattern iteration expected observed) s (fun t =>
        (∀ y ∈ t.rel.runs, y.id = run → y.st = .done) ∧
        ∃ d ∈ t.rel.detq, d.kind = 1 ∧ d.cause = 0x10 ∧ d.run = x.id ∧ d.pattern = pattern ∧ d.iteration = iteration ∧
          d.expected = expected ∧ d.observed = observed))) ∧
  (∀ (s : State) (run : Nat) (x : Thresh), halted s = false →
    s.rel.runs.find? (fun x => x.id == run && x.st == .running && x.applied) = some x →
    x.began + x.duration * 1000000 ≤ s.aon.uptime →
    (x.onSpare = false → Completes (.threshDurationEnd run) s (fun t =>
      ∀ y ∈ t.rel.runs, y.id = run → y.onSpare = true ∧ y.applied = false)) ∧
    (x.onSpare = true → Completes (.threshDurationEnd run) s (fun t => ∀ y ∈ t.rel.runs, y.id = run → y.st = .done)))

/-- ERRORS OF STORED DATA (R371 to R377): a patrol read counts, corrects or poisons; an uncorrectable SRAM word retires
its tile or culm; one of the object table or window map, and a lockstep disagreement, make the node viral. CROSSINGS AND
DIE LINKS (R24, R374, R394, R415, R417): the other lane becomes the active one; a crossing whose two sides run is ready;
retries are counted, exhausted ones poison their data, and a link that goes down stops admission in FAULT. -/
def Obligations.StoredErrorsCrossingsAndDieLinks : Prop :=
  ((∀ (s : State) (culm idx b : Nat), halted s = false → (culmOf s culm).queue = [] → domainDown s (culmIsland culm) = false →
    Completes (.t1PatrolRead culm idx b 0) s (fun t => t.stk = { s.stk with patrols := s.stk.patrols + 1 } ∧ Frame [.stk] s t) ∧
    Completes (.t1PatrolRead culm idx b 1) s (fun t => SameBytes s t ∧ tabGet t.stk.ecc culm =
      some (s.aon.uptime :: (tabGetD s.stk.ecc culm []).filter fun x => decide (s.aon.uptime < x + 3600 * 10 ^ 9))) ∧
    (∀ n o, 2 ≤ n → tabGet s.obj.recs idx = some o → o.poison.contains b = false → 64 * b < o.size →
      Completes (.t1PatrolRead culm idx b n) s (fun t => SameBytes s t ∧
        tabGet t.obj.recs idx = some { o with poison := o.poison ++ [b] } ∧ Frame [.stk, .obj, .rel] s t))) ∧
  (∀ (s : State) (unit loc : Nat), halted s = false → unit < 512 →
    (s.shv.absent.contains unit = false → Completes (.sramUncorrectable 0 unit loc) s (fun t =>
      (unit / 16, tileSlot s unit) ∈ t.shv.retired ∧
      ((∀ x ∈ s.rel.runs, x.st ≠ .running) → tillerFree s (unit / 16) = true → tileSlot s unit ≠ 16 →
        tabGet t.shv.swapping unit = some 16) ∧
      (tileSlot s unit = 16 → unit ∈ t.shv.absent))) ∧
    Completes (.sramUncorrectable 1 unit loc) s (fun t =>
      (unit % 8, (culmOf s unit).phys) ∈ t.stk.badCulms ∧ (culmOf t unit).held = true)) ∧
  (∀ (s : State) (unit loc : Nat), halted s = false →
    (s.rel.detq.length < 1024 → Completes (.sramUncorrectable 2 unit loc) s (fun t =>
      ∃ d ∈ t.rel.detq, d.cause = 3 ∧ d.island = 34 ∧ d.location = loc)) ∧
    (s.aon.viral = false → Completes (.sramUncorrectable 3 unit loc) s (fun t =>
      t.aon.viral = true ∧ t.stew.st = .fault ∧ t.aon.faultCause.getLsbD 3 = true ∧ t.hif.aer = s.hif.aer + 1))) ∧
  (∀ (s : State), halted s = false → s.aon.viral = false → Completes .lockstepDisagreement s (fun t =>
    t.aon.viral = true ∧ t.stew.st = .fault ∧ t.aon.faultCause.getLsbD 3 = true ∧ t.hif.aer = s.hif.aer + 1))) ∧
  ((∀ (s : State) (x : Nat), halted s = false → s.rel.laneReq.contains x = true →
    Completes (.crossingLaneSwitch x) s (fun t => tabGetD t.rel.lanes x 0 = 1 - tabGetD s.rel.lanes x 0 ∧
      t.rel.laneReq.contains x = false ∧ (∀ y, y ≠ x → tabGetD t.rel.lanes y 0 = tabGetD s.rel.lanes y 0) ∧ Frame [.rel] s t)) ∧
  (∀ (s : State) (i j : Nat), halted s = false → domainDown s i = false → domainDown s j = false →
    Completes (.crossingResync i j) s (fun t => t.aon = { s.aon with notReady := t.aon.notReady } ∧ Frame [.aon] s t ∧
      ∀ k, k ∈ t.aon.notReady ↔ k ∈ s.aon.notReady ∧ k ≠ (min i j, max i j))) ∧
  (∀ (s : State) (link : Nat), halted s = false → link < 3 →
    Completes (.dieLinkCrcRetry link) s (fun t =>
      tabGetD t.rel.linkRetry link 0 = tabGetD s.rel.linkRetry link 0 + 1 ∧ Frame [.rel] s t) ∧
    (∀ n c, cmdOf s n = some c → Completes (.dieLinkRetriesExhausted link n) s (fun t =>
      cmdOf t n = some { c with viol := if c.viol = 0 then 0x0701 else c.viol } ∧ t.rel.linkPoison = s.rel.linkPoison ++ [link] ∧
      Frame [.hif, .rel] s t)) ∧
    (s.rel.linksDown.contains link = false → Completes (.dieLinkDown link) s (fun t => t.hif.stopped = true ∧ t.stew.st = .fault ∧
      t.aon.faultCause.getLsbD 0 = true ∧ t.aon.viral = true ∧ (s.aon.gasp.toNat % 2 = 0 → t.aon.gasp.toNat % 2 = 1) ∧
      t.rel.linksDown = s.rel.linksDown ++ [link] ∧
      (s.rel.detq.length < 1024 → ∃ d ∈ t.rel.detq, d.cause = 6 ∧ d.unitKind = 6 ∧ d.unit = link) ∧
      Frame [.aon, .stew, .hif, .rel] s t))))

/-- SIGNATURE RECORDS (R384, R388): the oldest detection becomes the record of the next number; a read hands records to
the host in ascending number and takes the unread mark away. THE EVENT LOG (R389 to R392): the next record takes its
sequence number and enters the rings; with both failed it is lost and counted; the archive copies what it has not; a ring
that fails stops being written; a read hands records to the host. -/
def Obligations.SignaturesAndLogAreWrittenAndRead : Prop :=
  ((∀ (s : State) (d : Det) (ds : List Det), halted s = false → s.rel.detq = d :: ds → s.stew.busy = false → domainDown s 1 = false →
    Completes .detectionProcess s (fun t => t.rel.detq = ds ∧ t.rel.nextSig = s.rel.nextSig + 1 ∧
      t.rel.sigs = ((s.rel.nextSig, d) :: s.rel.sigs).take 65536 ∧ t.rel.sigUnread = true ∧ SameBytes s t)) ∧
  (∀ (s : State) (box : Nat) (m : Bytes) (rs : List (Nat × Det)), Serves s box 0x0503 m →
    rs = ((s.rel.sigs.reverse).filter fun p => decide (fld m 0x20 8 ≤ p.1)).take (fld m 0x30 4 / 384) →
    Completes (.signatureRead box) s (fun t =>
      (∃ body, Answers box 0 0 body s t ∧ body.length = 24 ∧ fld body 0 4 = rs.length % 2 ^ 32) ∧
      t.hif.out = s.hif.out ++ (if rs.isEmpty then []
        else [⟨box, fld m 0x28 8, rs.flatMap fun p => slice (sigRecord p.1 p.2) 0 384, false⟩]) ∧
      t.rel = { s.rel with sigUnread := false } ∧ OnlyMbx box s t ∧ Frame [.hif, .stew, .rel] s t))) ∧
  ((∀ (s : State) (x : LogRec) (xs : List LogRec), s.rel.logq = x :: xs →
    ((s.rel.ring38 = true ∨ s.rel.ring62 = true) → logHeld s = false → Completes .logRecordWrite s (fun t =>
      t.rel.logq = xs ∧ t.rel.logSeq = s.rel.logSeq + 1 ∧ t.rel.log = ({ x with seq := s.rel.logSeq + 1 } :: s.rel.log).take 32768 ∧
      Frame [.rel, .recd] s t)) ∧
    (s.rel.ring38 = false → s.rel.ring62 = false → Completes .logRecordWrite s (fun t =>
      t.rel = { s.rel with logq := xs } ∧ t.aon = { s.aon with lostLog := satAdd 16 s.aon.lostLog 1 } ∧ Frame [.aon, .rel] s t))) ∧
  (∀ (s : State), halted s = false → s.stew.busy = false → domainDown s 1 = false → s.fls.formatted = true →
    Completes .logArchiveCopy s (fun t => Frame [.rel] s t ∧ t.rel = { s.rel with
      archive := ((s.rel.log.filter fun x => decide (((s.rel.archive.head?).map LogRec.seq).getD 0 < x.seq)) ++
        s.rel.archive).take 4194304 })) ∧
  (∀ (s : State), halted s = false → s.rel.ring38 = true → s.rel.ring62 = true →
    Completes (.logRingFailure true false) s (fun t => t.rel.ring38 = false ∧ t.rel.ring62 = true ∧
      t.aon.fail38 = satAdd 16 s.aon.fail38 1 ∧ t.aon.faultCause = s.aon.faultCause) ∧
    Completes (.logRingFailure false true) s (fun t => t.rel.ring38 = true ∧ t.rel.ring62 = false ∧
      t.aon.fail62 = satAdd 16 s.aon.fail62 1 ∧ t.aon.faultCause = s.aon.faultCause) ∧
    Completes (.logRingFailure true true) s (fun t => t.rel.ring38 = false ∧ t.rel.ring62 = false ∧
      t.aon.faultCause.getLsbD 2 = true)) ∧
  (∀ (s : State) (box : Nat) (m : Bytes) (rs : List LogRec), Serves s box 0x0504 m →
    rs = ((s.rel.archive.reverse ++ (s.rel.log.reverse.filter fun x =>
      decide (((s.rel.archive.head?).map LogRec.seq).getD 0 < x.seq))).filter fun x => decide (fld m 0x20 8 ≤ x.seq)).take
        (fld m 0x30 4 / 64) →
    Completes (.logRead box) s (fun t =>
      (∃ body, Answers box 0 0 body s t ∧ body.length = 24 ∧ fld body 0 4 = rs.length % 2 ^ 32) ∧
      t.hif.out = s.hif.out ++ (if rs.isEmpty then [] else [⟨box, fld m 0x28 8, rs.flatMap logBytes, false⟩]) ∧
      OnlyMbx box s t ∧ Frame [.hif, .stew] s t)))

/-- RECORDINGS (R401 to R405, R334): a recording starts from a quiet node with its snapshot and checkpoint; its oldest
chunk moves to the spill region; it ends for the reason given; a snapshot is given up where free blocks run low; an export
hands spilled bytes to the host. REPLAYS (R410 to R413): a recording of this node starts a replay with its checkpoint
restored and its boot count shown; the digests of a window are compared with those recorded; a replay without progress for
1 s stops; a stopped or finished replay raises COMMAND_DONE and, once that is read, makes a cold start. -/
def Obligations.RecordingsAndReplaysRun : Prop :=
  ((∀ (s : State) (e : Nat), halted s = false → s.recd.due = some e → quiesced s = true →
    Completes .recordingStart s (fun t => t.recd.held = true ∧ t.recd.snap = some (s.recd.snaps + 1) ∧ t.recd.due = none ∧
      t.recd.snapMap = s.fls.units ∧ t.recd.snapAt = some (keepOf s) ∧ t.recd.header = recordHeader s e (s.recd.snaps + 1) ∧
      (t.recd.active = true → t.recd.ring = [] ∧
        t.recd.spill = (checkpointChunks (checkpointBytes s (s.recd.snaps + 1))).reverse) ∧
      (t.recd.active = false → t.recd.endReason = some .spillFull) ∧
      (s.obj.top < 2 ^ 24 → ∀ i a, i < s.obj.top → i ≠ hIndex s.obj.spillH → objByte t i a = objByte s i a))) ∧
  (∀ (s : State) (c : RecChunk) (cs : List RecChunk), halted s = false → s.recd.ring = c :: cs →
    (s.recd.active = false ∨ recordingLength s.recd + chunkBytes c + 64 ≤ s.recd.spillCap) →
    Completes .chunkSpill s (fun t => t.recd = { s.recd with ring := cs, spill := c :: s.recd.spill } ∧ Frame [.recd] s t)) ∧
  (∀ (s : State), halted s = false → s.recd.active = true →
    ((∃ c, s.recd.ring.head? = some c ∧ s.recd.spillCap < recordingLength s.recd + chunkBytes c + 64) →
      Completes (.recordingEnd 1) s (fun t => t.recd.active = false ∧ t.recd.endReason = some .spillFull ∧ t.recd.ring = [])) ∧
    (s.recd.budget ≤ superseded s →
      Completes (.recordingEnd 2) s (fun t => t.recd.active = false ∧ t.recd.endReason = some .budget)) ∧
    Completes (.recordingEnd 3) s (fun t => t.recd.active = false ∧ t.recd.endReason = some .ringError ∧ t.recd.ring = [])) ∧
  (∀ (s : State), halted s = false → s.recd.snap.isSome = true →
    (100 * regionFree s true < 2 * regionBlocks s true ∨ 100 * regionFree s false < 2 * regionBlocks s false) →
    Completes .snapshotRelease s (fun t => t.recd = { s.recd with snap := none, snapMap := [], snapAt := none } ∧ Frame [.rel, .recd] s t)) ∧
  (∀ (s : State) (box : Nat) (m : Bytes) (len n : Nat), Serves s box 0x0505 m →
    len = (if s.recd.held then recordingLength s.recd else 0) →
    n = (if fld m 0x20 8 < len then min (fld m 0x30 8) (len - fld m 0x20 8) else 0) →
    Completes (.recordExport box) s (fun t => Answers box 0 0 (toLe 8 n ++ toLe 8 len) s t ∧
      (n = 0 → t.hif = s.hif) ∧ OnlyMbx box s t ∧ Frame [.hif, .stew] s t))) ∧
  ((∀ (s : State) (box : Nat) (image m : Bytes), Serves s box 0x0506 m → s.recd.active = false →
    (∀ q ∈ s.hif.qps, q.2.qstate = .disabled) → s.hif.window = [] → recordingBad image s = none →
    (∀ x ∈ sectionsOf (readChunks image.length (roundUp (128 + 8 * fld image 0x2C 4) 64) 1 image), byteAt x.head 8 = 3 →
      (tabGet s.fls.xts (hTenant (fld x.head 0 8))).isSome = true) →
    Completes (.replayStart box image) s (fun t => Answers box 0 0 [] s t ∧ t.recd.replaying = true ∧ t.recd.ended = false ∧
      t.recd.diverged = none ∧ t.recd.replaySeq = fld m 4 2 ∧ t.stew.boot = fld image 0x28 4 ∧
      (∃ k, t.recd.live = some k ∧ k.eng = s.eng ∧ k.idx = s.idx ∧ k.obj = s.obj ∧ k.fls = s.fls ∧ k.cur = s.stew.cur ∧
        k.boot = s.stew.boot) ∧ (∀ k, s.recd.snapAt = some k → t.eng = k.eng ∧ t.idx = k.idx ∧ t.stew.cur = k.cur) ∧
      t.fab.ports = [false, false, false, false] ∧ (∀ c ∈ t.recd.chunks, c.type ≠ 1))) ∧
  (∀ (s : State) (c : RecChunk), halted s = false → s.recd.replaying = true → s.recd.diverged = none →
    s.recd.ended = false → nextWindow s.recd = some c →
    (c.type ≠ 0 → firstMismatch c.body (ownDigests s) = none → Completes (.replayWindowClose c.seq) s (fun t =>
      t.recd.seqDone = c.seq ∧ t.recd.progressAt = s.aon.uptime ∧ t.recd.diverged = none ∧
      (∀ x ∈ t.recd.chunks, c.seq < x.seq) ∧ Frame [.recd] s t)) ∧
    ((c.type = 0 ∨ (firstMismatch c.body (ownDigests s)).isSome = true) → Completes (.replayWindowClose c.seq) s (fun t =>
      t.recd = { s.recd with diverged := some c.seq } ∧ Frame [.rel, .recd] s t))) ∧
  (∀ (s : State) (c : RecChunk) (cs : List RecChunk), halted s = false → s.recd.chunks = c :: cs → s.recd.replaying = true →
    s.recd.diverged = none → s.recd.ended = false → s.recd.progressAt + 10 ^ 9 ≤ s.aon.uptime →
    Completes .replayStall s (fun t => t.recd = { s.recd with diverged := some c.seq } ∧ Frame [.rel, .recd] s t)) ∧
  (∀ (s : State), halted s = false → s.recd.replaying = true →
    (s.recd.ended = false → (s.recd.diverged.isSome = true ∨ nextWindow s.recd = none) → Completes .replayEnd s (fun t =>
      t.recd.ended = true ∧ t.recd.replaying = true ∧ t.recd.diverged = s.recd.diverged)) ∧
    (s.recd.ended = true → (mbxOf s 0).events = [] → (mbxOf s 0).outFull = false → Completes .replayEnd s (fun t =>
      t.recd.replaying = false ∧ t.stew.phase = 0 ∧ t.hif.cmds = [] ∧ t.recd.live = none ∧
      t.eng.epoch = (endReplay s).eng.epoch ∧ t.stew.cur = (endReplay s).stew.cur ∧ t.fls.mediaKey = (endReplay s).fls.mediaKey))))

/-- POWER LOSS (R420 to R422, R433 to R438): PWR_FAIL_N begins the flush; the seal ends it and holds the islands in reset;
the rails' fall cuts it short; a cold start follows the release or power good; a warm reset keeps the boot count. -/
def Obligations.PowerLossFlushesAndRestarts : Prop :=
  (∀ (s : State), s.aon.powered = false → ((∃ f, s.aon.flush = some f ∧ f.sealed = false ∧ s.aon.inReset.contains 1 = false) →
      Completes .powerGood s (fun t => t.aon = { s.aon with powered := true } ∧ Frame [.aon] s t)) ∧
    ((∀ f, s.aon.flush = some f → f.sealed = true ∨ s.aon.inReset.contains 1 = true) →
      Completes .powerGood s (fun t => t.aon.powered = true ∧ t.aon.flush = none ∧ t.aon.faultCause = 0#64 ∧ t.stew.phase = 0 ∧
        t.stew.bootDone = false ∧ t.hif.cmds = [] ∧ t.eng.epoch = (endReplay s).eng.epoch ∧ t.eng.binders = [] ∧ t.eng.husks = [] ∧
        t.shv.retired = s.shv.retired ∧ t.stk.badCulms = s.stk.badCulms ∧ t.fls.mediaKey = (endReplay s).fls.mediaKey))) ∧
  (∀ (s : State), s.aon.pwrFailLow = false → halted s = false →
    Completes .pwrFailNAssert s (fun t => t.aon = { s.aon with
      pwrFailLow := true, tripSeen := s.aon.tripSeen || s.aon.tripHold,
      flush := some { cause := 0, jrecs := undurable s, at_ := s.aon.uptime } } ∧ Frame [.aon, .rel] s t) ∧
    (∀ r < 8, Completes (.railOutOfLimits r) s (fun t => t.aon = { s.aon with
      powered := false, flush := some { cause := 4, jrecs := undurable s, at_ := s.aon.uptime } } ∧ Frame [.aon, .rel] s t))) ∧
  (∀ (s : State), s.aon.pwrFailLow = false → Completes .pwrFailNGlitch s (fun t =>
    (∃ x, t.rel = { s.rel with logq := s.rel.logq ++ [x] } ∧ x.code = Config.logCode Log.glitch) ∧ Frame [.rel] s t)) ∧
  (∀ (s : State), s.aon.pwrFailLow = true →
    (s.aon.flush = none → Completes .pwrFailNRelease s (fun t => t.aon.pwrFailLow = false ∧ Frame [.aon] s t)) ∧
    (∀ f, s.aon.flush = some f → f.sealed = true → s.aon.powered = true → (s.aon.tripHold = false ∨ s.aon.tripSeen = true) →
      Completes .pwrFailNRelease s (fun t => t.aon.flush = none ∧ t.stew.phase = 0 ∧ t.hif.cmds = [] ∧
        t.eng.epoch = (endReplay s).eng.epoch ∧ t.eng.binders = []))) ∧
  (∀ (s : State) (f : Flush), s.aon.flush = some f → f.sealed = false → s.aon.inReset.contains 1 = false →
    (f.warm = true → Completes .flushComplete s (fun t => t.aon.flush = none ∧ t.stew.phase = 0 ∧ t.stew.bootDone = true ∧
      t.stew.boot = (endReplay s).stew.boot ∧ t.hif.cmds = [] ∧ t.eng.epoch = (endReplay s).eng.epoch ∧ t.aon.faultCause = s.aon.faultCause)) ∧
    (f.warm = false → (s.aon.pwrFailLow = true ∨ s.aon.powered = false) → Completes .flushComplete s (fun t =>
      t.aon.flush = some { f with sealed := true } ∧ t.aon.inReset = otherIslands ∧
      t.aon.sealPg = some {
        boot := s.stew.boot, up := s.aon.uptime, cause := f.cause, gasp := s.aon.gasp, gaspUp := s.aon.gaspUp,
        fails := logFailCount s } ∧
      t.obj.dirtyHdr = 0 ∧ t.fls.dirtyMap = 0 ∧ Frame [.aon, .obj, .fls] s t))) ∧
  (∀ (s : State) (f : Flush), s.aon.flush = some f → f.warm = false →
    Completes .holdUpEnds s (fun t => t.aon.powered = false ∧ t.aon.inReset = otherIslands ∧
      t.aon.sealPg = (if f.sealed then s.aon.sealPg else none) ∧ SameBytes s t ∧ Frame [.aon, .obj, .fls] s t)) ∧
  (∀ (s : State), (s.aon.holdupOk = true → Completes (.holdupOkChange false) s (fun t => t.aon = { s.aon with holdupOk := false } ∧
      t.obj.dirtyHdr = 0 ∧ t.fls.dirtyMap = 0)) ∧
    (s.aon.holdupOk = false → Completes (.holdupOkChange true) s (fun t => t.aon = { s.aon with holdupOk := true } ∧
      Frame [.aon, .rel] s t)))

/-- RESETS OF PARTS, AND WARM RESETS FROM OUTSIDE (R420, R422, R465 to R467): each of the three warm resets begins its
flush; a warm reset while the node is halted only leaves a log record; the watchdog restarts the Steward; an island's
reset leaves its crossings to be resynchronised. THE WAY TO STANDBY (R378, R383, R394, R424): a known-answer mismatch
retires its unit; STANDBY is entered after phase 6 and the checks, FAULT where the node is viral; without retired tiles
every logical tile is its own slot. -/
def Obligations.ResetsBeginAndStandbyFollows : Prop :=
  ((∀ (s : State), s.aon.straps.testBit 4 = false →
    (halted s = false → s.aon.tripHold = false → s.recd.active = false →
      Completes .warmReset s (fun t => t.aon = { s.aon with
        flush := some { cause := 2, warm := true, jrecs := undurable s, at_ := s.aon.uptime } } ∧ Frame [.aon] s t) ∧
      Completes (.smbusWarmReset 0x5752 true) s (fun t => t.aon = { s.aon with
        flush := some { cause := 2, warm := true, jrecs := undurable s, at_ := s.aon.uptime } } ∧ Frame [.aon] s t) ∧
      (domainDown s 63 = false → Completes .jtagWarmReset s (fun t => t.aon = { s.aon with
        jtagIr := .warmReset, jtagDr := 0,
        flush := some { cause := 2, warm := true, jrecs := undurable s, at_ := s.aon.uptime } } ∧ Frame [.aon] s t))) ∧
    (halted s = true →
      Completes .warmReset s (fun t => (∃ x, t.rel = { s.rel with logq := s.rel.logq ++ [x] }) ∧ Frame [.rel] s t) ∧
      Completes (.smbusWarmReset 0x5752 true) s (fun t =>
        (∃ x, t.rel = { s.rel with logq := s.rel.logq ++ [x] }) ∧ Frame [.rel] s t))) ∧
  (∀ (s : State), halted s = false → Completes .stewardWatchdog s (fun t =>
    t.stew = { s.stew with busy := true, busySince := s.aon.uptime, activating := none } ∧ Frame [.stew] s t)) ∧
  (∀ (s : State) (i : Nat), halted s = false →
    (55 ≤ i → i ≤ 58 → (s.stew.exiting = false ∨ s.aon.off.contains i = false) → Completes (.islandReset i) s (fun t =>
      t.fab = { s.fab with ports := listSet s.fab.ports (i - 55) false } ∧ (∀ c ∈ crossingsOf i, c ∈ t.aon.notReady) ∧
      Frame [.aon, .fab, .rel] s t)) ∧
    (s.stew.exiting = true → s.aon.off.contains i = true → Completes (.islandReset i) s (fun t =>
      t.aon.off.contains i = false ∧ (∀ c ∈ crossingsOf i, c ∈ t.aon.notReady) ∧ Frame [.aon, .rel] s t)))) ∧
  ((∀ (s : State) (bad : List BadUnit), halted s = false → s.stew.st = .start → 3 ≤ s.stew.phase → s.stew.kaDone = false →
    Completes (.knownAnswerCheck bad) s (fun t => t.stew.kaDone = true ∧ t.stew.phase = s.stew.phase ∧
      (bad = [] → Frame [.stew] s t) ∧
      ∀ b ∈ bad, (b.kind = 0 → b.unit < 32 → b.phys < 17 → (b.unit, b.phys) ∈ t.shv.retired) ∧
        (b.kind = 1 → b.unit < 8 → b.phys < 68 → (b.unit, b.phys) ∈ t.stk.badCulms))) ∧
  (∀ (s : State), halted s = false → s.stew.st = .start → s.stew.phase = 6 → s.stew.kaDone = true →
    Completes .standbyEntry s (fun t => t.stew.st = (if s.aon.viral then .fault else .standby) ∧
      (s.shv.retired = [] → t.shv.slotOf = [] ∧ t.shv.absent = [] ∧ t.shv.tillerUse = []) ∧
      (s.stk.badCulms = [] → t.stk.culms = []) ∧ Frame [.stew, .shv, .stk, .rel] s t)))

/-- RECOVERY (R424 to R427): its phases follow one another; too few channels, or an unreadable boot count, leave the node
in RECOVERY; an unreadable object table makes it viral; the stream's records join the journal; replay ends at the newest
epoch. -/
def Obligations.RecoveryGoesThroughItsPhases : Prop :=
  ∀ (s : State) (p : PhaseIn), halted s = false → (s.stew.st = .start ∨ s.stew.st = .recovery) → s.stew.rom = false →
    (s.stew.phase = 0 → Completes (.recoveryPhaseComplete p) s (fun t => t.stew = { s.stew with phase := 1 } ∧ Frame [.stew] s t)) ∧
    (s.stew.phase = 1 → Completes (.recoveryPhaseComplete p) s (fun t =>
      if 24 ≤ ((chansUp s).filter fun c => p.chans.any fun x => x.1 == c.1).length then t.stew.phase = 2 ∧ t.stew.st = .start
      else t.stew.phase = 1 ∧ t.stew.st = .recovery ∧ t.fls = (rescan s).fls)) ∧
    (s.stew.phase = 2 → p.tableOk = false → s.aon.viral = false → Completes (.recoveryPhaseComplete p) s (fun t =>
      t.aon.viral = true ∧ t.stew.st = .fault)) ∧
    (s.stew.phase = 2 → p.tableOk = true → p.bootOk = false → Completes (.recoveryPhaseComplete p) s (fun t =>
      t.stew = { s.stew with st := .recovery } ∧ Frame [.stew, .rel] s t)) ∧
    (s.stew.phase = 2 → p.tableOk = true → p.bootOk = true → Completes (.recoveryPhaseComplete p) s (fun t =>
      t.stew.phase = 3 ∧ t.stew.st = .start ∧ t.stew.bootDone = true ∧ t.stew.bootA = some t.stew.boot ∧
      t.stew.bootB = some t.stew.boot ∧
      t.stew.boot = if s.stew.bootDone then s.stew.boot
        else min (max (s.stew.bootA.getD 0) (s.stew.bootB.getD 0) + 1) (2 ^ 32 - 1))) ∧
    (s.stew.phase = 3 → Completes (.recoveryPhaseComplete p) s (fun t => t.stew = { s.stew with phase := 4 } ∧ t.aon.stream = [] ∧
      t.eng.journal = (s.aon.stream.map fun r => { r with durable := true }).reverse ++ s.eng.journal ∧
      Frame [.aon, .stew, .eng] s t)) ∧
    (s.stew.phase = 4 → Completes (.recoveryPhaseComplete p) s (fun t => t.stew.phase = 5 ∧ t.stew.pendGen = none ∧
      t.recd.due = none ∧
      (let new := s.eng.journal.reverse.filter fun r => decide (s.eng.epoch < r.epoch);
        t.eng.epoch = (((replayable s ((new.head?.map JRec.seq).getD 0) new).getLast?).map JRec.epoch).getD s.eng.epoch))) ∧
    (s.stew.phase = 5 → Completes (.recoveryPhaseComplete p) s (fun t => t.stew.phase = 6 ∧
      t.eng = { s.eng with drain := [(s.eng.epoch, 0)], oldest := s.eng.epoch, barriers := [], binders := [] } ∧
      t.idx = { s.idx with freedSlots := [] } ∧ Frame [.stew, .eng, .obj, .idx] s t))

/-- POWER STATES (R325, R429 to R432): an entry goes on step by step and ends in its state, or turns back where work has
arrived; a wake begins the exit, whose end is P0 with every island powered. POWER, TEMPERATURE, CLOCKS (R428, R456 to
R459): the mean power moves the clock down above 800 W and up below 780 W; samples are held; a critical temperature for 10
µs trips; lost reference clocks take their links down and come back. -/
def Obligations.PowerStatesHeatAndClocksChange : Prop :=
  ((∀ (s : State) (g : Nat), halted s = false → s.stew.goal = some g →
    (s.stew.wake = true → Completes .powerStateReversiblePoint s (fun t =>
      t.stew = { s.stew with goal := none, exiting := true } ∧ Frame [.stew] s t)) ∧
    (s.stew.wake = false → s.stew.pwStep < 7 → (s.stew.pwStep = 0 → drained s = true) →
      Completes .powerStateReversiblePoint s (fun t => t.stew = { s.stew with pwStep := s.stew.pwStep + 1 } ∧ SameBytes s t)) ∧
    (s.stew.wake = false → s.stew.pwStep = 7 → Completes .powerStateReversiblePoint s (fun t =>
      t.stew.pstate = g ∧ t.stew.goal = none ∧ t.stew.pwReq = none ∧ t.aon = { s.aon with off := offIn g } ∧
      (∀ box, s.stew.pwReq = some box → Answers box 0 0 [] s t) ∧ Frame [.stew, .aon] s t))) ∧
  (∀ (s : State) (src : Nat), halted s = false → src ≤ 4 → ¬(src = 3 ∧ s.stew.pstate = 3) → s.stew.exiting = false →
    (s.stew.goal.isSome = true → Completes (.powerStateWake src) s (fun t =>
      t.stew = { s.stew with wake := true } ∧ Frame [.stew, .recd] s t)) ∧
    (s.stew.goal = none → s.stew.pstate ≠ 0 → Completes (.powerStateWake src) s (fun t =>
      t.stew = { s.stew with wake := true, exiting := true } ∧ Frame [.stew, .recd] s t))) ∧
  (∀ (s : State), halted s = false → s.stew.exiting = true → Completes .powerStateExitComplete s (fun t =>
    t.stew.pstate = 0 ∧ t.stew.exiting = false ∧ t.stew.wake = false ∧ t.stew.pwReq = none ∧
    t.aon = { s.aon with off := [], notReady := [] } ∧ t.rel = { s.rel with only62 := [] } ∧
    (∀ box, s.stew.pwReq = some box → Answers box (if s.stew.pstate = 0 then 0x8002 else 0) 0 [] s t) ∧
    Frame [.aon, .stew, .rel] s t))) ∧
  ((∀ (s : State) (mw : Nat), halted s = false → Completes (.powerMeanSample mw) s (fun t =>
    t.aon = { s.aon with powerSamples := (mw :: s.aon.powerSamples).take 100 } ∧ Frame [.aon] s t)) ∧
  (∀ (s : State), halted s = false →
    (800000 < powerMean s → Completes .powerClockStep s (fun t => t.aon = { s.aon with
      capMhz := max 1300 (min s.aon.capMhz (profileMhz (gen s)) - 50),
      skipping := s.aon.skipping || decide (min s.aon.capMhz (profileMhz (gen s)) ≤ 1300) } ∧ Frame [.aon] s t)) ∧
    (powerMean s < 780000 → Completes .powerClockStep s (fun t => t.aon = { s.aon with
      capMhz := if profileMhz (gen s) ≤ s.aon.capMhz + 50 then 1700 else s.aon.capMhz + 50, skipping := false } ∧
      Frame [.aon] s t))) ∧
  (∀ (s : State) (temps : List Int) (rails : List (Nat × Nat)), halted s = false → temps.length = 212 →
    Completes (.thermalSample temps rails) s (fun t => t.aon.temps = temps ∧ t.aon.rails = rails ∧
      (∀ k < 8, (1520 ≤ coreTemp t k → t.aon.stackHot.contains k = true) ∧ (coreTemp t k < 1472 → t.aon.stackHot.contains k = false) ∧
        t.aon.refresh2.contains k = decide (1360 < coreTemp t k)) ∧
      t.aon.critSince = (if critical t then some (s.aon.critSince.getD s.aon.uptime) else none) ∧ Frame [.aon, .rel, .recd] s t)) ∧
  (∀ (s : State) (since : Nat), halted s = false → s.aon.critSince = some since → since + 10000 ≤ s.aon.uptime →
    s.aon.tripHold = false → Completes .thermalTrip s (fun t => t.aon = { s.aon with
      tripHold := true, tripSeen := s.aon.pwrFailLow, flush := some { cause := 1, jrecs := undurable s, at_ := s.aon.uptime } } ∧
      Frame [.aon, .rel] s t)) ∧
  (∀ (s : State), halted s = false →
    (s.aon.sysLost = false → Completes (.refclkLoss 0) s (fun t => t.aon = { s.aon with
      sysLost := true, flush := some { cause := 3, jrecs := undurable s, at_ := s.aon.uptime } } ∧ Frame [.aon, .rel] s t)) ∧
    (s.aon.pcieLost = false → Completes (.refclkLoss 1) s (fun t => t.aon.pcieLost = true ∧ t.hif.linkUp = false)) ∧
    (s.aon.ethLost = false → Completes (.refclkLoss 2) s (fun t => t.aon = { s.aon with ethLost := true } ∧
      t.fab = { s.fab with ports := [false, false, false, false] } ∧ Frame [.aon, .fab, .rel] s t))) ∧
  (∀ (s : State) (clk : Nat), Completes (.refclkReturn clk) s (fun t => t.aon = { s.aon with
    sysLost := s.aon.sysLost && clk != 0, pcieLost := s.aon.pcieLost && clk != 1, ethLost := s.aon.ethLost && clk != 2 } ∧
    Frame [.aon] s t)))

/-- SIDEBAND (R464 to R466): the mirror takes the node's values; a Block Read with a valid PEC answers the mirror's
uptime, then its content; an undefined code answers an empty block; JTAG selects an instruction, a test one only with its
strap. -/
def Obligations.SidebandAnswersFromTheMirror : Prop :=
  (∀ (s : State), halted s = false → Completes .smbusMirrorUpdate s (fun t => t.aon = { s.aon with mirror := {
    at_ := s.aon.uptime, status := nodeStatusReg s, boot := s.stew.boot, up := s.aon.uptime, temps := mirrorTemps s,
    rails := (List.range 8).map fun i => s.aon.rails.getD i (0, 0), power := powerMean s / 100, thermal := thermalBits s } } ∧
    Frame [.aon] s t)) ∧
  (∀ (s : State),
    ReadsMirror .smbusIdent (toLe 8 identReg) s ∧ ReadsMirror .smbusNodeStatus (toLe 8 s.aon.mirror.status) s ∧
    ReadsMirror .smbusBootUptime (toLe 4 s.aon.mirror.boot ++ toLe 8 s.aon.mirror.up) s ∧
    ReadsMirror .smbusFaultCause (toLe 8 s.aon.faultCause.toNat) s ∧
    ReadsMirror .smbusLastGasp (toLe 8 s.aon.gasp.toNat ++ toLe 8 s.aon.gaspUp) s ∧
    ReadsMirror .smbusLogFailCount (toLe 8 (logFailCount s)) s ∧
    ReadsMirror .smbusTemps (slice (s.aon.mirror.temps.flatMap fun x => toLe 2 (fieldOfInt 16 x)) 0 22) s ∧
    ReadsMirror .smbusRails (slice (s.aon.mirror.rails.flatMap fun r => toLe 2 r.1 ++ toLe 2 r.2) 0 32 ++ toLe 2 s.aon.mirror.power) s ∧
    ReadsMirror .smbusThermal (toLe 2 (s.aon.mirror.thermal % 8 + 8 * (if s.aon.tripHold then 1 else 0))) s) ∧
  (∀ (s : State) (code : Nat), smbCodes.contains code = false →
    Completes (.smbusUndefinedCode code true) s (fun t => t.aon = { s.aon with smbReply := some [] } ∧ Frame [.aon] s t)) ∧
  (∀ (s : State) (i : Nat), domainDown s 63 = false →
    (let strapped (ir : JtagIr) : JtagIr := if s.aon.straps.testBit 4 then ir else .bypass;
    SelectsJtag .jtagIdcode .idcode 0x0A1E04F3 s ∧ SelectsJtag (.jtagBypass i) .bypass 0 s ∧ SelectsJtag .jtagSamplePreload .sample 0 s ∧
    SelectsJtag .jtagExtest (strapped .extest) 0 s ∧ SelectsJtag .jtagIntest (strapped .intest) 0 s ∧
    SelectsJtag .jtagClamp (strapped .clamp) 0 s ∧ SelectsJtag .jtagHighz (strapped .highz) 0 s))

/-- FIRMWARE (R334, R446 to R448): a valid image goes into the inactive slot; an activation restarts the Steward from its
slot; one not ready in 200 ms falls back; the restart's end marks the slot active and never lowers the security minimum.
ATTESTATION (R449): the connection goes through version, capabilities and algorithms; digests, certificate, challenge and
measurements are answered after them; a session opens and closes. The codes are log entry 18's. -/
def Obligations.FirmwareStartsAndSpdmConnects : Prop :=
  ((∀ (s : State) (box : Nat) (image m : Bytes), Serves s box 0x0410 m → s.recd.active = false → 512 ≤ fld m 0x28 4 →
    fld m 0x28 4 ≤ 2 ^ 25 →
    (let b := slice image 0 (fld m 0x28 4);
      (∀ off, firstBad (imageReserved b) = some off → Completes (.fwLoad box image) s (fun t => Answers box 0x0102 off [] s t ∧
        Frame [.stew] s t)) ∧
      (firstBad (imageReserved b) = none → imageValid s.stew b = true → Completes (.fwLoad box image) s (fun t =>
        Answers box 0 0 (toLe 1 (1 - s.stew.active) ++ zeros 3 ++ toLe 4 (fld b 8 4)) s t ∧
        slotAt t.stew (1 - s.stew.active) = slotFrom b ∧ t.stew.active = s.stew.active ∧ t.stew.secMin = s.stew.secMin ∧
        (s.stew.active ≤ 1 → slotAt t.stew s.stew.active = slotAt s.stew s.stew.active) ∧ Frame [.stew] s t)))) ∧
  (∀ (s : State) (box : Nat) (m : Bytes), Serves s box 0x0411 m → byteAt m 0x20 ≤ 1 → s.stew.pendGen = none → doneRunning s = false →
    slotStarts s.stew (slotAt s.stew (byteAt m 0x20)) = true → (slotAt s.stew (byteAt m 0x20)).genMin ≤ 1 →
    1 ≤ (slotAt s.stew (byteAt m 0x20)).genMax →
    Completes (.fwActivate box) s (fun t => Answers box 0 0 [] s t ∧ t.stew.busy = true ∧ t.stew.busySince = s.aon.uptime ∧
      t.stew.activating = some (byteAt m 0x20) ∧ t.stew.active = s.stew.active ∧ Frame [.stew] s t)) ∧
  (∀ (s : State) (k : Nat), halted s = false → s.stew.activating = some k → s.stew.busySince + 200000000 ≤ s.aon.uptime →
    Completes .fwActivateTimeout s (fun t => t.stew.activating = none ∧ t.stew.busySince = s.aon.uptime ∧
      t.stew.active = s.stew.active ∧ t.stew.busy = s.stew.busy ∧ Frame [.stew] s t)) ∧
  (∀ (s : State), halted s = false → s.stew.busy = true →
    (s.stew.activating = none → Completes .stewardRestartComplete s (fun t => t.stew = { s.stew with busy := false } ∧ Frame [.stew] s t)) ∧
    (∀ k, s.stew.activating = some k → Completes .stewardRestartComplete s (fun t => t.stew.busy = false ∧ t.stew.active = k ∧
      t.stew.activating = none ∧ t.stew.secMin = max s.stew.secMin (slotAt s.stew k).sec ∧ t.stew.rom = false ∧
      t.stew.heldPost = none ∧ t.fls.tables = s.fls.tables ++ Config.imageTables (slotAt s.stew k).image ∧ Frame [.stew, .fls, .rel] s t)))) ∧
  (∀ (s : State), halted s = false →
    Completes .getVersion s (fun t => SendsSpdm (spdmMsg 0x04 []) s t ∧ t.stew.spdm = .versioned ∧ t.stew.spdmSess = none) ∧
    (s.stew.spdm = .versioned → Completes .getCapabilities s (fun t => SendsSpdm (spdmMsg 0x61 []) s t ∧ t.stew.spdm = .capable)) ∧
    (s.stew.spdm = .capable →
      Completes (.negotiateAlgorithms true) s (fun t => SendsSpdm (spdmMsg 0x63 []) s t ∧ t.stew.spdm = .negotiated)) ∧
    (negotiated s = true →
      Completes .getDigests s (fun t => SendsSpdm (spdmMsg 0x01 []) s t ∧ t.stew.spdm = s.stew.spdm) ∧
      (∀ off len, Completes (.getCertificate 0 off len) s (fun t =>
        SendsSpdm (spdmMsg 0x02 (toLe 2 off ++ toLe 2 len)) s t ∧ t.stew.spdm = s.stew.spdm)) ∧
      Completes (.challenge 0) s (fun t => SendsSpdm (spdmMsg 0x03 []) s t ∧ t.stew.spdm = s.stew.spdm) ∧
      (s.stew.busy = false → ∀ i, 1 ≤ i → i ≤ 6 → Completes (.getMeasurements i) s (fun t =>
        SendsSpdm (spdmMsg 0x60 (toLe 1 i ++ measurement s i)) s t ∧ t.stew.spdm = s.stew.spdm))) ∧
    (s.stew.spdm = .negotiated → Completes (.keyExchange 0) s (fun t =>
      SendsSpdm (spdmMsg 0x64 (toLe 4 (s.stew.sessCtr + 1))) s t ∧ t.stew.spdm = .sessionOpening ∧ t.stew.sessCtr = s.stew.sessCtr + 1)) ∧
    (s.stew.spdm = .sessionOpening → Completes (.finish true) s (fun t =>
      SendsSpdm (spdmMsg 0x65 []) s t ∧ t.stew.spdm = .session ∧ t.stew.spdmSess = some s.stew.sessCtr)) ∧
    (∀ id, s.stew.spdm = .session → s.stew.spdmSess = some id →
      Completes (.heartbeat id) s (fun t => SendsSpdm (spdmMsg 0x68 []) s t ∧ t.stew.spdm = .session) ∧
      Completes (.keyUpdate id) s (fun t => SendsSpdm (spdmMsg 0x69 []) s t ∧ t.stew.spdm = .session) ∧
      Completes (.endSession id) s (fun t => SendsSpdm (spdmMsg 0x6C []) s t ∧ t.stew.spdm = .negotiated ∧ t.stew.spdmSess = none)))

/-- KEYS (R272, R334): a key command in the open session waits to be carried out, another is refused; a key of two
different halves is loaded; it is destroyed while its tenant owns no PROTECTED object, and the blocks under it are due for
erase. THE CXL MAILBOX (R298): five commands are answered with what their standard says of the node's state, any other
with Unsupported (log entry 18). -/
def Obligations.KeysAndCxlCommandsAnswer : Prop :=
  ((∀ (s : State) (sess : Nat) (m : Bytes), halted s = false → s.stew.kreq = none →
    (kBad s m (inSession s sess) = none → Completes (.vendorDefinedRequest sess m) s (fun t =>
      t.stew = { s.stew with kreq := some (zTenant m, m) } ∧ Frame [.stew] s t)) ∧
    (∀ st d, kBad s m (inSession s sess) = some (st, d) → Completes (.vendorDefinedRequest sess m) s (fun t =>
      SendsSpdm (spdmMsg 0x7E (answerOf m st d [])) s t ∧ t.stew.kreq = none))) ∧
  (∀ (s : State) (tn : Nat) (m : Bytes), halted s = false → kReady s 0x0407 = some (tn, m) →
    slice m 0x20 32 ≠ slice m 0x40 32 →
    Completes .keyLoad s (fun t => tabGet t.fls.xts tn = some (slice m 0x20 64) ∧
      (∀ j, j ≠ tn → tabGet t.fls.xts j = tabGet s.fls.xts j) ∧ t.stew.kreq = none ∧
      t.stew.doeOut = s.stew.doeOut ++ [spdmMsg 0x7E (answerOf m 0 0 [])] ∧ Frame [.stew, .fls, .rel] s t)) ∧
  (∀ (s : State) (tn : Nat) (m : Bytes), halted s = false → kReady s 0x0408 = some (tn, m) →
    ((∀ p ∈ s.obj.recs, ¬(p.2.protected_ = true ∧ hTenant p.2.handle = tn)) → Completes .keyDestroy s (fun t =>
      tabGet t.fls.xts tn = none ∧ (∀ j, j ≠ tn → tabGet t.fls.xts j = tabGet s.fls.xts j) ∧
      (∀ b r, tabGet s.fls.blks b = some r → r.key = tn → (r.mode = 1 ∨ r.mode = 2) → (blkOf t b).eraseDue = true) ∧
      t.stew.kreq = none ∧ t.stew.doeOut = s.stew.doeOut ++ [spdmMsg 0x7E (answerOf m 0 0 [])] ∧ Frame [.stew, .fls, .rel] s t)) ∧
    ((∃ p ∈ s.obj.recs, p.2.protected_ = true ∧ hTenant p.2.handle = tn) → Completes .keyDestroy s (fun t => t.stew.kreq = none ∧
      t.stew.doeOut = s.stew.doeOut ++ [spdmMsg 0x7E (answerOf m 0x0804 0 [])] ∧ Frame [.stew] s t)))) ∧
  ((∀ (s : State), halted s = false →
    AnswersCxl .cxlIdentifyMemoryDevice 0 (Config.standardPayload 0x4000 (toLe 8 s.hif.bar2)) s ∧
    AnswersCxl .cxlGetEventRecords 0 (Config.standardPayload 0x0100 s.stew.cxlEvents.flatten) s ∧
    AnswersCxl .cxlGetHealthInfo 0 (Config.standardPayload 0x4200 (toLe 8 (nodeStatusReg s))) s ∧
    AnswersCxl .cxlGetPoisonList 0 (Config.standardPayload 0x4300 (s.hif.poisonList.flatMap (toLe 8))) s) ∧
  (∀ (s : State), halted s = false → Completes .cxlClearEventRecords s (fun t =>
    t.stew = { s.stew with cxlEvents := [], cxlOut := s.stew.cxlOut ++ [(0, [])] } ∧ Frame [.stew] s t)) ∧
  (∀ (s : State) (op : Nat), halted s = false → op ∉ [0x4000, 0x0100, 0x0101, 0x4200, 0x4300] →
    AnswersCxl (.cxlUnsupportedCommand op) 3 [] s))

/-- MOVE (R236, R238, R247): a move to a faster tier makes an object at rest PROMOTING once space is granted; a move home
releases a clean unpinned copy; a rehome begins to copy under a pin on the home, and one to its own home has nothing to
do. -/
def Obligations.MovesPromoteEvictAndRehome : Prop :=
  ∀ (s : State) (n : Nat) (c : Cmd) (o : ObjRec) (i : Nat), halted s = false → readyCmd s n 0x52 = some c →
    handleStatus s c.tenant (fld c.entry 8 8) = none → objOf s (fld c.entry 8 8) = some o → i = hIndex (fld c.entry 8 8) →
    o.rehome = none →
    ((byteAt c.entry 1).testBit 0 = false → byteAt c.entry 5 < o.home →
      moveRefused s o false (byteAt c.entry 5) (fld c.entry 6 2 % 512) = none → o.st = .absent → o.home ≠ 4 →
      (∃ s1, moveSpace (hTenant o.handle) {
        cmd := n, evict := false, rehome := false, tier := byteAt c.entry 5, place := fld c.entry 6 2 } o.size (o.hostPins != 0)
          (modCmd n (fun c => { c with ran := true }) s) = some s1) →
      Completes (.move n) s (fun t => ∃ o', tabGet t.obj.recs i = some o' ∧ o'.st = .promoting ∧ o'.upper = byteAt c.entry 5 ∧
        o'.placeUp = placeCode s (byteAt c.entry 5) (fld c.entry 6 2) ∧ o'.home = o.home ∧ o'.mem = o.mem)) ∧
    ((byteAt c.entry 1).testBit 0 = false → byteAt c.entry 5 < o.home →
      moveRefused s o false (byteAt c.entry 5) (fld c.entry 6 2 % 512) = none → o.st = .resident → o.target = 255 → o.waiters = [] →
      o.upper = byteAt c.entry 5 →
      samePlace o { cmd := n, evict := false, rehome := false, tier := byteAt c.entry 5, place := fld c.entry 6 2 } = true →
      Completes (.move n) s (fun t => cmdOf t n = none ∧ SameBytes s t ∧
        ∃ o', tabGet t.obj.recs i = some o' ∧ o'.st = .resident ∧ o'.upper = o.upper ∧ o'.placeUp = o.placeUp)) ∧
    ((byteAt c.entry 1).testBit 0 = false → byteAt c.entry 5 = o.home → o.st = .resident → o.target = 255 → o.pinsUpper = 0 →
      o.hostPins = 0 → o.dirty = false → moveRefused s o false (byteAt c.entry 5) (fld c.entry 6 2 % 512) = none →
      Completes (.move n) s (fun t => cmdOf t n = none ∧ SameBytes s t ∧
        ∃ o', tabGet t.obj.recs i = some o' ∧ o'.st = .absent ∧ o'.upper = 255)) ∧
    ((byteAt c.entry 1).testBit 0 = true → moveRefused s o true (byteAt c.entry 5) (fld c.entry 6 2 % 512) = none →
      (byteAt c.entry 5 = o.home → Completes (.moveRehome n) s (fun t => cmdOf t n = none ∧ SameBytes s t)) ∧
      (byteAt c.entry 5 ≠ o.home → o.st = .absent → o.home ≠ 4 → (byteAt c.entry 5 = 4 → t4Status s i = 0) →
        (∃ s1, moveSpace (hTenant o.handle) {
          cmd := n, evict := false, rehome := true, tier := byteAt c.entry 5, place := fld c.entry 6 2 } (homeCharge o) true
            (modCmd n (fun c => { c with ran := true }) s) = some s1) →
        Completes (.moveRehome n) s (fun t => ∃ o', tabGet t.obj.recs i = some o' ∧ o'.home = o.home ∧
          o'.rehome = some { tier := byteAt c.entry 5, place := placeCode s (byteAt c.entry 5) (fld c.entry 6 2), cmd := n } ∧
          o'.pinsHome = o.pinsHome + 1)))

/-- THE LIFE OF COPIES (R238, R239, R244, R247, R248): a whole copy makes its object RESIDENT; a copy written home is
released; a cleaning leaves a clean copy; a home switches in one step; a released location and a freed object are gone. -/
def Obligations.CopiesPromoteWriteBackAndRelease : Prop :=
  ∀ (s : State) (i : Nat) (o : ObjRec), halted s = false → tabGet s.obj.recs i = some o →
    (o.st = .promoting → t4Busy s i = false → packBusy s i = false → spaceThere s o.upper o.placeUp = true →
      flashRoom s o o.upper = true → o.target = 255 →
      (∀ w ∈ o.waiters, w.tier = o.upper ∧ w.tier < o.home ∧ w.rehome = false ∧ samePlace o w = true) →
      Completes (.promotionCopyComplete i) s (fun t => (∀ w ∈ o.waiters, cmdOf t w.cmd = none) ∧
        ∃ o', tabGet t.obj.recs i = some o' ∧ o'.st = .resident ∧ o'.upper = o.upper ∧ o'.mem = o.mem)) ∧
    (o.st = .evicting → o.pinsUpper = 0 → o.hostPins = 0 →
      (o.dirty = true → (o.home ≠ 4 ∨ t4Status s i = 0) → Completes (.writeBackStart i) s (fun t =>
        ∃ o', tabGet t.obj.recs i = some o' ∧ o'.st = .writingBack ∧ o'.wbEpoch = s.eng.epoch ∧ o'.mem = o.mem)) ∧
      (o.dirty = false → o.waiters = [] → Completes (.writeBackStart i) s (fun t => SameBytes s t ∧
        ∃ o', tabGet t.obj.recs i = some o' ∧ o'.st = .absent ∧ o'.upper = 255))) ∧
    (o.st = .writingBack → o.pinsUpper = 0 → o.hostPins = 0 → t4Busy s i = false → packBusy s i = false →
      flashRoom s o o.home = true → (∀ w ∈ o.waiters, w.tier = o.home ∧ w.rehome = false) →
      Completes (.writeBackDurable i) s (fun t => (∀ w ∈ o.waiters, cmdOf t w.cmd = none) ∧
        ∃ o', tabGet t.obj.recs i = some o' ∧ o'.st = .absent ∧ o'.writtenEpoch = o.wbEpoch ∧ o'.dirty = false ∧ o'.mem = o.mem)) ∧
    (∀ since, o.dirtySince = some since → since + genCleaning (gen s) ≤ s.aon.uptime → o.dirty = true → o.st ≠ .writingBack →
      o.st ≠ .freeing → packBusy s i = false → (o.home = 4 → t4Busy s i = false ∧ o.cleaning = [] ∧ t4Status s i = 0) →
      backgroundUp s = true → replayBegins s 36 0 7 o.handle = true →
      Completes (.cleaningPass i) s (fun t => SameBytes s t ∧ ∃ o', tabGet t.obj.recs i = some o' ∧ o'.pages = [] ∧
        (if o.checkpoint then o'.dirty = true ∧ o'.wbEpoch = s.eng.epoch ∧ packBusy t i = true
          else if o.home = 4 ∧ o.pages ≠ [] then o'.dirty = true ∧ o'.cleaning = o.pages ∧ o'.wbEpoch = s.eng.epoch
          else o'.dirty = false ∧ o'.writtenEpoch = s.eng.epoch))) ∧
    (∀ r, o.rehome = some r → t4Busy s i = false → o.old = none → packBusy s i = false → flashRoom s o r.tier = true → o.waiters = [] →
      Completes (.rehomeSwitch i) s (fun t => cmdOf t r.cmd = none ∧ ∃ o', tabGet t.obj.recs i = some o' ∧ o'.home = r.tier ∧
        o'.rehome = none ∧ o'.old = (if o.pinsHome ≤ 1 then none else some o.home) ∧ o'.mem = o.mem)) ∧
    (o.old.isSome = true → o.pinsOld = 0 → Completes (.oldLocationRelease i) s (fun t =>
      tabGet t.obj.recs i = some { o with old := none } ∧ SameBytes s t ∧ Frame [.obj] s t)) ∧
    (o.st = .freeing → pinsAll o = 0 → Completes (.freeRelease i) s (fun t => tabGet t.obj.recs i = none ∧
      t.obj.freed = s.obj.freed ++ [i] ∧ (∀ n, o.freeCmd = some n → cmdOf t n = none)))

/-- HUSKS AND LOCKS (R204, R205, R209, R210, R213, R214): the oldest husk that waits takes the lowest free slot and the
next age; a husk's next lock is granted or waited for; one that names a full list waits before it takes a lock; a
command's ranges are granted all at once. VERSIONS, SETTLING, SHADOWS (R97, R109, R165, R222, R224): reclaim only drops
versions and lists no epoch can reach; an old tombstone settles; a rebuild's complete shadow forms its swap husk. -/
def Obligations.HusksLockVersionsAreReclaimed : Prop :=
  ((∀ (s : State) (h : Nat) (x : Husk) (k : Nat), halted s = false → tabGet s.eng.husks h = some x → x.hstate = .waitingSlot →
    s.eng.jdown = false → huskRoom s x = true → (∀ p ∈ s.eng.husks, p.2.hstate = .waitingSlot → h ≤ p.1) →
    k < 4096 → k ∉ slotsUsed s → (∀ j < k, j ∈ slotsUsed s) →
    Completes (.huskAdmission h) s (fun t =>
      tabGet t.eng.husks h = some { x with
        hstate := .admitted, slot := some k, age := s.eng.nextAge, reserved := huskNeeds x, plan := declaredPlan s x } ∧
      t.eng.nextAge = s.eng.nextAge + 1 ∧ t.eng.reserved = s.eng.reserved + huskNeeds x ∧ t.eng.epoch = s.eng.epoch ∧
      (∀ j, j ≠ h → tabGet t.eng.husks j = tabGet s.eng.husks j) ∧ Frame [.eng] s t)) ∧
  (∀ (s : State) (h : Nat) (x : Husk) (r : Range) (rest : List Range), halted s = false → tabGet s.eng.husks h = some x →
    (x.hstate = .admitted ∧ explicitFull s x = none ∨ x.hstate = .preparing) → x.waitList = none → x.plan = r :: rest →
    (∀ l ∈ s.eng.locks, lockOf true h l = true → l.held = true ∧ ¬(l.range.space = r.space ∧ l.range.name = r.name)) →
    NoOtherHuskWaits h s →
    (huskMayHold s h r = true → grantBehind s true h = false → rest ≠ [] → Completes (.huskLockRequest h) s (fun t =>
      tabGet t.eng.husks h = some { x with plan := rest, hstate := .preparing } ∧
      t.eng.locks = s.eng.locks ++ [{ husk := true, id := h, range := r, held := true }] ∧ t.eng.epoch = s.eng.epoch)) ∧
    ((huskMayHold s h r = false ∨ grantBehind s true h = true) →
      ((∀ p ∈ s.eng.husks, woundable s h r p = false) → Completes (.huskLockRequest h) s (fun t =>
        tabGet t.eng.husks h = some { x with plan := rest, hstate := .waiting } ∧
        t.eng.locks = s.eng.locks ++ [{ husk := true, id := h, range := r, held := false }] ∧ t.eng.epoch = s.eng.epoch)) ∧
      (∀ j y, tabGet s.eng.husks j = some y → woundable s h r (j, y) = true → Completes (.huskLockRequest h) s (fun t =>
        (∃ y', tabGet t.eng.husks j = some y' ∧ y'.hstate = .admitted ∧ y.wounds < y'.wounds ∧ y'.age = y.age) ∧
        (∀ l ∈ t.eng.locks, lockOf true j l = false) ∧ t.eng.epoch = s.eng.epoch)))) ∧
  (∀ (s : State) (h : Nat) (x : Husk) (w : Nat × Nat), halted s = false → tabGet s.eng.husks h = some x → x.hstate = .admitted →
    x.waitList = none → explicitFull s x = some w → Completes (.huskLockRequest h) s (fun t =>
      (tabGet t.eng.husks h).map (fun y => (y.hstate, y.waitList, y.age)) = some (.admitted, some w, x.age) ∧
      t.eng.locks = s.eng.locks.filter (fun l => !lockOf true h l) ∧ t.eng.epoch = s.eng.epoch)) ∧
  (∀ (s : State) (h : Nat) (x : Husk) (l : Lock), halted s = false → tabGet s.eng.husks h = some x → x.plan ≠ [] →
    s.eng.locks.find? (fun l => lockOf true h l && !l.held) = some l → huskMayHold s h l.range = true →
    grantBehind s true h = false → NoOtherHuskWaits h s →
    Completes (.huskLockGrant h) s (fun t => tabGet t.eng.husks h = some { x with hstate := .preparing } ∧
      t.eng.locks = (s.eng.locks.map fun k => if lockOf true h k then { k with held := true } else k) ∧ Frame [.eng] s t)) ∧
  (∀ (s : State) (n : Nat) (c : Cmd) (p : Qp), halted s = false → cmdOf s n = some c → c.holds = false →
    tabGet s.hif.qps c.qp = some p → cmdMayHold s n ((s.eng.locks.filter (lockOf false n)).map Lock.range) = true → grantBehind s false n = false →
    Completes (.commandRangeGrant n) s (fun t => cmdOf t n = some { c with holds := true } ∧
      tabGet t.hif.qps c.qp = some { p with wait := false } ∧
      (∀ l ∈ t.eng.locks, lockOf false n l = true → l.held = true) ∧ Frame [.hif, .eng] s t))) ∧
  ((∀ (s : State), halted s = false → Completes .versionReclaim s (fun t =>
    (∀ v ∈ t.idx.vers, v ∈ s.idx.vers) ∧ (∀ w ∈ t.idx.swaps, w ∈ s.idx.swaps) ∧
    (∀ p ∈ t.idx.lists, ∀ e, p.2.freeAfter = some e → epochFloor s < e) ∧
    (∀ m ∈ t.idx.freedSlots, m ∈ s.idx.freedSlots ∧ epochFloor s < m.2.2) ∧ Frame [.idx, .obj] s t)) ∧
  (∀ (s : State) (list pos : Nat) (l : IList) (x : LEnt), halted s = false → tabGet s.idx.lists list = some l →
    l.ents[pos]? = some x → x.tomb = true → x.settled = false → x.delEpoch < epochFloor s →
    streamOk s 6 1 1 = true → replayBegins s 61 0 5 list = true → Completes (.settling list pos) s (fun t =>
      tabGet t.idx.lists list = some { l with ents := listSet l.ents pos { x with settled := true } } ∧
      (∀ j, j ≠ list → tabGet t.idx.lists j = tabGet s.idx.lists j) ∧ Frame [.idx, .fab, .recd] s t)) ∧
  (∀ (s : State) (id : Nat) (b : Rebuild), halted s = false → tabGet s.idx.rebuilds id = some b → b.running = true →
    (∀ p ∈ s.eng.husks, p.2.rebuild ≠ some id) →
    streamOk s 5 (rebuildTenant s b) (5 + rebuildTenant s b) = true →
    ((b.kind = 4 ∧ staleHandle s b.coll = false) ∨
      (b.kind < 4 ∧ ∃ d, collAt s b.coll s.eng.epoch = some d ∧
        (b.kind = 1 → coCount d < 2 ^ 20 ∧ splitSwaps s b.coll = false) ∧
        (b.kind = 0 → replayBegins s 61 0 6 (sweepTarget s b) = true))) →
    Completes (.rebuildShadowComplete id) s (fun t => t.eng.nextHusk = s.eng.nextHusk + 1 ∧ t.eng.epoch = s.eng.epoch ∧
      ∃ x, tabGet t.eng.husks s.eng.nextHusk = some x ∧ x.hstate = .waitingSlot ∧ x.rebuild = some id)))

/-- GROUPS AND COMMITS (R181, R215, R218 to R220, R96): computed husks join the open group; the group closes with one
record of the next epoch; the durable record commits, or waits for a drain entry; what waited goes on; a journal that
takes no record for 100 ms stops the engine. -/
def Obligations.GroupsCloseAndCommit : Prop :=
  (∀ (s : State) (h : Nat) (x : Husk), halted s = false → tabGet s.eng.husks h = some x → x.hstate = .computing →
    (let dst := ((x.actions.head?).map Action.target).getD 0;
    (x.ops = 0 → x.persistent = false → (∀ o, objOf s dst = some o → o.home < 2) →
      journalBytes (groupHusks s) + sectionBytes x ≤ 4 * 2 ^ 20 →
      Completes (.elementwiseComputeDone h) s (fun t => h ∈ t.eng.group ∧
        (tabGet t.eng.husks h).map Husk.hstate = some .grouped ∧ t.eng.epoch = s.eng.epoch ∧ Frame [.eng] s t)) ∧
    (∀ o, x.ops = 0 → x.persistent = false → objOf s dst = some o → 2 ≤ o.home → (∀ u ∈ s.fls.jext, u.1 < s.fls.nextExt) →
      Completes (.elementwiseComputeDone h) s (fun t =>
        (∃ y, tabGet t.eng.husks h = some y ∧ y.hstate = .computing ∧ y.persistent = true ∧
          ∀ a ∈ y.actions, acComputed a = true → ∀ k ∈ a.exts, extGood t k = true) ∧
        t.eng.group = s.eng.group ∧ t.eng.epoch = s.eng.epoch ∧ Frame [.eng, .fls] s t)) ∧
    (x.persistent = true → journalBytes (groupHusks s) + sectionBytes x ≤ 4 * 2 ^ 20 →
      Completes (.journalExtentsDurable h) s (fun t => h ∈ t.eng.group ∧
        (tabGet t.eng.husks h).map Husk.hstate = some .grouped ∧ t.eng.epoch = s.eng.epoch ∧ Frame [.eng] s t)))) ∧
  (∀ (s : State), halted s = false → mayClose s = true → s.eng.groupSince + genGroup (gen s) * 1000 ≤ s.aon.uptime →
    Completes .commitGroupClose s (fun t => t.eng.group = [] ∧ t.eng.epoch = s.eng.epoch ∧ t.eng.jseq = s.eng.jseq + 1 ∧
      (∃ r, t.eng.closing = s.eng.closing ++ [r] ∧ r.epoch = s.eng.epoch + s.eng.closing.length + 1 ∧ r.seq = s.eng.jseq + 1 ∧ r.durable = false ∧
        r.boot = s.stew.boot ∧ r.uptime = s.aon.uptime ∧ r.gen = (gen s).number ∧ r.crc = recordCrc r ∧
        r.husks.map Prod.fst = (s.eng.husks.filter fun p => s.eng.group.contains p.1).map Prod.fst) ∧
      (∀ p ∈ s.eng.husks, p.1 ∈ s.eng.group → (tabGet t.eng.husks p.1).map Husk.hstate = some .committing) ∧
      Frame [.eng, .recd] s t)) ∧
  (∀ (s s0 : State) (r : JRec) (later : List JRec), s.eng.closing = r :: later → r.durable = false → s.eng.waitFor = none →
    s.aon.inReset.contains 61 = false →
    s0 = (s.onFls fun f => { f with endur := { f.endur with
        journal := f.endur.journal + journalBytes r.husks, programmed := f.endur.programmed + journalBytes r.husks } }).onEng
      (fun e => { e with closing := { r with durable := true } :: later, jtries := 0, jfailAt := none }) →
    (MayCommit { r with durable := true } later s0 →
      Completes .journalRecordDurable s (fun t => Committed { r with durable := true } later s t)) ∧
    (128 ≤ s.eng.drain.length → (∀ p ∈ s.eng.drain, p.2 ≠ 0) → Completes .journalRecordDurable s (fun t =>
      t.eng.waitFor = some 0 ∧ t.eng.closing = { r with durable := true } :: later ∧ t.eng.epoch = s.eng.epoch)) ∧
    Completes .journalWriteFail s (fun t =>
      t.eng = { s.eng with jtries := s.eng.jtries + 1, jfailAt := some (s.eng.jfailAt.getD s.aon.uptime) } ∧ Frame [.eng] s t)) ∧
  (∀ (s : State) (r : JRec) (later : List JRec), halted s = false → MayCommit r later s →
    (s.eng.waitFor = some 1 → Completes .epochRingWaitEnd s (fun t => Committed r later s t)) ∧
    (s.eng.waitFor = some 2 → Completes .versionPoolWaitEnd s (fun t => Committed r later s t))) ∧
  (∀ (s : State) (e : Nat), halted s = false → e ≠ s.eng.epoch → tabGet s.eng.drain e = some 0 → s.eng.waitFor ≠ some 0 →
    Completes (.drainEntryFreed e) s (fun t => t.eng = { s.eng with drain := tabDel s.eng.drain e } ∧ Frame [.eng] s t)) ∧
  (∀ (s : State) (e : Nat) (r : JRec) (later : List JRec), halted s = false → e ≠ s.eng.epoch → tabGet s.eng.drain e = some 0 →
    s.eng.waitFor = some 0 → MayCommit r later (s.onEng fun x => { x with drain := tabDel x.drain e }) →
    Completes (.drainEntryFreed e) s (fun t => Committed r later s t)) ∧
  (∀ (s : State) (since : Nat), halted s = false → s.eng.jfailAt = some since → s.eng.jdown = false →
    since + 100000000 ≤ s.aon.uptime →
    Completes .journalUnavailable s (fun t => t.eng.jdown = true ∧ t.aon.faultCause.getLsbD 1 = true ∧ t.eng.epoch = s.eng.epoch))

/-- HEAD STAGE (R47, R377): a command's items reach the head stage, where a window of 0 leaves none of them waiting unless
another command is ready there, and a single item that fits waits for its window; a sheaf with a stage without a live tile
ends the command with INSUFFICIENT_CAPACITY; the window's end closes the open batch, which enters the head stage under the
next number. STAGE BATCHES (R48, R51, R53 to R57): the batch that may start runs from now, its credits spent, its place in
staging taken; a finished one leaves its stage for every successor, or, of a SPLIT stage, waits for its merge; the slots it
frees are counted; a returned count gives the predecessor credits; a tile without work of an older version switches. -/
def Obligations.ItemsFormBatchesThatStagesRun : Prop :=
  ((∀ (s : State) (n sh : Nat) (c : Cmd), halted s = false → cmdOf s n = some c → c.sheaf = some sh → headReady c = true →
    oldInside s n sh c = false → (∀ k ∈ sgTiles (shStage c.desc 0), islandUp s (tileIsland k) = true) →
    (noLiveStage s c.desc = true →
      (c.peer = none → Completes (.headStageItemArrival n) s (fun t => t = withDigests s (finishCmd n (plain 0x0201) s))) ∧
      (∀ p, c.peer = some p → Completes (.headStageItemArrival n) s (fun t => cmdOf t n = none))) ∧
    (noLiveStage s c.desc = false → Completes (.headStageItemArrival n) s (fun t =>
      cmdOf t n = some { c with arrived := true } ∧
      (shWindow c.desc = 0 →
        (∀ p ∈ s.hif.cmds, p.1 ≠ n → p.2.sheaf = some sh → headReady p.2 = true → p.2.desc ≠ c.desc) →
        (sheafRt t sh).open_ = []) ∧
      (shWindow c.desc ≠ 0 → c.items = 1 → (sheafRt s sh).open_ = [] → 1 < shBatchMax c.desc →
        (sheafRt t sh).open_ = [{ cmd := n, idx := 0 }] ∧ (sheafRt t sh).since.isSome = true) ∧
      Frame [.hif, .shv, .recd] s t))) ∧
  (∀ (s : State) (sh t0 : Nat), halted s = false → (sheafRt s sh).since = some t0 → (sheafRt s sh).open_ ≠ [] →
    t0 + shWindow (itemsDesc s sh (sheafRt s sh).open_) ≤ s.aon.uptime →
    Completes (.batchWindowExpiry sh) s (fun t =>
      let r := sheafRt s sh
      let base := if r.ver = (gen s).number then r.base else r.next
      sheafRt t sh = { r with open_ := [], since := none, next := r.next + 1, base := base, ver := (gen s).number } ∧
      StandsAt s (itemsDesc s sh r.open_) sh 0 255 { num := r.next, seq := r.next - base, items := r.open_ } t ∧
      Frame [.shv, .recd] s t))) ∧
  ((∀ (s : State) (sh i k : Nat) (b : Batch), halted s = false → startable s sh i k = some b →
    sharesTurn s (sgBase (shStage (itemsDesc s sh b.items) i) + k) sh = true →
    Completes (.stageBatchStart sh i k) s (fun t =>
      let d := itemsDesc s sh b.items
      let e := shStage d i
      (stageOf t (stKey sh i k)).running = some b ∧ (stageOf t (stKey sh i k)).startAt = s.aon.uptime ∧
      (stageOf t (stKey sh i k)).inputs = (stageOf s (stKey sh i k)).inputs ∧
      (splitOn s e = false → ∀ q ∈ sgSuccs e, b.num ∉ (edgeOf t sh d i q).held) ∧
      (splitOn s e = true → ∃ w ∈ t.shv.waitMerge, w.1 = sh ∧ w.2.1 = i ∧ w.2.2.num = b.num) ∧
      (byteAt e 8 = 0xFF → b.num ∈ (sheafRt t sh).staged) ∧ Frame [.hif, .shv, .fab, .rel, .recd] s t)) ∧
  (∀ (s : State) (sh i k : Nat) (b : Batch), halted s = false → (stageOf s (stKey sh i k)).running = some b →
    finishWaits s sh i k b = false →
    Completes (.stageBatchFinish sh i k) s (fun t =>
      let d := itemsDesc s sh b.items
      let e := shStage d i
      (stageOf t (stKey sh i k)).running = none ∧ (stageOf t (stKey sh i k)).holdOn = none ∧
      (tabGetD t.shv.stats (stKey sh i k) {}).batches = (tabGetD s.shv.stats (stKey sh i k) {}).batches + 1 ∧
      (splitOn s e = false → byteAt e 8 ≠ 0xFF → ∀ q ∈ sgSuccs e, StandsAt s d sh q i b t) ∧
      (splitOn s e = true → s.shv.delivered = [] → batchLists s i b ≠ [] → t.shv.waitMerge = s.shv.waitMerge) ∧
      (splitOn s e = false → byteAt e 8 = 0xFF → ∀ it c, b.items = [it] → cmdOf s it.cmd = some c → c.arrived = true →
        c.itemsDone + 1 = c.items → cmdOf t it.cmd = none) ∧
      ((s.shv.stages.map Prod.fst).Pairwise (· < ·) →
        (∀ p ∈ s.shv.stages, p.1 ≠ stKey sh i k → p.1 / 512 = sh → p.1 / 32 % 16 = i → ∀ x ∈ stageBatches p.2, x.num ≠ b.num) →
        ∀ p ∈ shPreds d i, (edgeOf t sh d p i).freed = (edgeOf s sh d p i).freed + 1) ∧
      t.idx = s.idx ∧ t.fls = s.fls ∧ t.stk = s.stk)) ∧
  (∀ (s : State) (sh i q : Nat) (x : Edge), halted s = false → tabGet s.shv.edges (edKey sh i q) = some x → x.seen ≠ x.freed →
    (let d := (((inFlight s sh).head?).map fun p => itemsDesc s sh p.2.items).getD ((genSheaf (gen s) sh).getD [])
     (∀ k ∈ sgTiles (shStage d i), edgeUp s k (shStage d q) = true) →
     Completes (.creditReturnArrival sh i q) s (fun t =>
      tabGet t.shv.edges (edKey sh i q) = some (grantEdge s sh (shStage d q) { x with seen := x.freed }) ∧
      x.held <+: (grantEdge s sh (shStage d q) { x with seen := x.freed }).held ∧
      (∀ j, j ≠ edKey sh i q → tabGet t.shv.edges j = tabGet s.shv.edges j) ∧ Frame [.shv] s t))) ∧
  (∀ (s : State) (tile : Nat), halted s = false → oldWork s tile = false →
    Completes (.stageGenerationSwitch tile) s (fun t =>
      t.shv = { s.shv with switching := s.shv.switching.filter (· != tile) } ∧ Frame [.shv] s t)))

/-- AWNS (R26, R58 to R61, R175, R181): the next stretch that a batch has still to read gives a read of its next bytes, with
those of its scales, in the stage's landing space; items that may not have it end with a status, and it is left out; the
operation of a batch, or of an ELEMENTWISE command, enters its culm's queue under the read's tag; the directory sees a read
once, in the order of its arbiter (R364); its data lands for the items that wait, of every read joined to it, and is discarded where none does. -/
def Obligations.AwnsReadAndLand : Prop :=
  (∀ (s : State) (sh i k : Nat) (b : Batch) (e : Bytes) (x : Stream) (g : Seg) (rest : List Seg), halted s = false →
    awnBatch s sh i k = some b → e = shStage (itemsDesc s sh b.items) i →
    x = (if sgRole e = 6 then takeKey (stKey sh i k) b (streamAt s (stKey sh i k) i k b) s else streamAt s (stKey sh i k) i k b) →
    x.left = g :: rest → islandUp s (tileIsland (sgBase e + k)) = true →
    ((∀ u ∈ g.users, liveUser s u = true → (userBad s g u).isSome = true) →
      Completes (.awnReadIssue sh i k false) s (fun t =>
        (∃ y ∈ (stageOf t (stKey sh i k)).streams, y.num = x.num ∧ y.left = rest) ∧ t.shv.reads = s.shv.reads ∧ t.stk = s.stk ∧
        (∀ u st c, g.users = [u] → liveUser s u = true → userBad s g u = some st → cmdOf s u.1 = some c →
          cmdOf t u.1 = some { c with viol := if c.viol = 0 then st else c.viol }))) ∧
    (g.users ≠ [] → (∀ u ∈ g.users, liveUser s u = true ∧ userBad s g u = none) →
      (∀ o tier n, g.culm = none → objOf s g.handle = some o → awnTier o (sgBase e + k) = some tier →
        readBucketOk s g.users tier = true → readSize s (stKey sh i k) e g = some n →
        Completes (.awnReadIssue sh i k false) s (fun t =>
          let scales := if sgBran e = 0 then [] else branBlocks s (stKey sh i k) g n
          (∃ a, tabGet t.shv.reads s.shv.nextRead = some a ∧ a.stage = stKey sh i k ∧ a.num = b.num ∧ a.users = g.users ∧
            a.off = g.off ∧ a.len = n ∧ a.bran = false ∧ a.ver = g.ver ∧ a.landed = false ∧ a.seen = false ∧ a.culm = false) ∧
          t.shv.nextRead = s.shv.nextRead + 1 + scales.length ∧
          (stageOf t (stKey sh i k)).landing = (stageOf s (stKey sh i k)).landing + n ∧
          (stageOf t (stKey sh i k)).bran = (stageOf s (stKey sh i k)).bran + 64 * scales.length ∧
          (∃ y ∈ (stageOf t (stKey sh i k)).streams, y.num = x.num ∧
            y.left = if g.off + n < g.stop then { g with off := g.off + n } :: rest else rest) ∧ SameBytes s t)) ∧
      (∀ m, g.culm = some m → culmRoom s m = true → outstanding s (stKey sh i k) < 256 →
        Completes (.awnReadIssue sh i k false) s (fun t =>
          (∃ a, tabGet t.shv.reads s.shv.nextRead = some a ∧ a.stage = stKey sh i k ∧ a.num = b.num ∧ a.users = g.users ∧
            a.culm = true ∧ a.landed = false) ∧
          (∃ o, (culmOf t m).queue = (culmOf s m).queue ++ [o] ∧ o.op = byteAt g.op 0 ∧
            o.tenant = (userTenants s g.users).headD 0 ∧ o.tag = s.shv.nextRead ∧ o.objs = g.objs) ∧
          (culmOf t m).sent = (culmOf s m).sent + 1 ∧ t.shv.nextRead = s.shv.nextRead + 1 ∧
          (∃ y ∈ (stageOf t (stKey sh i k)).streams, y.num = x.num ∧ y.left = rest) ∧ SameBytes s t)))) ∧
  (∀ (s : State) (sh k h n : Nat) (x : Husk) (c : Cmd), halted s = false →
    ewHusk s sh = some (h, x, n, c) → k < sgWidth (shStage c.desc 0) →
    islandUp s (tileIsland (sgBase (shStage c.desc 0) + k)) = true →
    (let objs := ewObjs s c.entry
     let m := ewChannel s c.entry
     ((∀ o ∈ objs, o ≠ 0 → readStatus s c.tenant o = none) →
      ((∀ o ∈ objs, o ≠ 0 → inChannel s m o = true) → culmRoom s m = true → outstanding s (stKey sh 0 k) < 256 →
        Completes (.awnReadIssue sh 0 k true) s (fun t =>
          (∃ o, (culmOf t m).queue = (culmOf s m).queue ++ [o] ∧ o.op = byteAt c.entry 1 ∧ o.tenant = c.tenant ∧
            o.tag = s.shv.nextRead ∧ o.husk = some h ∧ o.objs = objs) ∧
          (tabGet t.eng.husks h).map Husk.issued = (tabGet s.eng.husks h).map (fun y => y.issued + 1) ∧
          t.shv.nextRead = s.shv.nextRead + 1 ∧ SameBytes s t)) ∧
      (∀ o ∈ objs, o ≠ 0 → inChannel s m o = false →
        Completes (.awnReadIssue sh 0 k true) s (fun t =>
          (tabGet t.eng.husks h).map (fun y => (y.issued, y.ops)) = (tabGet s.eng.husks h).map (fun y => (y.issued + 1, y.ops - 1)) ∧
          (∀ c', cmdOf s n = some c' → c'.viol = 0 → (cmdOf t n).map Cmd.viol = some 0x0901) ∧ t.stk = s.stk ∧
          t.shv.reads = s.shv.reads))))) ∧
  (∀ (s : State) (id : Nat) (a : AwnRd), halted s = false → tabGet s.shv.reads id = some a → a.seen = false →
    islandUp s 36 = true → nextRead s = some id → Completes (.awnDirectoryRead id) s (fun t =>
      (let joined := s.shv.reads.any fun p => p.1 != id && p.2.seen && p.2.lead && !p.2.landed && sameRange p.2 a
       tabGet t.shv.reads id = some { a with seen := true, lead := !joined, blks := if joined then [] else flashBlks s a }) ∧
      (∀ j, j ≠ id → (tabGet t.shv.reads j).map (fun r => { r with tag := none }) = (tabGet s.shv.reads j).map (fun r => { r with tag := none })) ∧
      Frame [.hif, .shv, .fab, .rel, .recd] s t)) ∧
  (∀ (s : State) (id : Nat) (lost : Bool) (a : AwnRd), halted s = false → (s.shv.reads.map Prod.fst).Nodup →
    tabGet s.shv.reads id = some a → a.seen = true → a.lead = true → a.landed = false → a.culm = false → islandUp s 36 = true → t4For s (a.obj / 8) (.awn id) = false →
    (∀ o, tabGet s.obj.recs (a.obj / 8) = some o → ∀ w ∈ tierIslands s o (a.obj % 8) a.off a.len, islandUp s w = true) →
    Completes (.awnDataLand id lost) s (fun t =>
      (∀ j x, tabGet s.shv.reads j = some x →
        (j = id ∨ (x.seen = true ∧ x.lead = false ∧ x.landed = false ∧ sameRange x a = true)) →
        (x.users.any (liveUser s) = true → ∃ x', tabGet t.shv.reads j = some x' ∧ x'.landed = true ∧ x'.users = x.users) ∧
        (x.users.any (liveUser s) = false → tabGet t.shv.reads j = none)) ∧
      (lost = false → t.hif = s.hif) ∧
      (lost = true → a.users.any (liveUser s) = true → ∀ u ∈ a.users, ∀ c, cmdOf s u.1 = some c →
        ∃ c', cmdOf t u.1 = some c' ∧ u.2 ∈ c'.bad ∧ c'.viol = c.viol) ∧
      SameBytes s t ∧ Frame [.hif, .obj, .shv] s t))

/-- THE STOOK (R128 to R134, R56): a leaf's next list takes its child buffer; the engine starts the ready merge whose turn it
is; a finished merge stands in the slot above, or at the root, and its child buffers are counted back; a root list goes on
under its successor's credits to the command it is of, the batch with the last of them. -/
def Obligations.TheStookMergesLists : Prop :=
  (∀ (s : State) (sh i k : Nat) (b : Batch) (x : Nat × Nat) (sl : List StSlot), halted s = false →
    (stageOf s (stKey sh i k)).running = some b → splitOn s (shStage (itemsDesc s sh b.items) i) = true →
    pathUp s (tileIsland (sgBase (shStage (itemsDesc s sh b.items) i) + k)) 34 = true → landedAll s sh i k b = true →
    leafSend s sh i k b = some (x, sl) →
    Completes (.stookListArrival ⟨sh, i⟩ k) s (fun t =>
      let tile := sgBase (shStage (itemsDesc s sh b.items) i) + k
      t.shv.slots = sl ∧ (stageOf t (stKey sh i k)).sent = (stageOf s (stKey sh i k)).sent ++ [x] ∧ Frame [.shv] s t ∧
      ∃ y ∈ sl, y.engine = tile / 8 ∧ y.sheaf = sh ∧ y.stage = i ∧ y.num = b.num ∧ y.item = x.1 ∧ y.part = x.2 ∧
        (tile % 8, (leafParts s i k (b.items.getD x.1 {})).2.getD x.2 {}) ∈ y.kids)) ∧
  (∀ (s : State) (engine : Nat), halted s = false → (∀ m ∈ s.shv.slots, m.engine = engine → m.merging = false) →
    islandOn s 34 = true → (∃ m ∈ s.shv.slots, m.engine = engine ∧ m.kids.length = m.need ∧ mergePlace s m = true) →
    Completes (.stookMergeStart engine) s (fun t =>
      (∃ m ∈ s.shv.slots, m.engine = engine ∧ m.kids.length = m.need ∧ mergePlace s m = true ∧
        { m with merging := true } ∈ t.shv.slots ∧ tabGet t.shv.lastMerge engine = some (mergeRank m) ∧
        ∀ y ∈ s.shv.slots, y.engine = engine → y.kids.length = y.need → mergePlace s y = true →
          mergeRank m ≤ mergeRank y ∨ ∃ l, tabGet s.shv.lastMerge engine = some l ∧ mergeRank y ≤ l ∧ l < mergeRank m) ∧
      t.shv.slots.length = s.shv.slots.length ∧ Frame [.shv, .recd] s t)) ∧
  (∀ (s : State) (engine : Nat) (m : StSlot), halted s = false →
    s.shv.slots.find? (fun m => m.engine == engine && m.merging) = some m →
    (let out := mergeParts m.fp m.order m.k (m.kids.map Prod.snd)
     let rest := s.shv.slots.filter fun y => !sameSlot m y
     (engine = 72 → Completes (.stookMergeComplete engine) s (fun t =>
        t.shv = { s.shv with slots := rest, rootOut := s.shv.rootOut ++ [{ m with kids := [(0, out)], merging := false }] } ∧
        Frame [.shv] s t)) ∧
     (engine ≠ 72 → ∀ sl, putLeafList { m with engine := stookUp engine, need := stookNeed s (stookEntry s m.sheaf m.stage m.num) (stookUp engine) }
        (engine % 8) out rest = some sl →
        Completes (.stookMergeComplete engine) s (fun t => t.shv.slots = sl ∧ t.shv.rootOut = s.shv.rootOut ∧
          (64 ≤ engine → t.shv.kidFreed = s.shv.kidFreed) ∧
          (engine < 64 → (m.kids.map Prod.fst).Nodup → ∀ c ∈ m.kids,
            tabGetD t.shv.kidFreed (8 * engine + c.1) 0 = tabGetD s.shv.kidFreed (8 * engine + c.1) 0 + 1) ∧
          Frame [.shv] s t)))) ∧
  (∀ (s : State) (sh i : Nat) (b : Batch) (m : StSlot), halted s = false →
    s.shv.rootOut.find? (fun m => m.sheaf == sh && m.stage == i) = some m →
    s.shv.waitMerge.find? (fun w => w.1 == sh && w.2.1 == i && w.2.2.num == m.num) = some (sh, i, b) →
    rootCredit s sh (itemsDesc s sh b.items) i b.num = true →
    Completes (.stookRootDelivery sh i) s (fun t =>
      t.shv.rootOut = s.shv.rootOut.filter (fun y => !sameSlot m y) ∧ Frame [.hif, .shv] s t ∧
      (∀ c, cmdOf s (b.items.getD m.item {}).cmd = some c → ∃ c', cmdOf t (b.items.getD m.item {}).cmd = some c' ∧
        (i, (b.items.getD m.item {}).idx, m.part, (m.kids.map Prod.snd).headD {}) ∈ c'.merged) ∧
      ((∀ x ∈ batchLists s i b, x = (m.item, m.part) ∨ (sh, i, b.num, x.1, x.2) ∈ s.shv.delivered) →
        (∀ p ∈ s.shv.stages, p.1 / 512 = sh → p.1 / 32 % 16 = i → ∀ y ∈ stageBatches p.2, y.num ≠ b.num) →
        (sh, i, b) ∉ t.shv.waitMerge ∧
        ∀ q ∈ sgSuccs (shStage (itemsDesc s sh b.items) i), StandsAt s (itemsDesc s sh b.items) sh q i b t)))

/-- TILLER SWAPS (R52): the copy begins at the tile's batch boundary, from when no stage starts a batch on it, and at its end
the tile stands on the new slot. EXPERT STAGING AND LATE EXPERTS (R153 to R156): the next request is granted space, its
objects are read, and a batch that runs it pins its copies; a copy is complete; the expert a stage reaches runs where it is
present and its slices have landed; where it is not, its tokens fall back past the deadline, else the stage holds. -/
def Obligations.TillersSwapAndExpertsAreStaged : Prop :=
  ((∀ (s : State) (tile x : Nat), halted s = false → tabGet s.shv.swapping tile = some x → x < 32 → tileRuns s tile = false →
    islandUp s (tileIsland tile) = true → islandUp s 61 = true →
    (x = 16 → tabGet s.shv.tillerUse (tile / 16) = none ∨ tabGet s.shv.tillerUse (tile / 16) = some tile) →
    Completes (.tillerSwapStart tile) s (fun t =>
      t.shv = { s.shv with swapping := tabSet s.shv.swapping tile (x + 32) } ∧ Frame [.shv] s t ∧
      ∀ sh i k b, startable t sh i k = some b → sgBase (shStage (itemsDesc t sh b.items) i) + k ≠ tile)) ∧
  (∀ (s : State) (tile x : Nat), halted s = false → tabGet s.shv.swapping tile = some x → 32 ≤ x →
    islandUp s (tileIsland tile) = true → islandUp s 61 = true →
    Completes (.tillerSwapComplete tile) s (fun t =>
      tabGet t.shv.swapping tile = none ∧ tabGet t.shv.slotOf tile = some (x - 32) ∧
      (x = 48 → tabGet t.shv.tillerUse (tile / 16) = some tile) ∧ t.shv.stages = s.shv.stages ∧ Frame [.shv, .rel] s t))) ∧
  ((∀ (s : State) (table : Nat) (r : Nat × Nat × Nat × Nat), halted s = false → nextStaging s table = some r →
    bucketOk s 2 (hTenant table) = true → islandUp s 36 = true →
    (let p := tabGetD s.shv.pools table {}
     let us := requestUsers s table r
     let hs := keyObjs s (r.2.2.1, r.2.2.2, table)
     let need := ((hs.filter fun h => !p.copies.any fun c => c.1 == h).map (objSize s)).sum
     let cap := objSize s (xhStaging (exHeader s table (keyEpoch s us)))
     ((reclaim cap need (freeCopies p hs) p).copies.map fun x => x.2.2.1).sum + need ≤ cap →
     Completes (.expertStagingGrant table) s (fun t =>
       (∀ h ∈ hs, ∃ c ∈ (tabGetD t.shv.pools table {}).copies, c.1 = h) ∧
       (tabGetD t.shv.pools table {}).pending = p.pending.erase r ∧ tabGet t.shv.lastGrant table = some r.1 ∧
       (us ≠ [] → ∀ h ∈ hs, (h, pinKey r.1 r.2.1) ∈ (tabGetD t.shv.pools table {}).pins) ∧
       (us = [] → (tabGetD t.shv.pools table {}).pins = p.pins) ∧ Frame [.shv, .fab, .recd] s t))) ∧
  (∀ (s : State) (table handle : Nat), halted s = false → islandUp s 36 = true →
    (∃ c ∈ (tabGetD s.shv.pools table {}).copies, c.1 = handle ∧ c.2.1 = false) →
    Completes (.expertStagingComplete table handle) s (fun t =>
      (∀ c ∈ (tabGetD t.shv.pools table {}).copies, c.1 = handle → c.2.1 = true) ∧
      (tabGetD t.shv.pools table {}).copies.map Prod.fst = (tabGetD s.shv.pools table {}).copies.map Prod.fst ∧
      SameBytes s t ∧ Frame [.obj, .shv] s t)) ∧
  (∀ (s : State) (sh i k : Nat) (b : Batch) (x : ExKey), halted s = false → (stageOf s (stKey sh i k)).running = some b →
    (batchKeys s b).find? (fun x => !(stageOf s (stKey sh i k)).ranEx.contains x) = some x →
    sgRole (shStage (itemsDesc s sh b.items) i) = 6 →
    islandOn s (tileIsland (sgBase (shStage (itemsDesc s sh b.items) i) + k)) = true →
    (keyPresent s x = true → keyRead s (stKey sh i k) b.num x = true → Completes (.expertReach sh i k) s (fun t =>
      (stageOf t (stKey sh i k)).ranEx = (stageOf s (stKey sh i k)).ranEx ++ [x] ∧ (stageOf t (stKey sh i k)).holdOn = none ∧
      Frame [.hif, .shv, .recd] s t)) ∧
    (keyPresent s x = true → keyRead s (stKey sh i k) b.num x = false → Completes (.expertReach sh i k) s (fun t =>
      (stageOf t (stKey sh i k)).ranEx = (stageOf s (stKey sh i k)).ranEx ∧ (stageOf t (stKey sh i k)).holdOn = none ∧
      Frame [.shv] s t)) ∧
    (keyPresent s x = false → lateKey s (itemsDesc s sh b.items) (stageOf s (stKey sh i k)).startAt x = false →
      Completes (.expertReach sh i k) s (fun t =>
        (stageOf t (stKey sh i k)).ranEx = (stageOf s (stKey sh i k)).ranEx ∧
        (stageOf t (stKey sh i k)).holdOn = some x ∧ Frame [.shv] s t)) ∧
    (keyPresent s x = false → lateKey s (itemsDesc s sh b.items) (stageOf s (stKey sh i k)).startAt x = true →
      Completes (.expertReach sh i k) s (TakesFallback (stKey sh i k) b x s))) ∧
  (∀ (s : State) (sh i k : Nat) (b : Batch) (x : ExKey), halted s = false → (stageOf s (stKey sh i k)).running = some b →
    (stageOf s (stKey sh i k)).holdOn = some x →
    islandOn s (tileIsland (sgBase (shStage (itemsDesc s sh b.items) i) + k)) = true →
    lateKey s (itemsDesc s sh b.items) (stageOf s (stKey sh i k)).startAt x = true →
    Completes (.expertDeadlineExpiry sh i k) s (TakesFallback (stKey sh i k) b x s)))

/-- CULM OPERATIONS (R173 to R187, R191, R192): the operation at a culm's head ends: its entry is freed and its result, or
CULM_RETIRED on an unserved pseudo-channel, waits to return under its tag. A scan's and an attention's results are those the
spec computes over the list's and the shard's positions, and leave memory as it is; an element-wise operation writes its
destination and its generated scales, and nothing beside them; what an operation does not take ends it with a status. CULM
RESULTS, SPARES AND GRANTS (R172, R175, R190, R191): the oldest result leaves for its awn; a held queue resumes on the lowest
free spare, or unserved where there is none; a grant counts its bytes on the side it serves. -/
def Obligations.CulmsRunReturnAndAreReplaced : Prop :=
  ((∀ (s : State) (k : Nat) (o : COp), halted s = false → (culmNext s k).filter (fun o => !inRange o.op 2 6) = some o →
    (scanOk o = false → Completes (.culmScanOp k) s (fun t =>
      OpEnds k o 0x0102 (scanResult o.tag (fld o.body 0x20 4 % 2 ^ 20) 0x0102 ([], 0, 0, [])) s t ∧ Frame [.stk] s t)) ∧
    (scanOk o = true → Completes (.culmScanOp k) s (fun t =>
      (let st := if scanMeetsLost s o then 0x0701 else 0
       OpEnds k o st (scanResult o.tag (fld o.body 0x20 4 % 2 ^ 20) st (scanOf s o)) s t) ∧ Frame [.hif, .stk] s t))) ∧
  (∀ (s : State) (k : Nat), halted s = false → RunsElementwise (.culmAddOp k) 2 k s) ∧
  (∀ (s : State) (k : Nat), halted s = false → RunsElementwise (.culmMulOp k) 3 k s) ∧
  (∀ (s : State) (k : Nat), halted s = false → RunsElementwise (.culmActOp k) 4 k s) ∧
  (∀ (s : State) (k : Nat), halted s = false → RunsElementwise (.culmConvertOp k) 5 k s) ∧
  (∀ (s : State) (k : Nat) (o : COp), halted s = false → culmHead s k 6 = some o →
    (attendFormatsOk o = false → Completes (.culmAttendOp k) s (fun t => OpEnds k o 0x010A [] s t ∧ Frame [.stk] s t)) ∧
    (attendFormatsOk o = true → attendOk o.body = false → Completes (.culmAttendOp k) s (fun t =>
      OpEnds k o 0x0102 [] s t ∧ Frame [.stk] s t)) ∧
    (attendFormatsOk o = true → attendOk o.body = true → Completes (.culmAttendOp k) s (fun t =>
      OpEnds k o (if attendLost s o then 0x0701 else 0) (attendData s o) s t ∧ Frame [.hif, .stk] s t)))) ∧
  ((∀ (s : State) (k : Nat) (r : Nat × Nat × Bytes) (rs : List (Nat × Nat × Bytes)), halted s = false →
    (culmOf s k).results = r :: rs → islandUp s (culmIsland k) = true →
    Completes (.culmResultReturn k) s (fun t =>
      (culmOf t k).results = rs ∧ (culmOf t k).queue = (culmOf s k).queue ∧
      (∀ a h, tabGet s.shv.reads r.1 = some a → a.husk = some h → tabGet t.shv.reads r.1 = none ∧
        (tabGet t.eng.husks h).map Husk.ops = (tabGet s.eng.husks h).map (fun x => x.ops - 1)) ∧
      (∀ a, tabGet s.shv.reads r.1 = some a → a.husk = none →
        (a.users.any (liveUser s) = true → ∃ a', tabGet t.shv.reads r.1 = some a' ∧ a'.landed = true) ∧
        (a.users.any (liveUser s) = false → tabGet t.shv.reads r.1 = none)) ∧
      (∀ a, tabGet s.shv.reads r.1 = some a → (r.2.1 = 0x010A ∨ r.2.1 = 0x0102) → ∀ u ∈ a.users, ∀ c, cmdOf s u.1 = some c →
        c.viol = 0 → ∃ c', cmdOf t u.1 = some c' ∧ c'.viol = r.2.1) ∧
      SameBytes s t ∧ Frame [.hif, .eng, .obj, .shv, .stk] s t)) ∧
  (∀ (s : State) (k : Nat), halted s = false → (culmOf s k).held = true →
    Completes (.culmSubstitution k) s (fun t =>
      (culmOf t k).held = false ∧ (culmOf t k).queue = (culmOf s k).queue ∧
      (∀ x, (culmOf s k).back = some x ∨ ((culmOf s k).back = none ∧ freeSpare s (k % 8) = some x) →
        (culmOf t k).phys = x ∧ (culmOf t k).unserved = (culmOf s k).unserved) ∧
      ((culmOf s k).back = none → freeSpare s (k % 8) = none → (culmOf t k).unserved = true) ∧ Frame [.stk, .rel] s t)) ∧
  (∀ (s : State) (k kinds bytes : Nat), halted s = false → 1 ≤ kinds → kinds ≤ 3 →
    Completes (.pseudoChannelGrant k kinds bytes) s (fun t =>
      (let same := (culmOf s k).waitSet = kinds
       let p0 := if same then (culmOf s k).phyBytes else 0
       let c0 := if same then (culmOf s k).culmBytes else 0
       let phy := kinds = 1 ∨ (kinds = 3 ∧ 3 * p0 ≤ 5 * c0)
       (culmOf t k).phyBytes = (if phy then p0 + bytes else p0) ∧ (culmOf t k).culmBytes = (if phy then c0 else c0 + bytes) ∧
       (culmOf t k).grants = (if same then (culmOf s k).grants else 0) + 1 ∧ (culmOf t k).waitSet = kinds) ∧ (∀ j, j ≠ k → tabGet t.stk.culms j = tabGet s.stk.culms j) ∧
      Frame [.stk, .recd] s t)))
end

