-- ==== Sys2Proof/Laws/State.lean ====
section
/-! SUPPORT. Each update of one part of the state: what it does to that part, and that it leaves every other part as it was. -/

namespace Sys2Proof.Machine
open Sys2Proof

@[simp] theorem State.onAon_aon (f : Aon → Aon) (s : State) : (s.onAon f).aon = f s.aon := rfl
@[simp] theorem State.onAon_stew (f : Aon → Aon) (s : State) : (s.onAon f).stew = s.stew := rfl
@[simp] theorem State.onAon_hif (f : Aon → Aon) (s : State) : (s.onAon f).hif = s.hif := rfl
@[simp] theorem State.onAon_eng (f : Aon → Aon) (s : State) : (s.onAon f).eng = s.eng := rfl
@[simp] theorem State.onAon_idx (f : Aon → Aon) (s : State) : (s.onAon f).idx = s.idx := rfl
@[simp] theorem State.onAon_obj (f : Aon → Aon) (s : State) : (s.onAon f).obj = s.obj := rfl
@[simp] theorem State.onAon_shv (f : Aon → Aon) (s : State) : (s.onAon f).shv = s.shv := rfl
@[simp] theorem State.onAon_stk (f : Aon → Aon) (s : State) : (s.onAon f).stk = s.stk := rfl
@[simp] theorem State.onAon_fls (f : Aon → Aon) (s : State) : (s.onAon f).fls = s.fls := rfl
@[simp] theorem State.onAon_fab (f : Aon → Aon) (s : State) : (s.onAon f).fab = s.fab := rfl
@[simp] theorem State.onAon_rel (f : Aon → Aon) (s : State) : (s.onAon f).rel = s.rel := rfl
@[simp] theorem State.onAon_recd (f : Aon → Aon) (s : State) : (s.onAon f).recd = s.recd := rfl
@[simp] theorem State.onAon_dig (f : Aon → Aon) (s : State) : (s.onAon f).dig = s.dig := rfl
@[simp] theorem State.onAon_pending (f : Aon → Aon) (s : State) : (s.onAon f).pending = s.pending := rfl

@[simp] theorem State.onStew_aon (f : Stew → Stew) (s : State) : (s.onStew f).aon = s.aon := rfl
@[simp] theorem State.onStew_stew (f : Stew → Stew) (s : State) : (s.onStew f).stew = f s.stew := rfl
@[simp] theorem State.onStew_hif (f : Stew → Stew) (s : State) : (s.onStew f).hif = s.hif := rfl
@[simp] theorem State.onStew_eng (f : Stew → Stew) (s : State) : (s.onStew f).eng = s.eng := rfl
@[simp] theorem State.onStew_idx (f : Stew → Stew) (s : State) : (s.onStew f).idx = s.idx := rfl
@[simp] theorem State.onStew_obj (f : Stew → Stew) (s : State) : (s.onStew f).obj = s.obj := rfl
@[simp] theorem State.onStew_shv (f : Stew → Stew) (s : State) : (s.onStew f).shv = s.shv := rfl
@[simp] theorem State.onStew_stk (f : Stew → Stew) (s : State) : (s.onStew f).stk = s.stk := rfl
@[simp] theorem State.onStew_fls (f : Stew → Stew) (s : State) : (s.onStew f).fls = s.fls := rfl
@[simp] theorem State.onStew_fab (f : Stew → Stew) (s : State) : (s.onStew f).fab = s.fab := rfl
@[simp] theorem State.onStew_rel (f : Stew → Stew) (s : State) : (s.onStew f).rel = s.rel := rfl
@[simp] theorem State.onStew_recd (f : Stew → Stew) (s : State) : (s.onStew f).recd = s.recd := rfl
@[simp] theorem State.onStew_dig (f : Stew → Stew) (s : State) : (s.onStew f).dig = s.dig := rfl
@[simp] theorem State.onStew_pending (f : Stew → Stew) (s : State) : (s.onStew f).pending = s.pending := rfl

@[simp] theorem State.onHif_aon (f : Hif → Hif) (s : State) : (s.onHif f).aon = s.aon := rfl
@[simp] theorem State.onHif_stew (f : Hif → Hif) (s : State) : (s.onHif f).stew = s.stew := rfl
@[simp] theorem State.onHif_hif (f : Hif → Hif) (s : State) : (s.onHif f).hif = f s.hif := rfl
@[simp] theorem State.onHif_eng (f : Hif → Hif) (s : State) : (s.onHif f).eng = s.eng := rfl
@[simp] theorem State.onHif_idx (f : Hif → Hif) (s : State) : (s.onHif f).idx = s.idx := rfl
@[simp] theorem State.onHif_obj (f : Hif → Hif) (s : State) : (s.onHif f).obj = s.obj := rfl
@[simp] theorem State.onHif_shv (f : Hif → Hif) (s : State) : (s.onHif f).shv = s.shv := rfl
@[simp] theorem State.onHif_stk (f : Hif → Hif) (s : State) : (s.onHif f).stk = s.stk := rfl
@[simp] theorem State.onHif_fls (f : Hif → Hif) (s : State) : (s.onHif f).fls = s.fls := rfl
@[simp] theorem State.onHif_fab (f : Hif → Hif) (s : State) : (s.onHif f).fab = s.fab := rfl
@[simp] theorem State.onHif_rel (f : Hif → Hif) (s : State) : (s.onHif f).rel = s.rel := rfl
@[simp] theorem State.onHif_recd (f : Hif → Hif) (s : State) : (s.onHif f).recd = s.recd := rfl
@[simp] theorem State.onHif_dig (f : Hif → Hif) (s : State) : (s.onHif f).dig = s.dig := rfl
@[simp] theorem State.onHif_pending (f : Hif → Hif) (s : State) : (s.onHif f).pending = s.pending := rfl

@[simp] theorem State.onEng_aon (f : Eng → Eng) (s : State) : (s.onEng f).aon = s.aon := rfl
@[simp] theorem State.onEng_stew (f : Eng → Eng) (s : State) : (s.onEng f).stew = s.stew := rfl
@[simp] theorem State.onEng_hif (f : Eng → Eng) (s : State) : (s.onEng f).hif = s.hif := rfl
@[simp] theorem State.onEng_eng (f : Eng → Eng) (s : State) : (s.onEng f).eng = f s.eng := rfl
@[simp] theorem State.onEng_idx (f : Eng → Eng) (s : State) : (s.onEng f).idx = s.idx := rfl
@[simp] theorem State.onEng_obj (f : Eng → Eng) (s : State) : (s.onEng f).obj = s.obj := rfl
@[simp] theorem State.onEng_shv (f : Eng → Eng) (s : State) : (s.onEng f).shv = s.shv := rfl
@[simp] theorem State.onEng_stk (f : Eng → Eng) (s : State) : (s.onEng f).stk = s.stk := rfl
@[simp] theorem State.onEng_fls (f : Eng → Eng) (s : State) : (s.onEng f).fls = s.fls := rfl
@[simp] theorem State.onEng_fab (f : Eng → Eng) (s : State) : (s.onEng f).fab = s.fab := rfl
@[simp] theorem State.onEng_rel (f : Eng → Eng) (s : State) : (s.onEng f).rel = s.rel := rfl
@[simp] theorem State.onEng_recd (f : Eng → Eng) (s : State) : (s.onEng f).recd = s.recd := rfl
@[simp] theorem State.onEng_dig (f : Eng → Eng) (s : State) : (s.onEng f).dig = s.dig := rfl
@[simp] theorem State.onEng_pending (f : Eng → Eng) (s : State) : (s.onEng f).pending = s.pending := rfl

@[simp] theorem State.onIdx_aon (f : Idx → Idx) (s : State) : (s.onIdx f).aon = s.aon := rfl
@[simp] theorem State.onIdx_stew (f : Idx → Idx) (s : State) : (s.onIdx f).stew = s.stew := rfl
@[simp] theorem State.onIdx_hif (f : Idx → Idx) (s : State) : (s.onIdx f).hif = s.hif := rfl
@[simp] theorem State.onIdx_eng (f : Idx → Idx) (s : State) : (s.onIdx f).eng = s.eng := rfl
@[simp] theorem State.onIdx_idx (f : Idx → Idx) (s : State) : (s.onIdx f).idx = f s.idx := rfl
@[simp] theorem State.onIdx_obj (f : Idx → Idx) (s : State) : (s.onIdx f).obj = s.obj := rfl
@[simp] theorem State.onIdx_shv (f : Idx → Idx) (s : State) : (s.onIdx f).shv = s.shv := rfl
@[simp] theorem State.onIdx_stk (f : Idx → Idx) (s : State) : (s.onIdx f).stk = s.stk := rfl
@[simp] theorem State.onIdx_fls (f : Idx → Idx) (s : State) : (s.onIdx f).fls = s.fls := rfl
@[simp] theorem State.onIdx_fab (f : Idx → Idx) (s : State) : (s.onIdx f).fab = s.fab := rfl
@[simp] theorem State.onIdx_rel (f : Idx → Idx) (s : State) : (s.onIdx f).rel = s.rel := rfl
@[simp] theorem State.onIdx_recd (f : Idx → Idx) (s : State) : (s.onIdx f).recd = s.recd := rfl
@[simp] theorem State.onIdx_dig (f : Idx → Idx) (s : State) : (s.onIdx f).dig = s.dig := rfl
@[simp] theorem State.onIdx_pending (f : Idx → Idx) (s : State) : (s.onIdx f).pending = s.pending := rfl

@[simp] theorem State.onObj_aon (f : Obj → Obj) (s : State) : (s.onObj f).aon = s.aon := rfl
@[simp] theorem State.onObj_stew (f : Obj → Obj) (s : State) : (s.onObj f).stew = s.stew := rfl
@[simp] theorem State.onObj_hif (f : Obj → Obj) (s : State) : (s.onObj f).hif = s.hif := rfl
@[simp] theorem State.onObj_eng (f : Obj → Obj) (s : State) : (s.onObj f).eng = s.eng := rfl
@[simp] theorem State.onObj_idx (f : Obj → Obj) (s : State) : (s.onObj f).idx = s.idx := rfl
@[simp] theorem State.onObj_obj (f : Obj → Obj) (s : State) : (s.onObj f).obj = f s.obj := rfl
@[simp] theorem State.onObj_shv (f : Obj → Obj) (s : State) : (s.onObj f).shv = s.shv := rfl
@[simp] theorem State.onObj_stk (f : Obj → Obj) (s : State) : (s.onObj f).stk = s.stk := rfl
@[simp] theorem State.onObj_fls (f : Obj → Obj) (s : State) : (s.onObj f).fls = s.fls := rfl
@[simp] theorem State.onObj_fab (f : Obj → Obj) (s : State) : (s.onObj f).fab = s.fab := rfl
@[simp] theorem State.onObj_rel (f : Obj → Obj) (s : State) : (s.onObj f).rel = s.rel := rfl
@[simp] theorem State.onObj_recd (f : Obj → Obj) (s : State) : (s.onObj f).recd = s.recd := rfl
@[simp] theorem State.onObj_dig (f : Obj → Obj) (s : State) : (s.onObj f).dig = s.dig := rfl
@[simp] theorem State.onObj_pending (f : Obj → Obj) (s : State) : (s.onObj f).pending = s.pending := rfl

@[simp] theorem State.onShv_aon (f : Shv → Shv) (s : State) : (s.onShv f).aon = s.aon := rfl
@[simp] theorem State.onShv_stew (f : Shv → Shv) (s : State) : (s.onShv f).stew = s.stew := rfl
@[simp] theorem State.onShv_hif (f : Shv → Shv) (s : State) : (s.onShv f).hif = s.hif := rfl
@[simp] theorem State.onShv_eng (f : Shv → Shv) (s : State) : (s.onShv f).eng = s.eng := rfl
@[simp] theorem State.onShv_idx (f : Shv → Shv) (s : State) : (s.onShv f).idx = s.idx := rfl
@[simp] theorem State.onShv_obj (f : Shv → Shv) (s : State) : (s.onShv f).obj = s.obj := rfl
@[simp] theorem State.onShv_shv (f : Shv → Shv) (s : State) : (s.onShv f).shv = f s.shv := rfl
@[simp] theorem State.onShv_stk (f : Shv → Shv) (s : State) : (s.onShv f).stk = s.stk := rfl
@[simp] theorem State.onShv_fls (f : Shv → Shv) (s : State) : (s.onShv f).fls = s.fls := rfl
@[simp] theorem State.onShv_fab (f : Shv → Shv) (s : State) : (s.onShv f).fab = s.fab := rfl
@[simp] theorem State.onShv_rel (f : Shv → Shv) (s : State) : (s.onShv f).rel = s.rel := rfl
@[simp] theorem State.onShv_recd (f : Shv → Shv) (s : State) : (s.onShv f).recd = s.recd := rfl
@[simp] theorem State.onShv_dig (f : Shv → Shv) (s : State) : (s.onShv f).dig = s.dig := rfl
@[simp] theorem State.onShv_pending (f : Shv → Shv) (s : State) : (s.onShv f).pending = s.pending := rfl

@[simp] theorem State.onStk_aon (f : Mem_ → Mem_) (s : State) : (s.onStk f).aon = s.aon := rfl
@[simp] theorem State.onStk_stew (f : Mem_ → Mem_) (s : State) : (s.onStk f).stew = s.stew := rfl
@[simp] theorem State.onStk_hif (f : Mem_ → Mem_) (s : State) : (s.onStk f).hif = s.hif := rfl
@[simp] theorem State.onStk_eng (f : Mem_ → Mem_) (s : State) : (s.onStk f).eng = s.eng := rfl
@[simp] theorem State.onStk_idx (f : Mem_ → Mem_) (s : State) : (s.onStk f).idx = s.idx := rfl
@[simp] theorem State.onStk_obj (f : Mem_ → Mem_) (s : State) : (s.onStk f).obj = s.obj := rfl
@[simp] theorem State.onStk_shv (f : Mem_ → Mem_) (s : State) : (s.onStk f).shv = s.shv := rfl
@[simp] theorem State.onStk_stk (f : Mem_ → Mem_) (s : State) : (s.onStk f).stk = f s.stk := rfl
@[simp] theorem State.onStk_fls (f : Mem_ → Mem_) (s : State) : (s.onStk f).fls = s.fls := rfl
@[simp] theorem State.onStk_fab (f : Mem_ → Mem_) (s : State) : (s.onStk f).fab = s.fab := rfl
@[simp] theorem State.onStk_rel (f : Mem_ → Mem_) (s : State) : (s.onStk f).rel = s.rel := rfl
@[simp] theorem State.onStk_recd (f : Mem_ → Mem_) (s : State) : (s.onStk f).recd = s.recd := rfl
@[simp] theorem State.onStk_dig (f : Mem_ → Mem_) (s : State) : (s.onStk f).dig = s.dig := rfl
@[simp] theorem State.onStk_pending (f : Mem_ → Mem_) (s : State) : (s.onStk f).pending = s.pending := rfl

@[simp] theorem State.onFls_aon (f : Fls → Fls) (s : State) : (s.onFls f).aon = s.aon := rfl
@[simp] theorem State.onFls_stew (f : Fls → Fls) (s : State) : (s.onFls f).stew = s.stew := rfl
@[simp] theorem State.onFls_hif (f : Fls → Fls) (s : State) : (s.onFls f).hif = s.hif := rfl
@[simp] theorem State.onFls_eng (f : Fls → Fls) (s : State) : (s.onFls f).eng = s.eng := rfl
@[simp] theorem State.onFls_idx (f : Fls → Fls) (s : State) : (s.onFls f).idx = s.idx := rfl
@[simp] theorem State.onFls_obj (f : Fls → Fls) (s : State) : (s.onFls f).obj = s.obj := rfl
@[simp] theorem State.onFls_shv (f : Fls → Fls) (s : State) : (s.onFls f).shv = s.shv := rfl
@[simp] theorem State.onFls_stk (f : Fls → Fls) (s : State) : (s.onFls f).stk = s.stk := rfl
@[simp] theorem State.onFls_fls (f : Fls → Fls) (s : State) : (s.onFls f).fls = f s.fls := rfl
@[simp] theorem State.onFls_fab (f : Fls → Fls) (s : State) : (s.onFls f).fab = s.fab := rfl
@[simp] theorem State.onFls_rel (f : Fls → Fls) (s : State) : (s.onFls f).rel = s.rel := rfl
@[simp] theorem State.onFls_recd (f : Fls → Fls) (s : State) : (s.onFls f).recd = s.recd := rfl
@[simp] theorem State.onFls_dig (f : Fls → Fls) (s : State) : (s.onFls f).dig = s.dig := rfl
@[simp] theorem State.onFls_pending (f : Fls → Fls) (s : State) : (s.onFls f).pending = s.pending := rfl

@[simp] theorem State.onFab_aon (f : Fab → Fab) (s : State) : (s.onFab f).aon = s.aon := rfl
@[simp] theorem State.onFab_stew (f : Fab → Fab) (s : State) : (s.onFab f).stew = s.stew := rfl
@[simp] theorem State.onFab_hif (f : Fab → Fab) (s : State) : (s.onFab f).hif = s.hif := rfl
@[simp] theorem State.onFab_eng (f : Fab → Fab) (s : State) : (s.onFab f).eng = s.eng := rfl
@[simp] theorem State.onFab_idx (f : Fab → Fab) (s : State) : (s.onFab f).idx = s.idx := rfl
@[simp] theorem State.onFab_obj (f : Fab → Fab) (s : State) : (s.onFab f).obj = s.obj := rfl
@[simp] theorem State.onFab_shv (f : Fab → Fab) (s : State) : (s.onFab f).shv = s.shv := rfl
@[simp] theorem State.onFab_stk (f : Fab → Fab) (s : State) : (s.onFab f).stk = s.stk := rfl
@[simp] theorem State.onFab_fls (f : Fab → Fab) (s : State) : (s.onFab f).fls = s.fls := rfl
@[simp] theorem State.onFab_fab (f : Fab → Fab) (s : State) : (s.onFab f).fab = f s.fab := rfl
@[simp] theorem State.onFab_rel (f : Fab → Fab) (s : State) : (s.onFab f).rel = s.rel := rfl
@[simp] theorem State.onFab_recd (f : Fab → Fab) (s : State) : (s.onFab f).recd = s.recd := rfl
@[simp] theorem State.onFab_dig (f : Fab → Fab) (s : State) : (s.onFab f).dig = s.dig := rfl
@[simp] theorem State.onFab_pending (f : Fab → Fab) (s : State) : (s.onFab f).pending = s.pending := rfl

@[simp] theorem State.onRel_aon (f : Rel → Rel) (s : State) : (s.onRel f).aon = s.aon := rfl
@[simp] theorem State.onRel_stew (f : Rel → Rel) (s : State) : (s.onRel f).stew = s.stew := rfl
@[simp] theorem State.onRel_hif (f : Rel → Rel) (s : State) : (s.onRel f).hif = s.hif := rfl
@[simp] theorem State.onRel_eng (f : Rel → Rel) (s : State) : (s.onRel f).eng = s.eng := rfl
@[simp] theorem State.onRel_idx (f : Rel → Rel) (s : State) : (s.onRel f).idx = s.idx := rfl
@[simp] theorem State.onRel_obj (f : Rel → Rel) (s : State) : (s.onRel f).obj = s.obj := rfl
@[simp] theorem State.onRel_shv (f : Rel → Rel) (s : State) : (s.onRel f).shv = s.shv := rfl
@[simp] theorem State.onRel_stk (f : Rel → Rel) (s : State) : (s.onRel f).stk = s.stk := rfl
@[simp] theorem State.onRel_fls (f : Rel → Rel) (s : State) : (s.onRel f).fls = s.fls := rfl
@[simp] theorem State.onRel_fab (f : Rel → Rel) (s : State) : (s.onRel f).fab = s.fab := rfl
@[simp] theorem State.onRel_rel (f : Rel → Rel) (s : State) : (s.onRel f).rel = f s.rel := rfl
@[simp] theorem State.onRel_recd (f : Rel → Rel) (s : State) : (s.onRel f).recd = s.recd := rfl
@[simp] theorem State.onRel_dig (f : Rel → Rel) (s : State) : (s.onRel f).dig = s.dig := rfl
@[simp] theorem State.onRel_pending (f : Rel → Rel) (s : State) : (s.onRel f).pending = s.pending := rfl

@[simp] theorem State.onRec_aon (f : Rec → Rec) (s : State) : (s.onRec f).aon = s.aon := rfl
@[simp] theorem State.onRec_stew (f : Rec → Rec) (s : State) : (s.onRec f).stew = s.stew := rfl
@[simp] theorem State.onRec_hif (f : Rec → Rec) (s : State) : (s.onRec f).hif = s.hif := rfl
@[simp] theorem State.onRec_eng (f : Rec → Rec) (s : State) : (s.onRec f).eng = s.eng := rfl
@[simp] theorem State.onRec_idx (f : Rec → Rec) (s : State) : (s.onRec f).idx = s.idx := rfl
@[simp] theorem State.onRec_obj (f : Rec → Rec) (s : State) : (s.onRec f).obj = s.obj := rfl
@[simp] theorem State.onRec_shv (f : Rec → Rec) (s : State) : (s.onRec f).shv = s.shv := rfl
@[simp] theorem State.onRec_stk (f : Rec → Rec) (s : State) : (s.onRec f).stk = s.stk := rfl
@[simp] theorem State.onRec_fls (f : Rec → Rec) (s : State) : (s.onRec f).fls = s.fls := rfl
@[simp] theorem State.onRec_fab (f : Rec → Rec) (s : State) : (s.onRec f).fab = s.fab := rfl
@[simp] theorem State.onRec_rel (f : Rec → Rec) (s : State) : (s.onRec f).rel = s.rel := rfl
@[simp] theorem State.onRec_recd (f : Rec → Rec) (s : State) : (s.onRec f).recd = f s.recd := rfl
@[simp] theorem State.onRec_dig (f : Rec → Rec) (s : State) : (s.onRec f).dig = s.dig := rfl
@[simp] theorem State.onRec_pending (f : Rec → Rec) (s : State) : (s.onRec f).pending = s.pending := rfl

@[simp] theorem modQp_aon (q : Nat) (f : Qp → Qp) (s : State) : (modQp q f s).aon = s.aon := rfl
@[simp] theorem modQp_stew (q : Nat) (f : Qp → Qp) (s : State) : (modQp q f s).stew = s.stew := rfl
@[simp] theorem modQp_eng (q : Nat) (f : Qp → Qp) (s : State) : (modQp q f s).eng = s.eng := rfl
@[simp] theorem modQp_idx (q : Nat) (f : Qp → Qp) (s : State) : (modQp q f s).idx = s.idx := rfl
@[simp] theorem modQp_obj (q : Nat) (f : Qp → Qp) (s : State) : (modQp q f s).obj = s.obj := rfl
@[simp] theorem modQp_shv (q : Nat) (f : Qp → Qp) (s : State) : (modQp q f s).shv = s.shv := rfl
@[simp] theorem modQp_stk (q : Nat) (f : Qp → Qp) (s : State) : (modQp q f s).stk = s.stk := rfl
@[simp] theorem modQp_fls (q : Nat) (f : Qp → Qp) (s : State) : (modQp q f s).fls = s.fls := rfl
@[simp] theorem modQp_fab (q : Nat) (f : Qp → Qp) (s : State) : (modQp q f s).fab = s.fab := rfl
@[simp] theorem modQp_rel (q : Nat) (f : Qp → Qp) (s : State) : (modQp q f s).rel = s.rel := rfl
@[simp] theorem modQp_recd (q : Nat) (f : Qp → Qp) (s : State) : (modQp q f s).recd = s.recd := rfl
@[simp] theorem modQp_dig (q : Nat) (f : Qp → Qp) (s : State) : (modQp q f s).dig = s.dig := rfl
@[simp] theorem modQp_pending (q : Nat) (f : Qp → Qp) (s : State) : (modQp q f s).pending = s.pending := rfl

@[simp] theorem modCmd_aon (n : Nat) (f : Cmd → Cmd) (s : State) : (modCmd n f s).aon = s.aon := rfl
@[simp] theorem modCmd_stew (n : Nat) (f : Cmd → Cmd) (s : State) : (modCmd n f s).stew = s.stew := rfl
@[simp] theorem modCmd_eng (n : Nat) (f : Cmd → Cmd) (s : State) : (modCmd n f s).eng = s.eng := rfl
@[simp] theorem modCmd_idx (n : Nat) (f : Cmd → Cmd) (s : State) : (modCmd n f s).idx = s.idx := rfl
@[simp] theorem modCmd_obj (n : Nat) (f : Cmd → Cmd) (s : State) : (modCmd n f s).obj = s.obj := rfl
@[simp] theorem modCmd_shv (n : Nat) (f : Cmd → Cmd) (s : State) : (modCmd n f s).shv = s.shv := rfl
@[simp] theorem modCmd_stk (n : Nat) (f : Cmd → Cmd) (s : State) : (modCmd n f s).stk = s.stk := rfl
@[simp] theorem modCmd_fls (n : Nat) (f : Cmd → Cmd) (s : State) : (modCmd n f s).fls = s.fls := rfl
@[simp] theorem modCmd_fab (n : Nat) (f : Cmd → Cmd) (s : State) : (modCmd n f s).fab = s.fab := rfl
@[simp] theorem modCmd_rel (n : Nat) (f : Cmd → Cmd) (s : State) : (modCmd n f s).rel = s.rel := rfl
@[simp] theorem modCmd_recd (n : Nat) (f : Cmd → Cmd) (s : State) : (modCmd n f s).recd = s.recd := rfl
@[simp] theorem modCmd_dig (n : Nat) (f : Cmd → Cmd) (s : State) : (modCmd n f s).dig = s.dig := rfl
@[simp] theorem modCmd_pending (n : Nat) (f : Cmd → Cmd) (s : State) : (modCmd n f s).pending = s.pending := rfl

@[simp] theorem modObj_aon (i : Nat) (f : ObjRec → ObjRec) (s : State) : (modObj i f s).aon = s.aon := rfl
@[simp] theorem modObj_stew (i : Nat) (f : ObjRec → ObjRec) (s : State) : (modObj i f s).stew = s.stew := rfl
@[simp] theorem modObj_hif (i : Nat) (f : ObjRec → ObjRec) (s : State) : (modObj i f s).hif = s.hif := rfl
@[simp] theorem modObj_eng (i : Nat) (f : ObjRec → ObjRec) (s : State) : (modObj i f s).eng = s.eng := rfl
@[simp] theorem modObj_idx (i : Nat) (f : ObjRec → ObjRec) (s : State) : (modObj i f s).idx = s.idx := rfl
@[simp] theorem modObj_shv (i : Nat) (f : ObjRec → ObjRec) (s : State) : (modObj i f s).shv = s.shv := rfl
@[simp] theorem modObj_stk (i : Nat) (f : ObjRec → ObjRec) (s : State) : (modObj i f s).stk = s.stk := rfl
@[simp] theorem modObj_fls (i : Nat) (f : ObjRec → ObjRec) (s : State) : (modObj i f s).fls = s.fls := rfl
@[simp] theorem modObj_fab (i : Nat) (f : ObjRec → ObjRec) (s : State) : (modObj i f s).fab = s.fab := rfl
@[simp] theorem modObj_rel (i : Nat) (f : ObjRec → ObjRec) (s : State) : (modObj i f s).rel = s.rel := rfl
@[simp] theorem modObj_recd (i : Nat) (f : ObjRec → ObjRec) (s : State) : (modObj i f s).recd = s.recd := rfl
@[simp] theorem modObj_dig (i : Nat) (f : ObjRec → ObjRec) (s : State) : (modObj i f s).dig = s.dig := rfl
@[simp] theorem modObj_pending (i : Nat) (f : ObjRec → ObjRec) (s : State) : (modObj i f s).pending = s.pending := rfl

@[simp] theorem modHusk_aon (h : Nat) (f : Husk → Husk) (s : State) : (modHusk h f s).aon = s.aon := rfl
@[simp] theorem modHusk_stew (h : Nat) (f : Husk → Husk) (s : State) : (modHusk h f s).stew = s.stew := rfl
@[simp] theorem modHusk_hif (h : Nat) (f : Husk → Husk) (s : State) : (modHusk h f s).hif = s.hif := rfl
@[simp] theorem modHusk_idx (h : Nat) (f : Husk → Husk) (s : State) : (modHusk h f s).idx = s.idx := rfl
@[simp] theorem modHusk_obj (h : Nat) (f : Husk → Husk) (s : State) : (modHusk h f s).obj = s.obj := rfl
@[simp] theorem modHusk_shv (h : Nat) (f : Husk → Husk) (s : State) : (modHusk h f s).shv = s.shv := rfl
@[simp] theorem modHusk_stk (h : Nat) (f : Husk → Husk) (s : State) : (modHusk h f s).stk = s.stk := rfl
@[simp] theorem modHusk_fls (h : Nat) (f : Husk → Husk) (s : State) : (modHusk h f s).fls = s.fls := rfl
@[simp] theorem modHusk_fab (h : Nat) (f : Husk → Husk) (s : State) : (modHusk h f s).fab = s.fab := rfl
@[simp] theorem modHusk_rel (h : Nat) (f : Husk → Husk) (s : State) : (modHusk h f s).rel = s.rel := rfl
@[simp] theorem modHusk_recd (h : Nat) (f : Husk → Husk) (s : State) : (modHusk h f s).recd = s.recd := rfl
@[simp] theorem modHusk_dig (h : Nat) (f : Husk → Husk) (s : State) : (modHusk h f s).dig = s.dig := rfl
@[simp] theorem modHusk_pending (h : Nat) (f : Husk → Husk) (s : State) : (modHusk h f s).pending = s.pending := rfl

@[simp] theorem modMbx_aon (t : Nat) (f : Mbx → Mbx) (s : State) : (modMbx t f s).aon = s.aon := rfl
@[simp] theorem modMbx_hif (t : Nat) (f : Mbx → Mbx) (s : State) : (modMbx t f s).hif = s.hif := rfl
@[simp] theorem modMbx_eng (t : Nat) (f : Mbx → Mbx) (s : State) : (modMbx t f s).eng = s.eng := rfl
@[simp] theorem modMbx_idx (t : Nat) (f : Mbx → Mbx) (s : State) : (modMbx t f s).idx = s.idx := rfl
@[simp] theorem modMbx_obj (t : Nat) (f : Mbx → Mbx) (s : State) : (modMbx t f s).obj = s.obj := rfl
@[simp] theorem modMbx_shv (t : Nat) (f : Mbx → Mbx) (s : State) : (modMbx t f s).shv = s.shv := rfl
@[simp] theorem modMbx_stk (t : Nat) (f : Mbx → Mbx) (s : State) : (modMbx t f s).stk = s.stk := rfl
@[simp] theorem modMbx_fls (t : Nat) (f : Mbx → Mbx) (s : State) : (modMbx t f s).fls = s.fls := rfl
@[simp] theorem modMbx_fab (t : Nat) (f : Mbx → Mbx) (s : State) : (modMbx t f s).fab = s.fab := rfl
@[simp] theorem modMbx_rel (t : Nat) (f : Mbx → Mbx) (s : State) : (modMbx t f s).rel = s.rel := rfl
@[simp] theorem modMbx_recd (t : Nat) (f : Mbx → Mbx) (s : State) : (modMbx t f s).recd = s.recd := rfl
@[simp] theorem modMbx_dig (t : Nat) (f : Mbx → Mbx) (s : State) : (modMbx t f s).dig = s.dig := rfl
@[simp] theorem modMbx_pending (t : Nat) (f : Mbx → Mbx) (s : State) : (modMbx t f s).pending = s.pending := rfl

@[simp] theorem modPeer_aon (n : Nat) (f : Peer → Peer) (s : State) : (modPeer n f s).aon = s.aon := rfl
@[simp] theorem modPeer_stew (n : Nat) (f : Peer → Peer) (s : State) : (modPeer n f s).stew = s.stew := rfl
@[simp] theorem modPeer_hif (n : Nat) (f : Peer → Peer) (s : State) : (modPeer n f s).hif = s.hif := rfl
@[simp] theorem modPeer_eng (n : Nat) (f : Peer → Peer) (s : State) : (modPeer n f s).eng = s.eng := rfl
@[simp] theorem modPeer_idx (n : Nat) (f : Peer → Peer) (s : State) : (modPeer n f s).idx = s.idx := rfl
@[simp] theorem modPeer_obj (n : Nat) (f : Peer → Peer) (s : State) : (modPeer n f s).obj = s.obj := rfl
@[simp] theorem modPeer_shv (n : Nat) (f : Peer → Peer) (s : State) : (modPeer n f s).shv = s.shv := rfl
@[simp] theorem modPeer_stk (n : Nat) (f : Peer → Peer) (s : State) : (modPeer n f s).stk = s.stk := rfl
@[simp] theorem modPeer_fls (n : Nat) (f : Peer → Peer) (s : State) : (modPeer n f s).fls = s.fls := rfl
@[simp] theorem modPeer_rel (n : Nat) (f : Peer → Peer) (s : State) : (modPeer n f s).rel = s.rel := rfl
@[simp] theorem modPeer_recd (n : Nat) (f : Peer → Peer) (s : State) : (modPeer n f s).recd = s.recd := rfl
@[simp] theorem modPeer_dig (n : Nat) (f : Peer → Peer) (s : State) : (modPeer n f s).dig = s.dig := rfl
@[simp] theorem modPeer_pending (n : Nat) (f : Peer → Peer) (s : State) : (modPeer n f s).pending = s.pending := rfl

end Sys2Proof.Machine
end

