-- ==== Sys2Proof/Laws/Ops.lean ====
section
/-! SUPPORT. What each shared operation can do: the parts of the state it leaves alone, one lemma per part. -/

namespace Sys2Proof.Machine
open Sys2Proof

set_option linter.all false

/-- What every step of a fold leaves alone, the fold leaves alone. -/
theorem foldl_same {α β : Type} (g : State → β) (f : State → α → State) (l : List α) (s : State)
    (h : ∀ s a, g (f s a) = g s) : g (l.foldl f s) = g s := by
  induction l generalizing s with
  | nil => rfl
  | cons a l ih => rw [List.foldl_cons, ih, h]

/-- takePin changes objects only. -/
theorem takePin_same (i : Nat) (s : State) : (takePin i s).2 = { s with obj := (takePin i s).2.obj } := rfl

@[simp] theorem hostWrite_aon (fn addr : Nat) (b : Bytes) (ep : Bool) (s : State) : (hostWrite fn addr b ep s).aon = s.aon := by unfold hostWrite; (try dsimp only); (repeat' split) <;> first | rfl | simp
@[simp] theorem hostWrite_stew (fn addr : Nat) (b : Bytes) (ep : Bool) (s : State) : (hostWrite fn addr b ep s).stew = s.stew := by unfold hostWrite; (try dsimp only); (repeat' split) <;> first | rfl | simp
@[simp] theorem hostWrite_eng (fn addr : Nat) (b : Bytes) (ep : Bool) (s : State) : (hostWrite fn addr b ep s).eng = s.eng := by unfold hostWrite; (try dsimp only); (repeat' split) <;> first | rfl | simp
@[simp] theorem hostWrite_idx (fn addr : Nat) (b : Bytes) (ep : Bool) (s : State) : (hostWrite fn addr b ep s).idx = s.idx := by unfold hostWrite; (try dsimp only); (repeat' split) <;> first | rfl | simp
@[simp] theorem hostWrite_obj (fn addr : Nat) (b : Bytes) (ep : Bool) (s : State) : (hostWrite fn addr b ep s).obj = s.obj := by unfold hostWrite; (try dsimp only); (repeat' split) <;> first | rfl | simp
@[simp] theorem hostWrite_shv (fn addr : Nat) (b : Bytes) (ep : Bool) (s : State) : (hostWrite fn addr b ep s).shv = s.shv := by unfold hostWrite; (try dsimp only); (repeat' split) <;> first | rfl | simp
@[simp] theorem hostWrite_stk (fn addr : Nat) (b : Bytes) (ep : Bool) (s : State) : (hostWrite fn addr b ep s).stk = s.stk := by unfold hostWrite; (try dsimp only); (repeat' split) <;> first | rfl | simp
@[simp] theorem hostWrite_fls (fn addr : Nat) (b : Bytes) (ep : Bool) (s : State) : (hostWrite fn addr b ep s).fls = s.fls := by unfold hostWrite; (try dsimp only); (repeat' split) <;> first | rfl | simp
@[simp] theorem hostWrite_fab (fn addr : Nat) (b : Bytes) (ep : Bool) (s : State) : (hostWrite fn addr b ep s).fab = s.fab := by unfold hostWrite; (try dsimp only); (repeat' split) <;> first | rfl | simp
@[simp] theorem hostWrite_rel (fn addr : Nat) (b : Bytes) (ep : Bool) (s : State) : (hostWrite fn addr b ep s).rel = s.rel := by unfold hostWrite; (try dsimp only); (repeat' split) <;> first | rfl | simp
@[simp] theorem hostWrite_recd (fn addr : Nat) (b : Bytes) (ep : Bool) (s : State) : (hostWrite fn addr b ep s).recd = s.recd := by unfold hostWrite; (try dsimp only); (repeat' split) <;> first | rfl | simp
@[simp] theorem hostWrite_pending (fn addr : Nat) (b : Bytes) (ep : Bool) (s : State) : (hostWrite fn addr b ep s).pending = s.pending := by unfold hostWrite; (try dsimp only); (repeat' split) <;> first | rfl | simp

@[simp] theorem logEv_aon (ev src sev : Nat) (b : Bytes) (s : State) : (logEv ev src sev b s).aon = s.aon := by simp [logEv]
@[simp] theorem logEv_stew (ev src sev : Nat) (b : Bytes) (s : State) : (logEv ev src sev b s).stew = s.stew := by simp [logEv]
@[simp] theorem logEv_hif (ev src sev : Nat) (b : Bytes) (s : State) : (logEv ev src sev b s).hif = s.hif := by simp [logEv]
@[simp] theorem logEv_eng (ev src sev : Nat) (b : Bytes) (s : State) : (logEv ev src sev b s).eng = s.eng := by simp [logEv]
@[simp] theorem logEv_idx (ev src sev : Nat) (b : Bytes) (s : State) : (logEv ev src sev b s).idx = s.idx := by simp [logEv]
@[simp] theorem logEv_obj (ev src sev : Nat) (b : Bytes) (s : State) : (logEv ev src sev b s).obj = s.obj := by simp [logEv]
@[simp] theorem logEv_shv (ev src sev : Nat) (b : Bytes) (s : State) : (logEv ev src sev b s).shv = s.shv := by simp [logEv]
@[simp] theorem logEv_stk (ev src sev : Nat) (b : Bytes) (s : State) : (logEv ev src sev b s).stk = s.stk := by simp [logEv]
@[simp] theorem logEv_fls (ev src sev : Nat) (b : Bytes) (s : State) : (logEv ev src sev b s).fls = s.fls := by simp [logEv]
@[simp] theorem logEv_fab (ev src sev : Nat) (b : Bytes) (s : State) : (logEv ev src sev b s).fab = s.fab := by simp [logEv]
@[simp] theorem logEv_recd (ev src sev : Nat) (b : Bytes) (s : State) : (logEv ev src sev b s).recd = s.recd := by simp [logEv]
@[simp] theorem logEv_pending (ev src sev : Nat) (b : Bytes) (s : State) : (logEv ev src sev b s).pending = s.pending := by simp [logEv]

@[simp] theorem sendMsi_aon (fn ent : Nat) (s : State) : (sendMsi fn ent s).aon = s.aon := by unfold sendMsi; (try dsimp only); (repeat' split) <;> first | rfl | simp
@[simp] theorem sendMsi_stew (fn ent : Nat) (s : State) : (sendMsi fn ent s).stew = s.stew := by unfold sendMsi; (try dsimp only); (repeat' split) <;> first | rfl | simp
@[simp] theorem sendMsi_eng (fn ent : Nat) (s : State) : (sendMsi fn ent s).eng = s.eng := by unfold sendMsi; (try dsimp only); (repeat' split) <;> first | rfl | simp
@[simp] theorem sendMsi_idx (fn ent : Nat) (s : State) : (sendMsi fn ent s).idx = s.idx := by unfold sendMsi; (try dsimp only); (repeat' split) <;> first | rfl | simp
@[simp] theorem sendMsi_obj (fn ent : Nat) (s : State) : (sendMsi fn ent s).obj = s.obj := by unfold sendMsi; (try dsimp only); (repeat' split) <;> first | rfl | simp
@[simp] theorem sendMsi_shv (fn ent : Nat) (s : State) : (sendMsi fn ent s).shv = s.shv := by unfold sendMsi; (try dsimp only); (repeat' split) <;> first | rfl | simp
@[simp] theorem sendMsi_stk (fn ent : Nat) (s : State) : (sendMsi fn ent s).stk = s.stk := by unfold sendMsi; (try dsimp only); (repeat' split) <;> first | rfl | simp
@[simp] theorem sendMsi_fls (fn ent : Nat) (s : State) : (sendMsi fn ent s).fls = s.fls := by unfold sendMsi; (try dsimp only); (repeat' split) <;> first | rfl | simp
@[simp] theorem sendMsi_fab (fn ent : Nat) (s : State) : (sendMsi fn ent s).fab = s.fab := by unfold sendMsi; (try dsimp only); (repeat' split) <;> first | rfl | simp
@[simp] theorem sendMsi_rel (fn ent : Nat) (s : State) : (sendMsi fn ent s).rel = s.rel := by unfold sendMsi; (try dsimp only); (repeat' split) <;> first | rfl | simp
@[simp] theorem sendMsi_recd (fn ent : Nat) (s : State) : (sendMsi fn ent s).recd = s.recd := by unfold sendMsi; (try dsimp only); (repeat' split) <;> first | rfl | simp
@[simp] theorem sendMsi_pending (fn ent : Nat) (s : State) : (sendMsi fn ent s).pending = s.pending := by unfold sendMsi; (try dsimp only); (repeat' split) <;> first | rfl | simp

@[simp] theorem mailMsi_stew (fn : Nat) (s : State) : (mailMsi fn s).stew = s.stew := by unfold mailMsi; (try dsimp only); (repeat' split) <;> first | rfl | simp
@[simp] theorem mailMsi_eng (fn : Nat) (s : State) : (mailMsi fn s).eng = s.eng := by unfold mailMsi; (try dsimp only); (repeat' split) <;> first | rfl | simp
@[simp] theorem mailMsi_idx (fn : Nat) (s : State) : (mailMsi fn s).idx = s.idx := by unfold mailMsi; (try dsimp only); (repeat' split) <;> first | rfl | simp
@[simp] theorem mailMsi_obj (fn : Nat) (s : State) : (mailMsi fn s).obj = s.obj := by unfold mailMsi; (try dsimp only); (repeat' split) <;> first | rfl | simp
@[simp] theorem mailMsi_shv (fn : Nat) (s : State) : (mailMsi fn s).shv = s.shv := by unfold mailMsi; (try dsimp only); (repeat' split) <;> first | rfl | simp
@[simp] theorem mailMsi_stk (fn : Nat) (s : State) : (mailMsi fn s).stk = s.stk := by unfold mailMsi; (try dsimp only); (repeat' split) <;> first | rfl | simp
@[simp] theorem mailMsi_fls (fn : Nat) (s : State) : (mailMsi fn s).fls = s.fls := by unfold mailMsi; (try dsimp only); (repeat' split) <;> first | rfl | simp
@[simp] theorem mailMsi_fab (fn : Nat) (s : State) : (mailMsi fn s).fab = s.fab := by unfold mailMsi; (try dsimp only); (repeat' split) <;> first | rfl | simp
@[simp] theorem mailMsi_rel (fn : Nat) (s : State) : (mailMsi fn s).rel = s.rel := by unfold mailMsi; (try dsimp only); (repeat' split) <;> first | rfl | simp
@[simp] theorem mailMsi_recd (fn : Nat) (s : State) : (mailMsi fn s).recd = s.recd := by unfold mailMsi; (try dsimp only); (repeat' split) <;> first | rfl | simp
@[simp] theorem mailMsi_pending (fn : Nat) (s : State) : (mailMsi fn s).pending = s.pending := by unfold mailMsi; (try dsimp only); (repeat' split) <;> first | rfl | simp

@[simp] theorem raiseEvent_aon (t code : Nat) (b : Bytes) (s : State) : (raiseEvent t code b s).aon = s.aon := by simp [raiseEvent]
@[simp] theorem raiseEvent_hif (t code : Nat) (b : Bytes) (s : State) : (raiseEvent t code b s).hif = s.hif := by simp [raiseEvent]
@[simp] theorem raiseEvent_eng (t code : Nat) (b : Bytes) (s : State) : (raiseEvent t code b s).eng = s.eng := by simp [raiseEvent]
@[simp] theorem raiseEvent_idx (t code : Nat) (b : Bytes) (s : State) : (raiseEvent t code b s).idx = s.idx := by simp [raiseEvent]
@[simp] theorem raiseEvent_obj (t code : Nat) (b : Bytes) (s : State) : (raiseEvent t code b s).obj = s.obj := by simp [raiseEvent]
@[simp] theorem raiseEvent_shv (t code : Nat) (b : Bytes) (s : State) : (raiseEvent t code b s).shv = s.shv := by simp [raiseEvent]
@[simp] theorem raiseEvent_stk (t code : Nat) (b : Bytes) (s : State) : (raiseEvent t code b s).stk = s.stk := by simp [raiseEvent]
@[simp] theorem raiseEvent_fls (t code : Nat) (b : Bytes) (s : State) : (raiseEvent t code b s).fls = s.fls := by simp [raiseEvent]
@[simp] theorem raiseEvent_fab (t code : Nat) (b : Bytes) (s : State) : (raiseEvent t code b s).fab = s.fab := by simp [raiseEvent]
@[simp] theorem raiseEvent_rel (t code : Nat) (b : Bytes) (s : State) : (raiseEvent t code b s).rel = s.rel := by simp [raiseEvent]
@[simp] theorem raiseEvent_recd (t code : Nat) (b : Bytes) (s : State) : (raiseEvent t code b s).recd = s.recd := by simp [raiseEvent]
@[simp] theorem raiseEvent_pending (t code : Nat) (b : Bytes) (s : State) : (raiseEvent t code b s).pending = s.pending := by simp [raiseEvent]

@[simp] theorem commandDone_aon (t c q st d : Nat) (b : Bytes) (s : State) : (commandDone t c q st d b s).aon = s.aon := by simp [commandDone]
@[simp] theorem commandDone_hif (t c q st d : Nat) (b : Bytes) (s : State) : (commandDone t c q st d b s).hif = s.hif := by simp [commandDone]
@[simp] theorem commandDone_eng (t c q st d : Nat) (b : Bytes) (s : State) : (commandDone t c q st d b s).eng = s.eng := by simp [commandDone]
@[simp] theorem commandDone_idx (t c q st d : Nat) (b : Bytes) (s : State) : (commandDone t c q st d b s).idx = s.idx := by simp [commandDone]
@[simp] theorem commandDone_obj (t c q st d : Nat) (b : Bytes) (s : State) : (commandDone t c q st d b s).obj = s.obj := by simp [commandDone]
@[simp] theorem commandDone_shv (t c q st d : Nat) (b : Bytes) (s : State) : (commandDone t c q st d b s).shv = s.shv := by simp [commandDone]
@[simp] theorem commandDone_stk (t c q st d : Nat) (b : Bytes) (s : State) : (commandDone t c q st d b s).stk = s.stk := by simp [commandDone]
@[simp] theorem commandDone_fls (t c q st d : Nat) (b : Bytes) (s : State) : (commandDone t c q st d b s).fls = s.fls := by simp [commandDone]
@[simp] theorem commandDone_fab (t c q st d : Nat) (b : Bytes) (s : State) : (commandDone t c q st d b s).fab = s.fab := by simp [commandDone]
@[simp] theorem commandDone_rel (t c q st d : Nat) (b : Bytes) (s : State) : (commandDone t c q st d b s).rel = s.rel := by simp [commandDone]
@[simp] theorem commandDone_recd (t c q st d : Nat) (b : Bytes) (s : State) : (commandDone t c q st d b s).recd = s.recd := by simp [commandDone]
@[simp] theorem commandDone_pending (t c q st d : Nat) (b : Bytes) (s : State) : (commandDone t c q st d b s).pending = s.pending := by simp [commandDone]

@[simp] theorem zRespond_aon (box st d : Nat) (b : Bytes) (s : State) : (zRespond box st d b s).aon = s.aon := by simp [zRespond]
@[simp] theorem zRespond_hif (box st d : Nat) (b : Bytes) (s : State) : (zRespond box st d b s).hif = s.hif := by simp [zRespond]
@[simp] theorem zRespond_eng (box st d : Nat) (b : Bytes) (s : State) : (zRespond box st d b s).eng = s.eng := by simp [zRespond]
@[simp] theorem zRespond_idx (box st d : Nat) (b : Bytes) (s : State) : (zRespond box st d b s).idx = s.idx := by simp [zRespond]
@[simp] theorem zRespond_obj (box st d : Nat) (b : Bytes) (s : State) : (zRespond box st d b s).obj = s.obj := by simp [zRespond]
@[simp] theorem zRespond_shv (box st d : Nat) (b : Bytes) (s : State) : (zRespond box st d b s).shv = s.shv := by simp [zRespond]
@[simp] theorem zRespond_stk (box st d : Nat) (b : Bytes) (s : State) : (zRespond box st d b s).stk = s.stk := by simp [zRespond]
@[simp] theorem zRespond_fls (box st d : Nat) (b : Bytes) (s : State) : (zRespond box st d b s).fls = s.fls := by simp [zRespond]
@[simp] theorem zRespond_fab (box st d : Nat) (b : Bytes) (s : State) : (zRespond box st d b s).fab = s.fab := by simp [zRespond]
@[simp] theorem zRespond_rel (box st d : Nat) (b : Bytes) (s : State) : (zRespond box st d b s).rel = s.rel := by simp [zRespond]
@[simp] theorem zRespond_recd (box st d : Nat) (b : Bytes) (s : State) : (zRespond box st d b s).recd = s.recd := by simp [zRespond]
@[simp] theorem zRespond_pending (box st d : Nat) (b : Bytes) (s : State) : (zRespond box st d b s).pending = s.pending := by simp [zRespond]

@[simp] theorem latchGasp_stew (c i : Nat) (s : State) : (latchGasp c i s).stew = s.stew := by unfold latchGasp; (try dsimp only); (repeat' split) <;> first | rfl | simp
@[simp] theorem latchGasp_hif (c i : Nat) (s : State) : (latchGasp c i s).hif = s.hif := by unfold latchGasp; (try dsimp only); (repeat' split) <;> first | rfl | simp
@[simp] theorem latchGasp_eng (c i : Nat) (s : State) : (latchGasp c i s).eng = s.eng := by unfold latchGasp; (try dsimp only); (repeat' split) <;> first | rfl | simp
@[simp] theorem latchGasp_idx (c i : Nat) (s : State) : (latchGasp c i s).idx = s.idx := by unfold latchGasp; (try dsimp only); (repeat' split) <;> first | rfl | simp
@[simp] theorem latchGasp_obj (c i : Nat) (s : State) : (latchGasp c i s).obj = s.obj := by unfold latchGasp; (try dsimp only); (repeat' split) <;> first | rfl | simp
@[simp] theorem latchGasp_shv (c i : Nat) (s : State) : (latchGasp c i s).shv = s.shv := by unfold latchGasp; (try dsimp only); (repeat' split) <;> first | rfl | simp
@[simp] theorem latchGasp_stk (c i : Nat) (s : State) : (latchGasp c i s).stk = s.stk := by unfold latchGasp; (try dsimp only); (repeat' split) <;> first | rfl | simp
@[simp] theorem latchGasp_fls (c i : Nat) (s : State) : (latchGasp c i s).fls = s.fls := by unfold latchGasp; (try dsimp only); (repeat' split) <;> first | rfl | simp
@[simp] theorem latchGasp_fab (c i : Nat) (s : State) : (latchGasp c i s).fab = s.fab := by unfold latchGasp; (try dsimp only); (repeat' split) <;> first | rfl | simp
@[simp] theorem latchGasp_rel (c i : Nat) (s : State) : (latchGasp c i s).rel = s.rel := by unfold latchGasp; (try dsimp only); (repeat' split) <;> first | rfl | simp
@[simp] theorem latchGasp_recd (c i : Nat) (s : State) : (latchGasp c i s).recd = s.recd := by unfold latchGasp; (try dsimp only); (repeat' split) <;> first | rfl | simp
@[simp] theorem latchGasp_pending (c i : Nat) (s : State) : (latchGasp c i s).pending = s.pending := by unfold latchGasp; (try dsimp only); (repeat' split) <;> first | rfl | simp

@[simp] theorem raiseCause_hif (i : Nat) (s : State) : (raiseCause i s).hif = s.hif := by simp [raiseCause]
@[simp] theorem raiseCause_eng (i : Nat) (s : State) : (raiseCause i s).eng = s.eng := by simp [raiseCause]
@[simp] theorem raiseCause_idx (i : Nat) (s : State) : (raiseCause i s).idx = s.idx := by simp [raiseCause]
@[simp] theorem raiseCause_obj (i : Nat) (s : State) : (raiseCause i s).obj = s.obj := by simp [raiseCause]
@[simp] theorem raiseCause_shv (i : Nat) (s : State) : (raiseCause i s).shv = s.shv := by simp [raiseCause]
@[simp] theorem raiseCause_stk (i : Nat) (s : State) : (raiseCause i s).stk = s.stk := by simp [raiseCause]
@[simp] theorem raiseCause_fls (i : Nat) (s : State) : (raiseCause i s).fls = s.fls := by simp [raiseCause]
@[simp] theorem raiseCause_fab (i : Nat) (s : State) : (raiseCause i s).fab = s.fab := by simp [raiseCause]
@[simp] theorem raiseCause_recd (i : Nat) (s : State) : (raiseCause i s).recd = s.recd := by simp [raiseCause]
@[simp] theorem raiseCause_pending (i : Nat) (s : State) : (raiseCause i s).pending = s.pending := by simp [raiseCause]

@[simp] theorem raiseViral_eng(s : State) : (raiseViral s).eng = s.eng := by unfold raiseViral; (try dsimp only); (repeat' split) <;> first | rfl | simp
@[simp] theorem raiseViral_idx(s : State) : (raiseViral s).idx = s.idx := by unfold raiseViral; (try dsimp only); (repeat' split) <;> first | rfl | simp
@[simp] theorem raiseViral_obj(s : State) : (raiseViral s).obj = s.obj := by unfold raiseViral; (try dsimp only); (repeat' split) <;> first | rfl | simp
@[simp] theorem raiseViral_shv(s : State) : (raiseViral s).shv = s.shv := by unfold raiseViral; (try dsimp only); (repeat' split) <;> first | rfl | simp
@[simp] theorem raiseViral_stk(s : State) : (raiseViral s).stk = s.stk := by unfold raiseViral; (try dsimp only); (repeat' split) <;> first | rfl | simp
@[simp] theorem raiseViral_fls(s : State) : (raiseViral s).fls = s.fls := by unfold raiseViral; (try dsimp only); (repeat' split) <;> first | rfl | simp
@[simp] theorem raiseViral_fab(s : State) : (raiseViral s).fab = s.fab := by unfold raiseViral; (try dsimp only); (repeat' split) <;> first | rfl | simp
@[simp] theorem raiseViral_recd(s : State) : (raiseViral s).recd = s.recd := by unfold raiseViral; (try dsimp only); (repeat' split) <;> first | rfl | simp
@[simp] theorem raiseViral_pending(s : State) : (raiseViral s).pending = s.pending := by unfold raiseViral; (try dsimp only); (repeat' split) <;> first | rfl | simp

@[simp] theorem detect_aon (d : Det) (s : State) : (detect d s).aon = s.aon := by simp [detect]
@[simp] theorem detect_stew (d : Det) (s : State) : (detect d s).stew = s.stew := by simp [detect]
@[simp] theorem detect_hif (d : Det) (s : State) : (detect d s).hif = s.hif := by simp [detect]
@[simp] theorem detect_eng (d : Det) (s : State) : (detect d s).eng = s.eng := by simp [detect]
@[simp] theorem detect_idx (d : Det) (s : State) : (detect d s).idx = s.idx := by simp [detect]
@[simp] theorem detect_obj (d : Det) (s : State) : (detect d s).obj = s.obj := by simp [detect]
@[simp] theorem detect_shv (d : Det) (s : State) : (detect d s).shv = s.shv := by simp [detect]
@[simp] theorem detect_stk (d : Det) (s : State) : (detect d s).stk = s.stk := by simp [detect]
@[simp] theorem detect_fls (d : Det) (s : State) : (detect d s).fls = s.fls := by simp [detect]
@[simp] theorem detect_fab (d : Det) (s : State) : (detect d s).fab = s.fab := by simp [detect]
@[simp] theorem detect_recd (d : Det) (s : State) : (detect d s).recd = s.recd := by simp [detect]
@[simp] theorem detect_pending (d : Det) (s : State) : (detect d s).pending = s.pending := by simp [detect]

@[simp] theorem wakeEvent_aon(s : State) : (wakeEvent s).aon = s.aon := by unfold wakeEvent; (try dsimp only); (repeat' split) <;> first | rfl | simp
@[simp] theorem wakeEvent_hif(s : State) : (wakeEvent s).hif = s.hif := by unfold wakeEvent; (try dsimp only); (repeat' split) <;> first | rfl | simp
@[simp] theorem wakeEvent_eng(s : State) : (wakeEvent s).eng = s.eng := by unfold wakeEvent; (try dsimp only); (repeat' split) <;> first | rfl | simp
@[simp] theorem wakeEvent_idx(s : State) : (wakeEvent s).idx = s.idx := by unfold wakeEvent; (try dsimp only); (repeat' split) <;> first | rfl | simp
@[simp] theorem wakeEvent_obj(s : State) : (wakeEvent s).obj = s.obj := by unfold wakeEvent; (try dsimp only); (repeat' split) <;> first | rfl | simp
@[simp] theorem wakeEvent_shv(s : State) : (wakeEvent s).shv = s.shv := by unfold wakeEvent; (try dsimp only); (repeat' split) <;> first | rfl | simp
@[simp] theorem wakeEvent_stk(s : State) : (wakeEvent s).stk = s.stk := by unfold wakeEvent; (try dsimp only); (repeat' split) <;> first | rfl | simp
@[simp] theorem wakeEvent_fls(s : State) : (wakeEvent s).fls = s.fls := by unfold wakeEvent; (try dsimp only); (repeat' split) <;> first | rfl | simp
@[simp] theorem wakeEvent_fab(s : State) : (wakeEvent s).fab = s.fab := by unfold wakeEvent; (try dsimp only); (repeat' split) <;> first | rfl | simp
@[simp] theorem wakeEvent_rel(s : State) : (wakeEvent s).rel = s.rel := by unfold wakeEvent; (try dsimp only); (repeat' split) <;> first | rfl | simp
@[simp] theorem wakeEvent_recd(s : State) : (wakeEvent s).recd = s.recd := by unfold wakeEvent; (try dsimp only); (repeat' split) <;> first | rfl | simp
@[simp] theorem wakeEvent_pending(s : State) : (wakeEvent s).pending = s.pending := by unfold wakeEvent; (try dsimp only); (repeat' split) <;> first | rfl | simp

@[simp] theorem signalCq_aon (q : Nat) (s : State) : (signalCq q s).aon = s.aon := by simp [signalCq]
@[simp] theorem signalCq_stew (q : Nat) (s : State) : (signalCq q s).stew = s.stew := by simp [signalCq]
@[simp] theorem signalCq_eng (q : Nat) (s : State) : (signalCq q s).eng = s.eng := by simp [signalCq]
@[simp] theorem signalCq_idx (q : Nat) (s : State) : (signalCq q s).idx = s.idx := by simp [signalCq]
@[simp] theorem signalCq_obj (q : Nat) (s : State) : (signalCq q s).obj = s.obj := by simp [signalCq]
@[simp] theorem signalCq_shv (q : Nat) (s : State) : (signalCq q s).shv = s.shv := by simp [signalCq]
@[simp] theorem signalCq_stk (q : Nat) (s : State) : (signalCq q s).stk = s.stk := by simp [signalCq]
@[simp] theorem signalCq_fls (q : Nat) (s : State) : (signalCq q s).fls = s.fls := by simp [signalCq]
@[simp] theorem signalCq_fab (q : Nat) (s : State) : (signalCq q s).fab = s.fab := by simp [signalCq]
@[simp] theorem signalCq_rel (q : Nat) (s : State) : (signalCq q s).rel = s.rel := by simp [signalCq]
@[simp] theorem signalCq_recd (q : Nat) (s : State) : (signalCq q s).recd = s.recd := by simp [signalCq]
@[simp] theorem signalCq_pending (q : Nat) (s : State) : (signalCq q s).pending = s.pending := by simp [signalCq]

@[simp] theorem freeStaging_aon (b : Option (Nat × Nat)) (s : State) : (freeStaging b s).aon = s.aon := by unfold freeStaging; (try dsimp only); (repeat' split) <;> first | rfl | simp
@[simp] theorem freeStaging_stew (b : Option (Nat × Nat)) (s : State) : (freeStaging b s).stew = s.stew := by unfold freeStaging; (try dsimp only); (repeat' split) <;> first | rfl | simp
@[simp] theorem freeStaging_hif (b : Option (Nat × Nat)) (s : State) : (freeStaging b s).hif = s.hif := by unfold freeStaging; (try dsimp only); (repeat' split) <;> first | rfl | simp
@[simp] theorem freeStaging_eng (b : Option (Nat × Nat)) (s : State) : (freeStaging b s).eng = s.eng := by unfold freeStaging; (try dsimp only); (repeat' split) <;> first | rfl | simp
@[simp] theorem freeStaging_idx (b : Option (Nat × Nat)) (s : State) : (freeStaging b s).idx = s.idx := by unfold freeStaging; (try dsimp only); (repeat' split) <;> first | rfl | simp
@[simp] theorem freeStaging_obj (b : Option (Nat × Nat)) (s : State) : (freeStaging b s).obj = s.obj := by unfold freeStaging; (try dsimp only); (repeat' split) <;> first | rfl | simp
@[simp] theorem freeStaging_stk (b : Option (Nat × Nat)) (s : State) : (freeStaging b s).stk = s.stk := by unfold freeStaging; (try dsimp only); (repeat' split) <;> first | rfl | simp
@[simp] theorem freeStaging_fls (b : Option (Nat × Nat)) (s : State) : (freeStaging b s).fls = s.fls := by unfold freeStaging; (try dsimp only); (repeat' split) <;> first | rfl | simp
@[simp] theorem freeStaging_fab (b : Option (Nat × Nat)) (s : State) : (freeStaging b s).fab = s.fab := by unfold freeStaging; (try dsimp only); (repeat' split) <;> first | rfl | simp
@[simp] theorem freeStaging_rel (b : Option (Nat × Nat)) (s : State) : (freeStaging b s).rel = s.rel := by unfold freeStaging; (try dsimp only); (repeat' split) <;> first | rfl | simp
@[simp] theorem freeStaging_recd (b : Option (Nat × Nat)) (s : State) : (freeStaging b s).recd = s.recd := by unfold freeStaging; (try dsimp only); (repeat' split) <;> first | rfl | simp
@[simp] theorem freeStaging_pending (b : Option (Nat × Nat)) (s : State) : (freeStaging b s).pending = s.pending := by unfold freeStaging; (try dsimp only); (repeat' split) <;> first | rfl | simp

@[simp] theorem writeCompl_aon (q : Nat) (c : Compl) (s : State) : (writeCompl q c s).aon = s.aon := by
  unfold writeCompl; simp only [apply_ite State.aon, signalCq_aon, modQp_aon, hostWrite_aon, ite_self]
  exact foldl_same (State.aon) (fun s (w : HostWr) => hostWrite w.fn w.addr w.bytes w.ep s) _ _ (fun s w => hostWrite_aon _ _ _ _ s)
@[simp] theorem writeCompl_stew (q : Nat) (c : Compl) (s : State) : (writeCompl q c s).stew = s.stew := by
  unfold writeCompl; simp only [apply_ite State.stew, signalCq_stew, modQp_stew, hostWrite_stew, ite_self]
  exact foldl_same (State.stew) (fun s (w : HostWr) => hostWrite w.fn w.addr w.bytes w.ep s) _ _ (fun s w => hostWrite_stew _ _ _ _ s)
@[simp] theorem writeCompl_eng (q : Nat) (c : Compl) (s : State) : (writeCompl q c s).eng = s.eng := by
  unfold writeCompl; simp only [apply_ite State.eng, signalCq_eng, modQp_eng, hostWrite_eng, ite_self]
  exact foldl_same (State.eng) (fun s (w : HostWr) => hostWrite w.fn w.addr w.bytes w.ep s) _ _ (fun s w => hostWrite_eng _ _ _ _ s)
@[simp] theorem writeCompl_idx (q : Nat) (c : Compl) (s : State) : (writeCompl q c s).idx = s.idx := by
  unfold writeCompl; simp only [apply_ite State.idx, signalCq_idx, modQp_idx, hostWrite_idx, ite_self]
  exact foldl_same (State.idx) (fun s (w : HostWr) => hostWrite w.fn w.addr w.bytes w.ep s) _ _ (fun s w => hostWrite_idx _ _ _ _ s)
@[simp] theorem writeCompl_obj (q : Nat) (c : Compl) (s : State) : (writeCompl q c s).obj = s.obj := by
  unfold writeCompl; simp only [apply_ite State.obj, signalCq_obj, modQp_obj, hostWrite_obj, ite_self]
  exact foldl_same (State.obj) (fun s (w : HostWr) => hostWrite w.fn w.addr w.bytes w.ep s) _ _ (fun s w => hostWrite_obj _ _ _ _ s)
@[simp] theorem writeCompl_shv (q : Nat) (c : Compl) (s : State) : (writeCompl q c s).shv = s.shv := by
  unfold writeCompl; simp only [apply_ite State.shv, signalCq_shv, modQp_shv, hostWrite_shv, ite_self]
  exact foldl_same (State.shv) (fun s (w : HostWr) => hostWrite w.fn w.addr w.bytes w.ep s) _ _ (fun s w => hostWrite_shv _ _ _ _ s)
@[simp] theorem writeCompl_stk (q : Nat) (c : Compl) (s : State) : (writeCompl q c s).stk = s.stk := by
  unfold writeCompl; simp only [apply_ite State.stk, signalCq_stk, modQp_stk, hostWrite_stk, ite_self]
  exact foldl_same (State.stk) (fun s (w : HostWr) => hostWrite w.fn w.addr w.bytes w.ep s) _ _ (fun s w => hostWrite_stk _ _ _ _ s)
@[simp] theorem writeCompl_fls (q : Nat) (c : Compl) (s : State) : (writeCompl q c s).fls = s.fls := by
  unfold writeCompl; simp only [apply_ite State.fls, signalCq_fls, modQp_fls, hostWrite_fls, ite_self]
  exact foldl_same (State.fls) (fun s (w : HostWr) => hostWrite w.fn w.addr w.bytes w.ep s) _ _ (fun s w => hostWrite_fls _ _ _ _ s)
@[simp] theorem writeCompl_fab (q : Nat) (c : Compl) (s : State) : (writeCompl q c s).fab = s.fab := by
  unfold writeCompl; simp only [apply_ite State.fab, signalCq_fab, modQp_fab, hostWrite_fab, ite_self]
  exact foldl_same (State.fab) (fun s (w : HostWr) => hostWrite w.fn w.addr w.bytes w.ep s) _ _ (fun s w => hostWrite_fab _ _ _ _ s)
@[simp] theorem writeCompl_rel (q : Nat) (c : Compl) (s : State) : (writeCompl q c s).rel = s.rel := by
  unfold writeCompl; simp only [apply_ite State.rel, signalCq_rel, modQp_rel, hostWrite_rel, ite_self]
  exact foldl_same (State.rel) (fun s (w : HostWr) => hostWrite w.fn w.addr w.bytes w.ep s) _ _ (fun s w => hostWrite_rel _ _ _ _ s)
@[simp] theorem writeCompl_recd (q : Nat) (c : Compl) (s : State) : (writeCompl q c s).recd = s.recd := by
  unfold writeCompl; simp only [apply_ite State.recd, signalCq_recd, modQp_recd, hostWrite_recd, ite_self]
  exact foldl_same (State.recd) (fun s (w : HostWr) => hostWrite w.fn w.addr w.bytes w.ep s) _ _ (fun s w => hostWrite_recd _ _ _ _ s)
@[simp] theorem writeCompl_pending (q : Nat) (c : Compl) (s : State) : (writeCompl q c s).pending = s.pending := by
  unfold writeCompl; simp only [apply_ite State.pending, signalCq_pending, modQp_pending, hostWrite_pending, ite_self]
  exact foldl_same (State.pending) (fun s (w : HostWr) => hostWrite w.fn w.addr w.bytes w.ep s) _ _ (fun s w => hostWrite_pending _ _ _ _ s)

@[simp] theorem drainGo_aon (k q : Nat) (s : State) : (drainGo k q s).aon = s.aon := by
  induction k generalizing s with
  | zero => rfl
  | succ k ih => unfold drainGo; (repeat' split) <;> simp [ih]
@[simp] theorem drainGo_stew (k q : Nat) (s : State) : (drainGo k q s).stew = s.stew := by
  induction k generalizing s with
  | zero => rfl
  | succ k ih => unfold drainGo; (repeat' split) <;> simp [ih]
@[simp] theorem drainGo_eng (k q : Nat) (s : State) : (drainGo k q s).eng = s.eng := by
  induction k generalizing s with
  | zero => rfl
  | succ k ih => unfold drainGo; (repeat' split) <;> simp [ih]
@[simp] theorem drainGo_idx (k q : Nat) (s : State) : (drainGo k q s).idx = s.idx := by
  induction k generalizing s with
  | zero => rfl
  | succ k ih => unfold drainGo; (repeat' split) <;> simp [ih]
@[simp] theorem drainGo_obj (k q : Nat) (s : State) : (drainGo k q s).obj = s.obj := by
  induction k generalizing s with
  | zero => rfl
  | succ k ih => unfold drainGo; (repeat' split) <;> simp [ih]
@[simp] theorem drainGo_stk (k q : Nat) (s : State) : (drainGo k q s).stk = s.stk := by
  induction k generalizing s with
  | zero => rfl
  | succ k ih => unfold drainGo; (repeat' split) <;> simp [ih]
@[simp] theorem drainGo_fls (k q : Nat) (s : State) : (drainGo k q s).fls = s.fls := by
  induction k generalizing s with
  | zero => rfl
  | succ k ih => unfold drainGo; (repeat' split) <;> simp [ih]
@[simp] theorem drainGo_fab (k q : Nat) (s : State) : (drainGo k q s).fab = s.fab := by
  induction k generalizing s with
  | zero => rfl
  | succ k ih => unfold drainGo; (repeat' split) <;> simp [ih]
@[simp] theorem drainGo_rel (k q : Nat) (s : State) : (drainGo k q s).rel = s.rel := by
  induction k generalizing s with
  | zero => rfl
  | succ k ih => unfold drainGo; (repeat' split) <;> simp [ih]
@[simp] theorem drainGo_recd (k q : Nat) (s : State) : (drainGo k q s).recd = s.recd := by
  induction k generalizing s with
  | zero => rfl
  | succ k ih => unfold drainGo; (repeat' split) <;> simp [ih]
@[simp] theorem drainGo_pending (k q : Nat) (s : State) : (drainGo k q s).pending = s.pending := by
  induction k generalizing s with
  | zero => rfl
  | succ k ih => unfold drainGo; (repeat' split) <;> simp [ih]

@[simp] theorem noteWait_aon (q : Nat) (s : State) : (noteWait q s).aon = s.aon := by simp [noteWait]
@[simp] theorem noteWait_stew (q : Nat) (s : State) : (noteWait q s).stew = s.stew := by simp [noteWait]
@[simp] theorem noteWait_eng (q : Nat) (s : State) : (noteWait q s).eng = s.eng := by simp [noteWait]
@[simp] theorem noteWait_idx (q : Nat) (s : State) : (noteWait q s).idx = s.idx := by simp [noteWait]
@[simp] theorem noteWait_obj (q : Nat) (s : State) : (noteWait q s).obj = s.obj := by simp [noteWait]
@[simp] theorem noteWait_shv (q : Nat) (s : State) : (noteWait q s).shv = s.shv := by simp [noteWait]
@[simp] theorem noteWait_stk (q : Nat) (s : State) : (noteWait q s).stk = s.stk := by simp [noteWait]
@[simp] theorem noteWait_fls (q : Nat) (s : State) : (noteWait q s).fls = s.fls := by simp [noteWait]
@[simp] theorem noteWait_fab (q : Nat) (s : State) : (noteWait q s).fab = s.fab := by simp [noteWait]
@[simp] theorem noteWait_rel (q : Nat) (s : State) : (noteWait q s).rel = s.rel := by simp [noteWait]
@[simp] theorem noteWait_recd (q : Nat) (s : State) : (noteWait q s).recd = s.recd := by simp [noteWait]
@[simp] theorem noteWait_pending (q : Nat) (s : State) : (noteWait q s).pending = s.pending := by simp [noteWait]

@[simp] theorem drainCq_aon (q : Nat) (s : State) : (drainCq q s).aon = s.aon := by simp [drainCq]
@[simp] theorem drainCq_stew (q : Nat) (s : State) : (drainCq q s).stew = s.stew := by simp [drainCq]
@[simp] theorem drainCq_eng (q : Nat) (s : State) : (drainCq q s).eng = s.eng := by simp [drainCq]
@[simp] theorem drainCq_idx (q : Nat) (s : State) : (drainCq q s).idx = s.idx := by simp [drainCq]
@[simp] theorem drainCq_obj (q : Nat) (s : State) : (drainCq q s).obj = s.obj := by simp [drainCq]
@[simp] theorem drainCq_stk (q : Nat) (s : State) : (drainCq q s).stk = s.stk := by simp [drainCq]
@[simp] theorem drainCq_fls (q : Nat) (s : State) : (drainCq q s).fls = s.fls := by simp [drainCq]
@[simp] theorem drainCq_fab (q : Nat) (s : State) : (drainCq q s).fab = s.fab := by simp [drainCq]
@[simp] theorem drainCq_rel (q : Nat) (s : State) : (drainCq q s).rel = s.rel := by simp [drainCq]
@[simp] theorem drainCq_recd (q : Nat) (s : State) : (drainCq q s).recd = s.recd := by simp [drainCq]
@[simp] theorem drainCq_pending (q : Nat) (s : State) : (drainCq q s).pending = s.pending := by simp [drainCq]

@[simp] theorem postCompl_aon (q : Nat) (c : Compl) (s : State) : (postCompl q c s).aon = s.aon := by unfold postCompl; (try dsimp only); (repeat' split) <;> first | rfl | simp
@[simp] theorem postCompl_stew (q : Nat) (c : Compl) (s : State) : (postCompl q c s).stew = s.stew := by unfold postCompl; (try dsimp only); (repeat' split) <;> first | rfl | simp
@[simp] theorem postCompl_eng (q : Nat) (c : Compl) (s : State) : (postCompl q c s).eng = s.eng := by unfold postCompl; (try dsimp only); (repeat' split) <;> first | rfl | simp
@[simp] theorem postCompl_idx (q : Nat) (c : Compl) (s : State) : (postCompl q c s).idx = s.idx := by unfold postCompl; (try dsimp only); (repeat' split) <;> first | rfl | simp
@[simp] theorem postCompl_obj (q : Nat) (c : Compl) (s : State) : (postCompl q c s).obj = s.obj := by unfold postCompl; (try dsimp only); (repeat' split) <;> first | rfl | simp
@[simp] theorem postCompl_stk (q : Nat) (c : Compl) (s : State) : (postCompl q c s).stk = s.stk := by unfold postCompl; (try dsimp only); (repeat' split) <;> first | rfl | simp
@[simp] theorem postCompl_fls (q : Nat) (c : Compl) (s : State) : (postCompl q c s).fls = s.fls := by unfold postCompl; (try dsimp only); (repeat' split) <;> first | rfl | simp
@[simp] theorem postCompl_fab (q : Nat) (c : Compl) (s : State) : (postCompl q c s).fab = s.fab := by unfold postCompl; (try dsimp only); (repeat' split) <;> first | rfl | simp
@[simp] theorem postCompl_rel (q : Nat) (c : Compl) (s : State) : (postCompl q c s).rel = s.rel := by unfold postCompl; (try dsimp only); (repeat' split) <;> first | rfl | simp
@[simp] theorem postCompl_recd (q : Nat) (c : Compl) (s : State) : (postCompl q c s).recd = s.recd := by unfold postCompl; (try dsimp only); (repeat' split) <;> first | rfl | simp
@[simp] theorem postCompl_pending (q : Nat) (c : Compl) (s : State) : (postCompl q c s).pending = s.pending := by unfold postCompl; (try dsimp only); (repeat' split) <;> first | rfl | simp

@[simp] theorem bindEpoch_aon (e : Nat) (s : State) : (bindEpoch e s).aon = s.aon := by simp [bindEpoch]
@[simp] theorem bindEpoch_stew (e : Nat) (s : State) : (bindEpoch e s).stew = s.stew := by simp [bindEpoch]
@[simp] theorem bindEpoch_hif (e : Nat) (s : State) : (bindEpoch e s).hif = s.hif := by simp [bindEpoch]
@[simp] theorem bindEpoch_idx (e : Nat) (s : State) : (bindEpoch e s).idx = s.idx := by simp [bindEpoch]
@[simp] theorem bindEpoch_obj (e : Nat) (s : State) : (bindEpoch e s).obj = s.obj := by simp [bindEpoch]
@[simp] theorem bindEpoch_shv (e : Nat) (s : State) : (bindEpoch e s).shv = s.shv := by simp [bindEpoch]
@[simp] theorem bindEpoch_stk (e : Nat) (s : State) : (bindEpoch e s).stk = s.stk := by simp [bindEpoch]
@[simp] theorem bindEpoch_fls (e : Nat) (s : State) : (bindEpoch e s).fls = s.fls := by simp [bindEpoch]
@[simp] theorem bindEpoch_fab (e : Nat) (s : State) : (bindEpoch e s).fab = s.fab := by simp [bindEpoch]
@[simp] theorem bindEpoch_rel (e : Nat) (s : State) : (bindEpoch e s).rel = s.rel := by simp [bindEpoch]
@[simp] theorem bindEpoch_recd (e : Nat) (s : State) : (bindEpoch e s).recd = s.recd := by simp [bindEpoch]
@[simp] theorem bindEpoch_pending (e : Nat) (s : State) : (bindEpoch e s).pending = s.pending := by simp [bindEpoch]

@[simp] theorem unbindEpoch_aon (e : Option Nat) (s : State) : (unbindEpoch e s).aon = s.aon := by unfold unbindEpoch; (try dsimp only); (repeat' split) <;> first | rfl | simp
@[simp] theorem unbindEpoch_stew (e : Option Nat) (s : State) : (unbindEpoch e s).stew = s.stew := by unfold unbindEpoch; (try dsimp only); (repeat' split) <;> first | rfl | simp
@[simp] theorem unbindEpoch_hif (e : Option Nat) (s : State) : (unbindEpoch e s).hif = s.hif := by unfold unbindEpoch; (try dsimp only); (repeat' split) <;> first | rfl | simp
@[simp] theorem unbindEpoch_idx (e : Option Nat) (s : State) : (unbindEpoch e s).idx = s.idx := by unfold unbindEpoch; (try dsimp only); (repeat' split) <;> first | rfl | simp
@[simp] theorem unbindEpoch_obj (e : Option Nat) (s : State) : (unbindEpoch e s).obj = s.obj := by unfold unbindEpoch; (try dsimp only); (repeat' split) <;> first | rfl | simp
@[simp] theorem unbindEpoch_shv (e : Option Nat) (s : State) : (unbindEpoch e s).shv = s.shv := by unfold unbindEpoch; (try dsimp only); (repeat' split) <;> first | rfl | simp
@[simp] theorem unbindEpoch_stk (e : Option Nat) (s : State) : (unbindEpoch e s).stk = s.stk := by unfold unbindEpoch; (try dsimp only); (repeat' split) <;> first | rfl | simp
@[simp] theorem unbindEpoch_fls (e : Option Nat) (s : State) : (unbindEpoch e s).fls = s.fls := by unfold unbindEpoch; (try dsimp only); (repeat' split) <;> first | rfl | simp
@[simp] theorem unbindEpoch_fab (e : Option Nat) (s : State) : (unbindEpoch e s).fab = s.fab := by unfold unbindEpoch; (try dsimp only); (repeat' split) <;> first | rfl | simp
@[simp] theorem unbindEpoch_rel (e : Option Nat) (s : State) : (unbindEpoch e s).rel = s.rel := by unfold unbindEpoch; (try dsimp only); (repeat' split) <;> first | rfl | simp
@[simp] theorem unbindEpoch_recd (e : Option Nat) (s : State) : (unbindEpoch e s).recd = s.recd := by unfold unbindEpoch; (try dsimp only); (repeat' split) <;> first | rfl | simp
@[simp] theorem unbindEpoch_pending (e : Option Nat) (s : State) : (unbindEpoch e s).pending = s.pending := by unfold unbindEpoch; (try dsimp only); (repeat' split) <;> first | rfl | simp

@[simp] theorem releaseLocks_aon (h : Bool) (i : Nat) (s : State) : (releaseLocks h i s).aon = s.aon := by simp [releaseLocks]
@[simp] theorem releaseLocks_stew (h : Bool) (i : Nat) (s : State) : (releaseLocks h i s).stew = s.stew := by simp [releaseLocks]
@[simp] theorem releaseLocks_hif (h : Bool) (i : Nat) (s : State) : (releaseLocks h i s).hif = s.hif := by simp [releaseLocks]
@[simp] theorem releaseLocks_idx (h : Bool) (i : Nat) (s : State) : (releaseLocks h i s).idx = s.idx := by simp [releaseLocks]
@[simp] theorem releaseLocks_obj (h : Bool) (i : Nat) (s : State) : (releaseLocks h i s).obj = s.obj := by simp [releaseLocks]
@[simp] theorem releaseLocks_shv (h : Bool) (i : Nat) (s : State) : (releaseLocks h i s).shv = s.shv := by simp [releaseLocks]
@[simp] theorem releaseLocks_stk (h : Bool) (i : Nat) (s : State) : (releaseLocks h i s).stk = s.stk := by simp [releaseLocks]
@[simp] theorem releaseLocks_fls (h : Bool) (i : Nat) (s : State) : (releaseLocks h i s).fls = s.fls := by simp [releaseLocks]
@[simp] theorem releaseLocks_fab (h : Bool) (i : Nat) (s : State) : (releaseLocks h i s).fab = s.fab := by simp [releaseLocks]
@[simp] theorem releaseLocks_rel (h : Bool) (i : Nat) (s : State) : (releaseLocks h i s).rel = s.rel := by simp [releaseLocks]
@[simp] theorem releaseLocks_recd (h : Bool) (i : Nat) (s : State) : (releaseLocks h i s).recd = s.recd := by simp [releaseLocks]
@[simp] theorem releaseLocks_pending (h : Bool) (i : Nat) (s : State) : (releaseLocks h i s).pending = s.pending := by simp [releaseLocks]

@[simp] theorem dropPin_aon (k : Nat) (s : State) : (dropPin k s).aon = s.aon := by simp [dropPin]
@[simp] theorem dropPin_stew (k : Nat) (s : State) : (dropPin k s).stew = s.stew := by simp [dropPin]
@[simp] theorem dropPin_hif (k : Nat) (s : State) : (dropPin k s).hif = s.hif := by simp [dropPin]
@[simp] theorem dropPin_eng (k : Nat) (s : State) : (dropPin k s).eng = s.eng := by simp [dropPin]
@[simp] theorem dropPin_idx (k : Nat) (s : State) : (dropPin k s).idx = s.idx := by simp [dropPin]
@[simp] theorem dropPin_shv (k : Nat) (s : State) : (dropPin k s).shv = s.shv := by simp [dropPin]
@[simp] theorem dropPin_stk (k : Nat) (s : State) : (dropPin k s).stk = s.stk := by simp [dropPin]
@[simp] theorem dropPin_fls (k : Nat) (s : State) : (dropPin k s).fls = s.fls := by simp [dropPin]
@[simp] theorem dropPin_fab (k : Nat) (s : State) : (dropPin k s).fab = s.fab := by simp [dropPin]
@[simp] theorem dropPin_rel (k : Nat) (s : State) : (dropPin k s).rel = s.rel := by simp [dropPin]
@[simp] theorem dropPin_recd (k : Nat) (s : State) : (dropPin k s).recd = s.recd := by simp [dropPin]
@[simp] theorem dropPin_pending (k : Nat) (s : State) : (dropPin k s).pending = s.pending := by simp [dropPin]

@[simp] theorem checkDelete_aon (q : Nat) (s : State) : (checkDelete q s).aon = s.aon := by unfold checkDelete; (try dsimp only); (repeat' split) <;> first | rfl | simp
@[simp] theorem checkDelete_eng (q : Nat) (s : State) : (checkDelete q s).eng = s.eng := by unfold checkDelete; (try dsimp only); (repeat' split) <;> first | rfl | simp
@[simp] theorem checkDelete_idx (q : Nat) (s : State) : (checkDelete q s).idx = s.idx := by unfold checkDelete; (try dsimp only); (repeat' split) <;> first | rfl | simp
@[simp] theorem checkDelete_obj (q : Nat) (s : State) : (checkDelete q s).obj = s.obj := by unfold checkDelete; (try dsimp only); (repeat' split) <;> first | rfl | simp
@[simp] theorem checkDelete_shv (q : Nat) (s : State) : (checkDelete q s).shv = s.shv := by unfold checkDelete; (try dsimp only); (repeat' split) <;> first | rfl | simp
@[simp] theorem checkDelete_stk (q : Nat) (s : State) : (checkDelete q s).stk = s.stk := by unfold checkDelete; (try dsimp only); (repeat' split) <;> first | rfl | simp
@[simp] theorem checkDelete_fls (q : Nat) (s : State) : (checkDelete q s).fls = s.fls := by unfold checkDelete; (try dsimp only); (repeat' split) <;> first | rfl | simp
@[simp] theorem checkDelete_fab (q : Nat) (s : State) : (checkDelete q s).fab = s.fab := by unfold checkDelete; (try dsimp only); (repeat' split) <;> first | rfl | simp
@[simp] theorem checkDelete_rel (q : Nat) (s : State) : (checkDelete q s).rel = s.rel := by unfold checkDelete; (try dsimp only); (repeat' split) <;> first | rfl | simp
@[simp] theorem checkDelete_recd (q : Nat) (s : State) : (checkDelete q s).recd = s.recd := by unfold checkDelete; (try dsimp only); (repeat' split) <;> first | rfl | simp
@[simp] theorem checkDelete_pending (q : Nat) (s : State) : (checkDelete q s).pending = s.pending := by unfold checkDelete; (try dsimp only); (repeat' split) <;> first | rfl | simp

@[simp] theorem endCmd_aon (n : Nat) (s : State) : (endCmd n s).aon = s.aon := by
  unfold endCmd; split
  · rfl
  · simp [foldl_same (State.aon) _ _ _ (fun s k => dropPin_aon k s)]
@[simp] theorem endCmd_idx (n : Nat) (s : State) : (endCmd n s).idx = s.idx := by
  unfold endCmd; split
  · rfl
  · simp [foldl_same (State.idx) _ _ _ (fun s k => dropPin_idx k s)]
@[simp] theorem endCmd_shv (n : Nat) (s : State) : (endCmd n s).shv = s.shv := by
  unfold endCmd; split
  · rfl
  · simp [foldl_same (State.shv) _ _ _ (fun s k => dropPin_shv k s)]
@[simp] theorem endCmd_stk (n : Nat) (s : State) : (endCmd n s).stk = s.stk := by
  unfold endCmd; split
  · rfl
  · simp [foldl_same (State.stk) _ _ _ (fun s k => dropPin_stk k s)]
@[simp] theorem endCmd_fls (n : Nat) (s : State) : (endCmd n s).fls = s.fls := by
  unfold endCmd; split
  · rfl
  · simp [foldl_same (State.fls) _ _ _ (fun s k => dropPin_fls k s)]
@[simp] theorem endCmd_fab (n : Nat) (s : State) : (endCmd n s).fab = s.fab := by
  unfold endCmd; split
  · rfl
  · simp [foldl_same (State.fab) _ _ _ (fun s k => dropPin_fab k s)]
@[simp] theorem endCmd_rel (n : Nat) (s : State) : (endCmd n s).rel = s.rel := by
  unfold endCmd; split
  · rfl
  · simp [foldl_same (State.rel) _ _ _ (fun s k => dropPin_rel k s)]
@[simp] theorem endCmd_recd (n : Nat) (s : State) : (endCmd n s).recd = s.recd := by
  unfold endCmd; split
  · rfl
  · simp [foldl_same (State.recd) _ _ _ (fun s k => dropPin_recd k s)]
@[simp] theorem endCmd_pending (n : Nat) (s : State) : (endCmd n s).pending = s.pending := by
  unfold endCmd; split
  · rfl
  · simp [foldl_same (State.pending) _ _ _ (fun s k => dropPin_pending k s)]

@[simp] theorem finishCmd_aon (n : Nat) (r : Result) (s : State) : (finishCmd n r s).aon = s.aon := by unfold finishCmd; (try dsimp only); (repeat' split) <;> first | rfl | simp
@[simp] theorem finishCmd_idx (n : Nat) (r : Result) (s : State) : (finishCmd n r s).idx = s.idx := by unfold finishCmd; (try dsimp only); (repeat' split) <;> first | rfl | simp
@[simp] theorem finishCmd_stk (n : Nat) (r : Result) (s : State) : (finishCmd n r s).stk = s.stk := by unfold finishCmd; (try dsimp only); (repeat' split) <;> first | rfl | simp
@[simp] theorem finishCmd_fls (n : Nat) (r : Result) (s : State) : (finishCmd n r s).fls = s.fls := by unfold finishCmd; (try dsimp only); (repeat' split) <;> first | rfl | simp
@[simp] theorem finishCmd_fab (n : Nat) (r : Result) (s : State) : (finishCmd n r s).fab = s.fab := by unfold finishCmd; (try dsimp only); (repeat' split) <;> first | rfl | simp
@[simp] theorem finishCmd_rel (n : Nat) (r : Result) (s : State) : (finishCmd n r s).rel = s.rel := by unfold finishCmd; (try dsimp only); (repeat' split) <;> first | rfl | simp
@[simp] theorem finishCmd_recd (n : Nat) (r : Result) (s : State) : (finishCmd n r s).recd = s.recd := by unfold finishCmd; (try dsimp only); (repeat' split) <;> first | rfl | simp
@[simp] theorem finishCmd_pending (n : Nat) (r : Result) (s : State) : (finishCmd n r s).pending = s.pending := by unfold finishCmd; (try dsimp only); (repeat' split) <;> first | rfl | simp

@[simp] theorem checkWaits_aon (b : Nat) (s : State) : (checkWaits b s).aon = s.aon := by
  unfold checkWaits; split
  · rfl
  · exact foldl_same (State.aon) _ _ _ (fun s p => by (repeat' split) <;> simp)
@[simp] theorem checkWaits_eng (b : Nat) (s : State) : (checkWaits b s).eng = s.eng := by
  unfold checkWaits; split
  · rfl
  · exact foldl_same (State.eng) _ _ _ (fun s p => by (repeat' split) <;> simp)
@[simp] theorem checkWaits_idx (b : Nat) (s : State) : (checkWaits b s).idx = s.idx := by
  unfold checkWaits; split
  · rfl
  · exact foldl_same (State.idx) _ _ _ (fun s p => by (repeat' split) <;> simp)
@[simp] theorem checkWaits_obj (b : Nat) (s : State) : (checkWaits b s).obj = s.obj := by
  unfold checkWaits; split
  · rfl
  · exact foldl_same (State.obj) _ _ _ (fun s p => by (repeat' split) <;> simp)
@[simp] theorem checkWaits_stk (b : Nat) (s : State) : (checkWaits b s).stk = s.stk := by
  unfold checkWaits; split
  · rfl
  · exact foldl_same (State.stk) _ _ _ (fun s p => by (repeat' split) <;> simp)
@[simp] theorem checkWaits_fls (b : Nat) (s : State) : (checkWaits b s).fls = s.fls := by
  unfold checkWaits; split
  · rfl
  · exact foldl_same (State.fls) _ _ _ (fun s p => by (repeat' split) <;> simp)
@[simp] theorem checkWaits_fab (b : Nat) (s : State) : (checkWaits b s).fab = s.fab := by
  unfold checkWaits; split
  · rfl
  · exact foldl_same (State.fab) _ _ _ (fun s p => by (repeat' split) <;> simp)
@[simp] theorem checkWaits_rel (b : Nat) (s : State) : (checkWaits b s).rel = s.rel := by
  unfold checkWaits; split
  · rfl
  · exact foldl_same (State.rel) _ _ _ (fun s p => by (repeat' split) <;> simp)
@[simp] theorem checkWaits_recd (b : Nat) (s : State) : (checkWaits b s).recd = s.recd := by
  unfold checkWaits; split
  · rfl
  · exact foldl_same (State.recd) _ _ _ (fun s p => by (repeat' split) <;> simp)
@[simp] theorem checkWaits_pending (b : Nat) (s : State) : (checkWaits b s).pending = s.pending := by
  unfold checkWaits; split
  · rfl
  · exact foldl_same (State.pending) _ _ _ (fun s p => by (repeat' split) <;> simp)

@[simp] theorem binderAdd_aon (b n : Nat) (s : State) : (binderAdd b n s).aon = s.aon := by simp [binderAdd]
@[simp] theorem binderAdd_idx (b n : Nat) (s : State) : (binderAdd b n s).idx = s.idx := by simp [binderAdd]
@[simp] theorem binderAdd_obj (b n : Nat) (s : State) : (binderAdd b n s).obj = s.obj := by simp [binderAdd]
@[simp] theorem binderAdd_stk (b n : Nat) (s : State) : (binderAdd b n s).stk = s.stk := by simp [binderAdd]
@[simp] theorem binderAdd_fls (b n : Nat) (s : State) : (binderAdd b n s).fls = s.fls := by simp [binderAdd]
@[simp] theorem binderAdd_fab (b n : Nat) (s : State) : (binderAdd b n s).fab = s.fab := by simp [binderAdd]
@[simp] theorem binderAdd_rel (b n : Nat) (s : State) : (binderAdd b n s).rel = s.rel := by simp [binderAdd]
@[simp] theorem binderAdd_recd (b n : Nat) (s : State) : (binderAdd b n s).recd = s.recd := by simp [binderAdd]
@[simp] theorem binderAdd_pending (b n : Nat) (s : State) : (binderAdd b n s).pending = s.pending := by simp [binderAdd]

@[simp] theorem addMeter_aon (t i n : Nat) (s : State) : (addMeter t i n s).aon = s.aon := by simp [addMeter]
@[simp] theorem addMeter_stew (t i n : Nat) (s : State) : (addMeter t i n s).stew = s.stew := by simp [addMeter]
@[simp] theorem addMeter_hif (t i n : Nat) (s : State) : (addMeter t i n s).hif = s.hif := by simp [addMeter]
@[simp] theorem addMeter_eng (t i n : Nat) (s : State) : (addMeter t i n s).eng = s.eng := by simp [addMeter]
@[simp] theorem addMeter_idx (t i n : Nat) (s : State) : (addMeter t i n s).idx = s.idx := by simp [addMeter]
@[simp] theorem addMeter_shv (t i n : Nat) (s : State) : (addMeter t i n s).shv = s.shv := by simp [addMeter]
@[simp] theorem addMeter_stk (t i n : Nat) (s : State) : (addMeter t i n s).stk = s.stk := by simp [addMeter]
@[simp] theorem addMeter_fls (t i n : Nat) (s : State) : (addMeter t i n s).fls = s.fls := by simp [addMeter]
@[simp] theorem addMeter_fab (t i n : Nat) (s : State) : (addMeter t i n s).fab = s.fab := by simp [addMeter]
@[simp] theorem addMeter_rel (t i n : Nat) (s : State) : (addMeter t i n s).rel = s.rel := by simp [addMeter]
@[simp] theorem addMeter_recd (t i n : Nat) (s : State) : (addMeter t i n s).recd = s.recd := by simp [addMeter]
@[simp] theorem addMeter_pending (t i n : Nat) (s : State) : (addMeter t i n s).pending = s.pending := by simp [addMeter]

@[simp] theorem countViolation_aon (t : Nat) (s : State) : (countViolation t s).aon = s.aon := by simp [countViolation]
@[simp] theorem countViolation_stew (t : Nat) (s : State) : (countViolation t s).stew = s.stew := by simp [countViolation]
@[simp] theorem countViolation_eng (t : Nat) (s : State) : (countViolation t s).eng = s.eng := by simp [countViolation]
@[simp] theorem countViolation_idx (t : Nat) (s : State) : (countViolation t s).idx = s.idx := by simp [countViolation]
@[simp] theorem countViolation_obj (t : Nat) (s : State) : (countViolation t s).obj = s.obj := by simp [countViolation]
@[simp] theorem countViolation_shv (t : Nat) (s : State) : (countViolation t s).shv = s.shv := by simp [countViolation]
@[simp] theorem countViolation_stk (t : Nat) (s : State) : (countViolation t s).stk = s.stk := by simp [countViolation]
@[simp] theorem countViolation_fls (t : Nat) (s : State) : (countViolation t s).fls = s.fls := by simp [countViolation]
@[simp] theorem countViolation_fab (t : Nat) (s : State) : (countViolation t s).fab = s.fab := by simp [countViolation]
@[simp] theorem countViolation_recd (t : Nat) (s : State) : (countViolation t s).recd = s.recd := by simp [countViolation]
@[simp] theorem countViolation_pending (t : Nat) (s : State) : (countViolation t s).pending = s.pending := by simp [countViolation]

@[simp] theorem rawChunk_aon (ty st : Nat) (b : Bytes) (s : State) : (rawChunk ty st b s).aon = s.aon := rfl
@[simp] theorem rawChunk_stew (ty st : Nat) (b : Bytes) (s : State) : (rawChunk ty st b s).stew = s.stew := rfl
@[simp] theorem rawChunk_hif (ty st : Nat) (b : Bytes) (s : State) : (rawChunk ty st b s).hif = s.hif := rfl
@[simp] theorem rawChunk_eng (ty st : Nat) (b : Bytes) (s : State) : (rawChunk ty st b s).eng = s.eng := rfl
@[simp] theorem rawChunk_idx (ty st : Nat) (b : Bytes) (s : State) : (rawChunk ty st b s).idx = s.idx := rfl
@[simp] theorem rawChunk_obj (ty st : Nat) (b : Bytes) (s : State) : (rawChunk ty st b s).obj = s.obj := rfl
@[simp] theorem rawChunk_shv (ty st : Nat) (b : Bytes) (s : State) : (rawChunk ty st b s).shv = s.shv := rfl
@[simp] theorem rawChunk_stk (ty st : Nat) (b : Bytes) (s : State) : (rawChunk ty st b s).stk = s.stk := rfl
@[simp] theorem rawChunk_fls (ty st : Nat) (b : Bytes) (s : State) : (rawChunk ty st b s).fls = s.fls := rfl
@[simp] theorem rawChunk_fab (ty st : Nat) (b : Bytes) (s : State) : (rawChunk ty st b s).fab = s.fab := rfl
@[simp] theorem rawChunk_rel (ty st : Nat) (b : Bytes) (s : State) : (rawChunk ty st b s).rel = s.rel := rfl
@[simp] theorem rawChunk_pending (ty st : Nat) (b : Bytes) (s : State) : (rawChunk ty st b s).pending = s.pending := rfl
@[simp] theorem rawChunk_dig (ty st : Nat) (b : Bytes) (s : State) : (rawChunk ty st b s).dig = s.dig := rfl

@[simp] theorem flushDigests_aon (s : State) : (flushDigests s).aon = s.aon := by unfold flushDigests; split <;> rfl
@[simp] theorem flushDigests_stew (s : State) : (flushDigests s).stew = s.stew := by unfold flushDigests; split <;> rfl
@[simp] theorem flushDigests_hif (s : State) : (flushDigests s).hif = s.hif := by unfold flushDigests; split <;> rfl
@[simp] theorem flushDigests_eng (s : State) : (flushDigests s).eng = s.eng := by unfold flushDigests; split <;> rfl
@[simp] theorem flushDigests_idx (s : State) : (flushDigests s).idx = s.idx := by unfold flushDigests; split <;> rfl
@[simp] theorem flushDigests_obj (s : State) : (flushDigests s).obj = s.obj := by unfold flushDigests; split <;> rfl
@[simp] theorem flushDigests_shv (s : State) : (flushDigests s).shv = s.shv := by unfold flushDigests; split <;> rfl
@[simp] theorem flushDigests_stk (s : State) : (flushDigests s).stk = s.stk := by unfold flushDigests; split <;> rfl
@[simp] theorem flushDigests_fls (s : State) : (flushDigests s).fls = s.fls := by unfold flushDigests; split <;> rfl
@[simp] theorem flushDigests_fab (s : State) : (flushDigests s).fab = s.fab := by unfold flushDigests; split <;> rfl
@[simp] theorem flushDigests_rel (s : State) : (flushDigests s).rel = s.rel := by unfold flushDigests; split <;> rfl
@[simp] theorem flushDigests_pending (s : State) : (flushDigests s).pending = s.pending := by unfold flushDigests; split <;> rfl

@[simp] theorem putChunk_aon (ty st : Nat) (b : Bytes) (s : State) : (putChunk ty st b s).aon = s.aon := by simp [putChunk]
@[simp] theorem putChunk_stew (ty st : Nat) (b : Bytes) (s : State) : (putChunk ty st b s).stew = s.stew := by simp [putChunk]
@[simp] theorem putChunk_hif (ty st : Nat) (b : Bytes) (s : State) : (putChunk ty st b s).hif = s.hif := by simp [putChunk]
@[simp] theorem putChunk_eng (ty st : Nat) (b : Bytes) (s : State) : (putChunk ty st b s).eng = s.eng := by simp [putChunk]
@[simp] theorem putChunk_idx (ty st : Nat) (b : Bytes) (s : State) : (putChunk ty st b s).idx = s.idx := by simp [putChunk]
@[simp] theorem putChunk_obj (ty st : Nat) (b : Bytes) (s : State) : (putChunk ty st b s).obj = s.obj := by simp [putChunk]
@[simp] theorem putChunk_shv (ty st : Nat) (b : Bytes) (s : State) : (putChunk ty st b s).shv = s.shv := by simp [putChunk]
@[simp] theorem putChunk_stk (ty st : Nat) (b : Bytes) (s : State) : (putChunk ty st b s).stk = s.stk := by simp [putChunk]
@[simp] theorem putChunk_fls (ty st : Nat) (b : Bytes) (s : State) : (putChunk ty st b s).fls = s.fls := by simp [putChunk]
@[simp] theorem putChunk_fab (ty st : Nat) (b : Bytes) (s : State) : (putChunk ty st b s).fab = s.fab := by simp [putChunk]
@[simp] theorem putChunk_rel (ty st : Nat) (b : Bytes) (s : State) : (putChunk ty st b s).rel = s.rel := by simp [putChunk]
@[simp] theorem putChunk_pending (ty st : Nat) (b : Bytes) (s : State) : (putChunk ty st b s).pending = s.pending := by simp [putChunk]

@[simp] theorem recordInput_aon (k i : Nat) (p : Bool) (b : Bytes) (s : State) : (recordInput k i p b s).aon = s.aon := by unfold recordInput; (try dsimp only); (repeat' split) <;> first | rfl | simp
@[simp] theorem recordInput_stew (k i : Nat) (p : Bool) (b : Bytes) (s : State) : (recordInput k i p b s).stew = s.stew := by unfold recordInput; (try dsimp only); (repeat' split) <;> first | rfl | simp
@[simp] theorem recordInput_hif (k i : Nat) (p : Bool) (b : Bytes) (s : State) : (recordInput k i p b s).hif = s.hif := by unfold recordInput; (try dsimp only); (repeat' split) <;> first | rfl | simp
@[simp] theorem recordInput_eng (k i : Nat) (p : Bool) (b : Bytes) (s : State) : (recordInput k i p b s).eng = s.eng := by unfold recordInput; (try dsimp only); (repeat' split) <;> first | rfl | simp
@[simp] theorem recordInput_idx (k i : Nat) (p : Bool) (b : Bytes) (s : State) : (recordInput k i p b s).idx = s.idx := by unfold recordInput; (try dsimp only); (repeat' split) <;> first | rfl | simp
@[simp] theorem recordInput_obj (k i : Nat) (p : Bool) (b : Bytes) (s : State) : (recordInput k i p b s).obj = s.obj := by unfold recordInput; (try dsimp only); (repeat' split) <;> first | rfl | simp
@[simp] theorem recordInput_shv (k i : Nat) (p : Bool) (b : Bytes) (s : State) : (recordInput k i p b s).shv = s.shv := by unfold recordInput; (try dsimp only); (repeat' split) <;> first | rfl | simp
@[simp] theorem recordInput_stk (k i : Nat) (p : Bool) (b : Bytes) (s : State) : (recordInput k i p b s).stk = s.stk := by unfold recordInput; (try dsimp only); (repeat' split) <;> first | rfl | simp
@[simp] theorem recordInput_fls (k i : Nat) (p : Bool) (b : Bytes) (s : State) : (recordInput k i p b s).fls = s.fls := by unfold recordInput; (try dsimp only); (repeat' split) <;> first | rfl | simp
@[simp] theorem recordInput_fab (k i : Nat) (p : Bool) (b : Bytes) (s : State) : (recordInput k i p b s).fab = s.fab := by unfold recordInput; (try dsimp only); (repeat' split) <;> first | rfl | simp
@[simp] theorem recordInput_rel (k i : Nat) (p : Bool) (b : Bytes) (s : State) : (recordInput k i p b s).rel = s.rel := by unfold recordInput; (try dsimp only); (repeat' split) <;> first | rfl | simp
@[simp] theorem recordInput_pending (k i : Nat) (p : Bool) (b : Bytes) (s : State) : (recordInput k i p b s).pending = s.pending := by unfold recordInput; (try dsimp only); (repeat' split) <;> first | rfl | simp

@[simp] theorem token_aon (c i j w v : Nat) (s : State) : (token c i j w v s).aon = s.aon := by unfold token; (try dsimp only); (repeat' split) <;> first | rfl | simp
@[simp] theorem token_stew (c i j w v : Nat) (s : State) : (token c i j w v s).stew = s.stew := by unfold token; (try dsimp only); (repeat' split) <;> first | rfl | simp
@[simp] theorem token_hif (c i j w v : Nat) (s : State) : (token c i j w v s).hif = s.hif := by unfold token; (try dsimp only); (repeat' split) <;> first | rfl | simp
@[simp] theorem token_eng (c i j w v : Nat) (s : State) : (token c i j w v s).eng = s.eng := by unfold token; (try dsimp only); (repeat' split) <;> first | rfl | simp
@[simp] theorem token_idx (c i j w v : Nat) (s : State) : (token c i j w v s).idx = s.idx := by unfold token; (try dsimp only); (repeat' split) <;> first | rfl | simp
@[simp] theorem token_obj (c i j w v : Nat) (s : State) : (token c i j w v s).obj = s.obj := by unfold token; (try dsimp only); (repeat' split) <;> first | rfl | simp
@[simp] theorem token_shv (c i j w v : Nat) (s : State) : (token c i j w v s).shv = s.shv := by unfold token; (try dsimp only); (repeat' split) <;> first | rfl | simp
@[simp] theorem token_stk (c i j w v : Nat) (s : State) : (token c i j w v s).stk = s.stk := by unfold token; (try dsimp only); (repeat' split) <;> first | rfl | simp
@[simp] theorem token_fls (c i j w v : Nat) (s : State) : (token c i j w v s).fls = s.fls := by unfold token; (try dsimp only); (repeat' split) <;> first | rfl | simp
@[simp] theorem token_fab (c i j w v : Nat) (s : State) : (token c i j w v s).fab = s.fab := by unfold token; (try dsimp only); (repeat' split) <;> first | rfl | simp
@[simp] theorem token_rel (c i j w v : Nat) (s : State) : (token c i j w v s).rel = s.rel := by unfold token; (try dsimp only); (repeat' split) <;> first | rfl | simp
@[simp] theorem token_pending (c i j w v : Nat) (s : State) : (token c i j w v s).pending = s.pending := by unfold token; (try dsimp only); (repeat' split) <;> first | rfl | simp

@[simp] theorem timerToken_aon (i k : Nat) (s : State) : (timerToken i k s).aon = s.aon := by simp [timerToken]
@[simp] theorem timerToken_stew (i k : Nat) (s : State) : (timerToken i k s).stew = s.stew := by simp [timerToken]
@[simp] theorem timerToken_hif (i k : Nat) (s : State) : (timerToken i k s).hif = s.hif := by simp [timerToken]
@[simp] theorem timerToken_eng (i k : Nat) (s : State) : (timerToken i k s).eng = s.eng := by simp [timerToken]
@[simp] theorem timerToken_idx (i k : Nat) (s : State) : (timerToken i k s).idx = s.idx := by simp [timerToken]
@[simp] theorem timerToken_obj (i k : Nat) (s : State) : (timerToken i k s).obj = s.obj := by simp [timerToken]
@[simp] theorem timerToken_shv (i k : Nat) (s : State) : (timerToken i k s).shv = s.shv := by simp [timerToken]
@[simp] theorem timerToken_stk (i k : Nat) (s : State) : (timerToken i k s).stk = s.stk := by simp [timerToken]
@[simp] theorem timerToken_fls (i k : Nat) (s : State) : (timerToken i k s).fls = s.fls := by simp [timerToken]
@[simp] theorem timerToken_fab (i k : Nat) (s : State) : (timerToken i k s).fab = s.fab := by simp [timerToken]
@[simp] theorem timerToken_rel (i k : Nat) (s : State) : (timerToken i k s).rel = s.rel := by simp [timerToken]
@[simp] theorem timerToken_pending (i k : Nat) (s : State) : (timerToken i k s).pending = s.pending := by simp [timerToken]

@[simp] theorem takeToken_aon (p w : Nat) (s : State) : (takeToken p w s).aon = s.aon := by unfold takeToken; split <;> rfl
@[simp] theorem takeToken_stew (p w : Nat) (s : State) : (takeToken p w s).stew = s.stew := by unfold takeToken; split <;> rfl
@[simp] theorem takeToken_hif (p w : Nat) (s : State) : (takeToken p w s).hif = s.hif := by unfold takeToken; split <;> rfl
@[simp] theorem takeToken_eng (p w : Nat) (s : State) : (takeToken p w s).eng = s.eng := by unfold takeToken; split <;> rfl
@[simp] theorem takeToken_idx (p w : Nat) (s : State) : (takeToken p w s).idx = s.idx := by unfold takeToken; split <;> rfl
@[simp] theorem takeToken_obj (p w : Nat) (s : State) : (takeToken p w s).obj = s.obj := by unfold takeToken; split <;> rfl
@[simp] theorem takeToken_shv (p w : Nat) (s : State) : (takeToken p w s).shv = s.shv := by unfold takeToken; split <;> rfl
@[simp] theorem takeToken_stk (p w : Nat) (s : State) : (takeToken p w s).stk = s.stk := by unfold takeToken; split <;> rfl
@[simp] theorem takeToken_fls (p w : Nat) (s : State) : (takeToken p w s).fls = s.fls := by unfold takeToken; split <;> rfl
@[simp] theorem takeToken_fab (p w : Nat) (s : State) : (takeToken p w s).fab = s.fab := by unfold takeToken; split <;> rfl
@[simp] theorem takeToken_rel (p w : Nat) (s : State) : (takeToken p w s).rel = s.rel := by unfold takeToken; split <;> rfl
@[simp] theorem takeToken_pending (p w : Nat) (s : State) : (takeToken p w s).pending = s.pending := by unfold takeToken; split <;> rfl

@[simp] theorem backToken_aon (i j k t : Nat) (s : State) : (backToken i j k t s).aon = s.aon := by unfold backToken; split <;> simp
@[simp] theorem backToken_stew (i j k t : Nat) (s : State) : (backToken i j k t s).stew = s.stew := by unfold backToken; split <;> simp
@[simp] theorem backToken_hif (i j k t : Nat) (s : State) : (backToken i j k t s).hif = s.hif := by unfold backToken; split <;> simp
@[simp] theorem backToken_eng (i j k t : Nat) (s : State) : (backToken i j k t s).eng = s.eng := by unfold backToken; split <;> simp
@[simp] theorem backToken_idx (i j k t : Nat) (s : State) : (backToken i j k t s).idx = s.idx := by unfold backToken; split <;> simp
@[simp] theorem backToken_obj (i j k t : Nat) (s : State) : (backToken i j k t s).obj = s.obj := by unfold backToken; split <;> simp
@[simp] theorem backToken_shv (i j k t : Nat) (s : State) : (backToken i j k t s).shv = s.shv := by unfold backToken; split <;> simp
@[simp] theorem backToken_stk (i j k t : Nat) (s : State) : (backToken i j k t s).stk = s.stk := by unfold backToken; split <;> simp
@[simp] theorem backToken_fls (i j k t : Nat) (s : State) : (backToken i j k t s).fls = s.fls := by unfold backToken; split <;> simp
@[simp] theorem backToken_fab (i j k t : Nat) (s : State) : (backToken i j k t s).fab = s.fab := by unfold backToken; split <;> simp
@[simp] theorem backToken_rel (i j k t : Nat) (s : State) : (backToken i j k t s).rel = s.rel := by unfold backToken; split <;> simp
@[simp] theorem backToken_pending (i j k t : Nat) (s : State) : (backToken i j k t s).pending = s.pending := by unfold backToken; split <;> simp

@[simp] theorem chanIssue_aon (c n st : Nat) (s : State) : (chanIssue c n st s).aon = s.aon := by unfold chanIssue bucketCharge; split <;> simp
@[simp] theorem chanIssue_stew (c n st : Nat) (s : State) : (chanIssue c n st s).stew = s.stew := by unfold chanIssue bucketCharge; split <;> simp
@[simp] theorem chanIssue_hif (c n st : Nat) (s : State) : (chanIssue c n st s).hif = s.hif := by unfold chanIssue bucketCharge; split <;> simp
@[simp] theorem chanIssue_eng (c n st : Nat) (s : State) : (chanIssue c n st s).eng = s.eng := by unfold chanIssue bucketCharge; split <;> simp
@[simp] theorem chanIssue_idx (c n st : Nat) (s : State) : (chanIssue c n st s).idx = s.idx := by unfold chanIssue bucketCharge; split <;> simp
@[simp] theorem chanIssue_obj (c n st : Nat) (s : State) : (chanIssue c n st s).obj = s.obj := by unfold chanIssue bucketCharge; split <;> simp
@[simp] theorem chanIssue_shv (c n st : Nat) (s : State) : (chanIssue c n st s).shv = s.shv := by unfold chanIssue bucketCharge; split <;> simp
@[simp] theorem chanIssue_stk (c n st : Nat) (s : State) : (chanIssue c n st s).stk = s.stk := by unfold chanIssue bucketCharge; split <;> simp
@[simp] theorem chanIssue_fls (c n st : Nat) (s : State) : (chanIssue c n st s).fls = s.fls := by unfold chanIssue bucketCharge; split <;> simp
@[simp] theorem chanIssue_rel (c n st : Nat) (s : State) : (chanIssue c n st s).rel = s.rel := by unfold chanIssue bucketCharge; split <;> simp
@[simp] theorem chanIssue_pending (c n st : Nat) (s : State) : (chanIssue c n st s).pending = s.pending := by unfold chanIssue bucketCharge; split <;> simp

@[simp] theorem stewardInt_aon (k : Nat) (s : State) : (stewardInt k s).aon = s.aon := by simp [stewardInt]
@[simp] theorem stewardInt_stew (k : Nat) (s : State) : (stewardInt k s).stew = s.stew := by simp [stewardInt]
@[simp] theorem stewardInt_hif (k : Nat) (s : State) : (stewardInt k s).hif = s.hif := by simp [stewardInt]
@[simp] theorem stewardInt_eng (k : Nat) (s : State) : (stewardInt k s).eng = s.eng := by simp [stewardInt]
@[simp] theorem stewardInt_idx (k : Nat) (s : State) : (stewardInt k s).idx = s.idx := by simp [stewardInt]
@[simp] theorem stewardInt_obj (k : Nat) (s : State) : (stewardInt k s).obj = s.obj := by simp [stewardInt]
@[simp] theorem stewardInt_shv (k : Nat) (s : State) : (stewardInt k s).shv = s.shv := by simp [stewardInt]
@[simp] theorem stewardInt_stk (k : Nat) (s : State) : (stewardInt k s).stk = s.stk := by simp [stewardInt]
@[simp] theorem stewardInt_fls (k : Nat) (s : State) : (stewardInt k s).fls = s.fls := by simp [stewardInt]
@[simp] theorem stewardInt_fab (k : Nat) (s : State) : (stewardInt k s).fab = s.fab := by simp [stewardInt]
@[simp] theorem stewardInt_rel (k : Nat) (s : State) : (stewardInt k s).rel = s.rel := by simp [stewardInt]
@[simp] theorem stewardInt_pending (k : Nat) (s : State) : (stewardInt k s).pending = s.pending := by simp [stewardInt]

@[simp] theorem recordData_aon (q c : Nat) (b : Bytes) (p : Bool) (s : State) : (recordData q c b p s).aon = s.aon := by unfold recordData; (try dsimp only); (repeat' split) <;> first | rfl | simp
@[simp] theorem recordData_stew (q c : Nat) (b : Bytes) (p : Bool) (s : State) : (recordData q c b p s).stew = s.stew := by unfold recordData; (try dsimp only); (repeat' split) <;> first | rfl | simp
@[simp] theorem recordData_hif (q c : Nat) (b : Bytes) (p : Bool) (s : State) : (recordData q c b p s).hif = s.hif := by unfold recordData; (try dsimp only); (repeat' split) <;> first | rfl | simp
@[simp] theorem recordData_eng (q c : Nat) (b : Bytes) (p : Bool) (s : State) : (recordData q c b p s).eng = s.eng := by unfold recordData; (try dsimp only); (repeat' split) <;> first | rfl | simp
@[simp] theorem recordData_idx (q c : Nat) (b : Bytes) (p : Bool) (s : State) : (recordData q c b p s).idx = s.idx := by unfold recordData; (try dsimp only); (repeat' split) <;> first | rfl | simp
@[simp] theorem recordData_obj (q c : Nat) (b : Bytes) (p : Bool) (s : State) : (recordData q c b p s).obj = s.obj := by unfold recordData; (try dsimp only); (repeat' split) <;> first | rfl | simp
@[simp] theorem recordData_shv (q c : Nat) (b : Bytes) (p : Bool) (s : State) : (recordData q c b p s).shv = s.shv := by unfold recordData; (try dsimp only); (repeat' split) <;> first | rfl | simp
@[simp] theorem recordData_stk (q c : Nat) (b : Bytes) (p : Bool) (s : State) : (recordData q c b p s).stk = s.stk := by unfold recordData; (try dsimp only); (repeat' split) <;> first | rfl | simp
@[simp] theorem recordData_fls (q c : Nat) (b : Bytes) (p : Bool) (s : State) : (recordData q c b p s).fls = s.fls := by unfold recordData; (try dsimp only); (repeat' split) <;> first | rfl | simp
@[simp] theorem recordData_fab (q c : Nat) (b : Bytes) (p : Bool) (s : State) : (recordData q c b p s).fab = s.fab := by unfold recordData; (try dsimp only); (repeat' split) <;> first | rfl | simp
@[simp] theorem recordData_rel (q c : Nat) (b : Bytes) (p : Bool) (s : State) : (recordData q c b p s).rel = s.rel := by unfold recordData; (try dsimp only); (repeat' split) <;> first | rfl | simp
@[simp] theorem recordData_pending (q c : Nat) (b : Bytes) (p : Bool) (s : State) : (recordData q c b p s).pending = s.pending := by unfold recordData; (try dsimp only); (repeat' split) <;> first | rfl | simp

end Sys2Proof.Machine
end

