-- ==== Sys2Proof/Laws/Tab.lean ====
section
/-! SUPPORT. Tables and sparse memories: a read after a write finds what was written, a write leaves every other key alone,
and every memory operation keeps the canonical form. -/

namespace Sys2Proof.Machine
open Sys2Proof

@[simp] theorem tabGet_tabSet_same {α : Type} (t : Tab α) (i : Nat) (x : α) : tabGet (tabSet t i x) i = some x := by
  induction t with
  | nil => simp [tabSet, tabGet]
  | cons p t ih =>
    obtain ⟨k, v⟩ := p
    unfold tabSet
    split
    · simp [tabGet]
    · split
      · simp [tabGet]
      · next h => simp [tabGet, h, ih]

theorem tabGet_tabSet_other {α : Type} (t : Tab α) (i j : Nat) (x : α) (h : j ≠ i) :
    tabGet (tabSet t i x) j = tabGet t j := by
  induction t with
  | nil => simp [tabSet, tabGet, h.symm]
  | cons p t ih =>
    obtain ⟨k, v⟩ := p
    unfold tabSet
    split
    · simp [tabGet, h.symm]
    · split
      · next h1 => subst h1; simp [tabGet, h.symm]
      · simp [tabGet, ih]

@[simp] theorem tabGet_tabMod_same {α : Type} (t : Tab α) (i : Nat) (f : α → α) :
    tabGet (tabMod t i f) i = (tabGet t i).map f := by
  induction t with
  | nil => rfl
  | cons p t ih =>
    obtain ⟨k, v⟩ := p
    simp only [tabMod, List.map_cons] at ih ⊢
    by_cases h : k = i
    · simp [h, tabGet]
    · simpa [h, tabGet] using ih

theorem tabGet_tabMod_other {α : Type} (t : Tab α) (i j : Nat) (f : α → α) (h : j ≠ i) :
    tabGet (tabMod t i f) j = tabGet t j := by
  induction t with
  | nil => rfl
  | cons p t ih =>
    obtain ⟨k, v⟩ := p
    simp only [tabMod, List.map_cons] at ih ⊢
    by_cases h1 : k = i
    · subst h1; simpa [tabGet, h.symm] using ih
    · simp only [h1, if_false, tabGet]; split
      · rfl
      · simpa using ih

@[simp] theorem tabGet_tabDel_same {α : Type} (t : Tab α) (i : Nat) : tabGet (tabDel t i) i = none := by
  induction t with
  | nil => rfl
  | cons p t ih =>
    obtain ⟨k, v⟩ := p
    simp only [tabDel, List.filter_cons] at ih ⊢
    by_cases h : k = i
    · simpa [h] using ih
    · simpa [h, tabGet] using ih

theorem tabGet_tabDel_other {α : Type} (t : Tab α) (i j : Nat) (h : j ≠ i) : tabGet (tabDel t i) j = tabGet t j := by
  induction t with
  | nil => rfl
  | cons p t ih =>
    obtain ⟨k, v⟩ := p
    simp only [tabDel, List.filter_cons] at ih ⊢
    by_cases h1 : k = i
    · subst h1; simpa [tabGet, h.symm] using ih
    · simp only [bne_iff_ne, ne_eq, h1, not_false_eq_true, if_true, tabGet]; split
      · rfl
      · simpa using ih

theorem memGet_memSet_same (m : Mem) (a : Nat) (b : Byte) (lo : Nat) (h : memWfFrom lo m = true) :
    memGet (memSet m a b) a = b := by
  induction m generalizing lo with
  | nil => unfold memSet; split <;> simp_all [memGet]
  | cons p m ih =>
    obtain ⟨k, v⟩ := p
    simp only [memWfFrom, Bool.and_eq_true, decide_eq_true_eq] at h
    have out : ∀ (m : Mem) (lo a : Nat), memWfFrom lo m = true → a < lo → memGet m a = 0 := by
      intro m
      induction m with
      | nil => intros; rfl
      | cons p m ih2 =>
        intro lo a hw hl
        obtain ⟨k, v⟩ := p
        simp only [memWfFrom, Bool.and_eq_true, decide_eq_true_eq] at hw
        have hk : k ≠ a := by omega
        simp only [memGet, hk, if_false]
        exact ih2 (k + 1) a hw.2 (by omega)
    unfold memSet
    split
    · split
      · next h1 h2 => subst h2; exact out _ (a + 1) a (by
        simp only [memWfFrom, Bool.and_eq_true, decide_eq_true_eq]
        exact ⟨⟨by omega, h.1.2⟩, h.2⟩) (by omega)
      · simp [memGet]
    · split
      · next h1 h2 =>
        split
        · next h3 => subst h3; exact out _ (k + 1) a h.2 (by omega)
        · simp [memGet]
      · next h1 h2 => simp only [memGet, h2, if_false]; exact ih (k + 1) h.2

theorem memGet_memSet_other (m : Mem) (a c : Nat) (b : Byte) (h : c ≠ a) : memGet (memSet m a b) c = memGet m c := by
  induction m with
  | nil => unfold memSet; split <;> simp [memGet, h.symm]
  | cons p m ih =>
    obtain ⟨k, v⟩ := p
    unfold memSet
    split
    · split <;> simp [memGet, h.symm]
    · split
      · next h1 => subst h1; split <;> simp [memGet, h.symm]
      · simp [memGet, ih]

theorem memWfFrom_memSet (m : Mem) (lo a : Nat) (b : Byte) (h : memWfFrom lo m = true) (ha : lo ≤ a) :
    memWfFrom lo (memSet m a b) = true := by
  induction m generalizing lo with
  | nil => unfold memSet; split <;> simp_all [memWfFrom]
  | cons p m ih =>
    obtain ⟨k, v⟩ := p
    have h0 := h
    simp only [memWfFrom, Bool.and_eq_true, decide_eq_true_eq] at h
    unfold memSet
    split
    · split
      · exact h0
      · next h1 h2 =>
        simp only [memWfFrom, Bool.and_eq_true, decide_eq_true_eq, bne_iff_ne, ne_eq]
        exact ⟨⟨ha, h2⟩, ⟨by omega, by simpa using h.1.2⟩, h.2⟩
    · split
      · next h1 h2 =>
        subst h2
        split
        · have : ∀ (m : Mem) (x y : Nat), x ≤ y → memWfFrom y m = true → memWfFrom x m = true := by
            intro m x y hxy hm
            cases m with
            | nil => rfl
            | cons p m =>
              obtain ⟨k, v⟩ := p
              simp only [memWfFrom, Bool.and_eq_true, decide_eq_true_eq] at hm ⊢
              exact ⟨⟨by omega, hm.1.2⟩, hm.2⟩
          exact this m lo (k + 1) (by omega) h.2
        · next h3 =>
          simp only [memWfFrom, Bool.and_eq_true, decide_eq_true_eq, bne_iff_ne, ne_eq]
          exact ⟨⟨h.1.1, h3⟩, h.2⟩
      · next h1 h2 =>
        simp only [memWfFrom, Bool.and_eq_true, decide_eq_true_eq]
        exact ⟨h.1, ih (k + 1) h.2 (by omega)⟩

/-- Writing one byte keeps the canonical form. -/
theorem memWf_memSet (m : Mem) (a : Nat) (b : Byte) (h : memWf m = true) : memWf (memSet m a b) = true :=
  memWfFrom_memSet m 0 a b h (Nat.zero_le a)

/-- Writing bytes keeps the canonical form. -/
theorem memWf_memWrite (bs : Bytes) (m : Mem) (a : Nat) (h : memWf m = true) : memWf (memWrite m a bs) = true := by
  induction bs generalizing m a with
  | nil => exact h
  | cons b bs ih => exact ih _ _ (memWf_memSet m a b h)

/-- A write leaves every byte before its first alone. -/
theorem memGet_memWrite_before (bs : Bytes) (m : Mem) (a c : Nat) (h : c < a) : memGet (memWrite m a bs) c = memGet m c := by
  induction bs generalizing m a with
  | nil => rfl
  | cons b bs ih => rw [memWrite, ih _ _ (by omega), memGet_memSet_other _ _ _ _ (by omega)]

/-- A write leaves every byte after its last alone. -/
theorem memGet_memWrite_after (bs : Bytes) (m : Mem) (a c : Nat) (h : a + bs.length ≤ c) :
    memGet (memWrite m a bs) c = memGet m c := by
  induction bs generalizing m a with
  | nil => rfl
  | cons b bs ih =>
    rw [List.length_cons] at h
    rw [memWrite, ih _ _ (by omega), memGet_memSet_other _ _ _ _ (by omega)]

/-- A read of written bytes finds what was written. -/
theorem memGet_memWrite_in (bs : Bytes) (m : Mem) (a i : Nat) (hw : memWf m = true) (h : i < bs.length) :
    memGet (memWrite m a bs) (a + i) = bs[i] := by
  induction bs generalizing m a i with
  | nil => simp at h
  | cons b bs ih =>
    rw [memWrite]
    cases i with
    | zero =>
      rw [memGet_memWrite_before _ _ _ _ (by omega)]
      exact memGet_memSet_same m a b 0 hw
    | succ i =>
      have := ih (memSet m a b) (a + 1) i (memWf_memSet m a b hw) (by simpa using h)
      rw [show a + (i + 1) = a + 1 + i by omega, this]; rfl

end Sys2Proof.Machine
end

