-- ==== Sys2Proof/WellFormed.lean ====
section
/-! DEFINITION. Well-formed commands: identifiers within the widths of R16 and the counts of units the spec gives.
A sender sends well-formed commands only; every meaning is total on ill-formed ones as well. -/

namespace Sys2Proof

/-- The operands lie within the ranges the spec gives them (R16, R299, R301, R341, R128, R23). -/
def Instr.wf : Instr → Bool
  | .sqTailDoorbell fn _ _ => decide (fn < 1024)
  | .cqHeadDoorbell fn _ _ => decide (fn < 1024)
  | .sqEntryFetch qp entry => decide (qp < 4096) && decide (entry.length = 64)
  | .commandAdmission qp => decide (qp < 4096)
  | .admissionWaitEnd qp => decide (qp < 4096)
  | .search _ _ => true
  | .insert _ _ => true
  | .upsert _ _ => true
  | .delete _ _ => true
  | .expertCall _ _ _ => true
  | .gate _ _ => true
  | .gather _ _ => true
  | .memoryLayer _ _ => true
  | .attention _ _ => true
  | .elementwiseAdd _ => true
  | .elementwiseMul _ => true
  | .elementwiseAct _ => true
  | .elementwiseConvert _ => true
  | .binderAdd _ => true
  | .binderSet _ => true
  | .binderWaitGe _ => true
  | .binderOpRead _ => true
  | .waitGeTimeout qp => decide (qp < 4096)
  | .husk _ _ _ => true
  | .alloc _ _ => true
  | .free _ => true
  | .move _ => true
  | .moveRehome _ => true
  | .pin _ => true
  | .unpin _ => true
  | .read _ => true
  | .commandRangeGrant _ => true
  | .completionDrain qp => decide (qp < 4096)
  | .queueDrainTimeout qp => decide (qp < 4096)
  | .coalesceTimeout qp => decide (qp < 4096)
  | .msixEntryUnmask fn ent => decide (fn < 1024) && decide (ent < 2048)
  | .faultCauseClear _ => true
  | .queueErrorClear reg _ => decide (reg < 64)
  | .queueStatusClear fn _ _ => decide (fn < 1024)
  | .registerLowHalfRead fn _ => decide (fn < 1024)
  | .registerWriteOther fn _ _ _ => decide (fn < 1024)
  | .mbxWindowWrite fn box _ _ => decide (fn < 1024) && decide (box < 1024)
  | .mbxDoorbellRing fn box _ => decide (fn < 1024) && decide (box < 1024)
  | .mbxStatusClear fn box _ => decide (fn < 1024) && decide (box < 1024)
  | .mbxReleaseRead fn box => decide (fn < 1024) && decide (box < 1024)
  | .mbxRequestTake => true
  | .mbxResponsePost box => decide (box < 1024)
  | .mbxEventDeliver box => decide (box < 1024)
  | .queueCreate box => decide (box < 1024)
  | .queueDelete box => decide (box < 1024)
  | .queueReset box => decide (box < 1024)
  | .vectorBind box => decide (box < 1024)
  | .vectorUnbind box => decide (box < 1024)
  | .windowMap box => decide (box < 1024)
  | .windowUnmap box => decide (box < 1024)
  | .timePost box => decide (box < 1024)
  | .powerSet box => decide (box < 1024)
  | .genApply box _ => decide (box < 1024)
  | .rollback box => decide (box < 1024)
  | .genRead box => decide (box < 1024)
  | .sheafStats box => decide (box < 1024)
  | .convertStats box => decide (box < 1024)
  | .collectionCreate box => decide (box < 1024)
  | .collectionChange box => decide (box < 1024)
  | .collectionDelete box => decide (box < 1024)
  | .collectionStats box => decide (box < 1024)
  | .rebuildSweep box => decide (box < 1024)
  | .rebuildSplit box => decide (box < 1024)
  | .rebuildMerge box => decide (box < 1024)
  | .rebuildRetrain box => decide (box < 1024)
  | .rebuildRehash box => decide (box < 1024)
  | .tableWrite box _ => decide (box < 1024)
  | .zalpolHusk box _ _ => decide (box < 1024)
  | .objectQuery box => decide (box < 1024)
  | .objectTransfer box => decide (box < 1024)
  | .binderAlloc box => decide (box < 1024)
  | .binderFree box => decide (box < 1024)
  | .binderRead box => decide (box < 1024)
  | .format box => decide (box < 1024)
  | .formatComplete => true
  | .mediaTableLoad box _ => decide (box < 1024)
  | .channelStatus box => decide (box < 1024)
  | .channelDrain box => decide (box < 1024)
  | .channelDrainComplete ch => decide (ch < 32)
  | .channelAdmit box => decide (box < 1024)
  | .channelAdmitComplete ch _ _ => decide (ch < 32)
  | .endurance box => decide (box < 1024)
  | .keyLoad => true
  | .keyDestroy => true
  | .fwLoad box _ => decide (box < 1024)
  | .fwActivate box => decide (box < 1024)
  | .fwActivateTimeout => true
  | .threshRun box => decide (box < 1024)
  | .threshStatus box => decide (box < 1024)
  | .threshIterationEnd _ _ _ _ _ => true
  | .threshDurationEnd _ => true
  | .signatureRead box => decide (box < 1024)
  | .logRead box => decide (box < 1024)
  | .recordExport box => decide (box < 1024)
  | .replayStart box _ => decide (box < 1024)
  | .meterRead box => decide (box < 1024)
  | .recoverRestart box => decide (box < 1024)
  | .recoverLeaveFault box => decide (box < 1024)
  | .recoveryStatus box => decide (box < 1024)
  | .functionLevelReset fn => decide (fn < 1024)
  | .perstNAssert => true
  | .hotReset => true
  | .linkDown => true
  | .linkTraining _ _ _ => true
  | .functionDStateChange fn _ => decide (fn < 1024)
  | .hostAccessError _ => true
  | .hostDataPoisoned _ => true
  | .windowRead _ _ _ => true
  | .windowWrite _ _ => true
  | .cxlIdentifyMemoryDevice => true
  | .cxlGetEventRecords => true
  | .cxlClearEventRecords => true
  | .cxlGetHealthInfo => true
  | .cxlGetPoisonList => true
  | .cxlUnsupportedCommand _ => true
  | .getVersion => true
  | .getCapabilities => true
  | .negotiateAlgorithms _ => true
  | .getDigests => true
  | .getCertificate _ _ _ => true
  | .challenge _ => true
  | .getMeasurements _ => true
  | .keyExchange _ => true
  | .finish _ => true
  | .heartbeat _ => true
  | .keyUpdate _ => true
  | .endSession _ => true
  | .vendorDefinedRequest _ _ => true
  | .headStageItemArrival _ => true
  | .batchWindowExpiry sheaf => decide (sheaf < 256)
  | .stageBatchStart sheaf stage lane => decide (sheaf < 256) && decide (stage < 16) && decide (lane < 32)
  | .stageBatchFinish sheaf stage lane => decide (sheaf < 256) && decide (stage < 16) && decide (lane < 32)
  | .creditReturnArrival sheaf stage succ => decide (sheaf < 256) && decide (stage < 16) && decide (succ < 16)
  | .stageGenerationSwitch tile => decide (tile < 512)
  | .awnReadIssue sheaf stage lane _ => decide (sheaf < 256) && decide (stage < 16) && decide (lane < 32)
  | .awnDataLand _ _ => true
  | .awnDirectoryRead _ => true
  | .stookListArrival leaf lane => decide (leaf.sheaf < 256) && decide (leaf.stage < 16) && decide (lane < 32)
  | .stookMergeStart engine => decide (engine < 73)
  | .stookMergeComplete engine => decide (engine < 73)
  | .stookRootDelivery sheaf stage => decide (sheaf < 256) && decide (stage < 16)
  | .tillerSwapStart tile => decide (tile < 512)
  | .tillerSwapComplete tile => decide (tile < 512)
  | .expertStagingGrant _ => true
  | .expertStagingComplete _ _ => true
  | .expertReach sheaf stage lane => decide (sheaf < 256) && decide (stage < 16) && decide (lane < 32)
  | .expertDeadlineExpiry sheaf stage lane => decide (sheaf < 256) && decide (stage < 16) && decide (lane < 32)
  | .pseudoChannelGrant culm _ _ => decide (culm < 512)
  | .culmScanOp culm => decide (culm < 512)
  | .culmAddOp culm => decide (culm < 512)
  | .culmMulOp culm => decide (culm < 512)
  | .culmActOp culm => decide (culm < 512)
  | .culmConvertOp culm => decide (culm < 512)
  | .culmAttendOp culm => decide (culm < 512)
  | .culmResultReturn culm => decide (culm < 512)
  | .culmSubstitution culm => decide (culm < 512)
  | .huskAdmission _ => true
  | .huskLockRequest _ => true
  | .huskLockGrant _ => true
  | .elementwiseComputeDone _ => true
  | .journalExtentsDurable _ => true
  | .commitGroupClose => true
  | .journalRecordDurable => true
  | .journalWriteFail => true
  | .journalUnavailable => true
  | .drainEntryFreed _ => true
  | .epochRingWaitEnd => true
  | .versionPoolWaitEnd => true
  | .versionReclaim => true
  | .settling _ _ => true
  | .rebuildShadowComplete _ => true
  | .barrier node msg => decide (node < 16384) && decide (msg < 2 ^ 32)
  | .barrierMap node msg => decide (node < 16384) && decide (msg < 2 ^ 32)
  | .promotionCopyComplete _ => true
  | .writeBackStart _ => true
  | .writeBackDurable _ => true
  | .cleaningPass _ => true
  | .rehomeSwitch _ => true
  | .oldLocationRelease _ => true
  | .freeRelease _ => true
  | .lunTemperatureRead ch lun _ => decide (ch < 32) && decide (lun < 32)
  | .flashReadComplete _ _ _ => true
  | .blockCalibration _ _ => true
  | .gleanerPatrol _ _ => true
  | .gleanerAgingPromotion _ => true
  | .prioritySweep _ _ => true
  | .fold _ _ => true
  | .garbageCollection _ _ => true
  | .relocation _ _ _ => true
  | .wearLevelling _ => true
  | .unitMoveProgrammed _ _ => true
  | .blockErase _ => true
  | .mappingPageWrite _ => true
  | .programFailure _ _ => true
  | .eraseFailure _ => true
  | .lunBusyTimeout ch lun => decide (ch < 32) && decide (lun < 32)
  | .channelLoss ch => decide (ch < 32)
  | .packSlotGrant => true
  | .packBlockEncode _ => true
  | .packBlockDecode _ => true
  | .checkpointStreamSwitch _ => true
  | .frameReceive port _ _ => decide (port < 4)
  | .ackSendTimer node vc => decide (node < 16384) && decide (vc < 4)
  | .retransmissionTimeout node vc => decide (node < 16384) && decide (vc < 4)
  | .hello node msg => decide (node < 16384) && decide (msg < 2 ^ 32)
  | .join node msg => decide (node < 16384) && decide (msg < 2 ^ 32)
  | .leave node msg => decide (node < 16384) && decide (msg < 2 ^ 32)
  | .telemetry node msg => decide (node < 16384) && decide (msg < 2 ^ 32)
  | .status node msg => decide (node < 16384) && decide (msg < 2 ^ 32)
  | .subSearch node msg => decide (node < 16384) && decide (msg < 2 ^ 32)
  | .subAnswer node msg => decide (node < 16384) && decide (msg < 2 ^ 32)
  | .t4Read node msg => decide (node < 16384) && decide (msg < 2 ^ 32)
  | .t4Data node msg => decide (node < 16384) && decide (msg < 2 ^ 32)
  | .t4Write node msg => decide (node < 16384) && decide (msg < 2 ^ 32)
  | .unknownMessageType node msg => decide (node < 16384) && decide (msg < 2 ^ 32)
  | .t4RequestTimeout msg => decide (msg < 2 ^ 32)
  | .fanoutTimeout _ => true
  | .peerTimeout node vc => decide (node < 16384) && decide (vc < 4)
  | .quarantineEnd node => decide (node < 16384)
  | .portLinkChange port _ => decide (port < 4)
  | .meterInterval => true
  | .bucketRefill => true
  | .agingPromotion _ _ => true
  | .t1PatrolRead culm _ _ _ => decide (culm < 512)
  | .sramUncorrectable _ _ _ => true
  | .detectionProcess => true
  | .logRecordWrite => true
  | .logArchiveCopy => true
  | .logRingFailure _ _ => true
  | .crossingLaneSwitch _ => true
  | .crossingResync island other => decide (island < 64) && decide (other < 64)
  | .dieLinkCrcRetry link => decide (link < 3)
  | .dieLinkRetriesExhausted link _ => decide (link < 3)
  | .dieLinkDown link => decide (link < 3)
  | .recordingStart => true
  | .chunkSpill => true
  | .recordingEnd _ => true
  | .snapshotRelease => true
  | .replayWindowClose seq => decide (seq < 2 ^ 64)
  | .replayStall => true
  | .replayEnd => true
  | .powerGood => true
  | .recoveryPhaseComplete _ => true
  | .knownAnswerCheck _ => true
  | .standbyEntry => true
  | .pwrFailNAssert => true
  | .pwrFailNGlitch => true
  | .flushComplete => true
  | .holdupOkChange _ => true
  | .railOutOfLimits rail => decide (rail < 8)
  | .warmReset => true
  | .stewardWatchdog => true
  | .islandReset island => decide (island < 64)
  | .powerStateReversiblePoint => true
  | .powerStateWake _ => true
  | .powerStateExitComplete => true
  | .powerMeanSample _ => true
  | .powerClockStep => true
  | .thermalSample _ _ => true
  | .thermalTrip => true
  | .refclkLoss clk => decide (clk < 3)
  | .refclkReturn clk => decide (clk < 3)
  | .smbusMirrorUpdate => true
  | .smbusIdent _ => true
  | .smbusNodeStatus _ => true
  | .smbusBootUptime _ => true
  | .smbusFaultCause _ => true
  | .smbusLastGasp _ => true
  | .smbusLogFailCount _ => true
  | .smbusTemps _ => true
  | .smbusRails _ => true
  | .smbusThermal _ => true
  | .smbusWarmReset word _ => decide (word < 65536)
  | .smbusUndefinedCode code _ => decide (code < 256)
  | .jtagWarmReset => true
  | .jtagIdcode => true
  | .jtagBypass instr => decide (instr < 65536) && instr != 0x00A5
  | .jtagSamplePreload => true
  | .jtagExtest => true
  | .jtagIntest => true
  | .jtagClamp => true
  | .jtagHighz => true
  | .pwrFailNRelease => true
  | .holdUpEnds => true
  | .stewardRestartComplete => true
  | .msixEntryMask fn ent => decide (fn < 1024) && decide (ent < 2048)
  | .sriovVfEnable vfs => decide (vfs < 1024)
  | .bar2Resize _ => true
  | .queueEngineInternalTimeout => true
  | .lockstepDisagreement => true
  | .mbxDomainDownTimeout box => decide (box < 1024)

end Sys2Proof
end

