-- ==== Sys2Proof/Tests/Slice0.lean ====
section
/-! SUPPORT. Tests: ill-formed terms that the checks refuse, small steps whose outcomes the spec gives, and for every
statement with hypotheses states and operands that meet them: a theorem wit_<statement> applies the statement, hypothesis by
hypothesis, at such states. -/

namespace Sys2Proof.Tests
open Sys2Proof Sys2Proof.Machine Sys2Proof.Safety

-- The proofs are checked one after the other, so that few threads run at once.
set_option Elab.async false

/-- A command to which the statement applied gives a next state with what it claims. -/
def Runs (c : Instr) (s : State) : Prop := ∃ P, Completes c s P

/-- A statement's conclusion at a witness. -/
theorem runs {c : Instr} {s : State} {P : State → Prop} (h : Completes c s P) : Runs c s := ⟨P, h⟩

/-! Small states. -/

/-- The reset state. -/
def w0 : State := {}
/-- The reset state with one queue pair, or one mailbox, of tenant 0. -/
def wq (p : Qp) : State := { w0 with hif := { w0.hif with qps := [(5, p)] } }
def wm (m : Mbx) : State := { w0 with stew := { w0.stew with mbx := [(0, m)] } }
/-- A queue pair of tenant 0, enabled, with 16 entries in each ring and vector 0. -/
def ctx0 : Bytes := zeros 0x18 ++ toLe 4 16 ++ toLe 4 16 ++ zeros 32
def q0 : Qp := { tenant := 0, ctx := ctx0, qstate := .enabled }
/-- A command of that queue pair. -/
def wc (c : Cmd) : State := { w0 with hif := { w0.hif with qps := [(5, q0)], cmds := [(0, c)], nextCmd := 1 } }
/-- A state at a later time. -/
def at_ (t : Nat) (s : State) : State := { s with aon := { s.aon with uptime := t } }

/-- 64 bytes with fields written. -/
def ent (l : List (Nat × Bytes)) : Bytes := l.foldl (fun b p => putAt b p.1 p.2) (zeros 64)
/-- A ready command of an opcode and an entry. -/
def cmd (op : Nat) (e : Bytes) : Cmd := { qp := 5, opcode := op, holds := true, entry := e }
/-- An object of tenant 0 under index 9, and its handle. -/
def h9 : Nat := mkHandle 0 2 9 1
def o9 : ObjRec := { handle := h9, size := 4096, home := 1, format := 1, chanLocal := true }
def wobj (o : ObjRec) (s : State) : State := { s with obj := { s.obj with recs := [(9, o)] } }

theorem wit_general (h : Obligations.AStepRunsTheFrontCommand) (h2 : Obligations.AHaltedNodeDoesNothing)
    (h3 : Obligations.OnlyListedCommandsWriteObjects) (h4 : Obligations.EveryCommandKeepsItsFrame) :
    step { w0 with pending := [.getVersion] } = exec .getVersion w0 ∧ (∃ t, step w0 = .next t) ∧
    exec .getVersion { w0 with aon := { w0.aon with flush := some {} } } = .next { w0 with aon := { w0.aon with flush := some {} } } ∧
    (∃ t, SameBytes w0 t) ∧ ∃ t, Frame [.stew] w0 t :=
  ⟨h.1 { w0 with pending := [.getVersion] } _ [] rfl, (h.2 w0 rfl).imp fun _ x => x.1, h2 _ _ (by decide) rfl,
   ⟨_, h3 .getVersion w0 _ rfl rfl⟩, ⟨_, h4 .getVersion w0 _ rfl⟩⟩

theorem wit_invariants (h : Obligations.StepsKeepMemoriesCanonical) (h2 : Obligations.StepsKeepQueuesBounded)
    (h3 : Obligations.ResetMeetsTheInvariants) : (∃ t, step w0 = .next t ∧ MemoriesCanonical t) ∧ ∃ t, step w0 = .next t ∧ QueuesBounded t :=
  ⟨⟨_, rfl, h _ _ h3.1 rfl⟩, ⟨_, rfl, h2 _ _ h3.2 rfl⟩⟩

/-- A state with two enabled VFs, a queue of VF 1, a message and a masked vector there. -/
def wvf : State := { w0 with hif := { w0.hif with vfs := 2, qps := [(5, { q0 with tenant := 1 })] } }

theorem wit_isolation (h : Obligations.FunctionsReachOnlyTheirOwn) :
    (∃ t, exec (.sqTailDoorbell 0 5 1) wvf = .next t ∧ tabGet t.hif.qps 5 = tabGet wvf.hif.qps 5) ∧
    (∃ t, exec (.mbxDoorbellRing 2 2 1) wvf = .next t ∧ mbxOf t 1 = mbxOf wvf 1) ∧
    ∃ t, exec (.msixEntryMask 2 3) wvf = .next t ∧ vecMasked t 2051 = vecMasked wvf 2051 :=
  ⟨⟨_, rfl, (h wvf _ 0).1 5 1 5 _ rfl (by decide) (.inl rfl)⟩, ⟨_, rfl, (h wvf _ 2).2.1 2 0 1 [] 1 (by decide) (.inr (.inl rfl))⟩,
   ⟨_, rfl, ((h wvf _ 2).2.2 3 2051 (by decide) (by decide) (.inl rfl)).1⟩⟩

theorem wit_stated (h : Obligations.TheGenerationRegisterNamesBothGenerations) (h2 : Obligations.IntegerCodesHaveTheirValues)
    (h3 : Obligations.CodesAreAssignedCanonically) (h4 : Obligations.BucketsRefillPassAndPay) :
    Runs (.registerLowHalfRead 1 0x28) wvf ∧ Runs (.registerWriteOther 1 0x28 8 7) wvf ∧
    (elemVal 9 0 255 = numOf ((255 : Nat) - 256) ∧ elemVal 10 255 0 = numOf ((0 : Nat) - (255 : Nat)) ∧
      elemVal 11 0 7 = numOf (7 : Nat) ∧ elemVal 12 15 15 = numOf ((15 : Nat) - (15 : Nat))) ∧
    (∃ c, (1, 1, c) ∈ packCodes [2, 1, 2]) ∧ Runs .bucketRefill w0 :=
  ⟨runs ((h wvf 1 (by decide)).2.1 rfl), runs ((h wvf 1 (by decide)).2.2 7 rfl),
   ⟨by simpa using h2.1 0 255 (by decide), h2.2.1 255 0 (by decide) (by decide), by simpa using h2.2.2.1 0 7 (by decide),
    h2.2.2.2.1 15 15 (by decide) (by decide)⟩,
   ((h3 [2, 1, 2] (by decide)).1 1 1).2 (by decide), runs (h4.1 w0 rfl)⟩

/-- A serving node with a fetched BINDER_OP at the head of its queue. -/
def wadm (wait : Bool) : State :=
  let s := wq { q0 with fetched := [{ entry := toLe 1 0x40 ++ zeros 7 ++ toLe 8 1 ++ zeros 48 }], wait := wait }
  { s with stew := { s.stew with st := .service } }

/-- A queue pair with a completion not yet signalled, its vector unmasked. -/
def wunmasked : State :=
  let s := wq { q0 with firstUnsig := some 0 }
  { s with hif := { s.hif with vecOpen := [0] } }

theorem wit_queues (h : Obligations.QueuesFetchAdmitAndComplete) :
    Runs (.sqEntryFetch 5 []) (wq { q0 with sqTail := 1 }) ∧ Runs (.commandAdmission 5) (wadm false) ∧
    Runs (.admissionWaitEnd 5) (wadm true) ∧ Runs (.completionDrain 5) (wq { q0 with staged := [{}] }) ∧
    Runs (.queueDrainTimeout 5) (at_ (10 ^ 12) (wq { q0 with staged := [{ since := some 0 }] })) ∧
    Runs (.coalesceTimeout 5) (wq { q0 with firstUnsig := some 0 }) ∧
    (∃ t, exec (.coalesceTimeout 5) wunmasked = .next t ∧ t.hif.msi = [(0, 0)]) ∧
    ∃ t, exec (.coalesceTimeout 5) (wq { q0 with firstUnsig := some 0 }) = .next t ∧ t.hif.vecPend.contains 0 = true :=
  ⟨runs (h.1.1 (wq { q0 with sqTail := 1 }) 5 [] _ rfl rfl rfl rfl (by decide)),
   runs ((h.1.2 (wadm false) 5 _ _ [] _ _ _ rfl (by decide) rfl rfl rfl).1 (by decide)),
   runs ((h.1.2 (wadm true) 5 _ _ [] _ _ _ rfl (by decide) rfl rfl rfl).2 rfl rfl rfl (by decide)),
   runs (h.2.1 (wq { q0 with staged := [{}] }) 5 _ _ _ rfl rfl rfl (by decide)),
   runs (h.2.2.1 (at_ (10 ^ 12) (wq { q0 with staged := [{ since := some 0 }] })) 5 _ _ _ 0 rfl rfl rfl rfl (by decide) rfl (by decide)),
   runs (h.2.2.2 (wq { q0 with firstUnsig := some 0 }) 5 _ 0 rfl rfl rfl (by decide) (by decide)),
   (h.2.2.2 wunmasked 5 _ 0 rfl rfl rfl (by decide) (by decide)).imp fun _ c => ⟨c.1, c.2.2.2.1 (by decide) (by decide)⟩,
   (h.2.2.2 (wq { q0 with firstUnsig := some 0 }) 5 _ 0 rfl rfl rfl (by decide) (by decide)).imp
     fun _ c => ⟨c.1, (c.2.2.2.2.1 (by decide) (by decide)).2⟩⟩

/-- The Steward's island in reset. -/
def wisland1 : State := { w0 with aon := { w0.aon with inReset := [1] } }

theorem wit_doorbells (h : Obligations.DoorbellsVectorsAndRegistersAnswer) :
    Runs (.sqTailDoorbell 0 5 1) (wq q0) ∧ Runs (.cqHeadDoorbell 0 5 1) (wq q0) ∧ Runs (.msixEntryMask 1 0) wvf ∧
    Runs (.msixEntryUnmask 1 0) wvf ∧ Runs (.faultCauseClear 1) w0 ∧ Runs (.queueErrorClear 63 1) w0 ∧
    Runs (.queueStatusClear 0 5 4) (wq q0) ∧ Runs (.registerLowHalfRead 0 0) w0 ∧
    Runs (.registerLowHalfRead 0 0x100000) wisland1 ∧ Runs (.registerWriteOther 0 0x100000 8 0) wisland1 ∧ Runs (.registerWriteOther 0 1 4 0) w0 ∧
    Runs (.registerWriteOther 0 0 4 0) w0 ∧ Runs (.registerWriteOther 0 0x2000000 8 1) w0 :=
  ⟨runs (h.1 (wq q0) 0 5 1 5 q0 rfl (by decide) rfl rfl rfl).1, runs (h.1 (wq q0) 0 5 1 5 q0 rfl (by decide) rfl rfl rfl).2,
   runs (h.2.1 wvf 1 0 rfl (by decide) (by decide)).1, runs (h.2.1 wvf 1 0 rfl (by decide) (by decide)).2,
   runs (h.2.2.1 w0 1 rfl rfl), runs (h.2.2.2.1 w0 63 1 rfl rfl (by decide)),
   runs (h.2.2.2.2.1 (wq q0) 0 5 4 5 q0 rfl rfl rfl rfl),
   runs (h.2.2.2.2.2.1 w0 0 0 _ rfl rfl rfl rfl rfl),
   runs (h.2.2.2.2.2.2.1 wisland1 0 0x100000 rfl rfl rfl rfl).1, runs ((h.2.2.2.2.2.2.1 wisland1 0 0x100000 rfl rfl rfl rfl).2 8 0),
   runs (h.2.2.2.2.2.2.2.1 w0 0 1 4 0 rfl rfl rfl (by decide)),
   runs ((h.2.2.2.2.2.2.2.2 w0 0 0 4 0 _ rfl rfl rfl (by decide) rfl rfl).1 rfl),
   runs ((h.2.2.2.2.2.2.2.2 w0 0 0x2000000 8 1 _ rfl rfl rfl (by decide) rfl rfl).2 _ rfl)⟩

/-- A command that reads host memory; a mailbox whose command is being carried out; a mapped window unit. -/
def wrd : State := wc { qp := 5, opcode := 0x41, holds := true }
def wpass (m : Bytes) : State := wm { req := some { msg := m, passed := true } }
def wwin : State := { w0 with hif := { w0.hif with window := [(0, (0, 0))] } }

theorem wit_functions (h : Obligations.FunctionsLinkAndHostErrorsActOnQueues) :
    Runs (.functionLevelReset 0) w0 ∧ Runs .perstNAssert w0 ∧ Runs .hotReset w0 ∧ Runs .linkDown w0 ∧
    Runs (.linkTraining 64 16 true) w0 ∧ Runs (.linkTraining 5 1 false) w0 ∧ Runs (.functionDStateChange 0 true) w0 ∧
    Runs (.functionDStateChange 0 false) w0 ∧ Runs (.sriovVfEnable 7) w0 ∧ Runs (.bar2Resize 1) w0 ∧ Runs (.bar2Resize 256) w0 ∧
    Runs (.hostAccessError (.sqEntry 5)) (wq { q0 with sqTail := 1 }) ∧ Runs (.hostDataPoisoned (.sqEntry 5)) (wq { q0 with sqTail := 1 }) ∧
    Runs (.hostAccessError (.cmd 0)) wrd ∧
    Runs (.hostDataPoisoned (.cmd 0)) wrd ∧ Runs (.hostAccessError (.zalpol 0)) (wpass []) ∧
    Runs (.hostDataPoisoned (.zalpol 0)) (wpass []) ∧ Runs (.windowRead false 0 64) wwin ∧ Runs (.windowRead true 0 64) w0 ∧
    Runs (.windowWrite false 0) w0 ∧ Runs .queueEngineInternalTimeout w0 :=
  ⟨runs (h.1.1 w0 0 rfl rfl), runs (h.1.2.1 w0 rfl).1, runs (h.1.2.1 w0 rfl).2.1, runs (h.1.2.1 w0 rfl).2.2,
   by refine runs (h.1.2.2.1 w0 64 16 64 16 true rfl rfl ?_ ?_ ?_ ?_ ?_ ?_) <;> decide,
   by refine runs (h.1.2.2.1 w0 5 1 5 1 false rfl rfl ?_ ?_ ?_ ?_ ?_ ?_) <;> decide,
   runs (h.1.2.2.2.1 w0 0 rfl rfl).1, runs (h.1.2.2.2.1 w0 0 rfl rfl).2, runs (h.1.2.2.2.2.1 w0 7 rfl),
   runs (h.1.2.2.2.2.2 w0 0 rfl (by decide)), runs (h.1.2.2.2.2.2 w0 8 rfl (by decide)),
   runs (h.2.1 (wq { q0 with sqTail := 1 }) 5 _ rfl rfl rfl rfl (by decide)).1,
   runs (h.2.1 (wq { q0 with sqTail := 1 }) 5 _ rfl rfl rfl rfl (by decide)).2,
   runs (h.2.2.1 wrd 0 _ rfl rfl rfl).1, runs (h.2.2.1 wrd 0 _ rfl rfl rfl).2,
   runs (h.2.2.2.1 (wpass []) 0 _ rfl rfl rfl rfl).1, runs (h.2.2.2.1 (wpass []) 0 _ rfl rfl rfl rfl).2,
   runs (h.2.2.2.2.1 wwin 0 64 0 0 false rfl (by decide) (.inr rfl) rfl), runs (h.2.2.2.2.2.1 w0 0 64 true rfl (by decide) (.inl rfl) rfl),
   runs (h.2.2.2.2.2.2.1 w0 0 false rfl), runs (h.2.2.2.2.2.2.2 w0 rfl rfl)⟩

/-- A Zalpol request of tenant 0, and states with one in the window or in progress, the Steward in a node state. -/
def msg (code : Nat) (body : Bytes) : Bytes := mailMsg code 0 0 0 0 0 0 body
def wreq (code : Nat) (body : Bytes) : State := wm { inFull := true, inArea := msg code body }
def served (st : NodeState) (s : State) : State := { s with stew := { s.stew with st := st } }

theorem wit_mailboxes (h : Obligations.MailboxesCarryMessagesToAndFro) :
    Runs (.mbxWindowWrite 0 0 0x40 [1]) w0 ∧ Runs (.mbxWindowWrite 0 0 0xFFF [1]) w0 ∧ Runs (.mbxDoorbellRing 0 0 1) w0 ∧
    Runs (.mbxStatusClear 0 0 8) w0 ∧ Runs (.mbxReleaseRead 0 0) (wm { outFull := true }) ∧
    Runs .mbxRequestTake (wreq 0 []) ∧ Runs .mbxRequestTake (served .service (wreq 0x0115 (zeros 16))) ∧
    Runs (.mbxDomainDownTimeout 0) (at_ (10 ^ 9) { wpass (msg 0x0201 []) with aon := { w0.aon with inReset := [61] } }) ∧
    Runs (.mbxResponsePost 0) (wm { req := some { resp := some [] } }) ∧ Runs (.mbxEventDeliver 0) (wm { events := [[]] }) :=
  ⟨runs ((h.1 w0 0 rfl rfl rfl).1 0x40 [1] (by decide) (by decide) rfl), runs ((h.1 w0 0 rfl rfl rfl).1 0xFFF [1] (by decide) (by decide) rfl),
   runs ((h.1 w0 0 rfl rfl rfl).2.1 1 rfl rfl), runs ((h.1 w0 0 rfl rfl rfl).2.2.1 8), runs ((h.1 (wm { outFull := true }) 0 rfl rfl rfl).2.2.2 rfl),
   runs ((h.2.1 (wreq 0 []) 0 rfl rfl rfl rfl rfl (by decide)).1 _ _ rfl),
   runs ((h.2.1 (served .service (wreq 0x0115 (zeros 16))) 0 rfl rfl rfl rfl rfl (by decide)).2 (by decide) (by decide)),
   runs (h.2.2.2.2 _ 0 _ rfl rfl rfl rfl rfl (by decide) (by decide) (by decide)),
   runs (h.2.2.1 (wm { req := some { resp := some [] } }) 0 _ _ rfl rfl rfl rfl rfl),
   runs (h.2.2.2.1 (wm { events := [[]] }) 0 _ _ rfl rfl rfl rfl rfl)⟩
/-- A state with collection 0, of one column of everything, and a command. -/
def wcoll (op : Nat) (e : Bytes) : State :=
  let s := wc (cmd op e)
  { s with idx := { s.idx with vers := [{ tag := 0, data := some (zeros 64) }] } }

/-- A collection of 65,537 centroids; one of one centroid, whose list lies nowhere. -/
def wmany : State :=
  let s := wc (cmd 0x20 (zeros 64))
  { s with idx := { s.idx with vers := [{ data := some (putAt (zeros 64) 0x10 [1, 0, 1, 0]) }] } }
def wlost : State :=
  let s := wc (cmd 0x20 (ent [(8, [1])]))
  { s with idx := { s.idx with vers := [{ data := some (ent [(0x10, [1]), (0x28, toLe 8 h9)]) },
    { table := h9, data := some (putAt (zeros 16) 8 [2]) }] } }

theorem rowLen_count (s : State) (d st : Bytes) (e : Nat) (q : Bytes) {cls : Nat} (hc : cls ≠ 2) (hs : sgSplit st = false) :
    centroidRowLen s d st cls e q = coCount d := by simp [centroidRowLen, rowIn, hc, centroidHits, laneRows, hs]

theorem wit_search (h : Obligations.SearchesRunAndUpdatesFormHusks) :
    Runs (.search 0 []) (wcoll 0x20 (zeros 64)) ∧ Runs (.search 0 []) (wc (cmd 0x20 (zeros 64))) ∧ Runs (.search 0 []) wmany ∧
    Runs (.search 0 []) wlost ∧ (startSearch w0 (zeros 64) [] {}).ask = remoteOwners (startSearch w0 (zeros 64) [] {}).probe ∧
    (finalResult w0 { opcode := 0x20, fan := some {} }).status = 0 :=
  ⟨runs (h.1.1 (wcoll 0x20 (zeros 64)) 0 [] _ _ rfl rfl rfl (by decide) (by decide) (by decide)),
   runs (h.1.2.1 (wc (cmd 0x20 (zeros 64))) 0 [] _ rfl rfl rfl),
   runs (h.1.2.2.1 wmany 0 [] _ _ rfl rfl rfl (by rw [rowLen_count _ _ _ _ _ (by decide) rfl]; decide)),
   runs (h.1.2.2.2.1 wlost 0 [] _ _ 0x0501 rfl rfl rfl (by decide) (by decide) (by decide +kernel)),
   (h.1.2.2.2.2.1 w0 (zeros 64) [] {} (by simp)).2.1, by rw [h.1.2.2.2.2.2 w0 _ {} rfl rfl rfl rfl rfl rfl]⟩

theorem wit_updates (h : Obligations.SearchesRunAndUpdatesFormHusks) :
    Runs (.upsert 0 []) (wcoll 0x21 (ent [(1, [1]), (6, [1]), (0x18, [0, 1])])) ∧
    Runs (.insert 0 []) (wcoll 0x21 (ent [(6, [1]), (0x18, [0, 1])])) ∧ Runs (.delete 0 []) (wcoll 0x22 (ent [(6, [1])])) :=
  ⟨runs ((h.2.1 (wcoll 0x21 (ent [(1, [1]), (6, [1]), (0x18, [0, 1])])) 0 [] _ _ rfl rfl rfl (by decide) (by decide) (by decide) rfl).2 rfl),
   runs ((h.2.1 (wcoll 0x21 (ent [(6, [1]), (0x18, [0, 1])])) 0 [] _ _ rfl rfl rfl (by decide) (by decide) (by decide) rfl).1 rfl),
   runs (h.2.2 (wcoll 0x22 (ent [(6, [1])])) 0 [] _ _ rfl rfl rfl (by decide) rfl)⟩

/-- A cache descriptor of one shard in position 0, its bytes in no object; an ATTENTION command over it. -/
def wcache : State := wobj { o9 with mem := memWrite [] 6 [1] } (wc (cmd 0x34 (ent [(4, [1]), (8, toLe 8 h9), (0x24, [1])])))

theorem wit_rows (h : Obligations.RowCommandsRunOnTheirRows) :
    Runs (.expertCall 0 [] []) (wc (cmd 0x30 (ent [(4, [1])]))) ∧ Runs (.gate 0 []) (wc (cmd 0x31 (ent [(4, [1])]))) ∧
    Runs (.memoryLayer 0 []) (wc (cmd 0x33 (ent [(4, [1])]))) ∧ Runs (.attention 0 []) (wc (cmd 0x34 (ent [(4, [1])]))) ∧
    Runs (.attention 0 []) wcache ∧ (finalResult w0 { opcode := 0x33 }).status = 0 :=
  ⟨runs (h.1 (wc (cmd 0x30 (ent [(4, [1])]))) 0 [] [] _ rfl rfl), runs (h.2.1 (wc (cmd 0x31 (ent [(4, [1])]))) 0 [] _ rfl rfl),
   runs (h.2.2.1 (wc (cmd 0x33 (ent [(4, [1])]))) 0 [] _ rfl rfl),
   runs ((h.2.2.2.1 (wc (cmd 0x34 (ent [(4, [1])]))) 0 [] _ rfl rfl).1 (by decide)),
   runs ((h.2.2.2.1 wcache 0 [] _ rfl rfl).2 (zeros 48) (by decide +kernel) (by decide) (by decide)),
   ((h.2.2.2.2 w0 { opcode := 0x33 } rfl rfl rfl).2.1 rfl).1⟩

/-- An ELEMENTWISE command over an object of 1,024 FP32 elements: a, b and dst. -/
def ewEnt (op : Nat) : Bytes := ent [(0, [0x35, op]), (8, toLe 8 h9), (0x10, toLe 8 h9), (0x18, toLe 8 h9), (0x20, toLe 4 1024)]
def wew (op : Nat) : State := wobj o9 (wc (cmd 0x35 (ewEnt op)))

theorem wit_gathers (h : Obligations.GathersAndElementwiseRun) :
    Runs (.gather 0 []) (wc (cmd 0x32 (ent [(4, [1]), (0x20, [64])]))) ∧ Runs (.elementwiseAdd 0) (wew 2) ∧
    Runs (.elementwiseMul 0) (wew 3) ∧ Runs (.elementwiseAct 0) (wew 4) ∧ Runs (.elementwiseConvert 0) (wew 5) :=
  ⟨runs (h.1 (wc (cmd 0x32 (ent [(4, [1]), (0x20, [64])]))) 0 [] _ rfl rfl (by decide) (by decide) (by decide) (by decide)),
   runs ((h.2 (wew 2) 0 _ rfl rfl (by decide) rfl).1 rfl), runs ((h.2 (wew 3) 0 _ rfl rfl (by decide) rfl).2.1 rfl),
   runs ((h.2 (wew 4) 0 _ rfl rfl (by decide) rfl).2.2.1 rfl), runs ((h.2 (wew 5) 0 _ rfl rfl (by decide) rfl).2.2.2 rfl)⟩

/-- A binder command on binder 0 of value 3; a descriptor of one TABLE_WRITE action. -/
def wbind (op v : Nat) : State :=
  let s := wc (cmd 0x40 (ent [(1, [op]), (8, toLe 8 v)]))
  { s with eng := { s.eng with binders := [(0, { owner := 0, value := 3 })] } }
def desc1 (n : Nat) : Bytes := ent [(0, [1]), (0x10, toLe 4 n)] ++ putAt (zeros 32) 0 ([4, 0, 0, 0] ++ toLe 4 n)
/-- Tenant 0 with a share and a limit of 4,096 bytes in T1. -/
def pooled (s : State) : State :=
  { s with stew := { s.stew with cur := { s.stew.cur with pools := [0, 0, 1, 0, 0, 0, 0, 0] ++ toLe 8 4096 ++ toLe 8 4096 } } }
def whusk : State := pooled <| wc (cmd 0x41 (ent [(0x10, [96]), (0x14, [64])]))

theorem wit_binders (h : Obligations.BinderOperationsAndSubmittedHusks) :
    Runs (.binderAdd 0) (wbind 0 1) ∧ Runs (.binderAdd 0) (wbind 0 (2 ^ 64 - 1)) ∧ Runs (.binderSet 0) (wbind 1 9) ∧
    Runs (.binderWaitGe 0) (wbind 2 3) ∧ Runs (.binderWaitGe 0) (wbind 2 4) ∧ Runs (.binderOpRead 0) (wbind 3 0) ∧
    Runs (.waitGeTimeout 5) { wq { q0 with waitGe := some { cid := 0, binder := 0, target := 9, deadline := 0 } } with eng := (wbind 0 0).eng } :=
  ⟨runs ((h.1.1 (wbind 0 1) 0 _ _ rfl rfl rfl rfl).1 rfl), runs ((h.1.1 (wbind 0 (2 ^ 64 - 1)) 0 _ _ rfl rfl rfl rfl).1 rfl),
   runs ((h.1.1 (wbind 1 9) 0 _ _ rfl rfl rfl rfl).2.1 rfl), runs ((h.1.1 (wbind 2 3) 0 _ _ rfl rfl rfl rfl).2.2.1 rfl (by decide)),
   runs ((h.1.1 (wbind 2 4) 0 _ _ rfl rfl rfl rfl).2.2.2.1 rfl (by decide) rfl q0 rfl rfl),
   runs ((h.1.1 (wbind 3 0) 0 _ _ rfl rfl rfl rfl).2.2.2.2 rfl), runs (h.1.2.2 _ 5 _ _ _ rfl rfl rfl (by decide) rfl)⟩

/-- Binder commands on a binder that is not there, and on one of tenant 7. -/
def wnone (op : Nat) : State := wc (cmd 0x40 (ent [(1, [BitVec.ofNat 8 op])]))
def wothers (op : Nat) : State := { wnone op with eng := { w0.eng with binders := [(0, { owner := 7 })] } }

theorem wit_foreignBinders (h : Obligations.BinderOperationsAndSubmittedHusks) :
    Runs (.binderAdd 0) (wnone 0) ∧ Runs (.binderSet 0) (wothers 1) ∧ Runs (.binderWaitGe 0) (wnone 2) ∧ Runs (.binderOpRead 0) (wothers 3) :=
  ⟨runs ((h.1.2.1 (wnone 0) 0 _ _ rfl rfl (.inl ⟨rfl, rfl⟩)).1 rfl),
   runs ((h.1.2.1 (wothers 1) 0 _ _ rfl rfl (.inr ⟨_, rfl, by decide, rfl⟩)).2.1 rfl),
   runs ((h.1.2.1 (wnone 2) 0 _ _ rfl rfl (.inl ⟨rfl, rfl⟩)).2.2.1 rfl),
   runs ((h.1.2.1 (wothers 3) 0 _ _ rfl rfl (.inr ⟨_, rfl, by decide, rfl⟩)).2.2.2 rfl)⟩

set_option maxRecDepth 4000 in
theorem wit_husk (h : Obligations.BinderOperationsAndSubmittedHusks) : Runs (.husk 0 (desc1 64) (zeros 64)) whusk :=
  runs (h.2 whusk 0 (desc1 64) (zeros 64) _ _ _ _ rfl rfl (by decide) rfl (by decide) rfl)

def wo (op : Nat) (e : List (Nat × Bytes)) (o : ObjRec) : State := wobj o (wc (cmd op (ent ((8, toLe 8 h9) :: e))))
/-- An ALLOC of 64 bytes of scratch in T1: striped, and in pseudo-channel 0. -/
def walloc (place : Bytes) : State := wc (cmd 0x50 (ent [(4, [5, 1]), (6, place), (0x10, [64])]))

theorem wit_objects (h : Obligations.ObjectCommandsAllocPinReadFree) :
    Runs (.alloc 0 []) (walloc [0, 0]) ∧ Runs (.alloc 0 []) (walloc [0, 0x80]) ∧ Runs (.pin 0) (wo 0x53 [] o9) ∧
    Runs (.unpin 0) (wo 0x54 [] { o9 with hostPins := 1 }) ∧ Runs (.read 0) (wo 0x55 [(0x1C, [64])] o9) ∧ Runs (.free 0) (wo 0x51 [] o9) :=
  ⟨runs ((h.1 (walloc [0, 0]) 0 [] _ _ _ _ rfl rfl rfl (by decide) (by decide) rfl rfl (by decide)).2 (by decide)),
   runs ((h.1 (walloc [0, 0x80]) 0 [] _ _ _ _ rfl rfl rfl (by decide) (by decide) rfl rfl (by decide)).2 (by decide)),
   runs (h.2.1 (wo 0x53 [] o9) 0 _ _ rfl rfl (by decide) rfl (by decide) (fun _ x => absurd rfl x)),
   runs (h.2.2.1 (wo 0x54 [] { o9 with hostPins := 1 }) 0 _ _ rfl rfl (by decide) rfl (by decide)),
   runs ((h.2.2.2.1 (wo 0x55 [(0x1C, [64])] o9) 0 _ _ rfl rfl (by decide) rfl (by decide)).1 (by decide)),
   runs (h.2.2.2.2.1 (wo 0x51 [] o9) 0 _ _ rfl rfl (by decide) rfl rfl)⟩

/-- An object command on a handle of no object. -/
def wnoObj (op : Nat) : State := wc (cmd op (zeros 64))

theorem wit_staleHandles (h : Obligations.ObjectCommandsAllocPinReadFree) :
    Runs (.free 0) (wnoObj 0x51) ∧ Runs (.pin 0) (wnoObj 0x53) ∧ Runs (.unpin 0) (wnoObj 0x54) ∧ Runs (.read 0) (wnoObj 0x55) :=
  ⟨runs ((h.2.2.2.2.2 (wnoObj 0x51) 0 _ 0x0501 rfl (by decide)).1 rfl), runs ((h.2.2.2.2.2 (wnoObj 0x53) 0 _ 0x0501 rfl (by decide)).2.1 rfl),
   runs ((h.2.2.2.2.2 (wnoObj 0x54) 0 _ 0x0501 rfl (by decide)).2.2.1 rfl), runs ((h.2.2.2.2.2 (wnoObj 0x55) 0 _ 0x0501 rfl (by decide)).2.2.2 rfl)⟩

theorem wit_finish (h : Obligations.FinishingWritesOneCompletion) :
    cmdOf (finishCmd 0 {} (wc (cmd 0x40 (zeros 64)))) 0 = none ∧ resultWrites 0 {} = [] ∧
    resultWrites 0 { bytes := [1] } = [⟨0, 0, [1], false⟩] ∧
    resultWrites 0 { bytes := [1, 2, 3], lost := [(1, 1)] } = [⟨0, 0, [1], false⟩, ⟨0, 1, [2], true⟩, ⟨0, 2, [3], false⟩] :=
  ⟨(h.1 (wc (cmd 0x40 (zeros 64))) 0 _ q0 {} rfl rfl rfl rfl rfl rfl rfl (by decide) (by decide)).2.1, h.2.1 0 {} rfl,
   h.2.2.1 0 { bytes := [1] } (by decide) rfl, h.2.2.2 0 { bytes := [1, 2, 3], lost := [(1, 1)] } 1 1 rfl (by decide) (by decide)⟩

/-- A command of tenant 0 being carried out in mailbox 0, beside the rest of a state. -/
def wz (code : Nat) (body : Bytes) (s : State) : State :=
  { s with stew := { s.stew with mbx := [(0, { req := some { msg := msg code body, passed := true } })] } }
/-- A body with fields written. -/
def bod (l : List (Nat × Bytes)) : Bytes := l.foldl (fun b p => putAt b p.1 p.2) []
def qBody : Bytes := bod [(0, toLe 2 5), (0x18, toLe 4 16), (0x1C, toLe 4 16)]
/-- A queue pair with a waiting command. -/
def wbusy : State := { wq q0 with hif := { (wq q0).hif with cmds := [(0, { qp := 5 })] } }
def goal (p : Nat) (s : State) : State := { s with stew := { s.stew with pstate := p } }

/-- A queue pair that still stages a completion; the reset state with the boot ROM in charge. -/
def wstaged : State := wq { q0 with staged := [{}] }
def wrom : State := { w0 with stew := { w0.stew with rom := true } }
def wnorom : State := { w0 with stew := { w0.stew with rom := false } }

theorem wit_queueCommands (h : Obligations.QueuesTimeAndPowerAreCommanded) :
    Runs (.queueCreate 0) (wz 0x0110 qBody (wq {})) ∧ Runs (.queueDelete 0) (wz 0x0111 qBody (wq {})) ∧
    Runs (.queueDelete 0) (wz 0x0111 qBody (wq q0)) ∧ Runs (.queueDelete 0) (wz 0x0111 qBody wbusy) ∧
    Runs (.queueDelete 0) (wz 0x0111 qBody wstaged) ∧
    Runs (.queueReset 0) (wz 0x0112 qBody (wq { q0 with qstate := .error })) ∧ Runs (.queueReset 0) (wz 0x0112 qBody (wq {})) :=
  ⟨runs (h.1.1 (wz 0x0110 qBody (wq {})) 0 _ _ ⟨rfl, rfl⟩ rfl rfl rfl (by decide) (by decide)),
   runs ((h.1.2.1 (wz 0x0111 qBody (wq {})) 0 _ _ ⟨rfl, rfl⟩ (by decide) rfl rfl).1 rfl),
   runs ((h.1.2.1 (wz 0x0111 qBody (wq q0)) 0 _ _ ⟨rfl, rfl⟩ (by decide) rfl rfl).2.1 (by decide) rfl rfl (by simp [wz, wq, w0])),
   runs ((h.1.2.1 (wz 0x0111 qBody wbusy) 0 _ _ ⟨rfl, rfl⟩ (by decide) rfl rfl).2.2 (by decide) (.inl ⟨_, List.mem_singleton.mpr rfl, rfl⟩)),
   runs ((h.1.2.1 (wz 0x0111 qBody wstaged) 0 _ _ ⟨rfl, rfl⟩ (by decide) rfl rfl).2.2 (by decide) (.inr (.inl (by decide)))),
   runs (h.1.2.2 (wz 0x0112 qBody (wq { q0 with qstate := .error })) 0 _ _ ⟨rfl, rfl⟩ (by decide) rfl rfl (by decide)),
   runs (h.1.2.2 (wz 0x0112 qBody (wq {})) 0 _ _ ⟨rfl, rfl⟩ (by decide) rfl rfl (by decide))⟩

theorem wit_timeAndPower (h : Obligations.QueuesTimeAndPowerAreCommanded) :
    Runs (.timePost 0) (wz 0x0115 (zeros 16) wnorom) ∧ Runs (.timePost 0) (wz 0x0115 (zeros 16) wrom) ∧
    Runs (.powerSet 0) (wz 0x0801 [0] w0) ∧ Runs (.powerSet 0) (wz 0x0801 [1] w0) ∧
    Runs (.powerSet 0) (wz 0x0801 [3] wwin) ∧ Runs (.powerSet 0) (wz 0x0801 [2] w0) ∧ Runs (.powerSet 0) (wz 0x0801 [3] w0) ∧
    Runs (.powerSet 0) (wz 0x0801 [0] (goal 2 w0)) ∧ Runs (.powerSet 0) (wz 0x0801 [1] (goal 2 w0)) := by
  exact ⟨runs (h.2.1 (wz 0x0115 (zeros 16) wnorom) 0 _ ⟨rfl, rfl⟩ rfl), runs (h.2.2.1 (wz 0x0115 (zeros 16) wrom) 0 _ ⟨rfl, rfl⟩ rfl),
   runs ((h.2.2.2 (wz 0x0801 [0] w0) 0 _ ⟨rfl, rfl⟩ rfl rfl rfl rfl (by decide)).1 (by decide) (by decide)),
   runs ((h.2.2.2 (wz 0x0801 [1] w0) 0 _ ⟨rfl, rfl⟩ rfl rfl rfl rfl (by decide)).2.1 (by decide) rfl),
   runs ((h.2.2.2 (wz 0x0801 [3] wwin) 0 _ ⟨rfl, rfl⟩ rfl rfl rfl rfl (by decide)).2.2.1 (by decide) (by decide)),
   runs ((h.2.2.2 (wz 0x0801 [2] w0) 0 _ ⟨rfl, rfl⟩ rfl rfl rfl rfl (by decide)).2.2.2.1 (by decide) rfl rfl),
   runs ((h.2.2.2 (wz 0x0801 [3] w0) 0 _ ⟨rfl, rfl⟩ rfl rfl rfl rfl (by decide)).2.2.2.1 (by decide) rfl rfl),
   runs ((h.2.2.2 (wz 0x0801 [0] (goal 2 w0)) 0 _ ⟨rfl, rfl⟩ rfl rfl rfl rfl (by decide)).2.2.2.2.1 (by decide) (by decide)),
   runs ((h.2.2.2 (wz 0x0801 [1] (goal 2 w0)) 0 _ ⟨rfl, rfl⟩ rfl rfl rfl rfl (by decide)).2.2.2.2.2 (by decide) (by decide) (by decide) (by decide))⟩

/-- The vector slots: entry 5 of function 1 is bound to slot 9; slots 3 and 4 are free. -/
def wvec : State := { w0 with hif := { w0.hif with vecs := [(3, none), (4, none), (9, some (2048 + 5))] } }
def vBody (k e op : Nat) : Bytes := toLe 2 k ++ ([1, 0] : Bytes) ++ toLe 2 e ++ toLe 1 op
/-- A T1 object of two units, and requests on the window. -/
def o2u : ObjRec := { o9 with size := 2 ^ 22 }
def wwBody (op first n : Nat) : Bytes := bod [(0, toLe 4 first ++ toLe 4 n ++ toLe 8 (if op = 0 then h9 else 0)), (0x18, toLe 1 op)]

set_option maxRecDepth 20000 in
theorem wit_vectors (h : Obligations.VectorSlotsAndWindowUnitsAreBound) :
    Runs (.vectorBind 0) (wz 0x0113 (vBody 4 6 0) wvec) ∧ Runs (.vectorBind 0) (wz 0x0113 (vBody 0xFFFF 6 0) wvec) ∧
    Runs (.vectorUnbind 0) (wz 0x0113 (vBody 9 5 1) wvec) ∧ Runs (.windowMap 0) (wz 0x0114 (wwBody 0 510 2) (wobj o2u w0)) ∧
    Runs (.windowUnmap 0) (wz 0x0114 (wwBody 1 0 512) wwin) :=
  ⟨runs (h.1.1 (wz 0x0113 (vBody 4 6 0) wvec) 0 _ 4 ⟨rfl, rfl⟩ rfl (by decide) rfl (.inl ⟨rfl, by decide, rfl⟩)),
   runs (h.1.1 (wz 0x0113 (vBody 0xFFFF 6 0) wvec) 0 _ 3 ⟨rfl, rfl⟩ rfl (by decide) rfl (.inr ⟨rfl, by decide, rfl, by decide⟩)),
   runs (h.1.2 (wz 0x0113 (vBody 9 5 1) wvec) 0 _ 9 ⟨rfl, rfl⟩ rfl (by decide) rfl (.inr rfl) (by decide) (by decide)),
   runs (h.2.1 (wz 0x0114 (wwBody 0 510 2) (wobj o2u w0)) 0 _ _ ⟨rfl, rfl⟩ rfl (by decide) rfl rfl rfl (by decide) rfl rfl (by decide)),
   runs (h.2.2 (wz 0x0114 (wwBody 1 0 512) wwin) 0 _ ⟨rfl, rfl⟩ rfl (by decide) rfl)⟩

/-- What a computed answer holds, from the evaluation of a check on it. -/
theorem exOk {ε α : Type} {x : Except ε α} {p : α → Bool} (h : (match x with | .ok a => p a | .error _ => false) = true) :
    ∃ a, x = .ok a ∧ p a = true := by
  cases x with
  | ok a => exact ⟨a, rfl, h⟩
  | error e => cases h
theorem exSome {α : Type} {x : Option α} {p : α → Bool} (h : (match x with | some a => p a | none => false) = true) :
    ∃ a, x = some a ∧ p a = true := by
  cases x with
  | some a => exact ⟨a, rfl, h⟩
  | none => cases h

/-- A node whose T4 is one window on the open peer 5, of which tenant 0 may take 4,096 bytes. -/
def wwindow (s : State) : State :=
  { s with
    stew := { s.stew with cur := { factoryGen with
      t4 := putAt (zeros 32) 0 ([5, 0, 0, 0, 0, 0, 0, 0] ++ zeros 8 ++ toLe 8 4096)
      pools := ([0, 0, 4, 0, 0, 0, 0, 0] : Bytes) ++ toLe 8 4096 ++ toLe 8 4096 } }
    idx := { s.idx with vers := { table := forwardHandle, index := 5, data := some (putAt (zeros 32) 0 [1, 1]) } :: s.idx.vers }
    fab := { s.fab with ports := [true, false, false, false], peers := [(5, { open_ := true })] } }
/-- Wherever an object starts in that window, its requests can be sent. -/
theorem window_up {s : State} {i : Nat} (hw : genT4 (gen s) = [(5, 0, 4096)])
    (hs : (tabGet s.obj.recs i).any (fun o => sendStatus s 5 (hTenant o.handle) s.eng.epoch == 0) = true) :
    t4Status s i = 0 := by
  obtain ⟨o, hr, hs⟩ := Option.any_eq_true _ _ |>.mp hs
  have hp : ∀ off, t4Place s o.handle off = some (5, 0 + (Config.poolStart o.handle + off) % 4096) := fun off => by
    simp only [t4Place, hw, windowAt, List.map_cons, List.map_nil, List.sum_cons, List.sum_nil, Nat.add_zero]
    exact if_pos (Nat.mod_lt _ (by decide))
  simp only [t4Status, hr, hp, eq_of_beq hs]
  rw [List.findSome?_eq_none_iff.mpr (by simp)]; rfl
theorem someGet {α : Type} {x : Option α} (h : x.isSome = true) : x = some (x.get h) := by simp

/-- An ALLOC of 64 bytes of scratch in T4, and a READ of 64 bytes of object 9 there. -/
def wallocP : State := wwindow (wc (cmd 0x50 (ent [(4, [1, 4]), (0x10, [64])])))
def wreadP : State := wwindow (wo 0x55 [(0x1C, [64])] { o9 with home := 4, chanLocal := false })

theorem wit_pooled (h : Obligations.ObjectCommandsAllocPinReadFree) : Runs (.alloc 0 []) wallocP ∧ Runs (.read 0) wreadP := by
  refine ⟨runs ((h.1 wallocP 0 [] _ _ _ _ rfl rfl ?_ ?_ ?_ (someGet ?_) (someGet ?_) ?_).1 ?_ (window_up ?_ ?_)),
    runs ((h.2.2.2.1 wreadP 0 _ _ rfl rfl ?_ rfl ?_).2 ?_ (window_up ?_ ?_))⟩
  all_goals decide +kernel

/-- An image of 64 bytes: generation 1 over base 0, one section of no sheaves. -/
def im : Bytes := toLe 4 0x4E454747 ++ toLe 2 1 ++ toLe 2 1 ++ toLe 4 1 ++ zeros 4 ++ toLe 4 64 ++ toLe 4 3696239629 ++ zeros 8 ++
  toLe 2 6 ++ zeros 2 ++ toLe 4 64 ++ zeros 24
def wapply : State := wz 0x0201 (bod [(8, toLe 4 64), (0x0C, zeros 4), (0x10, toLe 4 1)]) w0
def wprev (n : Nat) : State := { w0 with stew := { w0.stew with cur := { factoryGen with number := n }, prev := some factoryGen } }

theorem wit_generations (h : Obligations.GenerationsAndStatisticsAnswer) :
    Runs (.genApply 0 im) wapply ∧ Runs (.rollback 0) (wz 0x0202 (toLe 4 1) (wprev 1)) ∧
    Runs (.genRead 0) (wz 0x0203 (bod [(0, toLe 4 0), (0x10, toLe 4 (2 ^ 20))]) w0) ∧
    Runs (.genRead 0) (wz 0x0203 (bod [(0, toLe 4 1), (0x10, toLe 4 (2 ^ 20))]) (wprev 1)) ∧
    Runs (.genRead 0) (wz 0x0203 (bod [(0, toLe 4 2), (0x10, toLe 4 0)]) w0) := by
  have hi : imageWhole im 64 = true := by decide +kernel
  have hf : imageFields im = none := by decide +kernel
  have hs : slice im 0 64 = im := by decide +kernel
  obtain ⟨s1, h1, h2⟩ := exOk (x := generationBad (genOf (gen wapply) im) (zData (msg 0x0201 (bod [(8, toLe 4 64), (0x0C, zeros 4), (0x10, toLe 4 1)])) im wapply))
    (p := fun s1 => huskRefusal s1 0 none == none) (by decide +kernel)
  obtain ⟨s2, h3, h4⟩ := exOk (x := generationBad factoryGen (wz 0x0202 (toLe 4 1) (wprev 1)))
    (p := fun s1 => huskRefusal s1 0 none == none) (by decide +kernel)
  exact ⟨runs (h.1.1 wapply 0 im _ s1 ⟨rfl, rfl⟩ rfl (by decide) (by decide)
      ⟨hi, by decide, by decide, by decide, by decide, hf, h1, by simpa using h2⟩),
    runs (h.1.2.1 (wz 0x0202 (toLe 4 1) (wprev 1)) 0 _ factoryGen s2 ⟨rfl, rfl⟩ rfl rfl rfl (by decide +kernel) h3 (by simpa using h4)),
    runs ((h.1.2.2 (wz 0x0203 (bod [(0, toLe 4 0), (0x10, toLe 4 (2 ^ 20))]) w0) 0 _ _ ⟨rfl, rfl⟩ (.inl ⟨by decide, rfl⟩)).1 (by decide +kernel)),
    runs ((h.1.2.2 (wz 0x0203 (bod [(0, toLe 4 1), (0x10, toLe 4 (2 ^ 20))]) (wprev 1)) 0 _ _ ⟨rfl, rfl⟩
      (.inr (.inl ⟨by decide, rfl⟩))).1 (by decide +kernel)),
    runs ((h.1.2.2 (wz 0x0203 (bod [(0, toLe 4 2), (0x10, toLe 4 0)]) w0) 0 _ _ ⟨rfl, rfl⟩ (.inr (.inr ⟨by decide, rfl⟩))).2 (by decide +kernel))⟩

/-- A sheaf 3 of tenant 0 with one stage of two tiles from tile 8 on, in the generation of a state. -/
def sheaf3 : Bytes := putAt (putAt (zeros 1088) 0 ([3, 0, 0, 0, 1] : Bytes)) 0x40 ([1, 0, 8, 0, 2, 1, 4, 0, 0xFF, 0xFF] : Bytes)
def wsheaf (s : State) : State := { s with stew := { s.stew with cur := { factoryGen with sheaves := sheaf3 } } }

theorem wit_statistics (h : Obligations.GenerationsAndStatisticsAnswer) :
    Runs (.sheafStats 0) (wz 0x0204 (bod [(0, [3, 0, 0xFF, 1]), (0x10, toLe 4 256)]) (wsheaf w0)) ∧
    Runs (.sheafStats 0) (wz 0x0204 (bod [(0, [3, 0, 0, 0]), (0x10, toLe 4 256)]) (wsheaf w0)) ∧
    Runs (.convertStats 0) (wz 0x0205 (bod [(0, toLe 8 h9), (9, [1]), (0x18, toLe 4 128)]) (wobj o9 w0)) ∧
    Runs (.convertStats 0) (wz 0x0205 (bod [(0, toLe 8 3), (8, [1, 0]), (0x18, toLe 4 128)]) (wsheaf w0)) :=
  by
  refine ⟨runs (h.2.1 (wz 0x0204 (bod [(0, [3, 0, 0xFF, 1]), (0x10, toLe 4 256)]) (wsheaf w0)) 0 _ sheaf3 ⟨rfl, rfl⟩ ?_ ?_ ?_ ?_ ?_ ?_),
    runs (h.2.1 (wz 0x0204 (bod [(0, [3, 0, 0, 0]), (0x10, toLe 4 256)]) (wsheaf w0)) 0 _ sheaf3 ⟨rfl, rfl⟩ ?_ ?_ ?_ ?_ ?_ ?_),
    runs (h.2.2 (wz 0x0205 (bod [(0, toLe 8 h9), (9, [1]), (0x18, toLe 4 128)]) (wobj o9 w0)) 0 _ [] ⟨rfl, rfl⟩ ?_ ?_ rfl rfl ?_),
    runs (h.2.2 (wz 0x0205 (bod [(0, toLe 8 3), (8, [1, 0]), (0x18, toLe 4 128)]) (wsheaf w0)) 0 _ [] ⟨rfl, rfl⟩ ?_ ?_ ?_ rfl ?_)⟩
  all_goals decide +kernel

/-- A collection's descriptor of tenant 0 over three objects, and a state with it as collection 7. -/
def cdesc : Bytes := ent [(0, [7, 0, 0, 0, 0, 6, 0, 3]), (8, [32, 0, 3, 0, 32, 0, 1, 0]), (0x14, [1, 0, 0xFF, 0xFF]), (0x18, [0, 0, 0, 0, 0, 1, 0, 0]),
  (0x20, toLe 8 h9), (0x28, toLe 8 h9), (0x30, toLe 8 h9), (0x38, toLe 4 100)]
def wcoll7 (s : State) : State :=
  { wobj o9 s with idx := { s.idx with
      vers := [{ index := 7, data := some (putAt cdesc 0x10 (toLe 4 3)) }, { table := h9, index := 1, data := some (putAt (zeros 16) 8 [1]) },
        { table := h9, index := 2, data := some (putAt (zeros 16) 8 [2]) }] } }

theorem wit_collections (h : Obligations.CollectionsAreCreatedChangedAndDeleted) :
    Runs (.collectionCreate 0) (wz 0x0301 cdesc (wobj o9 w0)) ∧ Runs (.collectionChange 0) (wz 0x0302 cdesc (wcoll7 w0)) ∧
    Runs (.collectionDelete 0) (wz 0x0303 [7, 0] (wcoll7 w0)) ∧ Runs (.collectionStats 0) (wz 0x0304 [7, 0] (wcoll7 w0)) := by
  refine ⟨runs (h.1 (wz 0x0301 cdesc (wobj o9 w0)) 0 _ ⟨rfl, rfl⟩ rfl rfl ?_ ?_ ?_ ?_ ?_ ?_),
    runs (h.2.1 (wz 0x0302 cdesc (wcoll7 w0)) 0 _ (putAt cdesc 0x10 (toLe 4 3)) ⟨rfl, rfl⟩ ?_ ?_ ?_ ?_ ?_ ?_),
    runs (h.2.2.1 (wz 0x0303 [7, 0] (wcoll7 w0)) 0 _ (putAt cdesc 0x10 (toLe 4 3)) ⟨rfl, rfl⟩ ?_ ?_ ?_ ?_),
    runs (h.2.2.2 (wz 0x0304 [7, 0] (wcoll7 w0)) 0 _ (putAt cdesc 0x10 (toLe 4 3)) ⟨rfl, rfl⟩ ?_ ?_)⟩ <;> decide +kernel

def rb (kind a b : Nat) : Bytes := bod [(0, toLe 8 7), (8, toLe 1 kind), (0x0C, toLe 4 a), (0x10, toLe 4 b)]
/-- An embedding table under handle h9, and a request to rehash it to n rows. -/
def wemb : State := wz 0x0305 (bod [(0, toLe 8 h9), (8, [4]), (0x18, toLe 8 8), (0x20, toLe 8 1), (0x28, [2])])
  { wobj o9 w0 with idx := { w0.idx with vers := [{ table := h9, index := 2 ^ 64 - 1, data := some (ent [(0, [1]), (0x20, [1])]) }] } }

theorem wit_rebuilds (h : Obligations.RebuildsAreQueuedAndNumbered) :
    Runs (.rebuildSweep 0) (wz 0x0305 (rb 0 1 0) (wcoll7 w0)) ∧ Runs (.rebuildSplit 0) (wz 0x0305 (rb 1 2 0) (wcoll7 w0)) ∧
    Runs (.rebuildMerge 0) (wz 0x0305 (rb 2 2 1) (wcoll7 w0)) ∧ Runs (.rebuildRetrain 0) (wz 0x0305 (rb 3 0 0) (wcoll7 w0)) ∧
    Runs (.rebuildRehash 0) wemb := by
  refine ⟨runs ((h.1 (wz 0x0305 (rb 0 1 0) (wcoll7 w0)) 0 _ (putAt cdesc 0x10 (toLe 4 3)) ⟨rfl, rfl⟩ ?_ ?_ ?_ rfl).1 ?_ ?_),
    runs ((h.1 (wz 0x0305 (rb 1 2 0) (wcoll7 w0)) 0 _ (putAt cdesc 0x10 (toLe 4 3)) ⟨rfl, rfl⟩ ?_ ?_ ?_ rfl).2.1 ?_ ?_),
    runs ((h.1 (wz 0x0305 (rb 2 2 1) (wcoll7 w0)) 0 _ (putAt cdesc 0x10 (toLe 4 3)) ⟨rfl, rfl⟩ ?_ ?_ ?_ rfl).2.2.1 ?_ ?_ ?_ ?_),
    runs ((h.1 (wz 0x0305 (rb 3 0 0) (wcoll7 w0)) 0 _ (putAt cdesc 0x10 (toLe 4 3)) ⟨rfl, rfl⟩ ?_ ?_ ?_ rfl).2.2.2 ?_),
    runs (h.2 wemb 0 _ o9 ⟨rfl, rfl⟩ ?_ ?_ ?_ ?_ ?_ ?_ ?_ ?_ rfl)⟩ <;> decide +kernel

/-- Binder 3 of tenant 0, at its largest value. -/
def wbin : State := { w0 with eng := { w0.eng with binders := [(0, {}), (3, { value := 2 ^ 64 - 1, saturated := true })] } }
/-- Tenant 1 assigned, with the whole of T3; an object at rest in T3. -/
def wten1 : State := {
  wobj { o9 with home := 3 } w0 with
  stew := { w0.stew with
    cur := { factoryGen with
      tenants := factoryGen.tenants ++ ([1, 0, 1, 0, 4, 0, 0, 0] : Bytes),
      pools := [1, 0, 3, 0, 0, 0, 0, 0] ++ toLe 8 4096 ++ toLe 8 4096 } } }

theorem wit_objectsMailbox (h : Obligations.ObjectsAndBindersThroughAMailbox) :
    Runs (.objectQuery 0) (wz 0x0320 (toLe 8 h9) (wobj o9 w0)) ∧ Runs (.objectTransfer 0) (wz 0x0321 (toLe 8 h9 ++ [1, 0]) wten1) ∧
    Runs (.binderAlloc 0) (wz 0x0330 [] wbin) ∧ Runs (.binderFree 0) (wz 0x0331 (toLe 4 3) wbin) ∧
    Runs (.binderRead 0) (wz 0x0332 (toLe 4 3) wbin) := by
  refine ⟨runs (h.1 (wz 0x0320 (toLe 8 h9) (wobj o9 w0)) 0 _ o9 ⟨rfl, rfl⟩ ?_ ?_),
    runs (h.2.1 (wz 0x0321 (toLe 8 h9 ++ [1, 0]) wten1) 0 _ { o9 with home := 3 } ⟨rfl, rfl⟩ ?_ ?_ ?_ ?_ ?_ ?_),
    runs (h.2.2.1 (wz 0x0330 [] wbin) 0 _ ⟨rfl, rfl⟩ ?_ ?_),
    runs ((h.2.2.2 (wz 0x0331 (toLe 4 3) wbin) 0 _ _ ?_ rfl rfl).1 ⟨rfl, rfl⟩),
    runs ((h.2.2.2 (wz 0x0332 (toLe 4 3) wbin) 0 _ _ ?_ rfl rfl).2 ⟨rfl, rfl⟩)⟩ <;> decide +kernel

def twBody (i n : Nat) : Bytes := bod [(0, toLe 8 h9), (8, toLe 8 i), (0x10, toLe 4 n), (0x14, toLe 4 16)]
def zhBody : Bytes := bod [(8, toLe 4 96), (0x0C, toLe 4 64)]
def causes (c : BitVec 64) (st : NodeState) (s : State) : State := { served st s with aon := { s.aon with faultPresent := c } }
def phase (p : Nat) (s : State) : State := { s with stew := { s.stew with phase := p } }

theorem wit_tableWrites (h : Obligations.MailboxHusksMetersAndRecovery) :
    Runs (.tableWrite 0 []) (wz 0x0310 (twBody 5 64) w0) ∧ Runs (.tableWrite 0 []) (wz 0x0310 (twBody (2 ^ 64 - 1) 1) w0) := by
  refine ⟨runs (h.1.1 (wz 0x0310 (twBody 5 64) w0) 0 [] _ ⟨rfl, rfl⟩ ?_ ?_ ?_ ?_ ?_ ?_ ?_),
    runs (h.1.1 (wz 0x0310 (twBody (2 ^ 64 - 1) 1) w0) 0 [] _ ⟨rfl, rfl⟩ ?_ ?_ ?_ ?_ ?_ ?_ ?_)⟩ <;> decide +kernel

/-- A husk submitted through mailbox 0, with its descriptor and payload read. -/
def wzh : State := wz 0x0311 zhBody (pooled w0)
def wzhData : State := zData (msg 0x0311 zhBody) (slice (desc1 64) 0 96 ++ slice (zeros 64) 0 64) wzh

theorem wit_mailboxHusk (h : Obligations.MailboxHusksMetersAndRecovery) : Runs (.zalpolHusk 0 (desc1 64) (zeros 64)) wzh := by
  obtain ⟨as, h1, -⟩ := exOk (x := parseHusk wzhData true 0 (slice (desc1 64) 0 96) (slice (zeros 64) 0 64)) (p := fun _ => true) (by decide +kernel)
  obtain ⟨⟨ix, s1⟩, h2, -⟩ := exSome (x := stagePayload 0 (slice (zeros 64) 0 64) wzhData) (p := fun _ => true) (by decide +kernel)
  exact runs (h.1.2 wzh 0 (desc1 64) (zeros 64) (msg 0x0311 zhBody) as ix s1 ⟨rfl, rfl⟩ (by decide +kernel) (by decide +kernel) h1 (by decide +kernel) h2)

theorem wit_metersAndRecovery (h : Obligations.MailboxHusksMetersAndRecovery) :
    Runs (.meterRead 0) (wz 0x0601 [] w0) ∧
    Runs (.recoverRestart 0) (wz 0x0701 [0] (phase 6 w0)) ∧ Runs (.recoverRestart 0) (wz 0x0701 [0] (phase 3 w0)) ∧
    Runs (.recoverLeaveFault 0) (wz 0x0701 [1] (causes 0 .fault w0)) ∧ Runs (.recoverLeaveFault 0) (wz 0x0701 [1] (causes 2 .fault w0)) ∧
    Runs (.recoveryStatus 0) (wz 0x0702 [] w0) :=
  ⟨runs (h.2.1 (wz 0x0601 [] w0) 0 _ ⟨rfl, rfl⟩), runs (h.2.2.1 (wz 0x0701 [0] (phase 6 w0)) 0 _ ⟨rfl, rfl⟩ (by decide)),
   runs (h.2.2.1 (wz 0x0701 [0] (phase 3 w0)) 0 _ ⟨rfl, rfl⟩ (by decide)),
   runs ((h.2.2.2.1 (wz 0x0701 [1] (causes 0 .fault w0)) 0 _ ⟨rfl, rfl⟩ (by decide)).1 (.inr ⟨rfl, rfl⟩)),
   runs ((h.2.2.2.1 (wz 0x0701 [1] (causes 2 .fault w0)) 0 _ ⟨rfl, rfl⟩ (by decide)).2 (by decide) (.inr (by decide))),
   runs (h.2.2.2.2 (wz 0x0702 [] w0) 0 _ ⟨rfl, rfl⟩)⟩

/-- A media table's header: maker 1, 3 bits a cell, pages of 8,192 bytes, 3 pages a block in bulk mode, 1 in SLC mode. -/
def mtab : Bytes := ent [(0, toLe 4 0x5446444D ++ [1, 0, 1, 3, 7]), (0x20, toLe 4 8192 ++ toLe 4 3 ++ toLe 4 1 ++ toLe 4 1 ++ [0, 0, 100, 0]),
  (0x38, toLe 4 64 ++ toLe 4 4690)]
theorem mtab_passes : firstBad (mediaChecks (slice mtab 0 4754)) = none := by
  have hl : (slice mtab 0 4754).length = 4754 := by simp [slice, mtab]
  have hp : ∀ (c : Nat × Bool) (l : List Chk), c.2 = true → firstBad l = none → firstBad (c :: l) = none := by
    intro ⟨o, b⟩ l h1 h2
    simp only at h1
    simp [firstBad, h1, h2]
  unfold mediaChecks
  rw [hl]
  iterate 11 refine hp _ _ (by decide +kernel) ?_
  rfl
/-- A LUN of 100 blocks, 6 of them in the SLC region; channel 0 with it; block records and units. -/
def lun0 : Lun := { admitted := true, table := some 0, blocks := 100, bytes := 10 ^ 9, model := zeros 20, maker := 1 }
def wfl (bl : Tab Blk) (us : Tab Machine.Unit) : State :=
  { w0 with fls := { w0.fls with
      chans := [(0, { reserve := 0, luns := [(0, lun0)] })], tables := [mtab], blks := bl, units := us, formatted := true } }
def chan0 (st : ChState) (s : State) : State := modChan 0 (fun c => { c with st := st }) s
def mBody : Bytes := bod [(8, toLe 4 4754), (0x0C, zeros 4)]

theorem wit_media (h : Obligations.MediaIsTabledFormattedAndReported) (hc : Config.mediaTableSigned (slice mtab 0 4754) = true) :
    Runs (.mediaTableLoad 0 mtab) (wz 0x0402 mBody (wfl [] [])) ∧
    Runs .formatComplete { wobj { o9 with home := 3 } w0 with fls := { w0.fls with formatting := some (0, 6, 7, 64) } } ∧
    Runs (.channelStatus 0) (wz 0x0403 [31] w0) ∧ Runs (.endurance 0) (wz 0x0406 [0] w0) ∧ Runs (.endurance 0) (wz 0x0406 [1, 0, 0, 0] (wfl [] [])) :=
  ⟨runs (h.1 (wz 0x0402 mBody (wfl [] [])) 0 mtab _ ⟨rfl, rfl⟩ (by decide) (by decide) mtab_passes hc),
   runs (h.2.2.1 { wobj { o9 with home := 3 } w0 with fls := { w0.fls with formatting := some (0, 6, 7, 64) } } _ _ _ _ rfl rfl rfl rfl),
   runs (h.2.2.2.1 (wz 0x0403 [31] w0) 0 _ _ ⟨rfl, rfl⟩ rfl),
   runs ((h.2.2.2.2 (wz 0x0406 [0] w0) 0 _ ⟨rfl, rfl⟩).1 (by decide)),
   runs ((h.2.2.2.2 (wz 0x0406 [1, 0, 0, 0] (wfl [] [])) 0 _ ⟨rfl, rfl⟩).2 (by decide) (by decide) (by decide) (by decide) (by decide))⟩

theorem wit_format (h : Obligations.MediaIsTabledFormattedAndReported) :
    Runs (.format 0) (wz 0x0401 ([3, 4, 16, 0] ++ toLe 4 0x54414D52) w0) ∧ Runs (.format 0) (wz 0x0401 ([20, 28, 0, 1] ++ toLe 4 0x54414D52) w0) := by
  refine ⟨runs (h.2.1 (wz 0x0401 ([3, 4, 16, 0] ++ toLe 4 0x54414D52) w0) 0 _ ⟨rfl, rfl⟩ ?_ ?_ ?_ ?_ ?_ ?_ ?_ ?_ ?_ ?_),
    runs (h.2.1 (wz 0x0401 ([20, 28, 0, 1] ++ toLe 4 0x54414D52) w0) 0 _ ⟨rfl, rfl⟩ ?_ ?_ ?_ ?_ ?_ ?_ ?_ ?_ ?_ ?_)⟩ <;> decide +kernel

/-- All 32 channels, each with a LUN of 10^12 bytes. -/
def wfull : State := { w0 with fls := { (wfl [] []).fls with
  chans := (List.range 32).map fun c => (c, { luns := [(0, { lun0 with bytes := 10 ^ 12 })] }) } }
/-- A LUN found on channel 0 by identification. -/
def lid : LunId := { ch := 0, lun := 0, good := true, page := 8192, model := zeros 20, maker := 1, bytes := 10 ^ 9, blocks := 100 }

theorem wit_channels (h : Obligations.ChannelsAreDrainedAdmittedAndLost) :
    Runs (.channelDrain 0) (wz 0x0404 [31] wfull) ∧ Runs (.channelDrainComplete 0) (chan0 .draining w0) ∧
    Runs (.channelAdmit 0) (wz 0x0405 [0] (chan0 .retired w0)) ∧ Runs (.channelAdmitComplete 0 3600 [lid]) (chan0 .admitting (wfl [] [])) ∧
    Runs (.channelAdmitComplete 0 3600 []) (chan0 .admitting (wfl [] [])) ∧ Runs (.channelLoss 31) w0 :=
  ⟨runs (h.1 (wz 0x0404 [31] wfull) 0 _ _ 31 ⟨rfl, rfl⟩ (by decide) rfl rfl (by decide +kernel) (by decide +kernel) (by decide +kernel)),
   runs (h.2.1 (chan0 .draining w0) 0 _ rfl rfl rfl (by decide)),
   runs (h.2.2.1 (wz 0x0405 [0] (chan0 .retired w0)) 0 _ _ ⟨rfl, rfl⟩ rfl rfl),
   runs ((h.2.2.2.1 (chan0 .admitting (wfl [] [])) 0 3600 [lid] _ rfl rfl rfl).1 (by decide +kernel)),
   runs ((h.2.2.2.1 (chan0 .admitting (wfl [] [])) 0 3600 [] _ rfl rfl rfl).2 (by decide +kernel)),
   runs (h.2.2.2.2 w0 31 _ rfl rfl (by decide))⟩

/-- A unit on bulk block 10 of the LUN, of an object in T3, and the block full. -/
def b10 : Nat := blkField 0 0 10
def blk1 (m u : Nat) : Blk := { mode := m, use := u, pages := 3 }
def wrdfl : State := wobj { o9 with home := 3 } (wfl [(b10, blk1 2 3)] [(7, { blk := b10, obj := 9 })])
theorem ageKnown_wrdfl : ageKnown wrdfl (blkOf wrdfl b10) = true := by decide +kernel
/-- In a replay whose recording holds a FLASH_READ item of channel 0 with this outcome. -/
def wrpl (o : Nat) : State := { wrdfl with recd := { replaying := true, chunks := [{
  type := 2, stream := 8, seq := 1, body := putAt (zeros 64) 11 (toLe 1 o) }] } }
def later (t : Nat) (s : State) : State := { s with aon := { s.aon with uptime := t } }

theorem wit_flashReads (h : Obligations.FlashIsReadAndPatrolled) :
    Runs (.flashReadComplete 7 11 0) wrdfl ∧ Runs (.flashReadComplete 7 10 0) wrdfl ∧ Runs (.flashReadComplete 7 0 60) wrdfl ∧
    Runs (.flashReadComplete 7 11 0) (wrpl 0) ∧ Runs (.flashReadComplete 7 0 0) (wrpl 0xFF) ∧
    Runs (.lunTemperatureRead 0 0 (some 61)) (wfl [] []) ∧ Runs (.lunTemperatureRead 0 0 none) (wfl [] []) ∧
    Runs (.blockCalibration b10 [9, 8, 7, 6, 5, 4, 3]) (wfl [(b10, { blk1 2 3 with refBoot := 9 })] []) :=
  ⟨runs ((h.1.1 wrdfl 7 11 0 _ rfl rfl ageKnown_wrdfl rfl).2.1 (by decide)), runs ((h.1.1 wrdfl 7 10 0 _ rfl rfl ageKnown_wrdfl rfl).2.2 (by decide)),
   runs ((h.1.1 wrdfl 7 0 60 _ rfl rfl ageKnown_wrdfl rfl).2.2 (by decide)),
   runs ((h.1.1 (wrpl 0) 7 11 0 _ rfl rfl (by decide +kernel) rfl).2.1 (by decide +kernel)),
   runs ((h.1.1 (wrpl 0xFF) 7 0 0 _ rfl rfl (by decide +kernel) rfl).2.1 (by decide +kernel)),
   runs ((h.1.2.1 (wfl [] []) 0 0 _ rfl rfl).1 61), runs ((h.1.2.1 (wfl [] []) 0 0 _ rfl rfl).2),
   runs (h.1.2.2 (wfl [(b10, { blk1 2 3 with refBoot := 9 })] []) b10 _ rfl (by decide +kernel) (by decide +kernel) rfl)⟩

theorem wit_patrol (h : Obligations.FlashIsReadAndPatrolled) :
    Runs (.gleanerPatrol b10 []) (later (7 * 86400 * 10 ^ 9) wrdfl) ∧
    Runs (.gleanerAgingPromotion b10) (later (8 * 86400 * 10 ^ 9) wrdfl) ∧
    Runs (.prioritySweep 0 []) { w0 with fls := { w0.fls with sweeping := true } } ∧
    Runs (.prioritySweep b10 []) { w0 with fls := { (wfl [(b10, { blk1 2 3 with patBoot := 9 })] []).fls with sweeping := true } } := by
  refine ⟨runs (h.2.1 (later (7 * 86400 * 10 ^ 9) wrdfl) b10 [] rfl ?_ ?_ ?_ rfl ?_),
    runs (h.2.2.1 (later (8 * 86400 * 10 ^ 9) wrdfl) b10 rfl ?_ ?_ ?_),
    runs ((h.2.2.2 { w0 with fls := { w0.fls with sweeping := true } } 0 [] rfl rfl).1 rfl),
    runs ((h.2.2.2 { w0 with fls := { (wfl [(b10, { blk1 2 3 with patBoot := 9 })] []).fls with sweeping := true } } b10 [] rfl rfl).2 ?_ ?_ ?_ ?_ ?_)⟩
  all_goals decide +kernel

/-- Blocks 0 to 2 of the SLC region as a full write buffer; a bulk block that is to be relocated; one much worn. -/
def blk0 (n : Nat) : Nat := blkField 0 0 n
def buf : Blk := { mode := 1, use := 2, pages := 1 }
def wbuf : State := { wfl [(blk0 0, buf), (blk0 1, buf), (blk0 2, buf)] [] with fls := {
  (wfl [(blk0 0, buf), (blk0 1, buf), (blk0 2, buf)] []).fls with foldUrgent := true } }
def wrel : State := wfl [(b10, { blk1 2 3 with relocate := true }), (blk0 11, { erases := 3 })] []
def wworn : State := wfl [(b10, { blk1 2 3 with erases := 5 }), (blk0 11, { erases := 406 })] []
def wmove : State := wobj { o9 with home := 3 } (wfl [(b10, blk1 2 3), (blk0 11, { blk1 2 3 with pages := 0 })] [(7, { blk := b10, obj := 9 })])

theorem wit_moves (h : Obligations.UnitsMoveBetweenBlocks) :
    Runs (.fold [blk0 0, blk0 1, blk0 2] (blk0 6)) wbuf ∧ Runs (.garbageCollection false b10) (wfl [(b10, blk1 2 3)] []) ∧
    Runs (.relocation b10 (blk0 11) []) wrel ∧ Runs (.wearLevelling false) wworn ∧
    Runs (.unitMoveProgrammed 7 { fromBlk := b10, toBlk := blk0 11, toPage := 2 }) wmove := by
  obtain ⟨s1, h1, -⟩ := exSome (x := takeBlock false (blkOf (wfl [(b10, blk1 2 3)] []) b10) (wfl [(b10, blk1 2 3)] [])) (p := fun _ => true)
    (by decide +kernel)
  refine ⟨runs (h.1 wbuf _ (blk0 6) rfl ?_ ?_ ?_ ?_ ?_ ?_ ?_ ?_),
    runs (h.2.1 (wfl [(b10, blk1 2 3)] []) s1 false b10 0 rfl ?_ ?_ ?_ h1),
    runs (h.2.2.1 wrel b10 (blk0 11) [] rfl ?_ ?_ ?_ ?_ ?_),
    runs (h.2.2.2.1 wworn false b10 (blk0 11) { blk1 2 3 with erases := 5 } { erases := 406 } rfl ?_ ?_ ?_ ?_ ?_ ?_ ?_ ?_ ?_ ?_ ?_ ?_ ?_ ?_),
    runs (h.2.2.2.2 wmove 7 { fromBlk := b10, toBlk := blk0 11, toPage := 2 } _ rfl ?_ ?_ ?_ ?_ rfl (fun h => nomatch h))⟩
  all_goals decide +kernel

/-- Blocks due for erase and half written; PACK requests: one waiting, one in a slot to compress 4,097 bytes, one to expand what
is no stream. -/
def wdue : State := wfl [(b10, { blk1 2 3 with eraseDue := true })] []
def whalf : State := wfl [(b10, { blk1 2 3 with pages := 1 })] []
def wpk (r : PackReq) : State := { wobj o9 w0 with fls := { w0.fls with pack := [(4, r)], nextPack := 5 } }
def enc : PackReq := { slot := some 0, element := 2, src := zeros 4097, blocks := [zeros 4096] }

theorem wit_blocks (h : Obligations.BlocksEraseFailAndPackSlotsCode) :
    Runs (.blockErase b10) wdue ∧ Runs (.mappingPageWrite 4096) w0 ∧ Runs (.programFailure b10 (blk0 11)) whalf ∧
    Runs (.eraseFailure b10) wdue ∧ Runs (.lunBusyTimeout 0 0) (wfl [] []) :=
  ⟨runs (h.1.1 wdue b10 rfl (by decide +kernel) (by decide +kernel) (by decide +kernel) rfl), runs (h.1.2.1 w0 4096 rfl),
   by refine runs (h.1.2.2.1 whalf b10 (blk0 11) rfl ?_ ?_ ?_ ?_ ?_) <;> decide +kernel,
   runs (h.1.2.2.2.1 wdue b10 rfl (by decide +kernel) (by decide +kernel)), runs (h.1.2.2.2.2 (wfl [] []) 0 0 _ rfl rfl rfl rfl)⟩

theorem wit_pack (h : Obligations.BlocksEraseFailAndPackSlotsCode) :
    Runs .packSlotGrant (wpk { enc with slot := none }) ∧ Runs (.packBlockEncode 4) (wpk enc) ∧
    Runs (.packBlockDecode 4) (wpk { enc with expand := true, src := zeros 64 }) ∧
    Runs (.checkpointStreamSwitch 9) (wpk { enc with obj := some 9, src := zeros 4096 }) :=
  ⟨runs (h.2.1 (wpk { enc with slot := none }) _ 0 rfl rfl (by decide) (by decide) (by decide)),
   runs (h.2.2.1 (wpk enc) 4 0 enc rfl rfl rfl rfl (by decide +kernel)),
   runs ((h.2.2.2.1 (wpk { enc with expand := true, src := zeros 64 }) 4 0 _ rfl rfl rfl rfl).1 (by decide +kernel)),
   runs (h.2.2.2.2 (wpk { enc with obj := some 9, src := zeros 4096 }) 9 _ o9 rfl rfl rfl rfl (by decide +kernel) (.inr (by decide +kernel)))⟩

/-- A stream of two blocks stored RAW. -/
def pks : Bytes := packStream 2 false [] [packRaw [1, 2], packRaw [3]]
def dec (n : Nat) : PackReq := { slot := some 0, expand := true, src := pks, blocks := (List.range n).map fun _ => [] }

theorem wit_decode (h : Obligations.BlocksEraseFailAndPackSlotsCode) :
    Runs (.packBlockDecode 4) (wpk (dec 0)) ∧ Runs (.packBlockDecode 4) (wpk (dec 1)) :=
  have hg : pkGood pks = true := by decide +kernel
  ⟨runs (((h.2.2.2.1 (wpk (dec 0)) 4 0 (dec 0) rfl rfl rfl rfl).2 [1, 2] hg (by decide +kernel)).1 (by decide +kernel)),
   runs (((h.2.2.2.1 (wpk (dec 1)) 4 0 (dec 1) rfl rfl rfl rfl).2 [3] hg (by decide +kernel)).2 (by decide +kernel))⟩

/-- A state with an open peer 5 behind port 0, messages of it waiting, and the fabric changed. -/
def fwd5 : TVer := { table := forwardHandle, index := 5, data := some (putAt (zeros 32) 0 [1, 1]) }
def wpeer (p : Peer) (ms : List Msg) (f : Fab → Fab) (s : State) : State :=
  { s with
    idx := { s.idx with vers := fwd5 :: s.idx.vers }
    fab := f { s.fab with ports := [true, false, false, false], peers := [(5, p)], rxMsgs := ms.map fun m => (5, m) } }
def p5 : Peer := { open_ := true }
/-- A frame of 48 bytes from node 5 to node 0: type, its vc and flag bits, sequence. -/
def frm (ty fl seq : Nat) : Bytes := putAt (ent [(0, [1]), (1, toLe 1 ty), (2, toLe 1 fl), (4, [5, 0]), (0x0C, toLe 4 seq), (0x3C, [9])]) 0 []

theorem wit_canAnswer : CanAnswer (wpeer p5 [] id w0) 5 0 0 := ⟨rfl, by decide +kernel⟩

theorem wit_frames (h : Obligations.FramesAreReceivedInTurn) :
    Runs (.frameReceive 0 .pause []) (wpeer p5 [] id w0) ∧ Runs (.frameReceive 0 .vlan []) (wpeer p5 [] id w0) ∧
    Runs (.frameReceive 0 .fragment []) (wpeer p5 [] id w0) ∧ Runs (.frameReceive 0 .badSum []) (wpeer p5 [] id w0) ∧ Runs (.frameReceive 0 .good (zeros 47)) (wpeer p5 [] id w0) ∧
    Runs (.frameReceive 0 .good (frm 3 0 0)) (served .standby (wpeer { quarantine := some 5 } [] id w0)) ∧
    Runs (.frameReceive 0 .good (frm 6 9 0)) (served .standby (wpeer p5 [] id w0)) ∧
    Runs (.frameReceive 0 .good (frm 0x10 1 0)) (served .standby (wpeer p5 [] id w0)) ∧
    Runs (.frameReceive 0 .good (frm 1 8 0)) (served .standby (wpeer {} [] id w0)) ∧
    Runs (.frameReceive 0 .good (frm 1 8 0)) (served .standby (wpeer { quarantine := some 5, boot := 9 } [] id w0)) :=
  have h0 := h (wpeer p5 [] id w0) 0 0 [] rfl rfl (by decide) rfl
  ⟨runs h0.1, runs h0.2.1, runs h0.2.2.1, runs (h0.2.2.2.1 .badSum (.inl rfl)),
   runs ((h (wpeer p5 [] id w0) 0 0 (zeros 47) rfl rfl (by decide) (by decide)).2.2.2.1 .good (.inr ⟨rfl, .inl (by decide)⟩)),
   runs (((h (served .standby (wpeer { quarantine := some 5 } [] id w0)) 0 5 (frm 3 0 0) rfl rfl (by decide) (by decide +kernel)).2.2.2.2 (by decide +kernel)
     (by decide +kernel) (by decide +kernel) (by decide)).1 5 rfl (by decide +kernel)),
   runs (((h (served .standby (wpeer p5 [] id w0)) 0 5 (frm 6 9 0) rfl rfl (by decide) (by decide +kernel)).2.2.2.2 (by decide +kernel)
     (by decide +kernel) (by decide +kernel) (by decide)).2.1 rfl rfl (by decide +kernel) (by decide +kernel) (by decide +kernel) (by decide +kernel)
     (.inr (by decide +kernel))),
   runs (((h (served .standby (wpeer p5 [] id w0)) 0 5 (frm 0x10 1 0) rfl rfl (by decide) (by decide +kernel)).2.2.2.2 (by decide +kernel)
     (by decide +kernel) (by decide +kernel) (by decide)).2.1 rfl rfl (by decide +kernel) (by decide +kernel) (by decide +kernel) (by decide +kernel)
     (.inr (by decide +kernel))),
   runs (((h (served .standby (wpeer {} [] id w0)) 0 5 (frm 1 8 0) rfl rfl (by decide) (by decide +kernel)).2.2.2.2 (by decide +kernel)
     (by decide +kernel) (by decide +kernel) (by decide)).2.2 rfl (by decide +kernel) (.inl rfl)),
   runs (((h (served .standby (wpeer { quarantine := some 5, boot := 9 } [] id w0)) 0 5 (frm 1 8 0) rfl rfl (by decide) (by decide +kernel)).2.2.2.2
     (by decide +kernel) (by decide +kernel) (by decide +kernel) (by decide)).2.2 rfl (by decide +kernel) (.inr (by decide +kernel)))⟩

def v5 (v : VcSt) : Peer := { p5 with vcs := [(1, v)] }

theorem wit_fabricTimers (h : Obligations.FabricTimersMetersAndAging) :
    Runs (.ackSendTimer 5 1) (wpeer (v5 { ackDue := true }) [] id w0) ∧
    Runs (.retransmissionTimeout 5 1) (at_ 50000 (wpeer (v5 { unacked := [(0, [])], attempt := 254 }) [] id w0)) ∧
    Runs (.retransmissionTimeout 5 1) (at_ 50000 (wpeer (v5 { unacked := [(0, [])], attempt := 255 }) [] id w0)) ∧
    Runs (.peerTimeout 5 1) (at_ (10 ^ 7) (wpeer (v5 { waitTx := [(6, [])] }) [] id w0)) ∧
    Runs (.quarantineEnd 5) (at_ 5 (wpeer { quarantine := some 5 } [] id w0)) ∧ Runs (.portLinkChange 0 false) (wpeer p5 [] id w0) ∧
    Runs (.portLinkChange 3 true) (wpeer p5 [] id w0) ∧ Runs .meterInterval (at_ (60 * 10 ^ 9) w0) ∧
    Runs (.agingPromotion 0 5) (at_ (10 ^ 7) (wq { q0 with fetched := [{ slot := 0, entry := [], since := 0 }] })) ∧
    Runs (.agingPromotion 1 21) (at_ (10 ^ 7) (wpeer (v5 { waitTx := [(6, [])] }) [] id w0)) :=
  ⟨runs (h.1.1 (wpeer (v5 { ackDue := true }) [] id w0) 5 1 0 rfl rfl rfl (by decide +kernel)),
   runs ((h.1.2.1 (at_ 50000 (wpeer (v5 { unacked := [(0, [])], attempt := 254 }) [] id w0)) 5 1 rfl (by decide +kernel) (by decide +kernel)).1
     (by decide +kernel)),
   runs ((h.1.2.1 (at_ 50000 (wpeer (v5 { unacked := [(0, [])], attempt := 255 }) [] id w0)) 5 1 rfl (by decide +kernel) (by decide +kernel)).2
     (by decide +kernel)),
   runs (h.1.2.2.1 (at_ (10 ^ 7) (wpeer (v5 { waitTx := [(6, [])] }) [] id w0)) 5 1 rfl (.inr (by decide +kernel)) (by decide +kernel)),
   runs (h.1.2.2.2.1 (at_ 5 (wpeer { quarantine := some 5 } [] id w0)) 5 5 rfl rfl (by decide)),
   runs ((h.1.2.2.2.2 (wpeer p5 [] id w0) 0 rfl (by decide)).1 rfl),
   runs ((h.1.2.2.2.2 (wpeer p5 [] id w0) 3 rfl (by decide)).2 rfl rfl (by decide) (by decide) rfl),
   runs (h.2.1 (at_ (60 * 10 ^ 9) w0) rfl (by decide +kernel)),
   runs (h.2.2 (at_ (10 ^ 7) (wq { q0 with fetched := [{ slot := 0, entry := [], since := 0 }] })) 0 5 0 rfl rfl (by decide) (by decide +kernel)),
   runs (h.2.2 (at_ (10 ^ 7) (wpeer (v5 { waitTx := [(6, [])] }) [] id w0)) 1 21 0 rfl (by decide +kernel) (by decide) (by decide +kernel))⟩

/-- Node 5 as the coordinator, and messages of it. -/
def wco (s : State) : State := { s with stew := { s.stew with cur := { factoryGen with node := putAt factoryGen.node 4 [5, 0] } } }
def wmsg (vc ty : Nat) (b : Bytes) (s : State) : State := wpeer p5 [{ vc := vc, type := ty, id := 77, body := b }] id s
def jbody (op : Nat) : Bytes := toLe 4 3 ++ toLe 4 0 ++ toLe 1 op ++ zeros 7
def wbar (s : State) : State := { s with eng := { s.eng with barriers := [{ id := 2, epoch := 1 }] } }
def wjob (n : Nat) (s : State) : State := { s with stew := { s.stew with job := n } }
def wwork (s : State) : State := { s with hif := { s.hif with cmds := [(0, { peer := some (5, 1) })] } }

theorem wit_control (h : Obligations.ControlMessagesServeJoinAndLeave) :
    Runs (.hello 5 77) (wmsg 0 1 (zeros 16) w0) ∧ Runs (.barrier 5 77) (served .standby (wmsg 0 2 (toLe 4 2) (wbar w0))) ∧
    Runs (.barrierMap 5 77) (served .standby (wmsg 0 4 (toLe 4 2 ++ toLe 4 1024) (wbar w0))) ∧
    Runs (.barrierMap 5 77) (served .standby (wmsg 0 4 (toLe 4 2 ++ toLe 4 1) w0)) ∧ Runs (.telemetry 5 77) (wmsg 1 6 [] w0) :=
  ⟨runs (h.1.1 (wmsg 0 1 (zeros 16) w0) 5 77 _ rfl rfl), runs (h.1.2.1 (served .standby (wmsg 0 2 (toLe 4 2) (wbar w0))) 5 77 _ rfl rfl rfl),
   runs ((h.1.2.2.1 (served .standby (wmsg 0 4 (toLe 4 2 ++ toLe 4 1024) (wbar w0))) 5 77 _ rfl rfl rfl (by decide) (by decide)).1
     ⟨_, List.mem_singleton.mpr rfl, by decide⟩),
   runs ((h.1.2.2.1 (served .standby (wmsg 0 4 (toLe 4 2 ++ toLe 4 1) w0)) 5 77 _ rfl rfl rfl (by decide) (by decide)).2 (by decide)),
   runs (h.1.2.2.2 (wmsg 1 6 [] w0) 5 77 _ rfl rfl)⟩

theorem wit_join (h : Obligations.ControlMessagesServeJoinAndLeave) :
    Runs (.join 5 77) (served .standby (wco (wmsg 0 5 (jbody 0) w0))) ∧ Runs (.join 5 77) (served .service (wjob 4 (wco (wmsg 0 5 (jbody 0) w0)))) ∧
    Runs (.leave 5 77) (served .service (wco (wmsg 0 5 (jbody 1) w0))) ∧ Runs (.leave 5 77) (served .service (wwork (wco (wmsg 0 5 (jbody 1) w0)))) ∧
    Runs (.t4Read 5 77) (served .service (wmsg 1 0x20 [] w0)) ∧ Runs (.t4Write 5 77) (served .standby (wmsg 1 0x22 [] w0)) ∧
    Runs (.unknownMessageType 5 77) (served .standby (wmsg 0 7 [] w0)) ∧ Runs (.unknownMessageType 5 77) (served .service (wmsg 1 0x12 [] w0)) :=
  ⟨runs ((h.2.1 (served .standby (wco (wmsg 0 5 (jbody 0) w0))) 5 77 _ rfl rfl (by decide +kernel)).1 (by decide) rfl),
   runs ((h.2.1 (served .service (wjob 4 (wco (wmsg 0 5 (jbody 0) w0)))) 5 77 _ rfl rfl (by decide +kernel)).2.1 (by decide) rfl),
   runs ((h.2.1 (served .service (wco (wmsg 0 5 (jbody 1) w0))) 5 77 _ rfl rfl (by decide +kernel)).2.2.1 (by decide) rfl rfl),
   runs ((h.2.1 (served .service (wwork (wco (wmsg 0 5 (jbody 1) w0)))) 5 77 _ rfl rfl (by decide +kernel)).2.2.2 (by decide) rfl rfl),
   runs ((h.2.2.1 (served .service (wmsg 1 0x20 [] w0)) 5 77 _ rfl rfl rfl).1 rfl), runs ((h.2.2.1 (served .standby (wmsg 1 0x22 [] w0)) 5 77 _ rfl rfl rfl).2 rfl),
   runs (h.2.2.2 (served .standby (wmsg 0 7 [] w0)) 5 77 _ rfl rfl rfl (by decide) (by decide)),
   runs (h.2.2.2 (served .service (wmsg 1 0x12 [] w0)) 5 77 _ rfl rfl rfl (by decide) (by decide))⟩

/-- A reservation for message 77, of a kind, of a command or a T4 object's end, and the numbers past it. -/
def wres (k c : Nat) (m : List Msg) (s : State) : State :=
  wpeer p5 m (fun f => { f with resv := [{ msg := 77, node := 5, kind := k, cmd := c, bytes := 64 }], nextMsg := 78 }) s
def m77 (ty : Nat) (b : Bytes) : List Msg := [{ vc := 2, type := ty, id := 77, body := b }]
def t4c : Nat := 9 * 2 ^ 41 + 64
def wstream (s : State) : State := { s with fls := { s.fls with ckpt := [(9, zeros 64)] } }

theorem wit_answers (h : Obligations.AnswersAndSubSearchesEndRequests) :
    Runs (.status 5 77) (wpeer p5 (m77 0x0F []) id w0) ∧ Runs (.status 5 77) (wres 6 0 (m77 0x0F []) w0) ∧
    Runs (.t4Data 5 77) (wpeer p5 (m77 0x21 []) id w0) ∧ Runs (.t4Data 5 77) (wres 0x20 t4c (m77 0x21 (zeros 64)) (wobj o9 w0)) ∧
    Runs (.t4Data 5 77) (wres 0x20 t4c (m77 0x21 (zeros 64)) (wstream (wobj o9 w0))) ∧
    Runs (.t4RequestTimeout 77) (at_ (10 ^ 8) (wres 0x22 t4c [] (wobj o9 w0))) :=
  ⟨runs ((h.1.1 (wpeer p5 (m77 0x0F []) id w0) 5 77 _ rfl rfl).1 rfl), runs ((h.1.1 (wres 6 0 (m77 0x0F []) w0) 5 77 _ rfl rfl).2 _ rfl (by decide)),
   runs ((h.1.2.1 (wpeer p5 (m77 0x21 []) id w0) 5 77 _ rfl rfl).1 rfl),
   runs ((h.1.2.1 (wres 0x20 t4c (m77 0x21 (zeros 64)) (wobj o9 w0)) 5 77 _ rfl rfl).2 _ rfl),
   runs ((h.1.2.1 (wres 0x20 t4c (m77 0x21 (zeros 64)) (wstream (wobj o9 w0))) 5 77 _ rfl rfl).2 _ rfl),
   runs (h.1.2.2 (at_ (10 ^ 8) (wres 0x22 t4c [] (wobj o9 w0))) 77 _ rfl rfl (by decide))⟩

/-- A search sheaf 3 of tenant 0 (stages CENTROID, MERGE, SELECT, RERANK) that fits collection 7, steering it for SEARCH, and a
sub-search of the collection. -/
def sstage (i role nx : Nat) (x : List (Nat × Bytes)) (b : Bytes) : Bytes :=
  putAt b (0x40 + 64 * i) (ent ([(0, toLe 1 role), (2, toLe 2 (8 + i)), (4, [1, 1, 4]), (8, toLe 1 nx ++ [0xFF]), (0x0C, toLe 4 65536 ++ toLe 4 65536)] ++ x))
def sheafS : Bytes :=
  sstage 0 1 1 [(0x28, [3, 3]), (0x2C, toLe 2 32)] (sstage 1 2 2 [(0x28, [6])] (sstage 2 3 3 [] (sstage 3 4 255 [(0x28, [3, 3, 0]), (0x2C, toLe 2 32)]
    (putAt (zeros 1088) 0 ([3, 0, 0, 0, 4] : Bytes)))))
def wsub (s : State) : State :=
  { s with
    stew := { s.stew with st := .service, cur := { factoryGen with sheaves := sheafS } }
    idx := { s.idx with vers := { table := steerHandle, index := 0x20, data := some (toLe 4 (2 ^ 8 + 2 ^ 9 + 3)) } :: (wcoll7 w0).idx.vers } }
def subBody : Bytes := ent [(0, [7, 0, 1, 1, 1, 0]), (0x12, [1, 0]), (0x14, toLe 4 1024)]
def fan5 (s : State) : State :=
  { s with hif := { s.hif with cmds := [(0, { fan := some { owed := [(5, 2)], deadline := 9 } })] } }

theorem wit_subSearch (h : Obligations.AnswersAndSubSearchesEndRequests) :
    Runs (.subSearch 5 77) (served .standby (wmsg 1 0x10 subBody w0)) ∧ Runs (.subSearch 5 77) (wmsg 1 0x10 subBody (wsub w0)) ∧
    Runs (.subAnswer 5 77) (wpeer p5 (m77 0x11 []) (fun f => { f with gone := [(5, 77, 7)] }) w0) ∧
    Runs (.subAnswer 5 77) (wres 0x10 0 (m77 0x11 (zeros 96)) (fan5 w0)) ∧
    Runs (.subAnswer 5 77) (wres 0x10 0 (m77 0x11 (putAt (zeros 96) 0 [5, 1])) (fan5 w0)) ∧
    Runs (.fanoutTimeout 0) (at_ 9 (fan5 w0)) := by
  refine ⟨runs ((h.2.1 (served .standby (wmsg 1 0x10 subBody w0)) 5 77 _ rfl rfl).1 ?_),
    runs ((h.2.1 (wmsg 1 0x10 subBody (wsub w0)) 5 77 _ rfl rfl).2 sheafS (putAt cdesc 0x10 (toLe 4 3)) rfl ?_ rfl rfl ?_ ?_ ?_ ?_ ?_ ?_ ?_ ?_ ?_
      ?_ ?_ ?_),
    runs ((h.2.2.1 (wpeer p5 (m77 0x11 []) (fun f => { f with gone := [(5, 77, 7)] }) w0) 5 77 _ rfl rfl).1 rfl),
    runs (((h.2.2.1 (wres 0x10 0 (m77 0x11 (zeros 96)) (fan5 w0)) 5 77 _ rfl rfl).2 _ _ _ rfl rfl rfl).1 ?_),
    runs (((h.2.2.1 (wres 0x10 0 (m77 0x11 (putAt (zeros 96) 0 [5, 1])) (fan5 w0)) 5 77 _ rfl rfl).2 _ _ _ rfl rfl rfl).2 ?_),
    runs (h.2.2.2 (at_ 9 (fan5 w0)) 0 _ _ rfl rfl rfl ?_ ?_)⟩
  all_goals decide +kernel

/-- THRESH_RUN requests: kind, unit, steps, heat, pattern set 1, a duration. -/
def tb (kind unit heat dur : Nat) : Bytes := toLe 1 kind ++ [0] ++ toLe 2 unit ++ [8, 10] ++ toLe 1 heat ++ [0] ++ toLe 4 1 ++ toLe 4 dur
def wrun (x : Thresh) : State := { w0 with rel := { w0.rel with runs := [x], nextRun := 2 } }
def run1 : Thresh := { id := 1, st := .running, applied := true }

theorem wit_thresh (h : Obligations.ThreshingRunsAreHeld) (hc : ∀ k < 3, Config.patternSetHeld 1 k = true) :
    Runs (.threshRun 0) (wz 0x0501 (tb 0 511 1 600000) w0) ∧ Runs (.threshRun 0) (wz 0x0501 (tb 1 511 0 1) w0) ∧
    Runs (.threshRun 0) (wz 0x0501 (tb 2 35 0 1) w0) ∧
    Runs (.threshStatus 0) (wz 0x0502 (toLe 4 1) (wrun run1)) ∧ Runs (.threshIterationEnd 1 2 3 4 4) (wrun run1) ∧
    Runs (.threshIterationEnd 1 2 3 4 5) (wrun run1) ∧ Runs (.threshDurationEnd 1) (at_ (10 ^ 6) (wrun run1)) ∧
    Runs (.threshDurationEnd 1) (at_ (10 ^ 6) (wrun { run1 with onSpare := true })) :=
  ⟨runs (h.1 (wz 0x0501 (tb 0 511 1 600000) w0) 0 _ ⟨rfl, rfl⟩ (.inl (by decide +kernel)) (by decide +kernel) (by decide +kernel) (by decide +kernel)
     (.inr (by decide +kernel)) (hc 0 (by decide)) (by decide +kernel) (by decide +kernel) (by decide +kernel) (by decide +kernel)),
   runs (h.1 (wz 0x0501 (tb 1 511 0 1) w0) 0 _ ⟨rfl, rfl⟩ (.inr (.inl (by decide +kernel))) (by decide +kernel) (by decide +kernel) (by decide +kernel)
     (.inl (by decide +kernel)) (hc 1 (by decide)) (by decide +kernel) (by decide +kernel) (by decide +kernel) (by decide +kernel)),
   runs (h.1 (wz 0x0501 (tb 2 35 0 1) w0) 0 _ ⟨rfl, rfl⟩ (.inr (.inr (by decide +kernel))) (by decide +kernel) (by decide +kernel) (by decide +kernel)
     (.inl (by decide +kernel)) (hc 2 (by decide)) (by decide +kernel) (by decide +kernel) (by decide +kernel) (by decide +kernel)),
   runs (h.2.1 (wz 0x0502 (toLe 4 1) (wrun run1)) 0 _ _ ⟨rfl, rfl⟩ rfl), runs ((h.2.2.1 (wrun run1) 1 2 3 4 4 _ rfl rfl).1 rfl),
   runs ((h.2.2.1 (wrun run1) 1 2 3 4 5 _ rfl rfl).2 (by decide) (by decide)), runs ((h.2.2.2 (at_ (10 ^ 6) (wrun run1)) 1 _ rfl rfl (by decide)).1 rfl),
   runs ((h.2.2.2 (at_ (10 ^ 6) (wrun { run1 with onSpare := true })) 1 _ rfl rfl (by decide)).2 rfl)⟩

def wlane : State := { w0 with rel := { w0.rel with laneReq := [5] } }
def wdown (l : List Nat) (s : State) : State := { s with aon := { s.aon with notReady := [(1, 2), (3, 4)], inReset := l } }

theorem wit_errors (h : Obligations.StoredErrorsCrossingsAndDieLinks) :
    Runs (.t1PatrolRead 511 9 63 0) (wobj o9 w0) ∧ Runs (.t1PatrolRead 511 9 63 1) (wobj o9 w0) ∧ Runs (.t1PatrolRead 511 9 63 2) (wobj o9 w0) ∧
    Runs (.sramUncorrectable 0 511 0) w0 ∧ Runs (.sramUncorrectable 1 511 0) w0 ∧ Runs (.sramUncorrectable 2 0 0) w0 ∧
    Runs (.sramUncorrectable 3 0 0) w0 ∧ Runs .lockstepDisagreement w0 ∧ Runs (.crossingLaneSwitch 5) wlane ∧
    Runs (.crossingResync 2 1) (wdown [] w0) ∧ Runs (.dieLinkCrcRetry 2) w0 ∧ Runs (.dieLinkRetriesExhausted 2 0) (wc {}) ∧
    Runs (.dieLinkDown 0) w0 :=
  ⟨runs (h.1.1 (wobj o9 w0) 511 9 63 rfl (by decide +kernel) (by decide +kernel)).1,
   runs (h.1.1 (wobj o9 w0) 511 9 63 rfl (by decide +kernel) (by decide +kernel)).2.1,
   runs ((h.1.1 (wobj o9 w0) 511 9 63 rfl (by decide +kernel) (by decide +kernel)).2.2 2 o9 (by decide) rfl rfl (by decide)),
   runs ((h.1.2.1 w0 511 0 rfl (by decide)).1 rfl), runs (h.1.2.1 w0 511 0 rfl (by decide)).2, runs ((h.1.2.2.1 w0 0 0 rfl).1 (by decide)),
   runs ((h.1.2.2.1 w0 0 0 rfl).2 rfl), runs (h.1.2.2.2 w0 rfl rfl), runs (h.2.1 wlane 5 rfl rfl),
   runs (h.2.2.1 (wdown [] w0) 2 1 rfl (by decide) (by decide)), runs (h.2.2.2 w0 2 rfl (by decide)).1,
   runs ((h.2.2.2 (wc {}) 2 rfl (by decide)).2.1 0 _ rfl), runs ((h.2.2.2 w0 0 rfl (by decide)).2.2 rfl)⟩

def wrelm (f : Rel → Rel) (s : State) : State := { s with rel := f s.rel }
def wform (s : State) : State := { s with fls := { s.fls with formatted := true } }
def sigBody (at_ n : Nat) : Bytes := bod [(0, toLe 8 at_), (0x10, toLe 4 n)]

theorem wit_log (h : Obligations.SignaturesAndLogAreWrittenAndRead) :
    Runs .detectionProcess (wrelm (fun r => { r with detq := [{}] }) w0) ∧
    Runs (.signatureRead 0) (wz 0x0503 (sigBody 1 384) (wrelm (fun r => { r with sigs := [(2, {}), (1, {})] }) w0)) ∧
    Runs .logRecordWrite (wrelm (fun r => { r with logq := [{}] }) w0) ∧
    Runs .logRecordWrite (wrelm (fun r => { r with logq := [{}], ring38 := false, ring62 := false }) w0) ∧ Runs .logArchiveCopy (wform w0) ∧
    Runs (.logRingFailure true false) w0 ∧ Runs (.logRingFailure false true) w0 ∧ Runs (.logRingFailure true true) w0 ∧
    Runs (.logRead 0) (wz 0x0504 (sigBody 0 64) (wrelm (fun r => { r with log := [{ seq := 1 }] }) w0)) :=
  ⟨runs (h.1.1 (wrelm (fun r => { r with detq := [{}] }) w0) _ _ rfl rfl rfl (by decide)),
   runs (h.1.2 (wz 0x0503 (sigBody 1 384) (wrelm (fun r => { r with sigs := [(2, {}), (1, {})] }) w0)) 0 _ _ ⟨rfl, rfl⟩ rfl),
   runs ((h.2.1 (wrelm (fun r => { r with logq := [{}] }) w0) _ _ rfl).1 (.inl rfl) (by decide)),
   runs ((h.2.1 (wrelm (fun r => { r with logq := [{}], ring38 := false, ring62 := false }) w0) _ _ rfl).2 rfl rfl),
   runs (h.2.2.1 (wform w0) rfl rfl (by decide) rfl), runs (h.2.2.2.1 w0 rfl rfl rfl).1, runs (h.2.2.2.1 w0 rfl rfl rfl).2.1,
   runs (h.2.2.2.1 w0 rfl rfl rfl).2.2,
   runs (h.2.2.2.2 (wz 0x0504 (sigBody 0 64) (wrelm (fun r => { r with log := [{ seq := 1 }] }) w0)) 0 _ _ ⟨rfl, rfl⟩ rfl)⟩

def wrecd (r : Rec) (s : State) : State := { s with recd := r }
def full6 : State := wfl ((List.range 6).map fun n => (blk0 n, buf)) []
/-- A recording of this platform, generation and snapshot 1: header and an END chunk. -/
def rimg0 : Bytes := putAt (zeros 128) 0 (toLe 4 0x52444345 ++ [1, 0]) |> fun b => putAt (putAt b 0x38 (toLe 8 1)) 0x18 (toLe 4 1)
def rimg : Bytes := putAt rimg0 0x7C (toLe 4 3534420003)
def chunk1 : RecChunk := { type := 2, seq := 1, body := zeros 64 }
def dig (d : Nat) : RecChunk := { type := 4, seq := 1, body := [3] ++ zeros 31 |> fun b => putAt b 0x18 (toLe 8 d) }

theorem wit_recordings (h : Obligations.RecordingsAndReplaysRun) :
    Runs .recordingStart (wrecd { due := some 1 } w0) ∧ Runs .chunkSpill (wrecd { ring := [chunk1] } w0) ∧
    Runs .chunkSpill (wrecd { ring := [chunk1], active := true, spillCap := 192 } w0) ∧
    Runs (.recordingEnd 1) (wrecd { ring := [chunk1], active := true, spillCap := 191 } w0) ∧
    Runs (.recordingEnd 2) (wrecd { active := true, budget := 0 } w0) ∧ Runs (.recordingEnd 3) (wrecd { active := true } w0) ∧
    Runs .snapshotRelease (wrecd { snap := some 1 } full6) ∧
    Runs (.recordExport 0) (wz 0x0505 (bod [(0, toLe 8 0), (0x10, toLe 8 64)]) (wrecd { held := true, header := zeros 128 } w0)) :=
  ⟨runs (h.1.1 (wrecd { due := some 1 } w0) 1 rfl rfl (by decide +kernel)), runs (h.1.2.1 (wrecd { ring := [chunk1] } w0) _ _ rfl rfl (.inl rfl)),
   runs (h.1.2.1 (wrecd { ring := [chunk1], active := true, spillCap := 192 } w0) _ _ rfl rfl (.inr (by decide +kernel))),
   runs ((h.1.2.2.1 (wrecd { ring := [chunk1], active := true, spillCap := 191 } w0) rfl rfl).1 ⟨chunk1, rfl, by decide +kernel⟩),
   runs ((h.1.2.2.1 (wrecd { active := true, budget := 0 } w0) rfl rfl).2.1 (by decide +kernel)),
   runs (h.1.2.2.1 (wrecd { active := true } w0) rfl rfl).2.2,
   runs (h.1.2.2.2.1 (wrecd { snap := some 1 } full6) rfl rfl (.inl (by decide +kernel))),
   runs (h.1.2.2.2.2 (wz 0x0505 (bod [(0, toLe 8 0), (0x10, toLe 8 64)]) (wrecd { held := true, header := zeros 128 } w0)) 0 _ _ _ ⟨rfl, rfl⟩ rfl rfl)⟩

def wrep (r : Rec) : State := wrecd { r with replaying := true } w0
def wsnap1 : State := wz 0x0506 [] (wrecd { snap := some 1 } w0)

theorem wit_replays (h : Obligations.RecordingsAndReplaysRun) (hp : slice Config.platformId 0 16 = zeros 16) :
    Runs (.replayStart 0 rimg) wsnap1 ∧
    Runs (.replayWindowClose (dig 9).seq) { wrep { chunks := [dig 9] } with dig := { open_ := [(3, { island := 3, digest := 9 })] } } ∧
    Runs (.replayWindowClose (dig 9).seq) (wrep { chunks := [dig 9] }) ∧
    Runs (.replayWindowClose 2) (wrep { chunks := [{ type := 0, seq := 2 }] }) ∧ Runs .replayStall (at_ (10 ^ 9) (wrep { chunks := [chunk1] })) ∧
    Runs .replayEnd (wrep {}) ∧ Runs .replayEnd (wrep { diverged := some 2 }) ∧ Runs .replayEnd (wrep { ended := true }) := by
  have hb : recordingBad rimg wsnap1 = none := by
    simp only [recordingBad]
    rw [hp]
    decide +kernel
  exact ⟨runs (h.2.1 wsnap1 0 rimg _ ⟨rfl, rfl⟩ rfl (by decide +kernel) rfl hb (by decide +kernel)),
    runs ((h.2.2.1 { wrep { chunks := [dig 9] } with dig := { open_ := [(3, { island := 3, digest := 9 })] } } (dig 9) rfl rfl rfl rfl rfl).1
      (by decide) (by decide +kernel)),
    runs ((h.2.2.1 (wrep { chunks := [dig 9] }) (dig 9) rfl rfl rfl rfl rfl).2 (.inr (by decide +kernel))),
    runs ((h.2.2.1 (wrep { chunks := [{ type := 0, seq := 2 }] }) _ rfl rfl rfl rfl rfl).2 (.inl rfl)),
    runs (h.2.2.2.1 (at_ (10 ^ 9) (wrep { chunks := [chunk1] })) _ _ rfl rfl rfl rfl rfl (by decide)),
    runs ((h.2.2.2.2 (wrep {}) rfl rfl).1 rfl (.inr rfl)), runs ((h.2.2.2.2 (wrep { diverged := some 2 }) rfl rfl).1 rfl (.inl rfl)),
    runs ((h.2.2.2.2 (wrep { ended := true }) rfl rfl).2 rfl rfl rfl)⟩

def wa (f : Aon → Aon) (s : State) : State := { s with aon := f s.aon }
def wst (f : Stew → Stew) (s : State) : State := { s with stew := f s.stew }
/-- A state whose flush runs, sealed or not, at a power loss or a warm reset. -/
def wfs (warm sealed : Bool) : State := wa (fun a => { a with flush := some { warm := warm, sealed := sealed } }) w0

theorem wit_powerLoss (h : Obligations.PowerLossFlushesAndRestarts) :
    Runs .powerGood (wa (fun a => { a with powered := false }) (wfs false false)) ∧ Runs .powerGood (wa (fun a => { a with powered := false }) w0) ∧
    Runs .powerGood (wa (fun a => { a with powered := false }) (wfs false true)) ∧ Runs .pwrFailNAssert w0 ∧ Runs (.railOutOfLimits 7) w0 ∧
    Runs .pwrFailNGlitch w0 ∧ Runs .pwrFailNRelease (wa (fun a => { a with pwrFailLow := true }) w0) ∧
    Runs .pwrFailNRelease (wa (fun a => { a with pwrFailLow := true }) (wfs false true)) ∧ Runs .flushComplete (wfs true false) ∧
    Runs .flushComplete (wa (fun a => { a with pwrFailLow := true }) (wfs false false)) ∧ Runs .holdUpEnds (wfs false false) ∧
    Runs .holdUpEnds (wfs false true) ∧ Runs (.holdupOkChange false) (wa (fun a => { a with holdupOk := true }) w0) ∧
    Runs (.holdupOkChange true) w0 :=
  ⟨runs ((h.1 (wa (fun a => { a with powered := false }) (wfs false false)) rfl).1 ⟨_, rfl, rfl, by decide⟩),
   runs ((h.1 (wa (fun a => { a with powered := false }) w0) rfl).2 (by simp [wa, w0])),
   runs ((h.1 (wa (fun a => { a with powered := false }) (wfs false true)) rfl).2 (by simp [wa, w0, wfs])),
   runs (h.2.1 w0 rfl rfl).1, runs ((h.2.1 w0 rfl rfl).2 7 (by decide)), runs (h.2.2.1 w0 rfl),
   runs ((h.2.2.2.1 (wa (fun a => { a with pwrFailLow := true }) w0) rfl).1 rfl),
   runs ((h.2.2.2.1 (wa (fun a => { a with pwrFailLow := true }) (wfs false true)) rfl).2 _ rfl rfl rfl (.inl rfl)),
   runs ((h.2.2.2.2.1 (wfs true false) _ rfl rfl (by decide)).1 rfl),
   runs ((h.2.2.2.2.1 (wa (fun a => { a with pwrFailLow := true }) (wfs false false)) _ rfl rfl (by decide)).2 rfl (.inl rfl)),
   runs (h.2.2.2.2.2.1 (wfs false false) _ rfl rfl), runs (h.2.2.2.2.2.1 (wfs false true) _ rfl rfl),
   runs ((h.2.2.2.2.2.2 (wa (fun a => { a with holdupOk := true }) w0)).1 rfl), runs ((h.2.2.2.2.2.2 w0).2 rfl)⟩

def woff : State := wst (fun w => { w with exiting := true }) (wa (fun a => { a with off := [3] }) w0)
def wend (v : Bool) : State := wst (fun w => { w with phase := 6, kaDone := true }) (wa (fun a => { a with viral := v }) w0)

theorem wit_resets (h : Obligations.ResetsBeginAndStandbyFollows) :
    Runs .warmReset w0 ∧ Runs (.smbusWarmReset 0x5752 true) w0 ∧ Runs .jtagWarmReset w0 ∧ Runs .warmReset (wfs false false) ∧
    Runs (.smbusWarmReset 0x5752 true) (wfs false false) ∧
    Runs .stewardWatchdog w0 ∧ Runs (.islandReset 55) w0 ∧ Runs (.islandReset 58) w0 ∧ Runs (.islandReset 3) woff ∧
    Runs (.knownAnswerCheck []) (phase 3 w0) ∧ Runs (.knownAnswerCheck [{ kind := 0, unit := 31, phys := 16 }]) (phase 3 w0) ∧
    Runs .standbyEntry (wend false) ∧ Runs .standbyEntry (wend true) :=
  ⟨runs ((h.1.1 w0 rfl).1 rfl rfl rfl).1, runs ((h.1.1 w0 rfl).1 rfl rfl rfl).2.1,
   runs (((h.1.1 w0 rfl).1 rfl rfl rfl).2.2 (by decide)), runs ((h.1.1 (wfs false false) rfl).2 rfl).1,
   runs ((h.1.1 (wfs false false) rfl).2 rfl).2,
   runs (h.1.2.1 w0 rfl), runs ((h.1.2.2 w0 55 rfl).1 (by decide) (by decide) (.inl rfl)),
   runs ((h.1.2.2 w0 58 rfl).1 (by decide) (by decide) (.inl rfl)), runs ((h.1.2.2 woff 3 rfl).2 rfl rfl),
   runs (h.2.1 (phase 3 w0) [] rfl rfl (by decide) rfl), runs (h.2.1 (phase 3 w0) _ rfl rfl (by decide) rfl),
   runs (h.2.2 (wend false) rfl rfl rfl rfl), runs (h.2.2 (wend true) rfl rfl rfl rfl)⟩

/-- Phase results with all 32 channels trained. -/
def allCh : PhaseIn := { chans := (List.range 32).map fun c => (c, 3600) }

theorem wit_recovery (h : Obligations.RecoveryGoesThroughItsPhases) :
    Runs (.recoveryPhaseComplete {}) w0 ∧ Runs (.recoveryPhaseComplete allCh) (phase 1 w0) ∧ Runs (.recoveryPhaseComplete {}) (phase 1 w0) ∧
    Runs (.recoveryPhaseComplete { tableOk := false }) (phase 2 w0) ∧ Runs (.recoveryPhaseComplete { bootOk := false }) (phase 2 w0) ∧
    Runs (.recoveryPhaseComplete {}) (phase 2 w0) ∧ Runs (.recoveryPhaseComplete {}) (phase 3 w0) ∧ Runs (.recoveryPhaseComplete {}) (phase 4 w0) ∧
    Runs (.recoveryPhaseComplete {}) (phase 5 (served .recovery w0)) :=
  ⟨runs ((h w0 {} rfl (.inl rfl) rfl).1 rfl), runs ((h (phase 1 w0) allCh rfl (.inl rfl) rfl).2.1 rfl),
   runs ((h (phase 1 w0) {} rfl (.inl rfl) rfl).2.1 rfl), runs ((h (phase 2 w0) { tableOk := false } rfl (.inl rfl) rfl).2.2.1 rfl rfl rfl),
   runs ((h (phase 2 w0) { bootOk := false } rfl (.inl rfl) rfl).2.2.2.1 rfl rfl rfl),
   runs ((h (phase 2 w0) {} rfl (.inl rfl) rfl).2.2.2.2.1 rfl rfl rfl), runs ((h (phase 3 w0) {} rfl (.inl rfl) rfl).2.2.2.2.2.1 rfl),
   runs ((h (phase 4 w0) {} rfl (.inl rfl) rfl).2.2.2.2.2.2.1 rfl),
   runs ((h (phase 5 (served .recovery w0)) {} rfl (.inr rfl) rfl).2.2.2.2.2.2.2 rfl)⟩

def wgoal (k : Nat) (wk : Bool) : State := wst (fun w => { w with goal := some 3, pwStep := k, wake := wk }) w0
def wexit : State := wst (fun w => { w with exiting := true, pstate := 3 }) w0
def wpow (l : List Nat) : State := wa (fun a => { a with powerSamples := l }) w0

theorem wit_powerStates (h : Obligations.PowerStatesHeatAndClocksChange) :
    Runs .powerStateReversiblePoint (wgoal 2 true) ∧ Runs .powerStateReversiblePoint (wgoal 0 false) ∧
    Runs .powerStateReversiblePoint (wgoal 6 false) ∧ Runs .powerStateReversiblePoint (wgoal 7 false) ∧ Runs (.powerStateWake 4) (wgoal 2 false) ∧
    Runs (.powerStateWake 0) (goal 3 w0) ∧ Runs (.powerStateWake 3) (goal 2 w0) ∧ Runs .powerStateExitComplete wexit ∧
    Runs (.powerMeanSample 5) w0 ∧ Runs .powerClockStep (wpow [800001]) ∧ Runs .powerClockStep (wpow [779999]) ∧
    Runs (.thermalSample (List.replicate 212 1520) []) w0 ∧
    Runs .thermalTrip (wa (fun a => { a with critSince := some 0, uptime := 10000 }) w0) ∧ Runs (.refclkLoss 0) w0 ∧ Runs (.refclkLoss 1) w0 ∧
    Runs (.refclkLoss 2) w0 ∧ Runs (.refclkReturn 0) w0 ∧ Runs (.refclkReturn 2) w0 :=
  ⟨runs ((h.1.1 (wgoal 2 true) 3 rfl rfl).1 rfl), runs ((h.1.1 (wgoal 0 false) 3 rfl rfl).2.1 rfl (by decide) (by decide)),
   runs ((h.1.1 (wgoal 6 false) 3 rfl rfl).2.1 rfl (by decide) (by decide)), runs ((h.1.1 (wgoal 7 false) 3 rfl rfl).2.2 rfl rfl),
   runs ((h.1.2.1 (wgoal 2 false) 4 rfl (by decide) (by decide) rfl).1 rfl),
   runs ((h.1.2.1 (goal 3 w0) 0 rfl (by decide) (by decide) rfl).2 rfl (by decide)),
   runs ((h.1.2.1 (goal 2 w0) 3 rfl (by decide) (by decide) rfl).2 rfl (by decide)), runs (h.1.2.2 wexit rfl rfl),
   runs (h.2.1 w0 5 rfl), runs ((h.2.2.1 (wpow [800001]) rfl).1 (by decide)), runs ((h.2.2.1 (wpow [779999]) rfl).2 (by decide)),
   runs (h.2.2.2.1 w0 (List.replicate 212 1520) [] rfl List.length_replicate),
   runs (h.2.2.2.2.1 (wa (fun a => { a with critSince := some 0, uptime := 10000 }) w0) 0 rfl rfl (by decide) rfl),
   runs ((h.2.2.2.2.2.1 w0 rfl).1 rfl), runs ((h.2.2.2.2.2.1 w0 rfl).2.1 rfl), runs ((h.2.2.2.2.2.1 w0 rfl).2.2 rfl),
   runs (h.2.2.2.2.2.2 w0 0), runs (h.2.2.2.2.2.2 w0 2)⟩

theorem wit_sideband (h : Obligations.SidebandAnswersFromTheMirror) :
    Runs .smbusMirrorUpdate w0 ∧ Runs (.smbusThermal true) w0 ∧ Runs (.smbusIdent false) w0 ∧ Runs (.smbusUndefinedCode 200 true) w0 ∧
    Runs .jtagIdcode w0 ∧ Runs (.jtagBypass 9) w0 ∧ Runs .jtagSamplePreload w0 ∧ Runs .jtagExtest (wa (fun a => { a with straps := 16 }) w0) ∧
    Runs .jtagHighz w0 :=
  ⟨runs (h.1 w0 rfl), runs (h.2.1 w0).2.2.2.2.2.2.2.2.1, runs (h.2.1 w0).1.2, runs (h.2.2.1 w0 200 (by decide)),
   runs (h.2.2.2 w0 0 (by decide)).1, runs (h.2.2.2 w0 9 (by decide)).2.1, runs (h.2.2.2 w0 0 (by decide)).2.2.1,
   runs (h.2.2.2 (wa (fun a => { a with straps := 16 }) w0) 0 (by decide)).2.2.2.1, runs (h.2.2.2 w0 0 (by decide)).2.2.2.2.2.2⟩

def wspdm (p : SpdmPhase) : State := wst (fun w => { w with spdm := p, spdmSess := some 1, sessCtr := 1 }) w0
def wact (k : Option Nat) : State := wst (fun w => { w with busy := true, activating := k }) w0
def fimg : Bytes := zeros 512
def wfw : State := wz 0x0410 (bod [(8, toLe 4 512), (0x0C, zeros 4)]) w0

theorem wit_firmware (h : Obligations.FirmwareStartsAndSpdmConnects) (hv : imageValid w0.stew (slice fimg 0 512) = true) :
    Runs (.fwLoad 0 fimg) wfw ∧ Runs (.fwLoad 0 (putAt fimg 6 [1])) wfw ∧ Runs (.fwActivate 0) (wz 0x0411 [0] w0) ∧
    Runs .fwActivateTimeout (at_ (2 * 10 ^ 8) (wact (some 1))) ∧ Runs .stewardRestartComplete (wact none) ∧
    Runs .stewardRestartComplete (wact (some 1)) :=
  ⟨runs ((h.1.1 wfw 0 fimg _ ⟨rfl, rfl⟩ rfl (by decide) (by decide)).2 (by decide +kernel) hv),
   runs ((h.1.1 wfw 0 (putAt fimg 6 [1]) _ ⟨rfl, rfl⟩ rfl (by decide) (by decide)).1 6 (by decide +kernel)),
   runs (h.1.2.1 (wz 0x0411 [0] w0) 0 _ ⟨rfl, rfl⟩ (by decide) rfl (by decide) (by decide) (by decide) (by decide)),
   runs (h.1.2.2.1 (at_ (2 * 10 ^ 8) (wact (some 1))) 1 rfl rfl (by decide)), runs ((h.1.2.2.2 (wact none) rfl rfl).1 rfl),
   runs ((h.1.2.2.2 (wact (some 1)) rfl rfl).2 1 rfl)⟩

theorem wit_spdm (h : Obligations.FirmwareStartsAndSpdmConnects) :
    Runs .getVersion w0 ∧ Runs .getCapabilities (wspdm .versioned) ∧ Runs (.negotiateAlgorithms true) (wspdm .capable) ∧
    Runs .getDigests (wspdm .negotiated) ∧ Runs (.getCertificate 0 0 512) (wspdm .session) ∧ Runs (.challenge 0) (wspdm .sessionOpening) ∧
    Runs (.getMeasurements 6) (wspdm .session) ∧ Runs (.keyExchange 0) (wspdm .negotiated) ∧ Runs (.finish true) (wspdm .sessionOpening) ∧
    Runs (.heartbeat 1) (wspdm .session) ∧ Runs (.keyUpdate 1) (wspdm .session) ∧ Runs (.endSession 1) (wspdm .session) :=
  ⟨runs (h.2 w0 rfl).1, runs ((h.2 (wspdm .versioned) rfl).2.1 rfl), runs ((h.2 (wspdm .capable) rfl).2.2.1 rfl),
   runs ((h.2 (wspdm .negotiated) rfl).2.2.2.1 rfl).1, runs (((h.2 (wspdm .session) rfl).2.2.2.1 rfl).2.1 0 512),
   runs ((h.2 (wspdm .sessionOpening) rfl).2.2.2.1 rfl).2.2.1, runs (((h.2 (wspdm .session) rfl).2.2.2.1 rfl).2.2.2 rfl 6 (by decide) (by decide)),
   runs ((h.2 (wspdm .negotiated) rfl).2.2.2.2.1 rfl), runs ((h.2 (wspdm .sessionOpening) rfl).2.2.2.2.2.1 rfl),
   runs ((h.2 (wspdm .session) rfl).2.2.2.2.2.2 1 rfl rfl).1, runs ((h.2 (wspdm .session) rfl).2.2.2.2.2.2 1 rfl rfl).2.1,
   runs ((h.2 (wspdm .session) rfl).2.2.2.2.2.2 1 rfl rfl).2.2⟩

/-- A KEY_LOAD message of 64 bytes with halves that differ, waiting or about to be sent. -/
def kmsg (code : Nat) : Bytes := msg code (putAt (zeros (if code = 0x0407 then 64 else 0)) 0 (if code = 0x0407 then [1] else []))
def wkr (code : Nat) (s : State) : State := wst (fun w => { w with kreq := some (0, kmsg code) }) s
def wprot : State := wobj { o9 with protected_ := true } w0

theorem wit_keys (h : Obligations.KeysAndCxlCommandsAnswer) :
    Runs (.vendorDefinedRequest 1 (kmsg 0x0407)) (served .standby (wspdm .session)) ∧
    Runs (.vendorDefinedRequest 2 (kmsg 0x0407)) (served .standby (wspdm .session)) ∧ Runs .keyLoad (wkr 0x0407 w0) ∧
    Runs .keyDestroy (wkr 0x0408 w0) ∧ Runs .keyDestroy (wkr 0x0408 wprot) ∧ Runs .cxlIdentifyMemoryDevice w0 ∧ Runs .cxlClearEventRecords w0 ∧
    Runs (.cxlUnsupportedCommand 0x4001) w0 := by
  obtain ⟨⟨st, d⟩, h1, -⟩ := exSome (x := kBad (served .standby (wspdm .session)) (kmsg 0x0407) (inSession (served .standby (wspdm .session)) 2))
    (p := fun _ => true) (by decide +kernel)
  exact ⟨runs ((h.1.1 (served .standby (wspdm .session)) 1 (kmsg 0x0407) rfl rfl).1 (by decide +kernel)),
    runs ((h.1.1 (served .standby (wspdm .session)) 2 (kmsg 0x0407) rfl rfl).2 st d h1),
    runs (h.1.2.1 (wkr 0x0407 w0) 0 (kmsg 0x0407) rfl (by decide +kernel) (by decide +kernel)),
    runs ((h.1.2.2 (wkr 0x0408 w0) 0 (kmsg 0x0408) rfl (by decide +kernel)).1 (by decide +kernel)),
    runs ((h.1.2.2 (wkr 0x0408 wprot) 0 (kmsg 0x0408) rfl (by decide +kernel)).2 ⟨_, List.mem_singleton.mpr rfl, rfl, by decide⟩),
    runs (h.2.1 w0 rfl).1, runs (h.2.2.1 w0 rfl), runs (h.2.2.2 w0 0x4001 rfl (by decide))⟩

/-- Tenant 0 with 4,096 bytes of T1 and of T3; MOVE commands on object 9. -/
def wshare (s : State) : State := wst (fun w => { w with cur := { factoryGen with
  pools := ([0, 0, 1, 0, 0, 0, 0, 0] : Bytes) ++ toLe 8 4096 ++ toLe 8 4096 ++ [0, 0, 3, 0, 0, 0, 0, 0] ++ toLe 8 4096 ++ toLe 8 4096 } }) s
def wmv (flags tier : Nat) (o : ObjRec) (s : State) : State :=
  wobj o { s with hif := { (wc (cmd 0x52 (ent [(1, toLe 1 flags), (5, toLe 1 tier), (8, toLe 8 h9)]))).hif with d3 := s.hif.d3 } }
def o3 : ObjRec := { o9 with home := 3 }
def wmv1 : State := wshare (wmv 0 1 o3 w0)
def wmv3 : State := wshare (wmv 0 1 { o3 with st := .resident, upper := 1 } w0)
def wmv2 : State := wshare (wmv 1 3 o9 (wfl [] []))

theorem wit_move (h : Obligations.MovesPromoteEvictAndRehome) :
    Runs (.move 0) wmv1 ∧ Runs (.move 0) wmv3 ∧ Runs (.move 0) (wmv 0 3 { o3 with st := .resident, upper := 1 } w0) ∧
    Runs (.moveRehome 0) (wmv 1 1 o9 w0) ∧ Runs (.moveRehome 0) wmv2 := by
  obtain ⟨s1, h1, -⟩ := exSome (x := moveSpace (hTenant o3.handle) { cmd := 0, evict := false, rehome := false, tier := 1, place := 0 } 4096 false
    (modCmd 0 (fun c => { c with ran := true }) wmv1)) (p := fun _ => true) (by decide +kernel)
  obtain ⟨s2, h2, -⟩ := exSome (x := moveSpace (hTenant o9.handle) { cmd := 0, evict := false, rehome := true, tier := 3, place := 0 } (homeCharge o9) true
    (modCmd 0 (fun c => { c with ran := true }) wmv2)) (p := fun _ => true) (by decide +kernel)
  refine ⟨runs ((h wmv1 0 _ o3 9 rfl rfl ?_ ?_ ?_ rfl).1 ?_ ?_ ?_ rfl ?_ ⟨s1, h1⟩),
    runs ((h wmv3 0 _ _ 9 rfl rfl ?_ rfl ?_ rfl).2.1 ?_ ?_ ?_ rfl rfl rfl ?_ ?_),
    runs ((h (wmv 0 3 { o3 with st := .resident, upper := 1 } w0) 0 _ _ 9 rfl rfl ?_ rfl ?_ rfl).2.2.1 ?_ ?_ rfl rfl rfl rfl rfl ?_),
    runs (((h (wmv 1 1 o9 w0) 0 _ o9 9 rfl rfl ?_ ?_ ?_ rfl).2.2.2 ?_ ?_).1 ?_),
    runs (((h wmv2 0 _ o9 9 rfl rfl ?_ ?_ ?_ rfl).2.2.2 ?_ ?_).2 ?_ rfl ?_ (fun h => absurd h (by decide +kernel)) ⟨s2, h2⟩)⟩
  all_goals decide +kernel

/-- Object 9, home in T4 or T1, in the states of its copy. -/
def oP : ObjRec := { o9 with home := 4, st := .promoting, upper := 1 }
def oE (d : Bool) : ObjRec := { o9 with st := .evicting, upper := 0, dirty := d }
def oW : ObjRec := { o9 with st := .writingBack, upper := 0, dirty := true }
def oC (k : Bool) : ObjRec := { o9 with dirty := true, dirtySince := some 0, checkpoint := k, st := .resident, upper := 0 }

/-- Object 9 at home in T4 with a changed page, due for cleaning. -/
def wclean : State := at_ (3 * 10 ^ 11) (wobj { oC false with home := 4, chanLocal := false, pages := [0] } (wwindow w0))

theorem wit_pooledCleaning (h : Obligations.CopiesPromoteWriteBackAndRelease) : Runs (.cleaningPass 9) wclean := by
  refine runs ((h wclean 9 _ rfl rfl).2.2.2.1 0 rfl ?_ rfl ?_ ?_ ?_ (fun _ => ⟨?_, rfl, window_up ?_ ?_⟩) ?_ ?_)
  all_goals decide +kernel

theorem wit_copies (h : Obligations.CopiesPromoteWriteBackAndRelease) :
    Runs (.promotionCopyComplete 9) (wobj oP w0) ∧ Runs (.writeBackStart 9) (wobj (oE true) w0) ∧ Runs (.writeBackStart 9) (wobj (oE false) w0) ∧
    Runs (.writeBackDurable 9) (wobj oW w0) ∧ Runs (.cleaningPass 9) (at_ (3 * 10 ^ 11) (wobj (oC false) w0)) ∧
    Runs (.cleaningPass 9) (at_ (3 * 10 ^ 11) (wobj (oC true) w0)) ∧ Runs (.rehomeSwitch 9) (wobj { o9 with rehome := some { tier := 4 } } w0) ∧
    Runs (.oldLocationRelease 9) (wobj { o9 with old := some 3 } w0) ∧ Runs (.freeRelease 9) (wobj { o9 with st := .freeing } w0) :=
  by
  refine ⟨runs ((h (wobj oP w0) 9 oP rfl rfl).1 rfl ?_ ?_ ?_ ?_ rfl ?_),
    runs (((h (wobj (oE true) w0) 9 (oE true) rfl rfl).2.1 rfl rfl rfl).1 rfl (.inl ?_)),
    runs (((h (wobj (oE false) w0) 9 (oE false) rfl rfl).2.1 rfl rfl rfl).2 rfl rfl),
    runs ((h (wobj oW w0) 9 oW rfl rfl).2.2.1 rfl rfl rfl ?_ ?_ ?_ ?_),
    runs ((h (at_ (3 * 10 ^ 11) (wobj (oC false) w0)) 9 (oC false) rfl rfl).2.2.2.1 0 rfl ?_ rfl ?_ ?_ ?_ (fun x => absurd x (by decide)) ?_ ?_),
    runs ((h (at_ (3 * 10 ^ 11) (wobj (oC true) w0)) 9 (oC true) rfl rfl).2.2.2.1 0 rfl ?_ rfl ?_ ?_ ?_ (fun x => absurd x (by decide)) ?_ ?_),
    runs ((h (wobj { o9 with rehome := some { tier := 4 } } w0) 9 _ rfl rfl).2.2.2.2.1 _ rfl ?_ rfl ?_ ?_ rfl),
    runs ((h (wobj { o9 with old := some 3 } w0) 9 _ rfl rfl).2.2.2.2.2.1 rfl rfl),
    runs ((h (wobj { o9 with st := .freeing } w0) 9 _ rfl rfl).2.2.2.2.2.2 rfl rfl)⟩
  all_goals decide +kernel

/-- Husk 0, locks, a list with a tombstone, a rebuild that runs. -/
def weng (f : Eng → Eng) (s : State) : State := { s with eng := f s.eng }
def whk (x : Husk) (ls : List Lock) : State := weng (fun e => { e with husks := [(0, x)], nextHusk := 1, locks := ls }) w0
def rA : Range := { space := 1, name := 7, lo := 0, hi := 9, excl := true }
def lkC (held : Bool) : Lock := { husk := false, id := 0, range := rA, held := held }

/-- A husk that names list 1 of collection 7. -/
def xlong : Husk := { hstate := .admitted, actions := [{ kind := 1, coll := 7, arg := 1 }] }
/-- List 1 of collection 7 with so many entries, and that husk. -/
def wlong (es : List LEnt) : State :=
  let s := weng (fun e => { e with husks := [(0, xlong)], nextHusk := 1 }) (wcoll7 w0)
  { s with idx := { s.idx with lists := [(0, { ents := es })] } }
/-- The collection as it stands there. -/
def dlong : Bytes := putAt cdesc 0x10 (toLe 4 3)

theorem long_full (es : List LEnt) (h : es.length = 65536) : explicitFull (wlong es) xlong = some (7, 1) := by
  have hc : collAt (wlong es) 7 (wlong es).eng.epoch = some dlong := by rfl
  have hd : dirEntry (wlong es) dlong 1 (wlong es).eng.epoch = putAt (zeros 16) 8 [1] := by rfl
  have hl : listIdAt (wlong es) dlong 1 (wlong es).eng.epoch = 1 := by
    have ha : deAlias (putAt (zeros 16) 8 [1]) = false := by decide +kernel
    have h3 : coCount dlong = 3 := by decide +kernel
    rw [listIdAt, h3, resolveAlias, hd, ha]; rfl
  have hf : listFullNow (wlong es) dlong 7 1 = true := by
    have h0 : (liveList (wlong es) dlong 7 1).2.ents = es := by
      simp only [liveList, hd]; rfl
    have h1 : pendingAppends (wlong es) 7 1 = 0 := rfl
    rw [listFullNow, listLen, h0, h, h1]; rfl
  have hn : coCount dlong < 1048576 := by decide +kernel
  have hx : deLoc (putAt (zeros 16) 8 [1#8]) = 1 := by decide +kernel
  rw [explicitFull, xlong, List.findSome?_cons]
  simp [hc, hl, hd, hf, hn, hx]

theorem long_list : ∃ es : List LEnt, es.length = 65536 := ⟨List.replicate _ {}, List.length_replicate⟩

/-- Husk 1, younger, holds the range that husk 0 asks for. -/
def wwound : State := weng (fun e => { e with
  husks := [(0, { hstate := .preparing, plan := [rA] }), (1, { hstate := .preparing, age := 1, plan := [rA] })]
  nextHusk := 2, locks := [{ husk := true, id := 1, range := rA, held := true }] }) w0

theorem wit_husks (h : Obligations.HusksLockVersionsAreReclaimed) :
    Runs (.huskAdmission 0) (whk {} []) ∧ Runs (.huskLockRequest 0) (whk { hstate := .admitted, plan := [rA, rA] } []) ∧
    (∃ es, Runs (.huskLockRequest 0) (wlong es)) ∧
    Runs (.huskLockRequest 0) (whk { hstate := .preparing, plan := [rA] } [lkC true]) ∧ Runs (.huskLockRequest 0) wwound ∧
    Runs (.huskLockGrant 0) (whk { hstate := .waiting, plan := [rA] } [{ husk := true, id := 0, range := rA }]) ∧
    Runs (.commandRangeGrant 0) (weng (fun e => { e with locks := [lkC false] }) (wc { cmd 0x32 [] with holds := false })) :=
  ⟨runs (h.1.1 (whk {} []) 0 {} 0 rfl rfl rfl rfl (by decide +kernel) (by decide) (by decide) (by decide) (by decide)),
   runs ((h.1.2.1 (whk { hstate := .admitted, plan := [rA, rA] } []) 0 _ rA [rA] rfl rfl (.inl ⟨rfl, by decide +kernel⟩) rfl rfl (by decide)
     (by decide +kernel)).1 (by decide +kernel) (by decide +kernel) (by decide)),
   (long_list.elim fun es he => ⟨es, runs (h.1.2.2.1 (wlong es) 0 xlong (7, 1) rfl rfl rfl rfl (long_full es he))⟩),
   runs (((h.1.2.1 (whk { hstate := .preparing, plan := [rA] } [lkC true]) 0 _ rA [] rfl rfl (.inr rfl) rfl rfl (by decide)
     (by decide +kernel)).2 (.inl (by decide +kernel))).1 (by decide +kernel)),
   runs (((h.1.2.1 wwound 0 _ rA [] rfl rfl (.inr rfl) rfl rfl (by decide) (by decide +kernel)).2 (.inl (by decide +kernel))).2 1 _ rfl
     (by decide +kernel)),
   runs (h.1.2.2.2.1 (whk { hstate := .waiting, plan := [rA] } [{ husk := true, id := 0, range := rA }]) 0 _ _ rfl rfl (by decide) rfl
     (by decide +kernel) (by decide +kernel) (by decide +kernel)),
   runs (h.1.2.2.2.2 (weng (fun e => { e with locks := [lkC false] }) (wc { cmd 0x32 [] with holds := false })) 0 _ _ rfl rfl rfl rfl (by decide +kernel)
     (by decide +kernel))⟩

def wlist : State := weng (fun e => { e with epoch := 9, oldest := 9, drain := [(9, 0)] })
  { w0 with idx := { w0.idx with lists := [(4, { ents := [{ tomb := true, delEpoch := 8 }] })] } }
def wreb (k c : Nat) (s : State) : State := { s with idx := { s.idx with rebuilds := [(1, { kind := k, coll := c, running := true })] } }

theorem wit_reclaim (h : Obligations.HusksLockVersionsAreReclaimed) :
    Runs .versionReclaim w0 ∧ Runs (.settling 4 0) wlist ∧ Runs (.rebuildShadowComplete 1) (wreb 4 h9 (wobj o9 w0)) ∧
    Runs (.rebuildShadowComplete 1) (wreb 1 7 (wcoll7 w0)) :=
  ⟨runs (h.2.1 w0 rfl), runs (h.2.2.1 wlist 4 0 _ _ rfl rfl rfl rfl rfl (by decide +kernel) (by decide +kernel) (by decide +kernel)),
   runs (h.2.2.2 (wreb 4 h9 (wobj o9 w0)) 1 _ rfl rfl rfl (by decide) (by decide +kernel) (.inl ⟨rfl, by decide +kernel⟩)),
   runs (h.2.2.2 (wreb 1 7 (wcoll7 w0)) 1 _ rfl rfl rfl (by decide) (by decide +kernel)
     (.inr ⟨by decide, putAt cdesc 0x10 (toLe 4 3), by decide +kernel, ⟨fun _ => ⟨by decide +kernel, by decide +kernel⟩, fun x => nomatch x⟩⟩))⟩

/-- A closing record without husks, durable or not; the engine waiting. -/
def jr (d : Bool) : JRec := { seq := 1, epoch := 2, durable := d }
def wclose (d : Bool) (w : Option Nat) : State := weng (fun e => { e with closing := [jr d], waitFor := w }) w0
def wfullDrain (w : Option Nat) (d : Bool) : State :=
  weng (fun e => { e with epoch := 128, drain := (List.range 128).map fun i => (i + 1, if d ∧ i = 0 then 0 else 1), closing := [jr d], waitFor := w }) w0

theorem may_commit (s : State) (r : JRec) (h1 : s.eng.closing = [r]) (h2 : r.durable = true) (h3 : s.eng.drain.length < 128)
    (h4 : ringNeeds s (applyHusks r.epoch r.husks s).2 r.epoch (floorAfter s) = [])
    (h5 : poolFull s (applyHusks r.epoch r.husks s).2 = false) : MayCommit r [] s := ⟨h1, h2, nofun, .inl h3, h4, h5⟩

/-- A computing husk whose destination is object 9 in T3. -/
def wcmp : State := wobj { o9 with home := 3 } (whk { hstate := .computing, actions := [{ kind := 8, target := h9 }] } [])

theorem wit_groups (h : Obligations.GroupsCloseAndCommit) :
    Runs (.elementwiseComputeDone 0) (whk { hstate := .computing } []) ∧ Runs (.elementwiseComputeDone 0) wcmp ∧ Runs (.journalExtentsDurable 0) (whk { hstate := .computing, persistent := true } []) ∧
    Runs .commitGroupClose (at_ (10 ^ 9) (weng (fun e => { e with group := [0] }) (whk { hstate := .grouped } []))) ∧
    Runs .journalRecordDurable (wclose false none) ∧ Runs .journalRecordDurable (wfullDrain none false) ∧ Runs .journalWriteFail (wclose false none) ∧
    Runs .epochRingWaitEnd (wclose true (some 1)) ∧ Runs .versionPoolWaitEnd (wclose true (some 2)) ∧
    Runs (.drainEntryFreed 0) (weng (fun e => { e with drain := [(0, 0), (1, 0)] }) w0) ∧ Runs (.drainEntryFreed 1) (wfullDrain (some 0) true) ∧
    Runs .journalUnavailable (at_ (10 ^ 8) (weng (fun e => { e with jfailAt := some 0 }) w0)) := by
  have hj := h.2.2.1 (wclose false none) _ (jr false) [] rfl rfl rfl (by decide) rfl
  have hk := h.2.2.1 (wfullDrain none false) _ (jr false) [] rfl rfl rfl (by decide) rfl
  exact ⟨runs ((h.1 (whk { hstate := .computing } []) 0 _ rfl rfl rfl).1 rfl rfl (fun o ho => nomatch (show (none : Option ObjRec) = some o from ho)) (by decide +kernel)),
    runs ((h.1 wcmp 0 _ rfl rfl rfl).2.1 _ rfl rfl rfl (by decide) (by decide)),
    runs ((h.1 (whk { hstate := .computing, persistent := true } []) 0 _ rfl rfl rfl).2.2 rfl (by decide +kernel)),
    runs (h.2.1 (at_ (10 ^ 9) (weng (fun e => { e with group := [0] }) (whk { hstate := .grouped } []))) rfl (by decide +kernel) (by decide +kernel)),
    runs (hj.1 (may_commit _ _ rfl rfl (by decide) (by decide +kernel) (by decide +kernel))),
    runs (hk.2.1 (by decide +kernel) (by decide +kernel)), runs hj.2.2,
    runs ((h.2.2.2.1 (wclose true (some 1)) (jr true) [] rfl
      (may_commit _ _ rfl rfl (by decide) (by decide +kernel) (by decide +kernel))).1 rfl),
    runs ((h.2.2.2.1 (wclose true (some 2)) (jr true) [] rfl
      (may_commit _ _ rfl rfl (by decide) (by decide +kernel) (by decide +kernel))).2 rfl),
    runs (h.2.2.2.2.1 (weng (fun e => { e with drain := [(0, 0), (1, 0)] }) w0) 0 rfl (by decide) rfl (by decide)),
    runs (h.2.2.2.2.2.1 (wfullDrain (some 0) true) 1 (jr true) [] rfl (by decide) (by decide +kernel) rfl
      (may_commit _ _ rfl rfl (by decide +kernel) (by decide +kernel) (by decide +kernel))),
    runs (h.2.2.2.2.2.2 (at_ (10 ^ 8) (weng (fun e => { e with jfailAt := some 0 }) w0)) 0 rfl rfl rfl (by decide))⟩

/-- A sheaf 3 of tenant 0 with stages of given roles and flags, its flags, window; stage 0 on tiles 8 and 9, stage 1 on 10 and 11. -/
def stg (role fl base nx : Nat) : Bytes :=
  ent [(0, toLe 1 role ++ toLe 1 fl ++ toLe 2 base ++ [2, 1, 4]), (8, toLe 1 nx ++ [0xFF]), (0x0C, toLe 4 4096 ++ toLe 4 4096 ++ toLe 4 4096 ++ toLe 4 4096)]
def shd (fl win r0 f0 r1 f1 : Nat) : Bytes :=
  putAt (putAt (putAt (zeros 1088) 0 ([3, 0, 0, 0, 2] ++ toLe 1 fl ++ toLe 2 4 ++ toLe 4 win)) 0x40 (stg r0 f0 8 1)) 0x80 (stg r1 f1 10 255)
def wsh (d : Bytes) (f : Shv → Shv) (s : State) : State :=
  { wst (fun w => { w with cur := { factoryGen with sheaves := d } }) s with shv := f s.shv }
/-- A command of that sheaf, its items waiting or inside. -/
def scmd (d : Bytes) : Cmd := { qp := 5, sheaf := some 3, desc := d, ran := true, items := 1 }
def wsc (d : Bytes) (c : Cmd) (f : Shv → Shv) : State := wsh d f (wc c)
def bat : Batch := { seq := 0, items := [{ cmd := 0, idx := 0 }] }
def inS (i k : Nat) (r : StageRt) (v : Shv) : Shv := { v with stages := [(stKey 3 i k, r)] }
def dS (win : Nat) : Bytes := shd 0 win 3 0 3 0
def dM : Bytes := shd 0 0 3 1 3 0
def edge1 : Edge := { held := [0] }
def wdead (c : Cmd) : State := wsc (dS 0) c fun v => { v with absent := [8, 9] }
def wopen (t : Nat) : State := wsc (dS 9) (scmd (dS 9)) fun v => { v with rts := [(3, { open_ := bat.items, since := some t })] }

theorem wit_head (h : Obligations.ItemsFormBatchesThatStagesRun) :
    Runs (.headStageItemArrival 0) (wdead { scmd (dS 0) with peer := none }) ∧
    Runs (.headStageItemArrival 0) (wdead { scmd (dS 0) with peer := some (5, 1) }) ∧
    Runs (.headStageItemArrival 0) (wsc (dS 0) (scmd (dS 0)) id) ∧ Runs (.headStageItemArrival 0) (wsc (dS 9) (scmd (dS 9)) id) ∧
    Runs (.batchWindowExpiry 3) (at_ 9 (wopen 0)) := by
  refine ⟨runs (((h.1.1 (wdead { scmd (dS 0) with peer := none }) 0 3 _ rfl rfl rfl rfl ?_ ?_).1 ?_).1 rfl),
    runs (((h.1.1 (wdead { scmd (dS 0) with peer := some (5, 1) }) 0 3 _ rfl rfl rfl rfl ?_ ?_).1 ?_).2 _ rfl),
    runs ((h.1.1 (wsc (dS 0) (scmd (dS 0)) id) 0 3 _ rfl rfl rfl rfl ?_ ?_).2 ?_),
    runs ((h.1.1 (wsc (dS 9) (scmd (dS 9)) id) 0 3 _ rfl rfl rfl rfl ?_ ?_).2 ?_),
    runs (h.1.2 (at_ 9 (wopen 0)) 3 0 rfl rfl ?_ ?_)⟩
  all_goals decide +kernel

def wrun0 (d : Bytes) (r : StageRt) : State := wsc d (scmd d) (inS 0 0 { r with running := some bat })
def wready : State := wsc (dS 0) (scmd (dS 0)) fun v => { inS 0 0 { inputs := [(255, bat)] } v with edges := [(edKey 3 0 1, edge1)] }

theorem wit_stages (h : Obligations.ItemsFormBatchesThatStagesRun) :
    Runs (.stageBatchStart 3 0 0) wready ∧
    Runs (.stageBatchFinish 3 0 0) (wrun0 (dS 0) {}) ∧ Runs (.stageBatchFinish 3 0 0) (wrun0 dM { sent := [(0, 0)] }) ∧
    Runs (.creditReturnArrival 3 0 1) (wsc (dS 0) (scmd (dS 0)) fun v => { v with edges := [(edKey 3 0 1, { freed := 1 })] }) ∧
    Runs (.stageGenerationSwitch 8) (wsc (dS 0) (scmd (dS 0)) fun v => { v with switching := [8] }) := by
  obtain ⟨b, h1, hb⟩ := exSome (x := startable wready 3 0 0) (p := fun b => b == bat) (by decide +kernel)
  obtain rfl : b = bat := by simpa using hb
  refine ⟨runs (h.2.1 wready 3 0 0 bat rfl h1 ?_), runs (h.2.2.1 (wrun0 (dS 0) {}) 3 0 0 bat rfl rfl ?_),
    runs (h.2.2.1 (wrun0 dM { sent := [(0, 0)] }) 3 0 0 bat rfl rfl ?_),
    runs (h.2.2.2.1 (wsc (dS 0) (scmd (dS 0)) fun v => { v with edges := [(edKey 3 0 1, { freed := 1 })] }) 3 0 1 { freed := 1 } rfl rfl ?_ ?_),
    runs (h.2.2.2.2 (wsc (dS 0) (scmd (dS 0)) fun v => { v with switching := [8] }) 8 rfl ?_)⟩
  all_goals decide +kernel

/-- A running batch whose awn has a stretch of object 9 left to read, or an operation to send; an ELEMENTWISE command that computes. -/
def seg9 (off : Nat) (c : Option Nat) : Seg := { users := [(0, 0)], handle := h9, off := off, stop := off + 64, culm := c, objs := c.toList.map fun _ => h9 }
def wread (g : Seg) : State := wobj o9 (wrun0 (dS 0) { streams := [{ left := [g] }] })
def wewh (o : ObjRec) : State := wobj o (wsh (dS 0) id { wew 2 with
  hif := { (wew 2).hif with cmds := [(0, { cmd 0x35 (ewEnt 2) with sheaf := some 3, desc := dS 0, ran := true })] },
  eng := { w0.eng with husks := [(0, { cmd := some 0, hstate := .computing })] } })

theorem wit_awns (h : Obligations.AwnsReadAndLand) :
    Runs (.awnReadIssue 3 0 0 false) (wread (seg9 4096 none)) ∧ Runs (.awnReadIssue 3 0 0 false) (wread (seg9 4032 none)) ∧
    Runs (.awnReadIssue 3 0 0 false) (wread (seg9 0 (some 0))) ∧ Runs (.awnReadIssue 3 0 0 true) (wewh o9) ∧
    Runs (.awnReadIssue 3 0 0 true) (wewh { o9 with chanLocal := false }) := by
  have issue (g : Seg) (hl : awnBatch (wread g) 3 0 0 = some bat) :=
    h.1 (wread g) 3 0 0 bat _ _ g [] rfl hl rfl rfl
  refine ⟨runs ((issue (seg9 4096 none) ?_ ?_ ?_).1 ?_),
    runs (((issue (seg9 4032 none) ?_ ?_ ?_).2 ?_ ?_).1 o9 1 64 rfl rfl ?_ ?_ ?_),
    runs (((issue (seg9 0 (some 0)) ?_ ?_ ?_).2 ?_ ?_).2 0 rfl ?_ ?_),
    runs ((h.2.1 (wewh o9) 3 0 0 0 _ _ rfl rfl ?_ ?_ ?_).1 ?_ ?_ ?_),
    runs ((h.2.1 (wewh { o9 with chanLocal := false }) 3 0 0 0 _ _ rfl rfl ?_ ?_ ?_).2 h9 ?_ ?_ ?_)⟩
  all_goals decide +kernel

def wrds (a : AwnRd) (s : State) : State := { s with shv := { s.shv with reads := [(0, a)], nextRead := 1 } }
def rdSeen (us : List (Nat × Nat)) : AwnRd := { seen := true, lead := true, users := us }

theorem wit_landing (h : Obligations.AwnsReadAndLand) :
    Runs (.awnDirectoryRead 0) (wrds { tag := some 0 } w0) ∧ Runs (.awnDataLand 0 true) (wrds (rdSeen [(0, 0)]) (wc {})) ∧
    Runs (.awnDataLand 0 false) (wrds (rdSeen [(5, 0)]) w0) := by
  refine ⟨runs (h.2.2.1 (wrds { tag := some 0 } w0) 0 _ rfl rfl rfl ?_ rfl),
    runs (h.2.2.2 (wrds (rdSeen [(0, 0)]) (wc {})) 0 true _ rfl ?_ rfl rfl rfl rfl rfl ?_ rfl (fun _ _ w hw => nomatch (show w ∈ ([] : List Nat) from hw))),
    runs (h.2.2.2 (wrds (rdSeen [(5, 0)]) w0) 0 false _ rfl ?_ rfl rfl rfl rfl rfl ?_ rfl (fun _ _ w hw => nomatch (show w ∈ ([] : List Nat) from hw)))⟩
  all_goals decide +kernel

/-- A SPLIT stage whose batch waits for its merge, and slots of the stook; a leaf of it that has its list. -/
def wstk (sl rt : List StSlot) : State :=
  wsc dM (scmd dM) fun v => { v with
    waitMerge := [(3, 0, bat)], slots := sl, rootOut := rt, edges := [(edKey 3 0 1, edge1)] }
def sl1 (e : Nat) (m : Bool) : StSlot := { engine := e, sheaf := 3, stage := 0, kids := [(0, {})], need := 1, merging := m }
def wleaf : State := wsc dM (scmd dM) (inS 0 1 { running := some bat })

theorem wit_stook (h : Obligations.TheStookMergesLists) :
    Runs (.stookListArrival ⟨3, 0⟩ 1) wleaf ∧ Runs (.stookMergeStart 1) (wstk [sl1 1 false] []) ∧
    Runs (.stookMergeComplete 72) (wstk [sl1 72 true] []) ∧ Runs (.stookMergeComplete 1) (wstk [sl1 1 true] []) ∧
    Runs (.stookRootDelivery 3 0) (wstk [] [sl1 72 false]) := by
  obtain ⟨⟨x, sl⟩, h1, -⟩ := exSome (x := leafSend wleaf 3 0 1 bat) (p := fun _ => true) (by decide +kernel)
  obtain ⟨sm, h2, -⟩ := exSome (x := putLeafList { sl1 1 true with
      engine := stookUp 1, need := stookNeed (wstk [sl1 1 true] []) (stookEntry (wstk [sl1 1 true] []) 3 0 0) (stookUp 1) } (1 % 8)
      (mergeParts (sl1 1 true).fp (sl1 1 true).order (sl1 1 true).k ((sl1 1 true).kids.map Prod.snd))
      ((wstk [sl1 1 true] []).shv.slots.filter fun y => !sameSlot (sl1 1 true) y)) (p := fun _ => true) (by decide +kernel)
  refine ⟨runs (h.1 wleaf 3 0 1 bat x sl rfl rfl ?_ ?_ ?_ h1),
    runs (h.2.1 (wstk [sl1 1 false] []) 1 rfl ?_ ?_ ⟨sl1 1 false, .head _, rfl, rfl, ?_⟩),
    runs ((h.2.2.1 (wstk [sl1 72 true] []) 72 _ rfl rfl).1 rfl),
    runs ((h.2.2.1 (wstk [sl1 1 true] []) 1 (sl1 1 true) rfl rfl).2 ?_ sm h2),
    runs (h.2.2.2 (wstk [] [sl1 72 false]) 3 0 bat _ rfl rfl rfl ?_)⟩
  all_goals decide +kernel

/-- An EXPERT stage that runs a batch with expert 5 chosen; the table under handle h9, expert 5 with a fallback. -/
def dX (fl : Nat) : Bytes := putAt (shd fl 0 3 0 6 0) (0x80 + 0x20) (toLe 8 h9)
def xcmd (fl : Nat) : Cmd := { scmd (dX fl) with opcode := 0x30, entry := ent [(0, [0x30])], sels := [{ slots := [(5, 0)], runs := [5] }] }
def wexp (fl : Nat) (r : StageRt) : State :=
  let s := wobj o9 (wsc (dX fl) (xcmd fl) (inS 1 0 { r with running := some bat }))
  { s with idx := { s.idx with vers := [
    { table := h9, index := 5, data := some (ent [(0, toLe 8 (mkHandle 0 2 8 1)), (0x18, [5])]) },
    { table := h9, index := 2 ^ 64 - 1, data := some (ent [(0, [64]), (0x10, toLe 8 h9)]) }] } }
def wpool (p : StagePool) (s : State) : State := { s with shv := { s.shv with pools := [(h9, p)] } }
def h8 : Nat := mkHandle 0 2 8 1
def wreqx : State := wpool { pending := [(3, 0, 5, 0)] } (wexp 0 {})
/-- Expert 5 present as a staged copy, its slices read or not. -/
def wpres (r : StageRt) : State := wpool { copies := [(h8, true, 64, 0)] } (wexp 0 r)
def k5 : ExKey := (5, 0, h9)

theorem wit_tillers (h : Obligations.TillersSwapAndExpertsAreStaged) :
    Runs (.tillerSwapStart 8) (wsh (dS 0) (fun v => { v with swapping := [(8, 16)] }) w0) ∧
    Runs (.tillerSwapComplete 8) (wsh (dS 0) (fun v => { v with swapping := [(8, 48)] }) w0) := by
  refine ⟨runs (h.1.1 (wsh (dS 0) (fun v => { v with swapping := [(8, 16)] }) w0) 8 16 rfl rfl ?_ ?_ ?_ ?_ (fun _ => .inl rfl)),
    runs (h.1.2 (wsh (dS 0) (fun v => { v with swapping := [(8, 48)] }) w0) 8 48 rfl rfl ?_ ?_ ?_)⟩
  all_goals decide +kernel

theorem wit_experts (h : Obligations.TillersSwapAndExpertsAreStaged) :
    Runs (.expertStagingGrant h9) wreqx ∧ Runs (.expertStagingComplete h9 h8) (wpool { copies := [(h8, false, 64, 0)] } (wexp 0 {})) ∧
    Runs (.expertReach 3 1 0) (wpres { streams := [{ got := [k5] }] }) ∧ Runs (.expertReach 3 1 0) (wpres {}) ∧
    Runs (.expertReach 3 1 0) (wexp 0 {}) ∧ Runs (.expertReach 3 1 0) (wexp 1 {}) ∧
    Runs (.expertDeadlineExpiry 3 1 0) (wexp 1 { holdOn := some k5 }) := by
  have reach (s : State) (hh : halted s = false) (hr : (stageOf s (stKey 3 1 0)).running = some bat) := h.2.2.2.1 s 3 1 0 bat k5 hh hr
  refine ⟨runs (h.2.1 wreqx h9 (3, 0, 5, 0) rfl ?_ ?_ ?_ ?_),
    runs (h.2.2.1 (wpool { copies := [(h8, false, 64, 0)] } (wexp 0 {})) h9 h8 rfl ?_ ?_),
    runs ((reach (wpres { streams := [{ got := [k5] }] }) rfl rfl ?_ ?_ ?_).1 ?_ ?_),
    runs ((reach (wpres {}) rfl rfl ?_ ?_ ?_).2.1 ?_ ?_),
    runs ((reach (wexp 0 {}) rfl rfl ?_ ?_ ?_).2.2.1 ?_ ?_),
    runs ((reach (wexp 1 {}) rfl rfl ?_ ?_ ?_).2.2.2 ?_ ?_),
    runs (h.2.2.2.2 (wexp 1 { holdOn := some k5 }) 3 1 0 bat k5 rfl rfl rfl ?_ ?_)⟩
  all_goals decide +kernel

def wcu (k : Nat) (u : Culm) (s : State) : State := { s with stk := { s.stk with culms := [(k, u)] } }
def wcop (op : Nat) (b : Bytes) : State := wcu 511 { queue := [{ op := op, body := b }] } w0
/-- Bodies of operations: SCAN of a list, element-wise on n BF16 elements, ATTEND over n positions. -/
def bScan : Bytes := ent [(0, [1]), (0x14, [6, 1])]
def bEw (op n : Nat) : Bytes := ent [(0, toLe 1 op), (0x1C, toLe 4 n), (0x20, [2]), (0x24, [2]), (0x28, [2])]
def bAtt (n : Nat) : Bytes := ent [(0, [6]), (0x20, [2]), (0x24, [2]), (0x28, toLe 4 n), (0x2C, [1]), (0x34, [32, 0, 1, 1, 2])]

theorem scan_ok : scanOk { op := 1, body := bScan } = true := by
  have h : fld bScan 0x10 4 = 0 := by decide +kernel
  have h2 : withinObj 0 0 = 0 := Nat.zero_sub _
  simp only [scanOk, h, List.headD, h2]
  decide +kernel

theorem wit_culms (h : Obligations.CulmsRunReturnAndAreReplaced) :
    Runs (.culmScanOp 511) (wcop 1 []) ∧ Runs (.culmScanOp 511) (wcop 1 bScan) ∧ Runs (.culmAddOp 511) (wcop 2 []) ∧
    Runs (.culmAddOp 511) (wcop 2 (bEw 2 0)) ∧ Runs (.culmAddOp 511) (wcop 2 (bEw 2 32)) ∧ Runs (.culmMulOp 511) (wcop 3 (bEw 3 32)) ∧
    Runs (.culmActOp 511) (wcop 4 (bEw 4 32)) ∧ Runs (.culmConvertOp 511) (wcop 5 (bEw 5 32)) ∧ Runs (.culmAttendOp 511) (wcop 6 []) ∧
    Runs (.culmAttendOp 511) (wcop 6 (bAtt 2)) ∧ Runs (.culmAttendOp 511) (wcop 6 (bAtt 1)) := by
  refine ⟨runs ((h.1.1 (wcop 1 []) 511 _ rfl rfl).1 ?_), runs ((h.1.1 (wcop 1 bScan) 511 _ rfl rfl).2 scan_ok),
    runs ((h.1.2.1 (wcop 2 []) 511 rfl _ rfl).1 ?_), runs ((h.1.2.1 (wcop 2 (bEw 2 0)) 511 rfl _ rfl).2.1 ?_ ?_),
    runs ((h.1.2.1 (wcop 2 (bEw 2 32)) 511 rfl _ rfl).2.2 ?_ ?_), runs ((h.1.2.2.1 (wcop 3 (bEw 3 32)) 511 rfl _ rfl).2.2 ?_ ?_),
    runs ((h.1.2.2.2.1 (wcop 4 (bEw 4 32)) 511 rfl _ rfl).2.2 ?_ ?_), runs ((h.1.2.2.2.2.1 (wcop 5 (bEw 5 32)) 511 rfl _ rfl).2.2 ?_ ?_),
    runs ((h.1.2.2.2.2.2 (wcop 6 []) 511 _ rfl rfl).1 ?_), runs ((h.1.2.2.2.2.2 (wcop 6 (bAtt 2)) 511 _ rfl rfl).2.1 ?_ ?_),
    runs ((h.1.2.2.2.2.2 (wcop 6 (bAtt 1)) 511 _ rfl rfl).2.2 ?_ ?_)⟩
  all_goals decide +kernel

theorem wit_culmResults (h : Obligations.CulmsRunReturnAndAreReplaced) :
    Runs (.culmResultReturn 511) (wcu 511 { results := [(0, 0, [])] } w0) ∧
    Runs (.culmResultReturn 511) (wcu 511 { results := [(0, 0x0102, [])] } (wrds { rdSeen [(0, 0)] with culm := true } (wc {}))) ∧
    Runs (.culmSubstitution 511) (wcu 511 { held := true } w0) ∧
    Runs (.pseudoChannelGrant 511 1 64) w0 ∧ Runs (.pseudoChannelGrant 511 3 64) (wcu 511 { waitSet := 3, phyBytes := 5, culmBytes := 2 } w0) :=
  ⟨runs (h.2.1 (wcu 511 { results := [(0, 0, [])] } w0) 511 _ _ rfl rfl (by decide +kernel)),
   runs (h.2.1 (wcu 511 { results := [(0, 0x0102, [])] } (wrds { rdSeen [(0, 0)] with culm := true } (wc {}))) 511 _ _ rfl rfl (by decide +kernel)),
   runs (h.2.2.1 (wcu 511 { held := true } w0) 511 rfl rfl), runs (h.2.2.2 w0 511 1 64 rfl (by decide) (by decide)),
   runs (h.2.2.2 (wcu 511 { waitSet := 3, phyBytes := 5, culmBytes := 2 } w0) 511 3 64 rfl (by decide) (by decide))⟩

/-! An ill-formed term for each check of WellFormed, which refuses it: an operand at the first value past its range. -/

theorem wf_refuses_1 : ∀ c ∈ ([
    .sqTailDoorbell 1024 0 0, .cqHeadDoorbell 1024 0 0, .sqEntryFetch 4096 (zeros 64), .sqEntryFetch 0 [],
    .commandAdmission 4096, .admissionWaitEnd 4096, .waitGeTimeout 4096, .completionDrain 4096, .queueDrainTimeout 4096,
    .coalesceTimeout 4096, .msixEntryUnmask 1024 0, .msixEntryUnmask 0 2048, .queueErrorClear 64 0, .queueStatusClear 1024
    0 0, .registerLowHalfRead 1024 0, .registerWriteOther 1024 0 0 0, .mbxWindowWrite 1024 0 0 [], .mbxWindowWrite 0 1024
    0 [], .mbxDoorbellRing 1024 0 0, .mbxDoorbellRing 0 1024 0, .mbxStatusClear 1024 0 0, .mbxStatusClear 0 1024 0,
    .mbxReleaseRead 1024 0, .mbxReleaseRead 0 1024] : List Instr), c.wf = false := by decide
theorem wf_refuses_2 : ∀ c ∈ ([
    .mbxResponsePost 1024, .mbxEventDeliver 1024, .queueCreate 1024, .queueDelete 1024, .queueReset 1024, .vectorBind
    1024, .vectorUnbind 1024, .windowMap 1024, .windowUnmap 1024, .timePost 1024, .powerSet 1024, .genApply 1024 [],
    .rollback 1024, .genRead 1024, .sheafStats 1024, .convertStats 1024, .collectionCreate 1024, .collectionChange 1024,
    .collectionDelete 1024, .collectionStats 1024, .rebuildSweep 1024, .rebuildSplit 1024, .rebuildMerge 1024,
    .rebuildRetrain 1024] : List Instr), c.wf = false := by decide
theorem wf_refuses_3 : ∀ c ∈ ([
    .rebuildRehash 1024, .tableWrite 1024 [], .zalpolHusk 1024 [] [], .objectQuery 1024, .objectTransfer 1024,
    .binderAlloc 1024, .binderFree 1024, .binderRead 1024, .format 1024, .mediaTableLoad 1024 [], .channelStatus 1024,
    .channelDrain 1024, .channelDrainComplete 32, .channelAdmit 1024, .channelAdmitComplete 32 0 [], .endurance 1024,
    .fwLoad 1024 [], .fwActivate 1024, .threshRun 1024, .threshStatus 1024, .signatureRead 1024, .logRead 1024,
    .recordExport 1024, .replayStart 1024 []] : List Instr), c.wf = false := by decide
theorem wf_refuses_4 : ∀ c ∈ ([
    .meterRead 1024, .recoverRestart 1024, .recoverLeaveFault 1024, .recoveryStatus 1024, .functionLevelReset 1024,
    .functionDStateChange 1024 false, .batchWindowExpiry 256, .stageBatchStart 256 0 0, .stageBatchStart 0 16 0,
    .stageBatchStart 0 0 32, .stageBatchFinish 256 0 0, .stageBatchFinish 0 16 0, .stageBatchFinish 0 0 32,
    .creditReturnArrival 256 0 0, .creditReturnArrival 0 16 0, .creditReturnArrival 0 0 16, .stageGenerationSwitch 512,
    .awnReadIssue 256 0 0 false, .awnReadIssue 0 16 0 false, .awnReadIssue 0 0 32 true, .stookListArrival ⟨256, 0⟩ 0, .stookListArrival ⟨0, 16⟩ 0,
    .stookListArrival ⟨0, 0⟩ 32, .replayWindowClose (2 ^ 64), .stookMergeStart 73, .stookMergeComplete
    73, .stookRootDelivery 256 0, .stookRootDelivery 0 16] : List Instr), c.wf = false := by decide
theorem wf_refuses_5 : ∀ c ∈ ([
    .tillerSwapStart 512, .tillerSwapComplete 512, .expertReach 256 0 0, .expertReach 0 16 0, .expertReach 0 0 32,
    .expertDeadlineExpiry 256 0 0, .expertDeadlineExpiry 0 16 0, .expertDeadlineExpiry 0 0 32, .pseudoChannelGrant 512 0
    0, .culmScanOp 512, .culmAddOp 512, .culmMulOp 512, .culmActOp 512, .culmConvertOp 512, .culmAttendOp 512,
    .culmResultReturn 512, .culmSubstitution 512, .barrier 16384 0, .barrier 0 (2 ^ 32), .barrierMap 16384 0, .barrierMap
    0 (2 ^ 32), .lunTemperatureRead 32 0 none, .lunTemperatureRead 0 32 none, .lunBusyTimeout 32 0] : List Instr), c.wf = false := by decide
theorem wf_refuses_6 : ∀ c ∈ ([
    .lunBusyTimeout 0 32, .channelLoss 32, .frameReceive 4 .badSum [], .ackSendTimer 16384 0, .ackSendTimer 0 4,
    .retransmissionTimeout 16384 0, .retransmissionTimeout 0 4, .hello 16384 0, .hello 0 (2 ^ 32), .join 16384 0, .join 0
    (2 ^ 32), .leave 16384 0, .leave 0 (2 ^ 32), .telemetry 16384 0, .telemetry 0 (2 ^ 32), .status 16384 0, .status 0 (2
    ^ 32), .subSearch 16384 0, .subSearch 0 (2 ^ 32), .subAnswer 16384 0, .subAnswer 0 (2 ^ 32), .t4Read 16384 0, .t4Read
    0 (2 ^ 32), .t4Data 16384 0] : List Instr), c.wf = false := by decide
theorem wf_refuses_7 : ∀ c ∈ ([
    .t4Data 0 (2 ^ 32), .t4Write 16384 0, .t4Write 0 (2 ^ 32), .unknownMessageType 16384 0, .unknownMessageType 0 (2 ^
    32), .t4RequestTimeout (2 ^ 32), .peerTimeout 16384 0, .peerTimeout 0 4, .quarantineEnd 16384, .portLinkChange 4
    false, .t1PatrolRead 512 0 0 0, .crossingResync 64 0, .crossingResync 0 64, .dieLinkCrcRetry 3,
    .dieLinkRetriesExhausted 3 0, .dieLinkDown 3, .railOutOfLimits 8, .islandReset 64, .refclkLoss 3, .refclkReturn 3,
    .smbusWarmReset 65536 false, .smbusUndefinedCode 256 false, .jtagBypass 65536, .jtagBypass 0x00A5, .msixEntryMask 1024 0, .msixEntryMask 0 2048] : List Instr), c.wf = false := by decide
theorem wf_refuses_8 : ∀ c ∈ ([
    .sriovVfEnable 1024, .mbxDomainDownTimeout 1024] : List Instr), c.wf = false := by decide

/-! Values the spec writes out: number formats (R67, R68, R69, R73), the worked examples of chapters 03, 05, 06 and 11. -/

theorem test_e4m3_largest : elemVal 4 0 0x7E = numOf 448 := by decide +kernel
theorem test_e5m2_largest : elemVal 5 0 0x7B = numOf 57344 := by decide +kernel
theorem test_uint8_value : elemVal 10 128 0 = numOf (-128) := by decide +kernel
theorem test_e8m0_scale : scaleVal 1 120 = numOf (1 / 128) ∧ scaleVal 1 255 = .nan := by decide +kernel
theorem test_canonical_nan : [1, 2, 3, 5, 4].map (fun f => (encodeNum f 0 .nearest .nan).1) =
    [0x7FC00000, 0x7FC0, 0x7E00, 0x7E, 0x7F] := by decide +kernel
theorem test_e4m3_saturates : encodeNum 4 0 .nearest (.inf false) = (0x7E, true, false) := by decide +kernel
theorem test_int8_saturates : encodeNum 9 0 .nearest (numOf 200) = (127, true, false) := by decide +kernel
theorem test_fp4_nan_zeroed : encodeNum 8 0 .nearest .nan = (0, false, true) := by decide +kernel
theorem test_pack4 : packBits 4 [0x1, 0x2, 0x3, 0x4] = [0x21, 0x43] := by decide +kernel
theorem test_pack6 : unpack 6 4 [0x41, 0x20, 0x0C] = [1, 1, 2, 3] := by decide +kernel

/-- Chapter 03, zero points and block scales: the run contributes -15.89306640625 (0xC17E4A00). -/
theorem test_zero_points : dotProd (10 + 256 + 10 * 2 ^ 24) (10 + 256 + 128 * 2 ^ 24) 32
    ([10, 255, 0, 37] ++ List.replicate 28 10) [123] ([128, 0, 255, 131] ++ List.replicate 28 128) [120] =
    .f 0xC17E4A00 := by decide +kernel

/-- The gating row of chapter 05: 2.5, NaN, -0, 2.5, +0, 4.0 at positions 0 to 5. -/
def gateRow : List Hit :=
  [{ score := 0x40200000, pos := 0 }, { score := 0x7FC00000, pos := 1 }, { score := 0x80000000, pos := 2 },
   { score := 0x40200000, pos := 3 }, { score := 0, pos := 4 }, { score := 0x40800000, pos := 5 }]
theorem test_gate_selection : (winnow true 1 4 1 gateRow).hits.map Hit.pos = [5, 0, 3, 2] := by decide +kernel
theorem test_gate_sums : accOut (winnow true 1 4 1 gateRow).sel = 0x41100000 ∧ accOut (winnow true 1 4 1 gateRow).rest = 0 ∧
    (winnow true 1 4 1 gateRow).nan = 1 := by decide +kernel
theorem test_gate_federation : (winnow true 1 4 2 gateRow).hits.map Hit.pos = [5, 0, 3, 2] ∧
    (winnow true 1 4 2 gateRow).nan = 1 := by decide +kernel

/-- Chapter 11, one BF16 block: the ten exponents' lengths and codes. -/
theorem test_bf16_codes : packCodes (List.replicate 0x76 0 ++ [5, 5, 4, 3, 2, 2, 3, 4, 5, 5] ++ List.replicate 128 0) =
    [(0x7A, 2, 0b00), (0x7B, 2, 0b01), (0x79, 3, 0b100), (0x7C, 3, 0b101), (0x78, 4, 0b1100), (0x7D, 4, 0b1101),
     (0x76, 5, 0b11100), (0x77, 5, 0b11101), (0x7E, 5, 0b11110), (0x7F, 5, 0b11111)] := by decide +kernel
theorem test_first_code_bits : codeBits 2 0b00 ++ codeBits 3 0b100 = [false, false, true, false, false] := by decide

/-- The check value of CRC-32C over the digits 1 to 9. -/
theorem test_crc : crc32c [0x31, 0x32, 0x33, 0x34, 0x35, 0x36, 0x37, 0x38, 0x39] = 0xE3069283 := by decide +kernel

/-- The fields of a handle: [63:54] tenant, [53:50] class, [49:16] index, [15:0] generation (R232). -/
theorem test_handle : (hTenant 0x0048000000070001, hClass 0x0048000000070001, hIndex 0x0048000000070001,
    hGen 0x0048000000070001) = (1, 2, 7, 1) := by decide

/-! Steps. -/

/-- An empty queue: one nanosecond passes. -/
theorem test_idle : ∃ t, step State.reset = .next t ∧ t.aon.uptime = 1 := ⟨_, rfl, by decide +kernel⟩
/-- A command in front is taken from the queue. -/
theorem test_queue : ∃ t, step { State.reset with pending := [.jtagBypass 0x3FF] } = .next t ∧ t.pending = [] ∧ t.aon.jtagIr = .bypass :=
  ⟨_, rfl, by decide +kernel⟩
/-- JTAG IDCODE connects 0x0A1E_04F3 (R466). -/
theorem test_idcode : ∃ t, exec .jtagIdcode State.reset = .next t ∧ t.aon.jtagDr = 0x0A1E04F3 := ⟨_, rfl, by decide +kernel⟩
/-- SMBus IDENT without a valid PEC is discarded; an undefined code answers a block of length 0 (R465). -/
theorem test_smbus_undefined : ∃ t, exec (.smbusUndefinedCode 0x41 true) State.reset = .next t ∧ t.aon.smbReply = some [] :=
  ⟨_, rfl, by decide +kernel⟩

end Sys2Proof.Tests
end

/-! Proofs about the number formats of chapter 03: what an integer element code stands for, by format (R68). -/

namespace Sys2Proof.Proofs
open Sys2Proof.Machine

/-- A value that fits the field is its own residue, so its sign bit alone decides. -/
theorem signedOf_cast_of_lt {n v : Nat} (hv : v < 2 ^ n) :
    (signedOf n v : Rat) = if v < 2 ^ (n - 1) then (v : Rat) else (v : Rat) - 2 ^ n := by
  rw [signedOf, Nat.mod_eq_of_lt hv]
  split
  · exact Int.cast_natCast v
  · push_cast
    rfl

theorem elemVal_int8 (z c : Nat) : elemVal 9 z c = numOf (signedOf 8 c) := rfl

theorem elemVal_int4 (z c : Nat) : elemVal 11 z c = numOf (signedOf 4 c) := rfl

theorem elemVal_uint8 (z c : Nat) : elemVal 10 z c = numOf ((c : Rat) - z) := by
  simp [elemVal, isFloat]

theorem elemVal_uint4 (z c : Nat) : elemVal 12 z c = numOf ((c : Rat) - z) := by
  simp [elemVal, isFloat]

/-- Settles O12: the signed formats by the sign bit of an in-range code, the unsigned ones by their difference from the
zero point; the ranges, the element values of a row and the kinds of B1 are the definitions' own (R68). -/
theorem integerCodesHaveTheirValues : Obligations.IntegerCodesHaveTheirValues := by
  refine ⟨fun z q hq => ?int8, fun z q _ _ => elemVal_uint8 z q, fun z q hq => ?int4, fun z q _ _ => elemVal_uint4 z q,
    ⟨rfl, rfl, rfl, rfl⟩, fun _ _ _ => rfl, by decide⟩
  case int8 =>
    rw [elemVal_int8, signedOf_cast_of_lt (n := 8) hq]
    norm_num
  case int4 =>
    rw [elemVal_int4, signedOf_cast_of_lt (n := 4) hq]
    norm_num

end Sys2Proof.Proofs

/-! Proofs about the canonical codes of a PACK table (R286): which symbols get one, in which order, and each code's step
from the one before. -/

namespace Sys2Proof.Proofs
open Sys2Proof.Machine

/-- The order R286 takes (symbol, length) pairs in: ascending length, equal lengths by symbol. -/
def PackBefore (a b : Nat × Nat) : Prop := a.2 < b.2 ∨ (a.2 = b.2 ∧ a.1 < b.1)

/-- A code is the one before plus one, shifted left by the difference in length (R286). -/
def PackNext (c d : Nat × Nat × Nat) : Prop := d.2.2 = (c.2.2 + 1) * 2 ^ (d.2.1 - c.2.1)

/-- The symbols of one length in ascending order, each with that length; none at length 0. -/
def packRow (lens : List Nat) (l : Nat) : List (Nat × Nat) :=
  if l = 0 then [] else (lens.zipIdx.filter fun p => p.1 == l).map fun p => (p.2, l)

theorem packOrder_eq_flatMap_packRow (lens : List Nat) : packOrder lens = (List.range 16).flatMap (packRow lens) := rfl

theorem mem_packRow {lens : List Nat} {l : Nat} {p : Nat × Nat} :
    p ∈ packRow lens l ↔ lens[p.1]? = some l ∧ l ≠ 0 ∧ p.2 = l := by
  obtain ⟨y, k⟩ := p
  unfold packRow
  split
  next h => simp [h]
  next h => simp [h, List.mem_zipIdx_iff_getElem?, eq_comm (a := l)]

theorem packRow_pairwise (lens : List Nat) (l : Nat) : (packRow lens l).Pairwise PackBefore := by
  unfold packRow
  split
  · exact .nil
  · have hidx : lens.zipIdx.Pairwise fun a b => a.2 < b.2 := by
      rw [← List.pairwise_map (f := Prod.snd) (R := (· < ·)), List.zipIdx_map_snd]
      exact List.pairwise_lt_range'
    exact ((hidx.filter _).imp fun hab => .inr ⟨rfl, hab⟩).map _ fun _ _ h => h

theorem mem_packOrder {lens : List Nat} (hlens : ∀ l ∈ lens, l ≤ 15) {y l : Nat} :
    (y, l) ∈ packOrder lens ↔ lens[y]? = some l ∧ l ≠ 0 := by
  simp only [packOrder_eq_flatMap_packRow, List.mem_flatMap, List.mem_range, mem_packRow]
  constructor
  · rintro ⟨_, _, hy, hl, rfl⟩
    exact ⟨hy, hl⟩
  · rintro ⟨hy, hl⟩
    exact ⟨l, Nat.lt_succ_of_le (hlens l (List.mem_of_getElem? hy)), hy, hl, rfl⟩

/-- Rows come in ascending length, so an earlier row's pairs come before a later one's. -/
theorem packOrder_pairwise (lens : List Nat) : (packOrder lens).Pairwise PackBefore := by
  rw [packOrder_eq_flatMap_packRow, List.pairwise_flatMap]
  refine ⟨fun l _ => packRow_pairwise lens l, List.pairwise_lt_range.imp fun {k l} hkl a ha b hb => .inl ?_⟩
  obtain ⟨-, -, hak⟩ := mem_packRow.1 ha
  obtain ⟨-, -, hbl⟩ := mem_packRow.1 hb
  rwa [hak, hbl]

/-- Codes start at 0, at whatever length the first symbol has. -/
theorem packCodes_eq_go (lens : List Nat) : ∃ prev, packCodes lens = packCodes.go (packOrder lens) prev 0 := by
  unfold packCodes
  split
  next h => exact ⟨0, h ▸ rfl⟩
  next y l r h => exact ⟨l, h ▸ rfl⟩

/-- Coding keeps the symbols, their lengths and their order. -/
theorem packCodes_go_map (r : List (Nat × Nat)) (prev code : Nat) :
    (packCodes.go r prev code).map (fun c => (c.1, c.2.1)) = r := by
  induction r generalizing prev code with
  | nil => rfl
  | cons p r ih => exact congrArg (p :: ·) (ih ..)

theorem packCodes_map (lens : List Nat) : (packCodes lens).map (fun c => (c.1, c.2.1)) = packOrder lens := by
  obtain ⟨prev, h⟩ := packCodes_eq_go lens
  rw [h, packCodes_go_map]

theorem packCodes_go_head {r : List (Nat × Nat)} {prev code : Nat} {c : Nat × Nat × Nat}
    (h : (packCodes.go r prev code).head? = some c) : c.2.2 = code * 2 ^ (c.2.1 - prev) := by
  cases r with
  | nil => cases h
  | cons p r => cases h; rfl

/-- The rest of a run is a run of its own that starts from the code plus one, so its head follows the code. -/
theorem packCodes_go_isChain (r : List (Nat × Nat)) (prev code : Nat) : (packCodes.go r prev code).IsChain PackNext := by
  induction r generalizing prev code with
  | nil => exact .nil
  | cons p r ih => exact List.isChain_cons.2 ⟨fun _ hd => packCodes_go_head hd, ih ..⟩

theorem exists_mem_packCodes_iff {lens : List Nat} {y l : Nat} :
    (∃ c, (y, l, c) ∈ packCodes lens) ↔ (y, l) ∈ packOrder lens := by
  simp [← packCodes_map]

/-- Settles O13: the symbols and their order are those of `packOrder`, which coding keeps; the first code is 0 shifted, and
each later one starts from the code before plus one (R286). -/
theorem codesAreAssignedCanonically : Obligations.CodesAreAssignedCanonically := by
  intro lens hlens
  obtain ⟨prev, hgo⟩ := packCodes_eq_go lens
  refine ⟨fun y l => exists_mem_packCodes_iff.trans (mem_packOrder hlens), ?order, ?first, ?next⟩
  case order =>
    have h := packOrder_pairwise lens
    rwa [← packCodes_map, List.pairwise_map] at h
  case first =>
    intro c hc
    rw [packCodes_go_head (hgo ▸ hc), Nat.zero_mul]
  case next =>
    intro i c d hc hd
    have hchain : (packCodes lens).IsChain PackNext := hgo ▸ packCodes_go_isChain ..
    obtain ⟨_, rfl⟩ := List.getElem?_eq_some_iff.1 hc
    obtain ⟨hi, rfl⟩ := List.getElem?_eq_some_iff.1 hd
    exact hchain.getElem i hi

end Sys2Proof.Proofs

/-! Proofs about the registers of the host interface (R301 to R308): what a register access does at an offset that holds a
register, and the GENERATION register, which reads alike at every function. -/

namespace Sys2Proof.Proofs
open Sys2Proof.Machine Sys2Proof.Safety

/-! Register accesses. -/

/-- While the node runs, a command's outcome stands, with its writes digested (R409). -/
theorem completes_of_exec_eq_whileUp {c : Instr} {s u : State} {claim : State → Prop} (hup : halted s = false)
    (hexec : exec c s = whileUp s (.next u)) (hclaim : claim { u with dig := digestsAfter s u }) :
    Completes c s claim :=
  ⟨_, by rw [hexec, whileUp, hup]; rfl, hclaim⟩

/-- A read of a register's low half, outside a mailbox page that is down, returns it and latches the high half (R303). -/
theorem exec_registerLowHalfRead {s : State} {fn off v : Nat} (hfn : fnAnswers s fn = true)
    (hpage : (mbxOffset fn off && stewardDown s) = false) (hoff : off % 8 = 0) (hv : regValue s fn off = some v) :
    exec (.registerLowHalfRead fn off) s = whileUp s (.next (s.onHif fun h =>
      { h with readData := v % 2 ^ 32, latch := tabSet h.latch fn (v / 2 ^ 32) })) := by
  change execRegisterLowHalfRead fn off s = _
  simp [execRegisterLowHalfRead, hfn, hpage, hoff, hv]

/-- A naturally aligned write where a register stands reaches the MSI-X table alone, and is recorded (R303, R399). -/
theorem exec_registerWriteOther {s : State} {fn off width v x : Nat} (hfn : fnAnswers s fn = true)
    (hpage : (mbxOffset fn off && stewardDown s) = false) (hwidth : width = 4 ∨ width = 8) (hoff : off % width = 0)
    (hx : regValue s fn (off / 8 * 8) = some x) :
    exec (.registerWriteOther fn off width v) s =
      whileUp s (.next (writeMsix fn off width v (recordReg fn off v s))) := by
  change execRegisterWriteOther fn off width v s = _
  simp [execRegisterWriteOther, hfn, hpage, hwidth, hoff, hx]

@[simp] theorem recordReg_stew (fn off v : Nat) (s : State) : (recordReg fn off v s).stew = s.stew :=
  recordInput_stew ..

@[simp] theorem writeMsix_stew (fn off width v : Nat) (s : State) : (writeMsix fn off width v s).stew = s.stew := by
  unfold writeMsix
  split
  · rfl
  · exact State.onHif_stew ..

/-! GENERATION (R308). -/

/-- The page common to function 0 and the VFs holds GENERATION at 0x28 (R301, R302). -/
theorem regValue_generation (s : State) (fn : Nat) :
    regValue s fn 0x28 = some ((gen s).number + 2 ^ 32 * ((s.stew.prev.map Gen.number).getD 0)) := by
  unfold regValue
  split <;> rfl

theorem regValue_generation_congr {s t : State} (h : t.stew = s.stew) (fn : Nat) :
    regValue t fn 0x28 = regValue s fn 0x28 := by
  simp only [regValue_generation, gen, h]

/-- No function has a mailbox page over GENERATION. -/
theorem mbxOffset_generation (fn : Nat) : mbxOffset fn 0x28 = false := by
  unfold mbxOffset
  split <;> rfl

/-- Settles O11: the value is the common page's at every function; a low-half read splits it at bit 32, where a number that
fits its half leaves the previous one whole; a write leaves the Steward's state, which holds both generations (R308). -/
theorem theGenerationRegisterNamesBothGenerations : Obligations.TheGenerationRegisterNamesBothGenerations := by
  intro s fn hfn
  have hpage : (mbxOffset fn 0x28 && stewardDown s) = false := by rw [mbxOffset_generation, Bool.false_and]
  refine ⟨regValue_generation s fn, fun hup => ?read, fun v hup => ?write⟩
  case read =>
    refine completes_of_exec_eq_whileUp hup
      (exec_registerLowHalfRead hfn hpage rfl (regValue_generation s fn)) ⟨Nat.add_mul_mod_self_left .., fun hlt => ?_⟩
    refine (tabGet_tabSet_same ..).trans (congrArg some ?_)
    rw [Nat.add_mul_div_left _ _ (Nat.two_pow_pos 32), Nat.div_eq_of_lt hlt, Nat.zero_add]
  case write =>
    refine completes_of_exec_eq_whileUp hup
      (exec_registerWriteOther hfn hpage (.inr rfl) rfl (regValue_generation s fn)) ?_
    exact regValue_generation_congr ((writeMsix_stew ..).trans (recordReg_stew ..)) fn

end Sys2Proof.Proofs

/-! Proofs about the token buckets at BUCKET_REFILL (R363): what goes out with a refill besides the levels, down to the
record that R345 has the node write of a message it may not send. -/

namespace Sys2Proof.Proofs
open Sys2Proof.Machine Sys2Proof.Safety

/-- What a running node's command completes with is its outcome with its writes digested (R409). -/
theorem claim_of_completes_of_exec_eq_whileUp {c : Instr} {s u : State} {claim : State → Prop} (hup : halted s = false)
    (hexec : exec c s = whileUp s (.next u)) (h : Completes c s claim) : claim { u with dig := digestsAfter s u } := by
  obtain ⟨t, ht, hclaim⟩ := h
  rw [hexec, whileUp, hup] at ht
  cases ht
  exact hclaim

/-- Every bucket raised by 1 µs of its rate, up to its burst (R363). -/
def refillBuckets (s : State) : State :=
  s.onFab fun f => { f with buckets := f.buckets.map fun b =>
    let burst : Int := bucketBurst s (b.1 / 65536) (b.1 % 65536)
    (b.1, { level := min (b.2.level + bucketRate s (b.1 / 65536) (b.1 % 65536)) (burst * 1000000) }) }

/-- After the refill, the T4 transfers that waited go out, then what waits for a flow's bucket (R350, R354, R364). -/
theorem exec_bucketRefill (s : State) :
    exec .bucketRefill s = whileUp s (.next (pumpAll (t4Pump (refillBuckets s)))) := rfl

/-- Without peers no stream waits at a port. -/
theorem pumpAll_of_peers_eq_nil {s : State} (h : s.fab.peers = []) : pumpAll s = s := by
  simp [pumpAll, h, tabKeys, servePort]

/-- Wherever an object's T4 home starts, it lies in the only window. -/
theorem t4Place_of_genT4_eq_singleton {s : State} {n base len : Nat} (hw : genT4 (gen s) = [(n, base, len)]) (hlen : 0 < len)
    (h off : Nat) : t4Place s h off = some (n, base + (Config.poolStart h + off) % len) := by
  simp only [t4Place, hw, windowAt, List.map_cons, List.map_nil, List.sum_cons, List.sum_nil, Nat.add_zero]
  exact if_pos (Nat.mod_lt _ hlen)

/-- Once the boot count can rise no more, no message may be sent to a GCM destination (R345). -/
theorem sendStatus_ne_success_of_boot_spent {s : State} {dst t e : Nat} (hboot : s.stew.boot = 2 ^ 32 - 1)
    (hgcm : fwdGcm (forwardEntry s dst e) = true) : sendStatus s dst t e ≠ St.success := by
  simp only [sendStatus, hgcm, hboot, beq_self_eq_true, Bool.or_true, Bool.and_true, if_true]
  split <;> decide

/-- A message that the spent boot count keeps from a GCM destination leaves a record in its place (R345). -/
theorem sendMsg_of_boot_spent {s : State} {m : Msg} (hboot : s.stew.boot = 2 ^ 32 - 1)
    (hgcm : fwdGcm (forwardEntry s m.dst (msgEpoch s m)) = true) : sendMsg m s = logEv Log.fabricError 55 0 [] s := by
  rw [sendMsg, if_neg (sendStatus_ne_success_of_boot_spent hboot hgcm), hboot, hgcm]
  rfl

theorem msgEpoch_of_epoch_eq {s : State} {m : Msg} (h : m.epoch = s.eng.epoch) : msgEpoch s m = s.eng.epoch := by
  rw [msgEpoch, h, ite_id]

/-- A T4 transfer kept from its GCM node opens no peer and leaves one record (R345, R350). -/
theorem t4Send_of_boot_spent {s : State} {j : T4Job} {o : ObjRec} {n a : Nat} (hrec : tabGet s.obj.recs j.obj = some o)
    (hplace : t4Place s o.handle j.off = some (n, a))
    (hroom : poolRoom s (if j.write then 16 else min (j.stop - j.off) 1048576) = true)
    (hboot : s.stew.boot = 2 ^ 32 - 1) (hgcm : fwdGcm (forwardEntry s n s.eng.epoch) = true) :
    (t4Send j s).fab.peers = s.fab.peers ∧ (t4Send j s).rel = (logEv Log.fabricError 55 0 [] s).rel := by
  simp only [t4Send, hrec, Option.bind_some, hplace, hroom, sendRequestFor, Bool.not_true, Bool.false_eq_true, if_false]
  rw [sendMsg_of_boot_spent (by exact hboot) (by rw [msgEpoch_of_epoch_eq rfl]; exact hgcm)]
  exact ⟨rfl, rfl⟩

/-- The only transfer that waits, kept so from its GCM node: no peer, one record. -/
theorem t4Pump_of_boot_spent {s : State} {j : T4Job} {o : ObjRec} {n a : Nat} (hwait : s.fab.t4wait = [j])
    (hrec : tabGet s.obj.recs j.obj = some o) (hplace : t4Place s o.handle j.off = some (n, a))
    (hroom : poolRoom s (if j.write then 16 else min (j.stop - j.off) 1048576) = true)
    (hboot : s.stew.boot = 2 ^ 32 - 1) (hgcm : fwdGcm (forwardEntry s n s.eng.epoch) = true) :
    (t4Pump s).fab.peers = s.fab.peers ∧ (t4Pump s).rel = (logEv Log.fabricError 55 0 [] s).rel := by
  rw [t4Pump, hwait]
  exact t4Send_of_boot_spent (s := s.onFab fun f => { f with t4wait := [] }) hrec hplace hroom hboot hgcm

/-- Object 9 has its home in the one T4 window, on node 5, a GCM destination; a read of it waits for the receive pool, and the
boot count is spent. -/
def gcmReadWaits : State :=
  { stew := { boot := 2 ^ 32 - 1, cur := { factoryGen with t4 := toLe 8 5 ++ zeros 8 ++ toLe 8 4096 ++ zeros 8 } }
    idx := { vers := [{ table := forwardHandle, index := 5, data := some ([1, 5] ++ zeros 30) }] }
    obj := { recs := [(9, { handle := mkHandle 0 2 9 1, size := 4096, home := 4 })] }
    fab := { t4wait := [{ obj := 9, stop := 64 }] } }

/-- The refill there opens no peer and leaves one record. -/
theorem t4Pump_gcmReadWaits : (t4Pump (refillBuckets gcmReadWaits)).fab.peers = [] ∧
    (t4Pump (refillBuckets gcmReadWaits)).rel = (logEv Log.fabricError 55 0 [] (refillBuckets gcmReadWaits)).rel :=
  have hwindow : genT4 (gen (refillBuckets gcmReadWaits)) = [(5, 0, 4096)] := by decide +kernel
  t4Pump_of_boot_spent rfl rfl (t4Place_of_genT4_eq_singleton hwindow (by decide) _ _) (by decide +kernel) rfl (by decide +kernel)

/-- Refutes O14: in the state `gcmReadWaits` the refill lets the waiting T4 read go, which R345 forbids to send and has logged,
so `rel` changes, outside the frame that the statement gives BUCKET_REFILL. -/
theorem not_bucketsRefillPassAndPay : ¬ Obligations.BucketsRefillPassAndPay := by
  intro h
  obtain ⟨hpeers, hlogged⟩ := t4Pump_gcmReadWaits
  have hexec : exec .bucketRefill gcmReadWaits = whileUp gcmReadWaits (.next (t4Pump (refillBuckets gcmReadWaits))) := by
    rw [exec_bucketRefill, pumpAll_of_peers_eq_nil hpeers]
  obtain ⟨hframe, -⟩ := claim_of_completes_of_exec_eq_whileUp (by decide) hexec (h.1 gcmReadWaits (by decide))
  have hkept : (t4Pump (refillBuckets gcmReadWaits)).rel = gcmReadWaits.rel := hframe .rel (by decide)
  have hlen := congrArg (fun r => r.logq.length) (hlogged.symm.trans hkept)
  exact absurd hlen (by decide +kernel)

end Sys2Proof.Proofs

/-! What a command may do to the state, in one relation that is carried through every operation of the model: the parts it
may change, the bounds and the canonical form it keeps, and the bytes of objects. -/

namespace Sys2Proof.Proofs
open Sys2Proof Sys2Proof.Machine Sys2Proof.Safety

/-- Between two states of one command only the listed parts may differ; the bounds of the queues and the canonical form of the
memories are kept, and the bytes of objects too unless the flag says that they may be written. -/
structure Effect (ps : List StatePart) (w : Bool) (s t : State) : Prop where
  frame : Frame ps s t
  bounded : QueuesBounded s → QueuesBounded t
  canonical : MemoriesCanonical s → MemoriesCanonical t
  bytes : w = false → SameBytes s t

/-- A command's outcome is a next state, reached with such an effect. -/
def Reaches (ps : List StatePart) (w : Bool) (s : State) (r : Res) : Prop := ∃ t, r = .next t ∧ Effect ps w s t

section
variable {ps qs : List StatePart} {w : Bool} {s t u : State}

theorem sameOn_trans {p : StatePart} (h : sameOn s t p) (g : sameOn t u p) : sameOn s u p := by
  cases p <;> exact Eq.trans g h

theorem frame_one {p : StatePart} (h : ∀ q, q ≠ p → sameOn s t q) : Frame [p] s t :=
  fun q hq => h q fun he => hq (he ▸ List.mem_singleton_self p)

theorem forall_tabSet {α : Type} {P : Nat × α → Prop} {l : Tab α} {i : Nat} {x : α} (hl : ∀ p ∈ l, P p) (hx : P (i, x)) :
    ∀ p ∈ tabSet l i x, P p := by
  induction l with
  | nil => simpa [tabSet] using hx
  | cons q l ih =>
    have hq := hl q List.mem_cons_self
    have hrest : ∀ p ∈ l, P p := fun p hp => hl p (List.mem_cons_of_mem q hp)
    unfold tabSet
    split
    · exact List.forall_mem_cons.2 ⟨hx, hl⟩
    · split
      · exact List.forall_mem_cons.2 ⟨hx, hrest⟩
      · exact List.forall_mem_cons.2 ⟨hq, ih hrest⟩

theorem mem_of_tabGet {α : Type} {l : Tab α} {i : Nat} {x : α} (h : tabGet l i = some x) : (i, x) ∈ l := by
  induction l with
  | nil => cases h
  | cons q l ih =>
    unfold tabGet at h
    split at h
    · next hk => cases h; subst hk; exact List.mem_cons_self
    · exact List.mem_cons_of_mem q (ih h)

theorem forall_tabGetD {α : Type} {P : α → Prop} {l : Tab α} {i : Nat} {d : α} (hl : ∀ p ∈ l, P p.2) (hd : P d) :
    P (tabGetD l i d) := by
  unfold tabGetD
  cases h : tabGet l i with
  | none => exact hd
  | some x => exact hl _ (mem_of_tabGet h)

theorem forall_tabMod {α : Type} {P : α → Prop} {l : Tab α} {i : Nat} {f : α → α} (hl : ∀ p ∈ l, P p.2)
    (hf : ∀ x, P x → P (f x)) : ∀ p ∈ tabMod l i f, P p.2 := by
  intro p hp
  obtain ⟨q, hq, rfl⟩ := List.mem_map.1 hp
  split
  · exact hf _ (hl q hq)
  · exact hl q hq

theorem recsCanonical_tabSet {o : Obj} {i : Nat} {x : ObjRec} (h : RecsCanonical o)
    (hx : memWf x.mem = true ∧ memWf x.homeMem = true) : RecsCanonical { o with recs := tabSet o.recs i x } :=
  forall_tabSet (P := fun p : Nat × ObjRec => memWf p.2.mem = true ∧ memWf p.2.homeMem = true) h hx

/-- A change of an object's entry that leaves its bytes and keeps its home copy canonical. -/
def KeepsMem (f : ObjRec → ObjRec) : Prop :=
  ∀ o, (f o).mem = o.mem ∧ (memWf o.mem = true → memWf o.homeMem = true → memWf (f o).homeMem = true)

namespace Effect

theorem refl : Effect ps w s s where
  frame p _ := by cases p <;> rfl
  bounded h := h
  canonical h := h
  bytes _ _ _ := rfl

/-- An effect within fewer parts follows one. -/
theorem extend (h : Effect ps w s t) (hp : qs ⊆ ps) (g : Effect qs w t u) : Effect ps w s u where
  frame p hn := sameOn_trans (h.frame p hn) (g.frame p fun hm => hn (hp hm))
  bounded hs := g.bounded (h.bounded hs)
  canonical hs := g.canonical (h.canonical hs)
  bytes hw i a := (g.bytes hw i a).trans (h.bytes hw i a)

/-- A change of one part, with what it must keep of that part. -/
theorem step {p : StatePart} (h : Effect ps w s t) (hp : [p] ⊆ ps) (hf : Frame [p] t u)
    (hb : QueuesBounded t → QueuesBounded u) (hc : MemoriesCanonical t → MemoriesCanonical u) (hw : w = false → SameBytes t u) :
    Effect ps w s u :=
  h.extend hp ⟨hf, hb, hc, hw⟩

theorem foldl {α : Type} {f : State → α → State} {l : List α} (h : Effect ps w s t)
    (hf : ∀ t a, Effect ps w s t → Effect ps w s (f t a)) : Effect ps w s (l.foldl f t) := by
  induction l generalizing t with
  | nil => exact h
  | cons a l ih => exact ih (hf t a h)

theorem ite {c : Prop} [Decidable c] (h : Effect ps w s t) (g : Effect ps w s u) : Effect ps w s (if c then t else u) := by
  split
  · exact h
  · exact g

theorem trans (h : Effect ps w s t) (g : Effect ps w t u) : Effect ps w s u := h.extend (List.Subset.refl ps) g

theorem getD {o : Option State} (ho : ∀ u, o = some u → Effect ps w s u) (h : Effect ps w s t) : Effect ps w s (o.getD t) := by
  cases o with
  | none => exact h
  | some u => exact ho u rfl

/-- A fold that carries a value beside the state. -/
theorem foldlSnd {α β : Type} {f : β × State → α → β × State} {l : List α} {p : β × State} (h : Effect ps w s p.2)
    (hf : ∀ p a, Effect ps w s p.2 → Effect ps w s (f p a).2) : Effect ps w s (l.foldl f p).2 := by
  induction l generalizing p with
  | nil => exact h
  | cons a l ih => exact ih (hf p a h)

/-- The digests are no part of the state that a claim speaks of. -/
theorem withDig {d : Dig} (h : Effect ps w s t) : Effect ps w s { t with dig := d } :=
  h.trans ⟨fun p _ => by cases p <;> rfl, id, id, fun _ _ _ => rfl⟩

theorem ofPair {α : Type} {p : α × State} {a : α} (h : Effect ps w s p.2) (e : p = (a, u)) : Effect ps w s u := by
  subst e; exact h

theorem onAon {f} (h : Effect ps w s t) (hp : [.aon] ⊆ ps := by decide) : Effect ps w s (t.onAon f) :=
  h.step hp (frame_one fun p => by cases p <;> simp [sameOn]) id id fun _ _ _ => rfl

theorem onHif {f} (h : Effect ps w s t) (hp : [.hif] ⊆ ps := by decide) : Effect ps w s (t.onHif f) :=
  h.step hp (frame_one fun p => by cases p <;> simp [sameOn]) id id fun _ _ _ => rfl

theorem onEng {f} (h : Effect ps w s t) (hp : [.eng] ⊆ ps := by decide) : Effect ps w s (t.onEng f) :=
  h.step hp (frame_one fun p => by cases p <;> simp [sameOn]) id id fun _ _ _ => rfl

theorem onIdx {f} (h : Effect ps w s t) (hp : [.idx] ⊆ ps := by decide) : Effect ps w s (t.onIdx f) :=
  h.step hp (frame_one fun p => by cases p <;> simp [sameOn]) id id fun _ _ _ => rfl

theorem onShv {f} (h : Effect ps w s t) (hp : [.shv] ⊆ ps := by decide) : Effect ps w s (t.onShv f) :=
  h.step hp (frame_one fun p => by cases p <;> simp [sameOn]) id id fun _ _ _ => rfl

theorem onStk {f} (h : Effect ps w s t) (hp : [.stk] ⊆ ps := by decide) : Effect ps w s (t.onStk f) :=
  h.step hp (frame_one fun p => by cases p <;> simp [sameOn]) id id fun _ _ _ => rfl

theorem onFls {f} (h : Effect ps w s t) (hp : [.fls] ⊆ ps := by decide) : Effect ps w s (t.onFls f) :=
  h.step hp (frame_one fun p => by cases p <;> simp [sameOn]) id id fun _ _ _ => rfl

theorem onFab {f} (h : Effect ps w s t) (hp : [.fab] ⊆ ps := by decide) : Effect ps w s (t.onFab f) :=
  h.step hp (frame_one fun p => by cases p <;> simp [sameOn]) id id fun _ _ _ => rfl

theorem onStew {f} (h : Effect ps w s t) (hp : [.stew] ⊆ ps := by decide)
    (hm : (f t.stew).mbx = t.stew.mbx := by rfl) : Effect ps w s (t.onStew f) :=
  h.step hp (frame_one fun p => by cases p <;> simp [sameOn]) (fun ⟨hd, hs, hb⟩ => ⟨hd, hs, by simpa [hm] using hb⟩) id
    fun _ _ _ => rfl

/-- A change of the mailboxes that keeps every event queue within its bound. -/
theorem onStewMbx {f} (h : Effect ps w s t) (hp : [.stew] ⊆ ps := by decide)
    (hm : (∀ p ∈ t.stew.mbx, p.2.events.length ≤ 64) → ∀ p ∈ (f t.stew).mbx, p.2.events.length ≤ 64) :
    Effect ps w s (t.onStew f) :=
  h.step hp (frame_one fun p => by cases p <;> simp [sameOn]) (fun ⟨hd, hs, hb⟩ => ⟨hd, hs, hm hb⟩) id fun _ _ _ => rfl

theorem modMbx {box f} (h : Effect ps w s t) (hp : [.stew] ⊆ ps := by decide)
    (hf : ∀ m : Mbx, m.events.length ≤ 64 → (f m).events.length ≤ 64 := by exact fun _ h => h) :
    Effect ps w s (modMbx box f t) :=
  h.onStewMbx hp fun hb =>
    forall_tabSet hb (hf _ (forall_tabGetD (P := fun m : Mbx => m.events.length ≤ 64) hb (Nat.zero_le _)))

/-- A change of the reliability unit that keeps the detection queue and the signature store within their bounds. -/
theorem onRelBounded {f} (h : Effect ps w s t) (hp : [.rel] ⊆ ps := by decide)
    (hf : t.rel.detq.length ≤ 1024 → t.rel.sigs.length ≤ 65536 →
      (f t.rel).detq.length ≤ 1024 ∧ (f t.rel).sigs.length ≤ 65536) : Effect ps w s (t.onRel f) :=
  h.step hp (frame_one fun p => by cases p <;> simp [sameOn])
    (fun ⟨hd, hs, hb⟩ => ⟨(hf hd hs).1, (hf hd hs).2, hb⟩) id fun _ _ _ => rfl

theorem onRel {f} (h : Effect ps w s t) (hp : [.rel] ⊆ ps := by decide) (hd : (f t.rel).detq = t.rel.detq := by rfl)
    (hs : (f t.rel).sigs = t.rel.sigs := by rfl) : Effect ps w s (t.onRel f) :=
  h.onRelBounded hp fun h1 h2 => ⟨hd ▸ h1, hs ▸ h2⟩

/-- A change of the recorder that sets aside canonical tables alone. -/
theorem onRecKept {f} (h : Effect ps w s t) (hp : [.recd] ⊆ ps := by decide)
    (hk : MemoriesCanonical s → MemoriesCanonical t →
      ∀ k, (f t.recd).snapAt = some k ∨ (f t.recd).live = some k → RecsCanonical k.obj) : Effect ps w s (t.onRec f) where
  frame p hn := sameOn_trans (h.frame p hn)
    (frame_one (p := .recd) (fun p => by cases p <;> simp [sameOn]) p fun hm => hn (hp hm))
  bounded hs := h.bounded hs
  canonical hs := ⟨(h.canonical hs).1, hk hs (h.canonical hs)⟩
  bytes hw i a := h.bytes hw i a

theorem onRec {f} (h : Effect ps w s t) (hp : [.recd] ⊆ ps := by decide)
    (hs : (f t.recd).snapAt = t.recd.snapAt := by rfl) (hl : (f t.recd).live = t.recd.live := by rfl) :
    Effect ps w s (t.onRec f) :=
  h.onRecKept hp fun _ hc k hk => hc.2 k (by rwa [hs, hl] at hk)

/-- A change of the object table that keeps its memories canonical, and its bytes where no byte may be written. -/
theorem onObjRecs {f} (h : Effect ps w s t) (hp : [.obj] ⊆ ps := by decide)
    (hc : RecsCanonical t.obj → RecsCanonical (f t.obj)) (hb : w = false → SameBytes t (t.onObj f)) :
    Effect ps w s (t.onObj f) :=
  h.step hp (frame_one fun p => by cases p <;> simp [sameOn]) id (fun ⟨ho, hk⟩ => ⟨hc ho, hk⟩) hb

theorem onObj {f} (h : Effect ps w s t) (hp : [.obj] ⊆ ps := by decide) (hr : (f t.obj).recs = t.obj.recs := by rfl) :
    Effect ps w s (t.onObj f) :=
  h.onObjRecs hp (fun hc => by rwa [RecsCanonical, hr]) fun _ i a => by simp [objByte, hr]

theorem modObj {i f} (h : Effect ps w s t) (hp : [.obj] ⊆ ps := by decide)
    (hf : KeepsMem f := by exact fun _ => ⟨rfl, fun _ h => h⟩) : Effect ps w s (modObj i f t) :=
  h.onObjRecs hp (fun hc => forall_tabMod (P := fun o : ObjRec => memWf o.mem = true ∧ memWf o.homeMem = true) hc fun o ⟨h1, h2⟩ => ⟨(hf o).1 ▸ h1, (hf o).2 h1 h2⟩)
    fun _ j a => by
      by_cases hj : j = i
      · subst hj; simp only [objByte, State.onObj_obj, tabGet_tabMod_same]; cases tabGet t.obj.recs j <;> simp [hf _]
      · simp only [objByte, State.onObj_obj, tabGet_tabMod_other _ _ _ _ hj]

/-- A change of the object table that may write bytes, and leaves every object's copies canonical. -/
theorem onRecsWrites {f} (h : Effect ps true s t) (hp : [.obj] ⊆ ps := by decide)
    (hc : RecsCanonical t.obj → RecsCanonical (f t.obj)) : Effect ps true s (t.onObj f) :=
  h.onObjRecs hp hc fun hw => absurd hw (by decide)

/-- A change of an object's entry that may write its bytes, and keeps both its copies canonical. -/
theorem modObjWrites {i f} (h : Effect ps true s t) (hp : [.obj] ⊆ ps := by decide)
    (hf : RecsCanonical t.obj → ∀ o, memWf o.mem = true ∧ memWf o.homeMem = true →
      memWf (f o).mem = true ∧ memWf (f o).homeMem = true) : Effect ps true s (Machine.modObj i f t) :=
  h.onObjRecs hp
    (fun hc => forall_tabMod (P := fun o : ObjRec => memWf o.mem = true ∧ memWf o.homeMem = true) hc (hf hc))
    fun hw => absurd hw (by decide)

end Effect

namespace Reaches

theorem next (h : Effect ps w s t) : Reaches ps w s (.next t) := ⟨t, rfl, h⟩

theorem extend {r : Res} (h : Effect ps w s t) (hp : qs ⊆ ps) (g : Reaches qs w t r) : Reaches ps w s r := by
  obtain ⟨u, hu, hg⟩ := g
  exact ⟨u, hu, h.extend hp hg⟩

theorem ite {c : Prop} [Decidable c] {r q : Res} (h : Reaches ps w s r) (g : Reaches ps w s q) :
    Reaches ps w s (if c then r else q) := by
  split
  · exact h
  · exact g

theorem digested {r : Res} (h : Reaches ps w s r) : Reaches ps w s (digested s r) := by
  obtain ⟨t, rfl, h⟩ := h
  exact ⟨_, rfl, h.withDig⟩

theorem whileUp {r : Res} (h : Reaches ps w s r) : Reaches ps w s (whileUp s r) := by
  obtain ⟨t, rfl, h⟩ := h
  unfold Machine.whileUp
  split
  · exact ⟨s, rfl, .refl⟩
  · exact ⟨_, rfl, h.withDig⟩

end Reaches
end

end Sys2Proof.Proofs

/-! The effect of every operation that answers a state, in the order of the model. -/

namespace Sys2Proof.Proofs
open Sys2Proof Sys2Proof.Machine Sys2Proof.Safety
section
-- The many short proofs are checked one after the other, so that few threads run at once.
set_option Elab.async false
variable {ps : List StatePart} {w : Bool} {s t u : State}

theorem Effect.accessError (h : Effect ps w s t) (hp : [.hif] ⊆ ps := by decide) :
    Effect ps w s (accessError t) :=
  h.extend hp refl.onHif

theorem Reaches.doorbell {fn index k} (h : Effect ps w s t) (hk : ∀ q p, Effect ps w s (k q p t)) (hp : [.hif] ⊆ ps := by decide) :
    Reaches ps w s (doorbell fn index t k) := by
  refine .next (.ite h ?_)
  split
  · exact h.accessError hp
  · split
    · exact .ite (hk _ _) (.ite (h.onHif hp) h)
    · exact .ite (h.onHif hp) h

theorem Effect.wakeEvent (h : Effect ps w s t) (hp : [.stew] ⊆ ps := by decide) :
    Effect ps w s (wakeEvent t) :=
  h.extend hp (ite refl.onStew refl)

theorem Effect.rawChunk {type stream b} (h : Effect ps w s t) (hp : [.recd] ⊆ ps := by decide) :
    Effect ps w s (rawChunk type stream b t) :=
  h.extend hp refl.onRec

theorem Effect.flushDigests (h : Effect ps w s t) (hp : [.recd] ⊆ ps := by decide) : Effect ps w s (flushDigests t) :=
  h.extend hp (ite refl refl.rawChunk.withDig)

theorem Effect.putChunk {type stream b} (h : Effect ps w s t) (hp : [.recd] ⊆ ps := by decide) :
    Effect ps w s (putChunk type stream b t) :=
  h.extend hp refl.flushDigests.rawChunk

theorem Effect.recordInput {kind inst poisoned body} (h : Effect ps w s t) (hp : [.recd] ⊆ ps := by decide) :
    Effect ps w s (recordInput kind inst poisoned body t) :=
  h.extend hp (ite refl.putChunk refl)

theorem Effect.modQp {q f} (h : Effect ps w s t) (hp : [.hif] ⊆ ps := by decide) :
    Effect ps w s (modQp q f t) :=
  h.extend hp refl.onHif

theorem Effect.ignoreDoorbell {q} (h : Effect ps w s t) (hp : [.hif] ⊆ ps := by decide) :
    Effect ps w s (ignoreDoorbell q t) :=
  h.extend hp refl.modQp

theorem Effect.token {cls island inst w' v} (h : Effect ps w s t) (hp : [.recd] ⊆ ps := by decide) :
    Effect ps w s (token cls island inst w' v t) :=
  h.extend hp (ite refl.putChunk refl)

theorem Effect.endWaiter {k} (h : Effect ps w s t) (hp : [.eng] ⊆ ps := by decide) :
    Effect ps w s (endWaiter k t) :=
  h.extend hp refl.onEng

theorem Effect.bucketCharge {row inst n} (h : Effect ps w s t) (hp : [.fab] ⊆ ps := by decide) :
    Effect ps w s (bucketCharge row inst n t) :=
  h.extend hp (ite refl refl.onFab)

theorem Effect.noteWaiter {k why since} (h : Effect ps w s t) (hp : [.eng] ⊆ ps := by decide) :
    Effect ps w s (noteWaiter k why since t) :=
  h.extend hp refl.onEng

theorem Effect.noteWait {q} (h : Effect ps w s t) (hp : [.hif] ⊆ ps := by decide) :
    Effect ps w s (noteWait q t) :=
  h.extend hp refl.modQp

theorem Effect.freeStaging {b} (h : Effect ps w s t) (hp : [.shv] ⊆ ps := by decide) :
    Effect ps w s (freeStaging b t) := by
  refine h.extend hp ?_
  unfold Machine.freeStaging
  split
  · exact Effect.refl
  · exact Effect.ite Effect.refl Effect.refl.onShv

theorem Effect.hostWrite {fn addr b ep} (h : Effect ps w s t) (hp : [.hif] ⊆ ps := by decide) :
    Effect ps w s (hostWrite fn addr b ep t) :=
  h.extend hp (ite refl refl.onHif)

theorem Effect.sendMsi {fn ent} (h : Effect ps w s t) (hp : [.hif] ⊆ ps := by decide) :
    Effect ps w s (sendMsi fn ent t) :=
  h.extend hp (ite refl (ite refl.onHif refl.onHif))

theorem Effect.signalCq {q} (h : Effect ps w s t) (hp : [.hif] ⊆ ps := by decide) :
    Effect ps w s (signalCq q t) :=
  h.extend hp refl.sendMsi.modQp

theorem Effect.writeCompl {q c} (h : Effect ps w s t) (hp : [.hif] ⊆ ps := by decide) :
    Effect ps w s (writeCompl q c t) :=
  h.extend hp (ite (refl.foldl fun _ _ h => h.hostWrite).hostWrite.modQp.signalCq (refl.foldl fun _ _ h => h.hostWrite).hostWrite.modQp)

theorem Effect.drainGo {k q} (h : Effect ps w s t) (hp : [.hif, .shv] ⊆ ps := by decide) : Effect ps w s (drainGo k q t) := by
  refine h.extend hp ?_
  clear h
  induction k generalizing t with
  | zero => exact refl
  | succ k ih =>
    unfold Machine.drainGo
    split
    · exact refl
    · exact ite (trans refl.modQp.writeCompl.freeStaging ih) refl

theorem Effect.drainCq {q} (h : Effect ps w s t) (hp : [.hif, .shv] ⊆ ps := by decide) :
    Effect ps w s (drainCq q t) :=
  h.extend hp refl.drainGo.noteWait

theorem Effect.postCompl {q c} (h : Effect ps w s t) (hp : [.hif, .shv] ⊆ ps := by decide) :
    Effect ps w s (postCompl q c t) := by
  refine h.extend hp ?_
  unfold Machine.postCompl
  split
  · exact Effect.refl.modQp.drainCq
  · exact Effect.refl.modQp.drainCq
  · exact Effect.refl.freeStaging

theorem Effect.refuseEntry {q cid epoch r} (h : Effect ps w s t) (hp : [.hif, .shv] ⊆ ps := by decide) :
    Effect ps w s (refuseEntry q cid epoch r t) :=
  h.extend hp refl.postCompl

theorem Effect.bindEpoch {e} (h : Effect ps w s t) (hp : [.eng] ⊆ ps := by decide) :
    Effect ps w s (bindEpoch e t) :=
  h.extend hp refl.onEng

theorem Effect.pinAt {i tier} (h : Effect ps w s t) (hp : [.obj] ⊆ ps := by decide) : Effect ps w s (pinAt i tier t).2 :=
  h.modObj hp fun o => by split <;> exact ⟨rfl, fun _ h => h⟩

theorem Effect.takePin {i} (h : Effect ps w s t) (hp : [.obj] ⊆ ps := by decide) :
    Effect ps w s (takePin i t).2 :=
  h.extend hp refl.pinAt

theorem Effect.unbindEpoch {e} (h : Effect ps w s t) (hp : [.eng] ⊆ ps := by decide) :
    Effect ps w s (unbindEpoch e t) := by
  refine h.extend hp ?_
  unfold Machine.unbindEpoch
  split
  · exact Effect.refl
  · exact Effect.refl.onEng

theorem Effect.releaseLocks {husk id} (h : Effect ps w s t) (hp : [.eng] ⊆ ps := by decide) :
    Effect ps w s (releaseLocks husk id t) :=
  h.extend hp refl.onEng

theorem maybeEvict_mem (o : ObjRec) : (maybeEvict o).mem = o.mem ∧ (maybeEvict o).homeMem = o.homeMem := by
  unfold maybeEvict
  split <;> exact ⟨rfl, rfl⟩

theorem Effect.dropPin {key} (h : Effect ps w s t) (hp : [.obj] ⊆ ps := by decide) : Effect ps w s (dropPin key t) :=
  h.modObj hp fun o => by
    dsimp only
    rw [(maybeEvict_mem _).1, (maybeEvict_mem _).2]
    split
    · exact ⟨rfl, fun _ h => h⟩
    · split <;> exact ⟨rfl, fun _ h => h⟩

theorem Effect.zRespond {box status detail body} (h : Effect ps w s t) (hp : [.stew] ⊆ ps := by decide) :
    Effect ps w s (zRespond box status detail body t) :=
  h.modMbx hp fun m hm => by
    dsimp only
    split
    · exact hm
    · split <;> exact hm

theorem Effect.checkDelete {q} (h : Effect ps w s t) (hp : [.stew, .hif] ⊆ ps := by decide) :
    Effect ps w s (checkDelete q t) := by
  refine h.extend hp ?_
  unfold Machine.checkDelete
  dsimp only
  refine .ite ?_ Effect.refl
  split
  · exact Effect.refl.modQp.zRespond
  · exact Effect.refl.modQp

theorem Effect.endCmd {n} (h : Effect ps w s t) (hp : [.stew, .hif, .eng, .obj] ⊆ ps := by decide) :
    Effect ps w s (endCmd n t) := by
  refine h.extend hp ?_
  unfold Machine.endCmd
  dsimp only
  split
  · exact Effect.refl
  · exact (Effect.refl.releaseLocks.unbindEpoch.foldl fun _ _ h => h.dropPin).onHif.checkDelete

theorem Effect.finishCmd {n r} (h : Effect ps w s t) (hp : [.stew, .hif, .eng, .obj, .shv] ⊆ ps := by decide) :
    Effect ps w s (finishCmd n r t) := by
  refine h.extend hp ?_
  unfold Machine.finishCmd
  split
  · exact Effect.refl
  · exact (Effect.ite Effect.refl Effect.refl.postCompl).endCmd

theorem keepsMem_dropUpper : KeepsMem dropUpper := fun _ => ⟨rfl, fun _ _ => rfl⟩

theorem Effect.dropClean {i} (h : Effect ps w s t) (hp : [.obj] ⊆ ps := by decide) : Effect ps w s (dropClean i t) :=
  h.modObj hp keepsMem_dropUpper

theorem Effect.evictCopy {i} (h : Effect ps w s t) (hp : [.obj] ⊆ ps := by decide) :
    Effect ps w s (evictCopy i t) :=
  h.extend hp (ite refl.modObj refl.dropClean)

theorem Effect.evictChoice {tier i} (h : Effect ps w s t) (hp : [.obj, .recd] ⊆ ps := by decide) :
    Effect ps w s (evictChoice tier i t) :=
  h.extend hp refl.evictCopy.token

theorem Effect.failPromotion {i} (h : Effect ps w s t) (hp : [.stew, .hif, .eng, .obj, .shv] ⊆ ps := by decide) :
    Effect ps w s (failPromotion i t) := by
  refine h.extend hp ?_
  unfold Machine.failPromotion
  split
  · exact refl
  · exact foldl (modObj refl (hf := by exact fun _ => ⟨rfl, fun _ _ => rfl⟩)) fun _ _ h => h.finishCmd

theorem Effect.topUpAt {i tier code} (h : Effect ps w s t) (hp : [.stew, .hif, .eng, .obj, .shv, .recd] ⊆ ps := by decide) :
    Effect ps w s (topUpAt i tier code t) := by
  refine h.extend hp ?_
  unfold Machine.topUpAt
  dsimp only
  refine .ite Effect.refl ?_
  refine .ite (Effect.refl.foldl fun _ _ h => h.evictChoice) ?_
  split
  · exact (Effect.refl.foldl fun _ _ h => h.evictChoice).failPromotion
  · exact Effect.refl.foldl fun _ _ h => h.evictChoice

theorem Effect.topUp {i tier code} (h : Effect ps w s t) (hp : [.stew, .hif, .eng, .obj, .shv, .recd] ⊆ ps := by decide) :
    Effect ps w s (topUp i tier code t) :=
  h.extend hp (ite refl.topUpAt refl).topUpAt

theorem Effect.cancelEvict {i} (h : Effect ps w s t) (hp : [.stew, .hif, .eng, .obj, .shv, .recd] ⊆ ps := by decide) :
    Effect ps w s (cancelEvict i t) := by
  refine h.extend hp ?_
  unfold Machine.cancelEvict
  dsimp only
  split
  · exact Effect.refl
  · exact Effect.ite Effect.refl (Effect.refl.modObj.foldl fun _ _ h => h.finishCmd).topUp

theorem Effect.pinObj {i} (h : Effect ps w s t) (hp : [.stew, .hif, .eng, .obj, .shv, .recd] ⊆ ps := by decide) :
    Effect ps w s (pinObj i t).2 :=
  h.extend hp refl.cancelEvict.takePin

theorem Effect.enterCmd {c rs pins} (h : Effect ps w s t)
    (hp : [.stew, .hif, .eng, .obj, .shv, .recd] ⊆ ps := by decide) : Effect ps w s (enterCmd c rs pins t) := by
  refine h.extend hp ?_
  unfold Machine.enterCmd
  extract_lets n s1
  have h1 : Effect [.stew, .hif, .eng, .obj, .shv, .recd] w t s1 := by
    unfold s1
    split
    · exact refl.bindEpoch
    · exact refl
  have h2 := foldlSnd (p := (([] : List Nat), s1)) (l := pins)
    (f := fun a i => (a.1 ++ [(Machine.pinObj i a.2).1], (Machine.pinObj i a.2).2)) h1 fun _ _ h => h.pinObj
  exact (ite h2.onEng h2.onEng.token).onEng.onHif.modQp

theorem Effect.admitHead {q} (h : Effect ps w s t) (hp : [.stew, .hif, .eng, .obj, .shv, .fab, .recd] ⊆ ps := by decide) :
    Effect ps w s (admitHead q t) := by
  refine h.extend hp ?_
  unfold Machine.admitHead
  dsimp only
  split
  · exact Effect.refl
  · split
    · exact Effect.refl.modQp.noteWaiter
    · exact Effect.refl.token.modQp.endWaiter.onHif.onFab.bucketCharge.bucketCharge.refuseEntry
    · exact Effect.refl.token.modQp.endWaiter.onHif.onFab.bucketCharge.bucketCharge.enterCmd

theorem Effect.failCmd {n st} (h : Effect ps w s t) (hp : [.stew, .hif, .eng, .obj, .shv] ⊆ ps := by decide) :
    Effect ps w s (failCmd n st t) :=
  h.extend hp refl.finishCmd

theorem Effect.recordData {qp cid b poisoned} (h : Effect ps w s t) (hp : [.recd] ⊆ ps := by decide) :
    Effect ps w s (recordData qp cid b poisoned t) :=
  h.extend hp (ite refl refl.recordInput)

theorem Effect.modCmd {n f} (h : Effect ps w s t) (hp : [.hif] ⊆ ps := by decide) :
    Effect ps w s (modCmd n f t) :=
  h.extend hp refl.onHif

theorem Effect.ranWith {n r} (h : Effect ps w s t) (hp : [.hif] ⊆ ps := by decide) :
    Effect ps w s (ranWith n r t) :=
  h.extend hp refl.modCmd

theorem Effect.logEv {ev src sev body} (h : Effect ps w s t) (hp : [.rel] ⊆ ps := by decide) :
    Effect ps w s (logEv ev src sev body t) :=
  h.extend hp refl.onRel

theorem Effect.countViolation {t'} (h : Effect ps w s t) (hp : [.hif, .rel] ⊆ ps := by decide) :
    Effect ps w s (countViolation t' t) :=
  h.extend hp refl.onHif.logEv

theorem Effect.countNans {cls sh d role n} (h : Effect ps w s t) (hp : [.idx] ⊆ ps := by decide) :
    Effect ps w s (countNans cls sh d role n t) :=
  h.extend hp (ite refl.onIdx refl)

theorem Effect.searchDrops {c} (h : Effect ps w s t) (hp : [.idx] ⊆ ps := by decide) :
    Effect ps w s (searchDrops c t) :=
  h.extend hp refl.countNans.countNans

theorem Effect.formHusk {x} (h : Effect ps w s t) (hp : [.eng] ⊆ ps := by decide) :
    Effect ps w s (formHusk x t) := by
  refine h.extend hp ?_
  unfold Machine.formHusk
  dsimp only
  exact Effect.refl.onEng

theorem Effect.formUpdate {n c as} (h : Effect ps w s t) (hp : [.stew, .hif, .eng, .obj, .shv] ⊆ ps := by decide) :
    Effect ps w s (formUpdate n c as t) := by
  refine h.extend hp ?_
  unfold Machine.formUpdate
  split
  · exact Effect.refl.failCmd
  · exact Effect.refl.ranWith.formHusk

theorem Reaches.doInsert {n upsert data} (h : Effect ps w s t) (hp : [.stew, .hif, .eng, .obj, .shv, .recd] ⊆ ps := by decide) :
    Reaches ps w s (doInsert n upsert data t) := by
  refine .extend h hp ?_
  unfold Machine.doInsert
  dsimp only
  split
  · exact .next Effect.refl
  · split
    · exact .next Effect.refl
    · split
      · exact .next Effect.refl.failCmd
      · split
        · exact .next Effect.refl.failCmd
        · split
          · exact .next Effect.refl.finishCmd
          · split
            · exact .next Effect.refl.finishCmd
            · exact .next Effect.refl.recordData.formUpdate

theorem Reaches.onData {n op data k} (h : Effect ps w s t) (hk : ∀ c t, Effect ps w s t → Effect ps w s (k c t))
    (hp : [.recd] ⊆ ps := by decide) : Reaches ps w s (onData n op data t k) := by
  unfold Machine.onData
  split
  · exact .next h
  · exact .next (hk _ _ (h.recordData hp))

theorem Effect.countRows {c t' rows sels} (h : Effect ps w s t) (hp : [.idx] ⊆ ps := by decide) :
    Effect ps w s (countRows c t' rows sels t) :=
  h.extend hp (ite refl refl.onIdx).countNans

theorem Effect.countDefaults {t' n} (h : Effect ps w s t) (hp : [.idx] ⊆ ps := by decide) :
    Effect ps w s (countDefaults t' n t) :=
  h.extend hp (ite refl refl.onIdx)

theorem Reaches.doElementwise {n op} (h : Effect ps w s t) (hp : [.stew, .hif, .eng, .obj, .shv] ⊆ ps := by decide) :
    Reaches ps w s (doElementwise n op t) := by
  refine .extend h hp ?_
  unfold Machine.doElementwise
  dsimp only
  split
  · exact .next Effect.refl
  · split
    · exact .next Effect.refl
    · split
      · exact .next Effect.refl.finishCmd
      · exact .next Effect.refl.formUpdate

theorem Reaches.onBinder {n op k} (h : Effect ps w s t) (hk : ∀ c b x t, Effect ps w s t → Effect ps w s (k c b x t))
    (hp : [.stew, .hif, .eng, .obj, .shv, .recd] ⊆ ps := by decide) : Reaches ps w s (onBinder n op t k) := by
  unfold Machine.onBinder
  split
  · exact .next h
  · split
    · exact .next h
    · refine .next ?_
      split
      · exact h.extend hp Effect.refl.failCmd.modQp
      · exact .ite (h.extend hp Effect.refl.failCmd.modQp) (hk _ _ _ _ (h.extend hp Effect.refl.token))

theorem Effect.binderDone {n b} (h : Effect ps w s t) (hp : [.stew, .hif, .eng, .obj, .shv] ⊆ ps := by decide) :
    Effect ps w s (binderDone n b t) :=
  h.extend hp refl.finishCmd

theorem Effect.checkWaits {b} (h : Effect ps w s t) (hp : [.stew, .hif, .shv] ⊆ ps := by decide) :
    Effect ps w s (checkWaits b t) := by
  refine h.extend hp ?_
  unfold Machine.checkWaits
  split
  · exact Effect.refl
  · refine Effect.foldl Effect.refl fun t a h => ?_
    split
    · exact Effect.ite h.modQp.postCompl.checkDelete h
    · exact h

theorem Effect.binderAdd {b n} (h : Effect ps w s t) (hp : [.stew, .hif, .eng, .shv] ⊆ ps := by decide) :
    Effect ps w s (binderAdd b n t) :=
  h.extend hp refl.onEng.checkWaits

theorem Effect.timerToken {island kind} (h : Effect ps w s t) (hp : [.recd] ⊆ ps := by decide) :
    Effect ps w s (timerToken island kind t) :=
  h.extend hp refl.token

theorem Effect.requestSpace {n' tier n fixed system tile pc} (h : Effect ps w s t)
    (e : requestSpace n' tier n fixed system tile pc t = some u) (hp : [.obj, .recd] ⊆ ps := by decide) : Effect ps w s u := by
  refine h.extend hp ?_
  obtain ⟨-, e⟩ := Option.ite_none_left_eq_some.1 e
  obtain ⟨-, e⟩ := Option.ite_none_left_eq_some.1 e
  cases e
  exact refl.foldl fun _ _ h => h.evictChoice

theorem Effect.takeStaging {n' n} (h : Effect ps w s t) (e : takeStaging n' n t = some u) (hp : [.obj, .recd] ⊆ ps := by decide) :
    Effect ps w s u :=
  h.requestSpace e hp

theorem Effect.addObject {n c o x} (h : Effect ps true s t) (e : addObject n c o t = some (x, u))
    (hp : [.obj] ⊆ ps := by decide) (hm : memWf o.mem = true ∧ memWf o.homeMem = true := by exact ⟨rfl, rfl⟩) :
    Effect ps true s u := by
  obtain ⟨p, -, hu⟩ := Option.map_eq_some_iff.1 e
  cases hu
  exact h.onRecsWrites hp fun hc => recsCanonical_tabSet hc hm

theorem Effect.stagePayload {n b x} (h : Effect ps true s t) (e : stagePayload n b t = some (x, u))
    (hp : [.obj, .recd] ⊆ ps := by decide) : Effect ps true s u := by
  refine h.extend hp ?_
  unfold Machine.stagePayload at e
  split at e
  · cases e
    exact refl
  · obtain ⟨v, hv, hu⟩ := Option.bind_eq_some_iff.1 e
    exact (refl.takeStaging hv).addObject hu (hm := ⟨memWf_memWrite _ _ _ rfl, rfl⟩)

theorem Effect.addMeter {t' i n} (h : Effect ps w s t) (hp : [.obj] ⊆ ps := by decide) :
    Effect ps w s (addMeter t' i n t) :=
  h.extend hp refl.onObj

theorem Effect.accrue (h : Effect ps w s t) (hp : [.obj] ⊆ ps := by decide) :
    Effect ps w s (accrue t) :=
  h.extend hp (ite refl (refl.foldl fun _ _ h => h.foldl fun _ _ h => ite h h.addMeter).onObj)

theorem Effect.waitFold (h : Effect ps w s t) (hp : [.fls] ⊆ ps := by decide) :
    Effect ps w s (waitFold t) :=
  h.extend hp refl.onFls

theorem Effect.wireFrame {n vc port f} (h : Effect ps w s t) (hp : [.fab] ⊆ ps := by decide) :
    Effect ps w s (wireFrame n vc port f t) := by
  refine h.extend hp ?_
  unfold Machine.wireFrame
  dsimp only
  exact Effect.refl.onFab

theorem Effect.modPeer {n f} (h : Effect ps w s t) (hp : [.fab] ⊆ ps := by decide) :
    Effect ps w s (modPeer n f t) :=
  h.extend hp refl.onFab

theorem Effect.modVc {n vc f} (h : Effect ps w s t) (hp : [.fab] ⊆ ps := by decide) :
    Effect ps w s (modVc n vc f t) :=
  h.extend hp refl.modPeer

theorem Effect.tagHead {n vc} (h : Effect ps w s t) (hp : [.fab] ⊆ ps := by decide) :
    Effect ps w s (tagHead n vc t) := by
  refine h.extend hp ?_
  unfold Machine.tagHead
  dsimp only
  split
  · split
    · exact Effect.refl
    · exact Effect.refl.modVc
  · exact Effect.refl

theorem Effect.sendFrame {n vc x} (h : Effect ps w s t) (hp : [.fab, .recd] ⊆ ps := by decide) :
    Effect ps w s (sendFrame n vc x t) :=
  h.extend hp refl.bucketCharge.token.wireFrame.onFab.modVc.tagHead

theorem Effect.pumpGo {k n vc} (h : Effect ps w s t) (hp : [.fab, .recd] ⊆ ps := by decide) : Effect ps w s (pumpGo k n vc t) := by
  refine h.extend hp ?_
  clear h
  induction k generalizing t with
  | zero => exact refl
  | succ k ih =>
    unfold Machine.pumpGo
    split
    · exact refl
    · exact trans refl.sendFrame ih

theorem Effect.pump {n vc} (h : Effect ps w s t) (hp : [.fab, .recd] ⊆ ps := by decide) :
    Effect ps w s (pump n vc t) :=
  h.extend hp refl.tagHead.pumpGo

theorem Effect.queueMsg {m} (h : Effect ps w s t) (hp : [.fab, .recd] ⊆ ps := by decide) :
    Effect ps w s (queueMsg m t) :=
  h.extend hp refl.modVc.onFab.pump

theorem Effect.firstGrant {n} (h : Effect ps w s t) (hp : [.fab] ⊆ ps := by decide) :
    Effect ps w s (firstGrant n t) :=
  h.extend hp (ite refl refl.modVc.modVc)

theorem Effect.sendHello {n} (h : Effect ps w s t) (hp : [.fab, .recd] ⊆ ps := by decide) :
    Effect ps w s (sendHello n t) :=
  h.extend hp (ite refl refl.modPeer.firstGrant.onFab.queueMsg)

theorem Effect.sendMsg {m} (h : Effect ps w s t) (hp : [.fab, .rel, .recd] ⊆ ps := by decide) :
    Effect ps w s (sendMsg m t) :=
  h.extend hp (ite refl.sendHello.queueMsg (ite refl.logEv refl))

theorem Effect.sendRequestFor {m answer cmd job} (h : Effect ps w s t) (hp : [.fab, .rel, .recd] ⊆ ps := by decide) :
    Effect ps w s (sendRequestFor m answer cmd job t).2 :=
  h.extend hp refl.onFab.sendMsg

theorem Effect.t4Send {j} (h : Effect ps w s t) (hp : [.fab, .rel, .recd] ⊆ ps := by decide) :
    Effect ps w s (t4Send j t) := by
  refine h.extend hp ?_
  unfold Machine.t4Send
  dsimp only
  split
  · exact Effect.ite Effect.refl.onFab Effect.refl.sendRequestFor
  · exact Effect.refl

theorem Effect.t4Whole {who i write} (h : Effect ps w s t) (hp : [.fab, .rel, .recd] ⊆ ps := by decide) :
    Effect ps w s (t4Whole who i write t) := by
  refine h.extend hp ?_
  unfold Machine.t4Whole
  split
  · exact Effect.refl
  · exact Effect.refl.t4Send

theorem Effect.headerChange {home} (h : Effect ps w s t) (hp : [.obj] ⊆ ps := by decide) :
    Effect ps w s (headerChange home t) :=
  h.extend hp (ite refl (ite refl.onObj refl.onObj))

theorem Effect.onfi {ops} (h : Effect ps w s t) (hp : [.fls] ⊆ ps := by decide) :
    Effect ps w s (onfi ops t) :=
  h.extend hp refl.onFls

theorem Effect.modBlk {b f} (h : Effect ps w s t) (hp : [.fls] ⊆ ps := by decide) :
    Effect ps w s (modBlk b f t) :=
  h.extend hp refl.onFls

theorem Effect.openBlk {b mode use key} (h : Effect ps w s t) (hp : [.fls] ⊆ ps := by decide) :
    Effect ps w s (openBlk b mode use key t) :=
  h.extend hp refl.modBlk.onfi

theorem Effect.endurAdd {b f} (h : Effect ps w s t) (hp : [.fls] ⊆ ps := by decide) :
    Effect ps w s (endurAdd b f t) :=
  h.extend hp refl.onFls

theorem Effect.chanIssue {ch n stream} (h : Effect ps w s t) (hp : [.fab, .recd] ⊆ ps := by decide) :
    Effect ps w s (chanIssue ch n stream t) :=
  h.extend hp refl.token.bucketCharge

theorem Effect.programUnit {b page key u'} (h : Effect ps w s t) (hp : [.fls] ⊆ ps := by decide) :
    Effect ps w s (programUnit b page key u' t).2 := by
  refine h.extend hp ?_
  unfold Machine.programUnit
  dsimp only
  exact Effect.refl.onFls

theorem Effect.saveMap {n} (h : Effect ps w s t) (hp : [.fls] ⊆ ps := by decide) :
    Effect ps w s (saveMap n t) :=
  h.extend hp refl.onFls

theorem Effect.saveAll (h : Effect ps w s t) (hp : [.fls] ⊆ ps := by decide) :
    Effect ps w s (saveAll t) :=
  h.extend hp refl.saveMap.onFls

theorem Effect.mapChange {key u'} (h : Effect ps w s t) (hp : [.fls] ⊆ ps := by decide) :
    Effect ps w s (mapChange key u' t) :=
  h.extend hp (ite refl.onFls.onFls.saveAll (ite refl.onFls.saveAll.onFls refl.onFls))

theorem Effect.programPage {b us} (h : Effect ps w s t) (hp : [.fls, .fab, .recd] ⊆ ps := by decide) :
    Effect ps w s (programPage b us t) :=
  h.extend hp (refl.modBlk.endurAdd.onfi.chanIssue.foldl fun _ _ h => h.programUnit.mapChange)

theorem Effect.writePages {o i tier upper k l} (h : Effect ps w s t) (hp : [.fls, .fab, .recd] ⊆ ps := by decide) :
    Effect ps w s (writePages o i tier upper k l t) := by
  refine h.extend hp ?_
  clear h
  induction k generalizing t l with
  | zero => exact refl
  | succ k ih =>
    unfold Machine.writePages
    dsimp only
    refine ite refl ?_
    split
    · exact refl.onFls
    · exact trans (ite refl.openBlk refl).endurAdd.programPage ih

theorem Effect.writeHome {i tier upper ps'} (h : Effect ps w s t) (hp : [.fls, .fab, .recd] ⊆ ps := by decide) :
    Effect ps w s (writeHome i tier upper ps' t) := by
  refine h.extend hp ?_
  unfold Machine.writeHome
  split
  · exact Effect.ite Effect.refl.writePages Effect.refl
  · exact Effect.refl

theorem Effect.refuseHandle {n st} (h : Effect ps w s t) (hp : [.obj, .rel] ⊆ ps := by decide) :
    Effect ps w s (refuseHandle n st t) :=
  h.extend hp (refl.onObj (hr := by split <;> rfl)).logEv

theorem Reaches.withObject {n c k} (h : Effect ps w s t) (hk : ∀ i o, Reaches ps w s (k i o))
    (hp : [.stew, .hif, .eng, .obj, .shv, .rel] ⊆ ps := by decide) : Reaches ps w s (withObject n c t k) := by
  unfold Machine.withObject
  dsimp only
  split
  · exact .next (h.extend hp Effect.refl.refuseHandle.failCmd)
  · split
    · exact hk _ _
    · exact .next h

theorem Effect.waitMove {i w'} (h : Effect ps w s t) (hp : [.obj] ⊆ ps := by decide) :
    Effect ps w s (waitMove i w' t) :=
  h.extend hp refl.modObj

theorem Effect.moved {w'} (h : Effect ps w s t) (hp : [.stew, .hif, .eng, .obj, .shv] ⊆ ps := by decide) :
    Effect ps w s (moved w' t) :=
  h.extend hp refl.finishCmd

theorem Effect.moveSpace {n' v n fixed} (h : Effect ps w s t) (e : moveSpace n' v n fixed t = some u)
    (hp : [.obj, .recd] ⊆ ps := by decide) : Effect ps w s u := by
  unfold Machine.moveSpace at e
  split at e
  · cases e
  · exact h.extend hp (refl.accrue.requestSpace e)

theorem Effect.begin {i o v} (h : Effect ps w s t)
    (hp : [.stew, .hif, .eng, .obj, .shv, .fab, .rel, .recd] ⊆ ps := by decide) : Effect ps w s (startRehome.begin i o v t) := by
  refine h.extend hp ?_
  unfold startRehome.begin
  split
  · exact refl.failCmd
  · next e =>
    exact ite refl.failCmd (ite (refl.moveSpace e).modObj.t4Whole (ite (refl.moveSpace e).modObj.t4Whole (refl.moveSpace e).modObj))

theorem Effect.startRehome {i w'} (h : Effect ps w s t) (hp : [.stew, .hif, .eng, .obj, .shv, .fab, .rel, .recd] ⊆ ps := by decide) :
    Effect ps w s (startRehome i w' t) := by
  refine h.extend hp ?_
  unfold Machine.startRehome
  split
  · exact Effect.refl
  · exact Effect.ite Effect.refl.waitMove (Effect.ite Effect.refl.moved (Effect.ite Effect.refl.failCmd (Effect.ite Effect.refl.failCmd (Effect.ite (Effect.ite Effect.refl.accrue.evictCopy.begin (Effect.ite Effect.refl.evictCopy.waitMove Effect.refl.waitMove)) Effect.refl.begin))))

theorem Effect.packAsk {i element src expand} (h : Effect ps w s t) (hp : [.fls] ⊆ ps := by decide) :
    Effect ps w s (packAsk i element src expand t) :=
  h.extend hp refl.onFls

theorem Effect.packExpand {i} (h : Effect ps w s t) (hp : [.fls] ⊆ ps := by decide) :
    Effect ps w s (packExpand i t) := by
  refine h.extend hp ?_
  unfold Machine.packExpand
  split
  · exact Effect.refl.packAsk
  · exact Effect.refl

theorem Effect.promote {i w'} (h : Effect ps w s t) (hp : [.stew, .hif, .eng, .obj, .shv, .fls, .fab, .rel, .recd] ⊆ ps := by decide) :
    Effect ps w s (promote i w' t) := by
  refine h.extend hp ?_
  unfold Machine.promote
  dsimp only
  split
  · exact Effect.refl
  · split
    · refine .ite Effect.refl.waitMove ?_
      refine .ite Effect.refl.failCmd ?_
      split
      · exact Effect.refl.failCmd
      · rename_i e
        exact Effect.ite (Effect.refl.moveSpace e).modObj.waitMove.headerChange.t4Whole (Effect.refl.moveSpace e).modObj.waitMove.headerChange.packExpand
    · exact Effect.refl.waitMove
    · exact Effect.refl.waitMove
    · refine .ite (Effect.refl.cancelEvict.foldl fun _ _ h => h.finishCmd).modObj.waitMove ?_
      refine .ite (Effect.refl.cancelEvict.foldl fun _ _ h => h.finishCmd).modObj.moved ?_
      split
      · exact (Effect.refl.cancelEvict.foldl fun _ _ h => h.finishCmd).modObj.failCmd
      · rename_i e
        exact ((Effect.refl.cancelEvict.foldl fun _ _ h => h.finishCmd).modObj.moveSpace e).modObj.waitMove
    · refine .ite (Effect.refl.cancelEvict.foldl fun _ _ h => h.finishCmd).modObj.waitMove ?_
      refine .ite (Effect.refl.cancelEvict.foldl fun _ _ h => h.finishCmd).modObj.moved ?_
      split
      · exact (Effect.refl.cancelEvict.foldl fun _ _ h => h.finishCmd).modObj.failCmd
      · rename_i e
        exact ((Effect.refl.cancelEvict.foldl fun _ _ h => h.finishCmd).modObj.moveSpace e).modObj.waitMove
    · exact Effect.refl.failCmd

theorem Effect.evictMove {i w'} (h : Effect ps w s t) (hp : [.stew, .hif, .eng, .obj, .shv] ⊆ ps := by decide) :
    Effect ps w s (evictMove i w' t) := by
  refine h.extend hp ?_
  unfold Machine.evictMove
  split
  · exact Effect.refl
  · split
    · exact Effect.refl.moved
    · exact Effect.refl.waitMove
    · exact Effect.refl.waitMove
    · exact Effect.refl.waitMove
    · exact Effect.ite Effect.refl.waitMove (Effect.ite Effect.refl.evictCopy.waitMove Effect.refl.accrue.evictCopy.headerChange.moved)
    · exact Effect.refl.failCmd

theorem Effect.moveStep {i w'} (h : Effect ps w s t) (hp : [.stew, .hif, .eng, .obj, .shv, .fls, .fab, .rel, .recd] ⊆ ps := by decide) :
    Effect ps w s (moveStep i t w') := by
  refine h.extend hp ?_
  unfold Machine.moveStep
  split
  · exact Effect.refl.failCmd
  · exact Effect.ite Effect.refl.startRehome (Effect.ite Effect.refl.promote (Effect.ite Effect.refl.evictMove Effect.refl.startRehome))

theorem Reaches.doMove {n rehome} (h : Effect ps w s t) (hp : [.stew, .hif, .eng, .obj, .shv, .fls, .fab, .rel, .recd] ⊆ ps := by decide) :
    Reaches ps w s (doMove n rehome t) := by
  refine .extend h hp ?_
  unfold Machine.doMove
  dsimp only
  split
  · exact .next Effect.refl
  · split
    · exact .next Effect.refl
    · refine .withObject Effect.refl (fun i o => ?_)
      split
      · exact .next Effect.refl.finishCmd
      · exact .next Effect.refl.modCmd.moveStep

theorem Effect.endRead {n} (h : Effect ps w s t) (hp : [.stew, .hif, .eng, .obj, .shv] ⊆ ps := by decide) :
    Effect ps w s (endRead n t) := by
  refine h.extend hp ?_
  unfold Machine.endRead
  dsimp only
  split
  · exact Effect.refl
  · exact Effect.refl.finishCmd

theorem Effect.meterMove {o tier n write} (h : Effect ps w s t) (hp : [.obj] ⊆ ps := by decide) :
    Effect ps w s (meterMove o tier n write t) :=
  h.extend hp (ite refl.addMeter (ite refl.addMeter refl))

theorem Effect.raiseEvent {n code body} (h : Effect ps w s t) (hp : [.stew] ⊆ ps := by decide) :
    Effect ps w s (raiseEvent n code body t) :=
  h.modMbx hp fun m hm => by
    dsimp only
    split
    · next hlt => rw [List.length_append]; exact hlt
    · exact hm

theorem Effect.queueError {q} (h : Effect ps w s t) (hp : [.hif] ⊆ ps := by decide) :
    Effect ps w s (queueError q t) :=
  h.extend hp refl.onHif.sendMsi

theorem Effect.removeObject {i} (h : Effect ps true s t) (hp : [.obj] ⊆ ps := by decide) : Effect ps true s (removeObject i t) :=
  (h.accrue hp).onObjRecs hp (fun hc p hm => hc p (List.mem_of_mem_filter hm)) fun hw => absurd hw (by decide)

theorem Effect.endHusk {id} (h : Effect ps true s t) (hp : [.eng, .obj] ⊆ ps := by decide) :
    Effect ps true s (endHusk id t) := by
  refine h.extend hp ?_
  unfold Machine.endHusk
  dsimp only
  split
  · exact Effect.refl
  · exact Effect.ite (Effect.refl.releaseLocks.foldl fun _ _ h => h.dropPin).onEng (Effect.refl.releaseLocks.foldl fun _ _ h => h.dropPin).onEng.removeObject

theorem Effect.startRebuilds (h : Effect ps w s t) (hp : [.idx] ⊆ ps := by decide) :
    Effect ps w s (startRebuilds t) :=
  h.extend hp refl.onIdx

theorem Effect.commandDone {t' command seq status detail body} (h : Effect ps w s t) (hp : [.stew] ⊆ ps := by decide) :
    Effect ps w s (commandDone t' command seq status detail body t) :=
  h.extend hp refl.raiseEvent

theorem Effect.endRebuild {r status epoch} (h : Effect ps w s t) (hp : [.stew, .idx] ⊆ ps := by decide) :
    Effect ps w s (endRebuild r status epoch t) := by
  refine h.extend hp ?_
  unfold Machine.endRebuild
  dsimp only
  split
  · exact Effect.refl
  · split
    · exact Effect.refl.onIdx.startRebuilds.commandDone
    · exact Effect.refl.onIdx.startRebuilds

theorem Effect.failHusk {id f} (h : Effect ps true s t) (hp : [.stew, .hif, .eng, .idx, .obj, .shv] ⊆ ps := by decide) :
    Effect ps true s (failHusk id f t) := by
  refine h.extend hp ?_
  unfold Machine.failHusk
  dsimp only
  split
  · exact Effect.refl
  · split
    · exact Effect.refl.endHusk.finishCmd
    · exact Effect.refl.endHusk.onStew.zRespond
    · exact Effect.refl.endHusk.endRebuild
    · exact Effect.refl.endHusk

theorem Effect.modStage {k f} (h : Effect ps w s t) (hp : [.shv] ⊆ ps := by decide) :
    Effect ps w s (modStage k f t) :=
  h.extend hp refl.onShv

theorem Effect.dropRead {id a} (h : Effect ps w s t) (hp : [.shv] ⊆ ps := by decide) :
    Effect ps w s (dropRead id a t) :=
  h.extend hp refl.onShv.modStage

theorem Effect.modStat {k f} (h : Effect ps w s t) (hp : [.shv] ⊆ ps := by decide) :
    Effect ps w s (modStat k f t) :=
  h.extend hp refl.onShv

theorem Effect.discardReads (h : Effect ps w s t) (hp : [.shv] ⊆ ps := by decide) :
    Effect ps w s (discardReads t) :=
  h.extend hp (refl.foldl fun _ _ h => h.modStat.dropRead)

theorem Effect.dropUnstarted {n} (h : Effect ps w s t) (hp : [.stew, .hif, .eng, .obj, .shv] ⊆ ps := by decide) :
    Effect ps w s (dropUnstarted n t) := by
  refine h.extend hp ?_
  unfold Machine.dropUnstarted
  dsimp only
  split
  · exact Effect.refl
  · exact (Effect.ite Effect.refl.onShv.endCmd Effect.refl.onShv.modCmd).discardReads

theorem Effect.stopCmd {n} (h : Effect ps true s t) (hp : [.stew, .hif, .eng, .idx, .obj, .shv] ⊆ ps := by decide) :
    Effect ps true s (stopCmd n t) := by
  refine h.extend hp ?_
  unfold Machine.stopCmd
  dsimp only
  split
  · exact Effect.ite Effect.refl.modCmd.failHusk Effect.refl.modCmd
  · split
    · exact Effect.ite Effect.refl.modCmd.dropUnstarted Effect.refl.modCmd
    · exact Effect.refl.modCmd

theorem Effect.recordReg {fn off value} (h : Effect ps w s t) (hp : [.recd] ⊆ ps := by decide) :
    Effect ps w s (recordReg fn off value t) :=
  h.extend hp refl.recordInput

theorem Effect.mbxAbort (h : Effect ps w s t) (hp : [.hif, .rel] ⊆ ps := by decide) :
    Effect ps w s (mbxAbort t) :=
  h.extend hp refl.onHif.logEv

theorem Effect.writeMsix {fn off width value} (h : Effect ps w s t) (hp : [.hif] ⊆ ps := by decide) :
    Effect ps w s (writeMsix fn off width value t) := by
  refine h.extend hp ?_
  unfold Machine.writeMsix
  dsimp only
  split
  · exact Effect.refl
  · exact Effect.refl.onHif

theorem Effect.mbxDiscard {box} (h : Effect ps w s t) (hp : [.stew, .hif] ⊆ ps := by decide) :
    Effect ps w s (mbxDiscard box t) :=
  h.extend hp refl.modMbx.accessError

theorem Effect.stewardInt {source} (h : Effect ps w s t) (hp : [.recd] ⊆ ps := by decide) :
    Effect ps w s (stewardInt source t) :=
  h.extend hp refl.token

theorem Effect.takeInto {box r} (h : Effect ps w s t) (hp : [.stew] ⊆ ps := by decide) :
    Effect ps w s (takeInto box r t) :=
  h.extend hp refl.modMbx

theorem Effect.mailMsi {fn} (h : Effect ps w s t) (hp : [.aon, .hif] ⊆ ps := by decide) :
    Effect ps w s (mailMsi fn t) :=
  h.extend hp (ite refl.onAon refl.sendMsi)

theorem Reaches.onZalpol {box code k} (h : Effect ps w s t) (hk : ∀ m, Effect ps w s (k m t)) :
    Reaches ps w s (onZalpol box code t k) := by
  unfold Machine.onZalpol
  split
  · exact .next (hk _)
  · exact .next h

theorem Effect.zFail {box status detail} (h : Effect ps w s t) (hp : [.stew] ⊆ ps := by decide) :
    Effect ps w s (zFail box status detail t) :=
  h.extend hp refl.zRespond

theorem Effect.zChecked {box l k} (h : Effect ps w s t) (hk : Effect ps w s (k t)) (hp : [.stew] ⊆ ps := by decide) :
    Effect ps w s (zChecked box l t k) := by
  unfold Machine.zChecked
  split
  · exact h.zFail hp
  · exact hk

theorem Effect.clearQueue {q} (h : Effect ps w s t) (hp : [.hif, .shv] ⊆ ps := by decide) :
    Effect ps w s (clearQueue q t) :=
  h.extend hp (refl.modQp.onHif.foldl fun _ _ h => h.freeStaging)

theorem Effect.unmapUnit {u'} (h : Effect ps w s t) (hp : [.hif, .obj] ⊆ ps := by decide) :
    Effect ps w s (unmapUnit u' t) := by
  refine h.extend hp ?_
  unfold Machine.unmapUnit
  split
  · exact Effect.refl
  · exact Effect.refl.onHif.dropPin

theorem Effect.mapUnit {h' u' off} (h : Effect ps w s t) (hp : [.stew, .hif, .eng, .obj, .shv, .recd] ⊆ ps := by decide) :
    Effect ps w s (mapUnit h' u' off t) := by
  refine h.extend hp ?_
  unfold Machine.mapUnit
  dsimp only
  exact Effect.refl.unmapUnit.pinObj.onHif

theorem Effect.genFail {box b} (h : Effect ps w s t) (hp : [.stew] ⊆ ps := by decide) :
    Effect ps w s (genFail box b t) :=
  h.extend hp refl.zRespond

theorem Effect.zData {m data} (h : Effect ps w s t) (hp : [.recd] ⊆ ps := by decide) :
    Effect ps w s (zData m data t) :=
  h.extend hp refl.recordData

theorem Effect.evictFor {tier place need} (h : Effect ps w s t) (hp : [.obj, .recd] ⊆ ps := by decide) :
    Effect ps w s (evictFor tier place need t) :=
  h.extend hp (refl.foldl fun _ _ h => h.evictChoice)

theorem Effect.genRoom {g} (h : Effect ps w s t) (hp : [.obj, .recd] ⊆ ps := by decide) :
    Effect ps w s (genRoom g t) :=
  h.extend hp ((ite refl refl.evictFor).foldl fun _ _ h => h.evictFor)

theorem Effect.generationBad {g} (h : Effect ps w s t) (e : generationBad g t = .ok u) (hp : [.obj, .recd] ⊆ ps := by decide) :
    Effect ps w s u := by
  unfold Machine.generationBad at e
  repeat' split at e
  all_goals cases e
  exact h.genRoom hp

theorem Effect.zHusk {box x} (h : Effect ps w s t) (hp : [.stew, .eng] ⊆ ps := by decide) :
    Effect ps w s (zHusk box x t) := by
  refine h.extend hp ?_
  unfold Machine.zHusk
  split
  · exact Effect.refl.zFail
  · exact Effect.refl.formHusk

theorem Effect.genHusk {box g} (h : Effect ps w s t) (hp : [.stew, .eng] ⊆ ps := by decide) :
    Effect ps w s (genHusk box g t) := by
  refine h.extend hp ?_
  unfold Machine.genHusk
  split
  · exact Effect.refl.zFail
  · exact Effect.refl.onStew.zHusk

theorem Effect.collHusk {box t' c d} (h : Effect ps w s t) (hp : [.stew, .eng] ⊆ ps := by decide) :
    Effect ps w s (collHusk box t' c d t) :=
  h.extend hp refl.zHusk

theorem Reaches.onRebuild {box kind k} (h : Effect ps w s t) (hk : ∀ m, Effect ps w s (k m t)) :
    Reaches ps w s (onRebuild box kind t k) := by
  unfold Machine.onRebuild
  split
  · exact .onZalpol h hk
  · exact .next h

theorem Effect.rebuildColl {box m k} (h : Effect ps w s t) (hk : ∀ c d, Effect ps w s (k c d t)) (hp : [.stew] ⊆ ps := by decide) :
    Effect ps w s (rebuildColl box m t k) := by
  refine ite (h.zFail hp) (ite (h.zFail hp) ?_)
  split
  · exact h.zFail hp
  · exact ite (h.zFail hp) (hk _ _)

theorem Effect.addRebuild {b} (h : Effect ps w s t) (hp : [.idx] ⊆ ps := by decide) :
    Effect ps w s (addRebuild b t).2 :=
  h.extend hp refl.onIdx.startRebuilds

theorem Effect.acceptRebuild {box m b} (h : Effect ps w s t) (hp : [.stew, .idx] ⊆ ps := by decide) :
    Effect ps w s (acceptRebuild box m b t) :=
  h.extend hp refl.addRebuild.zRespond

theorem Effect.zHandle {box n a k} (h : Effect ps w s t) (hk : ∀ o, Effect ps w s (k o t))
    (hp : [.stew, .obj, .rel] ⊆ ps := by decide) : Effect ps w s (zHandle box n a t k) := by
  unfold Machine.zHandle
  split
  · exact h.extend hp refl.refuseHandle.zFail
  · split
    · exact hk _
    · exact h.extend hp refl.zFail

theorem Effect.zBinder {box m k} (h : Effect ps w s t) (hk : ∀ i x, Effect ps w s (k i x t)) (hp : [.stew] ⊆ ps := by decide) :
    Effect ps w s (zBinder box m t k) := by
  unfold Machine.zBinder
  refine h.zChecked ?_ hp
  split
  · exact h.zFail hp
  · exact ite (hk _ _) (h.zFail hp)

theorem Effect.endWaits {b} (h : Effect ps w s t) (hp : [.stew, .hif, .shv] ⊆ ps := by decide) :
    Effect ps w s (endWaits b t) := by
  refine h.extend hp ?_
  unfold Machine.endWaits
  refine Effect.foldl Effect.refl fun t a h => ?_
  split
  · exact h.modQp.postCompl.checkDelete
  · exact h

theorem Effect.modChan {ch f} (h : Effect ps w s t) (hp : [.fls] ⊆ ps := by decide) :
    Effect ps w s (modChan ch f t) :=
  h.extend hp refl.onFls

theorem Effect.passReserve {ch} (h : Effect ps w s t) (hp : [.fls] ⊆ ps := by decide) :
    Effect ps w s (passReserve ch t) := by
  refine h.extend hp ?_
  unfold Machine.passReserve
  dsimp only
  exact Effect.refl.onFls

theorem Effect.mediaEvent {ch key kind} (h : Effect ps w s t) (hp : [.stew] ⊆ ps := by decide) :
    Effect ps w s (mediaEvent ch key kind t) :=
  h.extend hp refl.raiseEvent

theorem Effect.forgetBlocks {gone} (h : Effect ps w s t) (hp : [.fls] ⊆ ps := by decide) :
    Effect ps w s (forgetBlocks gone t) :=
  h.extend hp refl.onFls

theorem Effect.pumpPages (h : Effect ps w s t) (hp : [.fls, .fab, .recd] ⊆ ps := by decide) :
    Effect ps w s (pumpPages t) := by
  refine h.extend hp ?_
  unfold Machine.pumpPages
  dsimp only
  refine Effect.onFls ?_
  refine Effect.foldl (Effect.refl.onFls) fun t a h => ?_
  split
  · exact h.writePages
  · exact h

theorem Effect.spdmSend {b} (h : Effect ps w s t) (hp : [.stew] ⊆ ps := by decide) :
    Effect ps w s (spdmSend b t) :=
  h.extend hp refl.onStew

theorem Effect.kAnswer {m status detail} (h : Effect ps w s t) (hp : [.stew] ⊆ ps := by decide) :
    Effect ps w s (kAnswer m status detail t) :=
  h.extend hp refl.spdmSend

theorem Effect.kDone {m status detail} (h : Effect ps w s t) (hp : [.stew] ⊆ ps := by decide) :
    Effect ps w s (kDone m status detail t) :=
  h.extend hp refl.onStew.kAnswer

theorem Effect.modRun {id f} (h : Effect ps w s t) (hp : [.rel] ⊆ ps := by decide) :
    Effect ps w s (modRun id f t) :=
  h.extend hp refl.onRel

theorem Effect.modCulm {k f} (h : Effect ps w s t) (hp : [.stk] ⊆ ps := by decide) :
    Effect ps w s (modCulm k f t) :=
  h.extend hp refl.onStk

theorem Effect.takeOut {kind unit} (h : Effect ps w s t) (hp : [.shv, .stk, .rel] ⊆ ps := by decide) :
    Effect ps w s (takeOut kind unit t) :=
  h.extend hp (ite refl.onShv (ite refl.modCulm refl.onRel))

theorem Effect.startRuns (h : Effect ps w s t) (hp : [.stew, .shv, .stk, .rel] ⊆ ps := by decide) :
    Effect ps w s (startRuns t) :=
  h.extend hp (refl.foldl fun _ _ h => ite h (ite h.modRun.commandDone h.modRun.takeOut))

theorem Effect.detect {d} (h : Effect ps w s t) (hp : [.rel] ⊆ ps := by decide) : Effect ps w s (detect d t) :=
  h.onRelBounded hp fun hd hs => by
    split
    · next hlt => exact ⟨by rw [List.length_append]; exact hlt, hs⟩
    · exact ⟨hd, hs⟩

theorem Effect.retireTested {x d} (h : Effect ps w s t) (hp : [.shv, .stk, .rel] ⊆ ps := by decide) :
    Effect ps w s (retireTested x d t) :=
  h.extend hp (ite refl.onShv.detect (ite refl.onStk.detect refl.onRel.detect))

theorem Effect.bringBack {x} (h : Effect ps w s t) (hp : [.shv, .stk, .rel] ⊆ ps := by decide) :
    Effect ps w s (bringBack x t) :=
  h.extend hp (ite refl.onShv (ite refl.modCulm refl.onRel))

theorem Effect.loseVolatile (h : Effect ps true s t) (hp : [.obj, .fls] ⊆ ps := by decide) : Effect ps true s (loseVolatile t) := by
  refine h.extend hp ((onFls ?_).foldl fun _ _ h => h.removeObject)
  refine refl.onObjRecs (by decide) (fun hc p hm => ?_) fun hw => absurd hw (by decide)
  obtain ⟨q, hq, rfl⟩ := List.mem_map.1 hm
  exact ⟨(hc q hq).1, rfl⟩

theorem Effect.putKept {k} (h : Effect ps true s t) (hk : MemoriesCanonical s → RecsCanonical k.obj)
    (hp : [.stew, .eng, .idx, .obj, .fls] ⊆ ps := by decide) : Effect ps true s (putKept k t) where
  frame p hn := sameOn_trans (h.frame p hn) (by
    cases p <;> first | rfl | exact absurd (hp (by decide)) hn)
  bounded hs := h.bounded hs
  canonical hs := ⟨hk hs, (h.canonical hs).2⟩
  bytes hw := absurd hw (by decide)

theorem Effect.restoreSection {x} (h : Effect ps true s t) (hp : [.obj] ⊆ ps := by decide) :
    Effect ps true s (restoreSection t x) := by
  refine ite h (h.onRecsWrites hp fun hc => recsCanonical_tabSet hc ?_)
  have hold := forall_tabGetD (P := fun o : ObjRec => memWf o.mem = true ∧ memWf o.homeMem = true)
    (i := hIndex (fld x.object 0 8)) (d := {}) hc ⟨rfl, rfl⟩
  dsimp only
  split
  · exact ⟨memWf_memWrite _ _ _ rfl, hold.2⟩
  · exact ⟨hold.1, memWf_memWrite _ _ _ rfl⟩

theorem Effect.resetMbx {n} (h : Effect ps w s t) (hp : [.stew] ⊆ ps := by decide) : Effect ps w s (resetMbx n t) :=
  h.modMbx hp fun _ _ => Nat.zero_le 64

theorem Effect.stopQueue {q} (h : Effect ps true s t) (hp : [.stew, .hif, .eng, .idx, .obj, .shv] ⊆ ps := by decide) :
    Effect ps true s (stopQueue q t) :=
  h.extend hp ((refl.modQp.foldl fun _ _ h => h.freeStaging).foldl fun _ _ h => h.stopCmd).checkDelete

theorem Effect.stopFunction {fn} (h : Effect ps true s t) (hp : [.stew, .hif, .eng, .idx, .obj, .shv] ⊆ ps := by decide) :
    Effect ps true s (stopFunction fn t) :=
  h.extend hp (refl.foldl fun _ _ h => h.stopQueue)

theorem Effect.recordPin {src st} (h : Effect ps w s t) (hp : [.recd] ⊆ ps := by decide) :
    Effect ps w s (recordPin src st t) :=
  h.extend hp refl.recordInput

theorem Effect.stopAll (h : Effect ps true s t) (hp : [.stew, .hif, .eng, .idx, .obj, .shv, .rel] ⊆ ps := by decide) :
    Effect ps true s (stopAll t) :=
  h.extend hp ((refl.foldl fun _ _ h => h.stopQueue).foldl fun _ _ h => h.resetMbx).logEv

theorem Effect.entryUnread {qp} (h : Effect ps w s t) (hp : [.hif, .shv] ⊆ ps := by decide) :
    Effect ps w s (entryUnread qp t) :=
  h.extend hp (ite refl refl.modQp.queueError.postCompl)

theorem Effect.cxlAnswer {rc b} (h : Effect ps w s t) (hp : [.stew] ⊆ ps := by decide) :
    Effect ps w s (cxlAnswer rc b t) :=
  h.extend hp refl.onStew

theorem Effect.setSpdm {p} (h : Effect ps w s t) (hp : [.stew] ⊆ ps := by decide) :
    Effect ps w s (setSpdm p t) :=
  h.extend hp refl.onStew

theorem Effect.spdmError {e} (h : Effect ps w s t) (hp : [.stew] ⊆ ps := by decide) :
    Effect ps w s (spdmError e t) :=
  h.extend hp refl.spdmSend

theorem Effect.endOutside {n c r} (h : Effect ps w s t) (hp : [.stew, .hif, .eng, .obj, .shv, .fab, .rel, .recd] ⊆ ps := by decide) :
    Effect ps w s (endOutside n c r t) := by
  refine h.extend hp ?_
  unfold Machine.endOutside
  split
  · exact (Effect.ite Effect.refl Effect.refl.sendMsg).endCmd
  · exact Effect.refl.finishCmd

theorem Effect.modRt {sh f} (h : Effect ps w s t) (hp : [.shv] ⊆ ps := by decide) :
    Effect ps w s (modRt sh f t) :=
  h.extend hp refl.onShv

theorem Effect.restartEdges {sh base} (h : Effect ps w s t) (hp : [.shv] ⊆ ps := by decide) :
    Effect ps w s (restartEdges sh base t) := by
  refine h.extend hp ?_
  unfold Machine.restartEdges
  dsimp only
  exact Effect.refl.onShv

theorem Effect.modPool {t' f} (h : Effect ps w s t) (hp : [.shv] ⊆ ps := by decide) :
    Effect ps w s (modPool t' f t) :=
  h.extend hp refl.onShv

theorem Effect.requestStaging {sh b} (h : Effect ps w s t) (hp : [.shv] ⊆ ps := by decide) :
    Effect ps w s (requestStaging sh b t) :=
  h.extend hp (refl.foldl fun _ _ h => ite h h.modPool)

theorem Effect.enterStage {sh d q src b} (h : Effect ps w s t) (hp : [.shv] ⊆ ps := by decide) :
    Effect ps w s (enterStage sh d q src b t) :=
  h.extend hp (ite (refl.foldl fun _ _ h => h.modStage).requestStaging (refl.foldl fun _ _ h => h.modStage))

theorem Effect.closeBatch {sh} (h : Effect ps w s t) (hp : [.shv, .recd] ⊆ ps := by decide) :
    Effect ps w s (closeBatch sh t) :=
  h.extend hp (ite refl (ite refl.modRt.restartEdges refl.modRt).token.enterStage)

theorem Effect.joinItem {n sh c i} (h : Effect ps w s t) (hp : [.shv, .recd] ⊆ ps := by decide) :
    Effect ps w s (joinItem n sh c t i) :=
  h.extend hp (ite (ite refl refl.closeBatch).modRt.closeBatch (ite refl refl.closeBatch).modRt)

theorem Effect.modEdge {sh d p q f} (h : Effect ps w s t) (hp : [.shv] ⊆ ps := by decide) :
    Effect ps w s (modEdge sh d p q f t) :=
  h.extend hp refl.onShv

theorem Effect.spendCredit {sh d i num} (h : Effect ps w s t) (hp : [.shv] ⊆ ps := by decide) :
    Effect ps w s (spendCredit sh d i num t) :=
  h.extend hp (refl.foldl fun _ _ h => h.modEdge)

theorem Effect.modFan {n f} (h : Effect ps w s t) (hp : [.hif] ⊆ ps := by decide) :
    Effect ps w s (modFan n f t) :=
  h.extend hp refl.modCmd

theorem Effect.closeFan {n} (h : Effect ps w s t) (hp : [.hif, .shv] ⊆ ps := by decide) :
    Effect ps w s (closeFan n t) := by
  refine h.extend hp ?_
  unfold Machine.closeFan
  split
  · exact Effect.refl
  · exact Effect.ite Effect.refl Effect.refl.modFan.onShv

theorem Effect.sendRequest {m answer cmd} (h : Effect ps w s t) (hp : [.fab, .rel, .recd] ⊆ ps := by decide) :
    Effect ps w s (sendRequest m answer cmd t).2 :=
  h.extend hp refl.sendRequestFor

theorem Effect.askOwner {n c o} (h : Effect ps w s t) (hp : [.hif, .fab, .rel, .recd] ⊆ ps := by decide) :
    Effect ps w s (askOwner n c o t) :=
  h.extend hp (ite refl.modFan refl.sendRequest.modFan)

theorem Effect.askOwners {n} (h : Effect ps w s t) (hp : [.hif, .shv, .fab, .rel, .recd] ⊆ ps := by decide) :
    Effect ps w s (askOwners n t) := by
  refine h.extend hp ?_
  unfold Machine.askOwners
  dsimp only
  split
  · exact Effect.refl
  · exact Effect.ite Effect.refl (Effect.refl.onShv.modCmd.foldl fun _ _ h => h.askOwner).closeFan

theorem Effect.claimOutput {sh d i b} (h : Effect ps w s t) (hp : [.hif, .shv, .fab, .rel, .recd] ⊆ ps := by decide) :
    Effect ps w s (claimOutput sh d i b t) :=
  h.extend hp (ite (ite ((ite (ite refl refl.onShv) refl.spendCredit).foldl fun _ _ h => h.askOwners) (ite (ite refl refl.onShv) refl.spendCredit)).modRt (ite ((ite (ite refl refl.onShv) refl.spendCredit).foldl fun _ _ h => h.askOwners) (ite (ite refl refl.onShv) refl.spendCredit)))

theorem Effect.meterTile {b ns} (h : Effect ps w s t) (hp : [.obj] ⊆ ps := by decide) :
    Effect ps w s (meterTile b ns t) :=
  h.extend hp (refl.foldl fun _ _ h => h.addMeter)

theorem Effect.noteConvert {key xs ys} (h : Effect ps w s t) (hp : [.shv] ⊆ ps := by decide) :
    Effect ps w s (noteConvert key xs ys t) :=
  h.extend hp (ite refl.onShv refl.onShv)

theorem Effect.noteAt {sh i tile f xs ys} (h : Effect ps w s t) (hp : [.shv] ⊆ ps := by decide) :
    Effect ps w s (noteAt sh i tile f xs ys t) :=
  h.extend hp (ite refl.noteConvert refl)

theorem Effect.noteExpert {sh i tile b k} (h : Effect ps w s t) (hp : [.shv] ⊆ ps := by decide) :
    Effect ps w s (noteExpert sh i tile b t k) :=
  h.extend hp (refl.foldl fun _ _ h => ite h h.noteAt)

theorem Effect.noteBag {sh i tile c bag} (h : Effect ps w s t) (hp : [.shv] ⊆ ps := by decide) :
    Effect ps w s (noteBag sh i tile c bag t) :=
  h.extend hp (refl.foldl fun _ _ h => ite h.noteAt h)

theorem Effect.noteStage {sh i tile b} (h : Effect ps w s t) (hp : [.shv] ⊆ ps := by decide) :
    Effect ps w s (noteStage sh i tile b t) :=
  h.extend hp ((ite (refl.foldl fun _ _ h => h.noteExpert) refl).foldl fun _ _ h => ite h (ite h.noteAt (ite h.noteBag (ite (h.foldl fun _ _ h => h.noteAt) h))))

theorem Effect.freeLanding {key num} (h : Effect ps w s t) (hp : [.shv] ⊆ ps := by decide) :
    Effect ps w s (freeLanding key num t) := by
  refine h.extend hp ?_
  unfold Machine.freeLanding
  dsimp only
  exact (Effect.refl.foldl fun _ _ h => h.dropRead).modStage

theorem Effect.unpinBatch {sh num} (h : Effect ps w s t) (hp : [.shv] ⊆ ps := by decide) :
    Effect ps w s (unpinBatch sh num t) :=
  h.extend hp refl.onShv

theorem Effect.deliverOn {sh d i b} (h : Effect ps w s t) (hp : [.shv] ⊆ ps := by decide) :
    Effect ps w s (deliverOn sh d i b t) :=
  h.extend hp (refl.foldl fun _ _ h => h.enterStage)

theorem Effect.finishSplit {sh i b} (h : Effect ps w s t) (hp : [.shv] ⊆ ps := by decide) :
    Effect ps w s (finishSplit sh i b t) :=
  h.extend hp (ite refl refl.onShv.spendCredit.deliverOn)

theorem Effect.leaveCmd {sh num n c} (h : Effect ps w s t) (hp : [.stew, .hif, .eng, .obj, .shv, .fab, .rel, .recd] ⊆ ps := by decide) :
    Effect ps w s (leaveCmd sh num n c t) := by
  refine h.extend hp ?_
  unfold Machine.leaveCmd
  dsimp only
  split
  · exact (Effect.ite Effect.refl Effect.refl.sendMsg).endCmd
  · exact (Effect.ite Effect.refl Effect.refl.postCompl).endCmd

theorem Effect.leaveItem {sh num i} (h : Effect ps w s t) (hp : [.stew, .hif, .eng, .obj, .shv, .fab, .rel, .recd] ⊆ ps := by decide) :
    Effect ps w s (leaveItem sh num t i) := by
  refine h.extend hp ?_
  unfold Machine.leaveItem
  dsimp only
  split
  · exact Effect.refl.modCmd
  · exact Effect.ite Effect.refl.modCmd.leaveCmd Effect.refl.modCmd

theorem Effect.markUser {p} (h : Effect ps w s t) (hp : [.hif, .rel] ⊆ ps := by decide) :
    Effect ps w s (markUser t p) := by
  refine h.extend hp ?_
  unfold Machine.markUser
  dsimp only
  split
  · exact Effect.ite Effect.refl.modCmd.countViolation Effect.refl.modCmd
  · exact Effect.refl.modCmd

theorem Effect.putStream {key x} (h : Effect ps w s t) (hp : [.shv] ⊆ ps := by decide) :
    Effect ps w s (putStream key x t) :=
  h.extend hp refl.modStage

theorem Effect.consumeLanded {key b} (h : Effect ps w s t) (hp : [.shv] ⊆ ps := by decide) :
    Effect ps w s (consumeLanded key b t) :=
  h.extend hp (ite refl (refl.foldl fun _ _ h => h.dropRead))

theorem Effect.chargeRead {us tier n} (h : Effect ps w s t) (hp : [.fab] ⊆ ps := by decide) :
    Effect ps w s (chargeRead us tier n t) :=
  h.extend hp (ite refl.bucketCharge refl)

theorem Effect.tagReads (h : Effect ps w s t) (hp : [.shv] ⊆ ps := by decide) :
    Effect ps w s (tagReads t) := by
  refine h.extend hp ?_
  unfold Machine.tagReads
  dsimp only
  exact Effect.refl.onShv

theorem Effect.addRead {key b g h' tier off len bran} (h : Effect ps w s t) (hp : [.stew, .hif, .eng, .obj, .shv, .recd] ⊆ ps := by decide) :
    Effect ps w s (addRead key b g h' tier off len bran t) :=
  h.extend hp refl.cancelEvict.pinAt.onShv.modStage.tagReads

theorem Effect.issueRead {key tile e b x g rest} (h : Effect ps w s t) (hp : [.stew, .hif, .eng, .obj, .shv, .fab, .recd] ⊆ ps := by decide) :
    Effect ps w s (issueRead key tile e b x g rest t) := by
  refine h.extend hp ?_
  unfold Machine.issueRead
  dsimp only
  split
  · exact Effect.refl.putStream
  · refine .ite Effect.refl ?_
    split
    · exact Effect.refl.consumeLanded
    · exact (Effect.refl.addRead.chargeRead.foldl fun _ _ h => h.addRead.chargeRead).putStream

theorem Effect.pushOp {k o} (h : Effect ps w s t) (hp : [.stk] ⊆ ps := by decide) :
    Effect ps w s (pushOp k o t) :=
  h.extend hp refl.modCulm

theorem Effect.sendOp {key k tile num users husk tenant objs op} (h : Effect ps w s t)
    (hp : [.stew, .hif, .eng, .obj, .shv, .stk, .recd] ⊆ ps := by decide) :
    Effect ps w s (sendOp key k tile num users husk tenant objs op t) :=
  h.extend hp (foldlSnd (p := (([] : List Nat), t)) refl fun _ _ h => h.pinObj).onShv.pushOp

theorem Effect.issueSeg {key tile e b x g rest} (h : Effect ps w s t) (hp : [.stew, .hif, .eng, .obj, .shv, .stk, .fab, .rel, .recd] ⊆ ps := by decide) :
    Effect ps w s (issueSeg key tile e b x g rest t) := by
  refine h.extend hp ?_
  unfold Machine.issueSeg
  dsimp only
  refine .ite (Effect.refl.foldl fun _ _ h => h.markUser).putStream ?_
  split
  · exact (Effect.refl.foldl fun _ _ h => h.markUser).issueRead
  · exact Effect.ite (Effect.refl.foldl fun _ _ h => h.markUser) (Effect.refl.foldl fun _ _ h => h.markUser).sendOp.putStream

theorem Effect.modHusk {h' f} (h : Effect ps w s t) (hp : [.eng] ⊆ ps := by decide) :
    Effect ps w s (modHusk h' f t) :=
  h.extend hp refl.onEng

theorem Effect.issueElementwise {key tile w'} (h : Effect ps w s t) (hp : [.stew, .hif, .eng, .obj, .shv, .stk, .rel, .recd] ⊆ ps := by decide) :
    Effect ps w s (issueElementwise key tile w' t) := by
  refine h.extend hp ?_
  unfold Machine.issueElementwise
  dsimp only
  split
  · exact Effect.refl.markUser.modHusk.modHusk
  · exact Effect.ite Effect.refl Effect.refl.sendOp.modHusk

theorem Effect.loseUser {u'} (h : Effect ps w s t) (hp : [.hif] ⊆ ps := by decide) :
    Effect ps w s (loseUser t u') :=
  h.extend hp refl.modCmd

theorem Effect.landOne {poisoned id a} (h : Effect ps w s t) (hp : [.hif, .obj, .shv] ⊆ ps := by decide) :
    Effect ps w s (landOne poisoned t id a) :=
  h.extend hp (ite (ite ((refl.foldl fun _ _ h => h.dropPin).modStat.foldl fun _ _ h => h.loseUser) (refl.foldl fun _ _ h => h.dropPin).modStat).onShv (refl.foldl fun _ _ h => h.dropPin).modStat.dropRead)

theorem Effect.settleObj {i} (h : Effect ps w s t) (hp : [.stew, .hif, .eng, .obj, .shv, .fls, .fab, .rel, .recd] ⊆ ps := by decide) :
    Effect ps w s (settleObj i t) := by
  refine h.extend hp ?_
  unfold Machine.settleObj
  split
  · exact Effect.refl
  · exact Effect.refl.modObj.foldl fun _ _ h => h.moveStep

theorem Effect.t4Stop {i st} (h : Effect ps w s t)
    (hp : [.stew, .hif, .eng, .obj, .shv, .fls, .fab, .rel, .recd] ⊆ ps := by decide) : Effect ps w s (t4Stop i st t) := by
  refine h.extend hp ?_
  unfold Machine.t4Stop
  dsimp only
  split
  · exact refl.onFab
  · split
    · exact refl.onFab.accrue.modObj.failCmd.settleObj
    · split
      · exact (foldl (modObj refl.onFab.accrue (hf := by exact fun _ => ⟨rfl, fun _ _ => rfl⟩)) fun _ _ h => h.failCmd).settleObj
      · exact (refl.onFab.modObj.foldl fun _ _ h => h.failCmd).settleObj
      · exact refl.onFab

theorem Effect.t4Fail {j st} (h : Effect ps w s t)
    (hp : [.stew, .hif, .eng, .obj, .shv, .fls, .fab, .rel, .recd] ⊆ ps := by decide) : Effect ps w s (t4Fail j st t) := by
  refine h.extend hp ?_
  unfold Machine.t4Fail
  split
  · exact refl.t4Stop
  · exact refl.modObj
  · exact refl.onFab
  · exact refl.modObj.failCmd
  · exact refl.failCmd
  · refine getD (fun u hu => ?_) refl
    obtain ⟨a, -, rfl⟩ := Option.map_eq_some_iff.1 hu
    exact refl.foldl fun _ _ h => h.modCmd

/-- A transfer for an awn's read ends with a status of the commands that wait for it, and of nothing else. -/
theorem Effect.t4FailAwn {j : T4Job} {id st} (h : Effect ps w s t) (hj : j.who = .awn id) (hp : [.hif] ⊆ ps := by decide) :
    Effect ps w s (Machine.t4Fail j st t) := by
  refine h.extend hp ?_
  unfold Machine.t4Fail
  rw [hj]
  refine getD (fun u hu => ?_) refl
  obtain ⟨a, -, rfl⟩ := Option.map_eq_some_iff.1 hu
  exact refl.foldl fun _ _ h => h.modCmd

theorem Effect.askPool {id a} (h : Effect ps w s t) (hp : [.hif, .fab, .rel, .recd] ⊆ ps := by decide) :
    Effect ps w s (askPool id a t) :=
  h.extend hp (ite refl (ite (refl.t4FailAwn rfl) (ite refl.t4Whole refl.t4Send)))

theorem Effect.threshApplied {kind unit} (h : Effect ps w s t) (hp : [.rel] ⊆ ps := by decide) :
    Effect ps w s (threshApplied kind unit t) :=
  h.extend hp refl.onRel

theorem Effect.consumeKey {key num k} (h : Effect ps w s t) (hp : [.shv] ⊆ ps := by decide) :
    Effect ps w s (consumeKey key num k t) :=
  h.extend hp (refl.foldl fun _ _ h => h.dropRead)

theorem Effect.unpinExpert {run sh num k} (h : Effect ps w s t) (hp : [.shv] ⊆ ps := by decide) :
    Effect ps w s (unpinExpert run sh num k t) := by
  refine h.extend hp ?_
  unfold Machine.unpinExpert
  dsimp only
  exact Effect.refl.modPool

theorem Effect.fallBack {key b k} (h : Effect ps w s t) (hp : [.hif, .shv] ⊆ ps := by decide) :
    Effect ps w s (fallBack key b k t) := by
  refine h.extend hp ?_
  unfold Machine.fallBack
  dsimp only
  refine Effect.foldl Effect.refl fun t a h => ?_
  split
  · exact h
  · exact h.modCmd.modStat

theorem Effect.takeFallback {sh key b k} (h : Effect ps w s t) (hp : [.hif, .shv] ⊆ ps := by decide) :
    Effect ps w s (takeFallback sh key b k t) := by
  refine h.extend hp ?_
  unfold Machine.takeFallback
  dsimp only
  exact Effect.refl.unpinExpert.fallBack.modStage

theorem Effect.endOp {k o status data} (h : Effect ps w s t) (hp : [.stk] ⊆ ps := by decide) :
    Effect ps w s (endOp k o status data t) := by
  refine h.extend hp ?_
  unfold Machine.endOp
  dsimp only
  exact Effect.refl.modCulm.onStk

theorem Effect.poisonOp {o} (h : Effect ps w s t) (hp : [.hif] ⊆ ps := by decide) :
    Effect ps w s (poisonOp o t) := by
  refine h.extend hp ?_
  unfold Machine.poisonOp
  split
  · exact Effect.refl.foldl fun _ _ h => h.loseUser
  · exact Effect.refl

theorem Effect.writeObj {i off b lost} (h : Effect ps true s t) (hp : [.obj] ⊆ ps := by decide) :
    Effect ps true s (writeObj i off b lost t) :=
  h.modObjWrites hp fun _ o ho => ⟨memWf_memWrite _ _ _ ho.1, by
    dsimp only
    split
    · exact ho.1
    · exact ho.2⟩

theorem Reaches.runElementwise {op k} (h : Effect ps true s t) (hp : [.hif, .obj, .shv, .stk] ⊆ ps := by decide) :
    Reaches ps true s (runElementwise op k t) := by
  refine .extend h hp ?_
  unfold Machine.runElementwise
  dsimp only
  split
  · exact .next Effect.refl
  · split
    · exact .next Effect.refl.endOp
    · split
      · exact .next Effect.refl.endOp
      · exact .next ((Effect.ite (Effect.ite (Effect.ite Effect.refl.writeObj Effect.refl.writeObj.writeObj).noteConvert (Effect.ite Effect.refl.writeObj Effect.refl.writeObj.writeObj)) (Effect.ite (Effect.ite Effect.refl.writeObj Effect.refl.writeObj.writeObj).noteConvert (Effect.ite Effect.refl.writeObj Effect.refl.writeObj.writeObj)).poisonOp).endOp)

theorem Effect.beginAgain {id w'} (h : Effect ps w s t) (hp : [.eng, .obj] ⊆ ps := by decide) :
    Effect ps w s (beginAgain id w' t) := by
  refine h.extend hp ?_
  unfold Machine.beginAgain
  split
  · exact Effect.refl
  · exact (Effect.refl.releaseLocks.foldl fun _ _ h => h.dropPin).modHusk

theorem Effect.waitFull {id coll l} (h : Effect ps w s t) (hp : [.eng, .idx, .obj] ⊆ ps := by decide) :
    Effect ps w s (waitFull id coll l t) :=
  h.extend hp refl.onIdx.beginAgain

theorem Effect.applyWrite {e h' off b lost} (h : Effect ps true s t) (hp : [.obj, .fls, .fab, .recd] ⊆ ps := by decide) :
    Effect ps true s (applyWrite e h' off b lost t) := by
  refine h.extend hp ?_
  unfold Machine.applyWrite
  dsimp only
  split
  · exact Effect.refl
  · exact Effect.ite Effect.refl.writeObj.meterMove (Effect.ite Effect.refl.writeObj.meterMove.onFab Effect.refl.writeObj.meterMove.modObj.writeHome)

theorem Effect.nodeWrites {e hs} (h : Effect ps true s t) (hp : [.obj, .fls, .fab, .recd] ⊆ ps := by decide) :
    Effect ps true s (nodeWrites e hs t) :=
  h.extend hp (refl.foldl fun _ _ h => h.applyWrite)

theorem Effect.mapFree {h' key e} (h : Effect ps w s t) (hp : [.idx] ⊆ ps := by decide) :
    Effect ps w s (mapFree h' key e t) :=
  h.extend hp refl.onIdx

theorem Effect.putList {h' l} (h : Effect ps w s t) (hp : [.idx] ⊆ ps := by decide) :
    Effect ps w s (putList h' l t) :=
  h.extend hp refl.onIdx

theorem Effect.deleteVector {d coll v e} (h : Effect ps true s t) (hp : [.idx, .obj, .fls, .fab, .recd] ⊆ ps := by decide) :
    Effect ps true s (deleteVector d coll v e t) := by
  refine h.extend hp ?_
  unfold Machine.deleteVector
  dsimp only
  split
  · exact Effect.refl
  · exact Effect.refl.putList.mapFree.nodeWrites

theorem Effect.sizeList {d h' n} (h : Effect ps w s t) (hp : [.obj] ⊆ ps := by decide) :
    Effect ps w s (sizeList d h' n t) :=
  h.extend hp refl.accrue.modObj

theorem Effect.mapPut {m} (h : Effect ps w s t) (hp : [.idx] ⊆ ps := by decide) :
    Effect ps w s (mapPut m t) :=
  h.extend hp refl.onIdx

theorem Effect.applyInsert {e a r} (h : Effect ps true s t) (hp : [.idx, .obj, .fls, .fab, .recd] ⊆ ps := by decide) :
    Effect ps true s (applyInsert e a r t).2.1 := by
  refine h.extend hp ?_
  unfold Machine.applyInsert
  dsimp only
  split
  · dsimp only
    exact Effect.refl
  · split
    · dsimp only
      exact Effect.refl.deleteVector
    · dsimp only
      exact (Effect.ite Effect.refl.deleteVector.putList.sizeList Effect.refl.deleteVector.putList).mapPut.nodeWrites

theorem Effect.applyExts {e a} (h : Effect ps true s t) (hp : [.obj, .fls, .fab, .recd] ⊆ ps := by decide) :
    Effect ps true s (applyExts e a t) := by
  refine h.extend hp ?_
  unfold Machine.applyExts
  refine Effect.foldl Effect.refl fun t a h => ?_
  split
  · exact h.applyWrite
  · exact h

theorem Effect.putVersion {table index e d} (h : Effect ps w s t) (hp : [.idx] ⊆ ps := by decide) :
    Effect ps w s (putVersion table index e d t) :=
  h.extend hp refl.onIdx

theorem Effect.installList {coll l shadow e} (h : Effect ps true s t) (hp : [.idx, .obj, .fls, .fab, .recd] ⊆ ps := by decide) :
    Effect ps true s (installList coll l shadow e t) := by
  refine h.extend hp ?_
  unfold Machine.installList
  dsimp only
  split
  · exact Effect.refl
  · refine Effect.nodeWrites ?_
    refine Effect.putVersion ?_
    refine Effect.putList ?_
    refine .ite ?_ ?_
    · refine Effect.sizeList ?_
      refine Effect.onIdx ?_
      refine Effect.foldl Effect.refl fun t a h => ?_
      split
      · exact h
      · split
        · exact h.mapPut
        · exact h
    · refine Effect.onIdx ?_
      refine Effect.foldl Effect.refl fun t a h => ?_
      split
      · exact h
      · split
        · exact h.mapPut
        · exact h

theorem Effect.takeSystem {n home} (h : Effect ps true s t) (hp : [.obj] ⊆ ps := by decide) :
    Effect ps true s (takeSystem n home t).2 := by
  unfold Machine.takeSystem
  cases e : Machine.addObject 0 5 { size := n, home := home, node := true } t with
  | none => exact h
  | some p => exact h.addObject e hp

theorem Effect.dropSystem {h'} (h : Effect ps true s t) (hp : [.obj] ⊆ ps := by decide) :
    Effect ps true s (dropSystem h' t) :=
  h.extend hp (ite refl.removeObject refl)

theorem Effect.keepSystem (h : Effect ps true s t) (hp : [.obj] ⊆ ps := by decide) :
    Effect ps true s (keepSystem t) :=
  h.extend hp (ite (ite (ite (ite refl.takeSystem.onObj refl.accrue.modObj).takeSystem.onObj (ite refl.takeSystem.onObj refl.accrue.modObj)).takeSystem.onObj (ite (ite refl.takeSystem.onObj refl.accrue.modObj).takeSystem.onObj (ite refl.takeSystem.onObj refl.accrue.modObj)).modObj) (ite (ite (ite (ite refl.takeSystem.onObj refl.accrue.modObj).takeSystem.onObj (ite refl.takeSystem.onObj refl.accrue.modObj)).takeSystem.onObj (ite (ite refl.takeSystem.onObj refl.accrue.modObj).takeSystem.onObj (ite refl.takeSystem.onObj refl.accrue.modObj)).modObj).takeSystem.onObj (ite (ite (ite refl.takeSystem.onObj refl.accrue.modObj).takeSystem.onObj (ite refl.takeSystem.onObj refl.accrue.modObj)).takeSystem.onObj (ite (ite refl.takeSystem.onObj refl.accrue.modObj).takeSystem.onObj (ite refl.takeSystem.onObj refl.accrue.modObj)).modObj).dropSystem.onObj))

theorem Effect.resetIsland {i} (h : Effect ps w s t) (hp : [.aon, .rel] ⊆ ps := by decide) :
    Effect ps w s (resetIsland i t) :=
  h.extend hp refl.onAon.logEv

theorem Effect.resetPort {p} (h : Effect ps w s t) (hp : [.aon, .fab, .rel] ⊆ ps := by decide) :
    Effect ps w s (resetPort p t) :=
  h.extend hp refl.onFab.resetIsland

theorem Effect.endRecording {why} (h : Effect ps w s t) (hp : [.stew, .rel, .recd] ⊆ ps := by decide) :
    Effect ps w s (endRecording why t) := by
  refine h.extend hp (ite refl ?_)
  have closed {l : Bool} {d e : Dig} :
      Effect [.stew, .rel, .recd] w t (if l then { t with dig := d } else Machine.flushDigests { t with dig := e }) :=
    ite refl.withDig refl.withDig.flushDigests
  exact ite closed.onRec (ite closed.onRec.logEv closed.onRec.logEv.raiseEvent)

theorem Effect.applyGen {g rollback e} (h : Effect ps true s t) (hp : [.aon, .stew, .hif, .eng, .obj, .shv, .fab, .rel, .recd] ⊆ ps := by decide) :
    Effect ps true s (applyGen g rollback e t) :=
  h.extend hp (ite (refl.onEng.onStew.onHif.onShv.keepSystem.foldl fun _ _ h => ite h h.resetPort).onRec (ite (refl.onEng.onStew.onHif.onShv.keepSystem.foldl fun _ _ h => ite h h.resetPort).endRecording.onRec (refl.onEng.onStew.onHif.onShv.keepSystem.foldl fun _ _ h => ite h h.resetPort)))

theorem Effect.applyAction {e a r} (h : Effect ps true s t) (hp : [.aon, .stew, .hif, .eng, .idx, .obj, .shv, .fls, .fab, .rel, .recd] ⊆ ps := by decide) :
    Effect ps true s (applyAction e a r t).2.1 := by
  refine h.extend hp ?_
  unfold Machine.applyAction
  split
  · exact Effect.refl.applyInsert
  · split
    · split
      · dsimp only
        exact Effect.refl
      · split
        · dsimp only
          exact Effect.refl.deleteVector
        · dsimp only
          exact Effect.refl
    · dsimp only
      exact Effect.refl
  · dsimp only
    exact Effect.ite Effect.refl.applyExts Effect.refl.applyWrite
  · dsimp only
    exact Effect.refl.putVersion.nodeWrites
  · dsimp only
    exact Effect.refl.installList
  · dsimp only
    exact Effect.refl.onIdx
  · dsimp only
    split
    · exact Effect.refl.applyGen
    · exact Effect.refl

theorem Effect.applyActions {e l} (h : Effect ps true s t)
    (hp : [.aon, .stew, .hif, .eng, .idx, .obj, .shv, .fls, .fab, .rel, .recd] ⊆ ps := by decide) :
    Effect ps true s (applyActions e l t).2.1 := by
  refine h.extend hp ?_
  clear h
  induction l generalizing t with
  | nil => exact refl
  | cons a l ih => exact trans refl.applyAction ih

theorem Effect.catchUp {x} (h : Effect ps w s t) (hp : [.idx] ⊆ ps := by decide) :
    Effect ps w s (catchUp x t) := by
  refine h.extend hp ?_
  unfold Machine.catchUp
  dsimp only
  split
  · exact Effect.refl.foldl fun _ _ h => h.putList
  · split
    · exact Effect.refl
    · exact Effect.ite Effect.refl.putList (Effect.ite Effect.refl.putList.putList (Effect.ite Effect.refl.putList Effect.refl))

theorem Effect.applyHusk {e x} (h : Effect ps true s t) (hp : [.aon, .stew, .hif, .eng, .idx, .obj, .shv, .fls, .fab, .rel, .recd] ⊆ ps := by decide) :
    Effect ps true s (applyHusk e x t).2.1 :=
  h.extend hp refl.catchUp.applyActions

theorem Effect.applyHusks {e l} (h : Effect ps true s t)
    (hp : [.aon, .stew, .hif, .eng, .idx, .obj, .shv, .fls, .fab, .rel, .recd] ⊆ ps := by decide) :
    Effect ps true s (applyHusks e l t).2 := by
  refine h.extend hp ?_
  clear h
  induction l generalizing t with
  | nil => exact refl
  | cons x l ih => exact trans refl.applyHusk ih

theorem Effect.closedState (h : Effect ps true s t) (hp : [.aon, .stew, .hif, .eng, .idx, .obj, .shv, .fls, .fab, .rel, .recd] ⊆ ps := by decide) :
    Effect ps true s (closedState t) :=
  h.extend hp (refl.foldl fun _ _ h => h.applyHusks.onEng)

theorem Effect.closeGroup (h : Effect ps w s t) (hp : [.eng, .recd] ⊆ ps := by decide) :
    Effect ps w s (closeGroup t) := by
  refine h.extend hp ?_
  unfold Machine.closeGroup
  dsimp only
  exact Effect.refl.token.onEng

theorem Effect.joinGroup {id} (h : Effect ps true s t) (hp : [.stew, .hif, .eng, .idx, .obj, .shv, .recd] ⊆ ps := by decide) :
    Effect ps true s (joinGroup id t) := by
  refine h.extend hp ?_
  unfold Machine.joinGroup
  dsimp only
  split
  · exact Effect.refl
  · exact Effect.ite Effect.refl.failHusk (Effect.ite Effect.refl (Effect.ite Effect.refl.closeGroup Effect.refl).onEng)

theorem Effect.finishPrepare {id} (h : Effect ps true s t) (hp : [.stew, .hif, .eng, .idx, .obj, .shv, .recd] ⊆ ps := by decide) :
    Effect ps true s (finishPrepare id t) := by
  refine h.extend hp ?_
  unfold Machine.finishPrepare
  split
  · exact Effect.refl
  · split
    · exact Effect.refl.failHusk
    · exact Effect.refl.waitFull
    · exact Effect.ite Effect.refl.beginAgain (Effect.ite Effect.refl.failHusk (Effect.ite Effect.refl.modHusk Effect.refl.joinGroup))

theorem Effect.huskPins {x} (h : Effect ps w s t) (hp : [.stew, .hif, .eng, .obj, .shv, .recd] ⊆ ps := by decide) :
    Effect ps w s (huskPins x t).2 :=
  h.extend hp (foldlSnd (p := (_, t)) refl fun _ _ h => h.pinObj)

theorem Effect.countAssign {d coarse} (h : Effect ps w s t) (hp : [.idx] ⊆ ps := by decide) :
    Effect ps w s (countAssign d coarse t) := by
  unfold Machine.countAssign
  cases genSheaf (gen t) (coAssign d) with
  | none => exact h
  | some x => exact h.countNans hp

theorem Effect.assignDrops {x} (h : Effect ps w s t) (hp : [.idx] ⊆ ps := by decide) :
    Effect ps w s (assignDrops x t) := by
  refine h.extend hp ?_
  unfold Machine.assignDrops
  dsimp only
  refine Effect.foldl Effect.refl fun t a h => ?_
  split
  · exact h
  · exact Effect.ite h.countAssign h

theorem Effect.goPrepare {id} (h : Effect ps true s t) (hp : [.stew, .hif, .eng, .idx, .obj, .shv, .recd] ⊆ ps := by decide) :
    Effect ps true s (goPrepare id t) := by
  refine h.extend hp ?_
  unfold Machine.goPrepare
  split
  · exact refl
  · refine ite refl (ite refl.finishPrepare (ite refl (ite refl (ite (getD (fun u hu => ?_) refl) (ite refl.failHusk ?_)))))
    · obtain ⟨g, -, rfl⟩ := Option.map_eq_some_iff.1 hu
      exact refl.genRoom
    · split
      · exact refl.failHusk
      · exact refl.waitFull
      · exact ite refl.assignDrops.huskPins.modHusk.finishPrepare refl.assignDrops.huskPins.modHusk

theorem Effect.wound {id} (h : Effect ps w s t) (hp : [.eng, .obj] ⊆ ps := by decide) :
    Effect ps w s (wound id t) := by
  refine h.extend hp ?_
  unfold Machine.wound
  split
  · exact Effect.refl
  · exact Effect.refl.beginAgain.onEng

theorem Effect.woundAll (h : Effect ps w s t) (hp : [.eng, .obj] ⊆ ps := by decide) :
    Effect ps w s (woundAll t) := by
  refine h.extend hp ?_
  unfold Machine.woundAll
  refine Effect.foldl Effect.refl fun t a h => ?_
  split
  · exact h.foldl fun _ _ h => h.wound
  · exact h

theorem Effect.grantLock {id} (h : Effect ps true s t) (hp : [.stew, .hif, .eng, .idx, .obj, .shv, .recd] ⊆ ps := by decide) :
    Effect ps true s (grantLock id t) :=
  h.extend hp refl.onEng.woundAll.goPrepare

theorem Effect.requestLock {id} (h : Effect ps true s t) (hp : [.stew, .hif, .eng, .idx, .obj, .shv, .recd] ⊆ ps := by decide) :
    Effect ps true s (requestLock id t) := by
  refine h.extend hp ?_
  unfold Machine.requestLock
  dsimp only
  split
  · exact Effect.refl
  · split
    · exact Effect.refl.goPrepare
    · exact Effect.ite Effect.refl.modHusk.goPrepare (Effect.ite Effect.refl.modHusk.token.onEng.grantLock Effect.refl.modHusk.token.onEng.onEng.modHusk.woundAll)

theorem Effect.writeExts {dst len count} (h : Effect ps w s t) (hp : [.fls] ⊆ ps := by decide) :
    Effect ps w s (writeExts dst len count t).2 := by
  refine h.extend hp ?_
  unfold Machine.writeExts
  dsimp only
  exact Effect.refl.onFls

theorem Effect.freeJournal (h : Effect ps w s t) (hp : [.eng, .fls] ⊆ ps := by decide) :
    Effect ps w s (freeJournal t) :=
  h.extend hp (ite refl (ite refl refl.onEng.onFls))

theorem Effect.queueRebuilds {e} (h : Effect ps w s t) (hp : [.idx] ⊆ ps := by decide) :
    Effect ps w s (queueRebuilds e t) := by
  refine h.extend hp ?_
  unfold Machine.queueRebuilds
  dsimp only
  refine Effect.foldl Effect.refl fun t a h => ?_
  split
  · exact h
  · exact Effect.ite h (Effect.ite h.addRebuild (Effect.ite h.addRebuild h))

theorem Effect.completeHusk {id e} (h : Effect ps true s t) (hp : [.stew, .hif, .eng, .idx, .obj, .shv, .recd] ⊆ ps := by decide) :
    Effect ps true s (completeHusk id e t) := by
  refine h.extend hp ?_
  unfold Machine.completeHusk
  dsimp only
  split
  · exact Effect.refl
  · split
    · split
      · exact Effect.refl.endHusk.finishCmd
      · exact Effect.refl.endHusk.zRespond
      · exact Effect.refl.endHusk.endRebuild
      · exact Effect.refl.endHusk
    · refine .ite ?_ ?_
      · refine Effect.token ?_
        refine Effect.binderAdd ?_
        split
        · exact Effect.refl.endHusk.finishCmd
        · exact Effect.refl.endHusk.zRespond
        · exact Effect.refl.endHusk.endRebuild
        · exact Effect.refl.endHusk
      · refine Effect.onEng ?_
        split
        · exact Effect.refl.endHusk.finishCmd
        · exact Effect.refl.endHusk.zRespond
        · exact Effect.refl.endHusk.endRebuild
        · exact Effect.refl.endHusk

theorem Effect.dropBarriers (h : Effect ps w s t) (hp : [.eng] ⊆ ps := by decide) :
    Effect ps w s (dropBarriers t) :=
  h.extend hp refl.onEng

theorem Effect.commitFirst (h : Effect ps true s t) (hp : [.aon, .stew, .hif, .eng, .idx, .obj, .shv, .fls, .fab, .rel, .recd] ⊆ ps := by decide) :
    Effect ps true s (commitFirst t) := by
  refine h.extend hp ?_
  unfold Machine.commitFirst
  dsimp only
  split
  · exact Effect.refl
  · exact Effect.ite Effect.refl (Effect.ite Effect.refl.onEng.onEng (Effect.ite Effect.refl.onEng.onEng.onIdx (Effect.ite Effect.refl.onEng.onEng (Effect.refl.applyHusks.onEng.dropBarriers.foldl fun _ _ h => h.completeHusk).queueRebuilds.freeJournal)))

theorem Effect.commitGo {n} (h : Effect ps true s t)
    (hp : [.aon, .stew, .hif, .eng, .idx, .obj, .shv, .fls, .fab, .rel, .recd] ⊆ ps := by decide) :
    Effect ps true s (commitGo n t) := by
  refine h.extend hp ?_
  clear h
  induction n generalizing t with
  | zero => exact refl
  | succ n ih => exact ite (trans refl.commitFirst ih) refl.commitFirst

theorem Effect.tryCommit (h : Effect ps true s t) (hp : [.aon, .stew, .hif, .eng, .idx, .obj, .shv, .fls, .fab, .rel, .recd] ⊆ ps := by decide) :
    Effect ps true s (tryCommit t) :=
  h.extend hp refl.commitGo

theorem Effect.raiseCause {i} (h : Effect ps w s t) (hp : [.aon, .stew, .rel] ⊆ ps := by decide) :
    Effect ps w s (raiseCause i t) := by
  refine h.extend hp ?_
  unfold Machine.raiseCause
  dsimp only
  exact Effect.refl.onAon.raiseEvent.onRel

theorem Effect.latchGasp {cause island} (h : Effect ps w s t) (hp : [.aon] ⊆ ps := by decide) :
    Effect ps w s (latchGasp cause island t) :=
  h.extend hp (ite refl refl.onAon)

theorem Effect.fatal {bit d} (h : Effect ps w s t) (hp : [.aon, .stew, .rel] ⊆ ps := by decide) :
    Effect ps w s (fatal bit d t) :=
  h.extend hp refl.latchGasp.detect.raiseCause

theorem mem_of_objOf {a : Nat} {o : ObjRec} (h : objOf t a = some o) : (hIndex a, o) ∈ t.obj.recs := by
  unfold objOf at h
  split at h
  · next he => split at h <;> cases h; exact mem_of_tabGet he
  · cases h

theorem Effect.settleSwap {v} (h : Effect ps true s t) (hp : [.idx, .obj] ⊆ ps := by decide) : Effect ps true s (settleSwap v t) := by
  refine h.extend hp ?_
  unfold Machine.settleSwap
  split
  · exact refl
  · next sh hsh =>
    have hmod : Effect [.idx, .obj] true t (Machine.modObj (hIndex v.1)
        (fun o => { o with mem := sh.mem, size := sh.size, poison := sh.poison }) t) :=
      refl.modObjWrites (hf := fun hc o ho => ⟨(hc _ (mem_of_objOf hsh)).1, ho.2⟩)
    refine onIdx (removeObject ?_)
    split
    · exact hmod
    · refine onObj ?_
      split
      · exact hmod.removeObject
      · exact hmod

theorem Effect.streamPay {row inst id n} (h : Effect ps w s t) (hp : [.fab] ⊆ ps := by decide) :
    Effect ps w s (streamPay row inst id n t) :=
  h.extend hp refl.bucketCharge.onFab

theorem Effect.takeToken {point w'} (h : Effect ps w s t) (hp : [.recd] ⊆ ps := by decide) :
    Effect ps w s (takeToken point w' t) := by
  refine h.extend hp ?_
  unfold Machine.takeToken
  dsimp only
  split
  · exact Effect.refl
  · exact Effect.refl.onRec

theorem Effect.backToken {island inst kind target} (h : Effect ps w s t) (hp : [.recd] ⊆ ps := by decide) :
    Effect ps w s (backToken island inst kind target t) :=
  h.extend hp (ite refl.takeToken refl.token)

theorem Effect.formSwap {id b p} (h : Effect ps w s p.2) (hp : [.eng, .fab, .recd] ⊆ ps := by decide) :
    Effect ps w s (formSwap id b p t) :=
  h.extend hp (ite (refl (s := p.2)).backToken refl).streamPay.formHusk

theorem Effect.shadowOf {a} (h : Effect ps true s t) (hp : [.obj] ⊆ ps := by decide) : Effect ps true s (shadowOf a t).2 := by
  unfold Machine.shadowOf
  split
  · exact h
  · dsimp only
    split
    · next e => exact h.addObject e hp
    · exact h

theorem Effect.shadowBran {sh b} (h : Effect ps true s t) (hp : [.obj] ⊆ ps := by decide) : Effect ps true s (shadowBran sh b t) := by
  refine h.extend hp ?_
  unfold Machine.shadowBran
  split
  · exact refl
  · refine ite refl ?_
    split
    · next e => exact (refl.addObject e (hm := ⟨memWf_memWrite _ _ _ rfl, rfl⟩)).onObj
    · exact refl

theorem Effect.rehashActions {b} (h : Effect ps true s t) (hp : [.obj] ⊆ ps := by decide) :
    Effect ps true s (rehashActions b t).2 := by
  refine h.extend hp ?_
  unfold Machine.rehashActions
  extract_lets old new rows rb
  clear_value rows rb new
  refine shadowBran (modObjWrites refl.shadowOf (hf := fun _ o ho => ?_))
  exact ⟨memWf_memWrite _ _ _ (memWf_memWrite _ _ _ rfl), ho.2⟩

theorem Effect.shadowList {d coll l} (h : Effect ps true s t) (hp : [.idx, .obj] ⊆ ps := by decide) :
    Effect ps true s (shadowList d coll l t).2 :=
  h.extend hp (putList (refl.shadowOf.shadowOf.shadowOf))

theorem Effect.swapActions {b d} (h : Effect ps true s t) (hp : [.idx, .obj] ⊆ ps := by decide) :
    Effect ps true s (swapActions b d t).2 := by
  refine h.extend hp ?_
  unfold Machine.swapActions
  split
  · exact refl.shadowList
  · split
    · exact refl.shadowList.shadowList
    · split
      · exact refl.shadowList
      · refine shadowBran (modObjWrites refl.shadowOf (hf := fun _ o ho => ⟨?_, ho.2⟩))
        exact memWf_memWrite _ _ _ rfl

theorem Effect.rxDone {node m} (h : Effect ps w s t) (hp : [.fab] ⊆ ps := by decide) :
    Effect ps w s (rxDone node m t) :=
  h.extend hp refl.onFab

theorem Reaches.onControl {node id types k} (h : Effect ps w s t) (hk : ∀ m t, Effect ps w s t → Effect ps w s (k m t))
    (hp : [.fab] ⊆ ps := by decide) : Reaches ps w s (onControl node id types t k) := by
  unfold Machine.onControl
  split
  · exact .next h
  · exact .next (.ite (hk _ _ (h.rxDone hp)) (h.rxDone hp))

theorem Effect.answerStatus {node m st detail} (h : Effect ps w s t) (hp : [.fab, .rel, .recd] ⊆ ps := by decide) :
    Effect ps w s (answerStatus node m st detail t) :=
  h.extend hp refl.sendMsg

theorem Effect.flashMove {o tier n write} (h : Effect ps w s t) (hp : [.obj, .fab] ⊆ ps := by decide) :
    Effect ps w s (flashMove o tier n write t) :=
  h.extend hp (ite refl.meterMove.bucketCharge refl.meterMove)

theorem Effect.packWrite {i} (h : Effect ps w s t) (hp : [.fls] ⊆ ps := by decide) :
    Effect ps w s (packWrite i t) := by
  refine h.extend hp ?_
  unfold Machine.packWrite
  split
  · exact Effect.refl.packAsk
  · exact Effect.refl

theorem Effect.cleanPage {i} (h : Effect ps w s t) (hp : [.obj, .fab, .rel, .recd] ⊆ ps := by decide) :
    Effect ps w s (cleanPage i t) := by
  refine h.extend hp ?_
  unfold Machine.cleanPage
  split
  · exact refl
  · split
    · exact (refl.modObj (hf := by exact fun _ => ⟨rfl, fun _ h => memWf_memWrite _ _ _ h⟩)).t4Send
    · refine headerChange (modObj refl (hf := fun o => ⟨rfl, fun _ h => ?_⟩))
      dsimp only
      split
      · rfl
      · exact h

theorem Effect.dropUnits {i homeOnly} (h : Effect ps w s t) (hp : [.fls] ⊆ ps := by decide) :
    Effect ps w s (dropUnits i homeOnly t) :=
  h.extend hp (refl.foldl fun _ _ h => h.mapChange)

theorem Effect.modLun {ch key f} (h : Effect ps w s t) (hp : [.fls] ⊆ ps := by decide) :
    Effect ps w s (modLun ch key f t) :=
  h.extend hp refl.modChan

theorem Effect.stopReplay {seq cause island window events want got} (h : Effect ps w s t) (hp : [.rel, .recd] ⊆ ps := by decide) :
    Effect ps w s (stopReplay seq cause island window events want got t) :=
  h.extend hp refl.onRec.logEv

theorem Effect.replayRead {ch decode} (h : Effect ps w s t) (hp : [.rel, .recd] ⊆ ps := by decide) :
    Effect ps w s (replayRead ch decode t).2 := by
  refine h.extend hp ?_
  unfold Machine.replayRead
  dsimp only
  split
  · dsimp only
    exact Effect.refl
  · split
    · dsimp only
      exact Effect.refl
    · split
      · dsimp only
        exact Effect.refl.onRec
      · split
        · dsimp only
          exact Effect.refl.stopReplay
        · dsimp only
          exact Effect.refl.onRec

theorem Effect.loseUnit {k} (h : Effect ps w s t) (hp : [.obj, .fls, .rel] ⊆ ps := by decide) :
    Effect ps w s (loseUnit k t) := by
  refine h.extend hp ?_
  unfold Machine.loseUnit
  dsimp only
  split
  · exact Effect.refl
  · exact Effect.ite Effect.refl.modBlk (Effect.ite Effect.refl.modBlk.mapChange.modObj Effect.refl.modBlk.mapChange).detect

theorem Effect.readUnit {stream x} (h : Effect ps w s t) (hp : [.obj, .fls, .fab, .rel, .recd] ⊆ ps := by decide) :
    Effect ps w s (readUnit stream x t) := by
  refine h.extend hp ?_
  unfold Machine.readUnit
  dsimp only
  split
  · exact Effect.refl
  · exact Effect.ite Effect.refl.replayRead.recordInput.modLun.onFls.onfi.chanIssue.loseUnit (Effect.ite Effect.refl.replayRead.recordInput.modLun.onFls.onfi.chanIssue.modBlk Effect.refl.replayRead.recordInput.modLun.onFls.onfi.chanIssue)

theorem Effect.patrol {b reads} (h : Effect ps w s t) (hp : [.obj, .fls, .fab, .rel, .recd] ⊆ ps := by decide) :
    Effect ps w s (patrol b reads t) := by
  refine h.extend hp ?_
  unfold Machine.patrol
  dsimp only
  exact (Effect.refl.foldl fun _ _ h => h.readUnit).modBlk

theorem Effect.background {kind inst ch target n} (h : Effect ps w s t) (hp : [.fab, .recd] ⊆ ps := by decide) :
    Effect ps w s (background kind inst ch target n t) :=
  h.extend hp refl.backToken.bucketCharge.onFab

theorem Effect.emptied {b} (h : Effect ps w s t) (hp : [.fls] ⊆ ps := by decide) :
    Effect ps w s (emptied b t) :=
  h.extend hp (ite refl.modBlk refl)

theorem Effect.takeBlock {slc r} (h : Effect ps w s t) (e : takeBlock slc r t = some u) (hp : [.fls] ⊆ ps := by decide) :
    Effect ps w s u := by
  unfold Machine.takeBlock at e
  split at e
  · cases e
    exact h
  · obtain ⟨b, -, rfl⟩ := Option.map_eq_some_iff.1 e
    exact h.openBlk hp

theorem Effect.chanCheck {ch} (h : Effect ps w s t) (hp : [.stew, .fls, .rel] ⊆ ps := by decide) :
    Effect ps w s (chanCheck ch t) := by
  refine h.extend hp ?_
  unfold Machine.chanCheck
  dsimp only
  split
  · exact Effect.refl
  · exact Effect.ite Effect.refl Effect.refl.modChan.passReserve.onFls.mediaEvent.detect

theorem Effect.retireLun {ch key} (h : Effect ps w s t) (hp : [.stew, .fls, .rel] ⊆ ps := by decide) :
    Effect ps w s (retireLun ch key t) :=
  h.extend hp (ite refl refl.modLun.endurAdd.mediaEvent.detect.chanCheck)

theorem Effect.lunCheck {ch key} (h : Effect ps w s t) (hp : [.stew, .fls, .rel] ⊆ ps := by decide) :
    Effect ps w s (lunCheck ch key t) := by
  refine h.extend hp ?_
  unfold Machine.lunCheck
  split
  · exact Effect.refl
  · exact Effect.ite Effect.refl.retireLun Effect.refl

theorem Effect.retireBlk {b} (h : Effect ps w s t) (hp : [.fls, .rel] ⊆ ps := by decide) :
    Effect ps w s (retireBlk b t) :=
  h.extend hp (ite refl refl.modBlk.modLun.endurAdd.logEv)

theorem Effect.lifeCheck (h : Effect ps w s t) (hp : [.stew, .fls, .rel] ⊆ ps := by decide) :
    Effect ps w s (lifeCheck t) := by
  refine h.extend hp ?_
  unfold Machine.lifeCheck
  dsimp only
  split
  · exact Effect.ite Effect.refl Effect.refl.onFls.logEv.raiseEvent
  · exact Effect.refl

theorem Effect.recordStatus {b page op} (h : Effect ps w s t) (hp : [.recd] ⊆ ps := by decide) :
    Effect ps w s (recordStatus b page op t) :=
  h.extend hp refl.recordInput

theorem Effect.loseChannel {ch} (h : Effect ps w s t) (hp : [.stew, .obj, .fls, .rel] ⊆ ps := by decide) :
    Effect ps w s (loseChannel ch t) :=
  h.extend hp (refl.foldl fun _ _ h => h.loseUnit).modChan.passReserve.onFls.mediaEvent.detect

theorem Effect.modPack {n f} (h : Effect ps w s t) (hp : [.fls] ⊆ ps := by decide) :
    Effect ps w s (modPack n f t) :=
  h.extend hp refl.onFls

theorem Effect.grantPrivileged (h : Effect ps w s t) (hp : [.fls] ⊆ ps := by decide) :
    Effect ps w s (grantPrivileged t) := by
  refine h.extend hp ?_
  unfold Machine.grantPrivileged
  refine .ite Effect.refl ?_
  split
  · exact Effect.refl.modPack
  · exact Effect.refl

theorem Effect.endPack {n} (h : Effect ps w s t) (hp : [.fls] ⊆ ps := by decide) :
    Effect ps w s (endPack n t) :=
  h.extend hp refl.onFls

theorem Effect.packFault {idx} (h : Effect ps w s t) (hp : [.rel] ⊆ ps := by decide) :
    Effect ps w s (packFault idx t) := by
  refine h.extend hp ?_
  unfold Machine.packFault
  split
  · exact Effect.refl.detect
  · exact Effect.refl

theorem Effect.poisonWhole {idx} (h : Effect ps w s t) (hp : [.obj] ⊆ ps := by decide) :
    Effect ps w s (poisonWhole idx t) :=
  h.extend hp refl.modObj

theorem Effect.endExpand {req} (h : Effect ps w s t) (hp : [.obj, .fls] ⊆ ps := by decide) :
    Effect ps w s (endExpand req t) := by
  refine h.extend hp ?_
  unfold Machine.endExpand
  dsimp only
  split
  · exact Effect.refl
  · refine Effect.grantPrivileged ?_
    refine Effect.endPack ?_
    split
    · exact Effect.refl.modObj
    · exact Effect.refl

theorem Effect.writeStream {idx b} (h : Effect ps w s t) (hp : [.fls, .fab, .recd] ⊆ ps := by decide) :
    Effect ps w s (writeStream idx b t) := by
  refine h.extend hp ?_
  unfold Machine.writeStream
  dsimp only
  split
  · exact Effect.refl
  · exact Effect.refl.dropUnits.writePages

theorem Effect.macDrop {port kind} (h : Effect ps w s t) (hp : [.fab] ⊆ ps := by decide) :
    Effect ps w s (macDrop port kind t) :=
  h.extend hp refl.onFab

theorem Effect.badFrame {port} (h : Effect ps w s t) (hp : [.fab, .rel] ⊆ ps := by decide) :
    Effect ps w s (badFrame port t) :=
  h.extend hp refl.onFab.logEv

theorem Effect.dropResv {id} (h : Effect ps w s t) (hp : [.fab] ⊆ ps := by decide) :
    Effect ps w s (dropResv id t) :=
  h.extend hp refl.onFab

theorem Effect.endResv {st r} (h : Effect ps w s t)
    (hp : [.stew, .hif, .eng, .obj, .shv, .fls, .fab, .rel, .recd] ⊆ ps := by decide) : Effect ps w s (endResv st t r) := by
  refine h.extend hp (ite refl.dropResv.modCmd.closeFan (ite (onFab (getD (fun u hu => ?_) refl.dropResv))
    (ite refl.dropResv.onFab refl.dropResv)))
  obtain ⟨j, -, rfl⟩ := Option.map_eq_some_iff.1 hu
  exact refl.dropResv.t4Fail

theorem Effect.closePeer {n} (h : Effect ps w s t) (hp : [.stew, .hif, .eng, .obj, .shv, .fls, .fab, .rel, .recd] ⊆ ps := by decide) :
    Effect ps w s (closePeer n t) :=
  h.extend hp (refl.onFab.onHif.foldl fun _ _ h => h.endResv).logEv

theorem Effect.takeAck {n vc ack credit} (h : Effect ps w s t) (hp : [.fab, .recd] ⊆ ps := by decide) :
    Effect ps w s (takeAck n vc ack credit t) :=
  h.extend hp refl.modVc.pump

theorem Effect.grantMore {n vc} (h : Effect ps w s t) (hp : [.fab] ⊆ ps := by decide) :
    Effect ps w s (grantMore n vc t) :=
  h.extend hp (ite refl refl.modVc)

theorem Effect.acceptFrame {n vc f} (h : Effect ps w s t) (hp : [.fab, .recd] ⊆ ps := by decide) :
    Effect ps w s (acceptFrame n vc f t) :=
  h.extend hp (ite refl.modVc.modVc.onFab refl.modVc.modVc).grantMore.takeAck

theorem Effect.helloFrame {n f} (h : Effect ps w s t) (hp : [.stew, .hif, .eng, .obj, .shv, .fls, .fab, .rel, .recd] ⊆ ps := by decide) :
    Effect ps w s (helloFrame n f t) :=
  h.extend hp (ite (ite refl refl.closePeer).modPeer.modPeer (ite (ite refl refl.closePeer).modPeer (ite (ite refl refl.closePeer).modPeer (ite refl refl.closePeer).modPeer.modVc.modVc.modVc.firstGrant).acceptFrame))

theorem Effect.ackFrame {n f} (h : Effect ps w s t) (hp : [.fab, .recd] ⊆ ps := by decide) :
    Effect ps w s (ackFrame n f t) :=
  h.extend hp (ite refl.modVc.takeAck (ite refl refl.modVc.takeAck))

theorem Effect.telemPump (h : Effect ps w s t) (hp : [.fab, .rel, .recd] ⊆ ps := by decide) :
    Effect ps w s (telemPump t) :=
  h.extend hp (ite refl (refl.foldl fun _ _ h => ite h h.sendRequest.onFab))

theorem Effect.queueTelem {kind item} (h : Effect ps w s t) (hp : [.fab] ⊆ ps := by decide) :
    Effect ps w s (queueTelem kind item t) :=
  h.extend hp refl.onFab

theorem Effect.sendTelem {kind item} (h : Effect ps w s t) (hp : [.fab, .rel, .recd] ⊆ ps := by decide) :
    Effect ps w s (sendTelem kind item t) :=
  h.extend hp refl.queueTelem.telemPump

theorem Effect.creditViolation {n} (h : Effect ps w s t) (hp : [.stew, .hif, .eng, .obj, .shv, .fls, .fab, .rel, .recd] ⊆ ps := by decide) :
    Effect ps w s (creditViolation n t) :=
  h.extend hp (ite refl.onFab.modPeer.modPeer.closePeer.logEv.sendTelem refl.onFab.modPeer)

theorem Effect.dataFrame {n f} (h : Effect ps w s t) (hp : [.stew, .hif, .eng, .obj, .shv, .fls, .fab, .rel, .recd] ⊆ ps := by decide) :
    Effect ps w s (dataFrame n f t) :=
  h.extend hp (ite (ite refl.creditViolation refl.acceptFrame) (ite refl.modPeer refl.modVc))

theorem Effect.resend {node vc} (h : Effect ps w s t) (hp : [.stew, .hif, .eng, .obj, .shv, .fls, .fab, .rel, .recd] ⊆ ps := by decide) :
    Effect ps w s (resend node vc t) := by
  refine h.extend hp ?_
  unfold Machine.resend
  dsimp only
  refine .ite Effect.refl ?_
  refine .ite Effect.refl.closePeer ?_
  refine Effect.foldl (Effect.refl.modPeer.modVc) fun t a h => ?_
  split
  · exact h.wireFrame
  · exact h

theorem Effect.lateAnswer (h : Effect ps w s t) (hp : [.fab] ⊆ ps := by decide) :
    Effect ps w s (lateAnswer t) :=
  h.extend hp refl.onFab

theorem Effect.t4Ended {r st} (h : Effect ps w s t) (hp : [.fab] ⊆ ps := by decide) :
    Effect ps w s (t4Ended r st t) :=
  h.extend hp refl.dropResv.onFab

theorem Effect.t4Done {j} (h : Effect ps w s t) (hp : [.stew, .hif, .eng, .obj, .shv, .fls, .fab, .rel, .recd] ⊆ ps := by decide) :
    Effect ps w s (t4Done j t) := by
  refine h.extend hp ?_
  unfold Machine.t4Done
  split
  · exact Effect.ite Effect.refl.packExpand Effect.refl
  · exact Effect.ite Effect.refl Effect.refl.modObj.cleanPage
  · exact Effect.refl.modObj
  · exact Effect.refl.finishCmd
  · exact Effect.refl.endRead
  · exact Effect.refl

theorem Effect.refuseSub {node m e st} (h : Effect ps w s t) (hp : [.fab, .rel, .recd] ⊆ ps := by decide) :
    Effect ps w s (refuseSub node m e st t) :=
  h.extend hp refl.sendMsg

theorem Effect.lateSub {node msg} (h : Effect ps w s t) (hp : [.idx, .fab] ⊆ ps := by decide) :
    Effect ps w s (lateSub node msg t) := by
  refine h.extend hp ?_
  unfold Machine.lateSub
  dsimp only
  split
  · exact Effect.refl
  · exact Effect.refl.onFab.onIdx

theorem Reaches.refuseT4 {node id ty} (h : Effect ps w s t) (hp : [.fab, .rel, .recd] ⊆ ps := by decide) :
    Reaches ps w s (refuseT4 node id ty t) := by
  refine .extend h hp ?_
  unfold Machine.refuseT4
  split
  · exact .next Effect.refl
  · split
    · exact .next Effect.refl
    · exact .next Effect.refl.rxDone.answerStatus

theorem Effect.t4Land {i stop b} (h : Effect ps true s t) (hp : [.obj, .fls] ⊆ ps := by decide) :
    Effect ps true s (t4Land i stop b t) := by
  refine h.extend hp ?_
  unfold Machine.t4Land
  dsimp only
  split
  · exact refl.onFls
  · refine refl.modObjWrites (hf := fun _ o ho => ?_)
    split
    · exact ⟨ho.1, memWf_memWrite _ _ _ ho.2⟩
    · exact ⟨memWf_memWrite _ _ _ ho.1, ho.2⟩

theorem Effect.servePort {k port} (h : Effect ps w s t) (hp : [.fab, .recd] ⊆ ps := by decide) : Effect ps w s (servePort k port t) := by
  refine h.extend hp ?_
  clear h
  induction k generalizing t with
  | zero => exact refl
  | succ k ih =>
    unfold Machine.servePort
    split
    · exact refl
    · split
      · exact refl
      · exact trans refl.sendFrame ih

theorem Effect.pumpAll (h : Effect ps w s t) (hp : [.fab, .recd] ⊆ ps := by decide) :
    Effect ps w s (pumpAll t) :=
  h.extend hp ((refl.foldl fun _ _ h => h.foldl fun _ _ h => h.tagHead).foldl fun _ _ h => h.servePort)

theorem Effect.t4Pump (h : Effect ps w s t) (hp : [.fab, .rel, .recd] ⊆ ps := by decide) :
    Effect ps w s (t4Pump t) :=
  h.extend hp (refl.onFab.foldl fun _ _ h => h.t4Send)

theorem Effect.corrected {key d} (h : Effect ps w s t) (hp : [.stk, .rel] ⊆ ps := by decide) :
    Effect ps w s (corrected key d t) :=
  h.extend hp (ite refl.onStk refl.onStk.onStk.detect)

theorem Effect.stopRun {kind grp unit} (h : Effect ps w s t) (hp : [.stew, .shv, .stk, .rel] ⊆ ps := by decide) :
    Effect ps w s (stopRun kind grp unit t) :=
  h.extend hp (refl.foldl fun _ _ h => ite h (ite h.onShv h.modCulm).onRel.commandDone)

theorem Effect.emptyT0 {n} (h : Effect ps w s t) (hp : [.obj, .fls, .fab, .recd] ⊆ ps := by decide) : Effect ps w s (emptyT0 n t) :=
  h.extend hp (refl.foldl fun _ _ h => ite h ((ite h.writeHome h).modObj (hf := fun _ => ⟨rfl, fun _ _ => rfl⟩)))

theorem Effect.dropT0 {t'} (h : Effect ps w s t) (hp : [.obj] ⊆ ps := by decide) :
    Effect ps w s (dropT0 t' t) :=
  h.extend hp (refl.foldl fun _ _ h => ite h.accrue.dropClean h)

theorem Effect.dealAgain {t'} (h : Effect ps w s t) (hp : [.shv] ⊆ ps := by decide) :
    Effect ps w s (dealAgain t' t) :=
  h.extend hp (refl.foldl fun _ _ h => h.foldl fun _ _ h => ite h (ite h.modStage h.modStage.modStage))

theorem Effect.retireTile {t' d} (h : Effect ps w s t) (hp : [.stew, .obj, .shv, .stk, .fls, .fab, .rel, .recd] ⊆ ps := by decide) :
    Effect ps w s (retireTile t' d t) :=
  h.extend hp (ite refl.stopRun.onShv.emptyT0.onShv.detect refl.stopRun.onShv.emptyT0.onShv.dealAgain.dropT0.detect)

theorem Effect.loseT0 {n loc} (h : Effect ps w s t) (hp : [.obj] ⊆ ps := by decide) : Effect ps w s (loseT0 n loc t) := by
  unfold Machine.loseT0
  split
  · exact h
  · exact h.modObj hp fun o => by split <;> exact ⟨rfl, fun _ h => h⟩

theorem Effect.poisonRunning {t'} (h : Effect ps w s t) (hp : [.hif] ⊆ ps := by decide) :
    Effect ps w s (poisonRunning t' t) :=
  h.extend hp (refl.foldl fun _ _ h => ite h (h.foldl fun _ _ h => h.modCmd))

theorem Effect.retireCulm {k d} (h : Effect ps w s t) (hp : [.stew, .shv, .stk, .rel] ⊆ ps := by decide) :
    Effect ps w s (retireCulm k d t) :=
  h.extend hp refl.stopRun.onStk.modCulm.detect

theorem Effect.raiseViral (h : Effect ps w s t) (hp : [.aon, .stew, .hif, .rel] ⊆ ps := by decide) :
    Effect ps w s (raiseViral t) :=
  h.extend hp (ite refl refl.onAon.raiseCause.onHif.onStew)

theorem Effect.ringsFail {r38 r62} (h : Effect ps w s t) (hp : [.aon, .stew, .rel] ⊆ ps := by decide) :
    Effect ps w s (ringsFail r38 r62 t) :=
  h.extend hp (ite refl (ite refl.onAon.onRel.onRel.logEv.onRel.detect.raiseEvent refl.onAon.onRel.fatal.raiseEvent))

theorem memWf_foldl {α : Type} {f : Mem → α → Mem} {l : List α} {m : Mem} (hm : memWf m = true)
    (hf : ∀ m a, memWf m = true → memWf (f m a) = true) : memWf (l.foldl f m) = true := by
  induction l generalizing m with
  | nil => exact hm
  | cons a l ih => exact ih (hf m a hm)

theorem memWf_journalled {o : ObjRec} (h : memWf o.mem = true ∧ memWf o.homeMem = true) : memWf (journalled t o) = true := by
  unfold journalled
  split
  · exact h.1
  · refine memWf_foldl h.2 fun m r hm => ?_
    split
    · exact hm
    · refine memWf_foldl hm fun m x hm => memWf_foldl hm fun m a hm => ?_
      split
      · refine memWf_foldl hm fun m n hm => ?_
        split
        · split
          · exact memWf_memWrite _ _ _ hm
          · exact hm
        · exact hm
      · split
        · exact memWf_memWrite _ _ _ hm
        · exact hm

theorem Effect.undoComputed (h : Effect ps true s t) (hp : [.obj] ⊆ ps := by decide) : Effect ps true s (undoComputed t) :=
  h.foldl fun _ _ h => h.modObjWrites hp fun _ o ho => by
    split
    · exact ⟨memWf_journalled ho, ho.2⟩
    · exact ho

theorem Effect.endReplay (h : Effect ps true s t) (hp : [.stew, .eng, .idx, .obj, .fls, .recd] ⊆ ps := by decide) :
    Effect ps true s (endReplay t) := by
  refine h.extend hp ?_
  unfold Machine.endReplay
  split
  · next k hk =>
    exact (refl.onRecKept (hk := fun _ hc k hk => hc.2 k (hk.imp_right nofun))).putKept fun hc => hc.2 k (.inr hk)
  · exact refl

theorem Effect.bootSteward (h : Effect ps w s t) (hp : [.stew] ⊆ ps := by decide) :
    Effect ps w s (bootSteward t) :=
  h.extend hp (ite refl (ite refl.onStew.raiseEvent refl.onStew))

theorem Effect.restart {warm} (h : Effect ps true s t)
    (hp : [.aon, .stew, .hif, .eng, .idx, .obj, .shv, .stk, .fls, .fab, .rel, .recd] ⊆ ps := by decide) :
    Effect ps true s (restart warm t) := by
  refine h.extend hp ?_
  unfold Machine.restart
  extract_lets s1 s2 s3 s4 s5 s6 s7 s8
  have h1 : Effect [.aon, .stew, .hif, .eng, .idx, .obj, .shv, .stk, .fls, .fab, .rel, .recd] true t s1 :=
    refl.endReplay.undoComputed.loseVolatile
  have h4 : Effect [.aon, .stew, .hif, .eng, .idx, .obj, .shv, .stk, .fls, .fab, .rel, .recd] true t s4 :=
    (h1.onIdx (f := fun _ => resetIdx s1)).onAon.onHif.onStewMbx (hm := fun _ => nofun)
  have h8 : Effect [.aon, .stew, .hif, .eng, .idx, .obj, .shv, .stk, .fls, .fab, .rel, .recd] true t s8 :=
    h4.onEng.onFls.onShv.onStk.onObj
  clear_value s8
  exact ((h8.onFab).onRelBounded (hf := fun _ hs => ⟨Nat.zero_le _, hs⟩)).onRec.bootSteward

theorem Effect.coldStart (h : Effect ps true s t) (hp : [.aon, .stew, .hif, .eng, .idx, .obj, .shv, .stk, .fls, .fab, .rel, .recd] ⊆ ps := by decide) :
    Effect ps true s (coldStart t) := by
  refine h.extend hp ?_
  unfold Machine.coldStart
  dsimp only
  split
  · exact Effect.refl.restart.logEv
  · exact Effect.refl.restart

theorem Effect.rescan (h : Effect ps w s t) (hp : [.fls] ⊆ ps := by decide) :
    Effect ps w s (rescan t) :=
  h.extend hp refl.onFls

theorem Effect.loseLun {ch key} (h : Effect ps w s t) (hp : [.stew, .obj, .fls, .rel] ⊆ ps := by decide) :
    Effect ps w s (loseLun ch key t) :=
  h.extend hp (refl.foldl fun _ _ h => h.loseUnit).retireLun

theorem Effect.endPhase1 {found} (h : Effect ps w s t) (hp : [.stew, .obj, .fls, .rel] ⊆ ps := by decide) :
    Effect ps w s (endPhase1 found t) := by
  refine h.extend hp ?_
  unfold Machine.endPhase1
  dsimp only
  refine .ite (Effect.refl.rescan.foldl fun _ _ h => h.detect).onStew ?_
  refine Effect.onStew ?_
  refine Effect.foldl (Effect.refl.rescan.foldl fun _ _ h => h.loseChannel) fun t a h => ?_
  split
  · exact Effect.ite h (h.foldl fun _ _ h => h.loseLun).modChan.onfi
  · exact h

theorem Effect.loseKey {t'} (h : Effect ps w s t) (hp : [.obj, .fls, .rel] ⊆ ps := by decide) :
    Effect ps w s (loseKey t t') :=
  h.extend hp (refl.onFls.foldl fun _ _ h => ite h.poisonWhole h).detect

theorem Effect.endPhase2 {found} (h : Effect ps w s t) (hp : [.aon, .stew, .hif, .obj, .fls, .rel] ⊆ ps := by decide) :
    Effect ps w s (endPhase2 found t) := by
  refine h.extend hp (ite refl.latchGasp.detect.raiseViral (ite refl.detect.onStew (onRelBounded
    ((ite refl.logEv refl).onStew.foldl fun _ _ h => h.loseKey) (hf := fun hd hs => ⟨?_, hs⟩))))
  exact (List.length_map _).trans_le hd

theorem Effect.endPhase3 (h : Effect ps w s t) (hp : [.aon, .stew, .eng] ⊆ ps := by decide) :
    Effect ps w s (endPhase3 t) := by
  refine h.extend hp ?_
  unfold Machine.endPhase3
  dsimp only
  exact Effect.refl.onEng.onAon.onStew

theorem Effect.replayRecord {r} (h : Effect ps true s t) (hp : [.aon, .stew, .hif, .eng, .idx, .obj, .shv, .fls, .fab, .rel, .recd] ⊆ ps := by decide) :
    Effect ps true s (replayRecord t r) :=
  h.extend hp refl.applyHusks.onEng

theorem Effect.endPhase4 (h : Effect ps true s t) (hp : [.aon, .stew, .hif, .eng, .idx, .obj, .shv, .fls, .fab, .rel, .recd] ⊆ ps := by decide) :
    Effect ps true s (endPhase4 t) := by
  refine h.extend hp ?_
  unfold Machine.endPhase4
  dsimp only
  exact (Effect.refl.foldl fun _ _ h => h.replayRecord).onFls.onRec.onStew

theorem Effect.endPhase5 (h : Effect ps true s t) (hp : [.stew, .eng, .idx, .obj] ⊆ ps := by decide) :
    Effect ps true s (endPhase5 t) := by
  refine h.extend hp ?_
  unfold Machine.endPhase5
  dsimp only
  exact Effect.refl.keepSystem.onIdx.onEng.onStew

theorem Effect.knownBad {b} (h : Effect ps w s t) (hp : [.aon, .stew, .shv, .stk, .rel] ⊆ ps := by decide) :
    Effect ps w s (knownBad t b) :=
  h.extend hp (ite (ite refl refl.onShv.detect) (ite (ite refl refl.onStk.detect) (ite (ite refl (ite (ite refl.detect refl) refl.onRel.detect)) (ite refl.ringsFail refl))))

theorem Effect.layCluster {cl} (h : Effect ps w s t) (hp : [.shv] ⊆ ps := by decide) :
    Effect ps w s (layCluster t cl) := by
  refine h.extend hp ?_
  unfold Machine.layCluster
  dsimp only
  exact Effect.refl.onShv

theorem Effect.layCulm {k} (h : Effect ps w s t) (hp : [.stk] ⊆ ps := by decide) :
    Effect ps w s (layCulm t k) := by
  refine h.extend hp ?_
  unfold Machine.layCulm
  refine .ite Effect.refl ?_
  split
  · exact Effect.refl.modCulm
  · exact Effect.refl.modCulm

theorem Effect.inventory (h : Effect ps w s t) (hp : [.rel] ⊆ ps := by decide) :
    Effect ps w s (inventory t) :=
  h.extend hp ((refl.foldl fun _ _ h => ite h h.detect).foldl fun _ _ h => ite h h.detect)

theorem Effect.powerEvent {cause} (h : Effect ps w s t) (hp : [.aon, .rel] ⊆ ps := by decide) :
    Effect ps w s (powerEvent cause t) :=
  h.extend hp (ite refl (ite refl refl.logEv).onAon)

theorem Effect.flushWritten {rs maps} (h : Effect ps w s t) (hp : [.aon, .obj, .fls] ⊆ ps := by decide) :
    Effect ps w s (flushWritten rs maps t) := by
  refine h.extend hp ?_
  unfold Machine.flushWritten
  dsimp only
  exact Effect.refl.onAon.onObj.saveMap.onFls

theorem Effect.startWarm (h : Effect ps w s t) (hp : [.aon, .stew, .rel, .recd] ⊆ ps := by decide) :
    Effect ps w s (startWarm t) :=
  h.extend hp (ite refl (ite refl.logEv refl.endRecording.onAon))

theorem Effect.entryStep {k goal} (h : Effect ps w s t) (hp : [.aon, .obj, .shv, .fls, .fab, .recd] ⊆ ps := by decide) :
    Effect ps w s (entryStep k goal t) :=
  h.extend hp (ite refl.onObj.saveAll (ite (refl.foldl fun _ _ h => h.emptyT0.dropT0).onShv (ite refl.onAon (ite refl.onFab (ite refl.onAon refl)))))

theorem Effect.answerPower {st} (h : Effect ps w s t) (hp : [.stew] ⊆ ps := by decide) :
    Effect ps w s (answerPower st t) := by
  refine h.extend hp ?_
  unfold Machine.answerPower
  split
  · exact Effect.refl.onStew.zRespond
  · exact Effect.refl

theorem Effect.smbRead {pec content} (h : Effect ps w s t) (hp : [.aon] ⊆ ps := by decide) :
    Effect ps w s (smbRead pec content t) :=
  h.extend hp (ite refl.onAon refl)

theorem Effect.jtagSelect {i} (h : Effect ps w s t) (hp : [.aon] ⊆ ps := by decide) :
    Effect ps w s (jtagSelect i t) :=
  h.extend hp (ite refl.onAon refl)

theorem Effect.jtagTest {i} (h : Effect ps w s t) (hp : [.aon] ⊆ ps := by decide) :
    Effect ps w s (jtagTest i t) :=
  h.extend hp refl.jtagSelect

end
end Sys2Proof.Proofs

/-! The effect of every command. -/

namespace Sys2Proof.Proofs
open Sys2Proof Sys2Proof.Machine Sys2Proof.Safety
section
-- The many short proofs are checked one after the other, so that few threads run at once.
set_option Elab.async false
variable {ps : List StatePart} {w : Bool} {s t u : State}

theorem execJournalRecordDurable_reaches : Reaches [.aon, .stew, .hif, .eng, .idx, .obj, .shv, .fls, .fab, .rel, .recd] true s (execJournalRecordDurable s) := by
  unfold execJournalRecordDurable
  refine .digested ?_
  split
  · exact .next .refl
  · exact .ite (.next .refl) (.next (.ite Effect.refl.onFls.onEng Effect.refl.onFls.onEng.tryCommit))

theorem execJournalWriteFail_reaches : Reaches [.eng] false s (execJournalWriteFail s) := by
  unfold execJournalWriteFail
  refine .digested ?_
  split
  · exact .next .refl
  · exact .ite (.next .refl) (.next Effect.refl.onEng)

theorem execFwLoad_reaches {box image} : Reaches [.stew, .recd] false s (execFwLoad box image s) := by
  refine .whileUp (.onZalpol .refl fun m => Effect.refl.zChecked (Effect.refl.zData.zChecked (.ite Effect.refl.zData.zFail ?_)))
  refine Effect.zRespond (Effect.refl.zData.onStew (hm := ?_))
  split <;> rfl

theorem execSnapshotRelease_reaches : Reaches [.rel, .recd] false s (execSnapshotRelease s) :=
  .whileUp <| .ite (.next .refl) <| .next <| Effect.logEv <| Effect.refl.onRecKept (hk := fun _ hc k hk => hc.2 k (.inr (by simpa using hk)))

theorem execMbxEventDeliver_reaches {box} : Reaches [.aon, .stew, .hif] false s (execMbxEventDeliver box s) := by
  unfold execMbxEventDeliver
  refine .whileUp ?_
  dsimp only
  split
  · exact .next .refl
  · next e es hev =>
    refine .ite (.next .refl) (.next (Effect.mailMsi (Effect.refl.onStewMbx (hm := fun hb => ?_))))
    refine forall_tabSet hb ?_
    have hm := forall_tabGetD (P := fun m : Mbx => m.events.length ≤ 64) (i := box) (d := {}) hb (Nat.zero_le _)
    have : (e :: es).length ≤ 64 := hev ▸ hm
    exact Nat.le_of_succ_le this

theorem Effect.setNodeState {x} (h : Effect ps w s t) (hp : [.stew] ⊆ ps := by decide) :
    Effect ps w s (t.onStew fun y => { y with st := x }) :=
  h.onStew hp

theorem execStandbyEntry_reaches : Reaches [.stew, .shv, .stk, .rel] false s (execStandbyEntry s) := by
  refine .whileUp <| .ite (.next .refl) (.next (Effect.setNodeState (Effect.inventory ?_)))
  exact (Effect.foldl (Effect.refl.onShv.onStk) fun _ _ h => h.layCluster).foldl fun _ _ h => h.layCulm

theorem execStatus_reaches {node msg} : Reaches [.stew, .hif, .eng, .obj, .shv, .fls, .fab, .rel, .recd] false s (execStatus node msg s) := by
  unfold execStatus
  refine .whileUp ?_
  split
  · exact .next .refl
  · dsimp only
    split
    · exact .next Effect.refl.rxDone.lateAnswer
    · refine .ite (.next Effect.refl.rxDone.dropResv.onFab.telemPump) (.ite (.next ?_) (.next Effect.refl.rxDone.endResv))
      refine .getD (fun u hu => ?_) Effect.refl.rxDone.t4Ended
      obtain ⟨j, -, rfl⟩ := Option.map_eq_some_iff.1 hu
      exact .ite Effect.refl.rxDone.t4Ended.t4Send Effect.refl.rxDone.t4Ended.t4Done

theorem execUnpin_reaches {n} : Reaches [.stew, .hif, .eng, .obj, .shv, .rel] false s (execUnpin n s) := by
  unfold execUnpin
  refine .whileUp ?_
  split
  · exact .next .refl
  · refine .withObject .refl fun i o => .ite (.next Effect.refl.finishCmd) (.next (Effect.finishCmd (Effect.refl.modObj (hf := fun o => ?_))))
    unfold maybeEvict
    split <;> exact ⟨rfl, fun _ h => h⟩

theorem execWriteBackDurable_reaches {idx} : Reaches [.stew, .hif, .eng, .obj, .shv, .fls, .fab, .rel, .recd] false s (execWriteBackDurable idx s) := by
  unfold execWriteBackDurable
  refine .whileUp ?_
  split
  · exact .next .refl
  · refine .ite (.next .refl) (.ite (.next Effect.refl.onFls) (.next ?_))
    exact .settleObj (.headerChange (.modObj Effect.refl.accrue.flashMove.writeHome (hf := fun _ => ⟨rfl, fun _ _ => rfl⟩)))

theorem execCleaningPass_reaches {idx} : Reaches [.obj, .fls, .fab, .rel, .recd] false s (execCleaningPass idx s) := by
  unfold execCleaningPass
  refine .whileUp ?_
  split
  · exact .next .refl
  · split
    · exact .next .refl
    · refine .ite (.next .refl) (.ite (.next ?_) (.ite (.next ?_) (.next ?_)))
      · exact Effect.refl.timerToken.backToken.meterMove.bucketCharge.modObj.packWrite
      · exact Effect.refl.timerToken.backToken.meterMove.bucketCharge.modObj.cleanPage
      · exact .headerChange (.modObj Effect.refl.timerToken.backToken.meterMove.bucketCharge.writeHome
          (hf := fun _ => ⟨rfl, fun _ _ => rfl⟩))

/-- A coded stream leaves its object clean, or what was coded as its home copy. -/
theorem keepsMem_streamHome {src : Bytes} {e : ObjRec → Nat} {t : Option Nat} : KeepsMem fun o =>
    if o.pages.isEmpty then { o with dirty := false, homeMem := [], dirtySince := none, writtenEpoch := e o }
    else { o with homeMem := memWrite [] 0 src, writtenEpoch := e o, dirtySince := t } := by
  intro o
  dsimp only
  split
  · exact ⟨rfl, fun _ _ => rfl⟩
  · exact ⟨rfl, fun _ _ => memWf_memWrite _ _ _ rfl⟩

theorem execCheckpointStreamSwitch_reaches {idx} :
    Reaches [.obj, .fls, .fab, .rel, .recd] false s (execCheckpointStreamSwitch idx s) := by
  unfold execCheckpointStreamSwitch
  refine .whileUp ?_
  split
  · refine .ite (.next .refl) (.ite (.next Effect.refl.onFls) (.ite (.next ?_) (.next ?_)))
    · exact .ite (.ite Effect.refl.endPack.onFls.t4Whole Effect.refl.endPack.onFls.writeStream)
        (Effect.ite Effect.refl.endPack.onFls.t4Whole Effect.refl.endPack.onFls.writeStream).packWrite
    · exact .headerChange (.modObj (.ite Effect.refl.endPack.onFls.t4Whole Effect.refl.endPack.onFls.writeStream)
        (hf := keepsMem_streamHome))
  · exact .next .refl

theorem execAlloc_reaches {n data} : Reaches [.stew, .hif, .eng, .obj, .shv, .fls, .fab, .rel, .recd] true s (execAlloc n data s) := by
  unfold execAlloc
  refine .whileUp ?_
  split
  · exact .next .refl
  · dsimp only
    split
    · exact .next Effect.refl.finishCmd
    · refine .ite (.next Effect.refl.failCmd) (.ite (.next Effect.refl.failCmd) ?_)
      split
      · exact .next Effect.refl.failCmd
      · next s1 hs1 =>
        split
        · exact .next Effect.refl.failCmd
        · next h s2 hs2 =>
          have made := (Effect.refl.accrue.requestSpace hs1).addObject hs2 (ps := [.stew, .hif, .eng, .obj, .shv, .fls, .fab, .rel, .recd]) (s := s)
            (hm := ⟨memWf_memWrite _ _ _ rfl, rfl⟩)
          refine .ite (.next Effect.refl.waitFold) (.ite (.ite (.next Effect.refl.failCmd) (.next ?_)) (.next ?_))
          · exact made.recordData.headerChange.modCmd.t4Whole
          · exact made.recordData.headerChange.writeHome.finishCmd

theorem execFrameReceive_reaches {port form frame} :
    Reaches [.stew, .hif, .eng, .obj, .shv, .fls, .fab, .rel, .recd] false s (execFrameReceive port form frame s) := by
  have taken : Effect [.stew, .hif, .eng, .obj, .shv, .fls, .fab, .rel, .recd] false s
      (recordInput 7 port false (toLe 1 port ++ zeros 7 ++ frame) s) := Effect.refl.recordInput
  unfold execFrameReceive
  refine .whileUp ?_
  extract_lets n s1 s2 p hello s3
  refine .ite (.next .refl) <| .ite (.next Effect.refl.macDrop) <| .ite (.next Effect.refl.macDrop) <|
    .ite (.next Effect.refl.macDrop) <| .ite (.next Effect.refl.badFrame) <| .ite (.next .refl) ?_
  have woken := Effect.ite (c := byteAt frame 2 % 2 = 1) taken.wakeEvent taken
  refine .ite (.next woken.onFab) ?_
  have closed : Effect [.stew, .hif, .eng, .obj, .shv, .fls, .fab, .rel, .recd] false s s3 := .ite woken.closePeer woken
  clear_value s3
  refine .ite (.next closed.helloFrame) (.ite (.next closed.sendHello) ?_)
  split
  · exact .next closed.badFrame
  · exact .next (.ite closed.ackFrame closed.dataFrame)

theorem execSubSearch_reaches {node msg} : Reaches [.stew, .hif, .eng, .idx, .obj, .shv, .fab, .rel, .recd] false s (execSubSearch node msg s) := by
  unfold execSubSearch
  refine .whileUp ?_
  split
  · exact .next .refl
  · next m hm =>
    extract_lets b t ent e d ep no
    have refused st : Reaches [.stew, .hif, .eng, .idx, .obj, .shv, .fab, .rel, .recd] false s (no st) := .next Effect.refl.rxDone.refuseSub
    refine .ite (.next Effect.refl.rxDone.answerStatus) <| .ite (.next .refl) <| .ite (refused _) <| .ite (refused _) <|
      .ite (refused _) <| .ite (refused _) <| .ite (refused _) <| .ite (.next Effect.refl.noteWaiter) ?_
    split
    · exact refused _
    · exact refused _
    · refine .ite (refused _) ?_
      extract_lets n ls
      split
      · exact .next (.refuseSub (.rxDone (.ite Effect.refl.countViolation .refl)))
      · exact .next Effect.refl.endWaiter.rxDone.searchDrops.token.enterCmd

theorem execDetectionProcess_reaches : Reaches [.stew, .fab, .rel, .recd] false s (execDetectionProcess s) := by
  unfold execDetectionProcess
  refine .whileUp ?_
  split
  · exact .next .refl
  · next d ds hq =>
    refine .ite (.next .refl) ?_
    extract_lets n gone s1 s2 s3 s4 s5 s6
    have taken : Effect [.stew, .fab, .rel, .recd] false s s2 := by
      refine (Effect.refl.token (t := s)).onRelBounded (hf := fun hd hs => ⟨?_, ?_⟩)
      · have : (d :: ds).length ≤ 1024 := hq ▸ (token_rel _ _ _ _ _ _ ▸ hd)
        exact Nat.le_of_succ_le this
      · exact List.length_take_le _ _
    have told : Effect [.stew, .fab, .rel, .recd] false s s3 := by
      unfold s3
      cases gone
      · exact taken
      · exact taken.onFab
    have logged : Effect [.stew, .fab, .rel, .recd] false s s4 := .ite told told.logEv.onRel
    clear_value s4
    refine .next ?_
    split
    · exact logged.raiseEvent.sendTelem.commandDone
    · exact logged.raiseEvent.sendTelem

theorem execFormatComplete_reaches : Reaches [.aon, .stew, .eng, .idx, .obj, .fls, .recd] true s (execFormatComplete s) := by
  unfold execFormatComplete
  refine .whileUp ?_
  split
  · exact .next .refl
  · refine .ite (.next .refl) ?_
    extract_lets vers gone s1 s2 s3 s4 s5 s6 s7 s8 s9
    have emptied : Effect [.aon, .stew, .eng, .idx, .obj, .fls, .recd] true s s2 := by
      refine (Effect.foldl .refl fun _ _ h => h.removeObject).onRecsWrites (hc := fun hc p hm => ?_)
      obtain ⟨q, hq, rfl⟩ := List.mem_map.1 hm
      exact hc q hq
    have formatted : Effect [.aon, .stew, .eng, .idx, .obj, .fls, .recd] true s s8 := emptied.onIdx.onEng.onStew.recordInput.onFls.onAon
    clear_value s8
    exact .next <| .commandDone (.ite formatted (formatted.onRecKept (hk := fun _ hc k hk => hc.2 k (.inr (by simpa using hk)))))

theorem execRecordingStart_reaches : Reaches [.stew, .obj, .rel, .recd] true s (execRecordingStart s) := by
  unfold execRecordingStart
  refine .whileUp ?_
  split
  · exact .next .refl
  · refine .ite (.next .refl) ?_
    extract_lets snap h cs cap fits s1 region s2 s3
    have set : Effect [.stew, .obj, .rel, .recd] true s s1 := by
      refine Effect.refl.onRecKept (hk := fun _ hc k hk => ?_)
      rcases hk with hk | hk
      · cases hk; exact hc.1
      · exact hc.2 k (.inr hk)
    clear_value s1
    have placed : Effect [.stew, .obj, .rel, .recd] true s s3 := (Effect.onObj (f := fun o => { o with spillH := region.1 }) set.dropSystem.takeSystem).withDig
    clear_value s3
    exact .next (.ite placed placed.endRecording)

theorem execReplayStart_reaches {box image} : Reaches [.stew, .eng, .idx, .obj, .fls, .fab, .recd] true s (execReplayStart box image s) := by
  refine .whileUp (.onZalpol .refl fun m => ?_)
  extract_lets s1 cs secs s2 s3 own s4 s5 s6
  have given : Effect [.stew, .eng, .idx, .obj, .fls, .fab, .recd] true s s1 := Effect.refl.zData
  clear_value s1
  refine .ite given.zFail (.ite given.zFail ?_)
  split
  · exact given.zFail
  · refine .ite given.zFail ?_
    have dark : Effect [.stew, .eng, .idx, .obj, .fls, .fab, .recd] true s s3 := given.zRespond.onFab
    have hown : MemoriesCanonical s → RecsCanonical own.obj := fun hc => (dark.canonical hc).1
    have kept : Effect [.stew, .eng, .idx, .obj, .fls, .fab, .recd] true s s4 := by
      refine Effect.loseVolatile ?_
      split
      · next k hk => exact dark.putKept fun hc => (dark.canonical hc).2 k (.inl hk)
      · exact dark
    have restored : Effect [.stew, .eng, .idx, .obj, .fls, .fab, .recd] true s s6 := (kept.foldl fun _ _ h => h.restoreSection).withDig
    clear_value s6
    refine restored.onStew.onRecKept (hk := fun hs hc k hk => ?_)
    rcases hk with hk | hk
    · exact hc.2 k (.inl hk)
    · cases hk
      exact hown hs

theorem execCrossingResync_reaches {island other} : Reaches [.aon] false s (execCrossingResync island other s) :=
  .whileUp <| .ite (.next .refl) <| .next Effect.refl.onAon

theorem execPowerMeanSample_reaches {mw} : Reaches [.aon] false s (execPowerMeanSample mw s) :=
  .whileUp <| .next Effect.refl.onAon

theorem execPowerClockStep_reaches : Reaches [.aon] false s (execPowerClockStep s) :=
  .whileUp <| .ite (.next Effect.refl.onAon) <| .ite (.next Effect.refl.onAon) <| .next .refl

theorem execRefclkReturn_reaches {clk} : Reaches [.aon] false s (execRefclkReturn clk s) :=
  .next Effect.refl.onAon

theorem execSmbusMirrorUpdate_reaches : Reaches [.aon] false s (execSmbusMirrorUpdate s) :=
  .whileUp <| .next Effect.refl.onAon

theorem execSmbusIdent_reaches {pec} : Reaches [.aon] false s (execSmbusIdent pec s) :=
  .next Effect.refl.smbRead

theorem execSmbusNodeStatus_reaches {pec} : Reaches [.aon] false s (execSmbusNodeStatus pec s) :=
  .next Effect.refl.smbRead

theorem execSmbusBootUptime_reaches {pec} : Reaches [.aon] false s (execSmbusBootUptime pec s) :=
  .next Effect.refl.smbRead

theorem execSmbusFaultCause_reaches {pec} : Reaches [.aon] false s (execSmbusFaultCause pec s) :=
  .next Effect.refl.smbRead

theorem execSmbusLastGasp_reaches {pec} : Reaches [.aon] false s (execSmbusLastGasp pec s) :=
  .next Effect.refl.smbRead

theorem execSmbusLogFailCount_reaches {pec} : Reaches [.aon] false s (execSmbusLogFailCount pec s) :=
  .next Effect.refl.smbRead

theorem execSmbusTemps_reaches {pec} : Reaches [.aon] false s (execSmbusTemps pec s) :=
  .next Effect.refl.smbRead

theorem execSmbusRails_reaches {pec} : Reaches [.aon] false s (execSmbusRails pec s) :=
  .next Effect.refl.smbRead

theorem execSmbusThermal_reaches {pec} : Reaches [.aon] false s (execSmbusThermal pec s) :=
  .next Effect.refl.smbRead

theorem execSmbusUndefinedCode_reaches {code pec} : Reaches [.aon] false s (execSmbusUndefinedCode code pec s) :=
  .next (Effect.ite Effect.refl.onAon Effect.refl)

theorem execJtagIdcode_reaches : Reaches [.aon] false s (execJtagIdcode s) :=
  .next Effect.refl.jtagSelect

theorem execJtagBypass_reaches {code} : Reaches [.aon] false s (execJtagBypass code s) :=
  .next Effect.refl.jtagSelect

theorem execJtagSamplePreload_reaches : Reaches [.aon] false s (execJtagSamplePreload s) :=
  .next Effect.refl.jtagSelect

theorem execJtagExtest_reaches : Reaches [.aon] false s (execJtagExtest s) :=
  .next Effect.refl.jtagTest

theorem execJtagIntest_reaches : Reaches [.aon] false s (execJtagIntest s) :=
  .next Effect.refl.jtagTest

theorem execJtagClamp_reaches : Reaches [.aon] false s (execJtagClamp s) :=
  .next Effect.refl.jtagTest

theorem execJtagHighz_reaches : Reaches [.aon] false s (execJtagHighz s) :=
  .next Effect.refl.jtagTest

theorem execPowerSet_reaches {box} : Reaches [.stew] false s (execPowerSet box s) := by
  unfold Machine.execPowerSet
  dsimp only
  refine .whileUp <| .ite (.next .refl) ?_
  refine .onZalpol Effect.refl (fun m => ?_)
  refine Effect.zChecked Effect.refl ?_
  exact Effect.ite Effect.refl.zFail (Effect.ite Effect.refl.zRespond (Effect.ite Effect.refl.onStew.zRespond (Effect.ite Effect.refl.onStew Effect.refl.onStew)))

theorem execCollectionStats_reaches {box} : Reaches [.stew] false s (execCollectionStats box s) := by
  unfold Machine.execCollectionStats
  dsimp only
  refine .whileUp ?_
  refine .onZalpol Effect.refl (fun m => ?_)
  split
  · exact Effect.refl.zFail
  · exact Effect.ite Effect.refl.zFail Effect.refl.zRespond

theorem execBinderRead_reaches {box} : Reaches [.stew] false s (execBinderRead box s) := by
  unfold Machine.execBinderRead
  refine .whileUp ?_
  refine .onZalpol Effect.refl (fun m => ?_)
  refine Effect.zBinder Effect.refl (fun i x => ?_)
  exact Effect.refl.zRespond

theorem execChannelStatus_reaches {box} : Reaches [.stew] false s (execChannelStatus box s) := by
  unfold Machine.execChannelStatus
  dsimp only
  refine .whileUp ?_
  refine .onZalpol Effect.refl (fun m => ?_)
  split
  · exact Effect.refl.zFail
  · exact Effect.refl.zRespond

theorem execEndurance_reaches {box} : Reaches [.stew] false s (execEndurance box s) := by
  unfold Machine.execEndurance
  dsimp only
  refine .whileUp ?_
  refine .onZalpol Effect.refl (fun m => ?_)
  refine .ite Effect.refl.zRespond ?_
  refine Effect.zChecked Effect.refl ?_
  exact Effect.refl.zRespond

theorem execFwActivate_reaches {box} : Reaches [.stew] false s (execFwActivate box s) := by
  unfold Machine.execFwActivate
  dsimp only
  refine .whileUp ?_
  refine .onZalpol Effect.refl (fun m => ?_)
  refine Effect.zChecked Effect.refl ?_
  exact Effect.ite Effect.refl.zFail (Effect.ite Effect.refl.zFail Effect.refl.zRespond.onStew)

theorem execFwActivateTimeout_reaches : Reaches [.stew] false s (execFwActivateTimeout s) := by
  unfold Machine.execFwActivateTimeout
  refine .whileUp ?_
  split
  · exact .next .refl
  · exact .ite (.next .refl) <| .next Effect.refl.onStew.raiseEvent

theorem execThreshStatus_reaches {box} : Reaches [.stew] false s (execThreshStatus box s) := by
  unfold Machine.execThreshStatus
  refine .whileUp ?_
  refine .onZalpol Effect.refl (fun m => ?_)
  split
  · exact Effect.refl.zFail
  · exact Effect.refl.zRespond

theorem execRecoverRestart_reaches {box} : Reaches [.stew] false s (execRecoverRestart box s) := by
  unfold Machine.execRecoverRestart
  dsimp only
  refine .whileUp <| .ite (.next .refl) ?_
  refine .onZalpol Effect.refl (fun m => ?_)
  refine Effect.zChecked Effect.refl ?_
  exact (Effect.ite Effect.refl Effect.refl.onStew).zRespond

theorem execRecoverLeaveFault_reaches {box} : Reaches [.stew] false s (execRecoverLeaveFault box s) := by
  unfold Machine.execRecoverLeaveFault
  refine .whileUp <| .ite (.next .refl) ?_
  refine .onZalpol Effect.refl (fun m => ?_)
  exact Effect.ite Effect.refl.zRespond (Effect.ite Effect.refl.zFail Effect.refl.onStew.zRespond)

theorem execRecoveryStatus_reaches {box} : Reaches [.stew] false s (execRecoveryStatus box s) := by
  unfold Machine.execRecoveryStatus
  refine .whileUp ?_
  refine .onZalpol Effect.refl (fun m => ?_)
  exact Effect.refl.zRespond

theorem execCxlIdentifyMemoryDevice_reaches : Reaches [.stew] false s (execCxlIdentifyMemoryDevice s) :=
  .whileUp <| .next Effect.refl.cxlAnswer

theorem execCxlGetEventRecords_reaches : Reaches [.stew] false s (execCxlGetEventRecords s) :=
  .whileUp <| .next Effect.refl.cxlAnswer

theorem execCxlClearEventRecords_reaches : Reaches [.stew] false s (execCxlClearEventRecords s) :=
  .whileUp <| .next Effect.refl.onStew.cxlAnswer

theorem execCxlGetHealthInfo_reaches : Reaches [.stew] false s (execCxlGetHealthInfo s) :=
  .whileUp <| .next Effect.refl.cxlAnswer

theorem execCxlGetPoisonList_reaches : Reaches [.stew] false s (execCxlGetPoisonList s) :=
  .whileUp <| .next Effect.refl.cxlAnswer

theorem execCxlUnsupportedCommand_reaches {opcode} : Reaches [.stew] false s (execCxlUnsupportedCommand opcode s) :=
  .whileUp <| .next (Effect.ite Effect.refl Effect.refl.cxlAnswer)

theorem execGetVersion_reaches : Reaches [.stew] false s (execGetVersion s) :=
  .whileUp <| .next Effect.refl.onStew.spdmSend

theorem execGetCapabilities_reaches : Reaches [.stew] false s (execGetCapabilities s) :=
  .whileUp <| .next (Effect.ite Effect.refl.setSpdm.spdmSend Effect.refl.spdmError)

theorem execNegotiateAlgorithms_reaches {offered} : Reaches [.stew] false s (execNegotiateAlgorithms offered s) :=
  .whileUp <| .next (Effect.ite Effect.refl.spdmError (Effect.ite Effect.refl.spdmError Effect.refl.setSpdm.spdmSend))

theorem execGetDigests_reaches : Reaches [.stew] false s (execGetDigests s) :=
  .whileUp <| .next (Effect.ite Effect.refl.spdmSend Effect.refl.spdmError)

theorem execGetCertificate_reaches {slot off len} : Reaches [.stew] false s (execGetCertificate slot off len s) :=
  .whileUp <| .next (Effect.ite Effect.refl.spdmError (Effect.ite Effect.refl.spdmError Effect.refl.spdmSend))

theorem execChallenge_reaches {slot} : Reaches [.stew] false s (execChallenge slot s) :=
  .whileUp <| .next (Effect.ite Effect.refl.spdmError (Effect.ite Effect.refl.spdmError Effect.refl.spdmSend))

theorem execGetMeasurements_reaches {index} : Reaches [.stew] false s (execGetMeasurements index s) :=
  .whileUp <| .next (Effect.ite Effect.refl.spdmError (Effect.ite Effect.refl.spdmError (Effect.ite Effect.refl.spdmSend (Effect.ite Effect.refl.spdmSend (Effect.ite Effect.refl.spdmSend Effect.refl.spdmError)))))

theorem execKeyExchange_reaches {slot} : Reaches [.stew] false s (execKeyExchange slot s) :=
  .whileUp <| .next (Effect.ite Effect.refl.spdmError (Effect.ite Effect.refl.spdmError Effect.refl.onStew.spdmSend))

theorem execFinish_reaches {good} : Reaches [.stew] false s (execFinish good s) :=
  .whileUp <| .next (Effect.ite Effect.refl.spdmError (Effect.ite Effect.refl.onStew.spdmSend Effect.refl.setSpdm.spdmError))

theorem execHeartbeat_reaches {sess} : Reaches [.stew] false s (execHeartbeat sess s) :=
  .whileUp <| .next (Effect.ite Effect.refl.spdmSend Effect.refl.spdmError)

theorem execKeyUpdate_reaches {sess} : Reaches [.stew] false s (execKeyUpdate sess s) :=
  .whileUp <| .next (Effect.ite Effect.refl.spdmSend Effect.refl.spdmError)

theorem execEndSession_reaches {sess} : Reaches [.stew] false s (execEndSession sess s) :=
  .whileUp <| .next (Effect.ite Effect.refl.onStew.spdmSend Effect.refl.spdmError)

theorem execVendorDefinedRequest_reaches {sess msg} : Reaches [.stew] false s (execVendorDefinedRequest sess msg s) := by
  unfold Machine.execVendorDefinedRequest
  refine .whileUp <| .ite (.next Effect.refl.spdmError) ?_
  split
  · exact .next Effect.refl.kAnswer
  · exact .next Effect.refl.onStew

theorem execStewardWatchdog_reaches : Reaches [.stew] false s (execStewardWatchdog s) :=
  .whileUp <| .next Effect.refl.onStew

theorem execCoalesceTimeout_reaches {qp} : Reaches [.hif] false s (execCoalesceTimeout qp s) := by
  unfold Machine.execCoalesceTimeout
  dsimp only
  refine .whileUp ?_
  split
  · exact .next .refl
  · exact .next (Effect.ite Effect.refl Effect.refl.signalCq)

theorem execMsixEntryUnmask_reaches {fn ent} : Reaches [.hif] false s (execMsixEntryUnmask fn ent s) :=
  .whileUp <| .ite (.next (Effect.ite Effect.refl.onHif.sendMsi Effect.refl.onHif)) <| .next .refl

theorem execWindowRead_reaches {cxl addr len} : Reaches [.hif] false s (execWindowRead cxl addr len s) := by
  unfold Machine.execWindowRead
  dsimp only
  refine .whileUp <| .ite (.next .refl) ?_
  split
  · exact .next Effect.refl.onHif
  · exact .next Effect.refl.onHif

theorem execMsixEntryMask_reaches {fn ent} : Reaches [.hif] false s (execMsixEntryMask fn ent s) :=
  .whileUp <| .next (Effect.ite Effect.refl.onHif Effect.refl)

theorem execSriovVfEnable_reaches {vfs} : Reaches [.hif] false s (execSriovVfEnable vfs s) :=
  .whileUp <| .next Effect.refl.onHif

theorem execBar2Resize_reaches {gib} : Reaches [.hif] false s (execBar2Resize gib s) :=
  .whileUp <| .next (Effect.ite Effect.refl.onHif Effect.refl)

theorem execHuskAdmission_reaches {h'} : Reaches [.eng] false s (execHuskAdmission h' s) := by
  unfold Machine.execHuskAdmission
  dsimp only
  refine .whileUp ?_
  split
  · exact .next .refl
  · exact .ite (.next .refl) <| .next Effect.refl.onEng

theorem execOldLocationRelease_reaches {idx} : Reaches [.obj] false s (execOldLocationRelease idx s) := by
  unfold Machine.execOldLocationRelease
  refine .whileUp ?_
  split
  · exact .next .refl
  · exact .ite (.next Effect.refl.accrue.modObj) <| .next .refl

theorem execCreditReturnArrival_reaches {sheaf stage succ} : Reaches [.shv] false s (execCreditReturnArrival sheaf stage succ s) := by
  unfold Machine.execCreditReturnArrival
  dsimp only
  refine .whileUp ?_
  split
  · exact .next .refl
  · exact .ite (.next .refl) <| .next Effect.refl.modEdge

theorem execStageGenerationSwitch_reaches {tile} : Reaches [.shv] false s (execStageGenerationSwitch tile s) :=
  .whileUp <| .next (Effect.ite Effect.refl Effect.refl.onShv)

theorem execStookListArrival_reaches {leaf lane} : Reaches [.shv] false s (execStookListArrival leaf lane s) := by
  unfold Machine.execStookListArrival
  dsimp only
  refine .whileUp ?_
  split
  · exact .next .refl
  · refine .ite (.next .refl) ?_
    split
    · exact .next .refl
    · exact .next Effect.refl.onShv.modStage

theorem execStookMergeComplete_reaches {engine} : Reaches [.shv] false s (execStookMergeComplete engine s) := by
  unfold Machine.execStookMergeComplete
  dsimp only
  refine .whileUp ?_
  split
  · exact .next .refl
  · refine .ite (.next Effect.refl.onShv) ?_
    split
    · exact .next .refl
    · exact .next Effect.refl.onShv

theorem execTillerSwapStart_reaches {tile} : Reaches [.shv] false s (execTillerSwapStart tile s) := by
  unfold Machine.execTillerSwapStart
  refine .whileUp ?_
  split
  · exact .next .refl
  · exact .ite (.next .refl) <| .next Effect.refl.onShv

theorem execMappingPageWrite_reaches {bytes} : Reaches [.fls] false s (execMappingPageWrite bytes s) :=
  .whileUp <| .next Effect.refl.saveMap.onFls

theorem execPackBlockEncode_reaches {req} : Reaches [.fls] false s (execPackBlockEncode req s) := by
  unfold Machine.execPackBlockEncode
  dsimp only
  refine .whileUp ?_
  split
  · exact .next Effect.refl.grantPrivileged
  · split
    · exact .next Effect.refl.grantPrivileged
    · exact .ite (.next Effect.refl.grantPrivileged) <| .next (Effect.ite Effect.refl.grantPrivileged.onFls Effect.refl.grantPrivileged).modPack

theorem execAckSendTimer_reaches {node vc} : Reaches [.fab] false s (execAckSendTimer node vc s) := by
  unfold Machine.execAckSendTimer
  dsimp only
  refine .whileUp <| .ite (.next .refl) ?_
  split
  · exact .next .refl
  · exact .next Effect.refl.modVc.modVc.wireFrame

theorem execQuarantineEnd_reaches {node} : Reaches [.fab] false s (execQuarantineEnd node s) := by
  unfold Machine.execQuarantineEnd
  refine .whileUp ?_
  split
  · exact .next (Effect.ite Effect.refl Effect.refl.modPeer)
  · exact .next .refl

theorem execLogArchiveCopy_reaches : Reaches [.rel] false s (execLogArchiveCopy s) :=
  .whileUp <| .ite (.next .refl) <| .next Effect.refl.onRel

theorem execCrossingLaneSwitch_reaches {crossing} : Reaches [.rel] false s (execCrossingLaneSwitch crossing s) :=
  .whileUp <| .ite (.next .refl) <| .next Effect.refl.onRel.threshApplied

theorem execDieLinkCrcRetry_reaches {link} : Reaches [.rel] false s (execDieLinkCrcRetry link s) :=
  .whileUp <| .next (Effect.ite Effect.refl Effect.refl.onRel)

theorem execPwrFailNGlitch_reaches : Reaches [.rel] false s (execPwrFailNGlitch s) :=
  .next (Effect.ite Effect.refl Effect.refl.logEv)

theorem execPwrFailNAssert_reaches : Reaches [.aon, .rel] false s (execPwrFailNAssert s) :=
  .ite (.next .refl) <| .next Effect.refl.onAon.powerEvent

theorem execRailOutOfLimits_reaches {rail} : Reaches [.aon, .rel] false s (execRailOutOfLimits rail s) :=
  .ite (.next .refl) <| .next Effect.refl.onAon.powerEvent

theorem execThermalTrip_reaches : Reaches [.aon, .rel] false s (execThermalTrip s) := by
  unfold Machine.execThermalTrip
  split
  · exact .next .refl
  · exact .ite (.next .refl) <| .next Effect.refl.onAon.logEv.powerEvent

theorem execFaultCauseClear_reaches {value} : Reaches [.aon, .recd] false s (execFaultCauseClear value s) :=
  .whileUp <| .next (Effect.ite Effect.refl Effect.refl.recordReg.onAon)

theorem execQueueCreate_reaches {box} : Reaches [.stew, .hif] false s (execQueueCreate box s) := by
  unfold Machine.execQueueCreate
  dsimp only
  refine .whileUp ?_
  refine .onZalpol Effect.refl (fun m => ?_)
  refine Effect.zChecked Effect.refl ?_
  refine .ite Effect.refl.zFail ?_
  refine Effect.zChecked Effect.refl ?_
  exact Effect.ite Effect.refl.zFail Effect.refl.modQp.zRespond

theorem execQueueDelete_reaches {box} : Reaches [.stew, .hif] false s (execQueueDelete box s) := by
  unfold Machine.execQueueDelete
  dsimp only
  refine .whileUp ?_
  refine .onZalpol Effect.refl (fun m => ?_)
  refine Effect.zChecked Effect.refl ?_
  exact Effect.ite Effect.refl.zFail (Effect.ite Effect.refl.zRespond Effect.refl.modQp.checkDelete)

theorem execVectorBind_reaches {box} : Reaches [.stew, .hif] false s (execVectorBind box s) := by
  unfold Machine.execVectorBind
  dsimp only
  refine .whileUp <| .ite (.next .refl) ?_
  refine .onZalpol Effect.refl (fun m => ?_)
  refine Effect.zChecked Effect.refl ?_
  refine .ite Effect.refl.zFail ?_
  split
  · exact Effect.refl.onHif.zRespond
  · exact Effect.refl.zFail

theorem execVectorUnbind_reaches {box} : Reaches [.stew, .hif] false s (execVectorUnbind box s) := by
  unfold Machine.execVectorUnbind
  dsimp only
  refine .whileUp <| .ite (.next .refl) ?_
  refine .onZalpol Effect.refl (fun m => ?_)
  refine Effect.zChecked Effect.refl ?_
  split
  · exact Effect.refl.zFail
  · exact Effect.ite Effect.refl.zFail (Effect.ite Effect.refl.zFail Effect.refl.onHif.zRespond)

theorem execGenRead_reaches {box} : Reaches [.stew, .hif] false s (execGenRead box s) := by
  unfold Machine.execGenRead
  dsimp only
  refine .whileUp ?_
  refine .onZalpol Effect.refl (fun m => ?_)
  refine Effect.zChecked Effect.refl ?_
  exact Effect.ite Effect.refl.zRespond Effect.refl.hostWrite.zRespond

theorem execLogRead_reaches {box} : Reaches [.stew, .hif] false s (execLogRead box s) := by
  unfold Machine.execLogRead
  dsimp only
  refine .whileUp ?_
  refine .onZalpol Effect.refl (fun m => ?_)
  exact Effect.refl.hostWrite.zRespond

theorem execRecordExport_reaches {box} : Reaches [.stew, .hif] false s (execRecordExport box s) := by
  unfold Machine.execRecordExport
  dsimp only
  refine .whileUp ?_
  refine .onZalpol Effect.refl (fun m => ?_)
  exact Effect.refl.hostWrite.zRespond

theorem execCollectionCreate_reaches {box} : Reaches [.stew, .eng] false s (execCollectionCreate box s) := by
  unfold Machine.execCollectionCreate
  dsimp only
  refine .whileUp <| .ite (.next .refl) ?_
  refine .onZalpol Effect.refl (fun m => ?_)
  refine Effect.zChecked Effect.refl ?_
  refine .ite Effect.refl.zFail ?_
  split
  · exact Effect.refl.zFail
  · exact Effect.refl.collHusk

theorem execCollectionChange_reaches {box} : Reaches [.stew, .eng] false s (execCollectionChange box s) := by
  unfold Machine.execCollectionChange
  dsimp only
  refine .whileUp <| .ite (.next .refl) ?_
  refine .onZalpol Effect.refl (fun m => ?_)
  split
  · exact Effect.refl.zFail
  · refine .ite Effect.refl.zFail ?_
    refine Effect.zChecked Effect.refl ?_
    exact Effect.refl.collHusk

theorem execCollectionDelete_reaches {box} : Reaches [.stew, .eng] false s (execCollectionDelete box s) := by
  unfold Machine.execCollectionDelete
  dsimp only
  refine .whileUp <| .ite (.next .refl) ?_
  refine .onZalpol Effect.refl (fun m => ?_)
  split
  · exact Effect.refl.zFail
  · exact Effect.ite Effect.refl.zFail Effect.refl.collHusk

theorem execBinderAlloc_reaches {box} : Reaches [.stew, .eng] false s (execBinderAlloc box s) := by
  unfold Machine.execBinderAlloc
  dsimp only
  refine .whileUp ?_
  refine .onZalpol Effect.refl (fun m => ?_)
  exact Effect.ite Effect.refl.zFail Effect.refl.onEng.zRespond

theorem execRebuildSweep_reaches {box} : Reaches [.stew, .idx] false s (execRebuildSweep box s) := by
  unfold Machine.execRebuildSweep
  refine .whileUp ?_
  refine .onRebuild Effect.refl (fun m => ?_)
  refine Effect.rebuildColl Effect.refl (fun c d => ?_)
  refine Effect.zChecked Effect.refl ?_
  exact Effect.refl.acceptRebuild

theorem execRebuildSplit_reaches {box} : Reaches [.stew, .idx] false s (execRebuildSplit box s) := by
  unfold Machine.execRebuildSplit
  refine .whileUp ?_
  refine .onRebuild Effect.refl (fun m => ?_)
  refine Effect.rebuildColl Effect.refl (fun c d => ?_)
  refine Effect.zChecked Effect.refl ?_
  exact Effect.refl.acceptRebuild

theorem execRebuildMerge_reaches {box} : Reaches [.stew, .idx] false s (execRebuildMerge box s) := by
  unfold Machine.execRebuildMerge
  dsimp only
  refine .whileUp ?_
  refine .onRebuild Effect.refl (fun m => ?_)
  refine Effect.rebuildColl Effect.refl (fun c d => ?_)
  refine Effect.zChecked Effect.refl ?_
  exact Effect.refl.acceptRebuild

theorem execRebuildRetrain_reaches {box} : Reaches [.stew, .idx] false s (execRebuildRetrain box s) := by
  unfold Machine.execRebuildRetrain
  refine .whileUp ?_
  refine .onRebuild Effect.refl (fun m => ?_)
  refine Effect.rebuildColl Effect.refl (fun c d => ?_)
  exact Effect.refl.acceptRebuild

theorem execMeterRead_reaches {box} : Reaches [.stew, .obj] false s (execMeterRead box s) := by
  unfold Machine.execMeterRead
  dsimp only
  refine .whileUp ?_
  refine .onZalpol Effect.refl (fun m => ?_)
  exact Effect.refl.accrue.zRespond

theorem execFormat_reaches {box} : Reaches [.stew, .fls] false s (execFormat box s) := by
  unfold Machine.execFormat
  dsimp only
  refine .whileUp ?_
  refine .onZalpol Effect.refl (fun m => ?_)
  refine Effect.zChecked Effect.refl ?_
  exact Effect.ite Effect.refl.zFail (Effect.ite Effect.refl.zFail (Effect.ite Effect.refl.zFail Effect.refl.onFls.zRespond))

theorem execChannelDrain_reaches {box} : Reaches [.stew, .fls] false s (execChannelDrain box s) := by
  unfold Machine.execChannelDrain
  dsimp only
  refine .whileUp ?_
  refine .onZalpol Effect.refl (fun m => ?_)
  split
  · exact Effect.refl.zFail
  · exact Effect.ite Effect.refl.zFail (Effect.ite Effect.refl.zFail (Effect.ite Effect.refl.zFail (Effect.ite Effect.refl.zFail (Effect.ite Effect.refl.zFail Effect.refl.modChan.zRespond))))

theorem execChannelAdmit_reaches {box} : Reaches [.stew, .fls] false s (execChannelAdmit box s) := by
  unfold Machine.execChannelAdmit
  dsimp only
  refine .whileUp ?_
  refine .onZalpol Effect.refl (fun m => ?_)
  split
  · exact Effect.refl.zFail
  · exact Effect.ite Effect.refl.zFail (Effect.ite Effect.refl.zFail Effect.refl.modChan.zRespond)

theorem execChannelAdmitComplete_reaches {ch rate luns} : Reaches [.stew, .fls, .fab, .recd] false s (execChannelAdmitComplete ch rate luns s) := by
  unfold Machine.execChannelAdmitComplete
  dsimp only
  refine .whileUp ?_
  split
  · exact .next .refl
  · exact .ite (.next .refl) <| .ite (.next Effect.refl.modChan.commandDone) <| .next Effect.refl.forgetBlocks.onfi.onFls.commandDone.pumpPages

theorem execTimePost_reaches {box} : Reaches [.stew, .rel] false s (execTimePost box s) := by
  unfold Machine.execTimePost
  dsimp only
  refine .whileUp ?_
  refine .onZalpol Effect.refl (fun m => ?_)
  exact (Effect.ite Effect.refl.onStew Effect.refl.logEv).zRespond

theorem execPowerStateWake_reaches {src} : Reaches [.stew, .recd] false s (execPowerStateWake src s) :=
  .whileUp <| .ite (.next .refl) <| .ite (.next (Effect.ite Effect.refl.recordPin Effect.refl).onStew) <| .ite (.next (Effect.ite Effect.refl.recordPin Effect.refl)) <| .next (Effect.ite Effect.refl.recordPin Effect.refl).onStew

theorem execCommandRangeGrant_reaches {n} : Reaches [.hif, .eng] false s (execCommandRangeGrant n s) := by
  unfold Machine.execCommandRangeGrant
  dsimp only
  refine .whileUp ?_
  split
  · exact .next .refl
  · exact .ite (.next .refl) <| .next Effect.refl.onEng.modCmd.modQp

theorem execFunctionDStateChange_reaches {fn d3} : Reaches [.hif, .shv] false s (execFunctionDStateChange fn d3 s) :=
  .whileUp <| .ite (.next .refl) <| .next (Effect.ite Effect.refl.onHif (Effect.refl.onHif.foldl fun _ _ h => h.drainCq))

theorem execStookRootDelivery_reaches {sheaf stage} : Reaches [.hif, .shv] false s (execStookRootDelivery sheaf stage s) := by
  unfold Machine.execStookRootDelivery
  dsimp only
  refine .whileUp ?_
  split
  · exact .next .refl
  · split
    · exact .next .refl
    · exact .ite (.next .refl) <| .next Effect.refl.onShv.modCmd.finishSplit

theorem execCulmScanOp_reaches {culm} : Reaches [.hif, .stk] false s (execCulmScanOp culm s) := by
  unfold Machine.execCulmScanOp
  dsimp only
  refine .whileUp ?_
  split
  · exact .next .refl
  · exact .ite (.next Effect.refl.endOp) <| .next (Effect.ite Effect.refl.poisonOp Effect.refl).endOp

theorem execCulmAttendOp_reaches {culm} : Reaches [.hif, .stk] false s (execCulmAttendOp culm s) := by
  unfold Machine.execCulmAttendOp
  dsimp only
  refine .whileUp ?_
  split
  · exact .next .refl
  · exact .ite (.next Effect.refl.endOp) <| .ite (.next Effect.refl.endOp) <| .next (Effect.ite Effect.refl.poisonOp Effect.refl).endOp

theorem execWindowWrite_reaches {cxl addr} : Reaches [.hif, .rel] false s (execWindowWrite cxl addr s) :=
  .whileUp <| .next Effect.refl.onHif.logEv

theorem execDieLinkRetriesExhausted_reaches {link n} : Reaches [.hif, .rel] false s (execDieLinkRetriesExhausted link n s) :=
  .whileUp <| .ite (.next .refl) <| .next Effect.refl.onRel.modCmd.detect

theorem execRegisterLowHalfRead_reaches {fn off} : Reaches [.hif, .rel] false s (execRegisterLowHalfRead fn off s) := by
  unfold Machine.execRegisterLowHalfRead
  refine .whileUp <| .ite (.next .refl) <| .ite (.next Effect.refl.mbxAbort) ?_
  split
  · exact .next Effect.refl.onHif
  · exact .next Effect.refl.accessError.onHif

theorem execSqEntryFetch_reaches {qp entry} : Reaches [.hif, .recd] false s (execSqEntryFetch qp entry s) :=
  .whileUp <| .ite (.next .refl) <| .next Effect.refl.recordInput.modQp

theorem execAttention_reaches {n data} : Reaches [.hif, .recd] false s (execAttention n data s) := by
  unfold Machine.execAttention
  dsimp only
  refine .whileUp ?_
  refine .onData Effect.refl (fun c t h => ?_)
  exact Effect.ite h.ranWith h.modCmd

theorem execQueueErrorClear_reaches {reg value} : Reaches [.hif, .recd] false s (execQueueErrorClear reg value s) :=
  .whileUp <| .ite (.next .refl) <| .ite (.next Effect.refl.accessError) <| .next Effect.refl.recordReg.onHif

theorem execQueueStatusClear_reaches {fn index value} : Reaches [.hif, .recd] false s (execQueueStatusClear fn index value s) := by
  unfold Machine.execQueueStatusClear
  refine .whileUp <| .ite (.next .refl) ?_
  split
  · exact .next Effect.refl.accessError
  · exact .next Effect.refl.recordReg.modQp

theorem execRegisterWriteOther_reaches {fn off width value} : Reaches [.hif, .rel, .recd] false s (execRegisterWriteOther fn off width value s) :=
  .whileUp <| .ite (.next .refl) <| .ite (.next Effect.refl.mbxAbort) <| .ite (.next Effect.refl.recordReg.writeMsix) <| .next Effect.refl.accessError

theorem execCommitGroupClose_reaches : Reaches [.eng, .recd] false s (execCommitGroupClose s) :=
  .whileUp <| .ite (.next .refl) <| .next Effect.refl.closeGroup.onEng

theorem execVersionReclaim_reaches : Reaches [.idx, .obj] true s (execVersionReclaim s) :=
  .whileUp <| .next (((Effect.refl.foldl fun _ _ h => h.removeObject.onIdx).foldl fun _ _ h => h.settleSwap).onIdx.foldl fun _ _ h => Effect.ite (Effect.ite (Effect.ite h.removeObject h).removeObject (Effect.ite h.removeObject h)).removeObject (Effect.ite (Effect.ite h.removeObject h).removeObject (Effect.ite h.removeObject h)))

theorem execExpertStagingComplete_reaches {table handle} : Reaches [.obj, .shv] false s (execExpertStagingComplete table handle s) := by
  unfold Machine.execExpertStagingComplete
  dsimp only
  refine .whileUp <| .ite (.next .refl) ?_
  refine .next ?_
  refine Effect.modPool ?_
  split
  · exact Effect.refl.meterMove
  · exact Effect.refl

theorem execTillerSwapComplete_reaches {tile} : Reaches [.shv, .rel] false s (execTillerSwapComplete tile s) := by
  unfold Machine.execTillerSwapComplete
  refine .whileUp ?_
  split
  · exact .next .refl
  · exact .ite (.next .refl) <| .next Effect.refl.onShv.threshApplied

theorem execBatchWindowExpiry_reaches {sheaf} : Reaches [.shv, .recd] false s (execBatchWindowExpiry sheaf s) := by
  unfold Machine.execBatchWindowExpiry
  dsimp only
  refine .whileUp ?_
  split
  · exact .next .refl
  · exact .next (Effect.ite Effect.refl.closeBatch Effect.refl)

theorem execStookMergeStart_reaches {engine} : Reaches [.shv, .recd] false s (execStookMergeStart engine s) := by
  unfold Machine.execStookMergeStart
  dsimp only
  refine .whileUp <| .ite (.next .refl) ?_
  split
  · exact .next .refl
  · exact .next Effect.refl.token.onShv

theorem execCulmSubstitution_reaches {culm} : Reaches [.stk, .rel] false s (execCulmSubstitution culm s) := by
  unfold Machine.execCulmSubstitution
  dsimp only
  refine .whileUp <| .ite (.next .refl) ?_
  split
  · exact .next Effect.refl.modCulm.threshApplied
  · exact .next Effect.refl.modCulm.detect

theorem execPseudoChannelGrant_reaches {culm kinds bytes} : Reaches [.stk, .recd] false s (execPseudoChannelGrant culm kinds bytes s) :=
  .whileUp <| .ite (.next .refl) <| .next Effect.refl.modCulm.token

theorem execBlockCalibration_reaches {blk counts} : Reaches [.fls, .fab, .recd] false s (execBlockCalibration blk counts s) :=
  .whileUp <| .ite (.next .refl) <| .next Effect.refl.onFls.onfi.chanIssue.modBlk

theorem execLunTemperatureRead_reaches {ch lun temp} : Reaches [.fls, .recd] false s (execLunTemperatureRead ch lun temp s) := by
  unfold Machine.execLunTemperatureRead
  refine .whileUp ?_
  split
  · exact .next .refl
  · exact .next Effect.refl.recordInput.onfi.modLun

theorem execPackSlotGrant_reaches : Reaches [.fls, .recd] false s (execPackSlotGrant s) := by
  unfold Machine.execPackSlotGrant
  refine .whileUp ?_
  split
  · exact .next Effect.refl.modPack.onFls.token
  · exact .next .refl

theorem execBucketRefill_reaches : Reaches [.fab, .rel, .recd] false s (execBucketRefill s) :=
  .whileUp <| .next Effect.refl.onFab.t4Pump.pumpAll

theorem execAwnDirectoryRead_reaches {id} : Reaches [.hif, .shv, .fab, .rel, .recd] false s (execAwnDirectoryRead id s) := by
  unfold Machine.execAwnDirectoryRead
  dsimp only
  refine .whileUp ?_
  split
  · exact .next .refl
  · exact .ite (.next .refl) <| .next (Effect.ite Effect.refl.token.onFab.onShv.tagReads Effect.refl.token.onFab.onShv.tagReads.askPool)

theorem execReplayWindowClose_reaches {seq} : Reaches [.rel, .recd] false s (execReplayWindowClose seq s) := by
  unfold Machine.execReplayWindowClose
  refine .whileUp <| .ite (.next .refl) ?_
  split
  · exact .next .refl
  · refine .ite (.next .refl) <| .ite (.next Effect.refl.stopReplay) ?_
    split
    · exact .next Effect.refl.stopReplay
    · exact .next Effect.refl.onRec

theorem execReplayStall_reaches : Reaches [.rel, .recd] false s (execReplayStall s) := by
  unfold Machine.execReplayStall
  refine .whileUp ?_
  split
  · exact .next .refl
  · exact .ite (.next .refl) <| .next Effect.refl.stopReplay

theorem execMbxResponsePost_reaches {box} : Reaches [.aon, .stew, .hif] false s (execMbxResponsePost box s) := by
  unfold Machine.execMbxResponsePost
  dsimp only
  refine .whileUp ?_
  split
  · exact .next .refl
  · exact .ite (.next .refl) <| .next Effect.refl.modMbx.mailMsi

theorem execLogRingFailure_reaches {r38 r62} : Reaches [.aon, .stew, .rel] false s (execLogRingFailure r38 r62 s) :=
  .whileUp <| .next Effect.refl.ringsFail

theorem execPowerStateExitComplete_reaches : Reaches [.aon, .stew, .rel] false s (execPowerStateExitComplete s) :=
  .whileUp <| .ite (.next .refl) <| .next Effect.refl.onAon.onRel.onStew.answerPower

theorem execLinkTraining_reaches {rate width flit} : Reaches [.aon, .hif, .recd] false s (execLinkTraining rate width flit s) := by
  unfold Machine.execLinkTraining
  refine .whileUp ?_
  split
  · exact .ite (.next .refl) <| .next Effect.refl.recordPin.onAon.onHif
  · exact .next .refl

theorem execHoldUpEnds_reaches : Reaches [.aon, .obj, .fls] false s (execHoldUpEnds s) := by
  unfold Machine.execHoldUpEnds
  dsimp only
  split
  · exact .next .refl
  · exact .ite (.next .refl) <| .next (Effect.ite Effect.refl Effect.refl.flushWritten).onAon

theorem execIslandReset_reaches {island} : Reaches [.aon, .fab, .rel] false s (execIslandReset island s) :=
  .whileUp <| .ite (.next Effect.refl.onAon.resetIsland) <| .ite (.next Effect.refl.resetPort) <| .next .refl

theorem execLogRecordWrite_reaches : Reaches [.aon, .rel, .recd] false s (execLogRecordWrite s) := by
  unfold Machine.execLogRecordWrite
  dsimp only
  split
  · exact .next .refl
  · exact .ite (.next Effect.refl.onRel.onAon) <| .ite (.next .refl) <| .next Effect.refl.token.onRel

theorem execThermalSample_reaches {temps rails} : Reaches [.aon, .rel, .recd] false s (execThermalSample temps rails s) :=
  .whileUp <| .ite (.next .refl) <| .next (Effect.refl.foldl fun _ _ h => h.recordInput).onAon.onAon.onRel

theorem execWindowUnmap_reaches {box} : Reaches [.stew, .hif, .obj] false s (execWindowUnmap box s) := by
  unfold Machine.execWindowUnmap
  refine .whileUp <| .ite (.next .refl) ?_
  refine .onZalpol Effect.refl (fun m => ?_)
  refine Effect.zChecked Effect.refl ?_
  exact (Effect.refl.foldl fun _ _ h => h.unmapUnit).zRespond

theorem execCompletionDrain_reaches {qp} : Reaches [.stew, .hif, .shv] false s (execCompletionDrain qp s) :=
  .whileUp <| .next Effect.refl.drainCq.checkDelete

theorem execQueueReset_reaches {box} : Reaches [.stew, .hif, .shv] false s (execQueueReset box s) := by
  unfold Machine.execQueueReset
  dsimp only
  refine .whileUp ?_
  refine .onZalpol Effect.refl (fun m => ?_)
  refine Effect.zChecked Effect.refl ?_
  refine .ite Effect.refl.zFail ?_
  split
  · exact Effect.refl.zFail
  · exact Effect.refl.zRespond
  · exact Effect.refl.clearQueue.zRespond

theorem execSheafStats_reaches {box} : Reaches [.stew, .hif, .shv] false s (execSheafStats box s) := by
  unfold Machine.execSheafStats
  dsimp only
  refine .whileUp ?_
  refine .onZalpol Effect.refl (fun m => ?_)
  split
  · exact Effect.refl.zFail
  · refine .ite Effect.refl.zFail ?_
    refine Effect.zChecked Effect.refl ?_
    exact Effect.ite Effect.refl.zRespond (Effect.ite Effect.refl.hostWrite.onShv Effect.refl.hostWrite).zRespond

theorem execConvertStats_reaches {box} : Reaches [.stew, .hif, .shv] false s (execConvertStats box s) := by
  unfold Machine.execConvertStats
  dsimp only
  refine .whileUp ?_
  refine .onZalpol Effect.refl (fun m => ?_)
  refine Effect.zChecked Effect.refl ?_
  split
  · exact Effect.refl.zFail
  · exact Effect.ite Effect.refl.zRespond (Effect.ite Effect.refl.hostWrite.onShv Effect.refl.hostWrite).zRespond

theorem execSignatureRead_reaches {box} : Reaches [.stew, .hif, .rel] false s (execSignatureRead box s) := by
  unfold Machine.execSignatureRead
  dsimp only
  refine .whileUp ?_
  refine .onZalpol Effect.refl (fun m => ?_)
  exact Effect.refl.hostWrite.onRel.zRespond

theorem execSqTailDoorbell_reaches {fn index value} : Reaches [.stew, .hif, .recd] false s (execSqTailDoorbell fn index value s) := by
  unfold Machine.execSqTailDoorbell
  dsimp only
  refine .whileUp ?_
  refine .doorbell Effect.refl (fun q p => ?_)
  exact Effect.ite Effect.refl.recordInput.wakeEvent.modQp Effect.refl.recordInput.wakeEvent.ignoreDoorbell

theorem execCqHeadDoorbell_reaches {fn index value} : Reaches [.stew, .hif, .recd] false s (execCqHeadDoorbell fn index value s) := by
  unfold Machine.execCqHeadDoorbell
  dsimp only
  refine .whileUp ?_
  refine .doorbell Effect.refl (fun q p => ?_)
  exact Effect.ite Effect.refl.recordInput.wakeEvent.modQp Effect.refl.recordInput.wakeEvent.ignoreDoorbell

theorem execTableWrite_reaches {box data} : Reaches [.stew, .eng, .recd] false s (execTableWrite box data s) := by
  unfold Machine.execTableWrite
  dsimp only
  refine .whileUp ?_
  refine .onZalpol Effect.refl (fun m => ?_)
  refine Effect.zChecked Effect.refl ?_
  exact Effect.refl.zData.zHusk

theorem execObjectQuery_reaches {box} : Reaches [.stew, .obj, .rel] false s (execObjectQuery box s) := by
  unfold Machine.execObjectQuery
  refine .whileUp ?_
  refine .onZalpol Effect.refl (fun m => ?_)
  refine Effect.zHandle Effect.refl (fun o => ?_)
  exact Effect.refl.zRespond

theorem execObjectTransfer_reaches {box} : Reaches [.stew, .obj, .rel] false s (execObjectTransfer box s) := by
  unfold Machine.execObjectTransfer
  dsimp only
  refine .whileUp ?_
  refine .onZalpol Effect.refl (fun m => ?_)
  refine Effect.zHandle Effect.refl (fun o => ?_)
  refine Effect.zChecked Effect.refl ?_
  exact Effect.ite Effect.refl.zFail Effect.refl.accrue.onObj.modObj.headerChange.zRespond

theorem execChannelDrainComplete_reaches {ch} : Reaches [.stew, .fls, .rel] false s (execChannelDrainComplete ch s) := by
  unfold Machine.execChannelDrainComplete
  dsimp only
  refine .whileUp ?_
  split
  · exact .next .refl
  · exact .ite (.next .refl) <| .next Effect.refl.modChan.passReserve.onFls.logEv.mediaEvent.commandDone

theorem execKeyLoad_reaches : Reaches [.stew, .fls, .rel] false s (execKeyLoad s) := by
  unfold Machine.execKeyLoad
  dsimp only
  refine .whileUp ?_
  split
  · exact .next .refl
  · exact .ite (.next Effect.refl.kDone) <| .next Effect.refl.onFls.logEv.kDone

theorem execKeyDestroy_reaches : Reaches [.stew, .fls, .rel] false s (execKeyDestroy s) := by
  unfold Machine.execKeyDestroy
  dsimp only
  refine .whileUp ?_
  split
  · exact .next .refl
  · exact .ite (.next Effect.refl.kDone) <| .next Effect.refl.onFls.logEv.kDone

theorem execStewardRestartComplete_reaches : Reaches [.stew, .fls, .rel] false s (execStewardRestartComplete s) := by
  unfold Machine.execStewardRestartComplete
  dsimp only
  refine .whileUp <| .ite (.next .refl) ?_
  split
  · exact .next Effect.refl.onStew
  · refine .next ?_
    refine Effect.raiseEvent ?_
    split
    · exact Effect.refl.onStew.onStew.onFls.logEv.onStew
    · exact Effect.refl.onStew.onStew.onFls

theorem execBlockErase_reaches {blk} : Reaches [.stew, .fls, .fab, .rel, .recd] false s (execBlockErase blk s) :=
  .whileUp <| .ite (.next .refl) <| .next Effect.refl.modBlk.endurAdd.onFls.forgetBlocks.onfi.lifeCheck.pumpPages

theorem execMediaTableLoad_reaches {box image} : Reaches [.stew, .fls, .recd] false s (execMediaTableLoad box image s) := by
  unfold Machine.execMediaTableLoad
  dsimp only
  refine .whileUp ?_
  refine .onZalpol Effect.refl (fun m => ?_)
  exact Effect.ite Effect.refl.zFail (Effect.ite Effect.refl.zData.zFail Effect.refl.zData.onFls.zRespond)

theorem execMbxRequestTake_reaches : Reaches [.stew, .fab, .recd] false s (execMbxRequestTake s) := by
  unfold Machine.execMbxRequestTake
  dsimp only
  refine .whileUp <| .ite (.next .refl) ?_
  split
  · exact .next .refl
  · refine .ite (.next Effect.refl.takeInto) ?_
    split
    · exact .next Effect.refl.onFab.token.bucketCharge.onStew.takeInto
    · exact .ite (.next Effect.refl.onFab.token.bucketCharge.onStew.takeInto) <| .next Effect.refl.onFab.token.bucketCharge.onStew.takeInto

theorem execAgingPromotion_reaches {cls id} : Reaches [.stew, .fab, .recd] false s (execAgingPromotion cls id s) := by
  unfold Machine.execAgingPromotion
  dsimp only
  refine .whileUp ?_
  split
  · exact .next .refl
  · exact .ite (.next .refl) <| .next (Effect.ite Effect.refl.timerToken.onFab.wakeEvent.pump Effect.refl.timerToken.onFab.wakeEvent)

theorem execChunkSpill_reaches : Reaches [.stew, .rel, .recd] false s (execChunkSpill s) := by
  unfold Machine.execChunkSpill
  refine .whileUp ?_
  split
  · exact .next .refl
  · exact .ite (.next Effect.refl.endRecording) <| .next Effect.refl.onRec

theorem execRecordingEnd_reaches {reason} : Reaches [.stew, .rel, .recd] false s (execRecordingEnd reason s) :=
  .whileUp <| .ite (.next .refl) <| .ite (.next (Effect.ite Effect.refl.endRecording Effect.refl)) <| .ite (.next (Effect.ite Effect.refl.endRecording Effect.refl)) <| .ite (.next Effect.refl.endRecording.detect) <| .next .refl

theorem execExpertCall_reaches {n data acts} : Reaches [.hif, .idx, .recd] false s (execExpertCall n data acts s) := by
  unfold Machine.execExpertCall
  dsimp only
  refine .whileUp ?_
  refine .onData Effect.refl (fun c t h => ?_)
  exact h.countRows.modCmd

theorem execGate_reaches {n data} : Reaches [.hif, .idx, .recd] false s (execGate n data s) := by
  unfold Machine.execGate
  dsimp only
  refine .whileUp ?_
  refine .onData Effect.refl (fun c t h => ?_)
  exact h.countRows.modCmd

theorem execMemoryLayer_reaches {n data} : Reaches [.hif, .idx, .recd] false s (execMemoryLayer n data s) := by
  unfold Machine.execMemoryLayer
  dsimp only
  refine .whileUp ?_
  refine .onData Effect.refl (fun c t h => ?_)
  exact h.countNans.countDefaults.modCmd

theorem execAwnDataLand_reaches {id poisoned} : Reaches [.hif, .obj, .shv] false s (execAwnDataLand id poisoned s) := by
  unfold Machine.execAwnDataLand
  dsimp only
  refine .whileUp ?_
  split
  · exact .next .refl
  · refine .ite (.next .refl) ?_
    refine .next ?_
    refine Effect.foldl ?_ fun t a h => ?_
    · split
      · exact Effect.refl.meterMove
      · exact Effect.refl
    · exact h.landOne

theorem execExpertReach_reaches {sheaf stage lane} : Reaches [.hif, .shv, .recd] false s (execExpertReach sheaf stage lane s) := by
  unfold Machine.execExpertReach
  dsimp only
  refine .whileUp ?_
  split
  · exact .next .refl
  · split
    · exact .next .refl
    · exact .ite (.next .refl) <| .ite (.next (Effect.ite (Effect.ite Effect.refl.token Effect.refl).unpinExpert.consumeKey.modStage Effect.refl.modStage)) <| .ite (.next (Effect.ite Effect.refl.token Effect.refl).takeFallback) <| .next Effect.refl.modStage

theorem execExpertDeadlineExpiry_reaches {sheaf stage lane} : Reaches [.hif, .shv, .recd] false s (execExpertDeadlineExpiry sheaf stage lane s) := by
  unfold Machine.execExpertDeadlineExpiry
  dsimp only
  refine .whileUp ?_
  split
  · exact .ite (.next Effect.refl.token.takeFallback) <| .next .refl
  · exact .next .refl

theorem execSettling_reaches {list pos} : Reaches [.idx, .fab, .recd] false s (execSettling list pos s) := by
  unfold Machine.execSettling
  dsimp only
  refine .whileUp ?_
  split
  · exact .next .refl
  · split
    · exact .next .refl
    · exact .ite (.next Effect.refl.backToken.streamPay.putList) <| .next .refl

theorem execT1PatrolRead_reaches {culm idx blkno errs} : Reaches [.obj, .stk, .rel] false s (execT1PatrolRead culm idx blkno errs s) := by
  unfold Machine.execT1PatrolRead
  dsimp only
  refine .whileUp <| .ite (.next .refl) <| .ite (.next Effect.refl.onStk) <| .ite (.next Effect.refl.onStk.corrected) ?_
  split
  · exact .next Effect.refl.onStk
  · exact .ite (.next Effect.refl.onStk) <| .next Effect.refl.onStk.modObj.detect

theorem execPackBlockDecode_reaches {req} : Reaches [.obj, .fls, .rel] false s (execPackBlockDecode req s) := by
  unfold Machine.execPackBlockDecode
  dsimp only
  refine .whileUp ?_
  split
  · exact .next Effect.refl.grantPrivileged
  · refine .ite (.next Effect.refl.grantPrivileged) <| .ite (.next Effect.refl.grantPrivileged.poisonWhole.packFault.endPack.grantPrivileged) ?_
    refine .next ?_
    refine .ite ?_ ?_
    · refine Effect.endExpand ?_
      split
      · exact Effect.refl.grantPrivileged.modPack
      · exact Effect.refl.grantPrivileged.modPack.packFault
      · exact Effect.refl.grantPrivileged.modPack.packFault.onFls.logEv
    · split
      · exact Effect.refl.grantPrivileged.modPack
      · exact Effect.refl.grantPrivileged.modPack.packFault
      · exact Effect.refl.grantPrivileged.modPack.packFault.onFls.logEv

theorem execExpertStagingGrant_reaches {table} : Reaches [.shv, .fab, .recd] false s (execExpertStagingGrant table s) := by
  unfold Machine.execExpertStagingGrant
  dsimp only
  refine .whileUp ?_
  split
  · exact .next .refl
  · exact .ite (.next .refl) <| .next Effect.refl.modPool.token.onShv.bucketCharge

theorem execFold_reaches {srcs blk} : Reaches [.fls, .fab, .recd] false s (execFold srcs blk s) :=
  .whileUp <| .ite (.next .refl) <| .next (Effect.refl.background.openBlk.foldl fun _ _ h => h.emptied)

theorem execGarbageCollection_reaches {slc blk} : Reaches [.fls, .fab, .recd] false s (execGarbageCollection slc blk s) := by
  unfold Machine.execGarbageCollection
  dsimp only
  refine .whileUp ?_
  split
  · exact .next .refl
  · refine .ite (.next .refl) ?_
    split
    · exact .next .refl
    · refine .next ?_
      rename_i e
      exact (Effect.refl.takeBlock e).background.emptied

theorem execWearLevelling_reaches {slc} : Reaches [.fls, .fab, .recd] false s (execWearLevelling slc s) := by
  unfold Machine.execWearLevelling
  dsimp only
  refine .whileUp ?_
  split
  · exact .ite (.next .refl) <| .next Effect.refl.background.openBlk.emptied
  · exact .next .refl

theorem execUnitMoveProgrammed_reaches {unit mv} : Reaches [.fls, .fab, .recd] false s (execUnitMoveProgrammed unit mv s) := by
  unfold Machine.execUnitMoveProgrammed
  dsimp only
  refine .whileUp <| .ite (.next .refl) ?_
  split
  · exact .next (Effect.ite Effect.refl.backToken.bucketCharge Effect.refl).modBlk.onfi.endurAdd.chanIssue.chanIssue
  · exact .ite (.next (Effect.ite Effect.refl.backToken.bucketCharge Effect.refl).modBlk.onfi.endurAdd.chanIssue.chanIssue) <| .next (Effect.ite Effect.refl.backToken.bucketCharge Effect.refl).modBlk.onfi.endurAdd.chanIssue.chanIssue.onFls.programUnit.mapChange.emptied

theorem execHello_reaches {node msg} : Reaches [.fab, .rel, .recd] false s (execHello node msg s) := by
  unfold Machine.execHello
  dsimp only
  refine .whileUp ?_
  split
  · exact .next .refl
  · exact .next (Effect.ite ((Effect.ite (Effect.ite Effect.refl.rxDone.dropResv.modPeer Effect.refl.rxDone.dropResv.modPeer.onFab.logEv) (Effect.ite Effect.refl.rxDone.dropResv.modPeer Effect.refl.rxDone.dropResv.modPeer.onFab.logEv).sendMsg).foldl fun _ _ h => h.grantMore.pump).telemPump ((Effect.ite (Effect.ite Effect.refl.rxDone.dropResv.modPeer Effect.refl.rxDone.dropResv.modPeer.onFab.logEv) (Effect.ite Effect.refl.rxDone.dropResv.modPeer Effect.refl.rxDone.dropResv.modPeer.onFab.logEv).sendMsg).foldl fun _ _ h => h.grantMore.pump))

theorem execTelemetry_reaches {node msg} : Reaches [.fab, .rel, .recd] false s (execTelemetry node msg s) := by
  unfold Machine.execTelemetry
  refine .whileUp ?_
  split
  · exact .next .refl
  · exact .next Effect.refl.rxDone.answerStatus

theorem execT4Read_reaches {node msg} : Reaches [.fab, .rel, .recd] false s (execT4Read node msg s) := by
  unfold Machine.execT4Read
  refine .whileUp ?_
  refine .refuseT4 Effect.refl

theorem execT4Write_reaches {node msg} : Reaches [.fab, .rel, .recd] false s (execT4Write node msg s) := by
  unfold Machine.execT4Write
  refine .whileUp ?_
  refine .refuseT4 Effect.refl

theorem execUnknownMessageType_reaches {node msg} : Reaches [.fab, .rel, .recd] false s (execUnknownMessageType node msg s) := by
  unfold Machine.execUnknownMessageType
  refine .whileUp ?_
  split
  · exact .next .refl
  · refine .ite (.next .refl) ?_
    split
    · exact .next .refl
    · exact .ite (.next Effect.refl.rxDone) <| .next Effect.refl.rxDone.answerStatus

theorem execDieLinkDown_reaches {link} : Reaches [.aon, .stew, .hif, .rel] false s (execDieLinkDown link s) :=
  .whileUp <| .ite (.next .refl) <| .next Effect.refl.fatal.onHif.onStew.raiseViral.onRel

theorem execQueueEngineInternalTimeout_reaches : Reaches [.aon, .stew, .hif, .rel] false s (execQueueEngineInternalTimeout s) :=
  .whileUp <| .next Effect.refl.fatal.raiseViral

theorem execLockstepDisagreement_reaches : Reaches [.aon, .stew, .hif, .rel] false s (execLockstepDisagreement s) :=
  .whileUp <| .next Effect.refl.latchGasp.detect.raiseViral

theorem execWarmReset_reaches : Reaches [.aon, .stew, .rel, .recd] false s (execWarmReset s) :=
  .next Effect.refl.startWarm

theorem execSmbusWarmReset_reaches {word pec} : Reaches [.aon, .stew, .rel, .recd] false s (execSmbusWarmReset word pec s) :=
  .next (Effect.ite Effect.refl.startWarm Effect.refl)

theorem execJtagWarmReset_reaches : Reaches [.aon, .stew, .rel, .recd] false s (execJtagWarmReset s) :=
  .next (Effect.ite Effect.refl.jtagSelect.startWarm Effect.refl)

theorem execHoldupOkChange_reaches {up} : Reaches [.aon, .obj, .fls, .rel] false s (execHoldupOkChange up s) :=
  .ite (.next .refl) <| .next (Effect.ite Effect.refl.onAon.logEv Effect.refl.onAon.logEv.onObj.saveAll)

theorem execBinderFree_reaches {box} : Reaches [.stew, .hif, .eng, .shv] false s (execBinderFree box s) := by
  unfold Machine.execBinderFree
  refine .whileUp ?_
  refine .onZalpol Effect.refl (fun m => ?_)
  refine Effect.zBinder Effect.refl (fun i x => ?_)
  exact Effect.refl.onEng.endWaits.zRespond

theorem execWaitGeTimeout_reaches {qp} : Reaches [.stew, .hif, .shv, .recd] false s (execWaitGeTimeout qp s) := by
  unfold Machine.execWaitGeTimeout
  dsimp only
  refine .whileUp ?_
  split
  · exact .next .refl
  · exact .ite (.next .refl) <| .next Effect.refl.timerToken.modQp.postCompl.checkDelete

theorem execMbxWindowWrite_reaches {fn box off bytes} : Reaches [.stew, .hif, .rel, .recd] false s (execMbxWindowWrite fn box off bytes s) :=
  .ite (.next .refl) <| .ite (.next Effect.refl.mbxAbort) <| .ite (.next Effect.refl.accessError) <| .ite (.next .refl) <| .ite (.next Effect.refl.mbxDiscard) <| .next Effect.refl.recordReg.modMbx

theorem execMbxDoorbellRing_reaches {fn box value} : Reaches [.stew, .hif, .rel, .recd] false s (execMbxDoorbellRing fn box value s) :=
  .ite (.next .refl) <| .ite (.next Effect.refl.mbxAbort) <| .ite (.next Effect.refl.accessError) <| .ite (.next .refl) <| .ite (.next Effect.refl.mbxDiscard) <| .next Effect.refl.recordInput.stewardInt.modMbx.wakeEvent

theorem execMbxStatusClear_reaches {fn box value} : Reaches [.stew, .hif, .rel, .recd] false s (execMbxStatusClear fn box value s) :=
  .ite (.next .refl) <| .ite (.next Effect.refl.mbxAbort) <| .ite (.next Effect.refl.accessError) <| .ite (.next .refl) <| .next Effect.refl.recordReg.modMbx

theorem execMbxReleaseRead_reaches {fn box} : Reaches [.stew, .hif, .rel, .recd] false s (execMbxReleaseRead fn box s) :=
  .ite (.next .refl) <| .ite (.next Effect.refl.mbxAbort) <| .ite (.next Effect.refl.onHif) <| .ite (.next .refl) <| .ite (.next Effect.refl.recordReg.onHif) <| .next Effect.refl.recordReg.onHif.modMbx

theorem execGenApply_reaches {box image} : Reaches [.stew, .eng, .obj, .recd] false s (execGenApply box image s) := by
  unfold Machine.execGenApply
  dsimp only
  refine .whileUp <| .ite (.next .refl) ?_
  refine .onZalpol Effect.refl (fun m => ?_)
  refine .ite Effect.refl.genFail ?_
  refine .ite Effect.refl.zData.genFail ?_
  refine .ite Effect.refl.zData.genFail ?_
  refine .ite Effect.refl.zData.zRespond ?_
  refine .ite Effect.refl.zData.genFail ?_
  split
  · exact Effect.refl.zData.genFail
  · split
    · exact Effect.refl.zData.genFail
    · rename_i e
      exact (Effect.refl.zData.generationBad e).genHusk

theorem execRollback_reaches {box} : Reaches [.stew, .eng, .obj, .recd] false s (execRollback box s) := by
  unfold Machine.execRollback
  dsimp only
  refine .whileUp <| .ite (.next .refl) ?_
  refine .onZalpol Effect.refl (fun m => ?_)
  refine .ite ?_ (Effect.ite Effect.refl.zRespond Effect.refl.zFail)
  split
  · exact Effect.refl.zFail
  · split
    · exact Effect.refl.zFail
    · split
      · exact Effect.refl.zFail
      · rename_i e
        exact (Effect.refl.generationBad e).genHusk

theorem execZalpolHusk_reaches {box desc payload} : Reaches [.stew, .eng, .obj, .recd] true s (execZalpolHusk box desc payload s) := by
  unfold Machine.execZalpolHusk
  dsimp only
  refine .whileUp ?_
  refine .onZalpol Effect.refl (fun m => ?_)
  refine .ite Effect.refl.zData.zFail ?_
  split
  · exact Effect.refl.zData.zFail
  · exact Effect.refl.zData.zFail
  · split
    · exact Effect.refl.zData.zFail
    · split
      · exact Effect.refl.zData.zFail
      · rename_i e
        exact (Effect.refl.zData.stagePayload e).zHusk

theorem execRebuildRehash_reaches {box} : Reaches [.stew, .idx, .obj, .rel] false s (execRebuildRehash box s) := by
  unfold Machine.execRebuildRehash
  dsimp only
  refine .whileUp ?_
  refine .onRebuild Effect.refl (fun m => ?_)
  refine Effect.zHandle Effect.refl (fun o => ?_)
  refine Effect.zChecked Effect.refl ?_
  exact Effect.refl.acceptRebuild

theorem execChannelLoss_reaches {ch} : Reaches [.stew, .obj, .fls, .rel] false s (execChannelLoss ch s) :=
  .whileUp <| .next (Effect.ite Effect.refl Effect.refl.loseChannel)

theorem execThreshRun_reaches {box} : Reaches [.stew, .shv, .stk, .rel] false s (execThreshRun box s) := by
  unfold Machine.execThreshRun
  dsimp only
  refine .whileUp ?_
  refine .onZalpol Effect.refl (fun m => ?_)
  refine Effect.zChecked Effect.refl ?_
  exact Effect.ite Effect.refl.zFail Effect.refl.onRel.startRuns.zRespond

theorem execThreshIterationEnd_reaches {run pattern iteration expected observed} : Reaches [.stew, .shv, .stk, .rel] false s (execThreshIterationEnd run pattern iteration expected observed s) := by
  unfold Machine.execThreshIterationEnd
  dsimp only
  refine .whileUp ?_
  split
  · exact .next .refl
  · exact .ite (.next Effect.refl.modRun) <| .next Effect.refl.modRun.modRun.retireTested.startRuns

theorem execThreshDurationEnd_reaches {run} : Reaches [.stew, .shv, .stk, .rel] false s (execThreshDurationEnd run s) := by
  unfold Machine.execThreshDurationEnd
  refine .whileUp ?_
  split
  · exact .next .refl
  · exact .ite (.next .refl) <| .ite (.next Effect.refl.modRun.bringBack) <| .next Effect.refl.modRun.commandDone.startRuns

theorem execGleanerAgingPromotion_reaches {blk} : Reaches [.stew, .fls, .fab, .recd] false s (execGleanerAgingPromotion blk s) :=
  .whileUp <| .ite (.next .refl) <| .next Effect.refl.timerToken.onFls.onFab.modBlk.wakeEvent

theorem execEraseFailure_reaches {blk} : Reaches [.stew, .fls, .rel, .recd] false s (execEraseFailure blk s) :=
  .whileUp <| .ite (.next .refl) <| .next Effect.refl.recordStatus.retireBlk.lunCheck

theorem execLunBusyTimeout_reaches {ch lun} : Reaches [.stew, .fls, .rel, .recd] false s (execLunBusyTimeout ch lun s) := by
  unfold Machine.execLunBusyTimeout
  dsimp only
  refine .whileUp ?_
  split
  · exact .next .refl
  · exact .ite (.next .refl) <| .next (Effect.ite Effect.refl.recordStatus.modLun.retireLun Effect.refl.recordStatus.modLun)

theorem execJoin_reaches {node msg} : Reaches [.stew, .fab, .rel, .recd] false s (execJoin node msg s) := by
  unfold Machine.execJoin
  dsimp only
  refine .whileUp <| .ite (.next .refl) ?_
  refine .onControl Effect.refl (fun m t h => ?_)
  split
  · exact h.answerStatus
  · exact Effect.ite h.onStew.answerStatus (Effect.ite h.answerStatus h.answerStatus)

theorem execLeave_reaches {node msg} : Reaches [.stew, .fab, .rel, .recd] false s (execLeave node msg s) := by
  unfold Machine.execLeave
  refine .whileUp <| .ite (.next .refl) ?_
  split
  · exact .next .refl
  · refine .ite (.next Effect.refl.rxDone) ?_
    split
    · exact .next Effect.refl.rxDone.answerStatus
    · exact .ite (.next Effect.refl.rxDone.answerStatus) <| .ite (.next Effect.refl.onStew) <| .next Effect.refl.rxDone.onStew.answerStatus

theorem execCulmAddOp_reaches {culm} : Reaches [.hif, .obj, .shv, .stk] true s (execCulmAddOp culm s) := by
  unfold Machine.execCulmAddOp
  refine .whileUp ?_
  refine .runElementwise Effect.refl

theorem execCulmMulOp_reaches {culm} : Reaches [.hif, .obj, .shv, .stk] true s (execCulmMulOp culm s) := by
  unfold Machine.execCulmMulOp
  refine .whileUp ?_
  refine .runElementwise Effect.refl

theorem execCulmActOp_reaches {culm} : Reaches [.hif, .obj, .shv, .stk] true s (execCulmActOp culm s) := by
  unfold Machine.execCulmActOp
  refine .whileUp ?_
  refine .runElementwise Effect.refl

theorem execCulmConvertOp_reaches {culm} : Reaches [.hif, .obj, .shv, .stk] true s (execCulmConvertOp culm s) := by
  unfold Machine.execCulmConvertOp
  refine .whileUp ?_
  refine .runElementwise Effect.refl

theorem execFanoutTimeout_reaches {n} : Reaches [.hif, .shv, .fab, .recd] false s (execFanoutTimeout n s) := by
  unfold Machine.execFanoutTimeout
  dsimp only
  refine .whileUp ?_
  split
  · exact .next .refl
  · split
    · exact .next .refl
    · exact .ite (.next .refl) <| .next (Effect.refl.timerToken.onFab.foldl fun _ _ h => h.dropResv).modCmd.closeFan

theorem execBarrier_reaches {node msg} : Reaches [.eng, .fab, .rel, .recd] false s (execBarrier node msg s) := by
  unfold Machine.execBarrier
  dsimp only
  refine .whileUp ?_
  refine .onControl Effect.refl (fun m t h => ?_)
  exact h.onEng.sendMsg

theorem execBarrierMap_reaches {node msg} : Reaches [.eng, .fab, .rel, .recd] false s (execBarrierMap node msg s) := by
  unfold Machine.execBarrierMap
  dsimp only
  refine .whileUp ?_
  refine .onControl Effect.refl (fun m t h => ?_)
  exact Effect.ite h.answerStatus (Effect.ite h.answerStatus h.onEng.answerStatus)

theorem execMeterInterval_reaches : Reaches [.obj, .fab, .rel, .recd] false s (execMeterInterval s) :=
  .whileUp <| .ite (.next .refl) <| .next (Effect.refl.accrue.onFab.foldl fun _ _ h => Effect.ite h h.onObj.queueTelem).telemPump

theorem execKnownAnswerCheck_reaches {bad} : Reaches [.aon, .stew, .shv, .stk, .rel] false s (execKnownAnswerCheck bad s) :=
  .whileUp <| .ite (.next .refl) <| .next (Effect.refl.foldl fun _ _ h => h.knownBad).onStew

theorem execElementwiseAdd_reaches {n} : Reaches [.stew, .hif, .eng, .obj, .shv] false s (execElementwiseAdd n s) := by
  unfold Machine.execElementwiseAdd
  refine .whileUp ?_
  refine .doElementwise Effect.refl

theorem execElementwiseMul_reaches {n} : Reaches [.stew, .hif, .eng, .obj, .shv] false s (execElementwiseMul n s) := by
  unfold Machine.execElementwiseMul
  refine .whileUp ?_
  refine .doElementwise Effect.refl

theorem execElementwiseAct_reaches {n} : Reaches [.stew, .hif, .eng, .obj, .shv] false s (execElementwiseAct n s) := by
  unfold Machine.execElementwiseAct
  refine .whileUp ?_
  refine .doElementwise Effect.refl

theorem execElementwiseConvert_reaches {n} : Reaches [.stew, .hif, .eng, .obj, .shv] false s (execElementwiseConvert n s) := by
  unfold Machine.execElementwiseConvert
  refine .whileUp ?_
  refine .doElementwise Effect.refl

theorem execHostAccessError_reaches {src} : Reaches [.stew, .hif, .eng, .obj, .shv] false s (execHostAccessError src s) := by
  unfold Machine.execHostAccessError
  dsimp only
  refine .whileUp ?_
  split
  · exact .next Effect.refl.entryUnread
  · split
    · exact .next .refl
    · exact .ite (.next .refl) <| .next (Effect.ite Effect.refl.modQp.queueError Effect.refl).failCmd
  · exact .next (Effect.ite Effect.refl.zRespond Effect.refl)

theorem execRebuildShadowComplete_reaches {id} : Reaches [.stew, .eng, .idx, .obj, .fab, .recd] true s (execRebuildShadowComplete id s) := by
  unfold Machine.execRebuildShadowComplete
  refine .whileUp ?_
  split
  · exact .next .refl
  · refine .ite (.next .refl) <| .ite (.ite (.next Effect.refl.endRebuild) <| .next (Effect.ite Effect.refl.rehashActions.formSwap Effect.refl)) ?_
    split
    · exact .next Effect.refl.endRebuild
    · exact .ite (.next Effect.refl.endRebuild) <| .ite (.next .refl) <| .next (Effect.ite Effect.refl.swapActions.formSwap Effect.refl)

theorem execProgramFailure_reaches {blk dst} : Reaches [.stew, .fls, .fab, .rel, .recd] false s (execProgramFailure blk dst s) :=
  .whileUp <| .ite (.next .refl) <| .next (Effect.ite Effect.refl.recordStatus.openBlk Effect.refl.recordStatus).programPage.retireBlk.lunCheck

theorem execStageBatchStart_reaches {sheaf stage lane} : Reaches [.hif, .shv, .fab, .rel, .recd] false s (execStageBatchStart sheaf stage lane s) := by
  unfold Machine.execStageBatchStart
  dsimp only
  refine .whileUp ?_
  split
  · exact .next .refl
  · exact .ite (.next .refl) <| .next (Effect.ite ((Effect.ite ((Effect.ite Effect.refl.token.onShv Effect.refl).claimOutput.foldl fun _ _ h => h.modCmd) (Effect.ite Effect.refl.token.onShv Effect.refl).claimOutput).foldl fun _ _ h => h.modCmd) (Effect.ite ((Effect.ite Effect.refl.token.onShv Effect.refl).claimOutput.foldl fun _ _ h => h.modCmd) (Effect.ite Effect.refl.token.onShv Effect.refl).claimOutput)).modStage

theorem execFlashReadComplete_reaches {unit decode corrected} : Reaches [.obj, .fls, .fab, .rel, .recd] false s (execFlashReadComplete unit decode corrected s) := by
  unfold Machine.execFlashReadComplete
  refine .whileUp ?_
  split
  · exact .next .refl
  · exact .ite (.next .refl) <| .next Effect.refl.readUnit

theorem execGleanerPatrol_reaches {blk reads} : Reaches [.obj, .fls, .fab, .rel, .recd] false s (execGleanerPatrol blk reads s) :=
  .whileUp <| .ite (.next .refl) <| .next Effect.refl.background.patrol

theorem execPrioritySweep_reaches {blk reads} : Reaches [.obj, .fls, .fab, .rel, .recd] false s (execPrioritySweep blk reads s) :=
  .whileUp <| .ite (.next .refl) <| .ite (.next Effect.refl.onFls) <| .ite (.next .refl) <| .next Effect.refl.background.patrol.onFls

theorem execPowerStateReversiblePoint_reaches : Reaches [.aon, .stew, .obj, .shv, .fls, .fab, .recd] false s (execPowerStateReversiblePoint s) := by
  unfold Machine.execPowerStateReversiblePoint
  dsimp only
  refine .whileUp ?_
  split
  · exact .next .refl
  · exact .ite (.next Effect.refl.onStew) <| .ite (.next .refl) <| .ite (.next Effect.refl.entryStep.onStew) <| .next Effect.refl.entryStep.onStew.onStew.answerPower

theorem execMbxDomainDownTimeout_reaches {box} : Reaches [.stew, .hif, .eng, .idx, .obj, .shv] true s (execMbxDomainDownTimeout box s) := by
  unfold Machine.execMbxDomainDownTimeout
  refine .whileUp ?_
  split
  · exact .next .refl
  · refine .ite (.next .refl) ?_
    split
    · exact .next Effect.refl.zFail
    · exact .next (Effect.ite Effect.refl.failHusk Effect.refl)

theorem execFree_reaches {n} : Reaches [.stew, .hif, .eng, .obj, .shv, .rel] false s (execFree n s) := by
  unfold Machine.execFree
  dsimp only
  refine .whileUp ?_
  split
  · exact .next .refl
  · refine .withObject Effect.refl (fun i o => ?_)
    exact .ite (.next Effect.refl.failCmd) <| .next (Effect.refl.accrue.modObj.foldl fun _ _ h => h.failCmd).modCmd.headerChange

theorem execInsert_reaches {n data} : Reaches [.stew, .hif, .eng, .obj, .shv, .recd] false s (execInsert n data s) := by
  unfold Machine.execInsert
  refine .whileUp ?_
  refine .doInsert Effect.refl

theorem execUpsert_reaches {n data} : Reaches [.stew, .hif, .eng, .obj, .shv, .recd] false s (execUpsert n data s) := by
  unfold Machine.execUpsert
  refine .whileUp ?_
  refine .doInsert Effect.refl

theorem execDelete_reaches {n data} : Reaches [.stew, .hif, .eng, .obj, .shv, .recd] false s (execDelete n data s) := by
  unfold Machine.execDelete
  dsimp only
  refine .whileUp ?_
  split
  · exact .next .refl
  · split
    · exact .next Effect.refl.failCmd
    · exact .ite (.next Effect.refl.failCmd) <| .next Effect.refl.recordData.formUpdate

theorem execBinderAdd_reaches {n} : Reaches [.stew, .hif, .eng, .obj, .shv, .recd] false s (execBinderAdd n s) := by
  unfold Machine.execBinderAdd
  refine .whileUp ?_
  refine .onBinder Effect.refl (fun c b x t h => ?_)
  exact h.binderAdd.binderDone

theorem execBinderSet_reaches {n} : Reaches [.stew, .hif, .eng, .obj, .shv, .recd] false s (execBinderSet n s) := by
  unfold Machine.execBinderSet
  refine .whileUp ?_
  refine .onBinder Effect.refl (fun c b x t h => ?_)
  exact h.onEng.checkWaits.binderDone

theorem execBinderWaitGe_reaches {n} : Reaches [.stew, .hif, .eng, .obj, .shv, .recd] false s (execBinderWaitGe n s) := by
  unfold Machine.execBinderWaitGe
  refine .whileUp ?_
  refine .onBinder Effect.refl (fun c b x t h => ?_)
  exact Effect.ite h.binderDone.modQp h.endCmd.modQp

theorem execBinderOpRead_reaches {n} : Reaches [.stew, .hif, .eng, .obj, .shv, .recd] false s (execBinderOpRead n s) := by
  unfold Machine.execBinderOpRead
  refine .whileUp ?_
  refine .onBinder Effect.refl (fun c b x t h => ?_)
  exact h.binderDone

theorem execHusk_reaches {n desc payload} : Reaches [.stew, .hif, .eng, .obj, .shv, .recd] true s (execHusk n desc payload s) := by
  unfold Machine.execHusk
  dsimp only
  refine .whileUp ?_
  split
  · exact .next .refl
  · refine .ite (.next Effect.refl.recordData.finishCmd) ?_
    split
    · exact .next Effect.refl.recordData.finishCmd
    · exact .next Effect.refl.recordData.finishCmd
    · split
      · exact .next Effect.refl.recordData.failCmd
      · split
        · exact .next Effect.refl.recordData.failCmd
        · refine .next ?_
          rename_i e
          exact (Effect.refl.recordData.stagePayload e).ranWith.formHusk

theorem execRelocation_reaches {blk dst bad} : Reaches [.stew, .obj, .fls, .fab, .rel, .recd] false s (execRelocation blk dst bad s) :=
  .whileUp <| .ite (.next .refl) <| .next (Effect.ite (Effect.refl.background.openBlk.foldl fun _ _ h => h.loseUnit).emptied (Effect.refl.background.openBlk.foldl fun _ _ h => h.loseUnit).retireBlk.lunCheck)

theorem execCulmResultReturn_reaches {culm} : Reaches [.hif, .eng, .obj, .shv, .stk, .rel] false s (execCulmResultReturn culm s) := by
  unfold Machine.execCulmResultReturn
  dsimp only
  refine .whileUp ?_
  split
  · exact .next .refl
  · refine .ite (.next .refl) ?_
    split
    · exact .next Effect.refl.modCulm
    · split
      · exact .next ((Effect.ite (Effect.refl.modCulm.foldl fun _ _ h => h.markUser) Effect.refl.modCulm).foldl fun _ _ h => h.dropPin).onShv.modHusk
      · exact .next (Effect.ite (Effect.refl.modCulm.foldl fun _ _ h => h.markUser) Effect.refl.modCulm).landOne

theorem execFreeRelease_reaches {idx} : Reaches [.stew, .hif, .eng, .idx, .obj, .shv, .fls] true s (execFreeRelease idx s) := by
  unfold Machine.execFreeRelease
  dsimp only
  refine .whileUp ?_
  split
  · exact .next .refl
  · refine .ite (.next .refl) ?_
    refine .next ?_
    split
    · exact Effect.refl.removeObject.onShv.dropUnits.onFls.onIdx.finishCmd
    · exact Effect.refl.removeObject.onShv.dropUnits.onFls.onIdx

theorem execGather_reaches {n data} : Reaches [.stew, .hif, .eng, .idx, .obj, .shv, .recd] false s (execGather n data s) := by
  unfold Machine.execGather
  dsimp only
  refine .whileUp ?_
  split
  · exact .next .refl
  · refine .ite (.next Effect.refl.recordData.finishCmd) ?_
    split
    · exact .next Effect.refl.recordData.finishCmd
    · exact .ite (.next Effect.refl.recordData.finishCmd) <| .ite (.next Effect.refl.recordData.finishCmd) <| .ite (.next Effect.refl.recordData.failCmd) <| .next Effect.refl.recordData.countDefaults.modCmd

theorem execFunctionLevelReset_reaches {fn} : Reaches [.stew, .hif, .eng, .idx, .obj, .shv, .recd] true s (execFunctionLevelReset fn s) :=
  .whileUp <| .next (Effect.ite Effect.refl.recordPin.stopFunction.resetMbx Effect.refl)

theorem execHuskLockRequest_reaches {h'} : Reaches [.stew, .hif, .eng, .idx, .obj, .shv, .recd] true s (execHuskLockRequest h' s) := by
  unfold Machine.execHuskLockRequest
  refine .whileUp ?_
  split
  · exact .next .refl
  · refine .ite (.next .refl) ?_
    split
    · exact .ite (.next Effect.refl.modHusk) <| .next .refl
    · split
      · exact .next Effect.refl.waitFull
      · exact .next Effect.refl.requestLock

theorem execHuskLockGrant_reaches {h'} : Reaches [.stew, .hif, .eng, .idx, .obj, .shv, .recd] true s (execHuskLockGrant h' s) := by
  unfold Machine.execHuskLockGrant
  refine .whileUp ?_
  split
  · exact .next .refl
  · exact .ite (.next .refl) <| .next Effect.refl.modHusk.grantLock

theorem execJournalExtentsDurable_reaches {h'} : Reaches [.stew, .hif, .eng, .idx, .obj, .shv, .recd] true s (execJournalExtentsDurable h' s) := by
  unfold Machine.execJournalExtentsDurable
  refine .whileUp ?_
  split
  · exact .next .refl
  · exact .ite (.next .refl) <| .next Effect.refl.joinGroup

theorem execCommandAdmission_reaches {qp} : Reaches [.stew, .hif, .eng, .obj, .shv, .fab, .recd] false s (execCommandAdmission qp s) :=
  .whileUp <| .next (Effect.ite Effect.refl.admitHead Effect.refl)

theorem execAdmissionWaitEnd_reaches {qp} : Reaches [.stew, .hif, .eng, .obj, .shv, .fab, .recd] false s (execAdmissionWaitEnd qp s) :=
  .whileUp <| .next (Effect.ite Effect.refl.admitHead Effect.refl)

theorem execPin_reaches {n} : Reaches [.stew, .hif, .eng, .obj, .shv, .rel, .recd] false s (execPin n s) := by
  unfold Machine.execPin
  refine .whileUp ?_
  split
  · exact .next .refl
  · refine .withObject Effect.refl (fun i o => ?_)
    exact .ite (.next Effect.refl.finishCmd) <| .ite (.next Effect.refl.failCmd) <| .next Effect.refl.cancelEvict.modObj.finishCmd

theorem execWindowMap_reaches {box} : Reaches [.stew, .hif, .eng, .obj, .shv, .rel, .recd] false s (execWindowMap box s) := by
  unfold Machine.execWindowMap
  dsimp only
  refine .whileUp <| .ite (.next .refl) ?_
  refine .onZalpol Effect.refl (fun m => ?_)
  refine Effect.zChecked Effect.refl ?_
  refine .ite Effect.refl.refuseHandle.zFail ?_
  split
  · exact Effect.refl.zFail
  · exact Effect.ite Effect.refl.zFail (Effect.ite Effect.refl.zFail (Effect.ite Effect.refl.zFail (Effect.refl.foldl fun _ _ h => h.mapUnit).zRespond))

theorem execHostDataPoisoned_reaches {src} : Reaches [.stew, .hif, .eng, .obj, .shv, .rel, .recd] false s (execHostDataPoisoned src s) := by
  unfold Machine.execHostDataPoisoned
  refine .whileUp ?_
  split
  · exact .next Effect.refl.entryUnread
  · split
    · exact .next .refl
    · exact .ite (.next .refl) <| .next Effect.refl.recordInput.logEv.failCmd
  · exact .ite (.next Effect.refl.logEv.zRespond) <| .next .refl

theorem execJournalUnavailable_reaches : Reaches [.aon, .stew, .hif, .eng, .idx, .obj, .shv, .rel] true s (execJournalUnavailable s) := by
  unfold Machine.execJournalUnavailable
  dsimp only
  refine .whileUp ?_
  split
  · exact .next .refl
  · exact .ite (.next .refl) <| .next ((Effect.refl.onEng.foldl fun _ _ h => h.modHusk).foldl fun _ _ h => h.failHusk).fatal

theorem execElementwiseComputeDone_reaches {h'} : Reaches [.stew, .hif, .eng, .idx, .obj, .shv, .fls, .recd] true s (execElementwiseComputeDone h' s) := by
  unfold Machine.execElementwiseComputeDone
  dsimp only
  refine .whileUp ?_
  split
  · exact .next .refl
  · exact .ite (.next .refl) <| .ite (.next Effect.refl.writeExts.modHusk) <| .next Effect.refl.joinGroup

theorem execSearch_reaches {n data} : Reaches [.stew, .hif, .eng, .idx, .obj, .shv, .rel, .recd] false s (execSearch n data s) := by
  unfold Machine.execSearch
  dsimp only
  refine .whileUp ?_
  split
  · exact .next .refl
  · split
    · exact .next Effect.refl.failCmd
    · refine .ite (.next Effect.refl.failCmd) <| .ite (.next Effect.refl.finishCmd) ?_
      split
      · exact .next (Effect.ite Effect.refl.recordData.countViolation Effect.refl.recordData).ranWith
      · exact .next Effect.refl.recordData.searchDrops.modCmd

theorem execQueueDrainTimeout_reaches {qp} : Reaches [.stew, .hif, .eng, .idx, .obj, .shv, .rel, .recd] true s (execQueueDrainTimeout qp s) := by
  unfold Machine.execQueueDrainTimeout
  dsimp only
  refine .whileUp ?_
  split
  · exact .next .refl
  · split
    · exact .next .refl
    · exact .ite (.next .refl) <| .next ((Effect.refl.timerToken.modQp.foldl fun _ _ h => h.freeStaging).queueError.raiseEvent.logEv.foldl fun _ _ h => h.stopCmd).checkDelete

theorem execHotReset_reaches : Reaches [.stew, .hif, .eng, .idx, .obj, .shv, .rel, .recd] true s (execHotReset s) :=
  .whileUp <| .next Effect.refl.recordPin.stopAll.onHif

theorem execLinkDown_reaches : Reaches [.stew, .hif, .eng, .idx, .obj, .shv, .rel, .recd] true s (execLinkDown s) :=
  .whileUp <| .next Effect.refl.recordPin.stopAll.onHif

theorem execRead_reaches {n} : Reaches [.stew, .hif, .eng, .obj, .shv, .fab, .rel, .recd] false s (execRead n s) := by
  unfold Machine.execRead
  dsimp only
  refine .whileUp ?_
  split
  · exact .next .refl
  · refine .withObject Effect.refl (fun i o => ?_)
    exact .ite (.next Effect.refl.finishCmd) <| .ite (.next Effect.refl.pinObj.modCmd.bucketCharge.endRead) <| .ite (.next Effect.refl.pinObj.modCmd.bucketCharge.failCmd) <| .next (Effect.ite Effect.refl.pinObj.modCmd.bucketCharge.modCmd.meterMove.t4Whole Effect.refl.pinObj.modCmd.bucketCharge.modCmd.meterMove.t4Send)

theorem execHeadStageItemArrival_reaches {n} : Reaches [.stew, .hif, .eng, .obj, .shv, .fab, .rel, .recd] false s (execHeadStageItemArrival n s) := by
  unfold Machine.execHeadStageItemArrival
  dsimp only
  refine .whileUp ?_
  split
  · exact .next .refl
  · split
    · exact .next .refl
    · exact .ite (.next .refl) <| .ite (.next Effect.refl.endOutside) <| .next (Effect.ite (Effect.refl.modCmd.foldl fun _ _ h => h.joinItem).closeBatch (Effect.refl.modCmd.foldl fun _ _ h => h.joinItem))

theorem execStageBatchFinish_reaches {sheaf stage lane} : Reaches [.stew, .hif, .eng, .obj, .shv, .fab, .rel, .recd] false s (execStageBatchFinish sheaf stage lane s) := by
  unfold Machine.execStageBatchFinish
  dsimp only
  refine .whileUp ?_
  split
  · exact .next .refl
  · exact .ite (.next .refl) <| .ite (.next (Effect.ite (Effect.ite Effect.refl.noteStage.meterTile.freeLanding.unpinBatch Effect.refl.noteStage.meterTile.freeLanding).modStage.modStat ((Effect.ite Effect.refl.noteStage.meterTile.freeLanding.unpinBatch Effect.refl.noteStage.meterTile.freeLanding).modStage.modStat.foldl fun _ _ h => h.modEdge)).finishSplit) <| .ite (.next (Effect.ite (Effect.ite Effect.refl.noteStage.meterTile.freeLanding.unpinBatch Effect.refl.noteStage.meterTile.freeLanding).modStage.modStat ((Effect.ite Effect.refl.noteStage.meterTile.freeLanding.unpinBatch Effect.refl.noteStage.meterTile.freeLanding).modStage.modStat.foldl fun _ _ h => h.modEdge)).deliverOn) <| .next ((Effect.ite (Effect.ite Effect.refl.noteStage.meterTile.freeLanding.unpinBatch Effect.refl.noteStage.meterTile.freeLanding).modStage.modStat ((Effect.ite Effect.refl.noteStage.meterTile.freeLanding.unpinBatch Effect.refl.noteStage.meterTile.freeLanding).modStage.modStat.foldl fun _ _ h => h.modEdge)).foldl fun _ _ h => h.leaveItem).freeStaging

theorem execPerstNAssert_reaches : Reaches [.aon, .stew, .hif, .eng, .idx, .obj, .shv, .rel, .recd] true s (execPerstNAssert s) :=
  .whileUp <| .next Effect.refl.recordPin.onAon.stopAll.onHif

theorem execSramUncorrectable_reaches {kind unit loc} : Reaches [.aon, .stew, .hif, .obj, .shv, .stk, .fls, .fab, .rel, .recd] false s (execSramUncorrectable kind unit loc s) := by
  unfold Machine.execSramUncorrectable
  dsimp only
  refine .whileUp <| .ite (.ite (.next .refl) <| .next Effect.refl.poisonRunning.loseT0.retireTile.startRuns) <| .ite (.ite (.next .refl) ?_) <| .ite ?_ <| .ite (.next Effect.refl.latchGasp.detect.raiseViral) <| .ite (.next Effect.refl.modCmd.detect) <| .ite (.next Effect.refl.latchGasp.detect.raiseViral) <| .ite (.next Effect.refl.corrected) <| .ite (.next Effect.refl.corrected) <| .ite (.next Effect.refl.corrected) <| .next .refl
  · refine .next ?_
    refine Effect.startRuns ?_
    refine Effect.retireCulm ?_
    split
    · exact Effect.refl.poisonOp
    · exact Effect.refl
  · refine .next ?_
    refine Effect.detect ?_
    refine Effect.foldl Effect.refl fun t a h => ?_
    split
    · split
      · exact h.modCmd
      · exact h
    · exact h

theorem execAwnReadIssue_reaches {sheaf stage lane elementwise} : Reaches [.stew, .hif, .eng, .obj, .shv, .stk, .fab, .rel, .recd] false s (execAwnReadIssue sheaf stage lane elementwise s) := by
  unfold Machine.execAwnReadIssue
  dsimp only
  refine .whileUp ?_
  split
  · refine .next ?_
    refine .ite Effect.refl ?_
    split
    · exact Effect.refl
    · exact Effect.refl.issueSeg
  · split
    · exact .next .refl
    · exact .next (Effect.ite Effect.refl.issueElementwise Effect.refl)

theorem execMove_reaches {n} : Reaches [.stew, .hif, .eng, .obj, .shv, .fls, .fab, .rel, .recd] false s (execMove n s) := by
  unfold Machine.execMove
  refine .whileUp ?_
  refine .doMove Effect.refl

theorem execMoveRehome_reaches {n} : Reaches [.stew, .hif, .eng, .obj, .shv, .fls, .fab, .rel, .recd] false s (execMoveRehome n s) := by
  unfold Machine.execMoveRehome
  refine .whileUp ?_
  refine .doMove Effect.refl

theorem execPromotionCopyComplete_reaches {idx} : Reaches [.stew, .hif, .eng, .obj, .shv, .fls, .fab, .rel, .recd] false s (execPromotionCopyComplete idx s) := by
  unfold Machine.execPromotionCopyComplete
  dsimp only
  refine .whileUp ?_
  split
  · exact .next .refl
  · exact .ite (.next (Effect.ite Effect.refl.accrue.flashMove.flashMove.writeHome Effect.refl.accrue.flashMove).modObj.headerChange.settleObj) <| .ite (.next Effect.refl.accrue.flashMove.flashMove.writeHome.modObj.headerChange.settleObj) <| .next .refl

theorem execWriteBackStart_reaches {idx} : Reaches [.stew, .hif, .eng, .obj, .shv, .fls, .fab, .rel, .recd] false s (execWriteBackStart idx s) := by
  unfold Machine.execWriteBackStart
  dsimp only
  refine .whileUp ?_
  split
  · exact .next .refl
  · exact .ite (.next .refl) <| .ite (.next Effect.refl.modObj.t4Stop) <| .ite (.next Effect.refl.accrue.dropClean.headerChange.settleObj) <| .next (Effect.ite (Effect.ite Effect.refl.modObj.headerChange Effect.refl.modObj.headerChange.packWrite) (Effect.ite Effect.refl.modObj.headerChange.t4Whole Effect.refl.modObj.headerChange))

theorem execRehomeSwitch_reaches {idx} : Reaches [.stew, .hif, .eng, .obj, .shv, .fls, .fab, .rel, .recd] false s (execRehomeSwitch idx s) := by
  unfold Machine.execRehomeSwitch
  dsimp only
  refine .whileUp ?_
  split
  · exact .next .refl
  · split
    · exact .next .refl
    · exact .ite (.next .refl) <| .next Effect.refl.accrue.flashMove.flashMove.modObj.writeHome.finishCmd.headerChange.settleObj

theorem execT4Data_reaches {node msg} : Reaches [.stew, .hif, .eng, .obj, .shv, .fls, .fab, .rel, .recd] true s (execT4Data node msg s) := by
  unfold Machine.execT4Data
  dsimp only
  refine .whileUp ?_
  split
  · exact .next .refl
  · split
    · exact .next Effect.refl.rxDone.lateAnswer
    · refine .next ?_
      split
      · exact Effect.refl.rxDone.t4Ended
      · exact Effect.ite Effect.refl.rxDone.t4Ended.t4Land.t4Send Effect.refl.rxDone.t4Ended.t4Land.t4Done

theorem execRetransmissionTimeout_reaches {node vc} : Reaches [.stew, .hif, .eng, .obj, .shv, .fls, .fab, .rel, .recd] false s (execRetransmissionTimeout node vc s) :=
  .whileUp <| .ite (.next .refl) <| .next Effect.refl.resend

theorem execT4RequestTimeout_reaches {msg} : Reaches [.stew, .hif, .eng, .obj, .shv, .fls, .fab, .rel, .recd] false s (execT4RequestTimeout msg s) := by
  unfold Machine.execT4RequestTimeout
  refine .whileUp ?_
  split
  · exact .next .refl
  · exact .ite (.next .refl) <| .next Effect.refl.endResv

theorem execPeerTimeout_reaches {node vc} : Reaches [.stew, .hif, .eng, .obj, .shv, .fls, .fab, .rel, .recd] false s (execPeerTimeout node vc s) :=
  .whileUp <| .ite (.next .refl) <| .next Effect.refl.timerToken.closePeer

theorem execPortLinkChange_reaches {port up} : Reaches [.stew, .hif, .eng, .obj, .shv, .fls, .fab, .rel, .recd] false s (execPortLinkChange port up s) :=
  .whileUp <| .ite (.next .refl) <| .ite (.next Effect.refl.recordPin.logEv.onFab.pumpAll) <| .next (Effect.refl.recordPin.logEv.onFab.foldl fun _ _ h => h.resend)

theorem execRefclkLoss_reaches {clk} : Reaches [.aon, .stew, .hif, .eng, .idx, .obj, .shv, .fab, .rel, .recd] true s (execRefclkLoss clk s) :=
  .ite (.next (Effect.ite Effect.refl Effect.refl.onAon.powerEvent)) <| .ite (.next (Effect.ite Effect.refl (Effect.ite Effect.refl.onAon Effect.refl.onAon.logEv.recordPin.stopAll.onHif))) <| .ite (.next (Effect.ite Effect.refl Effect.refl.onAon.logEv.onFab)) <| .next .refl

theorem execSubAnswer_reaches {node msg} : Reaches [.stew, .hif, .eng, .idx, .obj, .shv, .fls, .fab, .rel, .recd] false s (execSubAnswer node msg s) := by
  unfold Machine.execSubAnswer
  dsimp only
  refine .whileUp ?_
  split
  · exact .next .refl
  · split
    · exact .next Effect.refl.rxDone.lateAnswer.lateSub
    · refine .ite (.next Effect.refl.rxDone.endResv) ?_
      split
      · exact .next Effect.refl.rxDone.dropResv
      · exact .next Effect.refl.rxDone.dropResv.modCmd.closeFan

theorem execDrainEntryFreed_reaches {epoch} : Reaches [.aon, .stew, .hif, .eng, .idx, .obj, .shv, .fls, .fab, .rel, .recd] true s (execDrainEntryFreed epoch s) :=
  .whileUp <| .ite (.next .refl) <| .next (Effect.ite Effect.refl.onEng.tryCommit Effect.refl.onEng)

theorem execEpochRingWaitEnd_reaches : Reaches [.aon, .stew, .hif, .eng, .idx, .obj, .shv, .fls, .fab, .rel, .recd] true s (execEpochRingWaitEnd s) :=
  .whileUp <| .next (Effect.ite Effect.refl.tryCommit Effect.refl)

theorem execVersionPoolWaitEnd_reaches : Reaches [.aon, .stew, .hif, .eng, .idx, .obj, .shv, .fls, .fab, .rel, .recd] true s (execVersionPoolWaitEnd s) :=
  .whileUp <| .next (Effect.ite Effect.refl.tryCommit Effect.refl)

theorem execRecoveryPhaseComplete_reaches {found} : Reaches [.aon, .stew, .hif, .eng, .idx, .obj, .shv, .fls, .fab, .rel, .recd] true s (execRecoveryPhaseComplete found s) := by
  unfold Machine.execRecoveryPhaseComplete
  refine .whileUp <| .ite (.next .refl) ?_
  split
  · exact .next Effect.refl.onStew
  · exact .next Effect.refl.endPhase1
  · exact .next Effect.refl.endPhase2
  · exact .next Effect.refl.endPhase3
  · exact .next Effect.refl.endPhase4
  · exact .next Effect.refl.endPhase5
  · exact .next .refl

theorem execReplayEnd_reaches : Reaches [.aon, .stew, .hif, .eng, .idx, .obj, .shv, .stk, .fls, .fab, .rel, .recd] true s (execReplayEnd s) := by
  unfold Machine.execReplayEnd
  dsimp only
  refine .whileUp <| .ite (.next .refl) <| .ite (.next (Effect.ite Effect.refl.coldStart Effect.refl)) ?_
  split
  · exact .next Effect.refl.onRec.commandDone
  · exact .ite (.next Effect.refl.onRec.stopReplay.commandDone) <| .next .refl
  · exact .next Effect.refl.onRec.commandDone

theorem execPowerGood_reaches : Reaches [.aon, .stew, .hif, .eng, .idx, .obj, .shv, .stk, .fls, .fab, .rel, .recd] true s (execPowerGood s) :=
  .ite (.next .refl) <| .next (Effect.ite Effect.refl.onAon Effect.refl.onAon.coldStart)

theorem execFlushComplete_reaches : Reaches [.aon, .stew, .hif, .eng, .idx, .obj, .shv, .stk, .fls, .fab, .rel, .recd] true s (execFlushComplete s) := by
  unfold Machine.execFlushComplete
  dsimp only
  split
  · exact .next .refl
  · exact .ite (.next .refl) <| .ite (.next Effect.refl.flushWritten.onAon.restart) <| .next (Effect.ite Effect.refl.flushWritten.onAon.onAon.coldStart Effect.refl.flushWritten.onAon.onAon)

theorem execPwrFailNRelease_reaches : Reaches [.aon, .stew, .hif, .eng, .idx, .obj, .shv, .stk, .fls, .fab, .rel, .recd] true s (execPwrFailNRelease s) :=
  .ite (.next .refl) <| .next (Effect.ite Effect.refl.onAon.coldStart Effect.refl.onAon)

end
end Sys2Proof.Proofs

/-! The frame, the invariants and the queue of commands, from the effect of every command; the state after reset. -/

namespace Sys2Proof.Proofs
open Sys2Proof Sys2Proof.Machine Sys2Proof.Safety
section
-- The many short proofs are checked one after the other, so that few threads run at once.
set_option Elab.async false

/-- Every command reaches a next state within the parts that the table lists for it, and writes bytes of objects only where it is
listed for that. -/
theorem exec_reaches (c : Instr) (s : State) : Reaches (mayChange c) (writesObjects c) s (exec c s) := by
  cases c with
  | sqTailDoorbell _ _ _ => exact execSqTailDoorbell_reaches
  | cqHeadDoorbell _ _ _ => exact execCqHeadDoorbell_reaches
  | sqEntryFetch _ _ => exact execSqEntryFetch_reaches
  | commandAdmission _ => exact execCommandAdmission_reaches
  | admissionWaitEnd _ => exact execAdmissionWaitEnd_reaches
  | search _ _ => exact execSearch_reaches
  | insert _ _ => exact execInsert_reaches
  | upsert _ _ => exact execUpsert_reaches
  | delete _ _ => exact execDelete_reaches
  | expertCall _ _ _ => exact execExpertCall_reaches
  | gate _ _ => exact execGate_reaches
  | gather _ _ => exact execGather_reaches
  | memoryLayer _ _ => exact execMemoryLayer_reaches
  | attention _ _ => exact execAttention_reaches
  | elementwiseAdd _ => exact execElementwiseAdd_reaches
  | elementwiseMul _ => exact execElementwiseMul_reaches
  | elementwiseAct _ => exact execElementwiseAct_reaches
  | elementwiseConvert _ => exact execElementwiseConvert_reaches
  | binderAdd _ => exact execBinderAdd_reaches
  | binderSet _ => exact execBinderSet_reaches
  | binderWaitGe _ => exact execBinderWaitGe_reaches
  | binderOpRead _ => exact execBinderOpRead_reaches
  | waitGeTimeout _ => exact execWaitGeTimeout_reaches
  | husk _ _ _ => exact execHusk_reaches
  | alloc _ _ => exact execAlloc_reaches
  | free _ => exact execFree_reaches
  | move _ => exact execMove_reaches
  | moveRehome _ => exact execMoveRehome_reaches
  | pin _ => exact execPin_reaches
  | unpin _ => exact execUnpin_reaches
  | read _ => exact execRead_reaches
  | commandRangeGrant _ => exact execCommandRangeGrant_reaches
  | completionDrain _ => exact execCompletionDrain_reaches
  | queueDrainTimeout _ => exact execQueueDrainTimeout_reaches
  | coalesceTimeout _ => exact execCoalesceTimeout_reaches
  | msixEntryUnmask _ _ => exact execMsixEntryUnmask_reaches
  | faultCauseClear _ => exact execFaultCauseClear_reaches
  | queueErrorClear _ _ => exact execQueueErrorClear_reaches
  | queueStatusClear _ _ _ => exact execQueueStatusClear_reaches
  | registerLowHalfRead _ _ => exact execRegisterLowHalfRead_reaches
  | registerWriteOther _ _ _ _ => exact execRegisterWriteOther_reaches
  | mbxWindowWrite _ _ _ _ => exact execMbxWindowWrite_reaches
  | mbxDoorbellRing _ _ _ => exact execMbxDoorbellRing_reaches
  | mbxStatusClear _ _ _ => exact execMbxStatusClear_reaches
  | mbxReleaseRead _ _ => exact execMbxReleaseRead_reaches
  | mbxRequestTake => exact execMbxRequestTake_reaches
  | mbxResponsePost _ => exact execMbxResponsePost_reaches
  | mbxEventDeliver _ => exact execMbxEventDeliver_reaches
  | queueCreate _ => exact execQueueCreate_reaches
  | queueDelete _ => exact execQueueDelete_reaches
  | queueReset _ => exact execQueueReset_reaches
  | vectorBind _ => exact execVectorBind_reaches
  | vectorUnbind _ => exact execVectorUnbind_reaches
  | windowMap _ => exact execWindowMap_reaches
  | windowUnmap _ => exact execWindowUnmap_reaches
  | timePost _ => exact execTimePost_reaches
  | powerSet _ => exact execPowerSet_reaches
  | genApply _ _ => exact execGenApply_reaches
  | rollback _ => exact execRollback_reaches
  | genRead _ => exact execGenRead_reaches
  | sheafStats _ => exact execSheafStats_reaches
  | convertStats _ => exact execConvertStats_reaches
  | collectionCreate _ => exact execCollectionCreate_reaches
  | collectionChange _ => exact execCollectionChange_reaches
  | collectionDelete _ => exact execCollectionDelete_reaches
  | collectionStats _ => exact execCollectionStats_reaches
  | rebuildSweep _ => exact execRebuildSweep_reaches
  | rebuildSplit _ => exact execRebuildSplit_reaches
  | rebuildMerge _ => exact execRebuildMerge_reaches
  | rebuildRetrain _ => exact execRebuildRetrain_reaches
  | rebuildRehash _ => exact execRebuildRehash_reaches
  | tableWrite _ _ => exact execTableWrite_reaches
  | zalpolHusk _ _ _ => exact execZalpolHusk_reaches
  | objectQuery _ => exact execObjectQuery_reaches
  | objectTransfer _ => exact execObjectTransfer_reaches
  | binderAlloc _ => exact execBinderAlloc_reaches
  | binderFree _ => exact execBinderFree_reaches
  | binderRead _ => exact execBinderRead_reaches
  | format _ => exact execFormat_reaches
  | formatComplete => exact execFormatComplete_reaches
  | mediaTableLoad _ _ => exact execMediaTableLoad_reaches
  | channelStatus _ => exact execChannelStatus_reaches
  | channelDrain _ => exact execChannelDrain_reaches
  | channelDrainComplete _ => exact execChannelDrainComplete_reaches
  | channelAdmit _ => exact execChannelAdmit_reaches
  | channelAdmitComplete _ _ _ => exact execChannelAdmitComplete_reaches
  | endurance _ => exact execEndurance_reaches
  | keyLoad => exact execKeyLoad_reaches
  | keyDestroy => exact execKeyDestroy_reaches
  | fwLoad _ _ => exact execFwLoad_reaches
  | fwActivate _ => exact execFwActivate_reaches
  | fwActivateTimeout => exact execFwActivateTimeout_reaches
  | threshRun _ => exact execThreshRun_reaches
  | threshStatus _ => exact execThreshStatus_reaches
  | threshIterationEnd _ _ _ _ _ => exact execThreshIterationEnd_reaches
  | threshDurationEnd _ => exact execThreshDurationEnd_reaches
  | signatureRead _ => exact execSignatureRead_reaches
  | logRead _ => exact execLogRead_reaches
  | recordExport _ => exact execRecordExport_reaches
  | replayStart _ _ => exact execReplayStart_reaches
  | meterRead _ => exact execMeterRead_reaches
  | recoverRestart _ => exact execRecoverRestart_reaches
  | recoverLeaveFault _ => exact execRecoverLeaveFault_reaches
  | recoveryStatus _ => exact execRecoveryStatus_reaches
  | functionLevelReset _ => exact execFunctionLevelReset_reaches
  | perstNAssert => exact execPerstNAssert_reaches
  | hotReset => exact execHotReset_reaches
  | linkDown => exact execLinkDown_reaches
  | linkTraining _ _ _ => exact execLinkTraining_reaches
  | functionDStateChange _ _ => exact execFunctionDStateChange_reaches
  | hostAccessError _ => exact execHostAccessError_reaches
  | hostDataPoisoned _ => exact execHostDataPoisoned_reaches
  | windowRead _ _ _ => exact execWindowRead_reaches
  | windowWrite _ _ => exact execWindowWrite_reaches
  | cxlIdentifyMemoryDevice => exact execCxlIdentifyMemoryDevice_reaches
  | cxlGetEventRecords => exact execCxlGetEventRecords_reaches
  | cxlClearEventRecords => exact execCxlClearEventRecords_reaches
  | cxlGetHealthInfo => exact execCxlGetHealthInfo_reaches
  | cxlGetPoisonList => exact execCxlGetPoisonList_reaches
  | cxlUnsupportedCommand _ => exact execCxlUnsupportedCommand_reaches
  | getVersion => exact execGetVersion_reaches
  | getCapabilities => exact execGetCapabilities_reaches
  | negotiateAlgorithms _ => exact execNegotiateAlgorithms_reaches
  | getDigests => exact execGetDigests_reaches
  | getCertificate _ _ _ => exact execGetCertificate_reaches
  | challenge _ => exact execChallenge_reaches
  | getMeasurements _ => exact execGetMeasurements_reaches
  | keyExchange _ => exact execKeyExchange_reaches
  | finish _ => exact execFinish_reaches
  | heartbeat _ => exact execHeartbeat_reaches
  | keyUpdate _ => exact execKeyUpdate_reaches
  | endSession _ => exact execEndSession_reaches
  | vendorDefinedRequest _ _ => exact execVendorDefinedRequest_reaches
  | headStageItemArrival _ => exact execHeadStageItemArrival_reaches
  | batchWindowExpiry _ => exact execBatchWindowExpiry_reaches
  | stageBatchStart _ _ _ => exact execStageBatchStart_reaches
  | stageBatchFinish _ _ _ => exact execStageBatchFinish_reaches
  | creditReturnArrival _ _ _ => exact execCreditReturnArrival_reaches
  | stageGenerationSwitch _ => exact execStageGenerationSwitch_reaches
  | awnReadIssue _ _ _ _ => exact execAwnReadIssue_reaches
  | awnDataLand _ _ => exact execAwnDataLand_reaches
  | awnDirectoryRead _ => exact execAwnDirectoryRead_reaches
  | stookListArrival _ _ => exact execStookListArrival_reaches
  | stookMergeStart _ => exact execStookMergeStart_reaches
  | stookMergeComplete _ => exact execStookMergeComplete_reaches
  | stookRootDelivery _ _ => exact execStookRootDelivery_reaches
  | tillerSwapStart _ => exact execTillerSwapStart_reaches
  | tillerSwapComplete _ => exact execTillerSwapComplete_reaches
  | expertStagingGrant _ => exact execExpertStagingGrant_reaches
  | expertStagingComplete _ _ => exact execExpertStagingComplete_reaches
  | expertReach _ _ _ => exact execExpertReach_reaches
  | expertDeadlineExpiry _ _ _ => exact execExpertDeadlineExpiry_reaches
  | pseudoChannelGrant _ _ _ => exact execPseudoChannelGrant_reaches
  | culmScanOp _ => exact execCulmScanOp_reaches
  | culmAddOp _ => exact execCulmAddOp_reaches
  | culmMulOp _ => exact execCulmMulOp_reaches
  | culmActOp _ => exact execCulmActOp_reaches
  | culmConvertOp _ => exact execCulmConvertOp_reaches
  | culmAttendOp _ => exact execCulmAttendOp_reaches
  | culmResultReturn _ => exact execCulmResultReturn_reaches
  | culmSubstitution _ => exact execCulmSubstitution_reaches
  | huskAdmission _ => exact execHuskAdmission_reaches
  | huskLockRequest _ => exact execHuskLockRequest_reaches
  | huskLockGrant _ => exact execHuskLockGrant_reaches
  | elementwiseComputeDone _ => exact execElementwiseComputeDone_reaches
  | journalExtentsDurable _ => exact execJournalExtentsDurable_reaches
  | commitGroupClose => exact execCommitGroupClose_reaches
  | journalRecordDurable => exact execJournalRecordDurable_reaches
  | journalWriteFail => exact execJournalWriteFail_reaches
  | journalUnavailable => exact execJournalUnavailable_reaches
  | drainEntryFreed _ => exact execDrainEntryFreed_reaches
  | epochRingWaitEnd => exact execEpochRingWaitEnd_reaches
  | versionPoolWaitEnd => exact execVersionPoolWaitEnd_reaches
  | versionReclaim => exact execVersionReclaim_reaches
  | settling _ _ => exact execSettling_reaches
  | rebuildShadowComplete _ => exact execRebuildShadowComplete_reaches
  | barrier _ _ => exact execBarrier_reaches
  | barrierMap _ _ => exact execBarrierMap_reaches
  | promotionCopyComplete _ => exact execPromotionCopyComplete_reaches
  | writeBackStart _ => exact execWriteBackStart_reaches
  | writeBackDurable _ => exact execWriteBackDurable_reaches
  | cleaningPass _ => exact execCleaningPass_reaches
  | rehomeSwitch _ => exact execRehomeSwitch_reaches
  | oldLocationRelease _ => exact execOldLocationRelease_reaches
  | freeRelease _ => exact execFreeRelease_reaches
  | lunTemperatureRead _ _ _ => exact execLunTemperatureRead_reaches
  | flashReadComplete _ _ _ => exact execFlashReadComplete_reaches
  | blockCalibration _ _ => exact execBlockCalibration_reaches
  | gleanerPatrol _ _ => exact execGleanerPatrol_reaches
  | gleanerAgingPromotion _ => exact execGleanerAgingPromotion_reaches
  | prioritySweep _ _ => exact execPrioritySweep_reaches
  | fold _ _ => exact execFold_reaches
  | garbageCollection _ _ => exact execGarbageCollection_reaches
  | relocation _ _ _ => exact execRelocation_reaches
  | wearLevelling _ => exact execWearLevelling_reaches
  | unitMoveProgrammed _ _ => exact execUnitMoveProgrammed_reaches
  | blockErase _ => exact execBlockErase_reaches
  | mappingPageWrite _ => exact execMappingPageWrite_reaches
  | programFailure _ _ => exact execProgramFailure_reaches
  | eraseFailure _ => exact execEraseFailure_reaches
  | lunBusyTimeout _ _ => exact execLunBusyTimeout_reaches
  | channelLoss _ => exact execChannelLoss_reaches
  | packSlotGrant => exact execPackSlotGrant_reaches
  | packBlockEncode _ => exact execPackBlockEncode_reaches
  | packBlockDecode _ => exact execPackBlockDecode_reaches
  | checkpointStreamSwitch _ => exact execCheckpointStreamSwitch_reaches
  | frameReceive _ _ _ => exact execFrameReceive_reaches
  | ackSendTimer _ _ => exact execAckSendTimer_reaches
  | retransmissionTimeout _ _ => exact execRetransmissionTimeout_reaches
  | hello _ _ => exact execHello_reaches
  | join _ _ => exact execJoin_reaches
  | leave _ _ => exact execLeave_reaches
  | telemetry _ _ => exact execTelemetry_reaches
  | status _ _ => exact execStatus_reaches
  | subSearch _ _ => exact execSubSearch_reaches
  | subAnswer _ _ => exact execSubAnswer_reaches
  | t4Read _ _ => exact execT4Read_reaches
  | t4Data _ _ => exact execT4Data_reaches
  | t4Write _ _ => exact execT4Write_reaches
  | unknownMessageType _ _ => exact execUnknownMessageType_reaches
  | t4RequestTimeout _ => exact execT4RequestTimeout_reaches
  | fanoutTimeout _ => exact execFanoutTimeout_reaches
  | peerTimeout _ _ => exact execPeerTimeout_reaches
  | quarantineEnd _ => exact execQuarantineEnd_reaches
  | portLinkChange _ _ => exact execPortLinkChange_reaches
  | meterInterval => exact execMeterInterval_reaches
  | bucketRefill => exact execBucketRefill_reaches
  | agingPromotion _ _ => exact execAgingPromotion_reaches
  | t1PatrolRead _ _ _ _ => exact execT1PatrolRead_reaches
  | sramUncorrectable _ _ _ => exact execSramUncorrectable_reaches
  | detectionProcess => exact execDetectionProcess_reaches
  | logRecordWrite => exact execLogRecordWrite_reaches
  | logArchiveCopy => exact execLogArchiveCopy_reaches
  | logRingFailure _ _ => exact execLogRingFailure_reaches
  | crossingLaneSwitch _ => exact execCrossingLaneSwitch_reaches
  | crossingResync _ _ => exact execCrossingResync_reaches
  | dieLinkCrcRetry _ => exact execDieLinkCrcRetry_reaches
  | dieLinkRetriesExhausted _ _ => exact execDieLinkRetriesExhausted_reaches
  | dieLinkDown _ => exact execDieLinkDown_reaches
  | recordingStart => exact execRecordingStart_reaches
  | chunkSpill => exact execChunkSpill_reaches
  | recordingEnd _ => exact execRecordingEnd_reaches
  | snapshotRelease => exact execSnapshotRelease_reaches
  | replayWindowClose _ => exact execReplayWindowClose_reaches
  | replayStall => exact execReplayStall_reaches
  | replayEnd => exact execReplayEnd_reaches
  | powerGood => exact execPowerGood_reaches
  | recoveryPhaseComplete _ => exact execRecoveryPhaseComplete_reaches
  | knownAnswerCheck _ => exact execKnownAnswerCheck_reaches
  | standbyEntry => exact execStandbyEntry_reaches
  | pwrFailNAssert => exact execPwrFailNAssert_reaches
  | pwrFailNGlitch => exact execPwrFailNGlitch_reaches
  | flushComplete => exact execFlushComplete_reaches
  | holdupOkChange _ => exact execHoldupOkChange_reaches
  | railOutOfLimits _ => exact execRailOutOfLimits_reaches
  | warmReset => exact execWarmReset_reaches
  | stewardWatchdog => exact execStewardWatchdog_reaches
  | islandReset _ => exact execIslandReset_reaches
  | powerStateReversiblePoint => exact execPowerStateReversiblePoint_reaches
  | powerStateWake _ => exact execPowerStateWake_reaches
  | powerStateExitComplete => exact execPowerStateExitComplete_reaches
  | powerMeanSample _ => exact execPowerMeanSample_reaches
  | powerClockStep => exact execPowerClockStep_reaches
  | thermalSample _ _ => exact execThermalSample_reaches
  | thermalTrip => exact execThermalTrip_reaches
  | refclkLoss _ => exact execRefclkLoss_reaches
  | refclkReturn _ => exact execRefclkReturn_reaches
  | smbusMirrorUpdate => exact execSmbusMirrorUpdate_reaches
  | smbusIdent _ => exact execSmbusIdent_reaches
  | smbusNodeStatus _ => exact execSmbusNodeStatus_reaches
  | smbusBootUptime _ => exact execSmbusBootUptime_reaches
  | smbusFaultCause _ => exact execSmbusFaultCause_reaches
  | smbusLastGasp _ => exact execSmbusLastGasp_reaches
  | smbusLogFailCount _ => exact execSmbusLogFailCount_reaches
  | smbusTemps _ => exact execSmbusTemps_reaches
  | smbusRails _ => exact execSmbusRails_reaches
  | smbusThermal _ => exact execSmbusThermal_reaches
  | smbusWarmReset _ _ => exact execSmbusWarmReset_reaches
  | smbusUndefinedCode _ _ => exact execSmbusUndefinedCode_reaches
  | jtagWarmReset => exact execJtagWarmReset_reaches
  | jtagIdcode => exact execJtagIdcode_reaches
  | jtagBypass code => exact execJtagBypass_reaches (code := code)
  | jtagSamplePreload => exact execJtagSamplePreload_reaches
  | jtagExtest => exact execJtagExtest_reaches
  | jtagIntest => exact execJtagIntest_reaches
  | jtagClamp => exact execJtagClamp_reaches
  | jtagHighz => exact execJtagHighz_reaches
  | pwrFailNRelease => exact execPwrFailNRelease_reaches
  | holdUpEnds => exact execHoldUpEnds_reaches
  | stewardRestartComplete => exact execStewardRestartComplete_reaches
  | msixEntryMask _ _ => exact execMsixEntryMask_reaches
  | sriovVfEnable _ => exact execSriovVfEnable_reaches
  | bar2Resize _ => exact execBar2Resize_reaches
  | queueEngineInternalTimeout => exact execQueueEngineInternalTimeout_reaches
  | lockstepDisagreement => exact execLockstepDisagreement_reaches
  | mbxDomainDownTimeout _ => exact execMbxDomainDownTimeout_reaches

theorem pending_of_reaches {ps w s r} (h : Reaches ps w s r) (hp : .commands ∉ ps) : ∃ t, r = .next t ∧ t.pending = s.pending := by
  obtain ⟨t, ht, he⟩ := h
  exact ⟨t, ht, he.frame .commands hp⟩

/-- No command is listed as one that changes the queue of commands. -/
theorem commands_notMem_mayChange (c : Instr) : .commands ∉ mayChange c := by
  unfold mayChange
  split <;> decide

/-- Settles O3: every command reaches a next state, and no table entry lists the queue of commands. -/
theorem everyCommandAnswersANextState : Obligations.EveryCommandAnswersANextState :=
  fun c s => pending_of_reaches (exec_reaches c s) (commands_notMem_mayChange c)

theorem effect_of_exec {c : Instr} {s t : State} (h : exec c s = .next t) : Effect (mayChange c) (writesObjects c) s t := by
  obtain ⟨u, hu, he⟩ := exec_reaches c s
  cases hu.symm.trans h
  exact he

/-- Settles O5: the effect of a command lies within its parts. -/
theorem everyCommandKeepsItsFrame : Obligations.EveryCommandKeepsItsFrame :=
  fun _ _ _ h => (effect_of_exec h).frame

/-- Settles O6: the effect of a command that is not listed writes no byte of an object. -/
theorem onlyListedCommandsWriteObjects : Obligations.OnlyListedCommandsWriteObjects :=
  fun _ _ _ hw h => (effect_of_exec h).bytes hw

theorem Effect.countSheaf {ps w s u t d} (h : Effect ps w s t) (hp : [.shv] ⊆ ps := by decide) :
    Effect ps w s (countSheaf u t d) :=
  h.foldl fun _ _ h => h.foldl fun _ _ h => h.ite (h.modStat hp)

theorem effect_tick (s : State) : Effect [.aon, .shv] false s (tick s) :=
  (Effect.foldl .refl fun _ _ h => h.countSheaf).onAon

/-- A step is the effect of the front command on the state with the queue's rest, or of the time that passes. -/
theorem effect_of_step {s t : State} (h : step s = .next t) :
    ∃ ps w rest, Effect ps w { s with pending := rest } t := by
  unfold step at h
  split at h
  · next hq => cases h; exact ⟨_, _, [], by simpa [← hq] using effect_tick s⟩
  · exact ⟨_, _, _, effect_of_exec h⟩

/-- Settles O7: the effect of every step keeps the memories canonical. -/
theorem stepsKeepMemoriesCanonical : Obligations.StepsKeepMemoriesCanonical := by
  intro s t hs h
  obtain ⟨_, _, _, he⟩ := effect_of_step h
  exact he.canonical hs

/-- Settles O8: the effect of every step keeps the queues bounded. -/
theorem stepsKeepQueuesBounded : Obligations.StepsKeepQueuesBounded := by
  intro s t hs h
  obtain ⟨_, _, _, he⟩ := effect_of_step h
  exact he.bounded hs

/-- Settles O9: the objects after reset are SYSTEM ones of empty memories, and every queue is empty. -/
theorem resetMeetsTheInvariants : Obligations.ResetMeetsTheInvariants := by
  refine ⟨⟨?_, fun k hk => ?_⟩, Nat.zero_le _, Nat.zero_le _, ?_⟩
  · unfold RecsCanonical
    decide
  · simp [State.reset] at hk
  · decide

/-- Settles O1: by the equations of the step, and the frame of the time that passes. -/
theorem aStepRunsTheFrontCommand : Obligations.AStepRunsTheFrontCommand := by
  refine ⟨fun s c rest h => by unfold step; rw [h], fun s h => ⟨tick s, by unfold step; rw [h], ?_⟩⟩
  have counted : Effect [.shv] false s ((genSheaves (gen s)).foldl (countSheaf s) s) := .foldl .refl fun _ _ h => h.countSheaf
  have haon : ((genSheaves (gen s)).foldl (countSheaf s) s).aon = s.aon := counted.frame .aon (by decide)
  exact ⟨by simp [tick, haon], by simp [tick, haon], (effect_tick s).frame⟩

/-- Settles O2: by evaluation of the state after reset. -/
theorem resetLeavesTheSpecsValues : Obligations.ResetLeavesTheSpecsValues := by
  refine ⟨rfl, rfl, fun r => ?_, rfl, rfl, rfl, ?_, ?_, rfl, rfl, rfl, ?_, rfl⟩
  · simp [queueErrorReg, State.reset]
  · decide
  · decide
  · decide

theorem whileUp_of_halted {s : State} {r : Res} (h : halted s = true) : whileUp s r = .next s := by
  unfold whileUp
  rw [if_pos h]

/-- Settles O4: every command that is not listed acts through `whileUp`, which answers the state as it is. -/
theorem aHaltedNodeDoesNothing : Obligations.AHaltedNodeDoesNothing := by
  intro c s h hr
  cases c with
  | mbxWindowWrite _ _ _ _ | mbxDoorbellRing _ _ _ | mbxStatusClear _ _ _ | mbxReleaseRead _ _
  | journalRecordDurable | journalWriteFail | logRecordWrite | powerGood | pwrFailNAssert | pwrFailNGlitch
  | flushComplete | holdupOkChange _ | railOutOfLimits _ | warmReset | thermalTrip | refclkLoss _
  | refclkReturn _ | smbusIdent _ | smbusNodeStatus _ | smbusBootUptime _ | smbusFaultCause _ | smbusLastGasp _
  | smbusLogFailCount _ | smbusTemps _ | smbusRails _ | smbusThermal _ | smbusWarmReset _ _
  | smbusUndefinedCode _ _ | jtagWarmReset | jtagIdcode | jtagBypass _ | jtagSamplePreload | jtagExtest
  | jtagIntest | jtagClamp | jtagHighz | pwrFailNRelease | holdUpEnds => cases hr
  | _ => exact whileUp_of_halted h

end
end Sys2Proof.Proofs

/-! What a running node's command completes with, and how a claim about the parts of the next state is checked. -/

namespace Sys2Proof.Proofs
open Sys2Proof Sys2Proof.Machine Sys2Proof.Safety

set_option Elab.async false

@[simp] theorem withDigests_aon (s t : State) : (withDigests s t).aon = t.aon := rfl
@[simp] theorem withDigests_stew (s t : State) : (withDigests s t).stew = t.stew := rfl
@[simp] theorem withDigests_hif (s t : State) : (withDigests s t).hif = t.hif := rfl
@[simp] theorem withDigests_eng (s t : State) : (withDigests s t).eng = t.eng := rfl
@[simp] theorem withDigests_idx (s t : State) : (withDigests s t).idx = t.idx := rfl
@[simp] theorem withDigests_obj (s t : State) : (withDigests s t).obj = t.obj := rfl
@[simp] theorem withDigests_shv (s t : State) : (withDigests s t).shv = t.shv := rfl
@[simp] theorem withDigests_stk (s t : State) : (withDigests s t).stk = t.stk := rfl
@[simp] theorem withDigests_fls (s t : State) : (withDigests s t).fls = t.fls := rfl
@[simp] theorem withDigests_fab (s t : State) : (withDigests s t).fab = t.fab := rfl
@[simp] theorem withDigests_rel (s t : State) : (withDigests s t).rel = t.rel := rfl
@[simp] theorem withDigests_recd (s t : State) : (withDigests s t).recd = t.recd := rfl
@[simp] theorem withDigests_pending (s t : State) : (withDigests s t).pending = t.pending := rfl

/-- A frame, part by part. -/
theorem frame_iff {ps : List StatePart} {s t : State} : Frame ps s t ↔
    (.aon ∉ ps → t.aon = s.aon) ∧ (.stew ∉ ps → t.stew = s.stew) ∧ (.hif ∉ ps → t.hif = s.hif) ∧ (.eng ∉ ps → t.eng = s.eng) ∧
    (.idx ∉ ps → t.idx = s.idx) ∧ (.obj ∉ ps → t.obj = s.obj) ∧ (.shv ∉ ps → t.shv = s.shv) ∧ (.stk ∉ ps → t.stk = s.stk) ∧
    (.fls ∉ ps → t.fls = s.fls) ∧ (.fab ∉ ps → t.fab = s.fab) ∧ (.rel ∉ ps → t.rel = s.rel) ∧ (.recd ∉ ps → t.recd = s.recd) ∧
    (.commands ∉ ps → t.pending = s.pending) := by
  constructor
  · intro h
    exact ⟨h .aon, h .stew, h .hif, h .eng, h .idx, h .obj, h .shv, h .stk, h .fls, h .fab, h .rel, h .recd, h .commands⟩
  · rintro ⟨_, _, _, _, _, _, _, _, _, _, _, _, _⟩ p
    cases p <;> assumption

@[simp] theorem frame_withDigests {ps : List StatePart} {s t u : State} : Frame ps s (withDigests u t) ↔ Frame ps s t :=
  frame_iff.trans frame_iff.symm

/-- A running node's command answers its outcome, with the writes digested. -/
theorem completes_of_up {c : Instr} {s : State} {r : Res} {claim : State → Prop} (hup : halted s = false)
    (hexec : exec c s = whileUp s r) (h : ∃ u, r = .next u ∧ claim (withDigests s u)) : Completes c s claim := by
  obtain ⟨u, rfl, hu⟩ := h
  exact completes_of_exec_eq_whileUp hup hexec hu

/-- The next state of a command that acts while the node runs. -/
theorem next_of_whileUp {s t : State} {r : Res} (h : whileUp s r = .next t) : t = s ∨ ∃ u, r = .next u ∧ t = withDigests s u := by
  unfold whileUp at h
  split at h
  · cases h; exact .inl rfl
  · cases r with
    | next u => cases h; exact .inr ⟨u, rfl, rfl⟩
    | fault _ => cases h
    | refused _ => cases h

theorem tabGetD_tabSet_same {α : Type} (t : Tab α) (i : Nat) (x d : α) : tabGetD (tabSet t i x) i d = x := by
  simp [tabGetD]

theorem tabGetD_tabSet_other {α : Type} (t : Tab α) {i j : Nat} (x d : α) (h : j ≠ i) : tabGetD (tabSet t i x) j d = tabGetD t j d := by
  simp [tabGetD, tabGet_tabSet_other _ _ _ _ h]

@[simp] theorem mbxOf_modMbx_same (b : Nat) (f : Mbx → Mbx) (s : State) : mbxOf (modMbx b f s) b = f (mbxOf s b) :=
  tabGetD_tabSet_same ..

theorem mbxOf_modMbx_other {b j : Nat} (f : Mbx → Mbx) (s : State) (h : j ≠ b) : mbxOf (modMbx b f s) j = mbxOf s j :=
  tabGetD_tabSet_other _ _ _ h

theorem mbxOf_congr {s t : State} (h : t.stew = s.stew) (b : Nat) : mbxOf t b = mbxOf s b := by
  rw [mbxOf, mbxOf, h]

theorem mem_setPut {l : List Nat} {i k : Nat} {on : Bool} : k ∈ setPut l i on ↔ (if k = i then on = true else k ∈ l) := by
  unfold setPut
  by_cases hk : k = i
  · subst hk; cases on <;> simp; split <;> simp_all
  · cases on <;> simp [hk]; split <;> simp [hk]

theorem contains_setPut (l : List Nat) (i k : Nat) (on : Bool) : (setPut l i on).contains k = if k = i then on else l.contains k := by
  rw [Bool.eq_iff_iff, List.contains_iff_mem, mem_setPut]
  split <;> simp

theorem contains_setPut_other {l : List Nat} {i k : Nat} (on : Bool) (h : k ≠ i) : (setPut l i on).contains k = l.contains k := by
  rw [contains_setPut, if_neg h]

end Sys2Proof.Proofs

/-! What a function of the host interface reaches (R299). -/

namespace Sys2Proof.Proofs
open Sys2Proof Sys2Proof.Machine Sys2Proof.Safety

set_option Elab.async false

/-- A doorbell reaches the queue pairs of its own function alone, where what it does with one of them leaves the others. -/
theorem tabGet_of_doorbell {fn index q : Nat} {p : Qp} {s t : State} {k : Nat → Qp → State → State}
    (hq : tabGet s.hif.qps q = some p) (hp : p.tenant ≠ fn) (hk : ∀ j x, j ≠ q → tabGet (k j x s).hif.qps q = tabGet s.hif.qps q)
    (h : doorbell fn index s k = .next t) : tabGet t.hif.qps q = some p := by
  cases h
  split
  · exact hq
  · split
    · exact hq
    · next j _ =>
      split
      · next x hx =>
        split
        · next htenant =>
          have hne : j ≠ q := by rintro rfl; cases hq.symm.trans hx; exact hp htenant
          exact (hk j x hne).trans hq
        · split <;> exact hq
      · split <;> exact hq

theorem tabGet_modQp_other {j q : Nat} (f : Qp → Qp) (s : State) (h : j ≠ q) :
    tabGet (modQp q f s).hif.qps j = tabGet s.hif.qps j :=
  tabGet_tabMod_other _ _ _ _ h

theorem sqTailDoorbell_keeps_others {fn index value q : Nat} {p : Qp} {s t : State} (hq : tabGet s.hif.qps q = some p)
    (hp : p.tenant ≠ fn) (h : exec (.sqTailDoorbell fn index value) s = .next t) : tabGet t.hif.qps q = some p := by
  obtain rfl | ⟨u, hu, rfl⟩ := next_of_whileUp h
  · exact hq
  · refine tabGet_of_doorbell (t := u) hq hp (fun j x hne => ?_) hu
    dsimp only
    split <;> simp [ignoreDoorbell, tabGet_modQp_other _ _ hne.symm]

theorem cqHeadDoorbell_keeps_others {fn index value q : Nat} {p : Qp} {s t : State} (hq : tabGet s.hif.qps q = some p)
    (hp : p.tenant ≠ fn) (h : exec (.cqHeadDoorbell fn index value) s = .next t) : tabGet t.hif.qps q = some p := by
  obtain rfl | ⟨u, hu, rfl⟩ := next_of_whileUp h
  · exact hq
  · refine tabGet_of_doorbell (t := u) hq hp (fun j x hne => ?_) hu
    dsimp only
    split <;> simp [ignoreDoorbell, tabGet_modQp_other _ _ hne.symm]

theorem mbxOf_mbxDiscard_other {b j : Nat} (s : State) (h : j ≠ b) : mbxOf (mbxDiscard b s) j = mbxOf s j :=
  (mbxOf_congr rfl j).trans (mbxOf_modMbx_other (fun m => { m with inDiscard := true }) s h)

theorem mbxOf_wakeEvent (s : State) (b : Nat) : mbxOf (wakeEvent s) b = mbxOf s b := by
  unfold wakeEvent
  split <;> rfl

theorem eq_of_ownPage {s : State} {fn box : Nat} (h : ownPage s fn box = true) : box = fn := by
  simp [ownPage] at h
  exact h.2.symm

/-- An access of a mailbox page that is down, or a view's, leaves every mailbox (R326, R330). -/
theorem next_of_pageGuards {a b c : Bool} {j : Nat} {s t u : State} {r : Res} (hu : mbxOf u j = mbxOf s j)
    (h : (if a then .next s else if b then .next (mbxAbort s) else if c then .next u else r) = .next t) :
    mbxOf t j = mbxOf s j ∨ r = .next t := by
  split at h
  · cases h; exact .inl rfl
  · split at h
    · cases h; exact .inl rfl
    · split at h
      · cases h; exact .inl hu
      · exact .inr h

theorem mbxWindowWrite_keeps_others {fn box off j : Nat} {b : Bytes} {s t : State} (hj : j ≠ fn)
    (h : exec (.mbxWindowWrite fn box off b) s = .next t) : mbxOf t j = mbxOf s j := by
  refine (next_of_pageGuards (s := s) (u := accessError s) rfl h).elim id fun hr => ?_
  split at hr
  · cases hr; rfl
  · next hown =>
    obtain rfl : box = fn := eq_of_ownPage (s := s) (by simp at hown; exact hown.1.1)
    split at hr
    · cases hr; exact mbxOf_mbxDiscard_other _ hj
    · cases hr; exact (mbxOf_modMbx_other _ _ hj).trans (mbxOf_congr (by simp) _)

theorem mbxDoorbellRing_keeps_others {fn box value j : Nat} {s t : State} (hj : j ≠ fn)
    (h : exec (.mbxDoorbellRing fn box value) s = .next t) : mbxOf t j = mbxOf s j := by
  refine (next_of_pageGuards (s := s) (u := accessError s) rfl h).elim id fun hr => ?_
  split at hr
  · cases hr; rfl
  · next hown =>
    obtain rfl : box = fn := eq_of_ownPage (s := s) (by simp at hown; exact hown.1)
    dsimp only at hr
    split at hr
    · cases hr; exact mbxOf_mbxDiscard_other _ hj
    · cases hr
      exact (mbxOf_wakeEvent ..).trans ((mbxOf_modMbx_other _ _ hj).trans (mbxOf_congr (by simp) _))

theorem mbxStatusClear_keeps_others {fn box value j : Nat} {s t : State} (hj : j ≠ fn)
    (h : exec (.mbxStatusClear fn box value) s = .next t) : mbxOf t j = mbxOf s j := by
  refine (next_of_pageGuards (s := s) (u := accessError s) rfl h).elim id fun hr => ?_
  split at hr
  · cases hr; rfl
  · next hown =>
    obtain rfl : box = fn := eq_of_ownPage (s := s) (by simpa using hown)
    cases hr; exact (mbxOf_modMbx_other _ _ hj).trans (mbxOf_congr (by simp) _)

theorem mbxReleaseRead_keeps_others {fn box j : Nat} {s t : State} (hj : j ≠ fn)
    (h : exec (.mbxReleaseRead fn box) s = .next t) : mbxOf t j = mbxOf s j := by
  refine (next_of_pageGuards (s := s) (u := s.onHif fun h => { h with readData := 0 }) rfl h).elim id fun hr => ?_
  split at hr
  · cases hr; rfl
  · next hown =>
    obtain rfl : box = fn := eq_of_ownPage (s := s) (by simpa using hown)
    dsimp only at hr
    split at hr
    · cases hr; exact mbxOf_congr (State.onHif_stew .. |>.trans (recordReg_stew ..)) _
    · cases hr; exact (mbxOf_modMbx_other _ _ hj).trans (mbxOf_congr (by simp) _)

/-- The vector of a table entry belongs to the entry's function. -/
theorem vector_ne {fn ent k : Nat} (hent : ent < if fn = 0 then 2048 else 64) (hk : k / 2048 ≠ fn) : k ≠ fn * 2048 + ent := by
  split at hent <;> omega

theorem sendMsi_keeps_other_vectors {fn ent k : Nat} (s : State) (hk : k ≠ fn * 2048 + ent) :
    vecMasked (sendMsi fn ent s) k = vecMasked s k ∧ (sendMsi fn ent s).hif.vecPend.contains k = s.hif.vecPend.contains k := by
  unfold sendMsi
  split
  · exact ⟨rfl, rfl⟩
  · split
    · simp [vecMasked, mem_setPut, hk]
    · exact ⟨rfl, rfl⟩

theorem msixEntryMask_keeps_others {fn ent k : Nat} {s t : State} (hk : k ≠ fn * 2048 + ent)
    (h : exec (.msixEntryMask fn ent) s = .next t) :
    vecMasked t k = vecMasked s k ∧ t.hif.vecPend.contains k = s.hif.vecPend.contains k := by
  obtain rfl | ⟨u, hu, rfl⟩ := next_of_whileUp h
  · exact ⟨rfl, rfl⟩
  · cases hu
    split
    · simp [vecMasked, mem_setPut, hk]
    · exact ⟨rfl, rfl⟩

theorem msixEntryUnmask_keeps_others {fn ent k : Nat} {s t : State} (hk : k ≠ fn * 2048 + ent)
    (h : exec (.msixEntryUnmask fn ent) s = .next t) :
    vecMasked t k = vecMasked s k ∧ t.hif.vecPend.contains k = s.hif.vecPend.contains k := by
  obtain rfl | ⟨u, hu, rfl⟩ := next_of_whileUp h
  · exact ⟨rfl, rfl⟩
  dsimp only at hu
  split at hu
  · cases hu
    split
    · obtain ⟨hm, hp⟩ := sendMsi_keeps_other_vectors (s.onHif fun h =>
        { h with vecOpen := setPut h.vecOpen (fn * 2048 + ent) true, vecPend := setPut h.vecPend (fn * 2048 + ent) false }) hk
      exact ⟨hm.trans (by simp [vecMasked, mem_setPut, hk]), hp.trans (by simp [mem_setPut, hk])⟩
    · simp [vecMasked, mem_setPut, hk]
  · cases hu
    exact ⟨rfl, rfl⟩

/-- Settles O10: a doorbell acts on a queue pair of its own function, a mailbox access on the page of its own function, and a
write of the MSI-X table on a vector of its own function. -/
theorem functionsReachOnlyTheirOwn : Obligations.FunctionsReachOnlyTheirOwn := by
  refine fun s t fn => ⟨fun index value q p hq hp h => ?doorbells, fun box off value b j hj h => ?mailboxes,
    fun ent k hent hk h => ?vectors⟩
  case doorbells =>
    exact h.elim (sqTailDoorbell_keeps_others hq hp) (cqHeadDoorbell_keeps_others hq hp)
  case mailboxes =>
    rcases h with h | h | h | h
    · exact mbxWindowWrite_keeps_others hj h
    · exact mbxDoorbellRing_keeps_others hj h
    · exact mbxStatusClear_keeps_others hj h
    · exact mbxReleaseRead_keeps_others hj h
  case vectors =>
    exact h.elim (msixEntryMask_keeps_others (vector_ne hent hk)) (msixEntryUnmask_keeps_others (vector_ne hent hk))

end Sys2Proof.Proofs

/-! Doorbells, the MSI-X table and the registers of a function (R301 to R304, R309 to R313, R321, R322). -/

namespace Sys2Proof.Proofs
open Sys2Proof Sys2Proof.Machine Sys2Proof.Safety

set_option Elab.async false

theorem recordInput_of_inactive {k i : Nat} {p : Bool} {b : Bytes} {s : State} (h : s.recd.active = false) :
    recordInput k i p b s = s := by
  simp [recordInput, h]

@[simp] theorem recordReg_hif (fn off v : Nat) (s : State) : (recordReg fn off v s).hif = s.hif := recordInput_hif ..
@[simp] theorem recordReg_aon (fn off v : Nat) (s : State) : (recordReg fn off v s).aon = s.aon := recordInput_aon ..

theorem frame_recordInput (k i : Nat) (p : Bool) (b : Bytes) (s : State) : Frame [.recd] s (recordInput k i p b s) :=
  (Effect.refl (w := false)).recordInput.frame

theorem frame_recordReg (fn off v : Nat) (s : State) : Frame [.recd] s (recordReg fn off v s) :=
  frame_recordInput 5 0 false _ s

theorem wakeEvent_stew_or (s : State) : (wakeEvent s).stew = s.stew ∨ (wakeEvent s).stew = { s.stew with wake := true } := by
  unfold wakeEvent
  split
  · exact .inr rfl
  · exact .inl rfl

/-- A doorbell of the queue pair's own function reaches it. -/
theorem doorbell_eq {fn index q : Nat} {p : Qp} {s : State} {k : Nat → Qp → State → State} (hfn : fnAnswers s fn = true)
    (hq : qpIndex s fn index = some q) (hp : tabGet s.hif.qps q = some p) (ht : p.tenant = fn) :
    doorbell fn index s k = .next (k q p s) := by
  simp [doorbell, hfn, hq, hp, ht]

/-- What a doorbell that is recorded and may wake the node leaves of the state, beside the queue pair it changes. -/
theorem doorbell_leaves {q k i : Nat} {b : Bytes} {p : Qp} {f : Qp → Qp} {s : State} (hp : tabGet s.hif.qps q = some p) :
    let t := withDigests s (modQp q f (wakeEvent (recordInput k i false b s)))
    tabGet t.hif.qps q = some (f p) ∧ OnlyQp q s t ∧ (s.recd.active = false → t.recd = s.recd) ∧
      (t.stew = s.stew ∨ t.stew = { s.stew with wake := true }) ∧ Frame [.hif, .stew, .recd] s t := by
  refine ⟨?_, ⟨fun j hj => ?_, ?_⟩, fun hr => ?_, ?_, ?_⟩
  · simp [modQp, hp]
  · simp [tabGet_modQp_other _ _ hj]
  · simp [modQp]
  · simp [recordInput_of_inactive hr]
  · simpa using wakeEvent_stew_or (recordInput k i false b s)
  · exact frame_withDigests.2 (Effect.refl (w := false)).recordInput.wakeEvent.modQp.frame

theorem completes_sqTailDoorbell {s : State} {fn index value q : Nat} {p : Qp} (hup : halted s = false)
    (hfn : fnAnswers s fn = true) (hq : qpIndex s fn index = some q) (hp : tabGet s.hif.qps q = some p) (ht : p.tenant = fn) :
    Completes (.sqTailDoorbell fn index value) s fun t =>
      tabGet t.hif.qps q = some (if p.qstate = .enabled ∧ value % 65536 < fld p.ctx 0x18 4
        then { p with sqTail := value % 65536 } else { p with dbInvalid := true }) ∧
      OnlyQp q s t ∧ (s.recd.active = false → t.recd = s.recd) ∧
      (t.stew = s.stew ∨ t.stew = { s.stew with wake := true }) ∧ Frame [.hif, .stew, .recd] s t := by
  refine completes_of_up hup rfl ⟨_, doorbell_eq hfn hq hp ht, ?_⟩
  by_cases hv : p.qstate = .enabled ∧ value % 65536 < fld p.ctx 0x18 4
  · rw [if_pos hv, if_pos (by simp only [Bool.and_eq_true, decide_eq_true_eq]; exact hv)]
    exact doorbell_leaves hp
  · rw [if_neg hv, if_neg (by simp only [Bool.and_eq_true, decide_eq_true_eq]; exact hv)]
    exact doorbell_leaves hp

theorem completes_cqHeadDoorbell {s : State} {fn index value q : Nat} {p : Qp} (hup : halted s = false)
    (hfn : fnAnswers s fn = true) (hq : qpIndex s fn index = some q) (hp : tabGet s.hif.qps q = some p) (ht : p.tenant = fn) :
    Completes (.cqHeadDoorbell fn index value) s fun t =>
      tabGet t.hif.qps q = some (
        if (p.qstate = .enabled ∨ p.qstate = .error) ∧ value % 65536 < fld p.ctx 0x1C 4 ∧
          1 ≤ (value % 65536 + fld p.ctx 0x1C 4 - p.cqHead) % fld p.ctx 0x1C 4 ∧
          (value % 65536 + fld p.ctx 0x1C 4 - p.cqHead) % fld p.ctx 0x1C 4 ≤ (p.cqTail + fld p.ctx 0x1C 4 - p.cqHead) % fld p.ctx 0x1C 4
        then { p with cqHead := value % 65536 } else { p with dbInvalid := true }) ∧
      OnlyQp q s t ∧ (s.recd.active = false → t.recd = s.recd) ∧
      (t.stew = s.stew ∨ t.stew = { s.stew with wake := true }) ∧ Frame [.hif, .stew, .recd] s t := by
  refine completes_of_up hup rfl ⟨_, doorbell_eq hfn hq hp ht, ?_⟩
  by_cases hv : (p.qstate = .enabled ∨ p.qstate = .error) ∧ value % 65536 < fld p.ctx 0x1C 4 ∧
      1 ≤ (value % 65536 + fld p.ctx 0x1C 4 - p.cqHead) % fld p.ctx 0x1C 4 ∧
      (value % 65536 + fld p.ctx 0x1C 4 - p.cqHead) % fld p.ctx 0x1C 4 ≤ (p.cqTail + fld p.ctx 0x1C 4 - p.cqHead) % fld p.ctx 0x1C 4
  · rw [if_pos hv, if_pos (by simp only [Bool.and_eq_true, Bool.or_eq_true, decide_eq_true_eq, and_assoc]; exact hv)]
    exact doorbell_leaves hp
  · rw [if_neg hv, if_neg (by simp only [Bool.and_eq_true, Bool.or_eq_true, decide_eq_true_eq, and_assoc]; exact hv)]
    exact doorbell_leaves hp

theorem completes_msixEntryMask {s : State} {fn ent : Nat} (hup : halted s = false) (hfn : fnAnswers s fn = true)
    (hent : ent < if fn = 0 then 2048 else 64) :
    Completes (.msixEntryMask fn ent) s fun t =>
      t.hif = { s.hif with vecOpen := t.hif.vecOpen } ∧
      (∀ k, vecMasked t k = (vecMasked s k || k == fn * 2048 + ent)) ∧ Frame [.hif] s t := by
  refine completes_of_up hup rfl ⟨_, rfl, ?_⟩
  have hent : ent < vecCount fn := hent
  refine ⟨by simp [hfn, hent], fun k => ?_, by simp [hfn, hent, frame_iff]⟩
  by_cases hk : k = fn * 2048 + ent <;> simp [hfn, hent, vecMasked, mem_setPut, hk]

/-- A message of an entry that is not masked leaves at once, where the entry has a slot (R322). -/
theorem sendMsi_of_unmasked {fn ent : Nat} {s : State} (hup : halted s = false) (hopen : vecMasked s (fn * 2048 + ent) = false) :
    sendMsi fn ent s = if (vecSlot s fn ent).isSome then s.onHif fun h => { h with msi := h.msi ++ [(fn, ent)] } else s := by
  unfold sendMsi
  cases vecSlot s fn ent <;> simp [hup, hopen]

theorem halted_congr {s t : State} (h : t.aon = s.aon) : halted t = halted s := by
  simp [halted, h]

/-- The state with an entry's mask bit and pending bit cleared (R322). -/
def unmasked (k : Nat) (s : State) : State :=
  s.onHif fun h => { h with vecOpen := setPut h.vecOpen k true, vecPend := setPut h.vecPend k false }

theorem vecMasked_unmasked (k j : Nat) (s : State) : vecMasked (unmasked k s) j = (vecMasked s j && j != k) := by
  by_cases hk : j = k <;> simp [unmasked, vecMasked, mem_setPut, hk]

theorem contains_vecPend_unmasked (k : Nat) (s : State) : (unmasked k s).hif.vecPend.contains k = false :=
  by simp [unmasked, mem_setPut]

theorem vecSlot_unmasked (k fn ent : Nat) (s : State) : vecSlot (unmasked k s) fn ent = vecSlot s fn ent := rfl

theorem completes_msixEntryUnmask {s : State} {fn ent : Nat} (hup : halted s = false) (hfn : fnAnswers s fn = true)
    (hent : ent < if fn = 0 then 2048 else 64) :
    Completes (.msixEntryUnmask fn ent) s fun t =>
      (∀ k, vecMasked t k = (vecMasked s k && k != fn * 2048 + ent)) ∧
      t.hif.vecPend.contains (fn * 2048 + ent) = false ∧
      t.hif.msi = s.hif.msi ++ (if s.hif.vecPend.contains (fn * 2048 + ent) && (vecSlot s fn ent).isSome then [(fn, ent)] else []) ∧
      Frame [.hif] s t := by
  have hent : ent < vecCount fn := hent
  have hopen : vecMasked (unmasked (fn * 2048 + ent) s) (fn * 2048 + ent) = false := by simp [vecMasked_unmasked]
  have hexec : exec (.msixEntryUnmask fn ent) s = whileUp s (.next (if s.hif.vecPend.contains (fn * 2048 + ent) then
      sendMsi fn ent (unmasked (fn * 2048 + ent) s) else unmasked (fn * 2048 + ent) s)) := by
    change execMsixEntryUnmask fn ent s = _
    rw [execMsixEntryUnmask, if_pos (by simp [hfn, hent])]
    rfl
  refine completes_of_up hup hexec ⟨_, rfl, ?_⟩
  rw [sendMsi_of_unmasked (s := unmasked (fn * 2048 + ent) s) hup hopen, vecSlot_unmasked]
  have hmask := fun k => vecMasked_unmasked (fn * 2048 + ent) k s
  have hpend := contains_vecPend_unmasked (fn * 2048 + ent) s
  have hframe : Frame [.hif] s (unmasked (fn * 2048 + ent) s) := (Effect.refl (w := false)).onHif.frame
  by_cases hp : s.hif.vecPend.contains (fn * 2048 + ent) = true
  · by_cases hs : (vecSlot s fn ent).isSome = true
    · rw [if_pos hp, if_pos hs, hp, hs]
      exact ⟨hmask, hpend, rfl, frame_withDigests.2 (Effect.refl (w := false)).onHif.onHif.frame⟩
    · rw [if_pos hp, if_neg hs, if_neg (by simp [hs])]
      exact ⟨hmask, hpend, (List.append_nil _).symm, frame_withDigests.2 hframe⟩
  · rw [if_neg hp, if_neg (fun h => hp (Bool.and_eq_true_iff.1 h).1)]
    exact ⟨hmask, hpend, (List.append_nil _).symm, frame_withDigests.2 hframe⟩

theorem completes_faultCauseClear {s : State} {v : Nat} (hup : halted s = false) (hfn : fnAnswers s 0 = true) :
    Completes (.faultCauseClear v) s fun t =>
      t.aon = { s.aon with
        faultCause := (s.aon.faultCause &&& ~~~(BitVec.ofNat 64 v)) ||| (s.aon.faultCause &&& s.aon.faultPresent) } ∧
      (s.recd.active = false → t.recd = s.recd) ∧ Frame [.aon, .recd] s t := by
  refine completes_of_up hup rfl ⟨_, rfl, ?_⟩
  rw [if_neg (by simp [hfn])]
  exact ⟨by simp, fun hr => by simp [recordReg, recordInput_of_inactive hr], by simp [frame_iff, recordReg]⟩

theorem completes_queueErrorClear {s : State} {reg v : Nat} (hup : halted s = false) (hfn : fnAnswers s 0 = true) (hreg : reg < 64) :
    Completes (.queueErrorClear reg v) s fun t =>
      t.hif = { s.hif with qError := t.hif.qError } ∧
      (∀ q, t.hif.qError.contains q = (s.hif.qError.contains q && !(q / 64 == reg && v.testBit (q % 64)))) ∧
      Frame [.hif, .recd] s t := by
  refine completes_of_up hup rfl ⟨_, (if_neg (by simp [hfn])).trans (if_neg (by omega)), by simp, fun q => ?_, ?_⟩
  · rw [Bool.eq_iff_iff]
    simp
  · simp [frame_iff, recordReg]

theorem completes_queueStatusClear {s : State} {fn index v q : Nat} {p : Qp} (hup : halted s = false)
    (hfn : fnAnswers s fn = true) (hq : qpIndex s fn index = some q) (hp : tabGet s.hif.qps q = some p) :
    Completes (.queueStatusClear fn index v) s fun t =>
      tabGet t.hif.qps q = some { p with
        dbInvalid := p.dbInvalid && !v.testBit 2, hostAccess := p.hostAccess && !v.testBit 3 } ∧
      OnlyQp q s t ∧ Frame [.hif, .recd] s t := by
  refine completes_of_up hup rfl ⟨_, (if_neg (by simp [hfn])).trans (by rw [hq]), ?_, ⟨fun j hj => ?_, ?_⟩, ?_⟩
  · simp [modQp, hp]
  · simp [tabGet_modQp_other _ _ hj]
  · simp [modQp]
  · simp [frame_iff, recordReg]

theorem completes_registerLowHalfRead {s : State} {fn off v : Nat} (hup : halted s = false) (hfn : fnAnswers s fn = true)
    (hpage : (mbxOffset fn off && stewardDown s) = false) (hoff : off % 8 = 0) (hv : regValue s fn off = some v) :
    Completes (.registerLowHalfRead fn off) s fun t =>
      t.hif.readData = v % 2 ^ 32 ∧ tabGet t.hif.latch fn = some (v / 2 ^ 32) ∧
      t.hif = { s.hif with readData := t.hif.readData, latch := t.hif.latch } ∧ Frame [.hif] s t :=
  completes_of_exec_eq_whileUp hup (exec_registerLowHalfRead hfn hpage hoff hv) ⟨rfl, tabGet_tabSet_same .., rfl, by simp [frame_iff]⟩

/-- While island 1 is held in reset, an access of a mailbox page is answered by its abort alone (R330). -/
theorem completes_registerLowHalfRead_down {s : State} {fn off : Nat} (hup : halted s = false) (hfn : fnAnswers s fn = true)
    (hpage : mbxOffset fn off = true) (hdown : stewardDown s = true) :
    Completes (.registerLowHalfRead fn off) s fun t => t.hif = { s.hif with readData := 2 ^ 64 - 1 } ∧ Frame [.hif, .rel] s t :=
  completes_of_up hup rfl ⟨_, (if_neg (by simp [hfn])).trans (if_pos (by simp [hpage, hdown])), by simp [mbxAbort],
    by simp [frame_iff, mbxAbort]⟩

theorem completes_registerWriteOther_down {s : State} {fn off width v : Nat} (hup : halted s = false) (hfn : fnAnswers s fn = true)
    (hpage : mbxOffset fn off = true) (hdown : stewardDown s = true) :
    Completes (.registerWriteOther fn off width v) s fun t => t.stew = s.stew ∧ Frame [.hif, .rel] s t :=
  completes_of_up hup rfl ⟨_, (if_neg (by simp [hfn])).trans (if_pos (by simp [hpage, hdown])), by simp [mbxAbort],
    by simp [frame_iff, mbxAbort]⟩

theorem completes_registerWriteOther_bad {s : State} {fn off width v : Nat} (hup : halted s = false) (hfn : fnAnswers s fn = true)
    (hpage : (mbxOffset fn off && stewardDown s) = false)
    (hbad : ¬(width = 4 ∨ width = 8) ∨ off % width ≠ 0 ∨ regValue s fn (off / 8 * 8) = none) :
    Completes (.registerWriteOther fn off width v) s fun t =>
      t.hif = { s.hif with accessErr := s.hif.accessErr + 1 } ∧ Frame [.hif] s t := by
  refine completes_of_up hup rfl ⟨accessError s, ?_, rfl, by simp [frame_iff, accessError]⟩
  rw [if_neg (by simp [hfn]), if_neg (by simp [hpage]), if_neg]
  rcases hbad with h | h | h <;> simp [h]

theorem completes_registerWriteOther {s : State} {fn off width v x : Nat} (hup : halted s = false) (hfn : fnAnswers s fn = true)
    (hpage : (mbxOffset fn off && stewardDown s) = false) (hwidth : width = 4 ∨ width = 8) (hoff : off % width = 0)
    (hx : regValue s fn (off / 8 * 8) = some x) (hno : msixIndex fn off = none) :
    Completes (.registerWriteOther fn off width v) s fun t => Frame [.recd] s t :=
  completes_of_exec_eq_whileUp hup (exec_registerWriteOther hfn hpage hwidth hoff hx)
    (frame_withDigests.2 (by rw [writeMsix, hno]; exact frame_recordReg fn off v s))

theorem completes_registerWriteOther_msix {s : State} {fn off width v x i : Nat} (hup : halted s = false)
    (hfn : fnAnswers s fn = true) (hpage : (mbxOffset fn off && stewardDown s) = false) (hwidth : width = 4 ∨ width = 8)
    (hoff : off % width = 0) (hx : regValue s fn (off / 8 * 8) = some x) (hi : msixIndex fn off = some i) :
    Completes (.registerWriteOther fn off width v) s fun t =>
      tabGet t.hif.msixTab (fn * 4096 + i) = some (
        if width = 8 then v % 2 ^ 64
        else if off % 8 = 0 then tabGetD s.hif.msixTab (fn * 4096 + i) 0 / 2 ^ 32 * 2 ^ 32 + v % 2 ^ 32
        else tabGetD s.hif.msixTab (fn * 4096 + i) 0 % 2 ^ 32 + v % 2 ^ 32 * 2 ^ 32) ∧
      (∀ k, k ≠ fn * 4096 + i → tabGet t.hif.msixTab k = tabGet s.hif.msixTab k) ∧
      t.hif = { s.hif with msixTab := t.hif.msixTab } ∧ Frame [.hif, .recd] s t := by
  refine completes_of_exec_eq_whileUp hup (exec_registerWriteOther hfn hpage hwidth hoff hx) ?_
  simp only [writeMsix, hi]
  refine ⟨?_, fun k hk => ?_, ?_, ?_⟩
  · simp
  · simp [tabGet_tabSet_other _ _ _ _ hk]
  · simp
  · simp [frame_iff, recordReg]

/-- Settles O15: each clause is what its command completes with. -/
theorem doorbellsVectorsAndRegistersAnswer : Obligations.DoorbellsVectorsAndRegistersAnswer :=
  ⟨fun _ _ _ _ _ _ hup hfn hq hp ht => ⟨completes_sqTailDoorbell hup hfn hq hp ht, completes_cqHeadDoorbell hup hfn hq hp ht⟩,
   fun _ _ _ hup hfn hent => ⟨completes_msixEntryMask hup hfn hent, completes_msixEntryUnmask hup hfn hent⟩,
   fun _ _ hup hfn => completes_faultCauseClear hup hfn,
   fun _ _ _ hup hfn hreg => completes_queueErrorClear hup hfn hreg,
   fun _ _ _ _ _ _ hup hfn hq hp => completes_queueStatusClear hup hfn hq hp,
   fun _ _ _ _ hup hfn hpage hoff hv => completes_registerLowHalfRead hup hfn hpage hoff hv,
   fun _ _ _ hup hfn hpage hdown => ⟨completes_registerLowHalfRead_down hup hfn hpage hdown,
     fun _ _ => completes_registerWriteOther_down hup hfn hpage hdown⟩,
   fun _ _ _ _ _ hup hfn hpage hbad => completes_registerWriteOther_bad hup hfn hpage hbad,
   fun _ _ _ _ _ _ hup hfn hpage hwidth hoff hx => ⟨completes_registerWriteOther hup hfn hpage hwidth hoff hx,
     fun _ hi => completes_registerWriteOther_msix hup hfn hpage hwidth hoff hx hi⟩⟩

end Sys2Proof.Proofs

/-! What the end of commands leaves of the host interface: queue pairs keep what the host set up, and a queue that is stopped
stays stopped (R57, R317 to R320). -/

namespace Sys2Proof.Proofs
open Sys2Proof Sys2Proof.Machine Sys2Proof.Safety

set_option Elab.async false

/-- What may become of a queue pair as commands end: its completions move on, and a queue that is being deleted may end. -/
structure QpStep (p p' : Qp) : Prop where
  same : p'.tenant = p.tenant ∧ p'.ctx = p.ctx ∧ p'.sqHead = p.sqHead ∧ p'.sqTail = p.sqTail ∧ p'.hostAccess = p.hostAccess
  stays : p.deleting = false → p'.deleting = false ∧ p'.qstate = p.qstate ∧ p'.fetched = p.fetched
  ends : p.qstate = .disabled → p.fetched = [] → p'.qstate = .disabled ∧ p'.fetched = []
  still : p.deleting = false → p.qstate = .timedOut → p.staged = [] → p'.staged = []

theorem QpStep.refl (p : Qp) : QpStep p p := ⟨⟨rfl, rfl, rfl, rfl, rfl⟩, fun h => ⟨h, rfl, rfl⟩, fun h g => ⟨h, g⟩, fun _ _ h => h⟩

theorem QpStep.trans {p q r : Qp} (h : QpStep p q) (g : QpStep q r) : QpStep p r where
  same := by
    obtain ⟨h1, h2, h3, h4, h5⟩ := h.same
    obtain ⟨g1, g2, g3, g4, g5⟩ := g.same
    exact ⟨g1.trans h1, g2.trans h2, g3.trans h3, g4.trans h4, g5.trans h5⟩
  stays hd := by
    obtain ⟨h1, h2, h3⟩ := h.stays hd
    obtain ⟨g1, g2, g3⟩ := g.stays h1
    exact ⟨g1, g2.trans h2, g3.trans h3⟩
  ends hq hf := by
    obtain ⟨h1, h2⟩ := h.ends hq hf
    exact g.ends h1 h2
  still hd hq hs := by
    obtain ⟨h1, h2, -⟩ := h.stays hd
    exact g.still h1 (h2.trans hq) (h.still hd hq hs)

/-- Commands end: beside queue pairs and commands only what is written to the host, messages and pending vectors may change. -/
structure HostSteady (s t : State) : Prop where
  qps : ∀ q, QpStep (qpOf s q) (qpOf t q)
  rest : t.hif = { s.hif with
    qps := t.hif.qps, out := t.hif.out, msi := t.hif.msi, vecPend := t.hif.vecPend, cmds := t.hif.cmds }
  aon : t.aon = s.aon
  epoch : t.eng.epoch = s.eng.epoch

theorem qpOf_congr {s t : State} (h : t.hif = s.hif) (q : Nat) : qpOf t q = qpOf s q := by
  rw [qpOf, qpOf, h]

theorem qpOf_of_tabGet {s : State} {q : Nat} {p : Qp} (h : tabGet s.hif.qps q = some p) : qpOf s q = p := by
  simp [qpOf, tabGetD, h]

theorem qpOf_modQp_other {q j : Nat} (f : Qp → Qp) (s : State) (h : j ≠ q) : qpOf (modQp q f s) j = qpOf s j := by
  simp [qpOf, tabGetD, tabGet_modQp_other _ _ h]

/-- A change of a queue pair changes it, where there is one. -/
theorem qpOf_modQp_same (q : Nat) (f : Qp → Qp) (s : State) :
    qpOf (modQp q f s) q = f (qpOf s q) ∨ qpOf (modQp q f s) q = qpOf s q := by
  cases h : tabGet s.hif.qps q with
  | none => exact .inr (by simp [qpOf, tabGetD, modQp, h])
  | some p => exact .inl (by simp [qpOf, tabGetD, modQp, h])

theorem tabGet_modQp_of_some {q : Nat} {p : Qp} {s : State} (f : Qp → Qp) (h : tabGet s.hif.qps q = some p) :
    tabGet (modQp q f s).hif.qps q = some (f p) := by
  simp [modQp, h]

namespace HostSteady
variable {s t u : State}

theorem refl : HostSteady s s := ⟨fun q => .refl _, rfl, rfl, rfl⟩

theorem trans (h : HostSteady s t) (g : HostSteady t u) : HostSteady s u where
  qps q := (h.qps q).trans (g.qps q)
  rest := by rw [g.rest, h.rest]
  aon := g.aon.trans h.aon
  epoch := g.epoch.trans h.epoch

theorem of_hif (h : HostSteady s t) (hh : u.hif = t.hif) (ha : u.aon = t.aon) (he : u.eng.epoch = t.eng.epoch) : HostSteady s u :=
  h.trans ⟨fun q => qpOf_congr hh q ▸ .refl _, by rw [hh], ha, he⟩

/-- What leaves the host interface, the power domain and the engine leaves all of it. -/
theorem of_frame {ps : List StatePart} (h : HostSteady s t) (hf : Frame ps t u) (hps : .hif ∉ ps ∧ .aon ∉ ps ∧ .eng ∉ ps := by decide) :
    HostSteady s u :=
  h.of_hif (hf .hif hps.1) (hf .aon hps.2.1) (congrArg Eng.epoch (hf .eng hps.2.2))

theorem onEng {f} (h : HostSteady s t) (he : (f t.eng).epoch = t.eng.epoch := by rfl) : HostSteady s (t.onEng f) :=
  h.of_hif rfl rfl he

theorem onStew {f} (h : HostSteady s t) : HostSteady s (t.onStew f) := h.of_hif rfl rfl rfl

theorem onShv {f} (h : HostSteady s t) : HostSteady s (t.onShv f) := h.of_hif rfl rfl rfl

/-- A change of what is written to the host, of its messages, pending vectors or commands. -/
theorem onHif {f} (h : HostSteady s t) (hr : f t.hif = { t.hif with
      out := (f t.hif).out, msi := (f t.hif).msi, vecPend := (f t.hif).vecPend, cmds := (f t.hif).cmds } := by rfl) :
    HostSteady s (t.onHif f) :=
  h.trans {
    qps := fun q => by
      have hq : (f t.hif).qps = t.hif.qps := by rw [hr]
      rw [qpOf, qpOf, State.onHif_hif, hq]
      exact .refl _
    rest := by rw [State.onHif_hif, hr]
    aon := rfl, epoch := rfl }

theorem modQp {q f} (h : HostSteady s t) (hf : QpStep (qpOf t q) (f (qpOf t q))) : HostSteady s (modQp q f t) :=
  h.trans {
    qps := fun j => by
      by_cases hj : j = q
      · subst hj
        obtain he | he := qpOf_modQp_same j f t
        · rw [he]; exact hf
        · rw [he]; exact .refl _
      · rw [qpOf_modQp_other _ _ hj]; exact .refl _
    rest := rfl, aon := rfl, epoch := rfl }

theorem foldl {α : Type} {f : State → α → State} {l : List α} (h : HostSteady s t)
    (hf : ∀ t a, HostSteady s t → HostSteady s (f t a)) : HostSteady s (l.foldl f t) := by
  induction l generalizing t with
  | nil => exact h
  | cons a l ih => exact ih (hf t a h)

theorem ite {c : Prop} [Decidable c] (h : HostSteady s t) (g : HostSteady s u) : HostSteady s (if c then t else u) := by
  split
  · exact h
  · exact g

theorem modCmd {n f} (h : HostSteady s t) : HostSteady s (modCmd n f t) := h.onHif

theorem sendMsi {fn ent} (h : HostSteady s t) : HostSteady s (sendMsi fn ent t) := by
  unfold Machine.sendMsi
  exact ite h (ite h.onHif h.onHif)

theorem hostWrite {fn addr b ep} (h : HostSteady s t) : HostSteady s (hostWrite fn addr b ep t) :=
  ite h h.onHif

theorem freeStaging {b} (h : HostSteady s t) : HostSteady s (freeStaging b t) :=
  h.of_frame (ps := [.shv]) (Effect.refl (w := false)).freeStaging.frame

theorem signalCq {q} (h : HostSteady s t) : HostSteady s (signalCq q t) :=
  h.sendMsi.modQp ⟨⟨rfl, rfl, rfl, rfl, rfl⟩, fun h => ⟨h, rfl, rfl⟩, fun h g => ⟨h, g⟩, fun _ _ h => h⟩

theorem writeCompl {q c} (h : HostSteady s t) : HostSteady s (writeCompl q c t) := by
  unfold Machine.writeCompl
  extract_lets p n s1 s2 tl s3
  have h3 : HostSteady s s3 := by
    refine (h.foldl fun _ _ h => h.hostWrite).hostWrite.modQp ?_
    exact ⟨⟨rfl, rfl, rfl, rfl, rfl⟩, fun h => ⟨h, rfl, rfl⟩, fun h g => ⟨h, g⟩, fun _ _ h => h⟩
  exact ite h3.signalCq h3

/-- Waiting completions leave a queue one after another, which a queue that timed out has none of. -/
theorem drainGo {k q} (h : HostSteady s t) : HostSteady s (drainGo k q t) := by
  induction k generalizing t with
  | zero => exact h
  | succ k ih =>
    unfold Machine.drainGo
    split
    · exact h
    · next c cs hc =>
      refine ite (ih ?_) h
      refine (h.modQp ?_).writeCompl.freeStaging
      exact ⟨⟨rfl, rfl, rfl, rfl, rfl⟩, fun h => ⟨h, rfl, rfl⟩, fun h g => ⟨h, g⟩, fun _ _ hs => absurd (hc.symm.trans hs) (by simp)⟩

theorem noteWait {q} (h : HostSteady s t) : HostSteady s (noteWait q t) := by
  refine h.modQp ⟨⟨rfl, rfl, rfl, rfl, rfl⟩, fun h => ⟨h, rfl, rfl⟩, fun h g => ⟨h, g⟩, fun _ _ hs => ?_⟩
  dsimp only
  rw [hs]
  rfl

theorem drainCq {q} (h : HostSteady s t) : HostSteady s (drainCq q t) := h.drainGo.noteWait

theorem postCompl {q c} (h : HostSteady s t) : HostSteady s (postCompl q c t) := by
  have append (hq : (qpOf t q).qstate = .enabled ∨ (qpOf t q).qstate = .error) :
      HostSteady s (Machine.modQp q (fun p => { p with staged := p.staged ++ [c] }) t) :=
    h.modQp ⟨⟨rfl, rfl, rfl, rfl, rfl⟩, fun h => ⟨h, rfl, rfl⟩, fun h g => ⟨h, g⟩,
      fun _ hs => by rcases hq with hq | hq <;> exact absurd (hq.symm.trans hs) (by decide)⟩
  unfold Machine.postCompl
  split
  · next hq => exact (append (.inl hq)).drainCq
  · next hq => exact (append (.inr hq)).drainCq
  · exact h.freeStaging

theorem zRespond {box status detail body} (h : HostSteady s t) : HostSteady s (zRespond box status detail body t) :=
  h.of_frame (ps := [.stew]) (Effect.refl (w := false)).zRespond.frame

/-- The queue that is being deleted ends DISABLED (R320). -/
theorem checkDelete {q} (h : HostSteady s t) : HostSteady s (checkDelete q t) := by
  unfold Machine.checkDelete
  extract_lets p
  split
  · next hd =>
    have hdel : (qpOf t q).deleting = true := by simp at hd; exact hd.1.1.1
    have ended : HostSteady s (Machine.modQp q
        (fun p => { p with deleting := false, qstate := .disabled, fetched := [], wait := false }) t) :=
      h.modQp ⟨⟨rfl, rfl, rfl, rfl, rfl⟩, fun h => absurd (hdel.symm.trans h) (by decide), fun _ _ => ⟨rfl, rfl⟩,
        fun h => absurd (hdel.symm.trans h) (by decide)⟩
    split
    · exact ended.zRespond
    · exact ended
  · exact h

theorem unbindEpoch {e} (h : HostSteady s t) : HostSteady s (unbindEpoch e t) := by
  unfold Machine.unbindEpoch
  split
  · exact h
  · exact h.onEng

theorem releaseLocks {husk id} (h : HostSteady s t) : HostSteady s (releaseLocks husk id t) := h.onEng

theorem dropPin {k} (h : HostSteady s t) : HostSteady s (dropPin k t) := h.of_frame (ps := [.obj]) (Effect.refl (w := false)).dropPin.frame

theorem endCmd {n} (h : HostSteady s t) : HostSteady s (endCmd n t) := by
  unfold Machine.endCmd
  split
  · exact h
  · exact checkDelete (onHif (h.releaseLocks.unbindEpoch.foldl fun _ _ h => h.dropPin))

theorem finishCmd {n r} (h : HostSteady s t) : HostSteady s (finishCmd n r t) := by
  unfold Machine.finishCmd
  split
  · exact h
  · exact endCmd (ite h h.postCompl)

theorem failCmd {n st} (h : HostSteady s t) : HostSteady s (failCmd n st t) := h.finishCmd

theorem endHusk {id} (h : HostSteady s t) : HostSteady s (endHusk id t) := by
  unfold Machine.endHusk
  split
  · exact h
  · exact ite (h.releaseLocks.foldl fun _ _ h => h.dropPin).onEng
      ((h.releaseLocks.foldl fun _ _ h => h.dropPin).onEng.of_frame (ps := [.obj]) (Effect.refl (w := true)).removeObject.frame)

theorem failHusk {id f} (h : HostSteady s t) : HostSteady s (failHusk id f t) := by
  unfold Machine.failHusk
  split
  · exact h
  · extract_lets ins s1
    have h1 : HostSteady s s1 := h.endHusk
    split
    · exact h1.finishCmd
    · exact zRespond (onStew h1)
    · exact h1.of_frame (ps := [.stew, .idx]) (Effect.refl (w := false)).endRebuild.frame
    · exact h1

theorem dropUnstarted {n} (h : HostSteady s t) : HostSteady s (dropUnstarted n t) := by
  unfold Machine.dropUnstarted
  split
  · exact h
  · extract_lets mine gone s1 left
    have h1 : HostSteady s s1 := h.onShv
    exact (ite h1.endCmd h1.modCmd).of_frame (ps := [.shv]) (Effect.refl (w := false)).discardReads.frame

theorem stopCmd {n} (h : HostSteady s t) : HostSteady s (stopCmd n t) := by
  unfold Machine.stopCmd
  dsimp only
  split
  · exact ite h.modCmd.failHusk h.modCmd
  · split
    · exact ite h.modCmd.dropUnstarted h.modCmd
    · exact h.modCmd

end HostSteady

end Sys2Proof.Proofs

/-! Fetched entries, admission and completions of queues (R31, R57, R314, R318 to R322). -/

namespace Sys2Proof.Proofs
open Sys2Proof Sys2Proof.Machine Sys2Proof.Safety

set_option Elab.async false

namespace HostSteady
variable {s t u : State}

theorem modObj {i f} (h : HostSteady s t) : HostSteady s (modObj i f t) := h.of_hif rfl rfl rfl

theorem failPromotion {i} (h : HostSteady s t) : HostSteady s (failPromotion i t) := by
  unfold Machine.failPromotion
  split
  · exact h
  · exact h.modObj.foldl fun _ _ h => h.finishCmd

theorem topUpAt {i tier code} (h : HostSteady s t) : HostSteady s (topUpAt i tier code t) := by
  unfold Machine.topUpAt
  extract_lets place excess above cand pick s1
  have h1 : HostSteady s s1 := h.foldl fun _ _ h => h.of_frame (ps := [.obj, .recd]) (Effect.refl (w := false)).evictChoice.frame
  refine ite h (ite h1 ?_)
  split
  · exact h1.failPromotion
  · exact h1

theorem cancelEvict {i} (h : HostSteady s t) : HostSteady s (cancelEvict i t) := by
  unfold Machine.cancelEvict
  split
  · exact h
  · exact ite h (topUpAt (ite (topUpAt (h.modObj.foldl fun _ _ h => h.finishCmd)) (h.modObj.foldl fun _ _ h => h.finishCmd)))

theorem pinObj {i} (h : HostSteady s t) : HostSteady s (pinObj i t).2 := h.cancelEvict.modObj

theorem of_token {c i j w v} (h : HostSteady s t) : HostSteady s (token c i j w v t) :=
  h.of_hif (by simp) (by simp) (by simp)

end HostSteady

theorem completes_sqEntryFetch {s : State} {q : Nat} {entry : Bytes} {p : Qp} (hup : halted s = false)
    (hp : tabGet s.hif.qps q = some p) (hstate : p.qstate = .enabled) (hdel : p.deleting = false) (hne : p.sqHead ≠ p.sqTail) :
    Completes (.sqEntryFetch q entry) s fun t =>
      tabGet t.hif.qps q = some { p with
        sqHead := (p.sqHead + 1) % fld p.ctx 0x18 4,
        fetched := p.fetched ++ [{ slot := p.sqHead, entry := slice entry 0 64, since := s.aon.uptime }] } ∧
      OnlyQp q s t ∧ (s.recd.active = false → t.recd = s.recd) ∧ Frame [.hif, .recd] s t := by
  have hq := qpOf_of_tabGet hp
  refine completes_of_up hup rfl ⟨_, if_neg (by simp [hq, hstate, hdel, hne]), ?_, ⟨fun j hj => ?_, ?_⟩, fun hr => ?_, ?_⟩
  · exact tabGet_modQp_of_some _ (by simpa using hp)
  · simp [tabGet_modQp_other _ _ hj]
  · simp [modQp]
  · simp [recordInput_of_inactive hr]
  · simp [frame_iff]

/-! Admission (R31, R314). -/

/-- A command that admission lets go has entered the node under the next number, and its entry has left the queue. -/
def Entered (q : Nat) (fs : List Fetched) (c : Cmd) (s t : State) : Prop :=
  (∃ c', cmdOf t s.hif.nextCmd = some c' ∧ c'.entry = c.entry ∧ c'.opcode = c.opcode ∧ c'.epoch = c.epoch ∧ c'.ran = c.ran) ∧
  t.hif.nextCmd = s.hif.nextCmd + 1 ∧ (qpOf t q).fetched = fs ∧ t.eng.epoch = s.eng.epoch

@[simp] theorem bucketCharge_hif (row i n : Nat) (s : State) : (bucketCharge row i n s).hif = s.hif :=
  (Effect.refl (ps := [.fab]) (w := false)).bucketCharge.frame .hif (by decide)

@[simp] theorem bucketCharge_eng (row i n : Nat) (s : State) : (bucketCharge row i n s).eng = s.eng :=
  (Effect.refl (ps := [.fab]) (w := false)).bucketCharge.frame .eng (by decide)

theorem HostSteady.foldlPins {s : State} {pins : List Nat} {a : List Nat × State} (h : HostSteady s a.2) :
    HostSteady s (pins.foldl (fun (a : List Nat × State) i => let r := Machine.pinObj i a.2; (a.1 ++ [r.1], r.2)) a).2 := by
  induction pins generalizing a with
  | nil => exact h
  | cons i pins ih => exact ih h.pinObj

theorem fetched_modQp {q j : Nat} {f : Qp → Qp} (s : State) (hf : ∀ p, (f p).fetched = p.fetched) :
    (qpOf (modQp j f s) q).fetched = (qpOf s q).fetched := by
  by_cases hj : q = j
  · subst hj
    obtain h | h := qpOf_modQp_same q f s <;> rw [h]
    exact hf _
  · rw [qpOf_modQp_other _ _ hj]

/-- The command's entry into the table, after what its pins and locks did. -/
theorem entered_of_steady {q j : Nat} {fs : List Fetched} {c c' : Cmd} {f : Qp → Qp} {s x : State} (h : HostSteady s x)
    (hfs : (qpOf s q).fetched = fs) (hdel : (qpOf s q).deleting = false)
    (hc : c'.entry = c.entry ∧ c'.opcode = c.opcode ∧ c'.epoch = c.epoch ∧ c'.ran = c.ran) (hf : ∀ p, (f p).fetched = p.fetched) :
    Entered q fs c s (modQp j f (x.onHif fun h => { h with
      nextCmd := s.hif.nextCmd + 1, cmds := tabSet h.cmds s.hif.nextCmd c' })) :=
  ⟨⟨c', tabGet_tabSet_same .., hc⟩, rfl, (fetched_modQp _ hf).trans (((h.qps q).stays hdel).2.2.trans hfs), h.epoch⟩

theorem entered_enterCmd {q : Nat} {fs : List Fetched} {c : Cmd} {rs : List Range} {pins : List Nat} {s : State}
    (hfs : (qpOf s q).fetched = fs) (hdel : (qpOf s q).deleting = false) : Entered q fs c s (enterCmd c rs pins s) := by
  unfold enterCmd
  have h1 : HostSteady s (match c.epoch with | some e => bindEpoch e s | none => s) := by
    split
    · exact HostSteady.refl.onEng
    · exact .refl
  have h2 := h1.foldlPins (a := ([], _)) (pins := pins)
  exact entered_of_steady (HostSteady.ite h2.onEng h2.onEng.of_token).onEng hfs hdel ⟨rfl, rfl, rfl, rfl⟩ fun _ => rfl

/-- An entry that admission lets go enters the node from its queue's head. -/
theorem entered_admitHead {q : Nat} {p : Qp} {f : Fetched} {fs : List Fetched} {c : Cmd} {rs : List Range} {pins : List Nat}
    {s : State} (hp : tabGet s.hif.qps q = some p) (hfetched : p.fetched = f :: fs) (hdel : p.deleting = false)
    (hgo : admitCheck s q f.entry = .go c rs pins) : Entered q fs c s (admitHead q s) := by
  have hq := qpOf_of_tabGet hp
  unfold admitHead
  rw [hq, hfetched]
  dsimp only
  rw [hgo]
  dsimp only
  generalize hx : bucketCharge 1 q 1 _ = x
  have hif : x.hif.nextCmd = s.hif.nextCmd ∧ x.eng.epoch = s.eng.epoch ∧ (qpOf x q).fetched = fs ∧ (qpOf x q).deleting = false := by
    subst hx
    simp [qpOf, tabGetD, modQp, hp, hdel, endWaiter]
  obtain ⟨hn, he, hfs, hd⟩ := hif
  have h := entered_enterCmd (c := c) (rs := rs) (pins := pins) hfs hd
  unfold Entered at h ⊢
  rwa [hn, he] at h

theorem deleting_of_queueReady {s : State} {q : Nat} (h : queueReady s q = true) : (qpOf s q).deleting = false := by
  simp [queueReady] at h
  exact h.1.1.1.2

theorem mem_of_foldl_pick {l : List Nat} {f : Option Nat → Nat → Option Nat} (hf : ∀ b q, f b q = b ∨ f b q = some q)
    {b : Option Nat} {q : Nat} (h : l.foldl f b = some q) : b = some q ∨ q ∈ l := by
  induction l generalizing b with
  | nil => exact .inl h
  | cons a l ih =>
    obtain h' | h' := ih h
    · obtain hb | hb := hf b a
      · exact .inl (hb.symm.trans h')
      · exact .inr (by simp [Option.some.inj (hb.symm.trans h')])
    · exact .inr (List.mem_cons_of_mem a h')

/-- The queue whose turn it is is ready. -/
theorem queueReady_of_nextQueue {s : State} {q : Nat} (h : nextQueue s = some q) : queueReady s q = true := by
  unfold nextQueue at h
  dsimp only at h
  split at h
  · next u hu =>
    cases h
    have := List.find?_some hu
    simp at this
    exact this.2.2
  · have pick := mem_of_foldl_pick (fun b q => by split <;> [exact .inr rfl; (split <;> [exact .inr rfl; exact .inl rfl])]) h
    obtain h | h := pick
    · cases h
    · exact (List.mem_filter.1 (List.mem_filter.1 h).1).2

theorem completes_commandAdmission {s : State} {q : Nat} {p : Qp} {f : Fetched} {fs : List Fetched} {c : Cmd} {rs : List Range}
    {pins : List Nat} (hup : halted s = false) (hadm : admits s = true) (hp : tabGet s.hif.qps q = some p)
    (hfetched : p.fetched = f :: fs) (hgo : admitCheck s q f.entry = .go c rs pins) (hnext : nextQueue s = some q) :
    Completes (.commandAdmission q) s (Entered q fs c s) := by
  have hdel : p.deleting = false := qpOf_of_tabGet hp ▸ deleting_of_queueReady (queueReady_of_nextQueue hnext)
  refine completes_of_up hup rfl ⟨_, rfl, ?_⟩
  rw [if_pos (by simp [hadm, hnext])]
  exact entered_admitHead hp hfetched hdel hgo

theorem completes_admissionWaitEnd {s : State} {q : Nat} {p : Qp} {f : Fetched} {fs : List Fetched} {c : Cmd} {rs : List Range}
    {pins : List Nat} (hup : halted s = false) (hadm : admits s = true) (hp : tabGet s.hif.qps q = some p)
    (hfetched : p.fetched = f :: fs) (hgo : admitCheck s q f.entry = .go c rs pins) (hstate : p.qstate = .enabled)
    (hdel : p.deleting = false) (hwait : p.wait = true) (hfree : queueBlocked s q = false) :
    Completes (.admissionWaitEnd q) s (Entered q fs c s) := by
  refine completes_of_up hup rfl ⟨_, rfl, ?_⟩
  rw [if_pos (by simp [qpOf_of_tabGet hp, hadm, hstate, hdel, hwait, hfree, hfetched])]
  exact entered_admitHead hp hfetched hdel hgo

/-! Completions (R57, R318, R320). -/

/-- What is written to the host is only ever appended. -/
def Wrote (s t : State) : Prop := ∃ w, t.hif.out = s.hif.out ++ w

theorem Wrote.refl (s : State) : Wrote s s := ⟨[], (List.append_nil _).symm⟩

theorem Wrote.trans {s t u : State} (h : Wrote s t) (g : Wrote t u) : Wrote s u := by
  obtain ⟨a, ha⟩ := h
  obtain ⟨b, hb⟩ := g
  exact ⟨a ++ b, by rw [hb, ha, List.append_assoc]⟩

theorem Wrote.of_eq {s t : State} (h : t.hif.out = s.hif.out) : Wrote s t := ⟨[], by rw [h, List.append_nil]⟩

theorem wrote_hostWrite (fn addr : Nat) (b : Bytes) (ep : Bool) (s : State) : Wrote s (hostWrite fn addr b ep s) := by
  unfold hostWrite
  split
  · exact .refl s
  · exact ⟨_, rfl⟩

theorem sendMsi_out (fn ent : Nat) (s : State) : (sendMsi fn ent s).hif.out = s.hif.out := by
  unfold sendMsi
  split
  · rfl
  · split <;> rfl

theorem Wrote.foldl {α : Type} {f : State → α → State} (hf : ∀ s a, Wrote s (f s a)) (l : List α) (s : State) :
    Wrote s (l.foldl f s) := by
  induction l generalizing s with
  | nil => exact .refl s
  | cons a l ih => exact (hf s a).trans (ih _)

theorem signalCq_out (q : Nat) (s : State) : (signalCq q s).hif.out = s.hif.out := sendMsi_out ..

theorem freeStaging_hif (b : Option (Nat × Nat)) (s : State) : (freeStaging b s).hif = s.hif :=
  (Effect.refl (ps := [.shv]) (w := false)).freeStaging.frame .hif (by decide)

theorem zRespond_hif (box status detail : Nat) (body : Bytes) (s : State) : (zRespond box status detail body s).hif = s.hif :=
  (Effect.refl (ps := [.stew]) (w := false)).zRespond.frame .hif (by decide)

theorem checkDelete_out (q : Nat) (s : State) : (checkDelete q s).hif.out = s.hif.out := by
  unfold checkDelete
  extract_lets p
  split
  · split
    · exact (congrArg Hif.out (zRespond_hif ..)).trans rfl
    · rfl
  · rfl

/-- The result data of a completion has gone to the host, and the completion after it (R317). -/
def complPosted (q : Nat) (c : Compl) (s : State) : State :=
  hostWrite (qpOf s q).tenant (fld (qpOf s q).ctx 0x10 8 + 32 * (qpOf s q).cqTail)
    (complBytes c (qpOf s q).sqHead (qpOf s q).phase) false (c.data.foldl (fun s w => hostWrite w.fn w.addr w.bytes w.ep s) s)

/-- The completion queue has moved on past it (R318). -/
def complCounted (q : Nat) (c : Compl) (s : State) : State :=
  let t := ((qpOf s q).cqTail + 1) % fld (qpOf s q).ctx 0x1C 4
  modQp q (fun p => { p with
    cqTail := t, phase := if t = 0 then !p.phase else p.phase,
    unsignalled := p.unsignalled + 1, firstUnsig := some (p.firstUnsig.getD (now (complPosted q c s))) }) (complPosted q c s)

theorem writeCompl_eq (q : Nat) (c : Compl) (s : State) : writeCompl q c s =
    if coalesceDue (qpOf (complCounted q c s) q) then signalCq q (complCounted q c s) else complCounted q c s := rfl

theorem out_complCounted (q : Nat) (c : Compl) (s : State) : (complCounted q c s).hif.out = (complPosted q c s).hif.out := rfl

theorem out_writeCompl (q : Nat) (c : Compl) (s : State) : (writeCompl q c s).hif.out = (complPosted q c s).hif.out := by
  rw [writeCompl_eq]
  split
  · rw [signalCq_out, out_complCounted]
  · rw [out_complCounted]

/-- A completion is the last that is written for its command (R317). -/
theorem out_complPosted {q : Nat} {c : Compl} {s : State} (hup : halted s = false) :
    ∃ w, (complPosted q c s).hif.out = s.hif.out ++ w ++
      [⟨(qpOf s q).tenant, fld (qpOf s q).ctx 0x10 8 + 32 * (qpOf s q).cqTail, complBytes c (qpOf s q).sqHead (qpOf s q).phase, false⟩] := by
  unfold complPosted
  obtain ⟨w, hw⟩ := Wrote.foldl (f := fun s w => hostWrite w.fn w.addr w.bytes w.ep s) (fun s w => wrote_hostWrite ..) c.data s
  have hsteady : HostSteady s (c.data.foldl (fun s w => hostWrite w.fn w.addr w.bytes w.ep s) s) :=
    HostSteady.refl.foldl fun _ _ h => h.hostWrite
  generalize c.data.foldl (fun s w => hostWrite w.fn w.addr w.bytes w.ep s) s = x at hw hsteady ⊢
  have hrun : halted x = false := (halted_congr hsteady.aon).trans hup
  have hbytes : (complBytes c (qpOf s q).sqHead (qpOf s q).phase).isEmpty = false := by simp [complBytes, toLe]
  refine ⟨w, ?_⟩
  rw [hostWrite, hrun, hbytes, if_neg (by decide), ← hw]
  rfl

theorem wrote_writeCompl (q : Nat) (c : Compl) (s : State) : Wrote s (writeCompl q c s) :=
  .trans ((Wrote.foldl (fun _ _ => wrote_hostWrite ..) c.data s).trans (wrote_hostWrite ..)) (.of_eq (out_writeCompl q c s))

theorem wrote_drainGo (k q : Nat) (s : State) : Wrote s (drainGo k q s) := by
  induction k generalizing s with
  | zero => exact .refl s
  | succ k ih =>
    unfold drainGo
    split
    · exact .refl s
    · split
      · next c cs _ _ =>
        have taken : Wrote s (modQp q (fun p => { p with staged := cs }) s) := .of_eq rfl
        exact ((taken.trans (wrote_writeCompl q c _)).trans (.of_eq (congrArg Hif.out (freeStaging_hif ..)))).trans (ih _)
      · exact .refl s

theorem staged_modQp {q j : Nat} {f : Qp → Qp} (s : State) (hf : ∀ p, (f p).staged = p.staged) :
    (qpOf (modQp j f s) q).staged = (qpOf s q).staged := by
  by_cases hj : q = j
  · subst hj
    obtain h | h := qpOf_modQp_same q f s <;> rw [h]
    exact hf _
  · rw [qpOf_modQp_other _ _ hj]

theorem qpOf_hostWrite (fn addr : Nat) (b : Bytes) (ep : Bool) (s : State) (q : Nat) : qpOf (hostWrite fn addr b ep s) q = qpOf s q := by
  unfold hostWrite
  split <;> rfl

theorem qpOf_foldl_hostWrite (l : List HostWr) (s : State) (q : Nat) :
    qpOf (l.foldl (fun s w => hostWrite w.fn w.addr w.bytes w.ep s) s) q = qpOf s q :=
  foldl_same (fun s => qpOf s q) _ l s fun _ _ => qpOf_hostWrite ..

theorem qpOf_sendMsi (fn ent : Nat) (s : State) (q : Nat) : qpOf (sendMsi fn ent s) q = qpOf s q := by
  unfold sendMsi
  split
  · rfl
  · split <;> rfl

theorem qpOf_complPosted (q j : Nat) (c : Compl) (s : State) : qpOf (complPosted j c s) q = qpOf s q :=
  (qpOf_hostWrite ..).trans (qpOf_foldl_hostWrite ..)

theorem staged_signalCq (q j : Nat) (s : State) : (qpOf (signalCq j s) q).staged = (qpOf s q).staged := by
  unfold signalCq
  refine (staged_modQp _ ?_).trans (congrArg Qp.staged (qpOf_sendMsi ..))
  exact fun _ => rfl

theorem staged_complCounted (q j : Nat) (c : Compl) (s : State) : (qpOf (complCounted j c s) q).staged = (qpOf s q).staged := by
  unfold complCounted
  refine (staged_modQp _ ?_).trans (congrArg Qp.staged (qpOf_complPosted ..))
  exact fun _ => rfl

theorem staged_writeCompl (q j : Nat) (c : Compl) (s : State) : (qpOf (writeCompl j c s) q).staged = (qpOf s q).staged := by
  rw [writeCompl_eq]
  split
  · rw [staged_signalCq, staged_complCounted]
  · exact staged_complCounted ..

theorem staged_drainGo_le (k q : Nat) (s : State) : (qpOf (drainGo k q s) q).staged.length ≤ (qpOf s q).staged.length := by
  induction k generalizing s with
  | zero => exact le_rfl
  | succ k ih =>
    unfold drainGo
    split
    · exact le_rfl
    · next c cs hc =>
      split
      · refine (ih _).trans ?_
        rw [qpOf_congr (freeStaging_hif ..), staged_writeCompl]
        obtain h | h := qpOf_modQp_same q (fun p => { p with staged := cs }) s <;> rw [h]
        rw [hc]
        exact Nat.le_succ _
      · exact le_rfl

theorem staged_checkDelete (q : Nat) (s : State) : (qpOf (checkDelete q s) q).staged = (qpOf s q).staged := by
  have ended : (qpOf (modQp q (fun p => { p with deleting := false, qstate := .disabled, fetched := [], wait := false }) s) q).staged =
      (qpOf s q).staged := staged_modQp s fun _ => rfl
  unfold checkDelete
  extract_lets p
  split
  · split
    · exact (congrArg Qp.staged (qpOf_congr (zRespond_hif ..) q)).trans ended
    · exact ended
  · rfl

theorem staged_noteWait_length (q : Nat) (s : State) : (qpOf (noteWait q s) q).staged.length = (qpOf s q).staged.length := by
  unfold noteWait
  obtain h | h := qpOf_modQp_same q (fun p => { p with staged := p.staged.map fun c => { c with since := some (c.since.getD (now s)) } }) s
  · rw [h, List.length_map]
  · rw [h]

/-- The oldest completion of a queue with room is written, and others may follow (R57, R318). -/
theorem completes_completionDrain {s : State} {q : Nat} {p : Qp} {c : Compl} {cs : List Compl} (hup : halted s = false)
    (hp : tabGet s.hif.qps q = some p) (hstaged : p.staged = c :: cs) (hroom : canDrain s q = true) :
    Completes (.completionDrain q) s fun t =>
      (∃ w rest, t.hif.out = s.hif.out ++ w ++
        [⟨p.tenant, fld p.ctx 0x10 8 + 32 * p.cqTail, complBytes c p.sqHead p.phase, false⟩] ++ rest) ∧
      (qpOf t q).staged.length ≤ cs.length := by
  have hq := qpOf_of_tabGet hp
  have htaken : qpOf (modQp q (fun p => { p with staged := cs }) s) q = { p with staged := cs } :=
    qpOf_of_tabGet (tabGet_modQp_of_some _ hp)
  have hdrain : drainCq q s = noteWait q (drainGo cs.length q (freeStaging c.batch (writeCompl q c
      (modQp q (fun p => { p with staged := cs }) s)))) := by
    rw [drainCq, hq, hstaged, List.length_cons, drainGo, hq, hstaged]
    exact congrArg _ (if_pos hroom)
  refine completes_of_up hup rfl ⟨_, rfl, ?_, ?_⟩
  · obtain ⟨w, hw⟩ := out_complPosted (q := q) (c := c) (s := modQp q (fun p => { p with staged := cs }) s) hup
    obtain ⟨rest, hrest⟩ := wrote_drainGo cs.length q (freeStaging c.batch (writeCompl q c (modQp q (fun p => { p with staged := cs }) s)))
    refine ⟨w, rest, ?_⟩
    rw [withDigests_hif, checkDelete_out, hdrain]
    refine hrest.trans (congrArg (· ++ rest) ?_)
    rw [freeStaging_hif, out_writeCompl, hw, htaken]
    rfl
  · rw [qpOf_congr (withDigests_hif ..), staged_checkDelete, hdrain, staged_noteWait_length]
    refine (staged_drainGo_le ..).trans ?_
    rw [qpOf_congr (freeStaging_hif ..), staged_writeCompl, htaken]

/-- The queue pair of a queue that timed out: nothing staged or fetched is left, and its message is not due (R320). -/
def timedOutQp (p : Qp) : Qp :=
  { p with qstate := .timedOut, staged := [], fetched := [], wait := false, waitGe := none, unsignalled := 0, firstUnsig := none }

/-- The state of a queue that timed out, before the commands it had are stopped (R320). -/
def queueTimedOut (q : Nat) (p : Qp) (s : State) : State :=
  let body := toLe 2 q ++ toLe 2 p.cqTail ++ zeros 4
  logEv Log.queueTimeout 59 1 body (raiseEvent p.tenant EvCode.queueTimeout body (queueError q
    (p.staged.foldl (fun s c => freeStaging c.batch s) (modQp q timedOutQp (timerToken 59 0 s)))))

theorem exec_queueDrainTimeout {s : State} {q : Nat} {p : Qp} {c : Compl} {cs : List Compl} {since : Nat}
    (hp : tabGet s.hif.qps q = some p) (hstaged : p.staged = c :: cs) (hsince : c.since = some since)
    (hstate : p.qstate = .enabled ∨ p.qstate = .error) (hdue : since + drainDeadline p ≤ s.aon.uptime) :
    exec (.queueDrainTimeout q) s = whileUp s (.next (checkDelete q
      ((((queueTimedOut q p s).hif.cmds.filter fun c => c.2.qp == q).map Prod.fst).foldl (fun s n => stopCmd n s) (queueTimedOut q p s)))) := by
  change execQueueDrainTimeout q s = _
  simp only [execQueueDrainTimeout, qpOf_of_tabGet hp, hstaged, hsince]
  have hlt : decide (now s < since + drainDeadline p) = false := decide_eq_false (Nat.not_lt.2 hdue)
  rw [if_neg (by rcases hstate with h | h <;> simp [h, hlt]), queueTimedOut, hstaged]
  rfl

theorem foldl_freeStaging_hif (l : List Compl) (s : State) : (l.foldl (fun s c => freeStaging c.batch s) s).hif = s.hif :=
  foldl_same State.hif _ l s fun _ _ => freeStaging_hif ..

theorem queueError_out (q : Nat) (s : State) : (queueError q s).hif.out = s.hif.out := sendMsi_out ..

theorem sendMsi_cmds (fn ent : Nat) (s : State) : (sendMsi fn ent s).hif.cmds = s.hif.cmds := by
  unfold sendMsi
  split
  · rfl
  · split <;> rfl

theorem sendMsi_qError (fn ent : Nat) (s : State) : (sendMsi fn ent s).hif.qError = s.hif.qError := by
  unfold sendMsi
  split
  · rfl
  · split <;> rfl

theorem queueError_cmds (q : Nat) (s : State) : (queueError q s).hif.cmds = s.hif.cmds := sendMsi_cmds ..

theorem contains_qError_queueError (q : Nat) (s : State) : (queueError q s).hif.qError.contains q = true := by
  rw [queueError, sendMsi_qError]
  simp [mem_setPut]

theorem qpOf_queueError (q j : Nat) (s : State) : qpOf (queueError q s) j = qpOf s j := qpOf_sendMsi ..

/-- What a timed-out queue is before its commands are stopped. -/
theorem queueTimedOut_facts {s : State} {q : Nat} {p : Qp} (hp : tabGet s.hif.qps q = some p) :
    qpOf (queueTimedOut q p s) q = timedOutQp p ∧ (queueTimedOut q p s).hif.qError.contains q = true ∧
    (queueTimedOut q p s).hif.out = s.hif.out ∧ (queueTimedOut q p s).hif.cmds = s.hif.cmds := by
  have hif : (queueTimedOut q p s).hif = (queueError q
      (p.staged.foldl (fun s c => freeStaging c.batch s) (modQp q timedOutQp (timerToken 59 0 s)))).hif := by
    simp [queueTimedOut]
  have hqp : tabGet (timerToken 59 0 s).hif.qps q = some p := by simpa [timerToken] using hp
  refine ⟨?_, ?_, ?_, ?_⟩
  · rw [qpOf_congr hif, qpOf_queueError, qpOf_congr (foldl_freeStaging_hif ..)]
    exact qpOf_of_tabGet (tabGet_modQp_of_some _ hqp)
  · rw [hif]
    exact contains_qError_queueError ..
  · rw [hif, queueError_out, foldl_freeStaging_hif]
    simp [modQp, timerToken]
  · rw [hif, queueError_cmds, foldl_freeStaging_hif]
    simp [modQp, timerToken]

theorem completes_queueDrainTimeout {s : State} {q : Nat} {p : Qp} {c : Compl} {cs : List Compl} {since : Nat}
    (hup : halted s = false) (hp : tabGet s.hif.qps q = some p) (hstaged : p.staged = c :: cs) (hsince : c.since = some since)
    (hstate : p.qstate = .enabled ∨ p.qstate = .error) (hdel : p.deleting = false) (hdue : since + drainDeadline p ≤ s.aon.uptime) :
    Completes (.queueDrainTimeout q) s fun t =>
      (qpOf t q).qstate = .timedOut ∧ (qpOf t q).staged = [] ∧ (qpOf t q).fetched = [] ∧ t.hif.qError.contains q = true ∧
      ((∀ c ∈ s.hif.cmds, c.2.qp ≠ q) → t.hif.out = s.hif.out) := by
  obtain ⟨hqp, herr, hout, hcmds⟩ := queueTimedOut_facts hp
  have hnone (h : ∀ c ∈ s.hif.cmds, c.2.qp ≠ q) : ((queueTimedOut q p s).hif.cmds.filter fun c => c.2.qp == q) = [] := by
    rw [hcmds, List.filter_eq_nil_iff]
    exact fun c hc => by simpa using h c hc
  refine completes_of_up hup (exec_queueDrainTimeout hp hstaged hsince hstate hdue) ⟨_, rfl, ?_⟩
  have steady := (HostSteady.refl (s := queueTimedOut q p s)).foldl (f := fun s n => stopCmd n s)
    (l := ((queueTimedOut q p s).hif.cmds.filter fun c => c.2.qp == q).map Prod.fst) fun _ _ h => h.stopCmd
  have ends := steady.checkDelete (q := q)
  have hd : (qpOf (queueTimedOut q p s) q).deleting = false := by rw [hqp]; exact hdel
  obtain ⟨-, hs, hf⟩ := (ends.qps q).stays hd
  refine ⟨hs.trans (by rw [hqp]; rfl), (ends.qps q).still hd (by rw [hqp]; rfl) (by rw [hqp]; rfl), hf.trans (by rw [hqp]; rfl), ?_,
    fun h => ?_⟩
  · rw [withDigests_hif, ends.rest]
    exact herr
  · rw [withDigests_hif, checkDelete_out, hnone h]
    exact hout

theorem completes_coalesceTimeout {s : State} {q : Nat} {p : Qp} {since : Nat} (hup : halted s = false)
    (hp : tabGet s.hif.qps q = some p) (hfirst : p.firstUnsig = some since) (hdue : since + 1000 * fld p.ctx 0x26 2 ≤ s.aon.uptime)
    (hd3 : s.hif.d3.contains p.tenant = false) :
    Completes (.coalesceTimeout q) s fun t =>
      tabGet t.hif.qps q = some { p with unsignalled := 0, firstUnsig := none } ∧
      (∀ j, j ≠ q → tabGet t.hif.qps j = tabGet s.hif.qps j) ∧
      (vecMasked s (p.tenant * 2048 + fld p.ctx 4 2) = false → (vecSlot s p.tenant (fld p.ctx 4 2)).isSome = true →
        t.hif.msi = s.hif.msi ++ [(p.tenant, fld p.ctx 4 2)]) ∧
      (vecMasked s (p.tenant * 2048 + fld p.ctx 4 2) = true → (vecSlot s p.tenant (fld p.ctx 4 2)).isSome = true →
        t.hif.msi = s.hif.msi ∧ t.hif.vecPend.contains (p.tenant * 2048 + fld p.ctx 4 2) = true) ∧ Frame [.hif] s t := by
  have hq := qpOf_of_tabGet hp
  have hexec : exec (.coalesceTimeout q) s = whileUp s (.next (signalCq q s)) := by
    change execCoalesceTimeout q s = _
    simp only [execCoalesceTimeout, hq, hfirst]
    have hlt : decide (now s < since + 1000 * fld p.ctx 0x26 2) = false := decide_eq_false (Nat.not_lt.2 hdue)
    rw [if_neg (by rw [hlt, hd3]; decide)]
  have hqps (fn ent : Nat) : (sendMsi fn ent s).hif.qps = s.hif.qps := by
    unfold sendMsi
    split
    · rfl
    · split <;> rfl
  refine completes_of_up hup hexec ⟨_, rfl, ?_⟩
  rw [signalCq, hq]
  refine ⟨tabGet_modQp_of_some _ (by rw [hqps]; exact hp), fun j hj => ?_, fun hm hs => ?_, fun hm hs => ?_, ?_⟩
  · exact (tabGet_modQp_other _ _ hj).trans (by rw [hqps])
  · rw [sendMsi_of_unmasked hup hm, if_pos hs]
    rfl
  · rw [sendMsi, if_neg (by simp [hup, Option.isSome_iff_ne_none.1 hs]), if_pos hm]
    exact ⟨rfl, by simp [modQp, mem_setPut]⟩
  · exact frame_withDigests.2 (Effect.refl (w := false)).sendMsi.modQp.frame

/-- Settles O16: each clause is what its command completes with. -/
theorem queuesFetchAdmitAndComplete : Obligations.QueuesFetchAdmitAndComplete :=
  ⟨⟨fun _ _ _ _ hup hp hstate hdel hne => completes_sqEntryFetch hup hp hstate hdel hne,
    fun _ _ _ _ _ _ _ _ hup hadm hp hfetched hgo => ⟨fun hnext => completes_commandAdmission hup hadm hp hfetched hgo hnext,
      fun hstate hdel hwait hfree => completes_admissionWaitEnd hup hadm hp hfetched hgo hstate hdel hwait hfree⟩⟩,
   fun _ _ _ _ _ hup hp hstaged hroom => completes_completionDrain hup hp hstaged hroom,
   fun _ _ _ _ _ _ hup hp hstaged hsince hstate hdel hdue => completes_queueDrainTimeout hup hp hstaged hsince hstate hdel hdue,
   fun _ _ _ _ hup hp hfirst hdue hd3 => completes_coalesceTimeout hup hp hfirst hdue hd3⟩

end Sys2Proof.Proofs

/-! Resets of functions and of the link, host data that fails, and the memory window (R296, R299, R300, R320, R323, R324). -/

namespace Sys2Proof.Proofs
open Sys2Proof Sys2Proof.Machine Sys2Proof.Safety

set_option Elab.async false

/-- A queue pair is DISABLED with nothing fetched (R320). -/
def Stopped (q : Nat) (s : State) : Prop := (qpOf s q).qstate = .disabled ∧ (qpOf s q).fetched = []

theorem HostSteady.stopped {q : Nat} {s t : State} (h : HostSteady s t) (hs : Stopped q s) : Stopped q t := (h.qps q).ends hs.1 hs.2

theorem Stopped.congr {q : Nat} {s t : State} (h : Stopped q s) (ht : t.hif.qps = s.hif.qps) : Stopped q t := by
  unfold Stopped qpOf at h ⊢
  rwa [ht]

/-- What stopping a queue does after the queue itself is stopped ends commands alone. -/
theorem stopQueue_steady (q : Nat) (s : State) : HostSteady (modQp q (fun p => { p with
    qstate := .disabled, fetched := [], wait := false, waitGe := none, staged := [], unsignalled := 0, firstUnsig := none }) s)
    (stopQueue q s) := by
  unfold stopQueue
  exact ((HostSteady.refl.foldl fun _ _ h => h.freeStaging).foldl fun _ _ h => h.stopCmd).checkDelete

theorem stopped_stopQueue_same (q : Nat) (s : State) : Stopped q (stopQueue q s) := by
  refine (stopQueue_steady q s).stopped ?_
  cases h : tabGet s.hif.qps q with
  | none => simp [Stopped, qpOf, tabGetD, modQp, h]
  | some p =>
    have hq := qpOf_of_tabGet (tabGet_modQp_of_some (fun p => { p with
      qstate := .disabled, fetched := [], wait := false, waitGe := none, staged := [], unsignalled := 0, firstUnsig := none }) h)
    unfold Stopped
    rw [hq]
    exact ⟨rfl, rfl⟩

theorem stopped_stopQueue {q j : Nat} {s : State} (h : Stopped j s) : Stopped j (stopQueue q s) := by
  by_cases hj : j = q
  · exact hj ▸ stopped_stopQueue_same q s
  · refine (stopQueue_steady q s).stopped ?_
    unfold Stopped
    rwa [qpOf_modQp_other _ _ hj]

theorem stopped_foldl {q : Nat} {l : List Nat} {s : State} (h : Stopped q s ∨ q ∈ l) :
    Stopped q (l.foldl (fun s q => stopQueue q s) s) := by
  induction l generalizing s with
  | nil => exact h.resolve_right (by simp)
  | cons a l ih =>
    refine ih ?_
    rcases h with h | h
    · exact .inl (stopped_stopQueue h)
    · rcases List.mem_cons.1 h with rfl | h
      · exact .inl (stopped_stopQueue_same ..)
      · exact .inr h

/-- Of the host interface a stopped queue changes queue pairs, commands and what goes to the host alone. -/
structure LinkKept (s t : State) : Prop where
  rest : t.hif = { s.hif with
    qps := t.hif.qps, out := t.hif.out, msi := t.hif.msi, vecPend := t.hif.vecPend, cmds := t.hif.cmds }
  aon : t.aon = s.aon

namespace LinkKept
variable {s t u : State}

theorem refl : LinkKept s s := ⟨rfl, rfl⟩

theorem trans (h : LinkKept s t) (g : LinkKept t u) : LinkKept s u := ⟨by rw [g.rest, h.rest], g.aon.trans h.aon⟩

theorem of_same (h : LinkKept s t) (hh : u.hif = t.hif) (ha : u.aon = t.aon) : LinkKept s u := h.trans ⟨by rw [hh], ha⟩

theorem of_steady (h : HostSteady s t) : LinkKept s t := ⟨h.rest, h.aon⟩

theorem stopQueue {q : Nat} (h : LinkKept s t) : LinkKept s (stopQueue q t) :=
  have changed : LinkKept t (modQp q (fun p => { p with
    qstate := .disabled, fetched := [], wait := false, waitGe := none, staged := [], unsignalled := 0, firstUnsig := none }) t) :=
    ⟨rfl, rfl⟩
  h.trans (changed.trans (of_steady (stopQueue_steady q t)))

theorem stopQueues {l : List Nat} (h : LinkKept s t) : LinkKept s (l.foldl (fun s q => Machine.stopQueue q s) t) := by
  induction l generalizing t with
  | nil => exact h
  | cons a l ih => exact ih h.stopQueue

theorem resetMbx {b : Nat} (h : LinkKept s t) : LinkKept s (resetMbx b t) := h.of_same rfl rfl

theorem resetMbxs {l : List Nat} (h : LinkKept s t) : LinkKept s (l.foldl (fun s b => Machine.resetMbx b s) t) := by
  induction l generalizing t with
  | nil => exact h
  | cons a l ih => exact ih h.resetMbx

theorem stopAll (h : LinkKept s t) : LinkKept s (stopAll t) := h.stopQueues.resetMbxs.of_same rfl rfl

end LinkKept

/-! Resets of functions and of the link (R296, R299, R300, R320, R330). -/

/-- A mailbox is empty (R330). -/
def MbxEmpty (b : Nat) (s : State) : Prop :=
  (mbxOf s b).inFull = false ∧ (mbxOf s b).outFull = false ∧ (mbxOf s b).events = [] ∧ (mbxOf s b).inArea = []

theorem mbxEmpty_resetMbx_same (b : Nat) (s : State) : MbxEmpty b (resetMbx b s) := by
  unfold MbxEmpty resetMbx
  rw [mbxOf_modMbx_same]
  exact ⟨rfl, rfl, rfl, rfl⟩

theorem mbxEmpty_resetMbx {b j : Nat} {s : State} (h : MbxEmpty j s) : MbxEmpty j (resetMbx b s) := by
  by_cases hj : j = b
  · exact hj ▸ mbxEmpty_resetMbx_same b s
  · unfold MbxEmpty resetMbx
    rwa [mbxOf_modMbx_other _ _ hj]

theorem mbxEmpty_foldl {b : Nat} {l : List Nat} {s : State} (h : MbxEmpty b s ∨ b ∈ l) :
    MbxEmpty b (l.foldl (fun s b => resetMbx b s) s) := by
  induction l generalizing s with
  | nil => exact h.resolve_right (by simp)
  | cons a l ih =>
    refine ih ?_
    rcases h with h | h
    · exact .inl (mbxEmpty_resetMbx h)
    · rcases List.mem_cons.1 h with rfl | h
      · exact .inl (mbxEmpty_resetMbx_same ..)
      · exact .inr h

theorem mem_tabKeys_of_tabGet {α : Type} {t : Tab α} {i : Nat} {x : α} (h : tabGet t i = some x) : i ∈ tabKeys t :=
  List.mem_map.2 ⟨_, mem_of_tabGet h, rfl⟩

theorem recordPin_hif (a b : Nat) (s : State) : (recordPin a b s).hif = s.hif := recordInput_hif ..
theorem recordPin_aon (a b : Nat) (s : State) : (recordPin a b s).aon = s.aon := recordInput_aon ..
theorem recordPin_stew (a b : Nat) (s : State) : (recordPin a b s).stew = s.stew := recordInput_stew ..

/-- Every queue is stopped and every mailbox empty (R320, R330). -/
theorem queuesStopped_stopAll {s x : State} (hq : x.hif.qps = s.hif.qps) : QueuesStopped s (stopAll x) := by
  constructor
  · intro q p hp
    have hmem : q ∈ tabKeys x.hif.qps := mem_tabKeys_of_tabGet (hq ▸ hp)
    refine (stopped_foldl (s := x) (.inr hmem)).congr (congrArg Hif.qps ?_)
    exact foldl_same State.hif (fun s t => resetMbx t s) _ _ fun _ _ => rfl
  · intro b m _
    have empty : MbxEmpty b (stopAll x) := by
      refine mbxEmpty_foldl (s := (tabKeys x.hif.qps).foldl (fun s q => stopQueue q s) x) ?_
      cases h : tabGet ((tabKeys x.hif.qps).foldl (fun s q => stopQueue q s) x).stew.mbx b with
      | none => exact .inl (by simp [MbxEmpty, mbxOf, tabGetD, h])
      | some m => exact .inr (mem_tabKeys_of_tabGet h)
    exact ⟨empty.1, empty.2.1, empty.2.2.1⟩

theorem queuesStopped_congr {s t u : State} (h : QueuesStopped s t) (hh : u.hif.qps = t.hif.qps) (hs : u.stew = t.stew) :
    QueuesStopped s u := by
  unfold QueuesStopped qpOf mbxOf at h ⊢
  rwa [hh, hs]

theorem completes_functionLevelReset {s : State} {fn : Nat} (hup : halted s = false) (hlive : fnLive s fn = true) :
    Completes (.functionLevelReset fn) s fun t =>
      (mbxOf t fn).inFull = false ∧ (mbxOf t fn).outFull = false ∧ (mbxOf t fn).events = [] ∧ (mbxOf t fn).inArea = [] ∧
      (∀ q p, tabGet s.hif.qps q = some p → p.tenant = fn → (qpOf t q).qstate = .disabled ∧ (qpOf t q).fetched = []) ∧
      t.hif.linkUp = s.hif.linkUp ∧ t.hif.vecOpen = s.hif.vecOpen := by
  refine completes_of_up hup rfl ⟨_, rfl, ?_⟩
  rw [if_pos hlive]
  obtain ⟨h1, h2, h3, h4⟩ := mbxEmpty_resetMbx_same fn (stopFunction fn (recordPin 2 fn s))
  have kept : LinkKept s (stopFunction fn (recordPin 2 fn s)) :=
    LinkKept.stopQueues (LinkKept.refl.of_same (recordPin_hif ..) (recordPin_aon ..))
  refine ⟨h1, h2, h3, h4, fun q p hp ht => ?_, ?_, ?_⟩
  · have hmem : q ∈ ((recordPin 2 fn s).hif.qps.filter fun p => p.2.tenant == fn).map Prod.fst := by
      rw [recordPin_hif]
      exact List.mem_map.2 ⟨(q, p), List.mem_filter.2 ⟨mem_of_tabGet hp, by simp [ht]⟩, rfl⟩
    exact stopped_foldl (s := recordPin 2 fn s) (.inr hmem)
  · exact (congrArg Hif.linkUp kept.rest).trans rfl
  · exact (congrArg Hif.vecOpen kept.rest).trans rfl

theorem completes_perstNAssert {s : State} (hup : halted s = false) :
    Completes .perstNAssert s fun t => QueuesStopped s t ∧ t.aon.perstLow = true ∧ t.hif.linkUp = false := by
  refine completes_of_up hup rfl ⟨_, rfl, ?_, ?_, rfl⟩
  · exact queuesStopped_congr (queuesStopped_stopAll (x := (recordPin 1 0 s).onAon fun a => { a with perstLow := true })
      (congrArg Hif.qps (recordPin_hif 1 0 s))) rfl rfl
  · have kept := (LinkKept.refl (s := (recordPin 1 0 s).onAon fun a => { a with perstLow := true })).stopAll
    exact (congrArg Aon.perstLow kept.aon).trans rfl

theorem completes_hotReset {s : State} (hup : halted s = false) :
    Completes .hotReset s fun t => QueuesStopped s t ∧ t.hif.linkUp = s.hif.linkUp ∧ t.hif.aer = s.hif.aer + 1 := by
  have kept := (LinkKept.refl.of_same (recordPin_hif 3 0 s) (recordPin_aon 3 0 s)).stopAll
  refine completes_of_up hup rfl ⟨_, rfl, ?_, (congrArg Hif.linkUp kept.rest).trans rfl, ?_⟩
  · exact queuesStopped_congr (queuesStopped_stopAll (congrArg Hif.qps (recordPin_hif 3 0 s))) rfl rfl
  · exact congrArg (· + 1) ((congrArg Hif.aer kept.rest).trans rfl)

theorem completes_linkDown {s : State} (hup : halted s = false) :
    Completes .linkDown s fun t => QueuesStopped s t ∧ t.hif.linkUp = false ∧ t.aon.perstLow = s.aon.perstLow ∧
      t.hif.aer = s.hif.aer := by
  have kept := (LinkKept.refl.of_same (recordPin_hif 4 0 s) (recordPin_aon 4 0 s)).stopAll
  refine completes_of_up hup rfl ⟨_, rfl, ?_, rfl, congrArg Aon.perstLow kept.aon, (congrArg Hif.aer kept.rest).trans rfl⟩
  exact queuesStopped_congr (queuesStopped_stopAll (congrArg Hif.qps (recordPin_hif 4 0 s))) rfl rfl

/-- The first of a list in falling order that an end supports is the greatest it supports. -/
theorem find?_eq_of_greatest {l : List Nat} {n r : Nat} (hl : l.Pairwise (· > ·)) (hr : r ∈ l) (hrn : r ≤ n)
    (hmax : ∀ x ∈ l, x ≤ n → x ≤ r) : l.find? (fun x => decide (x ≤ n)) = some r := by
  induction l with
  | nil => cases hr
  | cons a l ih =>
    obtain ⟨ha, hl⟩ := List.pairwise_cons.1 hl
    by_cases han : a ≤ n
    · rw [List.find?_cons_of_pos (by simpa using han)]
      rcases List.mem_cons.1 hr with rfl | hr
      · rfl
      · exact absurd (hmax a List.mem_cons_self han) (Nat.not_le.2 (ha r hr))
    · rw [List.find?_cons_of_neg (by simpa using han)]
      rcases List.mem_cons.1 hr with rfl | hr
      · exact absurd hrn han
      · exact ih hl hr fun x hx => hmax x (List.mem_cons_of_mem a hx)

theorem completes_linkTraining {s : State} {rate width r w : Nat} {flit : Bool} (hup : halted s = false)
    (hclk : s.aon.pcieLost = false) (hr : r ∈ [128, 64, 32, 16, 10, 5]) (hrate : r ≤ rate)
    (hrmax : ∀ x ∈ [128, 64, 32, 16, 10, 5], x ≤ rate → x ≤ r) (hw : w ∈ [16, 8, 4, 2, 1]) (hwidth : w ≤ width)
    (hwmax : ∀ x ∈ [16, 8, 4, 2, 1], x ≤ width → x ≤ w) :
    Completes (.linkTraining rate width flit) s fun t =>
      t.hif = { s.hif with linkUp := true, linkRate := r, linkWidth := w, linkFlit := r == 128 || flit } ∧
      t.aon = { s.aon with perstLow := false } ∧ Frame [.aon, .hif, .recd] s t := by
  refine completes_of_up hup rfl ?_
  rw [find?_eq_of_greatest (by decide) hr hrate hrmax, find?_eq_of_greatest (by decide) hw hwidth hwmax]
  refine ⟨_, if_neg (by simp [hclk]), ?_, ?_, ?_⟩
  · simp [recordPin_hif]
  · simp [recordPin_aon]
  · exact frame_withDigests.2 (Effect.refl (w := false)).recordPin.onAon.onHif.frame

theorem completes_functionDStateChange_enter {s : State} {fn : Nat} (hup : halted s = false) (hlive : fnLive s fn = true) :
    Completes (.functionDStateChange fn true) s fun t =>
      t.hif = { s.hif with d3 := t.hif.d3 } ∧ (∀ k, t.hif.d3.contains k = (s.hif.d3.contains k || k == fn)) ∧ Frame [.hif] s t := by
  refine completes_of_up hup rfl ⟨_, if_neg (by simp [hlive]), rfl, fun k => ?_, by simp [frame_iff]⟩
  by_cases hk : k = fn <;> simp [hk, mem_setPut]

theorem completes_functionDStateChange_leave {s : State} {fn : Nat} (hup : halted s = false) (hlive : fnLive s fn = true) :
    Completes (.functionDStateChange fn false) s fun t =>
      (∀ k, t.hif.d3.contains k = (s.hif.d3.contains k && k != fn)) ∧ Frame [.hif, .shv] s t := by
  refine completes_of_up hup rfl ⟨_, if_neg (by simp [hlive]), fun k => ?_, ?_⟩
  · have steady (l : List Nat) (x : State) : HostSteady x (l.foldl (fun s q => drainCq q s) x) :=
      HostSteady.refl.foldl fun _ _ h => h.drainCq
    rw [if_neg (by decide), withDigests_hif, (congrArg Hif.d3 (steady _ _).rest)]
    by_cases hk : k = fn <;> simp [hk, mem_setPut]
  · exact frame_withDigests.2 (Effect.foldl (Effect.refl (w := false)).onHif fun _ _ h => h.drainCq).frame

theorem completes_sriovVfEnable {s : State} {vfs : Nat} (hup : halted s = false) :
    Completes (.sriovVfEnable vfs) s fun t => t.hif = { s.hif with vfs := min vfs 1023 } ∧ Frame [.hif] s t :=
  completes_of_up hup rfl ⟨_, rfl, rfl, by simp [frame_iff]⟩

theorem completes_bar2Resize {s : State} {k : Nat} (hup : halted s = false) (hk : k ≤ 8) :
    Completes (.bar2Resize (2 ^ k)) s fun t => t.hif = { s.hif with bar2 := 2 ^ k } ∧ Frame [.hif] s t := by
  refine completes_of_up hup rfl ⟨_, rfl, ?_⟩
  rw [if_pos (List.any_eq_true.2 ⟨k, List.mem_range.2 (Nat.lt_succ_of_le hk), by simp⟩)]
  exact ⟨rfl, by simp [frame_iff]⟩

/-! Host data that fails, and the window (R320, R323, R324). -/

/-- A queue whose entry could not be read is in ERROR, the entry passed (R320). -/
theorem entryUnread_stops {s : State} {q : Nat} {p : Qp} (hp : tabGet s.hif.qps q = some p) (hstate : p.qstate = .enabled)
    (hdel : p.deleting = false) (hne : p.sqHead ≠ p.sqTail) :
    (qpOf (entryUnread q s) q).qstate = .error ∧ (qpOf (entryUnread q s) q).hostAccess = true ∧
    (qpOf (entryUnread q s) q).fetched = [] ∧ (qpOf (entryUnread q s) q).sqHead = (p.sqHead + 1) % fld p.ctx 0x18 4 ∧
    (entryUnread q s).hif.qError.contains q = true := by
  have hq := qpOf_of_tabGet hp
  unfold entryUnread
  extract_lets p' s1
  rw [if_neg (by simp [p', hq, hstate, hdel, hne])]
  have h1 : qpOf (queueError q s1) q =
      { p with qstate := .error, hostAccess := true, sqHead := (p.sqHead + 1) % sqEntries p, fetched := [], wait := false } :=
    (qpOf_queueError ..).trans (qpOf_of_tabGet (tabGet_modQp_of_some _ hp))
  have posted := (HostSteady.refl (s := queueError q s1)).postCompl (q := q)
    (c := { status := St.hostAccessError, unread := true, detail := p'.sqHead })
  obtain ⟨-, -, hhead, -, haccess⟩ := (posted.qps q).same
  obtain ⟨-, hs, hf⟩ := (posted.qps q).stays (by rw [h1]; exact hdel)
  refine ⟨hs.trans (by rw [h1]), haccess.trans (by rw [h1]), hf.trans (by rw [h1]), hhead.trans (by rw [h1]; rfl), ?_⟩
  rw [congrArg Hif.qError posted.rest]
  exact contains_qError_queueError ..

theorem checkDelete_cmds (q : Nat) (s : State) : (checkDelete q s).hif.cmds = s.hif.cmds := by
  unfold checkDelete
  extract_lets p
  split
  · split
    · exact (congrArg Hif.cmds (zRespond_hif ..)).trans rfl
    · rfl
  · rfl

/-- A command that has ended is no command of the node any more (R57). -/
theorem cmdOf_endCmd (n : Nat) (s : State) : cmdOf (endCmd n s) n = none := by
  unfold endCmd
  split
  · assumption
  · rw [cmdOf, checkDelete_cmds]
    exact tabGet_tabDel_same ..

theorem cmdOf_finishCmd (n : Nat) (r : Result) (s : State) : cmdOf (finishCmd n r s) n = none := by
  unfold finishCmd
  split
  · assumption
  · exact cmdOf_endCmd ..

theorem completes_hostAccessError_cmd {s : State} {n : Nat} {c : Cmd} (hup : halted s = false) (hc : cmdOf s n = some c)
    (hreads : readsHost c = true) : Completes (.hostAccessError (.cmd n)) s fun t => cmdOf t n = none := by
  refine completes_of_up hup rfl ?_
  dsimp only
  rw [hc]
  exact ⟨_, if_neg (by simp [hreads]), cmdOf_finishCmd ..⟩

theorem completes_hostDataPoisoned_cmd {s : State} {n : Nat} {c : Cmd} (hup : halted s = false) (hc : cmdOf s n = some c)
    (hreads : readsHost c = true) : Completes (.hostDataPoisoned (.cmd n)) s fun t => cmdOf t n = none := by
  refine completes_of_up hup rfl ?_
  dsimp only
  rw [hc]
  exact ⟨_, if_neg (by simp [hreads]), cmdOf_finishCmd ..⟩

theorem completes_hostAccessError_sqEntry {s : State} {q : Nat} {claim : State → Prop} (hup : halted s = false)
    (h : claim (withDigests s (entryUnread q s))) : Completes (.hostAccessError (.sqEntry q)) s claim :=
  completes_of_up hup rfl ⟨_, rfl, h⟩

theorem completes_hostDataPoisoned_sqEntry {s : State} {q : Nat} {claim : State → Prop} (hup : halted s = false)
    (h : claim (withDigests s (entryUnread q s))) : Completes (.hostDataPoisoned (.sqEntry q)) s claim :=
  completes_of_up hup rfl ⟨_, rfl, h⟩

/-- An answer stands in the mailbox whose command it is of (R327, R331). -/
theorem answers_zRespond {box status detail : Nat} {body : Bytes} {s x : State} (hx : x.stew = s.stew) :
    Answers box status detail body s (zRespond box status detail body x) := by
  intro r hr hd
  unfold zRespond
  rw [mbxOf_modMbx_same, mbxOf_congr hx, hr]
  dsimp only
  rw [hd, if_neg (by decide)]
  exact ⟨_, rfl, rfl, rfl⟩

theorem completes_hostAccessError_zalpol {s : State} {box : Nat} {r : ZReq} (hup : halted s = false)
    (hr : (mbxOf s box).req = some r) (hpassed : r.passed = true) (hresp : r.resp = none) :
    Completes (.hostAccessError (.zalpol box)) s fun t => Answers box 0x0109 0 [] s t ∧ Frame [.stew] s t := by
  refine completes_of_up hup rfl ⟨_, rfl, ?_⟩
  rw [if_pos (by simp [hr, hpassed, hresp])]
  exact ⟨answers_zRespond rfl, frame_withDigests.2 (Effect.refl (w := false)).zRespond.frame⟩

theorem completes_hostDataPoisoned_zalpol {s : State} {box : Nat} {r : ZReq} (hup : halted s = false)
    (hr : (mbxOf s box).req = some r) (hpassed : r.passed = true) (hresp : r.resp = none) :
    Completes (.hostDataPoisoned (.zalpol box)) s fun t => Answers box 0x0701 0 [] s t ∧ Frame [.stew, .rel] s t :=
  completes_of_up hup rfl ⟨_, if_pos (by simp [hr, hpassed, hresp]), answers_zRespond rfl,
    frame_withDigests.2 (Effect.refl (w := false)).logEv.zRespond.frame⟩

theorem completes_windowRead {s : State} {addr len h base : Nat} {cxl : Bool} (hup : halted s = false)
    (haddr : addr < s.hif.bar2 * 2 ^ 30) (hfn : cxl = true ∨ fnAnswers s 0 = true)
    (hunit : tabGet s.hif.window (addr / 2 ^ 21) = some (h, base)) :
    Completes (.windowRead cxl addr len) s fun t =>
      t.hif.winOut = some (objImage s h (base + addr % 2 ^ 21) (min len (64 - addr % 64)),
        objPoisoned s h (base + addr % 2 ^ 21) (min len (64 - addr % 64)) || s.aon.viral) ∧
      t.hif.winMiss = s.hif.winMiss ∧ Frame [.hif] s t := by
  refine completes_of_up hup rfl ?_
  rw [if_neg (by rcases hfn with h | h <;> simpa [h] using haddr), hunit]
  exact ⟨_, rfl, rfl, rfl, by simp [frame_iff]⟩

theorem completes_windowRead_miss {s : State} {addr len : Nat} {cxl : Bool} (hup : halted s = false)
    (haddr : addr < s.hif.bar2 * 2 ^ 30) (hfn : cxl = true ∨ fnAnswers s 0 = true) (hunit : tabGet s.hif.window (addr / 2 ^ 21) = none) :
    Completes (.windowRead cxl addr len) s fun t =>
      t.hif = { s.hif with winOut := some (List.replicate (min len (64 - addr % 64)) 0, s.aon.viral), winMiss := s.hif.winMiss + 1 } ∧
      Frame [.hif] s t := by
  refine completes_of_up hup rfl ?_
  rw [if_neg (by rcases hfn with h | h <;> simpa [h] using haddr), hunit]
  exact ⟨_, rfl, rfl, by simp [frame_iff]⟩

theorem completes_windowWrite {s : State} {addr : Nat} {cxl : Bool} (hup : halted s = false) :
    Completes (.windowWrite cxl addr) s fun t =>
      t.hif = { s.hif with winWrites := s.hif.winWrites + 1 } ∧ Frame [.hif, .rel] s t :=
  completes_of_up hup rfl ⟨_, rfl, rfl, frame_withDigests.2 (Effect.refl (w := false)).onHif.logEv.frame⟩

theorem getLsbD_withBit_same (v : BitVec 64) {i : Nat} (hi : i < 64) : (withBit v i).getLsbD i = true := by
  rw [withBit, BitVec.getLsbD_or, BitVec.getLsbD_ofNat, decide_eq_true hi, Nat.testBit_two_pow_self, Bool.true_and, Bool.or_true]

theorem getLsbD_withBit_of {v : BitVec 64} {j : Nat} (i : Nat) (h : v.getLsbD j = true) : (withBit v i).getLsbD j = true := by
  rw [withBit, BitVec.getLsbD_or, h, Bool.true_or]

theorem raiseCause_aon (i : Nat) (s : State) : (raiseCause i s).aon =
    { s.aon with faultCause := withBit s.aon.faultCause i, faultPresent := withBit s.aon.faultPresent i } := by
  simp [raiseCause]

/-- What a fatal cause leaves of the power domain and the host interface: its bit is set (R309, R382). -/
theorem fatal_facts (bit : Nat) (d : Det) (s : State) :
    (fatal bit d s).aon.faultCause = withBit s.aon.faultCause bit ∧ (fatal bit d s).aon.viral = s.aon.viral ∧ (fatal bit d s).hif = s.hif := by
  have latched : (latchGasp d.cause d.island s).aon.faultCause = s.aon.faultCause ∧
      (latchGasp d.cause d.island s).aon.viral = s.aon.viral ∧ (latchGasp d.cause d.island s).hif = s.hif := by
    unfold latchGasp
    split <;> exact ⟨rfl, rfl, rfl⟩
  obtain ⟨hc, hv, hh⟩ := latched
  unfold fatal
  rw [raiseCause_aon]
  exact ⟨congrArg (withBit · bit) hc, hv, ((Effect.refl (ps := [.aon, .stew, .rel]) (w := false)).detect.raiseCause.frame .hif (by decide)).trans hh⟩

/-- A node that becomes viral is in FAULT, the cause's bit set, and reports it (R309, R382). -/
theorem raiseViral_facts {s : State} (h : s.aon.viral = false) :
    (raiseViral s).aon.viral = true ∧ (raiseViral s).stew.st = .fault ∧
    (raiseViral s).aon.faultCause = withBit s.aon.faultCause 3 ∧ (raiseViral s).hif.aer = s.hif.aer + 1 := by
  unfold raiseViral
  rw [if_neg (by simp [h])]
  refine ⟨?_, rfl, ?_, ?_⟩
  · exact (congrArg Aon.viral (raiseCause_aon Cause.viral (s.onAon fun a => { a with viral := true }))).trans rfl
  · exact (congrArg Aon.faultCause (raiseCause_aon Cause.viral (s.onAon fun a => { a with viral := true }))).trans rfl
  · exact congrArg (fun h : Hif => h.aer + 1)
      ((Effect.refl (ps := [.aon, .stew, .rel]) (w := false)).onAon.raiseCause.frame .hif (by decide))

theorem completes_queueEngineInternalTimeout {s : State} (hup : halted s = false) (hviral : s.aon.viral = false) :
    Completes .queueEngineInternalTimeout s fun t =>
      t.aon.viral = true ∧ t.stew.st = .fault ∧ t.aon.faultCause.getLsbD 3 = true ∧ t.aon.faultCause.getLsbD 4 = true ∧
      t.hif.aer = s.hif.aer + 1 := by
  obtain ⟨hc, hv, hh⟩ := fatal_facts Cause.queueEngine { kind := 0, cause := 0x0A, unitKind := 9, island := 59 } s
  obtain ⟨h1, h2, h3, h4⟩ := raiseViral_facts (hv.trans hviral)
  refine completes_of_up hup rfl ⟨_, rfl, h1, h2, ?_, ?_, h4.trans (congrArg (fun h : Hif => h.aer + 1) hh)⟩
  · rw [withDigests_aon, h3]
    exact getLsbD_withBit_same _ (by decide)
  · rw [withDigests_aon, h3, hc]
    exact getLsbD_withBit_of 3 (getLsbD_withBit_same _ (by decide))

/-- Settles O17: each clause is what its command completes with. -/
theorem functionsLinkAndHostErrorsActOnQueues : Obligations.FunctionsLinkAndHostErrorsActOnQueues :=
  ⟨⟨fun _ _ hup hlive => completes_functionLevelReset hup hlive,
    fun _ hup => ⟨completes_perstNAssert hup, completes_hotReset hup, completes_linkDown hup⟩,
    fun _ _ _ _ _ _ hup hclk hr hrate hrmax hw hwidth hwmax => completes_linkTraining hup hclk hr hrate hrmax hw hwidth hwmax,
    fun _ _ hup hlive => ⟨completes_functionDStateChange_enter hup hlive, completes_functionDStateChange_leave hup hlive⟩,
    fun _ _ hup => completes_sriovVfEnable hup, fun _ _ hup hk => completes_bar2Resize hup hk⟩,
   fun _ _ _ hup hp hstate hdel hne => ⟨completes_hostAccessError_sqEntry hup (entryUnread_stops hp hstate hdel hne),
     completes_hostDataPoisoned_sqEntry hup (entryUnread_stops hp hstate hdel hne)⟩,
   fun _ _ _ hup hc hreads => ⟨completes_hostAccessError_cmd hup hc hreads, completes_hostDataPoisoned_cmd hup hc hreads⟩,
   fun _ _ _ hup hr hpassed hresp => ⟨completes_hostAccessError_zalpol hup hr hpassed hresp,
     completes_hostDataPoisoned_zalpol hup hr hpassed hresp⟩,
   fun _ _ _ _ _ _ hup haddr hfn hunit => completes_windowRead hup haddr hfn hunit,
   fun _ _ _ _ hup haddr hfn hunit => completes_windowRead_miss hup haddr hfn hunit,
   fun _ _ _ hup => completes_windowWrite hup,
   fun _ hup hviral => completes_queueEngineInternalTimeout hup hviral⟩

end Sys2Proof.Proofs

/-! The mailbox page and the Steward's side of a mailbox (R326 to R332, R337). -/

namespace Sys2Proof.Proofs
open Sys2Proof Sys2Proof.Machine Sys2Proof.Safety

set_option Elab.async false

/-! The page of a function's own mailbox. -/

/-- Of the Steward's unit a mailbox alone has changed. -/
theorem onlyMbx_of_modMbx {b : Nat} {f : Mbx → Mbx} {s x t : State} (ht : t.stew = (modMbx b f x).stew) (hx : x.stew = s.stew) :
    mbxOf t b = f (mbxOf s b) ∧ OnlyMbx b s t := by
  have hm : t.stew.mbx = tabSet s.stew.mbx b (f (tabGetD s.stew.mbx b {})) := by rw [ht, ← hx]; rfl
  refine ⟨?_, fun j hj => ?_, ?_⟩
  · rw [mbxOf, hm]
    exact tabGetD_tabSet_same ..
  · rw [hm, tabGet_tabSet_other _ _ _ _ hj]
  · rw [hm, ht, modMbx, State.onStew_stew, hx]

/-- An access of its own function's page while the Steward runs passes the guards (R326, R330). -/
theorem pageGuards {s : State} {box : Nat} {a b c : Res} {r : Res} (h1 : s.aon.inReset.contains 1 = false)
    (h59 : s.aon.inReset.contains 59 = false) (hfn : fnAnswers s box = true) :
    (if !fnAnswers s box || s.aon.inReset.contains 59 then a else if stewardDown s then b else if viewPage s box box then c else r) = r := by
  have hview : viewPage s box box = false := by
    unfold viewPage
    by_cases hb : box = 0 <;> simp [hb]
  rw [if_neg (by rw [hfn, h59]; decide), if_neg (by rw [stewardDown, h1]; decide), if_neg (by simp [hview])]

theorem ownPage_self {s : State} {box : Nat} (hfn : fnAnswers s box = true) : ownPage s box box = true := by
  simp [ownPage, hfn]

theorem completes_mbxWindowWrite {s : State} {box off : Nat} {b : Bytes} (h1 : s.aon.inReset.contains 1 = false)
    (h59 : s.aon.inReset.contains 59 = false) (hfn : fnAnswers s box = true) (hlo : 0x40 ≤ off) (hhi : off + b.length ≤ 0x1000)
    (hfree : (mbxOf s box).inFull = false) :
    Completes (.mbxWindowWrite box box off b) s fun t =>
      mbxOf t box = { mbxOf s box with inArea := putAt (mbxOf s box).inArea (off - 0x40) b } ∧ OnlyMbx box s t ∧
      Frame [.stew, .recd] s t := by
  refine ⟨_, (pageGuards h1 h59 hfn).trans ((if_neg ?_).trans (if_neg (by simp [hfree]))), ?_⟩
  · simp [ownPage_self hfn]; omega
  · obtain ⟨hm, ho⟩ := onlyMbx_of_modMbx (f := fun m => { m with inArea := putAt m.inArea (off - 0x40) b }) rfl
      (recordReg_stew box (pageBase box + off) (leNat b) s)
    exact ⟨hm, ho, (Effect.refl (w := false)).recordReg.modMbx.frame⟩

theorem completes_mbxDoorbellRing {s : State} {box v : Nat} (h1 : s.aon.inReset.contains 1 = false)
    (h59 : s.aon.inReset.contains 59 = false) (hfn : fnAnswers s box = true) (hv : v.testBit 0 = true)
    (hfree : (mbxOf s box).inFull = false) :
    Completes (.mbxDoorbellRing box box v) s fun t =>
      mbxOf t box = { mbxOf s box with inFull := true, inSince := s.aon.uptime } ∧
      (∀ j, j ≠ box → tabGet t.stew.mbx j = tabGet s.stew.mbx j) ∧ Frame [.stew, .recd] s t := by
  refine ⟨_, (pageGuards h1 h59 hfn).trans ((if_neg ?_).trans (if_neg (by simp [hfree]))), ?_⟩
  · simp [ownPage_self hfn, bitOf, hv]
  · obtain ⟨hm, ho⟩ := onlyMbx_of_modMbx (f := fun m => { m with inFull := true, inSince := now s })
      (x := stewardInt 0 (recordInput 6 box false (inMessage (mbxOf s box)) s)) (s := s) rfl (by simp)
    have hw (t : State) : (wakeEvent t).stew.mbx = t.stew.mbx := by
      unfold wakeEvent
      split <;> rfl
    refine ⟨(mbxOf_wakeEvent ..).trans hm, fun j hj => ?_, (Effect.refl (w := false)).recordInput.stewardInt.modMbx.wakeEvent.frame⟩
    rw [hw]
    exact ho.1 j hj

theorem completes_mbxStatusClear {s : State} {box v : Nat} (h1 : s.aon.inReset.contains 1 = false)
    (h59 : s.aon.inReset.contains 59 = false) (hfn : fnAnswers s box = true) :
    Completes (.mbxStatusClear box box v) s fun t =>
      mbxOf t box = { mbxOf s box with inDiscard := (mbxOf s box).inDiscard && !v.testBit 3 } ∧ OnlyMbx box s t ∧
      Frame [.stew, .recd] s t := by
  refine ⟨_, (pageGuards h1 h59 hfn).trans (if_neg (by simp [ownPage_self hfn])), ?_⟩
  obtain ⟨hm, ho⟩ := onlyMbx_of_modMbx (f := fun m => { m with inDiscard := m.inDiscard && !bitOf v 3 }) rfl
    (recordReg_stew box (pageBase box) v s)
  exact ⟨hm, ho, (Effect.refl (w := false)).recordReg.modMbx.frame⟩

theorem completes_mbxReleaseRead {s : State} {box : Nat} (h1 : s.aon.inReset.contains 1 = false)
    (h59 : s.aon.inReset.contains 59 = false) (hfn : fnAnswers s box = true) (hfull : (mbxOf s box).outFull = true) :
    Completes (.mbxReleaseRead box box) s fun t =>
      mbxOf t box = { mbxOf s box with
        outFull := false, req := if (byteAt (mbxOf s box).outArea 2).testBit 1 then (mbxOf s box).req else none } ∧
      t.hif.readData = fld (mbxOf s box).outArea 4 2 + 2 ^ 16 + 2 ^ 17 * (if (byteAt (mbxOf s box).outArea 2).testBit 1 then 1 else 0) ∧
      OnlyMbx box s t ∧ Frame [.hif, .stew, .recd] s t := by
  refine ⟨_, (pageGuards h1 h59 hfn).trans ((if_neg (by simp [ownPage_self hfn])).trans (if_neg (by simp [hfull]))), ?_⟩
  rw [if_pos hfull]
  obtain ⟨hm, ho⟩ := onlyMbx_of_modMbx (f := fun m : Mbx => { m with
    outFull := false, req := if bitOf (byteAt m.outArea 2) 1 then m.req else none }) (s := s)
    (x := (recordReg box (pageBase box + 0x10) (releaseValue (mbxOf s box)) s).onHif fun h => { h with readData := releaseValue (mbxOf s box) })
    rfl (recordReg_stew ..)
  exact ⟨hm, rfl, ho, (Effect.refl (w := false)).recordReg.onHif.modMbx.frame⟩

/-! The Steward's side. -/

@[simp] theorem putChunk_replaying (ty st : Nat) (b : Bytes) (s : State) : (putChunk ty st b s).recd.replaying = s.recd.replaying := by
  unfold putChunk flushDigests rawChunk
  split <;> rfl

@[simp] theorem token_replaying (c i j w v : Nat) (s : State) : (token c i j w v s).recd.replaying = s.recd.replaying := by
  unfold token
  split
  · exact putChunk_replaying ..
  · rfl

/-- What refuses a request depends on the replay, the mailbox and the node's state alone (R329). -/
theorem requestBad_congr {s t : State} {box : Nat} (hr : t.recd.replaying = s.recd.replaying) (hm : mbxOf t box = mbxOf s box)
    (hst : t.stew.st = s.stew.st) (hrom : t.stew.rom = s.stew.rom) (m : Bytes) : requestBad t box m = requestBad s box m := by
  unfold requestBad stateAccepts
  rw [hr, hm, hst, hrom]

theorem firstBad_eq_none {l : List Chk} : firstBad l = none ↔ ∀ c ∈ l, c.2 = true := by
  induction l with
  | nil => simp [firstBad]
  | cons c l ih =>
    obtain ⟨o, ok⟩ := c
    cases ok <;> simp [firstBad, ih]

/-- A request that is not refused and has no recovery sequence is of no recovery command (R331). -/
theorem no_recovery_of_requestBad {s : State} {box : Nat} {m : Bytes} (h : requestBad s box m = none) (h0 : fld m 0x10 8 = 0) :
    ((zSpec (fld m 0 2)).map fun z => z.2.1).getD false = false := by
  unfold requestBad at h
  dsimp only at h
  split at h
  · cases h
  · next z hz =>
    split at h
    · cases h
    · next hok =>
      have := firstBad_eq_none.1 hok (0x10, (fld m 0x10 8 == 0) == !z.2.1) (by simp [headerChecks])
      rw [hz]
      simpa [h0] using this

/-- The state in which the Steward looks at a request: the turn is counted, and the mailbox is as it was (R328). -/
def turnTaken (box : Nat) (s : State) : State :=
  (bucketCharge 0 box 1 (token 0x02 1 0 2 box (s.onFab fun f => { f with
    urgent := f.urgent.filter (· != (0, 4096 + box)) }))).onStew fun w => { w with lastServed := box }

theorem turnTaken_facts (box : Nat) (s : State) : (turnTaken box s).recd.replaying = s.recd.replaying ∧
    (turnTaken box s).stew = { s.stew with lastServed := box } := by
  have hb : (bucketCharge 0 box 1 (token 0x02 1 0 2 box (s.onFab fun f => { f with
      urgent := f.urgent.filter (· != (0, 4096 + box)) }))).recd = _ :=
    (Effect.refl (ps := [.fab]) (w := false)).bucketCharge.frame .recd (by decide)
  have hs : (bucketCharge 0 box 1 (token 0x02 1 0 2 box (s.onFab fun f => { f with
      urgent := f.urgent.filter (· != (0, 4096 + box)) }))).stew = _ :=
    (Effect.refl (ps := [.fab]) (w := false)).bucketCharge.frame .stew (by decide)
  constructor
  · rw [turnTaken, State.onStew_recd, hb, token_replaying]
    rfl
  · rw [turnTaken, State.onStew_stew, hs, token_stew]
    rfl

theorem requestBad_turnTaken (box : Nat) (m : Bytes) (s : State) : requestBad (turnTaken box s) box m = requestBad s box m := by
  obtain ⟨hr, hs⟩ := turnTaken_facts box s
  exact requestBad_congr hr (by simp [mbxOf, hs]) (by rw [hs]) (by rw [hs]) m

theorem exec_mbxRequestTake {s : State} {box : Nat} (h1 : s.aon.inReset.contains 1 = false) (hq : quiescing s = false)
    (hring : ringFull s = false) (hbusy : s.stew.busy = false) (hnext : nextMailbox s = some box) :
    exec .mbxRequestTake s = whileUp s (
      let m := inMessage (mbxOf s box)
      match requestBad (turnTaken box s) box m with
      | some (st, d) => .next (takeInto box { msg := m, at_ := now (turnTaken box s), resp := some (answerOf m st d []) } (turnTaken box s))
      | none =>
        if ((zSpec (fld m 0 2)).map fun z => z.2.1).getD false && (mbxOf (turnTaken box s) box).recSeq == some (fld m 0x10 8) then
          let b := putAt (mbxOf (turnTaken box s) box).recResp 4 (slice m 4 2)
          .next (takeInto box { msg := m, at_ := now (turnTaken box s), resp := some b } (turnTaken box s))
        else .next (takeInto box { msg := m, at_ := now (turnTaken box s), passed := true } (turnTaken box s))) := by
  change execMbxRequestTake s = _
  unfold execMbxRequestTake
  rw [if_neg (by rw [stewardDown, h1, hq, hring]; decide), hnext]
  dsimp only
  rw [if_neg (by simp [hbusy])]
  rfl

theorem mbxOf_takeInto (box : Nat) (r : ZReq) (s : State) : mbxOf (takeInto box r s) box = { mbxOf s box with inFull := false, req := some r } :=
  mbxOf_modMbx_same ..

theorem completes_mbxRequestTake_refused {s : State} {box st d : Nat} (hup : halted s = false) (h1 : s.aon.inReset.contains 1 = false)
    (hq : quiescing s = false) (hring : ringFull s = false) (hbusy : s.stew.busy = false) (hnext : nextMailbox s = some box)
    (hbad : requestBad s box (inMessage (mbxOf s box)) = some (st, d)) :
    Completes .mbxRequestTake s fun t => (mbxOf t box).inFull = false ∧
      ∃ r, (mbxOf t box).req = some r ∧ r.msg = inMessage (mbxOf s box) ∧ r.passed = false ∧
        r.resp = some (answerOf (inMessage (mbxOf s box)) st d []) := by
  refine completes_of_up hup (exec_mbxRequestTake h1 hq hring hbusy hnext) ?_
  dsimp only
  rw [requestBad_turnTaken, hbad]
  refine ⟨_, rfl, ?_⟩
  rw [mbxOf_congr (withDigests_stew ..), mbxOf_takeInto]
  exact ⟨rfl, _, rfl, rfl, rfl, rfl⟩

theorem completes_mbxRequestTake_passed {s : State} {box : Nat} (hup : halted s = false) (h1 : s.aon.inReset.contains 1 = false)
    (hq : quiescing s = false) (hring : ringFull s = false) (hbusy : s.stew.busy = false) (hnext : nextMailbox s = some box)
    (hbad : requestBad s box (inMessage (mbxOf s box)) = none) (hseq : fld (inMessage (mbxOf s box)) 0x10 8 = 0) :
    Completes .mbxRequestTake s fun t => (mbxOf t box).inFull = false ∧
      ∃ r, (mbxOf t box).req = some r ∧ r.msg = inMessage (mbxOf s box) ∧ r.passed = true ∧ r.resp = none := by
  refine completes_of_up hup (exec_mbxRequestTake h1 hq hring hbusy hnext) ?_
  dsimp only
  rw [requestBad_turnTaken, hbad]
  have hrec := no_recovery_of_requestBad hbad hseq
  rw [hrec]
  refine ⟨_, rfl, ?_⟩
  rw [mbxOf_congr (withDigests_stew ..), mbxOf_takeInto]
  exact ⟨rfl, _, rfl, rfl, rfl, rfl⟩

theorem mailMsi_stew (fn : Nat) (s : State) : (mailMsi fn s).stew = s.stew := by
  unfold mailMsi
  split
  · rfl
  · exact sendMsi_stew ..

theorem completes_mbxResponsePost {s : State} {box : Nat} {r : ZReq} {b : Bytes} (hup : halted s = false)
    (h1 : s.aon.inReset.contains 1 = false) (hr : (mbxOf s box).req = some r) (hresp : r.resp = some b)
    (hfree : (mbxOf s box).outFull = false) :
    Completes (.mbxResponsePost box) s fun t =>
      mbxOf t box = { mbxOf s box with outArea := b, outFull := true } ∧ OnlyMbx box s t ∧ Frame [.aon, .hif, .stew] s t := by
  have hexec : exec (.mbxResponsePost box) s =
      whileUp s (.next (mailMsi box (modMbx box (fun m => { m with outArea := b, outFull := true }) s))) := by
    change execMbxResponsePost box s = _
    simp only [execMbxResponsePost, hr, Option.bind_some, hresp]
    rw [if_neg (by rw [hfree, stewardDown, h1]; decide)]
  obtain ⟨hm, ho⟩ := onlyMbx_of_modMbx (s := s) (x := s) (b := box) (f := fun m => { m with outArea := b, outFull := true })
    (t := withDigests s (mailMsi box (modMbx box (fun m => { m with outArea := b, outFull := true }) s))) (mailMsi_stew ..) rfl
  exact completes_of_up hup hexec ⟨_, rfl, hm, ho, frame_withDigests.2 (Effect.refl (w := false)).modMbx.mailMsi.frame⟩

theorem completes_mbxEventDeliver {s : State} {box : Nat} {e : Bytes} {es : List Bytes} (hup : halted s = false)
    (h1 : s.aon.inReset.contains 1 = false) (hbusy : s.stew.busy = false) (hev : (mbxOf s box).events = e :: es)
    (hfree : (mbxOf s box).outFull = false) :
    Completes (.mbxEventDeliver box) s fun t =>
      mbxOf t box = { mbxOf s box with
        outArea := putAt e 0x0E (toLe 2 (mbxOf s box).lost), outFull := true, events := es, lost := 0 } ∧
      OnlyMbx box s t ∧ Frame [.aon, .hif, .stew] s t := by
  have hexec : exec (.mbxEventDeliver box) s = whileUp s (.next (mailMsi box (modMbx box (fun m => { m with
      outArea := putAt e 0x0E (toLe 2 m.lost), outFull := true, events := es, lost := 0 }) s))) := by
    change execMbxEventDeliver box s = _
    simp only [execMbxEventDeliver, hev]
    rw [if_neg (by rw [hfree, stewardDown, h1, hbusy]; decide)]
  obtain ⟨hm, ho⟩ := onlyMbx_of_modMbx (s := s) (x := s) (b := box)
    (f := fun m => { m with outArea := putAt e 0x0E (toLe 2 m.lost), outFull := true, events := es, lost := 0 })
    (t := withDigests s (mailMsi box (modMbx box (fun m => { m with
      outArea := putAt e 0x0E (toLe 2 m.lost), outFull := true, events := es, lost := 0 }) s))) (mailMsi_stew ..) rfl
  refine completes_of_up hup hexec ⟨_, rfl, hm, ho, frame_withDigests.2 ?_⟩
  have hmod : Frame [.stew] s (modMbx box (fun m => { m with
      outArea := putAt e 0x0E (toLe 2 m.lost), outFull := true, events := es, lost := 0 }) s) := by simp [frame_iff, modMbx]
  intro p hp
  exact sameOn_trans (hmod p (by simp_all))
    ((Effect.refl (ps := [.aon, .hif]) (w := false)).mailMsi.frame p (by simp_all))

theorem completes_mbxDomainDownTimeout {s : State} {box : Nat} {r : ZReq} (hup : halted s = false)
    (hr : (mbxOf s box).req = some r) (hpassed : r.passed = true) (hresp : r.resp = none)
    (hdown : (zDomains (fld r.msg 0 2)).any (domainDown s) = true) (hdue : r.at_ + 10 ^ 9 ≤ s.aon.uptime)
    (hhusks : ∀ h ∈ s.eng.husks, h.2.mbx ≠ some box) :
    Completes (.mbxDomainDownTimeout box) s fun t => Answers box 0x0108 0 [] s t ∧ Frame [.stew] s t := by
  refine completes_of_up hup rfl ?_
  rw [hr]
  dsimp only
  have hlt : decide (now s < r.at_ + 10 ^ 9) = false := decide_eq_false (Nat.not_lt.2 hdue)
  rw [if_neg (by rw [hpassed, hresp, hdown, hlt]; decide),
    List.find?_eq_none.2 fun h hh => by simpa using hhusks h hh]
  exact ⟨_, rfl, answers_zRespond rfl, frame_withDigests.2 (Effect.refl (w := false)).zFail.frame⟩

/-- Settles O18: each clause is what its command completes with. -/
theorem mailboxesCarryMessagesToAndFro : Obligations.MailboxesCarryMessagesToAndFro :=
  ⟨fun _ _ h1 h59 hfn => ⟨fun _ _ hlo hhi hfree => completes_mbxWindowWrite h1 h59 hfn hlo hhi hfree,
     fun _ hv hfree => completes_mbxDoorbellRing h1 h59 hfn hv hfree, fun _ => completes_mbxStatusClear h1 h59 hfn,
     fun hfull => completes_mbxReleaseRead h1 h59 hfn hfull⟩,
   fun _ _ hup h1 hq hring hbusy hnext =>
     ⟨fun _ _ hbad => completes_mbxRequestTake_refused hup h1 hq hring hbusy hnext hbad,
      fun hbad hseq => completes_mbxRequestTake_passed hup h1 hq hring hbusy hnext hbad hseq⟩,
   fun _ _ _ _ hup h1 hr hresp hfree => completes_mbxResponsePost hup h1 hr hresp hfree,
   fun _ _ _ _ hup h1 hbusy hev hfree => completes_mbxEventDeliver hup h1 hbusy hev hfree,
   fun _ _ _ hup hr _ hpassed hresp hdown hdue hhusks => completes_mbxDomainDownTimeout hup hr hpassed hresp hdown hdue hhusks⟩

end Sys2Proof.Proofs

/-! The completion of a command (R57, R103, R220, R251, R317, R324). -/

namespace Sys2Proof.Proofs
open Sys2Proof Sys2Proof.Machine Sys2Proof.Safety

set_option Elab.async false

/-! The end of a command touches the engine's locks and drain counts alone. -/

theorem postCompl_eng (q : Nat) (c : Compl) (s : State) : (postCompl q c s).eng = s.eng :=
  (Effect.refl (ps := [.hif, .shv]) (w := false)).postCompl.frame .eng (by decide)

theorem checkDelete_eng (q : Nat) (s : State) : (checkDelete q s).eng = s.eng :=
  (Effect.refl (ps := [.hif, .stew]) (w := false)).checkDelete.frame .eng (by decide)

theorem foldl_dropPin_hif (l : List Nat) (s : State) : (l.foldl (fun s k => dropPin k s) s).hif = s.hif :=
  foldl_same State.hif _ l s fun _ _ => rfl

theorem foldl_dropPin_eng (l : List Nat) (s : State) : (l.foldl (fun s k => dropPin k s) s).eng = s.eng :=
  foldl_same State.eng _ l s fun _ _ => rfl

theorem unbindEpoch_hif (e : Option Nat) (s : State) : (unbindEpoch e s).hif = s.hif := by
  cases e <;> rfl

theorem unbindEpoch_locks (e : Option Nat) (s : State) : (unbindEpoch e s).eng.locks = s.eng.locks := by
  cases e <;> rfl

theorem endCmd_eng {n : Nat} {c : Cmd} {s : State} (hc : cmdOf s n = some c) :
    (endCmd n s).eng = (unbindEpoch c.epoch (releaseLocks false n s)).eng := by
  unfold endCmd
  rw [hc]
  dsimp only
  rw [checkDelete_eng, State.onHif_eng, foldl_dropPin_eng]

/-- What checkDelete looks at is the queue pair alone: a queue that is not being deleted stays as it is. -/
theorem checkDelete_of_not_deleting {q : Nat} {s : State} (h : (qpOf s q).deleting = false) : checkDelete q s = s := by
  unfold checkDelete
  extract_lets p
  exact if_neg (by simp [p, h])

theorem endCmd_hif {n : Nat} {c : Cmd} {s : State} (hc : cmdOf s n = some c) (hd : (qpOf s c.qp).deleting = false) :
    (endCmd n s).hif = { s.hif with cmds := tabDel s.hif.cmds n } := by
  have hif : (c.pins.foldl (fun s k => dropPin k s) (unbindEpoch c.epoch (releaseLocks false n s))).hif = s.hif := by
    rw [foldl_dropPin_hif, unbindEpoch_hif]
    rfl
  unfold endCmd
  rw [hc]
  dsimp only
  rw [checkDelete_of_not_deleting, State.onHif_hif, hif]
  rw [qpOf, State.onHif_hif, hif]
  exact hd

/-! The data of a completion is written in order. -/

theorem hostWrite_out {fn addr : Nat} {b : Bytes} {ep : Bool} {s : State} (hup : halted s = false) (hb : b ≠ []) :
    (hostWrite fn addr b ep s).hif.out = s.hif.out ++ [⟨fn, addr, b, ep⟩] := by
  rw [hostWrite, if_neg (by simp [hup, hb])]
  rfl

theorem hostWrite_aon (fn addr : Nat) (b : Bytes) (ep : Bool) (s : State) : (hostWrite fn addr b ep s).aon = s.aon := by
  unfold hostWrite
  split <;> rfl

theorem foldl_hostWrite_out {l : List HostWr} {s : State} (hup : halted s = false) (hl : ∀ w ∈ l, w.bytes ≠ []) :
    (l.foldl (fun s w => hostWrite w.fn w.addr w.bytes w.ep s) s).hif.out = s.hif.out ++ l := by
  induction l generalizing s with
  | nil => exact (List.append_nil _).symm
  | cons w l ih =>
    have hrun : halted (hostWrite w.fn w.addr w.bytes w.ep s) = false := (halted_congr (hostWrite_aon ..)).trans hup
    rw [List.foldl_cons, ih hrun fun v hv => hl v (List.mem_cons_of_mem w hv), hostWrite_out hup (hl w List.mem_cons_self),
      List.append_assoc]
    rfl

theorem complBytes_ne_nil (c : Compl) (h : Nat) (ph : Bool) : complBytes c h ph ≠ [] := by simp [complBytes, toLe]

/-- All of a completion's data, and then the completion, is written (R317). -/
theorem complPosted_out {q : Nat} {c : Compl} {s : State} (hup : halted s = false) (hc : ∀ w ∈ c.data, w.bytes ≠ []) :
    (complPosted q c s).hif.out = s.hif.out ++ c.data ++
      [⟨(qpOf s q).tenant, fld (qpOf s q).ctx 0x10 8 + 32 * (qpOf s q).cqTail, complBytes c (qpOf s q).sqHead (qpOf s q).phase, false⟩] := by
  have hsteady : HostSteady s (c.data.foldl (fun s w => hostWrite w.fn w.addr w.bytes w.ep s) s) :=
    HostSteady.refl.foldl fun _ _ h => h.hostWrite
  rw [complPosted, hostWrite_out ((halted_congr hsteady.aon).trans hup) (complBytes_ne_nil _ _ _), foldl_hostWrite_out hup hc]

/-! A completion with no other before it is written at once (R57, R318). -/

theorem cqTail_modQp {q j : Nat} {f : Qp → Qp} (s : State) (hf : ∀ p, (f p).cqTail = p.cqTail) :
    (qpOf (modQp j f s) q).cqTail = (qpOf s q).cqTail := by
  by_cases hj : q = j
  · subst hj
    obtain h | h := qpOf_modQp_same q f s <;> rw [h]
    exact hf _
  · rw [qpOf_modQp_other _ _ hj]

theorem cqTail_signalCq (q j : Nat) (s : State) : (qpOf (signalCq j s) q).cqTail = (qpOf s q).cqTail := by
  unfold signalCq
  refine (cqTail_modQp _ ?_).trans (congrArg Qp.cqTail (qpOf_sendMsi ..))
  exact fun _ => rfl

/-- A written completion moves the tail on by one (R318). -/
theorem cqTail_writeCompl {q : Nat} {p : Qp} {c : Compl} {s : State} (hp : tabGet s.hif.qps q = some p) :
    (qpOf (writeCompl q c s) q).cqTail = (p.cqTail + 1) % fld p.ctx 0x1C 4 := by
  have hq := qpOf_of_tabGet hp
  have hcounted : (qpOf (complCounted q c s) q).cqTail = (p.cqTail + 1) % fld p.ctx 0x1C 4 := by
    have hqps : (complPosted q c s).hif.qps = s.hif.qps := by
      unfold complPosted hostWrite
      have hfold := foldl_same (fun s : State => s.hif.qps) (fun s w => hostWrite w.fn w.addr w.bytes w.ep s) c.data s fun _ _ => by
        unfold hostWrite
        split <;> rfl
      split <;> exact hfold
    unfold complCounted
    rw [qpOf_of_tabGet (tabGet_modQp_of_some _ (by rw [hqps]; exact hp)), hq]
  rw [writeCompl_eq]
  split
  · rw [cqTail_signalCq, hcounted]
  · exact hcounted

/-- The queue pair with a completion that waits taken in and out again. -/
theorem qp_staged_cleared {p : Qp} (h : p.staged = []) (c : Compl) :
    ({ ({ p with staged := p.staged ++ [c] } : Qp) with staged := [] } : Qp) = p := by
  cases p
  cases h
  rfl

/-- With nothing waiting and room in the queue a completion is written at once. -/
theorem postCompl_facts {q : Nat} {p : Qp} {c : Compl} {s : State} (hup : halted s = false) (hp : tabGet s.hif.qps q = some p)
    (hstate : p.qstate = .enabled) (hstaged : p.staged = []) (hroom : canDrain s q = true) (hc : ∀ w ∈ c.data, w.bytes ≠ []) :
    (postCompl q c s).hif.out = s.hif.out ++ c.data ++
      [⟨p.tenant, fld p.ctx 0x10 8 + 32 * p.cqTail, complBytes c p.sqHead p.phase, false⟩] ∧
    (qpOf (postCompl q c s) q).cqTail = (p.cqTail + 1) % fld p.ctx 0x1C 4 := by
  have hq := qpOf_of_tabGet hp
  have happ := tabGet_modQp_of_some (fun p => { p with staged := p.staged ++ [c] }) hp
  have hqapp := qpOf_of_tabGet happ
  have htaken := tabGet_modQp_of_some (fun p : Qp => { p with staged := [] }) happ
  rw [qp_staged_cleared hstaged] at htaken
  have hdrain : postCompl q c s = noteWait q (freeStaging c.batch (writeCompl q c (modQp q (fun p => { p with staged := [] })
      (modQp q (fun p => { p with staged := p.staged ++ [c] }) s)))) := by
    unfold postCompl
    rw [hq, hstate]
    dsimp only
    rw [drainCq, hqapp, hstaged, List.nil_append, List.length_singleton, drainGo, hqapp, hstaged]
    refine congrArg _ (if_pos ?_)
    rw [← hroom]
    unfold canDrain
    rw [hqapp, hq]
    rfl
  constructor
  · rw [hdrain]
    refine (congrArg Hif.out (freeStaging_hif ..)).trans ((out_writeCompl ..).trans ?_)
    rw [complPosted_out (c := c) (by exact hup) hc, qpOf_of_tabGet htaken]
    rfl
  · rw [hdrain]
    unfold noteWait
    refine (cqTail_modQp _ ?_).trans ?_
    · exact fun _ => rfl
    rw [qpOf_congr (freeStaging_hif ..), cqTail_writeCompl htaken]

theorem hostWrite_cmds (fn addr : Nat) (b : Bytes) (ep : Bool) (s : State) : (hostWrite fn addr b ep s).hif.cmds = s.hif.cmds := by
  unfold hostWrite
  split <;> rfl

theorem signalCq_cmds (q : Nat) (s : State) : (signalCq q s).hif.cmds = s.hif.cmds := sendMsi_cmds ..

theorem complCounted_cmds (q : Nat) (c : Compl) (s : State) : (complCounted q c s).hif.cmds = s.hif.cmds :=
  (hostWrite_cmds ..).trans (foldl_same (fun s : State => s.hif.cmds) _ c.data s fun _ _ => hostWrite_cmds ..)

theorem writeCompl_cmds (q : Nat) (c : Compl) (s : State) : (writeCompl q c s).hif.cmds = s.hif.cmds := by
  rw [writeCompl_eq]
  split
  · rw [signalCq_cmds, complCounted_cmds]
  · rw [complCounted_cmds]

theorem drainGo_cmds (k q : Nat) (s : State) : (drainGo k q s).hif.cmds = s.hif.cmds := by
  induction k generalizing s with
  | zero => rfl
  | succ k ih =>
    unfold drainGo
    split
    · rfl
    · split
      · rw [ih, freeStaging_hif, writeCompl_cmds]
        rfl
      · rfl

/-- A completion leaves the table of commands as it is (R57). -/
theorem postCompl_cmds (q : Nat) (c : Compl) (s : State) : (postCompl q c s).hif.cmds = s.hif.cmds := by
  have drained : (drainCq q (modQp q (fun p => { p with staged := p.staged ++ [c] }) s)).hif.cmds = s.hif.cmds := drainGo_cmds ..
  unfold postCompl
  split
  · exact drained
  · exact drained
  · rw [freeStaging_hif]

/-! The shape of the result data (R317, R324). -/

theorem resultWrites_lost {fn lo n : Nat} {r : Result} (hlost : r.lost = [(lo, n)]) (hlo : 0 < lo) (hlen : lo + n < r.bytes.length) :
    resultWrites fn r = [⟨fn, r.addr, slice r.bytes 0 lo, false⟩, ⟨fn, r.addr + lo, slice r.bytes lo n, true⟩,
      ⟨fn, r.addr + (lo + n), r.bytes.drop (lo + n), false⟩] := by
  have hne : r.bytes.isEmpty = false := by
    cases h : r.bytes with
    | nil => rw [h] at hlen; cases hlen
    | cons _ _ => rfl
  rw [resultWrites, if_neg (by simp [hne]), if_neg (by simp [hlost]), hlost, splitWrites, splitWrites, if_pos hlo, if_pos hlen]
  rfl

theorem resultWrites_whole {fn : Nat} {r : Result} (hb : r.bytes ≠ []) (hlost : r.lost = []) :
    resultWrites fn r = [⟨fn, r.addr, r.bytes, r.status == 0x0701⟩] := by
  have hlen : 0 < r.bytes.length := List.length_pos_of_ne_nil hb
  rw [resultWrites, if_neg (by simp [hb]), hlost, splitWrites, if_pos hlen]
  by_cases hst : r.status = St.poison
  · rw [if_pos (by simp [hst]), hst]
    rfl
  · have : (r.status == 0x0701) = false := beq_false_of_ne hst
    rw [if_neg (by simp [hst]), this]
    rfl

/-- Settles O24: the completion is posted, then the command leaves the engine and the table. -/
theorem finishingWritesOneCompletion : Obligations.FinishingWritesOneCompletion := by
  refine ⟨fun s n c p r hup hc hsup hp hstate hstaged hdel hroom hw => ?_, fun fn r hr => if_pos (by simp [hr]),
    fun fn r hb hlost => resultWrites_whole hb hlost, fun fn r lo n hlost hlo hlen => resultWrites_lost hlost hlo hlen⟩
  have hq := qpOf_of_tabGet hp
  have hcompl : (complOf s c r).data = resultWrites p.tenant r := by rw [complOf, hq]
  obtain ⟨hout, htail⟩ := postCompl_facts (c := complOf s c r) hup hp hstate hstaged hroom (hcompl ▸ hw)
  have steady := (HostSteady.refl (s := s)).postCompl (q := c.qp) (c := complOf s c r)
  have hfin : finishCmd n r s = endCmd n (postCompl c.qp (complOf s c r) s) := by
    unfold finishCmd
    rw [hc]
    dsimp only
    rw [if_neg (by simp [hsup])]
  have hcmd : cmdOf (postCompl c.qp (complOf s c r) s) n = some c := by rw [cmdOf, postCompl_cmds]; exact hc
  have hd : (qpOf (postCompl c.qp (complOf s c r) s) c.qp).deleting = false :=
    ((steady.qps c.qp).stays (by rw [hq]; exact hdel)).1
  have hif := endCmd_hif hcmd hd
  have heng := endCmd_eng hcmd
  refine ⟨?_, cmdOf_finishCmd .., fun l hl => ?_, fun e k he hk => ?_, ?_⟩
  · rw [hfin, hif]
    refine hout.trans ?_
    rw [hcompl]
    rfl
  · rw [hfin, heng, unbindEpoch_locks] at hl
    rintro ⟨hh, hi⟩
    have := (List.mem_filter.1 hl).2
    simp [lockOf, hh, hi] at this
  · rw [hfin, heng, he]
    refine (tabGet_tabMod_same (releaseLocks false n (postCompl c.qp (complOf s c r) s)).eng.drain e (· - 1)).trans ?_
    have hdrain : (releaseLocks false n (postCompl c.qp (complOf s c r) s)).eng.drain = s.eng.drain :=
      (congrArg Eng.drain (postCompl_eng c.qp (complOf s c r) s) :)
    rw [hdrain, hk]
    rfl
  · rw [hfin, qpOf, hif]
    exact htail

end Sys2Proof.Proofs

/-! What carries out a Zalpol command, and what its answer leaves (R327, R332). -/

namespace Sys2Proof.Proofs
open Sys2Proof Sys2Proof.Machine Sys2Proof.Safety

set_option Elab.async false

/-- A Zalpol command that the Steward may carry out is carried out. -/
theorem completes_zalpol {c : Instr} {s : State} {box code : Nat} {m : Bytes} {k : Bytes → State → State} {claim : State → Prop}
    (h : Serves s box code m) (hexec : exec c s = whileUp s (onZalpol box code s k)) (hk : claim (withDigests s (k m s))) :
    Completes c s claim := by
  refine completes_of_up h.1 hexec ⟨k m s, ?_, hk⟩
  rw [onZalpol, h.2]

theorem zChecked_of_none {box : Nat} {l : List Chk} {s : State} {k : State → State} (h : firstBad l = none) :
    zChecked box l s k = k s := by
  rw [zChecked, h]

/-- Of the Steward's unit an answer changes its own mailbox alone. -/
theorem onlyMbx_zRespond {box status detail : Nat} {body : Bytes} {s x : State} (hx : x.stew = s.stew) :
    OnlyMbx box s (zRespond box status detail body x) :=
  (onlyMbx_of_modMbx rfl hx).2

theorem answers_answered {box status detail : Nat} {body : Bytes} {s x : State} (hx : x.stew = s.stew) :
    Answers box status detail body s (withDigests s (zRespond box status detail body x)) := answers_zRespond hx

theorem onlyMbx_answered {box status detail : Nat} {body : Bytes} {s x : State} (hx : x.stew = s.stew) :
    OnlyMbx box s (withDigests s (zRespond box status detail body x)) := onlyMbx_zRespond hx

theorem onlyMbx_congr {box : Nat} {s t u : State} (h : OnlyMbx box s t) (hu : u.stew = t.stew) : OnlyMbx box s u := by
  unfold OnlyMbx
  rw [hu]
  exact h

theorem zRespond_stew_with {box status detail : Nat} {body : Bytes} {s : State} :
    (zRespond box status detail body s).stew = { s.stew with mbx := (zRespond box status detail body s).stew.mbx } := rfl

/-- What stands in a message's request is what the mailbox holds; it has passed its checks and is not answered (R329, R332). -/
theorem req_of_serves {s : State} {box code : Nat} {m : Bytes} (h : Serves s box code m) :
    ∃ r, (mbxOf s box).req = some r ∧ r.msg = m ∧ r.passed = true ∧ r.resp = none := by
  have h := h.2
  unfold zReady at h
  split at h
  · next r hr =>
    split at h
    · next hc =>
      simp at hc
      exact ⟨r, ‹_›, Option.some.inj h, hc.1.1.1.1.1, hc.1.1.1.1.2⟩
    · cases h
  · cases h

theorem leNat_append_zeros (b : Bytes) (n : Nat) : leNat (b ++ List.replicate n 0) = leNat b := by
  induction b with
  | nil =>
    induction n with
    | zero => rfl
    | succ n ih => simpa [List.replicate_succ, leNat] using ih
  | cons a b ih => rw [List.cons_append, leNat, leNat, ih]

/-- A field within a slice is the field of the whole. -/
theorem fld_slice (b : Bytes) (off : Nat) {n i k : Nat} (h : i + k ≤ n) : fld (slice b off n) i k = fld b (off + i) k := by
  unfold slice fld
  dsimp only
  rw [List.drop_append, List.take_append, List.drop_replicate, List.take_replicate, leNat_append_zeros, List.drop_take, List.take_take,
    List.drop_drop, Nat.min_eq_left (by omega)]

end Sys2Proof.Proofs

/-! Queue commands, time and power (R17, R312, R320, R325, R334, R430). -/

namespace Sys2Proof.Proofs
open Sys2Proof Sys2Proof.Machine Sys2Proof.Safety

set_option Elab.async false

theorem ownsQueue_of_tabGet {s : State} {q t : Nat} {p : Qp} (hp : tabGet s.hif.qps q = some p) (ht : p.tenant = t) :
    ownsQueue s t q = true := by
  simp [ownsQueue, hp, ht]

theorem completes_queueCreate {s : State} {box : Nat} {m : Bytes} {p : Qp} (h : Serves s box 0x0110 m)
    (hp : tabGet s.hif.qps (fld m 0x20 2) = some p) (ht : p.tenant = zTenant m) (hq : p.qstate = .disabled)
    (hres : firstBad (contextReserved (slice m 0x20 64)) = none) (hrng : firstBad (contextRanges s (zTenant m) (slice m 0x20 64)) = none) :
    Completes (.queueCreate box) s fun t => Answers box 0 0 [] s t ∧
      tabGet t.hif.qps (fld m 0x20 2) = some { tenant := p.tenant, ctx := slice m 0x20 64, qstate := .enabled } ∧
      OnlyQp (fld m 0x20 2) s t ∧ OnlyMbx box s t ∧ Frame [.hif, .stew] s t := by
  refine completes_zalpol h rfl ?_
  dsimp only
  rw [zChecked_of_none hres, fld_slice m 0x20 (i := 0) (by decide), if_neg (by simp [ownsQueue_of_tabGet hp ht]), zChecked_of_none hrng,
    if_neg (by simp [qpOf_of_tabGet hp, hq])]
  refine ⟨answers_zRespond rfl, ?_, ⟨fun j hj => ?_, ?_⟩, onlyMbx_zRespond rfl, ?_⟩
  · rw [withDigests_hif, zRespond_hif]
    exact tabGet_modQp_of_some _ hp
  · rw [withDigests_hif, zRespond_hif]
    exact tabGet_modQp_other _ _ hj
  · rw [withDigests_hif, zRespond_hif]
    rfl
  · exact frame_withDigests.2 (Effect.refl (w := false)).modQp.zRespond.frame

/-- A queue that is to be deleted has no entries left (R320). -/
def deletingQp (p : Qp) : Qp := { p with deleting := true, fetched := [], wait := false }

section
variable {s : State} {box : Nat} {m : Bytes} {p : Qp}

theorem completes_queueDelete_disabled (h : Serves s box 0x0111 m) (hlt : fld m 0x20 2 < 4096)
    (hp : tabGet s.hif.qps (fld m 0x20 2) = some p) (ht : p.tenant = zTenant m) (hq : p.qstate = .disabled) :
    Completes (.queueDelete box) s fun t => Answers box 0 0 [] s t ∧ Frame [.stew] s t := by
  refine completes_zalpol h rfl ?_
  dsimp only
  rw [zChecked_of_none (by simp [firstBad, hlt]), if_neg (by simp [ownsQueue_of_tabGet hp ht]), if_pos (by rw [qpOf_of_tabGet hp, hq])]
  exact ⟨answers_zRespond rfl, frame_withDigests.2 (Effect.refl (w := false)).zRespond.frame⟩

/-- What a deletion begins with: the queue takes no entries, and ends once nothing of it is left (R320). -/
theorem completes_queueDelete {claim : State → Prop} (h : Serves s box 0x0111 m) (hlt : fld m 0x20 2 < 4096)
    (hp : tabGet s.hif.qps (fld m 0x20 2) = some p) (ht : p.tenant = zTenant m) (hq : p.qstate ≠ .disabled)
    (hclaim : claim (withDigests s (checkDelete (fld m 0x20 2) (modQp (fld m 0x20 2) deletingQp s)))) :
    Completes (.queueDelete box) s claim := by
  refine completes_zalpol h rfl ?_
  dsimp only
  rw [zChecked_of_none (by simp [firstBad, hlt]), if_neg (by simp [ownsQueue_of_tabGet hp ht]),
    if_neg (by rw [qpOf_of_tabGet hp]; exact hq)]
  exact hclaim

/-- The queue whose deletion nothing holds up ends, with an answer in the mailbox of its request where there is one (R320). -/
theorem hif_checkDelete_ends {q : Nat} {t : State} (hd : (qpOf t q).deleting = true) (hs : (qpOf t q).staged = [])
    (hw : (qpOf t q).waitGe = none) (hc : ∀ c ∈ t.hif.cmds, c.2.qp ≠ q) :
    (checkDelete q t).hif = (modQp q (fun p => { p with deleting := false, qstate := .disabled, fetched := [], wait := false }) t).hif := by
  have hany : (t.hif.cmds.any fun c => c.2.qp == q) = false := by simpa using fun a b hab => hc (a, b) hab
  unfold checkDelete
  extract_lets p
  rw [if_pos (by simp only [p, hd, hs, hw, hany]; decide)]
  split
  · exact zRespond_hif ..
  · rfl

theorem checkDelete_waits {q : Nat} {t : State} (h : (∃ c ∈ t.hif.cmds, c.2.qp = q) ∨ (qpOf t q).staged ≠ [] ∨ (qpOf t q).waitGe ≠ none) :
    checkDelete q t = t := by
  unfold checkDelete
  extract_lets p
  refine if_neg ?_
  rcases h with ⟨c, hc, rfl⟩ | hs | hw
  · have hany : (t.hif.cmds.any fun d => d.2.qp == c.2.qp) = true := List.any_eq_true.2 ⟨c, hc, beq_self_eq_true _⟩
    rw [hany, Bool.not_true, Bool.and_false]
    decide
  · simp [p, hs]
  · simp [p, hw]

theorem completes_queueDelete_ends (h : Serves s box 0x0111 m) (hlt : fld m 0x20 2 < 4096)
    (hp : tabGet s.hif.qps (fld m 0x20 2) = some p) (ht : p.tenant = zTenant m) (hq : p.qstate ≠ .disabled) (hs : p.staged = [])
    (hw : p.waitGe = none) (hc : ∀ c ∈ s.hif.cmds, c.2.qp ≠ fld m 0x20 2) :
    Completes (.queueDelete box) s fun t =>
      tabGet t.hif.qps (fld m 0x20 2) = some { p with qstate := .disabled, deleting := false, fetched := [], wait := false } ∧
      OnlyQp (fld m 0x20 2) s t ∧ Frame [.hif, .stew] s t := by
  have hmod := tabGet_modQp_of_some deletingQp hp
  have hqp := qpOf_of_tabGet hmod
  have hif := hif_checkDelete_ends (t := modQp (fld m 0x20 2) deletingQp s) (by rw [hqp]; rfl) (by rw [hqp]; exact hs)
    (by rw [hqp]; exact hw) hc
  refine completes_queueDelete h hlt hp ht hq ⟨?_, ⟨fun j hj => ?_, ?_⟩, ?_⟩
  · rw [withDigests_hif, hif]
    exact (tabGet_modQp_of_some _ hmod).trans rfl
  · rw [withDigests_hif, hif, tabGet_modQp_other _ _ hj, tabGet_modQp_other _ _ hj]
  · rw [withDigests_hif, hif]
    rfl
  · exact frame_withDigests.2 (Effect.refl (w := false)).modQp.checkDelete.frame

theorem completes_queueDelete_waits (h : Serves s box 0x0111 m) (hlt : fld m 0x20 2 < 4096)
    (hp : tabGet s.hif.qps (fld m 0x20 2) = some p) (ht : p.tenant = zTenant m) (hq : p.qstate ≠ .disabled)
    (hleft : (∃ c ∈ s.hif.cmds, c.2.qp = fld m 0x20 2) ∨ p.staged ≠ [] ∨ p.waitGe ≠ none) :
    Completes (.queueDelete box) s fun t =>
      tabGet t.hif.qps (fld m 0x20 2) = some { p with deleting := true, fetched := [], wait := false } ∧
      OnlyQp (fld m 0x20 2) s t ∧ Frame [.hif] s t := by
  have hmod := tabGet_modQp_of_some deletingQp hp
  have hqp := qpOf_of_tabGet hmod
  refine completes_queueDelete h hlt hp ht hq ?_
  rw [checkDelete_waits (by rw [hqp]; exact hleft)]
  exact ⟨hmod, ⟨fun j hj => tabGet_modQp_other _ _ hj, rfl⟩, frame_withDigests.2 (Effect.refl (w := false)).modQp.frame⟩

/-- Clearing a queue leaves its tenant, context and tag (R320). -/
theorem clearQueue_qps (q : Nat) (s : State) :
    (clearQueue q s).hif.qps = (modQp q (fun p => { tenant := p.tenant, ctx := p.ctx, wftag := p.wftag }) s).hif.qps := by
  unfold clearQueue
  rw [foldl_freeStaging_hif]
  rfl

theorem clearQueue_out (q : Nat) (s : State) : (clearQueue q s).hif.out = s.hif.out := by
  unfold clearQueue
  rw [foldl_freeStaging_hif]
  rfl

theorem completes_queueReset (h : Serves s box 0x0112 m) (hlt : fld m 0x20 2 < 4096)
    (hp : tabGet s.hif.qps (fld m 0x20 2) = some p) (ht : p.tenant = zTenant m) (hq : p.qstate ≠ .enabled) :
    Completes (.queueReset box) s fun t => Answers box 0 0 [0] s t ∧
      (qpOf t (fld m 0x20 2)).qstate = .disabled ∧ (p.qstate ≠ .disabled → (qpOf t (fld m 0x20 2)).staged = []) ∧
      (∀ j, j ≠ fld m 0x20 2 → tabGet t.hif.qps j = tabGet s.hif.qps j) ∧ t.hif.out = s.hif.out := by
  have hqp := qpOf_of_tabGet hp
  have cleared : Answers box 0 0 [0] s (withDigests s (zRespond box St.success 0 [0] (clearQueue (fld m 0x20 2) s))) ∧
      ∀ t : State, t.hif = (clearQueue (fld m 0x20 2) s).hif → (qpOf t (fld m 0x20 2)).qstate = .disabled ∧
        (p.qstate ≠ .disabled → (qpOf t (fld m 0x20 2)).staged = []) ∧
        (∀ j, j ≠ fld m 0x20 2 → tabGet t.hif.qps j = tabGet s.hif.qps j) ∧ t.hif.out = s.hif.out := by
    refine ⟨answers_zRespond ((Effect.refl (ps := [.hif, .shv]) (w := false)).clearQueue.frame .stew (by decide)), fun t ht => ?_⟩
    have hq' : qpOf t (fld m 0x20 2) = { tenant := p.tenant, ctx := p.ctx, wftag := p.wftag } := by
      refine qpOf_of_tabGet ?_
      rw [ht, clearQueue_qps]
      exact tabGet_modQp_of_some _ hp
    rw [hq', ht, clearQueue_qps, clearQueue_out]
    exact ⟨rfl, fun _ => rfl, fun j hj => tabGet_modQp_other _ _ hj, rfl⟩
  refine completes_zalpol h rfl ?_
  dsimp only
  rw [zChecked_of_none (by simp [firstBad, hlt]), if_neg (by simp [ownsQueue_of_tabGet hp ht]), hqp]
  split
  · next he => exact absurd he hq
  · next hd =>
    refine ⟨answers_zRespond rfl, ?_⟩
    have hif : (withDigests s (zRespond box St.success 0 [0] s)).hif = s.hif := zRespond_hif box St.success 0 [0] s
    rw [qpOf_congr hif, hif, hqp]
    exact ⟨hd, fun h => absurd hd h, fun _ _ => rfl, rfl⟩
  · exact ⟨cleared.1, cleared.2 _ (zRespond_hif box St.success 0 [0] (clearQueue (fld m 0x20 2) s))⟩

end

/-! Time and power (R17, R325, R430). -/

theorem completes_timePost_logged {s : State} {box : Nat} {m : Bytes} (h : Serves s box 0x0115 m) (hrom : s.stew.rom = false) :
    Completes (.timePost box) s fun t =>
      Answers box 0 0 (toLe 4 s.stew.boot ++ zeros 4 ++ toLe 8 s.aon.uptime) s t ∧
      t.rel = { s.rel with logq := s.rel.logq ++ [{
        boot := s.stew.boot, code := Config.logCode Log.timePost, source := 1, severity := 0, uptime := s.aon.uptime,
        body := slice (slice m 0x20 16) 0 36 }] } ∧
      OnlyMbx box s t ∧ Frame [.stew, .rel] s t := by
  refine completes_zalpol h rfl ?_
  dsimp only
  rw [if_neg (by simp [hrom])]
  exact ⟨answers_zRespond rfl, rfl, onlyMbx_zRespond rfl, frame_withDigests.2 (Effect.refl (w := false)).logEv.zRespond.frame⟩

theorem completes_timePost_held {s : State} {box : Nat} {m : Bytes} (h : Serves s box 0x0115 m) (hrom : s.stew.rom = true) :
    Completes (.timePost box) s fun t =>
      Answers box 0 0 (toLe 4 s.stew.boot ++ zeros 4 ++ toLe 8 s.aon.uptime) s t ∧
      t.stew = { s.stew with mbx := t.stew.mbx, heldPost := some (slice m 0x20 16) } ∧ Frame [.stew] s t := by
  refine completes_zalpol h rfl ?_
  dsimp only
  rw [if_pos hrom]
  exact ⟨fun r hr hd => answers_zRespond (s := s.onStew fun w => { w with heldPost := some (slice m 0x20 16) }) rfl r hr hd, rfl,
    frame_withDigests.2 (Effect.refl (w := false)).onStew.zRespond.frame⟩

section
variable {s : State} {box : Nat} {m : Bytes}

/-- What a power state asked for leads to, while no transition is under way (R325, R430). -/
theorem completes_powerSet {claim : State → Prop} (h : Serves s box 0x0801 m) (hgoal : s.stew.goal = none)
    (hexit : s.stew.exiting = false) (hreq : s.stew.pwReq = none) (hwake : s.stew.wake = false) (hp : byteAt m 0x20 ≤ 3)
    (hclaim : claim (withDigests s (
      if 2 ≤ byteAt m 0x20 && !s.hif.window.isEmpty then zFail box St.windowMapped 0 s
      else if byteAt m 0x20 = s.stew.pstate then zRespond box St.success 0 [] s
      else if byteAt m 0x20 = 1 && s.stew.pstate = 0 then zRespond box St.success 0 [] (s.onStew fun w => { w with pstate := 1 })
      else if byteAt m 0x20 = 0 || s.stew.pstate != 0 then
        s.onStew fun w => { w with wake := true, pwReq := if byteAt m 0x20 = 0 then some box else none }
      else s.onStew fun w => { w with goal := some (byteAt m 0x20), pwStep := 0, pwReq := some box }))) :
    Completes (.powerSet box) s claim := by
  have hexec : exec (.powerSet box) s = whileUp s (onZalpol box 0x0801 s fun m s' =>
      zChecked box [(0x20, decide (byteAt m 0x20 ≤ 3))] s' fun s' =>
      if 2 ≤ byteAt m 0x20 && !s'.hif.window.isEmpty then zFail box St.windowMapped 0 s'
      else if byteAt m 0x20 = s.stew.pstate then zRespond box St.success 0 [] s'
      else if byteAt m 0x20 = 1 && s.stew.pstate = 0 then zRespond box St.success 0 [] (s'.onStew fun w => { w with pstate := 1 })
      else if byteAt m 0x20 = 0 || s.stew.pstate != 0 then
        s'.onStew fun w => { w with wake := true, pwReq := if byteAt m 0x20 = 0 then some box else none }
      else s'.onStew fun w => { w with goal := some (byteAt m 0x20), pwStep := 0, pwReq := some box }) := by
    change execPowerSet box s = _
    unfold execPowerSet
    exact congrArg _ (if_neg (by simp [hgoal, hexit, hreq, hwake]))
  refine completes_zalpol h hexec ?_
  rw [zChecked_of_none (by simp [firstBad, hp])]
  exact hclaim

theorem completes_powerSet_cases (h : Serves s box 0x0801 m) (hgoal : s.stew.goal = none)
    (hexit : s.stew.exiting = false) (hreq : s.stew.pwReq = none) (hwake : s.stew.wake = false) (hp : byteAt m 0x20 ≤ 3) :
    (byteAt m 0x20 = s.stew.pstate → (2 ≤ s.stew.pstate → s.hif.window = []) →
      Completes (.powerSet box) s (fun t => Answers box 0 0 [] s t ∧ OnlyMbx box s t ∧ Frame [.stew] s t)) ∧
    (byteAt m 0x20 = 1 → s.stew.pstate = 0 → Completes (.powerSet box) s (fun t =>
      Answers box 0 0 [] s t ∧ t.stew.pstate = 1 ∧ Frame [.stew] s t)) ∧
    (2 ≤ byteAt m 0x20 → s.hif.window ≠ [] → Completes (.powerSet box) s (fun t =>
      Answers box 0x0206 0 [] s t ∧ t.stew.pstate = s.stew.pstate ∧ t.stew.goal = none ∧ Frame [.stew] s t)) ∧
    (2 ≤ byteAt m 0x20 → s.hif.window = [] → s.stew.pstate = 0 → Completes (.powerSet box) s (fun t =>
      t.stew = { s.stew with goal := some (byteAt m 0x20), pwStep := 0, pwReq := some box } ∧ Frame [.stew] s t)) ∧
    (byteAt m 0x20 = 0 → s.stew.pstate ≠ 0 → Completes (.powerSet box) s (fun t =>
      t.stew = { s.stew with wake := true, pwReq := some box } ∧ Frame [.stew] s t)) ∧
    (byteAt m 0x20 ≠ 0 → byteAt m 0x20 ≠ s.stew.pstate → s.stew.pstate ≠ 0 → (2 ≤ byteAt m 0x20 → s.hif.window = []) →
      Completes (.powerSet box) s (fun t => t.stew = { s.stew with wake := true } ∧ Frame [.stew] s t)) := by
  have of_if {claim : State → Prop} := completes_powerSet (claim := claim) h hgoal hexit hreq hwake hp
  refine ⟨fun he hwin => of_if ?_, fun h1 h0 => of_if ?_, fun h2 hwin => of_if ?_, fun h2 hwin h0 => of_if ?_, fun h0 hne => of_if ?_,
    fun h0 hne hs hwin => of_if ?_⟩
  · rw [if_neg (by rw [he]; simpa using hwin), if_pos he]
    exact ⟨answers_zRespond rfl, onlyMbx_zRespond rfl, frame_withDigests.2 (Effect.refl (w := false)).zRespond.frame⟩
  · rw [if_neg (by simp [h1]), if_neg (by omega), if_pos (by simp [h1, h0])]
    exact ⟨fun r hr hd => answers_zRespond (s := s.onStew fun w => { w with pstate := 1 }) rfl r hr hd, rfl,
      frame_withDigests.2 (Effect.refl (w := false)).onStew.zRespond.frame⟩
  · rw [if_pos (by simp [h2, hwin])]
    exact ⟨answers_zRespond rfl, rfl, hgoal, frame_withDigests.2 (Effect.refl (w := false)).zFail.frame⟩
  · rw [if_neg (by simp [hwin]), if_neg (by omega), if_neg (by simp; omega), if_neg (by simp [h0]; omega)]
    exact ⟨rfl, by simp [frame_iff]⟩
  · rw [if_neg (by simp [h0]), if_neg (by omega), if_neg (by simp [h0]), if_pos (by simp [h0]), if_pos h0]
    exact ⟨rfl, by simp [frame_iff]⟩
  · rw [if_neg (by simpa using hwin), if_neg hne, if_neg (by simp [hs]), if_pos (by simp [hs]), if_neg h0]
    exact ⟨by rw [← hreq]; rfl, by simp [frame_iff]⟩

end

/-- Settles O25: each clause is what its command completes with. -/
theorem queuesTimeAndPowerAreCommanded : Obligations.QueuesTimeAndPowerAreCommanded :=
  ⟨⟨fun _ _ _ _ h hp ht hq hres hrng => completes_queueCreate h hp ht hq hres hrng,
    fun _ _ _ _ h hlt hp ht => ⟨fun hq => completes_queueDelete_disabled h hlt hp ht hq,
      fun hq hs hw hc => completes_queueDelete_ends h hlt hp ht hq hs hw hc,
      fun hq hleft => completes_queueDelete_waits h hlt hp ht hq hleft⟩,
    fun _ _ _ _ h hlt hp ht hq => completes_queueReset h hlt hp ht hq⟩,
   fun _ _ _ h hrom => completes_timePost_logged h hrom, fun _ _ _ h hrom => completes_timePost_held h hrom,
   fun _ _ _ h hgoal hexit hreq hwake hp => completes_powerSet_cases h hgoal hexit hreq hwake hp⟩

end Sys2Proof.Proofs

/-! Vector slots and the memory window (R322, R323, R334). -/

namespace Sys2Proof.Proofs
open Sys2Proof Sys2Proof.Machine Sys2Proof.Safety

set_option Elab.async false

theorem firstBad_append {l k : List Chk} (hl : firstBad l = none) (hk : firstBad k = none) : firstBad (l ++ k) = none := by
  rw [firstBad_eq_none] at *
  simp only [List.mem_append]
  rintro c (hc | hc)
  · exact hl c hc
  · exact hk c hc

/-- A command that passes over a message of the wrong kind carries out one of the right kind. -/
theorem completes_zalpolOf {c : Instr} {s : State} {box code : Nat} {m : Bytes} {skip : Bytes → Bool} {k : Bytes → State → State}
    {claim : State → Prop} (h : Serves s box code m) (hskip : skip m = false)
    (hexec : exec c s = whileUp s (if ((zReady s box code).any skip) = true then .next s else onZalpol box code s k))
    (hk : claim (withDigests s (k m s))) : Completes c s claim :=
  completes_zalpol h (hexec.trans (congrArg _ (if_neg (by rw [h.2]; simp [hskip])))) hk

/-! A mailbox's request while commands end: answers go to other requests, or are written over (R327). -/

/-- A mailbox's request stays, answered or not, and is not dropped. -/
def ReqKept (box : Nat) (s t : State) : Prop :=
  ∀ r, (mbxOf s box).req = some r → (mbxOf s box).drop = false →
    ∃ r', (mbxOf t box).req = some r' ∧ r'.msg = r.msg ∧ (mbxOf t box).drop = false

namespace ReqKept
variable {box : Nat} {s t u : State}

theorem refl : ReqKept box s s := fun r hr hd => ⟨r, hr, rfl, hd⟩

theorem trans (h : ReqKept box s t) (g : ReqKept box t u) : ReqKept box s u := by
  intro r hr hd
  obtain ⟨r1, hr1, hm1, hd1⟩ := h r hr hd
  obtain ⟨r2, hr2, hm2, hd2⟩ := g r1 hr1 hd1
  exact ⟨r2, hr2, hm2.trans hm1, hd2⟩

theorem of_mbx (h : ReqKept box s t) (hu : mbxOf u box = mbxOf t box) : ReqKept box s u :=
  h.trans fun r hr hd => ⟨r, by rw [hu]; exact hr, rfl, by rw [hu]; exact hd⟩

theorem of_stew (h : ReqKept box s t) (hu : u.stew = t.stew) : ReqKept box s u := h.of_mbx (mbxOf_congr hu box)

theorem of_effect {ps : List StatePart} {w : Bool} (h : ReqKept box s t) (he : Effect ps w t u) (hps : .stew ∉ ps := by decide) :
    ReqKept box s u := h.of_stew (he.frame .stew hps)

theorem foldl {α : Type} {f : State → α → State} {l : List α} (h : ReqKept box s t)
    (hf : ∀ t a, ReqKept box s t → ReqKept box s (f t a)) : ReqKept box s (l.foldl f t) := by
  induction l generalizing t with
  | nil => exact h
  | cons a l ih => exact ih (hf t a h)

theorem ite {c : Prop} [Decidable c] (h : ReqKept box s t) (g : ReqKept box s u) : ReqKept box s (if c then t else u) := by
  split
  · exact h
  · exact g

theorem zRespond {b status detail : Nat} {body : Bytes} (h : ReqKept box s t) : ReqKept box s (zRespond b status detail body t) := by
  refine h.trans fun r hr hd => ?_
  unfold Machine.zRespond
  by_cases hb : box = b
  · subst hb
    rw [mbxOf_modMbx_same, hr]
    dsimp only
    rw [hd, if_neg (by decide)]
    exact ⟨_, rfl, rfl, rfl⟩
  · rw [mbxOf_modMbx_other _ _ hb]
    exact ⟨r, hr, rfl, hd⟩

theorem checkDelete {q : Nat} (h : ReqKept box s t) : ReqKept box s (checkDelete q t) := by
  have ended : ReqKept box s (Machine.modQp q (fun p => { p with deleting := false, qstate := .disabled, fetched := [], wait := false }) t) :=
    h.of_stew rfl
  unfold Machine.checkDelete
  extract_lets p
  split
  · split
    · exact ended.zRespond
    · exact ended
  · exact h

theorem endCmd {n : Nat} (h : ReqKept box s t) : ReqKept box s (endCmd n t) := by
  unfold Machine.endCmd
  split
  · exact h
  · refine checkDelete (h.of_effect (ps := [.eng, .obj, .hif]) (w := false) ?_)
    exact (Effect.foldl Effect.refl.releaseLocks.unbindEpoch fun _ _ h => h.dropPin).onHif

theorem finishCmd {n : Nat} {r : Result} (h : ReqKept box s t) : ReqKept box s (finishCmd n r t) := by
  unfold Machine.finishCmd
  split
  · exact h
  · exact endCmd (ite h (h.of_effect (ps := [.hif, .shv]) (w := false) Effect.refl.postCompl))

theorem failPromotion {i : Nat} (h : ReqKept box s t) : ReqKept box s (failPromotion i t) := by
  unfold Machine.failPromotion
  split
  · exact h
  · next o _ =>
    have h1 : ReqKept box s (Machine.modObj i (fun o => { dropUpper o with waiters := [] }) t) := h.of_stew rfl
    exact h1.foldl fun _ _ h => h.finishCmd

theorem topUpAt {i tier code : Nat} (h : ReqKept box s t) : ReqKept box s (topUpAt i tier code t) := by
  unfold Machine.topUpAt
  extract_lets place excess above cand pick s1
  have h1 : ReqKept box s s1 :=
    h.foldl fun _ _ h => h.of_effect (ps := [.obj, .recd]) (w := false) (Effect.evictChoice Effect.refl)
  refine ite h (ite h1 ?_)
  split
  · exact h1.failPromotion
  · exact h1

theorem cancelEvict {i : Nat} (h : ReqKept box s t) : ReqKept box s (cancelEvict i t) := by
  unfold Machine.cancelEvict
  split
  · exact h
  · have h1 : ReqKept box s (Machine.modObj i (fun o => { o with st := .resident, waiters := o.waiters.filter fun w => !w.evict }) t) :=
      h.of_stew rfl
    exact ite h (topUpAt (ite (topUpAt (h1.foldl fun _ _ h => h.finishCmd)) (h1.foldl fun _ _ h => h.finishCmd)))

theorem pinObj {i : Nat} (h : ReqKept box s t) : ReqKept box s (pinObj i t).2 := h.cancelEvict.of_stew rfl

theorem unmapUnit {u' : Nat} (h : ReqKept box s t) : ReqKept box s (unmapUnit u' t) :=
  h.of_effect (ps := [.hif, .obj]) (w := false) Effect.refl.unmapUnit

theorem mapUnit {h' u' off : Nat} (h : ReqKept box s t) : ReqKept box s (mapUnit h' u' off t) := h.unmapUnit.pinObj.of_stew rfl

/-- The last answer is what stands in the mailbox. -/
theorem answers {status detail : Nat} {body : Bytes} (h : ReqKept box s t) :
    Answers box status detail body s (Machine.zRespond box status detail body t) := by
  intro r hr hd
  obtain ⟨r', hr', hm', hd'⟩ := h r hr hd
  unfold Machine.zRespond
  rw [mbxOf_modMbx_same, hr']
  dsimp only
  rw [hd', if_neg (by decide), hm']
  exact ⟨_, rfl, rfl, rfl⟩

end ReqKept

/-! Vector commands (R322). -/

theorem completes_vectorBind {s : State} {box k : Nat} {m : Bytes} (h : Serves s box 0x0113 m) (hop : byteAt m 0x26 = 0)
    (hchk : firstBad (vecChecks m) = none) (hunbound : vecSlot s (vecFn m) (vecEnt m) = none)
    (hk : (fld m 0x20 2 = k ∧ k ≠ 0xFFFF ∧ slotFree s k = true) ∨
      (fld m 0x20 2 = 0xFFFF ∧ k < 2048 ∧ slotFree s k = true ∧ ∀ j < k, slotFree s j = false)) :
    Completes (.vectorBind box) s fun t => Answers box 0 0 (toLe 2 k) s t ∧
      t.hif = { s.hif with vecs := tabSet s.hif.vecs k (some (vecFn m * 2048 + vecEnt m)) } ∧ Frame [.hif, .stew] s t := by
  have hslot : (if fld m 0x20 2 = 0xFFFF then (List.range 2048).find? (slotFree s)
      else if slotFree s (fld m 0x20 2) then some (fld m 0x20 2) else none) = some k := by
    rcases hk with ⟨rfl, hne, hfree⟩ | ⟨hany, hlt, hfree, hleast⟩
    · rw [if_neg hne, if_pos hfree]
    · rw [if_pos hany]
      exact List.find?_range_eq_some.2 ⟨hfree, List.mem_range.2 hlt, fun j hj => by simp [hleast j hj]⟩
  refine completes_zalpolOf (skip := fun m => byteAt m 0x26 == 1) h (by simp [hop]) rfl ?_
  dsimp only
  rw [zChecked_of_none hchk, if_neg (by simp [hunbound]), hslot]
  exact ⟨answers_zRespond rfl, zRespond_hif box St.success 0 (toLe 2 k) _,
    frame_withDigests.2 (Effect.refl (w := false)).onHif.zRespond.frame⟩

theorem completes_vectorUnbind {s : State} {box k : Nat} {m : Bytes} (h : Serves s box 0x0113 m) (hop : byteAt m 0x26 = 1)
    (hchk : firstBad (vecChecks m) = none) (hbound : vecSlot s (vecFn m) (vecEnt m) = some k)
    (hk : fld m 0x20 2 = 0xFFFF ∨ fld m 0x20 2 = k) (hent : vecEnt m ≠ 0)
    (hfree : ∀ p ∈ s.hif.qps, ¬(p.2.qstate = .enabled ∧ p.2.tenant = vecFn m ∧ fld p.2.ctx 4 2 = vecEnt m)) :
    Completes (.vectorUnbind box) s fun t => Answers box 0 0 (toLe 2 k) s t ∧
      t.hif = { s.hif with
        vecs := tabSet s.hif.vecs k none, vecPend := s.hif.vecPend.filter (· != vecFn m * 2048 + vecEnt m) } ∧
      Frame [.hif, .stew] s t := by
  have hnone : (s.hif.qps.any fun p => p.2.qstate == .enabled && p.2.tenant == vecFn m && fld p.2.ctx 4 2 == vecEnt m) = false := by
    rw [List.any_eq_false]
    intro p hp
    simpa [and_assoc] using hfree p hp
  refine completes_zalpolOf (skip := fun m => byteAt m 0x26 != 1) h (by simp [hop]) rfl ?_
  dsimp only
  rw [zChecked_of_none hchk, hbound]
  dsimp only
  rw [if_neg (by rcases hk with hk | hk <;> simp [hk]), if_neg (by simp [hent, hnone])]
  exact ⟨answers_zRespond rfl, zRespond_hif box St.success 0 (toLe 2 k) _,
    frame_withDigests.2 (Effect.refl (w := false)).onHif.zRespond.frame⟩

/-! The memory window (R323). -/

theorem unmapUnit_hif (u : Nat) (s : State) : (unmapUnit u s).hif = { s.hif with window := (unmapUnit u s).hif.window } := by
  unfold unmapUnit
  split <;> rfl

theorem tabGet_window_unmapUnit (u j : Nat) (s : State) :
    tabGet (unmapUnit u s).hif.window j = if j = u then none else tabGet s.hif.window j := by
  unfold unmapUnit
  split
  · next hu =>
    split
    · next hj => rw [hj, hu]
    · rfl
  · change tabGet (tabDel s.hif.window u) j = _
    by_cases hj : j = u
    · rw [hj, if_pos rfl, tabGet_tabDel_same]
    · rw [if_neg hj, tabGet_tabDel_other _ _ _ hj]

theorem tabGet_window_mapUnit (h u off j : Nat) (s : State) :
    tabGet (mapUnit h u off s).hif.window j = if j = u then some (h, off) else tabGet s.hif.window j := by
  have hwin : (pinObj (hIndex h) (unmapUnit u s)).2.hif.window = (unmapUnit u s).hif.window := by
    rw [((HostSteady.refl (s := unmapUnit u s)).pinObj (i := hIndex h)).rest]
  change tabGet (tabSet (pinObj (hIndex h) (unmapUnit u s)).2.hif.window u (h, off)) j = _
  by_cases hj : j = u
  · rw [hj, if_pos rfl, tabGet_tabSet_same]
  · rw [if_neg hj, tabGet_tabSet_other _ _ _ _ hj, hwin, tabGet_window_unmapUnit, if_neg hj]

theorem tabGet_window_mapUnits (h first off n j : Nat) (s : State) :
    tabGet ((List.range n).foldl (fun s i => mapUnit h (first + i) (off + i * 2 ^ 21) s) s).hif.window j =
      if first ≤ j ∧ j < first + n then some (h, off + (j - first) * 2 ^ 21) else tabGet s.hif.window j := by
  induction n with
  | zero => exact (if_neg (by omega)).symm
  | succ n ih =>
    rw [List.range_succ, List.foldl_append, List.foldl_cons, List.foldl_nil, tabGet_window_mapUnit, ih]
    by_cases hj : j = first + n
    · rw [if_pos hj, if_pos (by omega), hj, Nat.add_sub_cancel_left]
    · rw [if_neg hj]
      exact if_congr (by omega) rfl rfl

theorem tabGet_window_unmapUnits (first n j : Nat) (s : State) :
    tabGet ((List.range n).foldl (fun s i => unmapUnit (first + i) s) s).hif.window j =
      if first ≤ j ∧ j < first + n then none else tabGet s.hif.window j := by
  induction n with
  | zero => exact (if_neg (by omega)).symm
  | succ n ih =>
    rw [List.range_succ, List.foldl_append, List.foldl_cons, List.foldl_nil, tabGet_window_unmapUnit, ih]
    by_cases hj : j = first + n
    · rw [if_pos hj, if_pos (by omega)]
    · rw [if_neg hj]
      exact if_congr (by omega) rfl rfl

/-- The object of an index is not EVICTING, and nothing waits on it: a pin cancels no eviction (R238). -/
def Calm (i : Nat) (s : State) : Prop := ∃ o, tabGet s.obj.recs i = some o ∧ o.st ≠ .evicting ∧ o.waiters = []

theorem Calm.modObj {i j : Nat} {s : State} {f : ObjRec → ObjRec} (h : Calm i s)
    (hf : ∀ o, o.st ≠ .evicting → o.waiters = [] → (f o).st ≠ .evicting ∧ (f o).waiters = []) : Calm i (modObj j f s) := by
  obtain ⟨o, ho, hst, hw⟩ := h
  by_cases hj : i = j
  · subst hj
    exact ⟨f o, (tabGet_tabMod_same s.obj.recs i f).trans (by rw [ho]; rfl), hf o hst hw⟩
  · exact ⟨o, (tabGet_tabMod_other s.obj.recs j i f hj).trans ho, hst, hw⟩

theorem maybeEvict_of_calm {o : ObjRec} (hw : o.waiters = []) : maybeEvict o = o := by
  rw [maybeEvict, if_neg (by simp [hw])]

theorem Calm.dropPin {i key : Nat} {s : State} (h : Calm i s) : Calm i (dropPin key s) := by
  refine Calm.modObj h fun o hst hw => ?_
  dsimp only
  split
  · rw [maybeEvict_of_calm (by exact hw)]; exact ⟨hst, hw⟩
  · split
    · rw [maybeEvict_of_calm (by exact hw)]; exact ⟨hst, hw⟩
    · rw [maybeEvict_of_calm (by exact hw)]; exact ⟨hst, hw⟩

theorem Calm.unmapUnit {i u : Nat} {s : State} (h : Calm i s) : Calm i (unmapUnit u s) := by
  unfold Machine.unmapUnit
  split
  · exact h
  · exact Calm.dropPin h

theorem pinObj_of_calm {i : Nat} {s : State} (h : Calm i s) : pinObj i s = takePin i s := by
  obtain ⟨o, ho, hst, -⟩ := h
  unfold pinObj cancelEvict
  rw [ho]
  dsimp only
  rw [if_pos (by simpa using hst)]

theorem Calm.takePin {i j : Nat} {s : State} (h : Calm i s) : Calm i (takePin j s).2 := by
  refine Calm.modObj h fun o hst hw => ?_
  split
  · exact ⟨hst, hw⟩
  · exact ⟨hst, hw⟩

/-- What a unit mapped onto an object that nothing waits on changes (R323). -/
theorem mapUnit_of_calm {h u off : Nat} {s : State} (hc : Calm (hIndex h) s) :
    Calm (hIndex h) (mapUnit h u off s) ∧ Effect [.hif, .obj] false s (mapUnit h u off s) ∧
    (mapUnit h u off s).hif = { s.hif with window := (mapUnit h u off s).hif.window } := by
  have he : mapUnit h u off s =
      (takePin (hIndex h) (unmapUnit u s)).2.onHif fun x => { x with window := tabSet x.window u (h, off) } := by
    rw [mapUnit, pinObj_of_calm hc.unmapUnit]
  rw [he]
  refine ⟨hc.unmapUnit.takePin, Effect.refl.unmapUnit.takePin.onHif, ?_⟩
  have hu := unmapUnit_hif u s
  rw [State.onHif_hif]
  exact (congrArg (fun x : Hif => { x with window := tabSet (unmapUnit u s).hif.window u (h, off) }) hu).trans rfl

theorem mapUnits_of_calm {h : Nat} {at_ off : Nat → Nat} {l : List Nat} {s : State} (hc : Calm (hIndex h) s) :
    Effect [.hif, .obj] false s (l.foldl (fun s i => mapUnit h (at_ i) (off i) s) s) ∧
    (l.foldl (fun s i => mapUnit h (at_ i) (off i) s) s).hif =
      { s.hif with window := (l.foldl (fun s i => mapUnit h (at_ i) (off i) s) s).hif.window } := by
  induction l generalizing s with
  | nil => exact ⟨.refl, rfl⟩
  | cons a l ih =>
    obtain ⟨hc1, he1, hh1⟩ := mapUnit_of_calm (u := at_ a) (off := off a) hc
    obtain ⟨he2, hh2⟩ := ih hc1
    refine ⟨he1.trans he2, hh2.trans ?_⟩
    rw [hh1]
    rfl

theorem completes_windowMap {s : State} {box : Nat} {m : Bytes} {o : ObjRec} (h : Serves s box 0x0114 m) (hop : byteAt m 0x38 = 0)
    (hchk : firstBad (windowChecks s m) = none) (hoff : fld m 0x30 8 % 2 ^ 21 = 0) (hstale : staleHandle s (fld m 0x28 8) = false)
    (ho : objOf s (fld m 0x28 8) = some o) (hbound : dataBound s (fld m 0x28 8) = false) (hres : residentT1 o = true)
    (hprot : o.protected_ = false) (hfits : fld m 0x30 8 + fld m 0x24 4 * 2 ^ 21 ≤ o.size) :
    Completes (.windowMap box) s fun t => Answers box 0 0 [] s t ∧
      (∀ u, tabGet t.hif.window u = if fld m 0x20 4 ≤ u ∧ u < fld m 0x20 4 + fld m 0x24 4
        then some (fld m 0x28 8, fld m 0x30 8 + (u - fld m 0x20 4) * 2 ^ 21) else tabGet s.hif.window u) ∧
      (o.st ≠ .evicting → o.waiters = [] →
        t.hif = { s.hif with window := t.hif.window } ∧ SameBytes s t ∧ Frame [.hif, .stew, .obj] s t) := by
  refine completes_zalpolOf (skip := fun m => byteAt m 0x38 == 1) h (by simp [hop]) rfl ?_
  dsimp only
  rw [zChecked_of_none (firstBad_append hchk (by simpa [firstBad, hop] using hoff)), if_neg (by simp [hstale]), ho]
  dsimp only
  rw [if_neg (by simp [hbound]), if_neg (by simp [hres, hprot]), if_neg (Nat.not_lt.2 hfits)]
  refine ⟨(ReqKept.refl.foldl fun _ _ h => h.mapUnit).answers, fun u => ?_, fun hst hw => ?_⟩
  · rw [withDigests_hif, zRespond_hif, tabGet_window_mapUnits]
  · have hrec : tabGet s.obj.recs (hIndex (fld m 0x28 8)) = some o := by
      unfold objOf at ho
      split at ho
      · next hrec =>
        split at ho
        · cases ho; exact hrec
        · cases ho
      · cases ho
    obtain ⟨he, hh⟩ := mapUnits_of_calm (h := fld m 0x28 8) (at_ := (fld m 0x20 4 + ·)) (off := fun i => fld m 0x30 8 + i * 2 ^ 21)
      (l := List.range (fld m 0x24 4)) ⟨o, hrec, hst, hw⟩
    have heff : Effect [.hif, .stew, .obj] false s (zRespond box St.success 0 [] ((List.range (fld m 0x24 4)).foldl
        (fun s i => mapUnit (fld m 0x28 8) (fld m 0x20 4 + i) (fld m 0x30 8 + i * 2 ^ 21) s) s)) := by
      exact (Effect.extend Effect.refl (by decide) he).zRespond
    refine ⟨?_, heff.bytes rfl, frame_withDigests.2 heff.frame⟩
    rw [withDigests_hif, zRespond_hif]
    exact hh

theorem foldl_unmapUnit_hif (f : Nat → Nat) (l : List Nat) (s : State) :
    (l.foldl (fun s i => unmapUnit (f i) s) s).hif =
      { s.hif with window := (l.foldl (fun s i => unmapUnit (f i) s) s).hif.window } := by
  induction l generalizing s with
  | nil => rfl
  | cons a l ih => rw [List.foldl_cons, ih, unmapUnit_hif]

theorem completes_windowUnmap {s : State} {box : Nat} {m : Bytes} (h : Serves s box 0x0114 m) (hop : byteAt m 0x38 = 1)
    (hchk : firstBad (windowChecks s m) = none) (hzero : fld m 0x28 8 = 0) :
    Completes (.windowUnmap box) s fun t => Answers box 0 0 [] s t ∧
      (∀ u, tabGet t.hif.window u = if fld m 0x20 4 ≤ u ∧ u < fld m 0x20 4 + fld m 0x24 4
        then none else tabGet s.hif.window u) ∧
      t.hif = { s.hif with window := t.hif.window } ∧ SameBytes s t ∧ Frame [.hif, .stew, .obj] s t := by
  have heff : Effect [.hif, .stew, .obj] false s (zRespond box St.success 0 [] ((List.range (fld m 0x24 4)).foldl
      (fun s i => unmapUnit (fld m 0x20 4 + i) s) s)) :=
    (Effect.foldl Effect.refl fun _ _ h => h.unmapUnit).zRespond
  refine completes_zalpolOf (skip := fun m => byteAt m 0x38 != 1) h (by simp [hop]) rfl ?_
  dsimp only
  rw [zChecked_of_none (firstBad_append hchk (by simp [firstBad, zeroAt, hzero]))]
  refine ⟨(ReqKept.refl.foldl fun _ _ h => h.unmapUnit).answers, fun u => ?_, ?_, heff.bytes rfl, frame_withDigests.2 heff.frame⟩
  · rw [withDigests_hif, zRespond_hif, tabGet_window_unmapUnits]
  · rw [withDigests_hif, zRespond_hif]
    exact foldl_unmapUnit_hif ..

/-- Settles O26: each clause is what its command completes with. -/
theorem vectorSlotsAndWindowUnitsAreBound : Obligations.VectorSlotsAndWindowUnitsAreBound :=
  ⟨⟨fun _ _ _ _ h hop hchk hunbound hk => completes_vectorBind h hop hchk hunbound hk,
    fun _ _ _ _ h hop hchk hbound hk hent hfree => completes_vectorUnbind h hop hchk hbound hk hent hfree⟩,
   fun _ _ _ _ h hop hchk hoff hstale ho hbound hres hprot hfits =>
     completes_windowMap h hop hchk hoff hstale ho hbound hres hprot hfits,
   fun _ _ _ h hop hchk hzero => completes_windowUnmap h hop hchk hzero⟩

end Sys2Proof.Proofs

/-! Husks that Zalpol commands form, generations and statistics (R64, R86, R334, R443, R445). -/

namespace Sys2Proof.Proofs
open Sys2Proof Sys2Proof.Machine Sys2Proof.Safety

set_option Elab.async false

/-! A husk waits for a slot under the next number (R204). -/

theorem formsHusk_congr {tenant : Nat} {cmd mbx : Option Nat} {as : List Action} {s s' t t' : State} (h : FormsHusk tenant cmd mbx as s t)
    (hs : s'.eng = s.eng) (ht : t'.eng = t.eng) : FormsHusk tenant cmd mbx as s' t' := by
  unfold FormsHusk
  rw [hs, ht]
  exact h

/-- What stands under the next number is the husk that was formed. -/
theorem husk_formHusk {x : Husk} {s : State} (hr : x.rebuild = none) :
    tabGet (formHusk x s).eng.husks s.eng.nextHusk = some { x with hstate := .waitingSlot } := by
  unfold formHusk
  extract_lets id as
  have has : as = x.actions := if_neg (by simp [hr])
  rw [State.onEng_eng, has]
  exact tabGet_tabSet_same ..

theorem formsHusk_formHusk {x : Husk} {s : State} (hr : x.rebuild = none) :
    FormsHusk x.tenant x.cmd x.mbx x.actions s (formHusk x s) :=
  ⟨⟨_, husk_formHusk hr, rfl, rfl, rfl, rfl, rfl⟩, rfl, rfl, fun _ hj => tabGet_tabSet_other _ _ _ _ hj⟩

/-- A husk of a mailbox that nothing refuses is formed (R198). -/
theorem zHusk_of_accepted {box : Nat} {x : Husk} {s : State} (h : huskRefusal s x.tenant (x.binder.map Prod.fst) = none) :
    zHusk box x s = formHusk { x with mbx := some box } s := by
  rw [zHusk, h]

theorem huskRefusal_congr {s t : State} (h : t.eng = s.eng) (tenant : Nat) (b : Option Nat) :
    huskRefusal t tenant b = huskRefusal s tenant b := by
  unfold huskRefusal
  rw [h]

/-! Generations (R334, R443, R445). -/

/-- The CONFIG husk of a generation waits with it pending. -/
theorem formsHusk_genHusk {box : Nat} {g : Gen} {s : State} (h : huskRefusal s 0 none = none) :
    FormsHusk 0 none (some box) [{ kind := 7, target := g.number }] s (genHusk box g s) ∧ (genHusk box g s).stew.pendGen = some g := by
  have he : genHusk box g s = formHusk { tenant := 0, config := true, actions := [{ kind := 7, target := g.number }], mbx := some box }
      (s.onStew fun w => { w with pendGen := some g }) := by
    rw [genHusk, h]
    exact zHusk_of_accepted ((huskRefusal_congr rfl 0 none).trans h)
  rw [he]
  exact ⟨formsHusk_congr (formsHusk_formHusk rfl) rfl rfl, rfl⟩

theorem completes_genApply {s s1 : State} {box : Nat} {image m : Bytes} (h : Serves s box 0x0201 m) (hpend : s.stew.pendGen = none)
    (hlo : 48 ≤ fld m 0x28 4) (hhi : fld m 0x28 4 ≤ 2 ^ 26) (hwhole : imageWhole (slice image 0 (fld m 0x28 4)) (fld m 0x28 4) = true)
    (hnum : fld (slice image 0 (fld m 0x28 4)) 8 4 = fld m 0x30 4) (hbase : fld (slice image 0 (fld m 0x28 4)) 0x0C 4 = (gen s).number)
    (hcur : fld m 0x2C 4 = (gen s).number) (hnext : (gen s).number < fld m 0x30 4)
    (hfields : imageFields (slice image 0 (fld m 0x28 4)) = none)
    (hgood : generationBad (genOf (gen s) (slice image 0 (fld m 0x28 4))) (zData m (slice image 0 (fld m 0x28 4)) s) = .ok s1)
    (hhusk : huskRefusal s1 0 none = none) :
    Completes (.genApply box image) s fun t =>
      FormsHusk 0 none (some box) [{ kind := 7, target := fld m 0x30 4 }] s1 t ∧
      t.stew.pendGen = some (genOf (gen s) (slice image 0 (fld m 0x28 4))) := by
  obtain ⟨hf, hp⟩ := formsHusk_genHusk (box := box) (g := genOf (gen s) (slice image 0 (fld m 0x28 4))) hhusk
  have hno : (genOf (gen s) (slice image 0 (fld m 0x28 4))).number = fld m 0x30 4 := hnum
  rw [hno] at hf
  have hexec : exec (.genApply box image) s = whileUp s (onZalpol box 0x0201 s _) :=
    (congrArg (whileUp s) (if_neg (by simp [hpend])) : execGenApply box image s = _)
  refine completes_zalpol h hexec ?_
  dsimp only
  rw [if_neg (by simpa using ⟨hhi, hlo⟩), if_neg (by simp [hwhole]), if_neg (by simp [hnum, hbase, hcur]),
    if_neg (by simp; omega), if_neg (by simp [hcur]; omega), hfields]
  dsimp only
  rw [hgood]
  exact ⟨formsHusk_congr hf rfl rfl, hp⟩

theorem completes_rollback {s s1 : State} {box : Nat} {m : Bytes} {g : Gen} (h : Serves s box 0x0202 m) (hpend : s.stew.pendGen = none)
    (hleave : fld m 0x20 4 = (gen s).number) (hprev : s.stew.prev = some g) (hfields : imageFields (genImage g) = none)
    (hgood : generationBad g s = .ok s1) (hhusk : huskRefusal s1 0 none = none) :
    Completes (.rollback box) s fun t =>
      FormsHusk 0 none (some box) [{ kind := 7, target := g.number }] s1 t ∧ t.stew.pendGen = some g := by
  obtain ⟨hf, hp⟩ := formsHusk_genHusk (box := box) (g := g) hhusk
  have hexec : exec (.rollback box) s = whileUp s (onZalpol box 0x0202 s _) :=
    (congrArg (whileUp s) (if_neg (by simp [hpend])) : execRollback box s = _)
  refine completes_zalpol h hexec ?_
  dsimp only
  rw [if_pos (by simp [hleave, hprev]), hprev]
  dsimp only
  rw [hfields]
  dsimp only
  rw [hgood]
  exact ⟨formsHusk_congr hf rfl rfl, hp⟩

theorem putAt_ne_nil {b x : Bytes} {off : Nat} (h : x ≠ []) : putAt b off x ≠ [] := by simp [putAt, h]

theorem toLe_ne_nil {n v : Nat} (h : n ≠ 0) : toLe n v ≠ [] := by
  cases n with
  | zero => exact absurd rfl h
  | succ n => simp [toLe]

theorem genImage_ne_nil (g : Gen) : genImage g ≠ [] := putAt_ne_nil (toLe_ne_nil (by decide))

theorem hostWrite_hif {fn addr : Nat} {b : Bytes} {ep : Bool} {s : State} (hup : halted s = false) (hb : b ≠ []) :
    (hostWrite fn addr b ep s).hif = { s.hif with out := s.hif.out ++ [⟨fn, addr, b, ep⟩] } := by
  rw [hostWrite, if_neg (by simp [hup, hb])]
  rfl

theorem hostWrite_stew (fn addr : Nat) (b : Bytes) (ep : Bool) (s : State) : (hostWrite fn addr b ep s).stew = s.stew := by
  unfold hostWrite
  split <;> rfl

theorem hostWrite_shv (fn addr : Nat) (b : Bytes) (ep : Bool) (s : State) : (hostWrite fn addr b ep s).shv = s.shv := by
  unfold hostWrite
  split <;> rfl

/-- The generation that a selector names (R334). -/
theorem genRead_selects {s : State} {w : Nat} {g : Gen}
    (hg : w = 0 ∧ g = gen s ∨ w = 1 ∧ s.stew.prev = some g ∨ w = 2 ∧ g = factoryGen) :
    firstBad [(0x20, decide (w ≤ 2) && (w != 1 || s.stew.prev.isSome))] = none ∧
    (if w = 0 then gen s else if w = 1 then s.stew.prev.getD {} else factoryGen) = g := by
  rcases hg with ⟨rfl, rfl⟩ | ⟨rfl, hp⟩ | ⟨rfl, rfl⟩
  · exact ⟨by simp [firstBad], rfl⟩
  · exact ⟨by simp [firstBad, hp], by rw [hp]; rfl⟩
  · exact ⟨by simp [firstBad], rfl⟩

theorem completes_genRead {s : State} {box : Nat} {m : Bytes} {g : Gen} (h : Serves s box 0x0203 m)
    (hg : byteAt m 0x20 = 0 ∧ g = gen s ∨ byteAt m 0x20 = 1 ∧ s.stew.prev = some g ∨ byteAt m 0x20 = 2 ∧ g = factoryGen)
    (hroom : (genImage g).length ≤ fld m 0x30 4) :
    Completes (.genRead box) s fun t =>
      Answers box 0 0 (toLe 4 g.number ++ toLe 4 (genImage g).length) s t ∧
      t.hif = { s.hif with out := s.hif.out ++ [⟨box, fld m 0x28 8, genImage g, false⟩] } ∧ OnlyMbx box s t ∧
      Frame [.hif, .stew] s t := by
  obtain ⟨hchk, hsel⟩ := genRead_selects hg
  refine completes_zalpol h rfl ?_
  dsimp only
  rw [zChecked_of_none hchk, hsel, if_neg (Nat.not_lt.2 hroom)]
  refine ⟨answers_answered (hostWrite_stew ..), ?_, onlyMbx_answered (hostWrite_stew ..),
    frame_withDigests.2 (Effect.refl (w := false)).hostWrite.zRespond.frame⟩
  rw [withDigests_hif, zRespond_hif, hostWrite_hif h.1 (genImage_ne_nil g)]

theorem completes_genRead_short {s : State} {box : Nat} {m : Bytes} {g : Gen} (h : Serves s box 0x0203 m)
    (hg : byteAt m 0x20 = 0 ∧ g = gen s ∨ byteAt m 0x20 = 1 ∧ s.stew.prev = some g ∨ byteAt m 0x20 = 2 ∧ g = factoryGen)
    (hroom : fld m 0x30 4 < (genImage g).length) :
    Completes (.genRead box) s fun t =>
      Answers box 0x0106 0 (toLe 4 g.number ++ toLe 4 (genImage g).length) s t ∧ OnlyMbx box s t ∧ Frame [.stew] s t := by
  obtain ⟨hchk, hsel⟩ := genRead_selects hg
  refine completes_zalpol h rfl ?_
  dsimp only
  rw [zChecked_of_none hchk, hsel, if_pos hroom]
  exact ⟨answers_zRespond rfl, onlyMbx_zRespond rfl, frame_withDigests.2 (Effect.refl (w := false)).zRespond.frame⟩

/-! Statistics (R64, R86). -/

theorem strided_ne_nil {rs : List Bytes} (h : rs ≠ []) : strided rs ≠ [] := by
  cases rs with
  | nil => exact absurd rfl h
  | cons r rs =>
    have hlen : (slice r 0 128).length = 128 := by simp [slice]
    intro hnil
    have := congrArg List.length hnil
    rw [strided, List.flatMap_cons, List.length_append, hlen, List.length_nil] at this
    omega

/-- A table cut down to some keys holds what it held under them. -/
theorem tabGet_filter_key {α : Type} (f : Nat → Bool) (t : Tab α) (j : Nat) :
    tabGet (t.filter fun p => f p.1) j = if f j then tabGet t j else none := by
  induction t with
  | nil => cases f j <;> rfl
  | cons p t ih =>
    obtain ⟨k, v⟩ := p
    by_cases hk : f k
    · rw [List.filter_cons_of_pos (by exact hk), tabGet, tabGet]
      by_cases hkj : k = j
      · rw [if_pos hkj, if_pos hkj, if_pos (hkj ▸ hk)]
      · rw [if_neg hkj, if_neg hkj, ih]
    · rw [List.filter_cons_of_neg (by exact hk), ih, tabGet]
      by_cases hj : f j
      · rw [if_pos hj, if_pos hj, if_neg (fun hkj : k = j => hk (hkj ▸ hj))]
      · rw [if_neg hj, if_neg hj]

theorem completes_sheafStats {s : State} {box : Nat} {m d : Bytes} (h : Serves s box 0x0204 m)
    (hd : genSheaf (gen s) (fld m 0x20 2) = some d) (hown : shOwner d = zTenant m)
    (hstage : byteAt m 0x22 < shStages d ∨ byteAt m 0x22 = 0xFF) (hflags : byteAt m 0x23 ≤ 1)
    (hkeys : statKeys d (byteAt m 0x22) ≠ []) (hroom : 128 * (statKeys d (byteAt m 0x22)).length ≤ fld m 0x30 4) :
    Completes (.sheafStats box) s fun t =>
      Answers box 0 0 (toLe 4 (statKeys d (byteAt m 0x22)).length) s t ∧
      t.hif = { s.hif with out := s.hif.out ++ [⟨box, fld m 0x28 8,
        strided ((statKeys d (byteAt m 0x22)).map fun k =>
          statRecord s (fld m 0x20 2) k.1 k.2.2 (tabGetD s.shv.stats (stKey (fld m 0x20 2) k.1 k.2.1) {})), false⟩] } ∧
      t.shv = { s.shv with stats := t.shv.stats } ∧
      (byteAt m 0x23 = 0 → t.shv = s.shv) ∧
      (byteAt m 0x23 = 1 → ∀ j, tabGet t.shv.stats j =
        if ∃ k ∈ statKeys d (byteAt m 0x22), j = stKey (fld m 0x20 2) k.1 k.2.1 then none else tabGet s.shv.stats j) ∧
      OnlyMbx box s t ∧ Frame [.stew, .hif, .shv] s t := by
  have hout := hostWrite_hif (fn := box) (addr := fld m 0x28 8) (ep := false) h.1
    (strided_ne_nil (fun hnil => hkeys (List.map_eq_nil_iff.1 hnil)) :
      strided ((statKeys d (byteAt m 0x22)).map fun k =>
        statRecord s (fld m 0x20 2) k.1 k.2.2 (tabGetD s.shv.stats (stKey (fld m 0x20 2) k.1 k.2.1) {})) ≠ [])
  refine completes_zalpol h rfl ?_
  dsimp only
  rw [hd]
  dsimp only
  rw [if_neg (by simp [hown]), zChecked_of_none (by rcases hstage with h | h <;> simp [firstBad, hflags, h]), if_neg (Nat.not_lt.2 hroom)]
  obtain h0 | h1 : byteAt m 0x23 = 0 ∨ byteAt m 0x23 = 1 := by omega
  · have hbit : bitOf (byteAt m 0x23) 0 = false := by rw [h0]; rfl
    rw [hbit, if_neg (by decide)]
    refine ⟨answers_answered (hostWrite_stew ..), ?_, ?_, fun _ => ?_, fun h1 => absurd (h0.symm.trans h1) (by decide),
      onlyMbx_answered (hostWrite_stew ..), frame_withDigests.2 (Effect.refl (w := false)).hostWrite.zRespond.frame⟩
    · rw [withDigests_hif, zRespond_hif, hout]
    · rw [withDigests_shv, zRespond_shv, hostWrite_shv]
    · rw [withDigests_shv, zRespond_shv, hostWrite_shv]
  · have hbit : bitOf (byteAt m 0x23) 0 = true := by rw [h1]; rfl
    rw [hbit, if_pos rfl]
    refine ⟨answers_answered ((State.onShv_stew ..).trans (hostWrite_stew ..)), ?_, ?_, fun h0 => absurd (h1.symm.trans h0) (by decide), fun _ j => ?_,
      onlyMbx_answered ((State.onShv_stew ..).trans (hostWrite_stew ..)), frame_withDigests.2 (Effect.refl (w := false)).hostWrite.onShv.zRespond.frame⟩
    · rw [withDigests_hif, zRespond_hif, State.onShv_hif, hout]
    · rw [withDigests_shv, zRespond_shv, State.onShv_shv, hostWrite_shv]
    · rw [withDigests_shv, zRespond_shv, State.onShv_shv, hostWrite_shv,
        tabGet_filter_key fun i => !(statKeys d (byteAt m 0x22)).any fun k => stKey (fld m 0x20 2) k.1 k.2.1 == i]
      by_cases hj : ∃ k ∈ statKeys d (byteAt m 0x22), j = stKey (fld m 0x20 2) k.1 k.2.1
      · rw [if_pos hj, if_neg]
        obtain ⟨k, hk, rfl⟩ := hj
        simpa using ⟨k.1, k.2.1, ⟨k.2.2, hk⟩, rfl⟩
      · rw [if_neg hj, if_pos]
        rw [Bool.not_eq_true', List.any_eq_false]
        exact fun k hk he => hj ⟨k, hk, (beq_iff_eq.1 he).symm⟩

/-- A conversion record of a tag that was cleared after the copy (R86). -/
def cvtCleared (tag kind : Nat) (r : CvRec) : CvRec :=
  if (r.tag == tag && r.tagKind == kind) = true then
    { tag := r.tag, tagKind := r.tagKind, unitKind := r.unitKind, unit := r.unit, fmt := r.fmt } else r

theorem cvtCleared_zero {tag kind : Nat} {r : CvRec} (ht : (cvtCleared tag kind r).tag = tag) (hk : (cvtCleared tag kind r).tagKind = kind) :
    (cvtCleared tag kind r).count = 0 ∧ (cvtCleared tag kind r).sumSq = 0 ∧ (cvtCleared tag kind r).maxerr = 0 := by
  unfold cvtCleared at *
  split
  · exact ⟨rfl, rfl, rfl⟩
  · next hown =>
    rw [if_neg hown] at ht hk
    exact absurd (by simp [ht, hk]) hown

theorem completes_convertStats {s : State} {box : Nat} {m : Bytes} {rs : List CvRec} (h : Serves s box 0x0205 m)
    (hkind : byteAt m 0x28 ≤ 1) (hflags : byteAt m 0x29 ≤ 1) (hrights : cvtRights s (zTenant m) m = none)
    (hrs : rs = cvtOrder (s.shv.cvt.filter fun r => r.tag == fld m 0x20 8 && r.tagKind == byteAt m 0x28))
    (hroom : 128 * (rs.length + 1) ≤ fld m 0x38 4) :
    Completes (.convertStats box) s fun t =>
      Answers box 0 0 (toLe 4 (rs.length + 1) ++ toLe 4 (cvtLostCount s)) s t ∧
      t.hif = { s.hif with out := s.hif.out ++ [⟨box, fld m 0x30 8,
        strided ((cvtCombined (fld m 0x20 8) (byteAt m 0x28) rs :: rs).map cvtRecord), false⟩] } ∧
      (byteAt m 0x29 = 0 → t.shv = s.shv) ∧
      (byteAt m 0x29 = 1 → t.shv.cvt.length = s.shv.cvt.length ∧ t.shv.cvtLost = s.shv.cvtLost ∧
        ∀ r ∈ t.shv.cvt, r.tag = fld m 0x20 8 → r.tagKind = byteAt m 0x28 → r.count = 0 ∧ r.sumSq = 0 ∧ r.maxerr = 0) ∧
      OnlyMbx box s t ∧ Frame [.stew, .hif, .shv] s t := by
  have hout := hostWrite_hif (fn := box) (addr := fld m 0x30 8) (ep := false) h.1
    (strided_ne_nil (List.cons_ne_nil _ _) :
      strided ((cvtCombined (fld m 0x20 8) (byteAt m 0x28) rs :: rs).map cvtRecord) ≠ [])
  refine completes_zalpol h rfl ?_
  dsimp only
  rw [zChecked_of_none (by simp [firstBad, hkind, hflags]), hrights]
  dsimp only
  rw [← hrs, if_neg (Nat.not_lt.2 hroom)]
  obtain h0 | h1 : byteAt m 0x29 = 0 ∨ byteAt m 0x29 = 1 := by omega
  · have hbit : bitOf (byteAt m 0x29) 0 = false := by rw [h0]; rfl
    rw [hbit, if_neg (by decide)]
    refine ⟨answers_answered (hostWrite_stew ..), ?_, fun _ => ?_, fun h1 => absurd (h0.symm.trans h1) (by decide),
      onlyMbx_answered (hostWrite_stew ..), frame_withDigests.2 (Effect.refl (w := false)).hostWrite.zRespond.frame⟩
    · rw [withDigests_hif, zRespond_hif, hout]
    · rw [withDigests_shv, zRespond_shv, hostWrite_shv]
  · have hbit : bitOf (byteAt m 0x29) 0 = true := by rw [h1]; rfl
    rw [hbit, if_pos rfl]
    refine ⟨answers_answered ((State.onShv_stew ..).trans (hostWrite_stew ..)), ?_, fun h0 => absurd (h1.symm.trans h0) (by decide), fun _ => ?_,
      onlyMbx_answered ((State.onShv_stew ..).trans (hostWrite_stew ..)), frame_withDigests.2 (Effect.refl (w := false)).hostWrite.onShv.zRespond.frame⟩
    · rw [withDigests_hif, zRespond_hif, State.onShv_hif, hout]
    · rw [withDigests_shv, zRespond_shv, State.onShv_shv, hostWrite_shv]
      refine ⟨List.length_map _, rfl, fun r hr ht hk => ?_⟩
      obtain ⟨r0, -, hr0⟩ := List.mem_map.1 hr
      have hr0 : cvtCleared (fld m 0x20 8) (byteAt m 0x28) r0 = r := hr0
      subst hr0
      exact cvtCleared_zero ht hk

/-- Settles O27: each clause is what its command completes with. -/
theorem generationsAndStatisticsAnswer : Obligations.GenerationsAndStatisticsAnswer :=
  ⟨⟨fun _ _ _ _ _ h hpend hlo hhi ⟨hwhole, hnum, hbase, hcur, hnext, hfields, hgood, hhusk⟩ =>
      completes_genApply h hpend hlo hhi hwhole hnum hbase hcur hnext hfields hgood hhusk,
    fun _ _ _ _ _ h hpend hleave hprev hfields hgood hhusk => completes_rollback h hpend hleave hprev hfields hgood hhusk,
    fun _ _ _ _ h hg => ⟨completes_genRead h hg, completes_genRead_short h hg⟩⟩,
   fun _ _ _ _ h hd hown hstage hflags hkeys hroom => completes_sheafStats h hd hown hstage hflags hkeys hroom,
   fun _ _ _ _ h hkind hflags hrights hrs hroom => completes_convertStats h hkind hflags hrights hrs hroom⟩

end Sys2Proof.Proofs

/-! Collections and rebuilds through a mailbox (R87, R88, R109, R165, R202, R224, R334, R336). -/

namespace Sys2Proof.Proofs
open Sys2Proof Sys2Proof.Machine Sys2Proof.Safety

set_option Elab.async false

/-! Checks in offset order. -/

theorem mem_chkOrder_ins {x c : Chk} {l : List Chk} : c ∈ chkOrder.ins x l ↔ c = x ∨ c ∈ l := by
  induction l with
  | nil => simp [chkOrder.ins]
  | cons y ys ih =>
    rw [chkOrder.ins]
    split
    · simp
    · rw [List.mem_cons, ih, List.mem_cons]
      tauto

theorem mem_chkOrder {c : Chk} {l : List Chk} : c ∈ chkOrder l ↔ c ∈ l := by
  induction l with
  | nil => rfl
  | cons x l ih =>
    rw [chkOrder, List.foldr_cons, mem_chkOrder_ins, List.mem_cons]
    exact or_congr Iff.rfl ih

theorem firstBad_chkOrder {l : List Chk} (h : firstBad l = none) : firstBad (chkOrder l) = none := by
  rw [firstBad_eq_none] at *
  exact fun c hc => h c (mem_chkOrder.1 hc)

theorem firstBad_collAtMsg {l : List Chk} (h : firstBad l = none) : firstBad (collAtMsg l) = none := by
  rw [firstBad_eq_none] at *
  intro c hc
  obtain ⟨d, hd, rfl⟩ := List.mem_map.1 hc
  exact h d hd

/-! Collection commands (R87, R88, R202). -/

section
variable {s : State} {box : Nat} {m old d : Bytes}

theorem length_slice (b : Bytes) (off n : Nat) : (slice b off n).length = n := by simp [slice]

/-- A collection's husk, of one entry of the collection table, is formed (R202). -/
theorem formsHusk_collHusk {tenant c : Nat} {d : Bytes} (h : huskRefusal s tenant none = none) :
    Frame [.eng] s (collHusk box tenant c d s) ∧ FormsHusk tenant none (some box) [{
      kind := 4, flags := 128, coll := c, arg := c, data := d, len := d.length }] s (collHusk box tenant c d s) := by
  rw [collHusk, zHusk_of_accepted h]
  exact ⟨(Effect.refl (w := false)).formHusk.frame, formsHusk_formHusk rfl⟩

theorem collWaits_of_free {code : Nat} (h : Serves s box code m) (hfree : collBusy s (fld m 0x20 2) = false) :
    collWaits s box code = false := by
  rw [collWaits, h.2]
  exact hfree

theorem no_violation {a t : Nat} (h : a = t ∨ t = 0) : ¬(a != t && t != 0) = true := by
  rcases h with h | h <;> simp [h]

theorem completes_collectionCreate (h : Serves s box 0x0301 m) (hfree : collBusy s (fld m 0x20 2) = false)
    (hnew : collAt s (fld m 0x20 2) s.eng.epoch = none) (hchk : firstBad (collChecks (slice m 0x20 64)) = none)
    (htier : firstBad (collTiers s (slice m 0x20 64)) = none) (hzero : zeroAt (slice m 0x20 64) 0x10 4 = true)
    (hown : coOwner (slice m 0x20 64) = zTenant m ∨ zTenant m = 0)
    (hhandles : ∀ h ∈ [coCentroids (slice m 0x20 64), coDirectory (slice m 0x20 64), coMap (slice m 0x20 64)],
      handleStatus s (coOwner (slice m 0x20 64)) h = none)
    (hhusk : huskRefusal s (zTenant m) none = none) :
    Completes (.collectionCreate box) s fun t => Frame [.eng] s t ∧
      FormsHusk (zTenant m) none (some box) [{
        kind := 4, flags := 128, coll := fld m 0x20 2, arg := fld m 0x20 2, data := slice m 0x20 64, len := 64 }] s t := by
  have hexec : exec (.collectionCreate box) s = whileUp s (onZalpol box 0x0301 s _) :=
    (congrArg (whileUp s) (if_neg (by simp [collWaits_of_free h hfree])) : execCollectionCreate box s = _)
  have hall : firstBad ((0x20, (collAt s (fld m 0x20 2) s.eng.epoch).isNone) :: chkOrder (collAtMsg (collChecks (slice m 0x20 64) ++
      collTiers s (slice m 0x20 64) ++ [(0x10, zeroAt (slice m 0x20 64) 0x10 4)]))) = none := by
    rw [firstBad, hnew, Option.isNone_none, if_pos rfl]
    exact firstBad_chkOrder (firstBad_collAtMsg (firstBad_append (firstBad_append hchk htier) (by simp [firstBad, hzero])))
  obtain ⟨hframe, hforms⟩ := formsHusk_collHusk (box := box) (c := fld m 0x20 2) (d := slice m 0x20 64) hhusk
  rw [length_slice] at hforms
  refine completes_zalpol h hexec ?_
  dsimp only
  rw [fld_slice m 0x20 (i := 0) (by decide), zChecked_of_none hall, if_neg (no_violation hown), List.findSome?_eq_none_iff.2 hhandles]
  exact ⟨frame_withDigests.2 hframe, formsHusk_congr hforms rfl rfl⟩

theorem completes_collectionChange (h : Serves s box 0x0302 m) (hfree : collBusy s (fld m 0x20 2) = false)
    (hold : collAt s (fld m 0x20 2) s.eng.epoch = some old) (hown : coOwner old = zTenant m ∨ zTenant m = 0)
    (hchk : firstBad (collChecks (slice m 0x20 64)) = none) (hchange : firstBad (changeChecks old (slice m 0x20 64)) = none)
    (hhusk : huskRefusal s (zTenant m) none = none) :
    Completes (.collectionChange box) s fun t => Frame [.eng] s t ∧
      FormsHusk (zTenant m) none (some box) [{
        kind := 4, flags := 128, coll := fld m 0x20 2, arg := fld m 0x20 2, data := slice m 0x20 64, len := 64 }] s t := by
  have hexec : exec (.collectionChange box) s = whileUp s (onZalpol box 0x0302 s _) :=
    (congrArg (whileUp s) (if_neg (by simp [collWaits_of_free h hfree])) : execCollectionChange box s = _)
  obtain ⟨hframe, hforms⟩ := formsHusk_collHusk (box := box) (c := fld m 0x20 2) (d := slice m 0x20 64) hhusk
  rw [length_slice] at hforms
  refine completes_zalpol h hexec ?_
  dsimp only
  rw [fld_slice m 0x20 (i := 0) (by decide), hold]
  dsimp only
  rw [if_neg (no_violation hown), zChecked_of_none (firstBad_chkOrder (firstBad_collAtMsg (firstBad_append hchk hchange)))]
  exact ⟨frame_withDigests.2 hframe, formsHusk_congr hforms rfl rfl⟩

theorem completes_collectionDelete (h : Serves s box 0x0303 m) (hfree : collBusy s (fld m 0x20 2) = false)
    (hold : collAt s (fld m 0x20 2) s.eng.epoch = some old) (hown : coOwner old = zTenant m ∨ zTenant m = 0)
    (hhusk : huskRefusal s (zTenant m) none = none) :
    Completes (.collectionDelete box) s fun t => Frame [.eng] s t ∧
      FormsHusk (zTenant m) none (some box) [{
        kind := 4, flags := 128, coll := fld m 0x20 2, arg := fld m 0x20 2 }] s t := by
  have hexec : exec (.collectionDelete box) s = whileUp s (onZalpol box 0x0303 s _) :=
    (congrArg (whileUp s) (if_neg (by simp [collWaits_of_free h hfree])) : execCollectionDelete box s = _)
  obtain ⟨hframe, hforms⟩ := formsHusk_collHusk (box := box) (c := fld m 0x20 2) (d := []) hhusk
  refine completes_zalpol h hexec ?_
  dsimp only
  rw [hold]
  dsimp only
  rw [if_neg (no_violation hown)]
  exact ⟨frame_withDigests.2 hframe, formsHusk_congr hforms rfl rfl⟩

theorem length_toLe (n v : Nat) : (toLe n v).length = n := by
  induction n generalizing v with
  | zero => rfl
  | succ n ih => rw [toLe, List.length_cons, ih]

theorem leNat_toLe (n v : Nat) : leNat (toLe n v) = v % 256 ^ n := by
  induction n generalizing v with
  | zero => rw [toLe, leNat, pow_zero, Nat.mod_one]
  | succ n ih =>
    rw [toLe, leNat, ih, pow_succ', Nat.mod_mul]
    simp

/-- The field that a message begins with. -/
theorem fld_toLe_append (n v : Nat) (b : Bytes) : fld (toLe n v ++ b) 0 n = v % 256 ^ n := by
  rw [fld, List.drop_zero, List.take_left' (length_toLe n v), leNat_toLe]

theorem fld_append_right {a b : Bytes} {off k n : Nat} (h : off = a.length + k) : fld (a ++ b) off n = fld b k n := by
  rw [fld, fld, h, List.drop_append, List.drop_eq_nil_of_le (by omega), List.nil_append, Nat.add_sub_cancel_left]

theorem completes_collectionStats (h : Serves s box 0x0304 m) (hd : collAt s (fld m 0x20 2) s.eng.epoch = some d)
    (hown : coOwner d = zTenant m ∨ zTenant m = 0) :
    Completes (.collectionStats box) s fun t => OnlyMbx box s t ∧ Frame [.stew] s t ∧
      ∃ body, Answers box 0 0 body s t ∧ body.length = 64 ∧ fld body 0 8 = s.eng.epoch % 2 ^ 64 ∧
        fld body 0x10 4 = (liveIds s d).length % 2 ^ 32 := by
  refine completes_zalpol h rfl ?_
  dsimp only
  rw [hd]
  dsimp only
  rw [if_neg (no_violation hown)]
  refine ⟨onlyMbx_zRespond rfl, frame_withDigests.2 (Effect.refl (w := false)).zRespond.frame, _, answers_zRespond rfl, ?_, ?_, ?_⟩
  · simp only [List.length_append, length_toLe]
  · simp only [List.append_assoc]
    exact fld_toLe_append 8 s.eng.epoch _
  · simp only [List.append_assoc]
    rw [fld_append_right (k := 8) (by rw [length_toLe]), fld_append_right (k := 0) (by rw [length_toLe])]
    exact fld_toLe_append 4 (liveIds s d).length _

end

/-- Settles O28: each clause is what its command completes with. -/
theorem collectionsAreCreatedChangedAndDeleted : Obligations.CollectionsAreCreatedChangedAndDeleted :=
  ⟨fun _ _ _ h hfree hnew hchk htier hzero hown hhandles hhusk =>
      completes_collectionCreate h hfree hnew hchk htier hzero hown hhandles hhusk,
   fun _ _ _ _ h hfree hold hown hchk hchange hhusk => completes_collectionChange h hfree hold hown hchk hchange hhusk,
   fun _ _ _ _ h hfree hold hown hhusk => completes_collectionDelete h hfree hold hown hhusk,
   fun _ _ _ _ h hd hown => completes_collectionStats h hd hown⟩

end Sys2Proof.Proofs

/-! Rebuilds through a mailbox (R109, R165, R224, R336). -/

namespace Sys2Proof.Proofs
open Sys2Proof Sys2Proof.Machine Sys2Proof.Safety

set_option Elab.async false

theorem mem_tabSet {α : Type} {t : Tab α} {i : Nat} {x : α} {p : Nat × α} (h : p ∈ tabSet t i x) : p = (i, x) ∨ p ∈ t := by
  induction t with
  | nil => exact .inl (List.mem_singleton.1 h)
  | cons q t ih =>
    rw [tabSet] at h
    split at h
    · rcases List.mem_cons.1 h with h | h
      · exact .inl h
      · exact .inr h
    · split at h
      · rcases List.mem_cons.1 h with h | h
        · exact .inl h
        · exact .inr (List.mem_cons_of_mem q h)
      · rcases List.mem_cons.1 h with h | h
        · exact .inr (h ▸ List.mem_cons_self)
        · exact (ih h).imp id (List.mem_cons_of_mem q)

theorem ne_key_of_tabGet_none {α : Type} {t : Tab α} {i : Nat} (h : tabGet t i = none) {p : Nat × α} (hp : p ∈ t) : p.1 ≠ i := by
  induction t with
  | nil => cases hp
  | cons q t ih =>
    obtain ⟨k, v⟩ := q
    rw [tabGet] at h
    split at h
    · cases h
    · next hk =>
      rcases List.mem_cons.1 hp with rfl | hp
      · exact hk
      · exact ih h hp

/-- Rebuilds that start keep their operands: under each ID stands the rebuild that was queued under it, started or not (R224). -/
theorem startRebuilds_keeps {id e : Nat} {b : Rebuild} {l : Tab Rebuild} (hl : ∀ p ∈ l, p.1 = id → p.2 = b) {t : Tab Rebuild}
    (ht : ∃ run since, tabGet t id = some { b with running := run, since := since }) :
    ∃ run since, tabGet (l.foldl (fun t p =>
      if p.2.running || t.any (fun q => q.2.running && sameTarget p.2 q.2) then t
      else tabSet t p.1 { p.2 with running := true, since := e }) t) id = some { b with running := run, since := since } := by
  induction l generalizing t with
  | nil => exact ht
  | cons p l ih =>
    refine ih (fun q hq => hl q (List.mem_cons_of_mem p hq)) ?_
    dsimp only
    split
    · exact ht
    · by_cases hp : p.1 = id
      · exact ⟨true, e, by rw [hp, tabGet_tabSet_same, hl p List.mem_cons_self hp]⟩
      · obtain ⟨run, since, h⟩ := ht
        exact ⟨run, since, by rw [tabGet_tabSet_other _ _ _ _ (Ne.symm hp), h]⟩

/-- An accepted rebuild waits under the next ID, which the answer holds (R336). -/
theorem acceptRebuild_facts {box : Nat} {m : Bytes} {b : Rebuild} {s : State}
    (hfree : tabGet s.idx.rebuilds s.idx.nextRebuild = none) {t : State} (ht : t = withDigests s (acceptRebuild box m b s)) :
    Answers box 0 0 (toLe 4 s.idx.nextRebuild) s t ∧ Frame [.stew, .idx] s t ∧
    QueuesRebuild { b with mbx := some box, seq := fld m 4 2 } s t := by
  subst ht
  refine ⟨answers_zRespond rfl, ?_, rfl, ?_⟩
  · exact frame_withDigests.2 (Effect.refl (w := false)).addRebuild.zRespond.frame
  · refine startRebuilds_keeps (fun p hp hid => ?_) ⟨_, _, tabGet_tabSet_same ..⟩
    rcases mem_tabSet hp with rfl | hp
    · rfl
    · exact absurd hid (ne_key_of_tabGet_none hfree hp)

section
variable {s : State} {box : Nat} {m d : Bytes} {claim : State → Prop}

theorem completes_onRebuild {c : Instr} {kind : Nat} {k : Bytes → State → State} (h : Serves s box 0x0305 m)
    (hkind : byteAt m 0x28 = kind) (hexec : exec c s = whileUp s (onRebuild box kind s k)) (hk : claim (withDigests s (k m s))) :
    Completes c s claim := by
  have hon : onRebuild box kind s k = onZalpol box 0x0305 s k := by
    rw [onRebuild, if_pos]
    rw [h.2]
    simp [hkind]
  exact completes_zalpol h (hexec.trans (congrArg _ hon)) hk

/-- A rebuild of a collection the tenant may touch goes on to its own checks (R336). -/
theorem rebuildColl_of_owned {k : Nat → Bytes → State → State} (hlt : fld m 0x20 8 < 65536) (hkind : byteAt m 0x28 ≤ 4)
    (hd : collAt s (fld m 0x20 8) s.eng.epoch = some d) (hown : coOwner d = zTenant m ∨ zTenant m = 0) :
    rebuildColl box m s k = k (fld m 0x20 8) d s := by
  unfold rebuildColl
  extract_lets c
  rw [if_neg (Nat.not_le.2 hlt), if_neg (Nat.not_lt.2 hkind), hd]
  exact if_neg (no_violation hown)

section
variable (h : Serves s box 0x0305 m) (hlt : fld m 0x20 8 < 65536) (hd : collAt s (fld m 0x20 8) s.eng.epoch = some d)
  (hown : coOwner d = zTenant m ∨ zTenant m = 0) (hfree : tabGet s.idx.rebuilds s.idx.nextRebuild = none)
include h hlt hd hown hfree

theorem completes_rebuildSweep (hkind : byteAt m 0x28 = 0) (hlocal : localList s d (fld m 0x2C 4) = true) :
    Completes (.rebuildSweep box) s fun t => Answers box 0 0 (toLe 4 s.idx.nextRebuild) s t ∧ Frame [.stew, .idx] s t ∧
      QueuesRebuild { kind := 0, coll := fld m 0x20 8, list := fld m 0x2C 4, mbx := some box, seq := fld m 4 2 } s t := by
  refine completes_onRebuild h hkind rfl ?_
  rw [rebuildColl_of_owned hlt (by omega) hd hown, zChecked_of_none (by simp [firstBad, hlocal])]
  exact acceptRebuild_facts hfree rfl

theorem completes_rebuildSplit (hkind : byteAt m 0x28 = 1) (hlocal : localList s d (fld m 0x2C 4) = true) :
    Completes (.rebuildSplit box) s fun t => Answers box 0 0 (toLe 4 s.idx.nextRebuild) s t ∧ Frame [.stew, .idx] s t ∧
      QueuesRebuild { kind := 1, coll := fld m 0x20 8, list := fld m 0x2C 4, mbx := some box, seq := fld m 4 2 } s t := by
  refine completes_onRebuild h hkind rfl ?_
  rw [rebuildColl_of_owned hlt (by omega) hd hown, zChecked_of_none (by simp [firstBad, hlocal])]
  exact acceptRebuild_facts hfree rfl

theorem completes_rebuildMerge (hkind : byteAt m 0x28 = 2) (hlocal : localList s d (fld m 0x2C 4) = true)
    (hlocal2 : localList s d (fld m 0x30 4) = true) (hne : fld m 0x2C 4 ≠ fld m 0x30 4) :
    Completes (.rebuildMerge box) s fun t => Answers box 0 0 (toLe 4 s.idx.nextRebuild) s t ∧ Frame [.stew, .idx] s t ∧
      QueuesRebuild {
        kind := 2, coll := fld m 0x20 8, list := min (fld m 0x2C 4) (fld m 0x30 4),
        list2 := max (fld m 0x2C 4) (fld m 0x30 4), mbx := some box, seq := fld m 4 2 } s t := by
  refine completes_onRebuild h hkind rfl ?_
  dsimp only
  rw [rebuildColl_of_owned hlt (by omega) hd hown, zChecked_of_none (by simp [firstBad, hlocal, hlocal2, hne])]
  exact acceptRebuild_facts hfree rfl

theorem completes_rebuildRetrain (hkind : byteAt m 0x28 = 3) :
    Completes (.rebuildRetrain box) s fun t => Answers box 0 0 (toLe 4 s.idx.nextRebuild) s t ∧ Frame [.stew, .idx] s t ∧
      QueuesRebuild { kind := 3, coll := fld m 0x20 8, mbx := some box, seq := fld m 4 2 } s t := by
  refine completes_onRebuild h hkind rfl ?_
  rw [rebuildColl_of_owned hlt (by omega) hd hown]
  exact acceptRebuild_facts hfree rfl

end

/-- A command on an object that its tenant may touch goes on with the object (R236). -/
theorem zHandle_of_valid {t h : Nat} {o : ObjRec} {k : ObjRec → State → State} (hh : handleStatus s t h = none)
    (ho : objOf s h = some o) : zHandle box t h s k = k o s := by
  rw [zHandle, hh, ho]

theorem completes_rebuildRehash {o : ObjRec} (h : Serves s box 0x0305 m) (hkind : byteAt m 0x28 = 4)
    (hh : handleStatus s (zTenant m) (fld m 0x20 8) = none) (ho : objOf s (fld m 0x20 8) = some o)
    (htable : tableKind s (fld m 0x20 8) = 2) (hheader : mhKind (emHeader s (fld m 0x20 8) s.eng.epoch) = 1)
    (hlo : 1 ≤ fld m 0x38 8) (hhi : fld m 0x38 8 ≤ 2 ^ 40)
    (hhash : byteAt m 0x48 = 1 ∨ byteAt m 0x48 = 2 ∧ 2 ^ Nat.log2 (fld m 0x38 8) = fld m 0x38 8 ∧ fld m 0x40 8 % 2 = 1)
    (hfree : tabGet s.idx.rebuilds s.idx.nextRebuild = none) :
    Completes (.rebuildRehash box) s fun t => Answers box 0 0 (toLe 4 s.idx.nextRebuild) s t ∧ Frame [.stew, .idx] s t ∧
      QueuesRebuild {
        kind := 4, coll := fld m 0x20 8, rows := fld m 0x38 8, seed := fld m 0x40 8, hash := byteAt m 0x48,
        mbx := some box, seq := fld m 4 2 } s t := by
  refine completes_onRebuild h hkind rfl ?_
  dsimp only
  rw [zHandle_of_valid hh ho, zChecked_of_none]
  · exact acceptRebuild_facts hfree rfl
  · rcases hhash with h1 | ⟨h2, hpow, hodd⟩
    · simpa [firstBad, htable, hheader, h1, inRange] using ⟨hlo, hhi⟩
    · simpa [firstBad, htable, hheader, h2, hpow, hodd, inRange] using ⟨hlo, hhi⟩

end

/-- Settles O29: each clause is what its command completes with. -/
theorem rebuildsAreQueuedAndNumbered : Obligations.RebuildsAreQueuedAndNumbered :=
  ⟨fun _ _ _ _ h hlt hd hown hfree => ⟨completes_rebuildSweep h hlt hd hown hfree, completes_rebuildSplit h hlt hd hown hfree,
     completes_rebuildMerge h hlt hd hown hfree, completes_rebuildRetrain h hlt hd hown hfree⟩,
   fun _ _ _ _ h hkind hh ho htable hheader hlo hhi hhash hfree =>
     completes_rebuildRehash h hkind hh ho htable hheader hlo hhi hhash hfree⟩

end Sys2Proof.Proofs

/-! Husks, meters and recovery through a mailbox (R198, R203, R250, R334, R339, R394, R425). -/

namespace Sys2Proof.Proofs
open Sys2Proof Sys2Proof.Machine Sys2Proof.Safety

set_option Elab.async false

section
variable {s : State} {box : Nat} {m : Bytes}

theorem inRange_of_le {v lo hi : Nat} (hlo : lo ≤ v) (hhi : v ≤ hi) : inRange v lo hi = true := by
  rw [inRange, decide_eq_true hlo, decide_eq_true hhi]
  rfl

theorem zData_eng (m b : Bytes) (s : State) : (zData m b s).eng = s.eng :=
  (Effect.refl (ps := [.recd]) (w := false)).zData.frame .eng (by decide)

theorem completes_tableWrite {data : Bytes} (h : Serves s box 0x0310 m) (hobj : fld m 0x20 8 ≠ 0) (hlo : 1 ≤ fld m 0x30 2)
    (hhi : fld m 0x30 2 ≤ 64) (hlen : 1 ≤ fld m 0x34 4) (hmax : fld m 0x34 4 ≤ 1048576)
    (hhead : fld m 0x28 8 = headerIndex → fld m 0x30 2 = 1) (hhusk : huskRefusal s (zTenant m) none = none) :
    Completes (.tableWrite box data) s fun t => Frame [.eng, .recd] s t ∧
      FormsHusk (zTenant m) none (some box) ((List.range (fld m 0x30 2)).map fun i => {
        kind := 4, flags := if fld m 0x28 8 = headerIndex then 4 else 0, target := fld m 0x20 8,
        arg := if fld m 0x28 8 = headerIndex then 0 else fld m 0x28 8 + i, src := i * fld m 0x34 4,
        data := slice (slice data 0 (fld m 0x30 2 * fld m 0x34 4)) (i * fld m 0x34 4) (fld m 0x34 4),
        len := fld m 0x34 4 }) s t := by
  refine completes_zalpol h rfl ?_
  dsimp only
  have hcount : (!(fld m 0x28 8 == headerIndex) || fld m 0x30 2 == 1) = true := by
    by_cases he : fld m 0x28 8 = headerIndex
    · simp [hhead he]
    · simp [he]
  rw [zChecked_of_none, zHusk_of_accepted]
  · refine ⟨frame_withDigests.2 (Effect.refl (w := false)).zData.formHusk.frame, ?_⟩
    simp only [beq_iff_eq]
    exact formsHusk_congr (formsHusk_formHusk rfl) (zData_eng m (slice data 0 (fld m 0x30 2 * fld m 0x34 4)) s).symm rfl
  · exact (huskRefusal_congr (zData_eng ..) _ _).trans hhusk
  · rw [firstBad_eq_none]
    simp [hobj, inRange_of_le hlo hhi, inRange_of_le hlen hmax]
    simpa using hcount

/-- A payload goes into staging, which the engine is no part of (R203). -/
theorem stagePayload_eng {tenant ix : Nat} {b : Bytes} {s s1 : State} (h : stagePayload tenant b s = some (ix, s1)) : s1.eng = s.eng :=
  (Effect.refl.stagePayload (ps := [.obj, .recd]) h).frame .eng (by decide)

theorem completes_zalpolHusk {desc payload : Bytes} {as : List Action} {ix : Nat} {s1 : State} (h : Serves s box 0x0311 m)
    (hmax : fld m 0x2C 4 ≤ 1048576) (hcount : 64 + 32 * byteAt (slice desc 0 (fld m 0x28 4)) 0 = fld m 0x28 4)
    (hparse : parseHusk (zData m (slice desc 0 (fld m 0x28 4) ++ slice payload 0 (fld m 0x2C 4)) s) true (zTenant m)
      (slice desc 0 (fld m 0x28 4)) (slice payload 0 (fld m 0x2C 4)) = .ok as)
    (hhusk : huskRefusal (zData m (slice desc 0 (fld m 0x28 4) ++ slice payload 0 (fld m 0x2C 4)) s)
      (fld (slice desc 0 (fld m 0x28 4)) 2 2)
      (if (byteAt (slice desc 0 (fld m 0x28 4)) 1).testBit 0 then some (fld (slice desc 0 (fld m 0x28 4)) 4 4) else none) = none)
    (hstage : stagePayload (fld (slice desc 0 (fld m 0x28 4)) 2 2) (slice payload 0 (fld m 0x2C 4))
      (zData m (slice desc 0 (fld m 0x28 4) ++ slice payload 0 (fld m 0x2C 4)) s) = some (ix, s1)) :
    Completes (.zalpolHusk box desc payload) s fun t =>
      FormsHusk (fld (slice desc 0 (fld m 0x28 4)) 2 2) none (some box) as s t ∧
      ∃ x, tabGet t.eng.husks s.eng.nextHusk = some x ∧ x.staging = ix ∧
        x.binder = if (byteAt (slice desc 0 (fld m 0x28 4)) 1).testBit 0
          then some (binderOf s (fld (slice desc 0 (fld m 0x28 4)) 4 4)) else none := by
  have heng : s1.eng = s.eng := (stagePayload_eng hstage).trans (zData_eng ..)
  have hbinder (b : Nat) : binderOf s1 b = binderOf s b := by rw [binderOf, binderOf, heng]
  refine completes_zalpol h rfl ?_
  dsimp only
  rw [if_neg (by simp [hcount]; omega), hparse]
  dsimp only
  rw [bitOf, hhusk]
  dsimp only
  rw [hstage]
  dsimp only
  rw [zHusk_of_accepted]
  · refine ⟨formsHusk_congr (formsHusk_formHusk rfl) heng.symm rfl, ?_⟩
    rw [withDigests_eng, ← heng, husk_formHusk rfl]
    refine ⟨_, rfl, rfl, ?_⟩
    dsimp only
    split
    · rw [Option.map_some, hbinder]
    · rfl
  · refine (huskRefusal_congr (stagePayload_eng hstage) _ _).trans ?_
    rw [Option.map_map]
    refine Eq.trans ?_ hhusk
    split <;> rfl

/-! Meters and recovery (R250, R339, R394, R425). -/

theorem accrue_stew (s : State) : (accrue s).stew = s.stew := (Effect.refl (ps := [.obj]) (w := false)).accrue.frame .stew (by decide)

theorem accrue_aon (s : State) : (accrue s).aon = s.aon := (Effect.refl (ps := [.obj]) (w := false)).accrue.frame .aon (by decide)

theorem completes_meterRead (h : Serves s box 0x0601 m) :
    Completes (.meterRead box) s fun t => OnlyMbx box s t ∧ SameBytes s t ∧ Frame [.stew, .obj] s t ∧
      Answers box 0 0 (toLe 4 s.stew.boot ++ zeros 4 ++ toLe 8 s.aon.uptime ++ (metersOut t (zTenant m)).flatMap (toLe 8)) s t := by
  have heff : Effect [.stew, .obj] false s (zRespond box St.success 0 (toLe 4 (accrue s).stew.boot ++ zeros 4 ++
      toLe 8 (now (accrue s)) ++ (metersOut (accrue s) (zTenant m)).flatMap (toLe 8)) (accrue s)) := Effect.refl.accrue.zRespond
  refine completes_zalpol h rfl ?_
  dsimp only
  refine ⟨onlyMbx_answered (accrue_stew s), heff.bytes rfl, frame_withDigests.2 heff.frame, ?_⟩
  have hm (b : Bytes) : metersOut (withDigests s (zRespond box St.success 0 b (accrue s))) (zTenant m) =
      metersOut (accrue s) (zTenant m) := rfl
  rw [hm, now, accrue_aon, accrue_stew]
  exact answers_answered (accrue_stew s)

theorem completes_recoverRestart (h : Serves s box 0x0701 m) (hact : byteAt m 0x20 = 0) :
    Completes (.recoverRestart box) s fun t => Answers box 0 0 (toLe 1 (nodeStateCode s.stew.st)) s t ∧
      t.stew.phase = (if s.stew.phase = 6 then 6 else 1) ∧
      t.stew.restarts = (if s.stew.phase = 6 then s.stew.restarts else s.stew.restarts + 1) ∧ Frame [.stew] s t := by
  refine completes_zalpolOf (skip := fun m => byteAt m 0x20 == 1) h (by simp [hact]) rfl ?_
  dsimp only
  rw [zChecked_of_none (by simp [firstBad, hact])]
  by_cases hp : s.stew.phase = 6
  · rw [if_pos hp, if_pos hp, if_pos hp]
    exact ⟨answers_zRespond rfl, hp, rfl, frame_withDigests.2 (Effect.refl (w := false)).zRespond.frame⟩
  · rw [if_neg hp, if_neg hp, if_neg hp]
    exact ⟨(ReqKept.refl.of_mbx rfl).answers, rfl, rfl, frame_withDigests.2 (Effect.refl (w := false)).onStew.zRespond.frame⟩

theorem completes_recoverLeaveFault (h : Serves s box 0x0701 m) (hact : byteAt m 0x20 = 1)
    (hst : s.stew.st = .standby ∨ s.stew.st = .fault ∧ s.aon.faultPresent = 0#64) :
    Completes (.recoverLeaveFault box) s fun t =>
      Answers box 0 0 (toLe 1 (nodeStateCode .standby)) s t ∧ t.stew.st = .standby ∧ Frame [.stew] s t := by
  refine completes_zalpolOf (skip := fun m => byteAt m 0x20 != 1) h (by simp [hact]) rfl ?_
  rcases hst with hst | ⟨hst, hnone⟩
  · rw [if_pos hst]
    exact ⟨answers_zRespond rfl, hst, frame_withDigests.2 (Effect.refl (w := false)).zRespond.frame⟩
  · rw [if_neg (by simp [hst]), if_neg (by simp [hst, hnone])]
    exact ⟨(ReqKept.refl.of_mbx rfl).answers, rfl, frame_withDigests.2 (Effect.refl (w := false)).onStew.zRespond.frame⟩

theorem completes_recoverLeaveFault_refused (h : Serves s box 0x0701 m) (hact : byteAt m 0x20 = 1) (hst : s.stew.st ≠ .standby)
    (hno : s.stew.st ≠ .fault ∨ s.aon.faultPresent ≠ 0#64) :
    Completes (.recoverLeaveFault box) s fun t =>
      Answers box 0x0105 0 [] s t ∧ t.stew.st = s.stew.st ∧ Frame [.stew] s t := by
  refine completes_zalpolOf (skip := fun m => byteAt m 0x20 != 1) h (by simp [hact]) rfl ?_
  rw [if_neg hst, if_pos (by rcases hno with h | h <;> simp [h])]
  exact ⟨answers_zRespond rfl, rfl, frame_withDigests.2 (Effect.refl (w := false)).zFail.frame⟩

theorem completes_recoveryStatus (h : Serves s box 0x0702 m) :
    Completes (.recoveryStatus box) s fun t => OnlyMbx box s t ∧ Frame [.stew] s t ∧
      Answers box 0 0 (toLe 1 s.stew.phase ++ zeros 7 ++ toLe 8 s.stew.lastReplayed ++ toLe 8 s.eng.epoch ++
        toLe 4 s.stew.restarts) s t :=
  completes_zalpol h rfl ⟨onlyMbx_zRespond rfl, frame_withDigests.2 (Effect.refl (w := false)).zRespond.frame, answers_zRespond rfl⟩

end

/-- Settles O30: each clause is what its command completes with. -/
theorem mailboxHusksMetersAndRecovery : Obligations.MailboxHusksMetersAndRecovery :=
  ⟨⟨fun _ _ _ _ h hobj hlo hhi hlen hmax hhead hhusk => completes_tableWrite h hobj hlo hhi hlen hmax hhead hhusk,
    fun _ _ _ _ _ _ _ _ h hmax hcount hparse hhusk hstage => completes_zalpolHusk h hmax hcount hparse hhusk hstage⟩,
   fun _ _ _ h => completes_meterRead h, fun _ _ _ h hact => completes_recoverRestart h hact,
   fun _ _ _ h hact => ⟨completes_recoverLeaveFault h hact, completes_recoverLeaveFault_refused h hact⟩,
   fun _ _ _ h => completes_recoveryStatus h⟩

end Sys2Proof.Proofs

/-! Objects and binders through a mailbox (R225, R233, R249). -/

namespace Sys2Proof.Proofs
open Sys2Proof Sys2Proof.Machine Sys2Proof.Safety

set_option Elab.async false

section
variable {s : State} {box : Nat} {m : Bytes}

theorem completes_objectQuery {o : ObjRec} (h : Serves s box 0x0320 m) (hh : handleStatus s (zTenant m) (fld m 0x20 8) = none)
    (ho : objOf s (fld m 0x20 8) = some o) :
    Completes (.objectQuery box) s fun t => Answers box 0 0 (objHeader s o) s t ∧ OnlyMbx box s t ∧ Frame [.stew] s t := by
  refine completes_zalpol h rfl ?_
  rw [zHandle_of_valid hh ho]
  exact ⟨answers_zRespond rfl, onlyMbx_zRespond rfl, frame_withDigests.2 (Effect.refl (w := false)).zRespond.frame⟩

/-- The object that a handle names is the one at its index. -/
theorem tabGet_of_objOf {h : Nat} {o : ObjRec} (ho : objOf s h = some o) : tabGet s.obj.recs (hIndex h) = some o ∧ o.handle = h := by
  unfold objOf at ho
  split at ho
  · next hrec =>
    split at ho
    · next hh => cases ho; exact ⟨hrec, hh⟩
    · cases ho
  · cases ho

/-- Metering leaves the objects as they are (R250). -/
theorem accrue_recs (s : State) : (accrue s).obj.recs = s.obj.recs := by
  unfold accrue
  extract_lets dt s1
  split
  · rfl
  · exact foldl_same (fun s : State => s.obj.recs) _ (objList s) s fun _ _ =>
      foldl_same (fun s : State => s.obj.recs) _ _ _ fun _ _ => by dsimp only; split <;> rfl

theorem headerChange_recs (home : Nat) (s : State) : (headerChange home s).obj.recs = s.obj.recs := by
  unfold headerChange
  split
  · rfl
  · split <;> rfl

theorem completes_objectTransfer {o : ObjRec} (h : Serves s box 0x0321 m) (hh : handleStatus s (zTenant m) (fld m 0x20 8) = none)
    (ho : objOf s (fld m 0x20 8) = some o) (hmay : mayTransfer s o = true) (hto : fld m 0x28 2 < 1024)
    (hshare : tenantFixed s (fld m 0x28 2) o.home + o.size ≤ (genShare (gen s) (fld m 0x28 2) o.home).1)
    (hlimit : tenantIn s (fld m 0x28 2) o.home + o.size ≤ (genShare (gen s) (fld m 0x28 2) o.home).2) :
    Completes (.objectTransfer box) s fun t =>
      (let h' := mkHandle (fld m 0x28 2) (hClass (fld m 0x20 8)) (hIndex (fld m 0x20 8)) (nextGeneration (hGen (fld m 0x20 8)));
        Answers box 0 0 (toLe 8 h') s t ∧
        ∃ o', tabGet t.obj.recs (hIndex (fld m 0x20 8)) = some o' ∧ o'.handle = h' ∧ o'.size = o.size ∧ o'.home = o.home) ∧
      SameBytes s t ∧ OnlyMbx box s t ∧ Frame [.stew, .obj] s t := by
  obtain ⟨hrec, -⟩ := tabGet_of_objOf ho
  refine completes_zalpol h rfl ?_
  dsimp only
  rw [zHandle_of_valid hh ho, zChecked_of_none (by simp [firstBad, hmay, hto])]
  rw [if_neg (by simpa using ⟨hshare, hlimit⟩)]
  generalize mkHandle (fld m 0x28 2) (hClass (fld m 0x20 8)) (hIndex (fld m 0x20 8)) (nextGeneration (hGen (fld m 0x20 8))) = h'
  generalize hx : headerChange o.home _ = x
  have heff : Effect [.obj] false s x := by
    subst hx
    exact (Effect.refl.accrue.onObj).modObj.headerChange
  have hstew : x.stew = s.stew := heff.frame .stew (by decide)
  have hobj : tabGet x.obj.recs (hIndex (fld m 0x20 8)) = some { o with handle := h' } := by
    subst hx
    rw [headerChange_recs]
    refine (tabGet_tabMod_same (accrue s).obj.recs (hIndex (fld m 0x20 8)) fun o => { o with handle := h' }).trans ?_
    rw [accrue_recs, hrec]
    rfl
  have hans : Effect [.stew, .obj] false s (zRespond box St.success 0 (toLe 8 h') x) := (Effect.extend .refl (by decide) heff).zRespond
  exact ⟨⟨answers_answered hstew, _, hobj, rfl, rfl, rfl⟩, hans.bytes rfl, onlyMbx_answered hstew, frame_withDigests.2 hans.frame⟩

/-! Binders (R225). -/

theorem completes_binderAlloc (h : Serves s box 0x0330 m) (hlt : firstFree 0 s.eng.binders < 131072) :
    Completes (.binderAlloc box) s fun t => Answers box 0 0 (toLe 4 (firstFree 0 s.eng.binders)) s t ∧
      t.eng = { s.eng with
        binderSeq := s.eng.binderSeq + 1,
        binders := tabSet s.eng.binders (firstFree 0 s.eng.binders) { owner := zTenant m, alloc := s.eng.binderSeq } } ∧
      OnlyMbx box s t ∧ Frame [.stew, .eng] s t := by
  refine completes_zalpol h rfl ?_
  dsimp only
  rw [if_neg (Nat.not_le.2 hlt)]
  exact ⟨answers_zRespond rfl, rfl, onlyMbx_zRespond rfl, frame_withDigests.2 (Effect.refl (w := false)).onEng.zRespond.frame⟩

/-- A command on a binder of its tenant goes on with the binder (R225). -/
theorem zBinder_of_owned {x : Binder} {k : Nat → Binder → State → State} (hlt : fld m 0x20 4 < 131072)
    (hx : tabGet s.eng.binders (fld m 0x20 4) = some x) (hown : x.owner = zTenant m) :
    zBinder box m s k = k (fld m 0x20 4) x s := by
  unfold zBinder
  extract_lets i
  rw [zChecked_of_none (by simp [firstBad, i, hlt]), hx]
  exact if_pos hown

theorem completes_binderRead {x : Binder} (h : Serves s box 0x0332 m) (hlt : fld m 0x20 4 < 131072)
    (hx : tabGet s.eng.binders (fld m 0x20 4) = some x) (hown : x.owner = zTenant m) :
    Completes (.binderRead box) s fun t => OnlyMbx box s t ∧ Frame [.stew] s t ∧
      Answers box 0 0 (toLe 8 x.value ++ toLe 2 x.owner ++ toLe 1 (if x.saturated then 3 else 1) ++ [0] ++
        toLe 2 (waitersOf s (fld m 0x20 4)).length ++ zeros 2) s t := by
  have hsat : 1 + 2 * b2n x.saturated = if x.saturated then 3 else 1 := by
    cases x.saturated <;> rfl
  refine completes_zalpol h rfl ?_
  rw [zBinder_of_owned hlt hx hown, hsat]
  exact ⟨onlyMbx_zRespond rfl, frame_withDigests.2 (Effect.refl (w := false)).zRespond.frame, answers_zRespond rfl⟩

/-! The end of the waits on a binder that goes (R225): each waiting queue is let go and its command completed. -/

/-- The wait of one queue on a binder ends. -/
def endWaitOf (s : State) (q : Nat) : State :=
  match (qpOf s q).waitGe with
  | some w => checkDelete q (postCompl q { cid := w.cid, status := St.binderUnknown }
      (modQp q (fun p => { p with waitGe := none, wait := false }) s))
  | none => s

theorem endWaits_eq (b : Nat) (s : State) : endWaits b s = (waitersOf s b).foldl endWaitOf s := rfl

/-- What a change of a queue pair leaves stays for every queue pair. -/
theorem qp_modQp {α : Type} (g : Qp → α) {q j : Nat} {f : Qp → Qp} (s : State) (hf : ∀ p, g (f p) = g p) :
    g (qpOf (modQp j f s) q) = g (qpOf s q) := by
  by_cases hj : q = j
  · subst hj
    obtain h | h := qpOf_modQp_same q f s <;> rw [h]
    exact hf _
  · rw [qpOf_modQp_other _ _ hj]

section
variable {α : Type} {g : Qp → α} (hg : ∀ (p : Qp) (st : List Compl) (t : Nat) (ph : Bool) (u : Nat) (fu : Option Nat),
  g { p with staged := st, cqTail := t, phase := ph, unsignalled := u, firstUnsig := fu } = g p)
include hg

/-- What no completion touches of a queue pair stays as completions are written (R318). -/
theorem qp_writeCompl (q j : Nat) (c : Compl) (s : State) : g (qpOf (writeCompl j c s) q) = g (qpOf s q) := by
  have counted : g (qpOf (complCounted j c s) q) = g (qpOf s q) :=
    (qp_modQp g _ fun p => hg p p.staged _ _ _ _).trans (congrArg g (qpOf_complPosted ..))
  rw [writeCompl_eq]
  split
  · exact ((qp_modQp g _ fun p => hg p p.staged p.cqTail p.phase _ _).trans (congrArg g (qpOf_sendMsi ..))).trans counted
  · exact counted

theorem qp_drainGo (k q j : Nat) (s : State) : g (qpOf (drainGo k j s) q) = g (qpOf s q) := by
  induction k generalizing s with
  | zero => rfl
  | succ k ih =>
    unfold drainGo
    split
    · rfl
    · split
      · rw [ih, qpOf_congr (freeStaging_hif ..), qp_writeCompl hg]
        exact qp_modQp g _ fun p => hg p _ p.cqTail p.phase p.unsignalled p.firstUnsig
      · rfl

theorem qp_postCompl (q j : Nat) (c : Compl) (s : State) : g (qpOf (postCompl j c s) q) = g (qpOf s q) := by
  have drained : g (qpOf (drainCq j (modQp j (fun p => { p with staged := p.staged ++ [c] }) s)) q) = g (qpOf s q) := by
    refine (qp_modQp g _ fun p => hg p _ p.cqTail p.phase p.unsignalled p.firstUnsig).trans ((qp_drainGo hg ..).trans ?_)
    exact qp_modQp g _ fun p => hg p _ p.cqTail p.phase p.unsignalled p.firstUnsig
  unfold postCompl
  split
  · exact drained
  · exact drained
  · rw [qpOf_congr (freeStaging_hif ..)]

end

theorem qpOf_zRespond (box st d : Nat) (b : Bytes) (s : State) (q : Nat) : qpOf (zRespond box st d b s) q = qpOf s q :=
  qpOf_congr (zRespond_hif box st d b s) q

theorem waitGe_checkDelete (q j : Nat) (s : State) : (qpOf (checkDelete j s) q).waitGe = (qpOf s q).waitGe := by
  have ended : (qpOf (modQp j (fun p => { p with deleting := false, qstate := .disabled, fetched := [], wait := false }) s) q).waitGe =
      (qpOf s q).waitGe := qp_modQp Qp.waitGe s fun _ => rfl
  unfold checkDelete
  extract_lets p
  split
  · split
    · exact (congrArg Qp.waitGe (qpOf_congr (zRespond_hif ..) q)).trans ended
    · exact ended
  · rfl

/-- A wait of a queue that has ended does not come back, whatever queue is let go. -/
theorem waitGe_endWaitOf {q : Nat} (j : Nat) {s : State} (h : (qpOf s q).waitGe = none ∨ q = j) :
    (qpOf (endWaitOf s j) q).waitGe = none := by
  unfold endWaitOf
  split
  · rw [waitGe_checkDelete, qp_postCompl (g := Qp.waitGe) (fun _ _ _ _ _ _ => rfl)]
    by_cases hj : q = j
    · subst hj
      cases hp : tabGet s.hif.qps q with
      | none => simp [qpOf, tabGetD, modQp, hp]
      | some p => rw [qpOf_of_tabGet (tabGet_modQp_of_some _ hp)]
    · rw [qpOf_modQp_other _ _ hj]
      exact h.resolve_right hj
  · next hw =>
    rcases h with h | rfl
    · exact h
    · exact hw

theorem waitGe_endWaits {q : Nat} {l : List Nat} {s : State} (h : (qpOf s q).waitGe = none ∨ q ∈ l) :
    (qpOf (l.foldl endWaitOf s) q).waitGe = none := by
  induction l generalizing s with
  | nil => exact h.resolve_right (by simp)
  | cons a l ih =>
    refine ih ?_
    rcases h with h | h
    · exact .inl (waitGe_endWaitOf a (.inl h))
    · rcases List.mem_cons.1 h with rfl | h
      · exact .inl (waitGe_endWaitOf _ (.inr rfl))
      · exact .inr h

theorem ReqKept.endWaitOf {s t : State} {j : Nat} (h : ReqKept box s t) : ReqKept box s (endWaitOf t j) := by
  unfold Proofs.endWaitOf
  split
  · exact (h.of_effect (ps := [.hif, .shv]) (w := false) Effect.refl.modQp.postCompl).checkDelete
  · exact h

theorem mem_waitersOf {q b : Nat} {p : Qp} {w : WaitGe} (hp : tabGet s.hif.qps q = some p) (hw : p.waitGe = some w) (hb : w.binder = b) :
    q ∈ waitersOf s b :=
  List.mem_map.2 ⟨(q, p), List.mem_filter.2 ⟨mem_of_tabGet hp, by simp [hw, hb]⟩, rfl⟩

theorem completes_binderFree {x : Binder} (h : Serves s box 0x0331 m) (hlt : fld m 0x20 4 < 131072)
    (hx : tabGet s.eng.binders (fld m 0x20 4) = some x) (hown : x.owner = zTenant m) :
    Completes (.binderFree box) s fun t => Answers box 0 0 [] s t ∧
      (∀ b, tabGet t.eng.binders b = if b = fld m 0x20 4 then none else tabGet s.eng.binders b) ∧
      (∀ q p w, tabGet s.hif.qps q = some p → p.waitGe = some w → w.binder = fld m 0x20 4 → (qpOf t q).waitGe = none) := by
  refine completes_zalpol h rfl ?_
  rw [zBinder_of_owned hlt hx hown, endWaits_eq]
  generalize hy : s.onEng (fun e => { e with binders := tabDel e.binders (fld m 0x20 4) }) = y
  have hif : y.hif = s.hif := by subst hy; rfl
  have hstew : y.stew = s.stew := by subst hy; rfl
  refine ⟨ReqKept.answers (.foldl (.of_stew .refl hstew) fun _ _ h => h.endWaitOf), fun b => ?_, fun q p w hp hw hb => ?_⟩
  · have heng : (endWaits (fld m 0x20 4) y).eng = y.eng :=
      (Effect.refl (ps := [.stew, .hif, .shv]) (w := false)).endWaits.frame .eng (by decide)
    have hdel : tabGet y.eng.binders b = if b = fld m 0x20 4 then none else tabGet s.eng.binders b := by
      subst hy
      by_cases hb : b = fld m 0x20 4
      · rw [if_pos hb, hb]
        exact tabGet_tabDel_same ..
      · rw [if_neg hb]
        exact tabGet_tabDel_other _ _ _ hb
    rw [← hdel, ← heng]
    rfl
  · rw [qpOf_congr (withDigests_hif ..), qpOf_zRespond]
    have hmem : q ∈ waitersOf y (fld m 0x20 4) := by
      rw [waitersOf, hif]
      exact mem_waitersOf hp hw hb
    exact waitGe_endWaits (.inr hmem)

end

/-- Settles O31: each clause is what its command completes with. -/
theorem objectsAndBindersThroughAMailbox : Obligations.ObjectsAndBindersThroughAMailbox :=
  ⟨fun _ _ _ _ h hh ho => completes_objectQuery h hh ho,
   fun _ _ _ _ h hh ho hmay hto hshare hlimit => completes_objectTransfer h hh ho hmay hto hshare hlimit,
   fun _ _ _ h hlt _ => completes_binderAlloc h hlt,
   fun _ _ _ _ hlt hx hown => ⟨fun h => completes_binderFree h hlt hx hown, fun h => completes_binderRead h hlt hx hown⟩⟩

end Sys2Proof.Proofs

/-! Media commands (R254 to R256, R271, R277, R334). -/

namespace Sys2Proof.Proofs
open Sys2Proof Sys2Proof.Machine Sys2Proof.Safety

set_option Elab.async false

section
variable {s : State} {box : Nat} {m : Bytes}

/-- A table whose entries are changed one by one holds the changed entries. -/
theorem tabGet_map {α β : Type} (f : α → β) (t : Tab α) (i : Nat) : tabGet (t.map fun p => (p.1, f p.2)) i = (tabGet t i).map f := by
  induction t with
  | nil => rfl
  | cons p t ih =>
    obtain ⟨k, v⟩ := p
    rw [List.map_cons, tabGet, tabGet]
    split
    · rfl
    · exact ih

theorem zData_keeps (m b : Bytes) (s : State) : Effect [.recd] false s (zData m b s) := Effect.refl.zData

theorem completes_mediaTableLoad {image : Bytes} (h : Serves s box 0x0402 m) (hlo : 64 ≤ fld m 0x28 4) (hhi : fld m 0x28 4 ≤ 2 ^ 25)
    (hchk : firstBad (mediaChecks (slice image 0 (fld m 0x28 4))) = none)
    (hsigned : Config.mediaTableSigned (slice image 0 (fld m 0x28 4)) = true) :
    Completes (.mediaTableLoad box image) s fun t =>
      Answers box 0 0 (toLe 2 ((s.fls.chans.map fun c =>
        (c.2.luns.filter fun l => lunMatches l.2 (slice image 0 (fld m 0x28 4))).length).sum)) s t ∧
      t.fls.tables = s.fls.tables ++ [slice image 0 (fld m 0x28 4)] ∧
      (∀ ch, chanOf t ch = (chanOf s ch).map (admitChan (s.fls.tables ++ [slice image 0 (fld m 0x28 4)]))) ∧ OnlyMbx box s t ∧
      Frame [.stew, .fls, .recd] s t := by
  refine completes_zalpol h rfl ?_
  dsimp only
  have hkept := zData_keeps m (slice image 0 (fld m 0x28 4)) s
  generalize hx : zData m (slice image 0 (fld m 0x28 4)) s = x at hkept ⊢
  have hfls : x.fls = s.fls := hkept.frame .fls (by decide)
  have hstew : x.stew = s.stew := hkept.frame .stew (by decide)
  rw [if_neg (by simp; omega), if_neg (by simp [hchk, hsigned]), hfls]
  refine ⟨answers_answered ((State.onFls_stew ..).trans hstew), rfl, fun ch => ?_, onlyMbx_answered ((State.onFls_stew ..).trans hstew),
    frame_withDigests.2 (Effect.extend .refl (by decide) hkept).onFls.zRespond.frame⟩
  refine (tabGet_map (admitChan (s.fls.tables ++ [slice image 0 (fld m 0x28 4)])) x.fls.chans ch).trans ?_
  rw [hfls]
  rfl

theorem completes_format (h : Serves s box 0x0401 m) (hslc : 3 ≤ byteAt m 0x20) (hslc' : byteAt m 0x20 ≤ 20) (hsp : 4 ≤ byteAt m 0x21)
    (hsp' : byteAt m 0x21 ≤ 28) (hj : 16 ≤ fld m 0x22 2) (hj' : fld m 0x22 2 ≤ 256) (hword : fld m 0x24 4 = 0x54414D52)
    (hfree : s.fls.formatting = none) (hqps : ∀ q ∈ s.hif.qps, q.2.qstate ≠ .enabled) (hwin : s.hif.window = []) :
    Completes (.format box) s fun t => Answers box 0 0 [] s t ∧ OnlyMbx box s t ∧ Frame [.stew, .fls] s t ∧
      t.fls = { s.fls with formatting := some (fld m 4 2, byteAt m 0x20, byteAt m 0x21, fld m 0x22 2) } := by
  have hany : (s.hif.qps.any fun q => q.2.qstate == .enabled) = false := by
    rw [List.any_eq_false]
    exact fun q hq => by simpa using hqps q hq
  refine completes_zalpol h rfl ?_
  dsimp only
  rw [zChecked_of_none (by simp [firstBad, inRange_of_le hslc hslc', inRange_of_le hsp hsp', inRange_of_le hj hj', hword]),
    if_neg (by simp [hfree]), if_neg (by simp [hany]), if_neg (by simp [hwin])]
  exact ⟨answers_zRespond rfl, onlyMbx_zRespond rfl, frame_withDigests.2 (Effect.refl (w := false)).onFls.zRespond.frame, rfl⟩

/-! The end of a format (R256, R271). -/

theorem mem_newestVersions {l : List TVer} {v : TVer} (h : v ∈ newestVersions l) : v ∈ l := by
  have hfold (k acc : List TVer) (h : v ∈ k.foldl (fun acc v =>
      if acc.any fun w => w.table == v.table && w.index == v.index then acc else acc ++ [v]) acc) : v ∈ acc ∨ v ∈ k := by
    induction k generalizing acc with
    | nil => exact .inl h
    | cons a k ih =>
      rcases ih _ h with h | h
      · dsimp only at h
        split at h
        · exact .inl h
        · rcases List.mem_append.1 h with h | h
          · exact .inl h
          · exact .inr (List.mem_singleton.1 h ▸ List.mem_cons_self)
      · exact .inr (List.mem_cons_of_mem a h)
  exact (hfold l [] (List.mem_filter.1 h).1).resolve_left (by simp)

/-- What stands after a format is of epoch 1, and no collection's entry (R271). -/
theorem of_mem_formatVersions {v : TVer} (h : v ∈ formatVersions s) : v.tag = 1 ∧ v.table ≠ 0 := by
  unfold formatVersions at h
  obtain ⟨w, hw, rfl⟩ := List.mem_map.1 h
  refine ⟨rfl, ?_⟩
  have := (List.mem_filter.1 (mem_newestVersions hw)).2
  simp at this
  exact this.1

theorem tabGet_tabDel_of_none {α : Type} {t : Tab α} {i j : Nat} (h : tabGet t i = none) : tabGet (tabDel t j) i = none := by
  by_cases hij : i = j
  · rw [hij, tabGet_tabDel_same]
  · rw [tabGet_tabDel_other _ _ _ hij, h]

theorem removeObject_recs (i : Nat) (s : State) : (removeObject i s).obj.recs = tabDel s.obj.recs i := by
  rw [removeObject, State.onObj_obj, accrue_recs]

theorem tabGet_foldl_removeObject {i : Nat} {l : List Nat} {s : State} (h : tabGet s.obj.recs i = none ∨ i ∈ l) :
    tabGet (l.foldl (fun s i => removeObject i s) s).obj.recs i = none := by
  induction l generalizing s with
  | nil => exact h.resolve_right (by simp)
  | cons a l ih =>
    refine ih ?_
    rw [removeObject_recs]
    rcases h with h | h
    · exact .inl (tabGet_tabDel_of_none h)
    · rcases List.mem_cons.1 h with rfl | h
      · exact .inl (tabGet_tabDel_same ..)
      · exact .inr h

theorem completes_formatComplete {seq slc spare j : Nat} (hup : halted s = false) (hform : s.fls.formatting = some (seq, slc, spare, j))
    (hhusks : s.eng.husks = []) (hcmds : s.hif.cmds = []) :
    Completes .formatComplete s fun t =>
      t.eng.epoch = 1 ∧ t.eng.oldest = 1 ∧ t.eng.journal = [] ∧ t.idx.lists = [] ∧ t.idx.maps = [] ∧ t.idx.swaps = [] ∧
      (∀ v ∈ t.idx.vers, v.tag = 1 ∧ v.table ≠ 0) ∧
      t.fls.formatted = true ∧ t.fls.formatting = none ∧ t.fls.slcPct = slc ∧ t.fls.sparePct = spare ∧ t.fls.journalGb = j ∧
      t.fls.units = [] ∧ t.fls.spares = [] ∧ t.fls.saved = [] ∧ t.fls.mapLog = [] ∧
      t.fls.mediaKey = Config.randomDraw s.fls.keyCtr ∧ t.fls.keyCtr = s.fls.keyCtr + 1 ∧
      (∀ i o, tabGet s.obj.recs i = some o → formatEnds o = true → o.handle ≠ steerHandle → o.handle ≠ forwardHandle →
        ¬(s.recd.active = true ∧ o.handle = s.obj.spillH) → tabGet t.obj.recs i = none) := by
  refine completes_of_up hup rfl ?_
  rw [hform]
  dsimp -zeta only
  rw [if_neg (by simp [hhusks, hcmds])]
  extract_lets vers gone s1 s2 s3 s4 s5 s6 s7 s8 s9
  have removed : Effect [.obj] true s s1 := .foldl .refl fun _ _ h => h.removeObject
  have recorded : Effect [.recd] false s5 s6 := Effect.refl.recordInput
  have ended : Effect [.recd] true s8 s9 := by
    refine .ite .refl ?_
    exact Effect.refl.onRecKept (hk := fun _ hc k hk => hc.2 k (.inr (by simpa using hk)))
  have done : Effect [.stew, .recd] true s8 (commandDone 0 0x0401 seq St.success 0 [] s9) := (Effect.extend .refl (by decide) ended).commandDone
  have hfls1 : s1.fls = s.fls := removed.frame .fls (by decide)
  have heng : (commandDone 0 0x0401 seq St.success 0 [] s9).eng = s5.eng := (done.frame .eng (by decide)).trans (recorded.frame .eng (by decide))
  have hidx : (commandDone 0 0x0401 seq St.success 0 [] s9).idx = s5.idx := (done.frame .idx (by decide)).trans (recorded.frame .idx (by decide))
  have hobj : (commandDone 0 0x0401 seq St.success 0 [] s9).obj = s5.obj := (done.frame .obj (by decide)).trans (recorded.frame .obj (by decide))
  have hfls : (commandDone 0 0x0401 seq St.success 0 [] s9).fls = s8.fls := done.frame .fls (by decide)
  have hctr : s6.fls.keyCtr = s.fls.keyCtr := by
    rw [show s6.fls = s5.fls from recorded.frame .fls (by decide)]
    exact congrArg Fls.keyCtr hfls1
  refine ⟨_, rfl, ?_⟩
  rw [withDigests_eng, withDigests_idx, withDigests_obj, withDigests_fls, heng, hidx, hobj, hfls]
  refine ⟨rfl, rfl, rfl, rfl, rfl, rfl, fun v hv => of_mem_formatVersions hv, rfl, rfl, rfl, rfl, rfl, rfl, rfl, rfl, rfl, ?_, ?_, ?_⟩
  · exact congrArg Config.randomDraw hctr
  · exact congrArg (· + 1) hctr
  · intro i o ho hends hsteer hforward hspill
    refine (tabGet_map (fun o => { o with writtenEpoch := 1 }) s1.obj.recs i).trans ?_
    have hkept : (s.recd.active && o.handle == s.obj.spillH) = false := by
      rw [Bool.eq_false_iff]
      exact fun hs => hspill (by simpa using hs)
    have hgone : i ∈ gone :=
      List.mem_map.2 ⟨(i, o), List.mem_filter.2 ⟨mem_of_tabGet ho, by simp only [hkept]; simp [hends, hsteer, hforward]⟩, rfl⟩
    rw [tabGet_foldl_removeObject (.inr hgone)]
    rfl

/-! Reports (R254, R277). -/

theorem byteAt_toLe_append {v : Nat} (b : Bytes) (hv : v < 256) : byteAt (toLe 1 v ++ b) 0 = v := by
  simp [byteAt, toLe, Nat.mod_eq_of_lt hv]

theorem completes_channelStatus {c : Chan} (h : Serves s box 0x0403 m) (hc : chanOf s (byteAt m 0x20) = some c) :
    Completes (.channelStatus box) s fun t => OnlyMbx box s t ∧ Frame [.stew] s t ∧
      ∃ body, Answers box 0 0 body s t ∧ body.length = 24 ∧ fld body 4 4 = c.rate % 2 ^ 32 ∧
        byteAt body 0 = (match c.st with | .inService => 0 | .draining => 1 | .retired => 2 | .admitting => 3) := by
  refine completes_zalpol h rfl ?_
  dsimp only
  rw [hc]
  refine ⟨onlyMbx_zRespond rfl, frame_withDigests.2 (Effect.refl (w := false)).zRespond.frame, _, answers_zRespond rfl, ?_, ?_, ?_⟩
  · simp only [List.length_append, length_toLe]
  · simp only [List.append_assoc]
    rw [fld_append_right (k := 3) (by rw [length_toLe]), fld_append_right (k := 2) (by rw [length_toLe]),
      fld_append_right (k := 1) (by rw [length_toLe]), fld_append_right (k := 0) (by rw [length_toLe])]
    exact fld_toLe_append 4 c.rate _
  · simp only [List.append_assoc]
    refine byteAt_toLe_append _ ?_
    cases c.st <;> decide

theorem completes_endurance_device (h : Serves s box 0x0406 m) (hall : byteAt m 0x20 = 0) :
    Completes (.endurance box) s fun t => OnlyMbx box s t ∧ Frame [.stew] s t ∧
      Answers box 0 0 (endurRecord s none s.fls.endur) s t := by
  refine completes_zalpol h rfl ?_
  dsimp only
  rw [if_pos hall]
  exact ⟨onlyMbx_zRespond rfl, frame_withDigests.2 (Effect.refl (w := false)).zRespond.frame, answers_zRespond rfl⟩

theorem completes_endurance_lun (h : Serves s box 0x0406 m) (hone : byteAt m 0x20 = 1) (hch : byteAt m 0x21 < 32)
    (hce : byteAt m 0x22 < 4) (hlun : byteAt m 0x23 < 8)
    (hthere : (lunOf s (byteAt m 0x21) (byteAt m 0x22 * 8 + byteAt m 0x23)).isSome = true) :
    Completes (.endurance box) s fun t => OnlyMbx box s t ∧ Frame [.stew] s t ∧
      Answers box 0 0 (endurRecord s (some (byteAt m 0x21, byteAt m 0x22 * 8 + byteAt m 0x23))
        (tabGetD s.fls.lunEndur (blkField (byteAt m 0x21) (byteAt m 0x22 * 8 + byteAt m 0x23) 0) {})) s t := by
  refine completes_zalpol h rfl ?_
  dsimp only
  rw [if_neg (by simp [hone]), zChecked_of_none (by simp [firstBad, hone, hch, hce, hlun, hthere])]
  exact ⟨onlyMbx_zRespond rfl, frame_withDigests.2 (Effect.refl (w := false)).zRespond.frame, answers_zRespond rfl⟩

end

/-- Settles O32: each clause is what its command completes with. -/
theorem mediaIsTabledFormattedAndReported : Obligations.MediaIsTabledFormattedAndReported :=
  ⟨fun _ _ _ _ h hlo hhi hchk hsigned => completes_mediaTableLoad h hlo hhi hchk hsigned,
   fun _ _ _ h hslc hslc' hsp hsp' hj hj' hword hfree hqps hwin =>
     completes_format h hslc hslc' hsp hsp' hj hj' hword hfree hqps hwin,
   fun _ _ _ _ _ hup hform hhusks hcmds => completes_formatComplete hup hform hhusks hcmds,
   fun _ _ _ _ h hc => completes_channelStatus h hc,
   fun _ _ _ h => ⟨completes_endurance_device h, completes_endurance_lun h⟩⟩

end Sys2Proof.Proofs

/-! Channels drained, admitted and lost (R254, R275, R276). -/

namespace Sys2Proof.Proofs
open Sys2Proof Sys2Proof.Machine Sys2Proof.Safety

set_option Elab.async false

section
variable {s : State} {box ch : Nat} {m : Bytes} {c : Chan}

theorem chanOf_congr {s t : State} (h : t.fls = s.fls) (ch : Nat) : chanOf t ch = chanOf s ch := by
  rw [chanOf, chanOf, h]

theorem chanOf_modChan (ch : Nat) (f : Chan → Chan) (s : State) : chanOf (modChan ch f s) ch = (chanOf s ch).map f :=
  tabGet_tabMod_same ..

theorem completes_channelDrain (h : Serves s box 0x0404 m) (hch : ch = byteAt m 0x20) (hc : chanOf s ch = some c) (hst : c.st = .inService)
    (h2 : poolUsed s 2 none ≤ t2Cap (modChan ch (fun c => { c with st := .draining, drainSeq := fld m 4 2 }) s))
    (h3 : poolUsed s 3 none ≤ t3Cap (modChan ch (fun c => { c with st := .draining, drainSeq := fld m 4 2 }) s))
    (hup : 24 < (chansUp s).length) (hone : ∀ x ∈ s.fls.chans, x.2.st ≠ .draining) :
    Completes (.channelDrain box) s fun t => Answers box 0 0 [] s t ∧
      chanOf t ch = some { c with st := .draining, drainSeq := fld m 4 2 } ∧ OnlyMbx box s t ∧ Frame [.stew, .fls] s t := by
  subst hch
  have hany : (s.fls.chans.any fun x => x.2.st == .draining) = false := by
    rw [List.any_eq_false]
    exact fun x hx => by simpa using hone x hx
  refine completes_zalpol h rfl ?_
  dsimp only
  rw [hc]
  dsimp only
  rw [if_neg (by simp [hst]), if_neg (by simp [hst]), if_neg (by simp; exact ⟨h2, h3⟩), if_neg (Nat.not_le.2 hup), if_neg (by simp [hany])]
  refine ⟨answers_zRespond rfl, ?_, onlyMbx_zRespond rfl, frame_withDigests.2 (Effect.refl (w := false)).modChan.zRespond.frame⟩
  exact (chanOf_modChan ..).trans (by rw [hc]; rfl)

/-- What a channel that leaves service passes on is its reserve; its own is 0 (R276). -/
theorem chanOf_passReserve (hc : chanOf s ch = some c) : chanOf (passReserve ch s) ch = some { c with reserve := 0 } := by
  have hmap (n k : Nat) (l : Tab Chan) (h : tabGet l ch = some c) : tabGet (l.map fun c =>
      if c.1 = ch then (c.1, { c.2 with reserve := 0 })
      else if c.2.st = .inService then (c.1, { c.2 with reserve := c.2.reserve + ceilDiv n k }) else c) ch =
      some { c with reserve := 0 } := by
    induction l with
    | nil => cases h
    | cons p l ih =>
      obtain ⟨i, x⟩ := p
      rw [tabGet] at h
      rw [List.map_cons]
      by_cases hi : i = ch
      · rw [if_pos hi] at h
        cases h
        rw [if_pos hi, tabGet, if_pos hi]
      · rw [if_neg hi] at h
        rw [if_neg hi]
        by_cases hx : x.st = .inService
        · rw [if_pos hx, tabGet, if_neg hi, ih h]
        · rw [if_neg hx, tabGet, if_neg hi, ih h]
  exact hmap _ _ _ hc

theorem completes_channelDrainComplete (hup : halted s = false) (hc : chanOf s ch = some c) (hst : c.st = .draining)
    (hempty : chanUnits s ch = []) :
    Completes (.channelDrainComplete ch) s fun t =>
      chanOf t ch = some { c with st := .retired, reserve := 0 } ∧
      t.fls.endur.retiredChans = s.fls.endur.retiredChans + 1 ∧ t.fls.units = s.fls.units ∧ Frame [.stew, .fls, .rel] s t := by
  refine completes_of_up hup rfl ?_
  rw [hc]
  dsimp only
  rw [if_neg (by simp [hst, hempty])]
  refine ⟨_, rfl, ?_, rfl, rfl, ?_⟩
  · exact chanOf_passReserve (c := { c with st := .retired }) ((chanOf_modChan ..).trans (by rw [hc]; rfl))
  · exact frame_withDigests.2 (Effect.refl (w := false)).modChan.passReserve.onFls.logEv.mediaEvent.commandDone.frame

theorem completes_channelAdmit (h : Serves s box 0x0405 m) (hc : chanOf s (byteAt m 0x20) = some c) (hst : c.st = .retired) :
    Completes (.channelAdmit box) s fun t => Answers box 0 0 [] s t ∧
      chanOf t (byteAt m 0x20) = some { c with st := .admitting, drainSeq := fld m 4 2 } ∧ OnlyMbx box s t ∧
      Frame [.stew, .fls] s t := by
  refine completes_zalpol h rfl ?_
  dsimp only
  rw [hc]
  dsimp only
  rw [if_neg (by simp [hst]), if_neg (by simp [hst])]
  refine ⟨answers_zRespond rfl, ?_, onlyMbx_zRespond rfl, frame_withDigests.2 (Effect.refl (w := false)).modChan.zRespond.frame⟩
  exact (chanOf_modChan ..).trans (by rw [hc]; rfl)

/-! Pages that are written leave the channels as they are (R257). -/

theorem mapChange_chans (k : Nat) (u : Option Machine.Unit) (s : State) : (mapChange k u s).fls.chans = s.fls.chans := by
  unfold mapChange
  extract_lets log wait
  split
  · rfl
  · split <;> rfl

theorem chanIssue_fls (ch n stream : Nat) (s : State) : (chanIssue ch n stream s).fls = s.fls :=
  (Effect.refl (ps := [.fab, .recd]) (w := false)).chanIssue.frame .fls (by decide)

theorem programPage_chans (b : Nat) (us : List (Nat × Machine.Unit)) (s : State) : (programPage b us s).fls.chans = s.fls.chans := by
  unfold programPage
  refine (foldl_same (fun s : State => s.fls.chans) _ us _ fun s u => ?_).trans ?_
  · exact (mapChange_chans ..).trans rfl
  · exact (congrArg Fls.chans (chanIssue_fls ..)).trans rfl

theorem writePages_chans (o : ObjRec) (i tier : Nat) (upper : Bool) (k : Nat) (ps : List Nat) (s : State) :
    (writePages o i tier upper k ps s).fls.chans = s.fls.chans := by
  induction k generalizing ps s with
  | zero => rfl
  | succ k ih =>
    unfold writePages
    split
    · rfl
    · extract_lets key
      split
      · rfl
      · extract_lets s1 per us s2
        rw [ih, programPage_chans]
        change s1.fls.chans = _
        simp only [s1]
        split <;> rfl

theorem pumpPages_chans (s : State) : (pumpPages s).fls.chans = s.fls.chans := by
  unfold pumpPages
  extract_lets ws key t
  refine (foldl_same (fun s : State => s.fls.chans) _ (nub (ws.map key)) _ fun s k => ?_).trans rfl
  split
  · exact writePages_chans ..
  · rfl

/-- With no page waiting nothing is written (R258). -/
theorem pumpPages_units (h : s.fls.waitPages = []) : (pumpPages s).fls.units = s.fls.units := by
  unfold pumpPages
  rw [h]
  rfl

theorem completes_channelAdmitComplete {rate : Nat} {luns : List LunId} {c' : Chan} (hup : halted s = false) (hc : chanOf s ch = some c)
    (hst : c.st = .admitting)
    (hc' : c' = admitChan s.fls.tables { c with luns := foundLuns ch luns, rate := min rate 3600, st := .inService, reserve := 67108864 })
    (hgood : ∃ l ∈ c'.luns, l.2.admitted = true) :
    Completes (.channelAdmitComplete ch rate luns) s fun t =>
      chanOf t ch = some c' ∧ (s.fls.waitPages = [] → ∀ u ∈ t.fls.units, blkChan u.2.blk ≠ ch) ∧ Frame [.stew, .fls, .fab, .recd] s t := by
  have hany : (c'.luns.any fun l => l.2.admitted) = true := List.any_eq_true.2 hgood
  refine completes_of_up hup rfl ?_
  rw [hc]
  dsimp only
  rw [if_neg (by simp [hst]), ← hc', if_neg (by simp [hany])]
  refine ⟨_, rfl, ?_, fun hw u hu => ?_, ?_⟩
  · rw [chanOf, withDigests_fls, pumpPages_chans]
    exact tabGet_tabSet_same ..
  · rw [withDigests_fls, pumpPages_units (by exact hw)] at hu
    have := (List.mem_filter.1 hu).2
    simpa using this
  · exact frame_withDigests.2 (Effect.refl (w := false)).forgetBlocks.onfi.onFls.commandDone.pumpPages.frame

theorem completes_channelAdmitComplete_none {rate : Nat} {luns : List LunId} {c' : Chan} (hup : halted s = false)
    (hc : chanOf s ch = some c) (hst : c.st = .admitting)
    (hc' : c' = admitChan s.fls.tables { c with luns := foundLuns ch luns, rate := min rate 3600, st := .inService, reserve := 67108864 })
    (hbad : ∀ l ∈ c'.luns, l.2.admitted = false) :
    Completes (.channelAdmitComplete ch rate luns) s fun t =>
      chanOf t ch = some { c with st := .retired } ∧ t.fls.units = s.fls.units ∧ Frame [.stew, .fls] s t := by
  have hany : (c'.luns.any fun l => l.2.admitted) = false := by
    rw [List.any_eq_false]
    exact fun l hl => by simp [hbad l hl]
  refine completes_of_up hup rfl ?_
  rw [hc]
  dsimp only
  rw [if_neg (by simp [hst]), ← hc', if_pos (by simp [hany])]
  refine ⟨_, rfl, ?_, rfl, frame_withDigests.2 (Effect.refl (w := false)).modChan.commandDone.frame⟩
  exact (chanOf_modChan ..).trans (by rw [hc]; rfl)

/-! A channel lost (R276): each of its units is poisoned in place. -/

theorem mapChange_units (k : Nat) (u : Machine.Unit) (s : State) :
    (mapChange k (some u) s).fls.units = tabSet s.fls.units k u := by
  unfold mapChange
  extract_lets log wait
  split
  · rfl
  · split <;> rfl

/-- The flash unit after a unit is lost: its block is marked, and the unit is mapped as poisoned (R376). -/
theorem loseUnit_fls {k : Nat} {u : Machine.Unit} {s : State} (hu : tabGet s.fls.units k = some u) : (loseUnit k s).fls =
    if u.poisoned then (modBlk u.blk (fun r => { r with relocate := true }) s).fls
    else (mapChange k (some { u with poisoned := true }) (modBlk u.blk (fun r => { r with relocate := true }) s)).fls := by
  unfold loseUnit
  rw [hu]
  dsimp -zeta only
  extract_lets s1 s2 o here lost s3
  split
  · rfl
  · change s3.fls = s2.fls
    simp only [s3]
    split <;> rfl

theorem loseUnit_of_none {k : Nat} {s : State} (hu : tabGet s.fls.units k = none) : loseUnit k s = s := by
  rw [loseUnit, hu]

theorem loseUnit_chans (k : Nat) (s : State) : (loseUnit k s).fls.chans = s.fls.chans := by
  cases hu : tabGet s.fls.units k with
  | none => rw [loseUnit_of_none hu]
  | some u =>
    rw [loseUnit_fls hu]
    split
    · rfl
    · rw [mapChange_chans]
      rfl

theorem loseUnit_units {k : Nat} {u : Machine.Unit} {s : State} (hu : tabGet s.fls.units k = some u) : (loseUnit k s).fls.units =
    if u.poisoned then s.fls.units else tabSet s.fls.units k { u with poisoned := true } := by
  rw [loseUnit_fls hu]
  split
  · rfl
  · rw [mapChange_units]
    rfl

/-- What stands under a unit's key after a unit is lost is as it was, but for the lost one, which is poisoned. -/
theorem tabGet_loseUnit {k : Nat} (j : Nat) {u : Machine.Unit} {s : State} (hu : tabGet s.fls.units k = some u) :
    tabGet (loseUnit j s).fls.units k = some (if k = j then { u with poisoned := true } else u) := by
  cases hj : tabGet s.fls.units j with
  | none =>
    have hkj : k ≠ j := fun h => by rw [h, hj] at hu; cases hu
    rw [loseUnit_of_none hj, if_neg hkj, hu]
  | some v =>
    rw [loseUnit_units hj]
    by_cases hkj : k = j
    · subst hkj
      cases hu.symm.trans hj
      rw [if_pos rfl]
      by_cases hp : u.poisoned
      · rw [if_pos hp, hu, ← hp]
      · rw [if_neg hp, tabGet_tabSet_same]
    · rw [if_neg hkj]
      split
      · exact hu
      · rw [tabGet_tabSet_other _ _ _ _ hkj, hu]

/-- A unit among those that are lost stands poisoned where it stood. -/
theorem tabGet_loseUnits {k : Nat} {l : List (Nat × Machine.Unit)} {u : Machine.Unit} {s : State} (hu : tabGet s.fls.units k = some u) :
    ∃ u', tabGet (l.foldl (fun s u => loseUnit u.1 s) s).fls.units k = some u' ∧ u'.blk = u.blk ∧ u'.page = u.page ∧
      (u.poisoned = true ∨ (∃ p ∈ l, p.1 = k) → u'.poisoned = true) := by
  induction l generalizing u s with
  | nil => exact ⟨u, hu, rfl, rfl, fun h => h.resolve_right (by simp)⟩
  | cons p l ih =>
    obtain ⟨u', hu', hb, hpg, hp⟩ := ih (tabGet_loseUnit p.1 hu)
    refine ⟨u', hu', ?_, ?_, fun h => hp ?_⟩
    · rw [hb]; split <;> rfl
    · rw [hpg]; split <;> rfl
    · by_cases hk : k = p.1
      · rw [if_pos hk]; exact .inl rfl
      · rw [if_neg hk]
        rcases h with h | ⟨q, hq, hqk⟩
        · exact .inl h
        · rcases List.mem_cons.1 hq with rfl | hq
          · exact absurd hqk.symm hk
          · exact .inr ⟨q, hq, hqk⟩

theorem completes_channelLoss (hup : halted s = false) (hc : chanOf s ch = some c) (hst : c.st ≠ .retired) :
    Completes (.channelLoss ch) s fun t =>
      chanOf t ch = some { c with st := .retired, reserve := 0 } ∧
      ∀ k u, tabGet s.fls.units k = some u → blkChan u.blk = ch → unitLive s u = true →
        ∃ u', tabGet t.fls.units k = some u' ∧ u'.poisoned = true ∧ u'.blk = u.blk ∧ u'.page = u.page := by
  have hexec : exec (.channelLoss ch) s = whileUp s (.next (loseChannel ch s)) := by
    change execChannelLoss ch s = _
    unfold execChannelLoss
    rw [hc, if_neg (by simp [hst])]
  refine completes_of_up hup hexec ⟨_, rfl, ?_, fun k u hu hb hlive => ?_⟩
  · have hchan : chanOf ((chanUnits s ch).foldl (fun s u => loseUnit u.1 s) s) ch = some c :=
      (congrArg (tabGet · ch) (foldl_same (fun s : State => s.fls.chans) _ _ s fun _ _ => loseUnit_chans ..)).trans hc
    exact chanOf_passReserve (c := { c with st := .retired }) ((chanOf_modChan ..).trans (by rw [hchan]; rfl))
  · obtain ⟨u', hu', hb', hpg, hp⟩ := tabGet_loseUnits (l := chanUnits s ch) hu
    refine ⟨u', hu', hp (.inr ⟨(k, u), List.mem_filter.2 ⟨mem_of_tabGet hu, ?_⟩, rfl⟩), hb', hpg⟩
    simp [hb, hlive]

end

/-- Settles O33: each clause is what its command completes with. -/
theorem channelsAreDrainedAdmittedAndLost : Obligations.ChannelsAreDrainedAdmittedAndLost :=
  ⟨fun _ _ _ _ _ h hch hc hst ⟨h2, h3⟩ hup hone => completes_channelDrain h hch hc hst h2 h3 hup hone,
   fun _ _ _ hup hc hst hempty => completes_channelDrainComplete hup hc hst hempty,
   fun _ _ _ _ h hc hst => completes_channelAdmit h hc hst,
   fun _ _ _ _ _ hup hc hst => ⟨completes_channelAdmitComplete hup hc hst rfl, completes_channelAdmitComplete_none hup hc hst rfl⟩,
   fun _ _ _ hup hc hst => completes_channelLoss hup hc hst⟩

end Sys2Proof.Proofs

/-! Flash reads, temperatures, calibrations and patrols (R260 to R266, R270). -/

namespace Sys2Proof.Proofs
open Sys2Proof Sys2Proof.Machine Sys2Proof.Safety

set_option Elab.async false

section
variable {s : State}

/-! LUNs and block records. -/

theorem find?_key_map {α : Type} (f : α → α) (l : List (Nat × α)) (k : Nat) :
    ((l.map fun p => if p.1 = k then (p.1, f p.2) else p).find? fun p => p.1 == k) =
      (l.find? fun p => p.1 == k).map fun p => (p.1, f p.2) := by
  induction l with
  | nil => rfl
  | cons p l ih =>
    rw [List.map_cons]
    by_cases hp : p.1 = k
    · rw [if_pos hp, List.find?_cons_of_pos (by simpa using hp), List.find?_cons_of_pos (by simpa using hp)]
      rfl
    · rw [if_neg hp, List.find?_cons_of_neg (by simpa using hp), List.find?_cons_of_neg (by simpa using hp), ih]

/-- A changed LUN is the one that is found after the change. -/
theorem lunOf_modLun_same (ch key : Nat) (f : Lun → Lun) (s : State) : lunOf (modLun ch key f s) ch key = (lunOf s ch key).map f := by
  unfold lunOf modLun
  rw [chanOf_modChan]
  cases chanOf s ch with
  | none => rfl
  | some c =>
    rw [Option.map_some, Option.bind_some, Option.bind_some, find?_key_map, Option.map_map, Option.map_map]
    rfl

theorem lunOf_congr {s t : State} (h : t.fls.chans = s.fls.chans) (ch key : Nat) : lunOf t ch key = lunOf s ch key := by
  rw [lunOf, lunOf, chanOf, chanOf, h]

theorem blkOf_congr {s t : State} (h : t.fls.blks = s.fls.blks) (b : Nat) : blkOf t b = blkOf s b := by
  rw [blkOf, blkOf, h]

theorem blkOf_modBlk_same (b : Nat) (f : Blk → Blk) (s : State) : blkOf (modBlk b f s) b = f (blkOf s b) := tabGetD_tabSet_same ..

theorem blkOf_modBlk_other {b j : Nat} (f : Blk → Blk) (s : State) (h : j ≠ b) : blkOf (modBlk b f s) j = blkOf s j :=
  tabGetD_tabSet_other _ _ _ h

theorem lunOf_withDigests (s t : State) (ch key : Nat) : lunOf (withDigests s t) ch key = lunOf t ch key := rfl

theorem lunOf_onfi (ops : List OnfiOp) (s : State) (ch key : Nat) : lunOf (onfi ops s) ch key = lunOf s ch key := rfl

theorem blkOf_withDigests (s t : State) (b : Nat) : blkOf (withDigests s t) b = blkOf t b := rfl

theorem mapChange_blks (k : Nat) (u : Option Machine.Unit) (s : State) : (mapChange k u s).fls.blks = s.fls.blks := by
  unfold mapChange
  extract_lets log wait
  split
  · rfl
  · split <;> rfl

theorem replayRead_fls (ch d : Nat) (s : State) : (replayRead ch d s).2.fls = s.fls :=
  (Effect.refl (ps := [.rel, .recd]) (w := false)).replayRead.frame .fls (by decide)

/-- Without a replay the outcome is the one the die gave (R413). -/
theorem replayRead_of_live {ch d : Nat} (h : s.recd.replaying = false) : (replayRead ch d s).1 = d := by
  rw [replayRead, if_pos (by simp [h])]

/-! What a read does before its outcome is acted on: LUN counters, the threshold set used, the plain bytes (R260 to R263). -/

/-- The state of a read whose outcome is known, before the unit or its block is marked. -/
def readDone (stream : Nat) (x : UnitRead) (u : Machine.Unit) (s : State) : State :=
  let p := replayRead (blkChan u.blk) x.decode s
  let s := recordInput 8 (blkChan u.blk) false (toLe 4 (1 + 2 ^ 24 * if 10 < p.1 then 0xFF else p.1 - 1)) p.2
  let s := modLun (blkChan u.blk) (blkLunKey u.blk) (fun l => { l with
    retries := l.retries + b2n (inRange p.1 2 9), softs := l.softs + b2n (p.1 == 10) }) s
  let s := onfi (readsAt s u.blk u.page p.1) (s.onFls fun f => { f with
    readSet := gridSet s u.blk
    readPlain := if 10 < p.1 then f.readPlain else decryptUnit s (blkOf s u.blk).key x.unit u.data })
  chanIssue (blkChan u.blk) (4096 * readsOfStep p.1) stream s

theorem readUnit_eq {stream : Nat} {x : UnitRead} {u : Machine.Unit} (hu : tabGet s.fls.units x.unit = some u) :
    readUnit stream x s =
      if 10 < (replayRead (blkChan u.blk) x.decode s).1 then loseUnit x.unit (readDone stream x u s)
      else if (replayRead (blkChan u.blk) x.decode s).1 = 10 || 6 * mtCapability (blkTable (readDone stream x u s) u.blk) < 10 * x.corrected
        then modBlk u.blk (fun r => { r with relocate := true }) (readDone stream x u s)
      else readDone stream x u s := by
  unfold readUnit
  rw [hu]
  rfl

/-- What a read leaves of the flash unit before its outcome is acted on. -/
theorem readDone_fls (stream : Nat) (x : UnitRead) (u : Machine.Unit) (s : State) :
    ∃ chans set plain ops, (readDone stream x u s).fls =
      { s.fls with chans := chans, readSet := set, readPlain := plain, onfi := ops } ∧
      ((replayRead (blkChan u.blk) x.decode s).1 ≤ 10 → plain = decryptUnit s (blkOf s u.blk).key x.unit u.data) := by
  unfold readDone
  extract_lets p s1 s2 s3
  have h1 : s1.fls = s.fls := (recordInput_fls ..).trans (replayRead_fls ..)
  have h2 : s2.fls = { s.fls with chans := s2.fls.chans } := by
    rw [← h1]
    rfl
  have hkey : decryptUnit s2 (blkOf s2 u.blk).key x.unit u.data = decryptUnit s (blkOf s u.blk).key x.unit u.data := by
    unfold decryptUnit blockKey blkOf
    rw [h2]
  refine ⟨s2.fls.chans, gridSet s2 u.blk, if 10 < p.1 then s2.fls.readPlain else decryptUnit s2 (blkOf s2 u.blk).key x.unit u.data,
    s2.fls.onfi ++ readsAt s2 u.blk u.page p.1, ?_, fun h => ?_⟩
  · have h3 : s3.fls = { s2.fls with
        readSet := gridSet s2 u.blk
        readPlain := if 10 < p.1 then s2.fls.readPlain else decryptUnit s2 (blkOf s2 u.blk).key x.unit u.data
        onfi := s2.fls.onfi ++ readsAt s2 u.blk u.page p.1 } := rfl
    rw [chanIssue_fls, h3]
    exact congrArg (fun f : Fls => { f with
      readSet := gridSet s2 u.blk
      readPlain := if 10 < p.1 then s2.fls.readPlain else decryptUnit s2 (blkOf s2 u.blk).key x.unit u.data
      onfi := s2.fls.onfi ++ readsAt s2 u.blk u.page p.1 }) h2
  · rw [if_neg (Nat.not_lt.2 h), hkey]

theorem readDone_tables (stream : Nat) (x : UnitRead) (u : Machine.Unit) (s : State) :
    blkTable (readDone stream x u s) u.blk = blkTable s u.blk := by
  obtain ⟨chans, set, plain, ops, hfls, -⟩ := readDone_fls stream x u s
  have htab : (readDone stream x u s).fls.tables = s.fls.tables := by rw [hfls]
  have hlun : lunOf (readDone stream x u s) (blkChan u.blk) (blkLunKey u.blk) =
      (lunOf s (blkChan u.blk) (blkLunKey u.blk)).map fun l => { l with
        retries := l.retries + b2n (inRange (replayRead (blkChan u.blk) x.decode s).1 2 9),
        softs := l.softs + b2n ((replayRead (blkChan u.blk) x.decode s).1 == 10) } := by
    unfold readDone
    extract_lets p s1 s2 s3
    rw [lunOf_congr (congrArg Fls.chans (chanIssue_fls ..))]
    change lunOf s2 _ _ = _
    refine (lunOf_modLun_same ..).trans ?_
    rw [lunOf_congr (congrArg Fls.chans ((recordInput_fls ..).trans (replayRead_fls ..)))]
  unfold blkTable
  rw [hlun, Option.map_map]
  congr 2
  funext l
  simp [lunTable, htab]

theorem readDone_effect (stream : Nat) (x : UnitRead) (u : Machine.Unit) (s : State) :
    Effect [.fls, .fab, .rel, .recd] false s (readDone stream x u s) :=
  Effect.refl.replayRead.recordInput.modLun.onFls.onfi.chanIssue

/-- An outcome that no step decodes poisons the unit and marks its block (R264). -/
theorem readUnit_lost {stream : Nat} {x : UnitRead} {u : Machine.Unit} (hu : tabGet s.fls.units x.unit = some u)
    (hstep : 10 < (replayRead (blkChan u.blk) x.decode s).1) :
    tabGet (readUnit stream x s).fls.units x.unit = some { u with poisoned := true } ∧
    (blkOf (readUnit stream x s) u.blk).relocate = true := by
  obtain ⟨chans, set, plain, ops, hfls, -⟩ := readDone_fls stream x u s
  have hu' : tabGet (readDone stream x u s).fls.units x.unit = some u := by rw [hfls]; exact hu
  rw [readUnit_eq hu, if_pos hstep]
  refine ⟨(tabGet_loseUnit x.unit hu').trans (by rw [if_pos rfl]), ?_⟩
  rw [blkOf, loseUnit_fls hu']
  split
  · exact congrArg Blk.relocate (blkOf_modBlk_same ..)
  · rw [mapChange_blks]
    exact congrArg Blk.relocate (blkOf_modBlk_same ..)

/-- Any other outcome leaves the units, and marks the block at the soft decode or past its margin (R262, R264). -/
theorem readUnit_decoded {stream : Nat} {x : UnitRead} {u : Machine.Unit} (hu : tabGet s.fls.units x.unit = some u)
    (hstep : (replayRead (blkChan u.blk) x.decode s).1 ≤ 10) :
    (readUnit stream x s).fls.units = s.fls.units ∧
    (readUnit stream x s).fls.readPlain = decryptUnit s (blkOf s u.blk).key x.unit u.data ∧
    Effect [.fls, .fab, .rel, .recd] false s (readUnit stream x s) ∧
    (blkOf (readUnit stream x s) u.blk).relocate = ((blkOf s u.blk).relocate ||
      decide ((replayRead (blkChan u.blk) x.decode s).1 = 10) || decide (6 * mtCapability (blkTable s u.blk) < 10 * x.corrected)) := by
  obtain ⟨chans, set, plain, ops, hfls, hplain⟩ := readDone_fls stream x u s
  have hblk : blkOf (readDone stream x u s) u.blk = blkOf s u.blk := blkOf_congr (by rw [hfls]) _
  rw [readUnit_eq hu, if_neg (Nat.not_lt.2 hstep), readDone_tables]
  split
  · next hmark =>
    refine ⟨?_, ?_, (readDone_effect ..).modBlk, ?_⟩
    · exact (congrArg Fls.units hfls :)
    · exact (congrArg Fls.readPlain hfls :).trans (hplain hstep)
    · rw [blkOf_modBlk_same, Bool.or_assoc, hmark, Bool.or_true]
  · next hmark =>
    refine ⟨(congrArg Fls.units hfls :), (congrArg Fls.readPlain hfls :).trans (hplain hstep), readDone_effect .., ?_⟩
    rw [hblk, Bool.or_assoc, Bool.eq_false_iff.2 hmark, Bool.or_false]

theorem exec_flashReadComplete {unit decode corrected : Nat} {u : Machine.Unit} (hu : tabGet s.fls.units unit = some u)
    (hage : ageKnown s (blkOf s u.blk) = true) (hisl : islandUp s (chanIsland (blkChan u.blk)) = true) :
    exec (.flashReadComplete unit decode corrected) s = whileUp s (.next (readUnit (hTenant ((tabGet s.obj.recs u.obj).getD {}).handle)
      { unit := unit, decode := decode, corrected := corrected } s)) := by
  change execFlashReadComplete unit decode corrected s = _
  unfold execFlashReadComplete
  rw [hu]
  exact congrArg _ (if_neg (by simp [hage, hisl]))

theorem completes_flashReadComplete {unit decode corrected : Nat} {u : Machine.Unit} (hup : halted s = false)
    (hu : tabGet s.fls.units unit = some u) (hage : ageKnown s (blkOf s u.blk) = true)
    (hisl : islandUp s (chanIsland (blkChan u.blk)) = true) :
    let step := (replayRead (blkChan u.blk) decode s).1
    (s.recd.replaying = false → step = decode) ∧
    (10 < step → Completes (.flashReadComplete unit decode corrected) s (fun t =>
      tabGet t.fls.units unit = some { u with poisoned := true } ∧ (blkOf t u.blk).relocate = true)) ∧
    (step ≤ 10 → Completes (.flashReadComplete unit decode corrected) s (fun t =>
      t.fls.units = s.fls.units ∧ t.fls.readPlain = decryptUnit s (blkOf s u.blk).key unit u.data ∧
      Frame [.fls, .fab, .rel, .recd] s t ∧
      (blkOf t u.blk).relocate = ((blkOf s u.blk).relocate || decide (step = 10) ||
        decide (6 * mtCapability (blkTable s u.blk) < 10 * corrected)))) := by
  refine ⟨replayRead_of_live, fun hstep => ?_, fun hstep => ?_⟩
  · exact completes_of_up hup (exec_flashReadComplete hu hage hisl)
      ⟨_, rfl, readUnit_lost (x := { unit := unit, decode := decode, corrected := corrected }) hu hstep⟩
  · obtain ⟨h1, h2, h3, h4⟩ := readUnit_decoded (stream := hTenant ((tabGet s.obj.recs u.obj).getD {}).handle)
      (x := { unit := unit, decode := decode, corrected := corrected }) hu hstep
    exact completes_of_up hup (exec_flashReadComplete hu hage hisl) ⟨_, rfl, h1, h2, frame_withDigests.2 h3.frame, h4⟩

theorem completes_lunTemperatureRead {ch lun : Nat} {l : Lun} {T : Int} (hup : halted s = false) (hl : lunOf s ch lun = some l) :
    Completes (.lunTemperatureRead ch lun (some T)) s fun t =>
      lunOf t ch lun = some { l with temp := T, tempAt := s.aon.uptime } ∧ Frame [.fls, .recd] s t := by
  refine completes_of_up hup rfl ⟨_, rfl, ?_, frame_withDigests.2 (Effect.refl (w := false)).recordInput.onfi.modLun.frame⟩
  rw [lunOf_withDigests, lunOf_modLun_same, lunOf_onfi, lunOf_congr (s := s) (congrArg Fls.chans (recordInput_fls ..)), hl]
  rw [Option.map_some, now]

theorem completes_blockCalibration {blk : Nat} {counts : List Nat} (hup : halted s = false)
    (hmode : (blkOf s blk).mode = 1 ∨ (blkOf s blk).mode = 2) (hage : ageKnown s (blkOf s blk) = false) (hcount : counts.length = 7) :
    Completes (.blockCalibration blk counts) s fun t =>
      blkOf t blk = { blkOf s blk with
        refBoot := s.stew.boot, refUp := s.aon.uptime, ageAtRef := ageEdges.getD (bestSet counts) 0, calibrated := true } ∧
      (∀ b, b ≠ blk → blkOf t b = blkOf s b) ∧ t.fls.units = s.fls.units ∧ Frame [.fls, .fab, .recd] s t := by
  refine completes_of_up hup rfl ?_
  dsimp only
  rw [if_neg (by rcases hmode with h | h <;> simp [h, hage, hcount])]
  generalize hx : chanIssue (blkChan blk) _ _ _ = x
  have heff : Effect [.fls, .fab, .recd] false s x := by subst hx; exact Effect.refl.onFls.onfi.chanIssue
  have hfls : x.fls.blks = s.fls.blks ∧ x.fls.units = s.fls.units := by
    subst hx
    rw [chanIssue_fls]
    exact ⟨rfl, rfl⟩
  have hstew : x.stew = s.stew := heff.frame .stew (by decide)
  have haon : x.aon = s.aon := heff.frame .aon (by decide)
  refine ⟨_, rfl, ?_, fun b hb => ?_, hfls.2, frame_withDigests.2 heff.modBlk.frame⟩
  · rw [blkOf_withDigests, blkOf_modBlk_same, blkOf_congr hfls.1, now, hstew, haon]
  · rw [blkOf_withDigests, blkOf_modBlk_other _ _ hb, blkOf_congr hfls.1]

/-! Patrols (R265, R266). -/

/-- A patrolled block has its time noted and its urgency gone (R265). -/
theorem blkOf_patrol (b : Nat) (reads : List UnitRead) (s : State) :
    (blkOf (patrol b reads s) b).patBoot = s.stew.boot ∧ (blkOf (patrol b reads s) b).patUp = s.aon.uptime ∧
    (blkOf (patrol b reads s) b).urgent = false := by
  unfold patrol
  extract_lets mine s1
  have heff : Effect [.obj, .fls, .fab, .rel, .recd] false s s1 := Effect.foldl .refl fun _ _ h => h.readUnit
  have hstew : s1.stew = s.stew := heff.frame .stew (by decide)
  have haon : s1.aon = s.aon := heff.frame .aon (by decide)
  rw [blkOf_modBlk_same, now, hstew, haon]
  exact ⟨rfl, rfl, rfl⟩

theorem recordInput_replaying (k i : Nat) (p : Bool) (b : Bytes) (s : State) :
    (recordInput k i p b s).recd.replaying = s.recd.replaying := by
  unfold recordInput
  split
  · exact putChunk_replaying ..
  · rfl

theorem bucketCharge_recd (row i n : Nat) (s : State) : (bucketCharge row i n s).recd = s.recd :=
  (Effect.refl (ps := [.fab]) (w := false)).bucketCharge.frame .recd (by decide)

theorem chanIssue_replaying (ch n stream : Nat) (s : State) : (chanIssue ch n stream s).recd.replaying = s.recd.replaying := by
  rw [chanIssue, bucketCharge_recd, token_replaying]

/-- A read whose data decodes leaves units and objects as they are, and begins no replay. -/
theorem readUnit_live {stream : Nat} {x : UnitRead} (hlive : s.recd.replaying = false) (hx : x.decode ≤ 10) :
    (readUnit stream x s).fls.units = s.fls.units ∧ (readUnit stream x s).obj = s.obj ∧ (readUnit stream x s).recd.replaying = false := by
  cases hu : tabGet s.fls.units x.unit with
  | none =>
    rw [readUnit, hu]
    exact ⟨rfl, rfl, hlive⟩
  | some u =>
    have hstep : (replayRead (blkChan u.blk) x.decode s).1 ≤ 10 := by rwa [replayRead_of_live hlive]
    have hdone : (readDone stream x u s).recd.replaying = false := by
      unfold readDone
      extract_lets p s1 s2 s3
      have hp : p.2 = s := by
        change (replayRead (blkChan u.blk) x.decode s).2 = s
        rw [replayRead, if_pos (by simp [hlive])]
      rw [chanIssue_replaying]
      change s1.recd.replaying = false
      rw [recordInput_replaying, hp, hlive]
    obtain ⟨hunits, -, heff, -⟩ := readUnit_decoded (stream := stream) hu hstep
    refine ⟨hunits, heff.frame .obj (by decide), ?_⟩
    rw [readUnit_eq hu, if_neg (Nat.not_lt.2 hstep)]
    split
    · exact hdone
    · exact hdone

/-- Reads that all decode leave the units as they are and touch no object. -/
theorem readUnits_decoded {stream : Nat} {l : List UnitRead} {s : State} (hlive : s.recd.replaying = false) (hl : ∀ x ∈ l, x.decode ≤ 10) :
    (l.foldl (fun s x => readUnit stream x s) s).fls.units = s.fls.units ∧ (l.foldl (fun s x => readUnit stream x s) s).obj = s.obj := by
  induction l generalizing s with
  | nil => exact ⟨rfl, rfl⟩
  | cons x l ih =>
    obtain ⟨hunits, hobj, hlive'⟩ := readUnit_live (stream := stream) hlive (hl x List.mem_cons_self)
    obtain ⟨ihu, iho⟩ := ih hlive' fun y hy => hl y (List.mem_cons_of_mem x hy)
    exact ⟨ihu.trans hunits, iho.trans hobj⟩

theorem patrol_decoded {b : Nat} {reads : List UnitRead} (hlive : s.recd.replaying = false) (hreads : ∀ x ∈ reads, x.decode ≤ 10) :
    (patrol b reads s).fls.units = s.fls.units ∧ (patrol b reads s).obj = s.obj := by
  refine readUnits_decoded hlive fun x hx => ?_
  obtain ⟨p, -, rfl⟩ := List.mem_map.1 hx
  cases hf : reads.find? fun x => x.unit == p.1 with
  | none => exact Nat.le_of_ble_eq_true rfl
  | some y => exact hreads y (List.mem_of_find?_eq_some hf)

theorem background_live {s : State} (kind inst ch target n : Nat) (h : s.recd.replaying = false) :
    (background kind inst ch target n s).recd.replaying = false := by
  rw [background, State.onFab_recd, bucketCharge_recd, backToken, if_neg (by simp [h]), token_replaying, h]

theorem completes_gleanerPatrol {blk : Nat} {reads : List UnitRead} (hup : halted s = false) (hdue : patrolDue s (blkOf s blk) = true)
    (hage : ageKnown s (blkOf s blk) = true) (hstart : mayStartOn s 8 0 blk (blkOf s blk).urgent = true) (hsweep : s.fls.sweeping = false)
    (hfirst : (blkOf s blk).urgent = true ∨ ∀ p ∈ s.fls.blks, patrolDue s p.2 = true → (blkOf s blk).patUp ≤ p.2.patUp) :
    Completes (.gleanerPatrol blk reads) s fun t =>
      (blkOf t blk).patBoot = s.stew.boot ∧ (blkOf t blk).patUp = s.aon.uptime ∧ (blkOf t blk).urgent = false ∧
      (s.recd.replaying = false → (∀ x ∈ reads, x.decode ≤ 10) → t.fls.units = s.fls.units ∧ t.obj = s.obj) := by
  have hnone : (!(blkOf s blk).urgent && s.fls.blks.any fun p => patrolDue s p.2 && decide (p.2.patUp < (blkOf s blk).patUp)) = false := by
    rcases hfirst with hf | hf
    · rw [hf]; rfl
    · rw [Bool.and_eq_false_iff, List.any_eq_false]
      right
      intro p hp
      have := hf p hp
      simp
      exact this
  refine completes_of_up hup rfl ?_
  dsimp only
  rw [if_neg (by rw [hdue, hage, hstart, hsweep, hnone]; decide)]
  have heff : Effect [.fab, .recd] false s (background 8 0 (blkChan blk) blk ((blkOf s blk).pages * mtPage (blkTable s blk)) s) :=
    Effect.refl.background
  have hlive (hno : s.recd.replaying = false) := background_live 8 0 (blkChan blk) blk ((blkOf s blk).pages * mtPage (blkTable s blk)) hno
  generalize background 8 0 (blkChan blk) blk ((blkOf s blk).pages * mtPage (blkTable s blk)) s = x at heff hlive ⊢
  obtain ⟨h1, h2, h3⟩ := blkOf_patrol blk reads x
  refine ⟨_, rfl, h1.trans ?_, h2.trans ?_, h3, fun hno hreads => ?_⟩
  · exact congrArg Stew.boot (heff.frame .stew (by decide))
  · exact congrArg Aon.uptime (heff.frame .aon (by decide))
  · obtain ⟨h4, h5⟩ := patrol_decoded (b := blk) (hlive hno) hreads
    exact ⟨h4.trans (congrArg Fls.units (heff.frame .fls (by decide))), h5.trans (heff.frame .obj (by decide))⟩

theorem completes_gleanerAgingPromotion {blk : Nat} (hup : halted s = false) (hdue : patrolDue s (blkOf s blk) = true)
    (hurgent : (blkOf s blk).urgent = false) (hlate : (blkOf s blk).patUp + gleanerPeriod s + 86400 * 10 ^ 9 ≤ s.aon.uptime) :
    Completes (.gleanerAgingPromotion blk) s fun t =>
      blkOf t blk = { blkOf s blk with urgent := true } ∧ t.fls.agings = s.fls.agings + 1 ∧
      (∀ b, b ≠ blk → blkOf t b = blkOf s b) ∧ t.fls.units = s.fls.units := by
  have hlt : decide (now s < (blkOf s blk).patUp + gleanerPeriod s + 86400 * 10 ^ 9) = false := decide_eq_false (Nat.not_lt.2 hlate)
  refine completes_of_up hup rfl ?_
  dsimp only
  rw [if_neg (by rw [hdue, hurgent, hlt]; decide)]
  generalize hx : timerToken (chanIsland (blkChan blk)) 6 s = x
  have hfls : x.fls = s.fls := by subst hx; simp [timerToken]
  have hwake (t : State) : (wakeEvent t).fls = t.fls := by
    unfold wakeEvent
    split <;> rfl
  have hblk (t : State) (b : Nat) : blkOf (withDigests s (wakeEvent t)) b = blkOf t b := blkOf_congr (congrArg Fls.blks (hwake t)) b
  refine ⟨_, rfl, ?_, ?_, fun b hb => ?_, ?_⟩
  · rw [hblk, blkOf_modBlk_same]
    exact congrArg (fun r : Blk => { r with urgent := true }) (blkOf_congr (congrArg Fls.blks hfls) blk)
  · rw [withDigests_fls, hwake]
    exact congrArg (fun f : Fls => f.agings + 1) hfls
  · rw [hblk, blkOf_modBlk_other _ _ hb]
    exact blkOf_congr (congrArg Fls.blks hfls) b
  · rw [withDigests_fls, hwake]
    exact (congrArg Fls.units hfls : x.fls.units = s.fls.units)

theorem completes_prioritySweep_end {blk : Nat} {reads : List UnitRead} (hup : halted s = false) (hsweep : s.fls.sweeping = true)
    (hleft : sweepLeft s = []) :
    Completes (.prioritySweep blk reads) s fun t => t.fls = { s.fls with sweeping := false } ∧ Frame [.fls] s t := by
  refine completes_of_up hup rfl ?_
  dsimp only
  rw [if_neg (by simp [hsweep]), if_pos (by simp [hleft])]
  exact ⟨_, rfl, rfl, by simp [frame_iff]⟩

theorem completes_prioritySweep {blk : Nat} {reads : List UnitRead} (hup : halted s = false) (hsweep : s.fls.sweeping = true)
    (hblk : ∃ p ∈ sweepLeft s, p.1 = blk) (hage : ageKnown s (blkOf s blk) = true) (hback : backgroundUp s = true)
    (hreplay : replayBegins s (chanIsland (blkChan blk)) (blkChan blk) 8 blk = true)
    (hold : ∀ p ∈ sweepLeft s, (blkOf s blk).progBoot < p.2.progBoot ∨
      (blkOf s blk).progBoot = p.2.progBoot ∧ (blkOf s blk).progUp ≤ p.2.progUp) :
    Completes (.prioritySweep blk reads) s fun t =>
      (blkOf t blk).patBoot = s.stew.boot ∧ (blkOf t blk).patUp = s.aon.uptime ∧ (blkOf t blk).urgent = false := by
  have hmem : ((sweepLeft s).any fun p => p.1 == blk) = true := by
    obtain ⟨p, hp, rfl⟩ := hblk
    exact List.any_eq_true.2 ⟨p, hp, beq_self_eq_true _⟩
  have hne : (sweepLeft s).isEmpty = false := by
    obtain ⟨p, hp, -⟩ := hblk
    cases h : sweepLeft s with
    | nil => rw [h] at hp; cases hp
    | cons _ _ => rfl
  have holdest : ((sweepLeft s).any fun p => decide (p.2.progBoot < (blkOf s blk).progBoot) ||
      (p.2.progBoot == (blkOf s blk).progBoot && decide (p.2.progUp < (blkOf s blk).progUp))) = false := by
    rw [List.any_eq_false]
    intro p hp
    have := hold p hp
    simp
    omega
  refine completes_of_up hup rfl ?_
  dsimp only
  rw [if_neg (by simp [hsweep]), if_neg (by simp [hne]), if_neg (by rw [hmem, hage, hback, hreplay, holdest]; decide)]
  have heff : Effect [.fab, .recd] false s (background 8 0 (blkChan blk) blk ((blkOf s blk).pages * mtPage (blkTable s blk)) s) :=
    Effect.refl.background
  generalize background 8 0 (blkChan blk) blk ((blkOf s blk).pages * mtPage (blkTable s blk)) s = x at heff ⊢
  obtain ⟨h1, h2, h3⟩ := blkOf_patrol blk reads x
  exact ⟨_, rfl, h1.trans (congrArg Stew.boot (heff.frame .stew (by decide))),
    h2.trans (congrArg Aon.uptime (heff.frame .aon (by decide))), h3⟩

end

/-- Settles O34: each clause is what its command completes with. -/
theorem flashIsReadAndPatrolled : Obligations.FlashIsReadAndPatrolled :=
  ⟨⟨fun _ _ _ _ _ hup hu hage hisl => completes_flashReadComplete hup hu hage hisl,
    fun _ _ _ _ hup hl => ⟨fun _ => completes_lunTemperatureRead hup hl, completes_of_up hup rfl ⟨_, rfl, rfl⟩⟩,
    fun _ _ _ hup hmode hage hcount => completes_blockCalibration hup hmode hage hcount⟩,
   fun _ _ _ hup hdue hage hstart hsweep hfirst => completes_gleanerPatrol hup hdue hage hstart hsweep hfirst,
   fun _ _ hup hdue hurgent hlate => completes_gleanerAgingPromotion hup hdue hurgent hlate,
   fun _ _ _ hup hsweep => ⟨completes_prioritySweep_end hup hsweep,
     fun hblk hage hback hreplay hold => completes_prioritySweep hup hsweep hblk hage hback hreplay hold⟩⟩

end Sys2Proof.Proofs

/-! Moves of units between blocks (R257, R258, R264, R267, R269). -/

namespace Sys2Proof.Proofs
open Sys2Proof Sys2Proof.Machine Sys2Proof.Safety

set_option Elab.async false

section
variable {s t u : State}

/-! What opens, empties or marks blocks leaves of the units. -/

theorem unitLive_congr (hobj : t.obj = s.obj) (u : Machine.Unit) : unitLive t u = unitLive s u := by
  rw [unitLive, unitLive, hobj]

theorem blkUnits_congr (hunits : t.fls.units = s.fls.units) (hobj : t.obj = s.obj) (b : Nat) : blkUnits t b = blkUnits s b := by
  unfold blkUnits
  rw [hunits]
  simp only [unitLive_congr hobj]

theorem background_keeps (kind inst ch target n : Nat) (s : State) : Effect [.fab, .recd] false s (background kind inst ch target n s) :=
  Effect.refl.background

theorem background_fls (kind inst ch target n : Nat) (s : State) : (background kind inst ch target n s).fls = s.fls :=
  (background_keeps ..).frame .fls (by decide)

theorem background_obj (kind inst ch target n : Nat) (s : State) : (background kind inst ch target n s).obj = s.obj :=
  (background_keeps ..).frame .obj (by decide)

theorem blkOf_onfi (ops : List OnfiOp) (s : State) (b : Nat) : blkOf (onfi ops s) b = blkOf s b := rfl

/-- An opened block holds nothing yet, in the mode and for the use and key it was opened for (R257). -/
theorem blkOf_openBlk_same (b mode use key : Nat) (s : State) :
    (blkOf (openBlk b mode use key s) b).mode = mode ∧ (blkOf (openBlk b mode use key s) b).use = use ∧
    (blkOf (openBlk b mode use key s) b).key = key ∧ (blkOf (openBlk b mode use key s) b).pages = 0 := by
  unfold openBlk
  extract_lets t
  rw [blkOf_onfi, blkOf_modBlk_same]
  exact ⟨rfl, rfl, rfl, rfl⟩

theorem blkOf_openBlk_other {b j : Nat} (mode use key : Nat) (s : State) (h : j ≠ b) : blkOf (openBlk b mode use key s) j = blkOf s j := by
  unfold openBlk
  extract_lets t
  rw [blkOf_onfi, blkOf_modBlk_other _ _ h]

/-- A block is released for erase once no unit of it is left (R267). -/
theorem emptied_of_empty {b : Nat} (hu : blkUnits s b = []) (hm : (blkOf s b).mode ≠ 255) : (blkOf (emptied b s) b).eraseDue = true := by
  rw [emptied, if_pos (by simp [hu, hm]), blkOf_modBlk_same]

theorem blkOf_emptied_other {b j : Nat} (h : j ≠ b) (s : State) : blkOf (emptied b s) j = blkOf s j := by
  unfold emptied
  split
  · exact blkOf_modBlk_other _ _ h
  · rfl

theorem blkOf_emptied (b j : Nat) (s : State) : blkOf (emptied b s) j = blkOf s j ∨
    blkOf (emptied b s) j = { blkOf s j with eraseDue := true } := by
  unfold emptied
  split
  · by_cases h : j = b
    · exact .inr (h ▸ blkOf_modBlk_same ..)
    · exact .inl (blkOf_modBlk_other _ _ h)
  · exact .inl rfl

theorem mode_emptied (b j : Nat) (s : State) : (blkOf (emptied b s) j).mode = (blkOf s j).mode := by
  rcases blkOf_emptied b j s with h | h <;> rw [h]

theorem emptied_units (b : Nat) (s : State) : (emptied b s).fls.units = s.fls.units := by
  unfold emptied
  split <;> rfl

theorem emptied_obj (b : Nat) (s : State) : (emptied b s).obj = s.obj := by
  unfold emptied
  split <;> rfl

theorem blkUnits_emptied (b j : Nat) (s : State) : blkUnits (emptied b s) j = blkUnits s j :=
  blkUnits_congr (emptied_units ..) (emptied_obj ..) j

theorem foldl_emptied_units (l : List Nat) (s : State) : (l.foldl (fun s b => emptied b s) s).fls.units = s.fls.units :=
  foldl_same (fun s : State => s.fls.units) _ l s fun _ _ => emptied_units ..

theorem blkOf_foldl_emptied_other {j : Nat} {l : List Nat} (h : j ∉ l) (s : State) :
    blkOf (l.foldl (fun s b => emptied b s) s) j = blkOf s j := by
  induction l generalizing s with
  | nil => rfl
  | cons a l ih =>
    rw [List.foldl_cons, ih fun hj => h (List.mem_cons_of_mem a hj), blkOf_emptied_other fun he : j = a => h (he ▸ List.mem_cons_self)]

/-- A mark to erase stays as other blocks are emptied. -/
theorem eraseDue_emptied {b j : Nat} (h : (blkOf s j).eraseDue = true) : (blkOf (emptied b s) j).eraseDue = true := by
  rcases blkOf_emptied b j s with he | he <;> rw [he]
  exact h

theorem eraseDue_foldl_emptied {j : Nat} {l : List Nat} {s : State} (hm : (blkOf s j).mode ≠ 255) (hu : blkUnits s j = [])
    (h : (blkOf s j).eraseDue = true ∨ j ∈ l) : (blkOf (l.foldl (fun s b => emptied b s) s) j).eraseDue = true := by
  induction l generalizing s with
  | nil => exact h.resolve_right (by simp)
  | cons a l ih =>
    refine ih (by rwa [mode_emptied]) (by rwa [blkUnits_emptied]) ?_
    rcases h with h | h
    · exact .inl (eraseDue_emptied h)
    · rcases List.mem_cons.1 h with rfl | h
      · exact .inl (emptied_of_empty hu hm)
      · exact .inr h

theorem not_free_of_mode {b : Nat} (h : (blkOf s b).mode = 1 ∨ (blkOf s b).mode = 2) {d : Nat} (hd : blkFree s d = true) : b ≠ d := by
  rintro rfl
  rw [blkFree] at hd
  simp at hd
  omega

/-! Folding (R258). -/

theorem completes_fold {srcs : List Nat} {blk : Nat} (hup : halted s = false) (hne : srcs ≠ [])
    (hlen : srcs.length = byteAt (blkTable s blk) 7) (hnub : (nub srcs).length = srcs.length)
    (hsrc : ∀ b ∈ srcs, (blkOf s b).mode = 1 ∧ (blkOf s b).use = 2 ∧ (blkOf s b).key = (blkOf s (srcs.headD 0)).key ∧
      (blkOf s b).eraseDue = false ∧ mtPages (blkTable s b) 1 ≤ (blkOf s b).pages)
    (hfree : blkFree s blk = true) (hslc : inSlc s blk = false) (hfold : foldStarts s srcs = true)
    (hstart : mayStartOn s 0 4 blk s.fls.foldUrgent = true) :
    Completes (.fold srcs blk) s fun t =>
      (blkOf t blk).mode = 2 ∧ (blkOf t blk).use = 3 ∧ (blkOf t blk).key = (blkOf s (srcs.headD 0)).key ∧ (blkOf t blk).pages = 0 ∧
      (∀ b ∈ srcs, blkUnits s b = [] → (blkOf t b).eraseDue = true) ∧ t.fls.units = s.fls.units ∧ Frame [.fls, .fab, .recd] s t := by
  have hall : (srcs.all fun b => (blkOf s b).mode == 1 && (blkOf s b).use == 2 && (blkOf s b).key == (blkOf s (srcs.headD 0)).key &&
      !(blkOf s b).eraseDue && decide (mtPages (blkTable s b) 1 ≤ (blkOf s b).pages)) = true := by
    rw [List.all_eq_true]
    intro b hb
    obtain ⟨h1, h2, h3, h4, h5⟩ := hsrc b hb
    simp [h1, h2, h3, h4, h5]
  have hempty : srcs.isEmpty = false := by
    cases srcs with
    | nil => exact absurd rfl hne
    | cons _ _ => rfl
  have hnot : blk ∉ srcs := fun h => not_free_of_mode (.inl (hsrc blk h).1) hfree rfl
  refine completes_of_up hup rfl ?_
  dsimp only
  rw [if_neg (by rw [hall, hempty, hfree, hslc, hfold, hstart, hnub, hlen]; simp)]
  generalize hx : background 0 4 (blkChan blk) blk _ s = x
  have heff : Effect [.fab, .recd] false s x := by subst hx; exact Effect.refl.background
  have hfls : x.fls = s.fls := heff.frame .fls (by decide)
  have hobj : x.obj = s.obj := heff.frame .obj (by decide)
  obtain ⟨h1, h2, h3, h4⟩ := blkOf_openBlk_same blk 2 3 (blkOf s (srcs.headD 0)).key x
  refine ⟨_, rfl, ?_⟩
  rw [blkOf_withDigests, blkOf_foldl_emptied_other hnot]
  refine ⟨h1, h2, h3, h4, fun b hb hu => ?_, ?_, ?_⟩
  · have hb' : blkOf (openBlk blk 2 3 (blkOf s (srcs.headD 0)).key x) b = blkOf s b :=
      (blkOf_openBlk_other _ _ _ _ fun h : b = blk => hnot (h ▸ hb)).trans (blkOf_congr (congrArg Fls.blks hfls) b)
    rw [blkOf_withDigests]
    refine eraseDue_foldl_emptied ?_ ?_ (.inr hb)
    · rw [hb', (hsrc b hb).1]
      decide
    · exact (blkUnits_congr (congrArg Fls.units hfls : x.fls.units = s.fls.units) hobj b).trans hu
  · exact (foldl_emptied_units ..).trans (congrArg Fls.units hfls : x.fls.units = s.fls.units)
  · exact frame_withDigests.2 (Effect.foldl (Effect.extend .refl (by decide) heff).openBlk fun _ _ h => h.emptied).frame

/-! Collection (R267). -/

theorem mem_leastUnits {slc : Bool} {b n : Nat} (h : (b, n) ∈ leastUnits s slc) : n = (blkUnits s b).length := by
  obtain ⟨p, -, hp⟩ := List.mem_map.1 h
  cases hp
  rfl

/-- Taking a block to write to opens one at most (R257). -/
theorem takeBlock_facts {slc : Bool} {r : Blk} {s1 : State} (h : takeBlock slc r s = some s1) :
    Effect [.fls] false s s1 ∧ s1.fls.units = s.fls.units := by
  unfold takeBlock at h
  split at h
  · cases h
    exact ⟨.refl, rfl⟩
  · obtain ⟨b, -, rfl⟩ := Option.map_eq_some_iff.1 h
    exact ⟨Effect.refl.openBlk, rfl⟩

theorem completes_garbageCollection {s1 : State} {slc : Bool} {blk n : Nat} (hup : halted s = false) (hmem : (blk, n) ∈ leastUnits s slc)
    (hleast : ∀ q ∈ leastUnits s slc, n ≤ q.2)
    (hstart : mayStartOn s 1 4 blk (decide (regionFree s slc * 100 < 2 * regionBlocks s slc)) = true)
    (htake : takeBlock slc (blkOf s blk) s = some s1) :
    Completes (.garbageCollection slc blk) s fun t =>
      (blkUnits s blk = [] → (blkOf t blk).mode ≠ 255 → (blkOf t blk).eraseDue = true) ∧ t.fls.units = s.fls.units ∧
      (∀ b, b ≠ blk → blkOf t b = blkOf s1 b) ∧ Frame [.fls, .fab, .recd] s t := by
  obtain ⟨p, hp⟩ : ∃ p, (leastUnits s slc).find? (fun p => p.1 == blk) = some p :=
    Option.isSome_iff_exists.1 (List.find?_isSome.2 ⟨(blk, n), hmem, beq_self_eq_true _⟩)
  have hpn : p.2 = n := by
    have hb : p.1 = blk := by simpa using List.find?_some hp
    have hp' := mem_leastUnits (show (p.1, p.2) ∈ leastUnits s slc from List.mem_of_find?_eq_some hp)
    rw [hp', hb, mem_leastUnits hmem]
  have hnone : ((leastUnits s slc).any fun q => decide (q.2 < p.2)) = false := by
    rw [List.any_eq_false]
    intro q hq
    simpa [hpn] using hleast q hq
  refine completes_of_up hup rfl ?_
  dsimp only
  rw [hp]
  dsimp only
  rw [if_neg (by rw [hnone, hstart]; decide), htake]
  dsimp only
  obtain ⟨htook, hunits⟩ := takeBlock_facts htake
  have hfls := background_fls 1 4 (blkChan blk) blk (4096 * p.2) s1
  have hobj := background_obj 1 4 (blkChan blk) blk (4096 * p.2) s1
  have heff : Effect [.fls, .fab, .recd] false s (background 1 4 (blkChan blk) blk (4096 * p.2) s1) :=
    (Effect.extend .refl (by decide) htook).background
  generalize background 1 4 (blkChan blk) blk (4096 * p.2) s1 = x at hfls hobj heff ⊢
  have hx : x.fls.units = s.fls.units := (congrArg Fls.units hfls).trans hunits
  refine ⟨_, rfl, fun hu hm => ?_, (emptied_units ..).trans hx, fun b hb => ?_, frame_withDigests.2 heff.emptied.frame⟩
  · rw [blkOf_withDigests] at hm ⊢
    rw [mode_emptied] at hm
    refine emptied_of_empty ?_ hm
    rw [blkUnits_congr hx (hobj.trans (htook.frame .obj (by decide))), hu]
  · rw [blkOf_withDigests, blkOf_emptied_other hb]
    exact blkOf_congr (congrArg Fls.blks hfls) b

/-! Relocation (R264). -/

/-- Two records of a block are of one mode, use and key. -/
def SameUse (r r' : Blk) : Prop := r'.mode = r.mode ∧ r'.use = r.use ∧ r'.key = r.key

theorem SameUse.of_eq {r r' : Blk} (h : r' = r) : SameUse r r' := h ▸ ⟨rfl, rfl, rfl⟩

theorem SameUse.trans {r r' r'' : Blk} (h : SameUse r r') (g : SameUse r' r'') : SameUse r r'' :=
  ⟨g.1.trans h.1, g.2.1.trans h.2.1, g.2.2.trans h.2.2⟩

theorem sameUse_loseUnit (k b : Nat) (s : State) : SameUse (blkOf s b) (blkOf (loseUnit k s) b) := by
  cases hu : tabGet s.fls.units k with
  | none => exact .of_eq (by rw [loseUnit_of_none hu])
  | some u =>
    have hmark : SameUse (blkOf s b) (blkOf (modBlk u.blk (fun r => { r with relocate := true }) s) b) := by
      by_cases hb : b = u.blk
      · rw [hb, blkOf_modBlk_same]
        exact ⟨rfl, rfl, rfl⟩
      · exact .of_eq (blkOf_modBlk_other _ _ hb)
    refine hmark.trans (.of_eq (blkOf_congr ?_ b))
    rw [loseUnit_fls hu]
    split
    · rfl
    · rw [mapChange_blks]

theorem sameUse_loseUnits (l : List Nat) (b : Nat) (s : State) :
    SameUse (blkOf s b) (blkOf (l.foldl (fun s k => loseUnit k s) s) b) := by
  induction l generalizing s with
  | nil => exact .of_eq rfl
  | cons k l ih => exact (sameUse_loseUnit k b s).trans (ih _)

theorem chanCheck_blks (ch : Nat) (s : State) : (chanCheck ch s).fls.blks = s.fls.blks := by
  unfold chanCheck
  split
  · rfl
  · split <;> rfl

theorem retireLun_blks (ch key : Nat) (s : State) : (retireLun ch key s).fls.blks = s.fls.blks := by
  unfold retireLun
  split
  · rfl
  · exact (chanCheck_blks ..).trans rfl

/-- The check of a LUN's retired blocks touches no block (R274). -/
theorem lunCheck_blks (ch key : Nat) (s : State) : (lunCheck ch key s).fls.blks = s.fls.blks := by
  unfold lunCheck
  split
  · rfl
  · split
    · exact retireLun_blks ..
    · rfl

theorem retireBlk_blks {b : Nat} (h : (blkOf s b).mode ≠ 255) : (retireBlk b s).fls.blks =
    (modBlk b (fun r => { r with mode := 255, eraseDue := false, relocate := false }) s).fls.blks := by
  rw [retireBlk, if_neg h]
  rfl

/-- A retired block is in mode 255, and every other block is as it was (R273). -/
theorem blkOf_retireBlk (b : Nat) (s : State) :
    (blkOf (retireBlk b s) b).mode = 255 ∧ ∀ j, j ≠ b → blkOf (retireBlk b s) j = blkOf s j := by
  by_cases h : (blkOf s b).mode = 255
  · rw [retireBlk, if_pos h]
    exact ⟨h, fun _ _ => rfl⟩
  · refine ⟨?_, fun j hj => ?_⟩
    · rw [blkOf_congr (retireBlk_blks h), blkOf_modBlk_same]
    · rw [blkOf_congr (retireBlk_blks h), blkOf_modBlk_other _ _ hj]

theorem completes_relocation {blk dst : Nat} {bad : List Nat} (hup : halted s = false) (hrel : (blkOf s blk).relocate = true)
    (hmode : (blkOf s blk).mode = 1 ∨ (blkOf s blk).mode = 2) (hfree : blkFree s dst = true) (hslc : inSlc s dst = inSlc s blk)
    (hstart : mayStartOn s 2 0 blk false = true) :
    Completes (.relocation blk dst bad) s fun t =>
      (blkOf t dst).mode = (blkOf s blk).mode ∧ (blkOf t dst).use = (blkOf s blk).use ∧ (blkOf t dst).key = (blkOf s blk).key ∧
      (bad = [] → blkUnits s blk = [] → (blkOf t blk).eraseDue = true) ∧
      ((∃ k ∈ bad, ∃ u, tabGet s.fls.units k = some u ∧ u.blk = blk) → (blkOf t blk).mode = 255) := by
  have hne : blk ≠ dst := not_free_of_mode hmode hfree
  have hready : ((blkOf s blk).mode == 1 || (blkOf s blk).mode == 2) = true := by simpa using hmode
  refine completes_of_up hup rfl ?_
  dsimp only
  rw [if_neg (by rw [hrel, hready, hfree, hslc, hstart]; simp)]
  generalize hlost : (bad.filter fun k => (tabGet s.fls.units k).any fun u => u.blk == blk) = lost
  generalize hx : openBlk dst (blkOf s blk).mode (blkOf s blk).use (blkOf s blk).key _ = x
  have hdst : (blkOf x dst).mode = (blkOf s blk).mode ∧ (blkOf x dst).use = (blkOf s blk).use ∧
      (blkOf x dst).key = (blkOf s blk).key := by
    subst hx
    obtain ⟨h1, h2, h3, -⟩ := blkOf_openBlk_same dst (blkOf s blk).mode (blkOf s blk).use (blkOf s blk).key
      (background 2 0 (blkChan blk) blk (4096 * (blkUnits s blk).length) s)
    exact ⟨h1, h2, h3⟩
  have hblk : blkOf x blk = blkOf s blk := by
    subst hx
    rw [blkOf_openBlk_other _ _ _ _ hne, blkOf_congr (congrArg Fls.blks (background_fls ..))]
  have hunits : blkUnits x blk = blkUnits s blk := by
    subst hx
    exact blkUnits_congr (congrArg Fls.units (background_fls 2 0 (blkChan blk) blk (4096 * (blkUnits s blk).length) s))
      (background_obj 2 0 (blkChan blk) blk (4096 * (blkUnits s blk).length) s) blk
  have hlosses := sameUse_loseUnits lost dst x
  refine ⟨_, rfl, ?_⟩
  by_cases hnil : lost.isEmpty
  · have hl : lost = [] := List.isEmpty_iff.1 hnil
    rw [if_pos hnil, hl, List.foldl_nil, blkOf_withDigests, blkOf_withDigests, blkOf_emptied_other hne.symm]
    refine ⟨hdst.1, hdst.2.1, hdst.2.2, fun _ hu => ?_, fun ⟨k, hk, u, hu, hub⟩ => ?_⟩
    · refine emptied_of_empty (hunits.trans hu) ?_
      rw [hblk]
      omega
    · have : k ∈ lost := hlost ▸ List.mem_filter.2 ⟨hk, by simp [hu, hub]⟩
      rw [hl] at this
      cases this
  · rw [if_neg hnil, blkOf_withDigests, blkOf_withDigests, blkOf_congr (lunCheck_blks ..), blkOf_congr (lunCheck_blks ..)]
    obtain ⟨hret, hoth⟩ := blkOf_retireBlk blk (lost.foldl (fun s k => loseUnit k s) x)
    rw [hoth dst hne.symm]
    obtain ⟨h1, h2, h3⟩ := hlosses
    refine ⟨h1.trans hdst.1, h2.trans hdst.2.1, h3.trans hdst.2.2, fun hb => absurd ?_ hnil, fun _ => hret⟩
    rw [← hlost, hb]
    rfl

/-! Wear levelling (R269): the coldest block goes to the most worn free one. -/

/-- A scan that keeps the better of two ends with the one that is better than every other. -/
theorem foldl_pick {α : Type} {f : α → α → α} {g : Option α → α → Option α} (hnone : ∀ p, g none p = some p)
    (hsome : ∀ x p, g (some x) p = some (f x p)) {a : α} (hpick : ∀ x y, f x y = x ∨ f x y = y) {l : List α}
    (hbest : ∀ x ∈ l, x = a ∨ (f x a = a ∧ f a x = a)) {b : Option α} (hb : ∀ x, b = some x → x = a ∨ (f x a = a ∧ f a x = a))
    (h : b = some a ∨ a ∈ l) : l.foldl g b = some a := by
  have haa : f a a = a := (hpick a a).elim id id
  induction l generalizing b with
  | nil => exact h.resolve_right (by simp)
  | cons p l ih =>
    have hp := hbest p List.mem_cons_self
    have hl : ∀ x ∈ l, x = a ∨ (f x a = a ∧ f a x = a) := fun x hx => hbest x (List.mem_cons_of_mem p hx)
    rw [List.foldl_cons]
    cases b with
    | none =>
      rw [hnone]
      refine ih hl (fun x hx => ?_) ?_
      · cases hx
        exact hp
      · rcases List.mem_cons.1 (h.resolve_left (by simp)) with rfl | h
        · exact .inl rfl
        · exact .inr h
    | some y =>
      have hy := hb y rfl
      rw [hsome]
      refine ih hl (fun x hx => ?_) ?_
      · cases hx
        rcases hpick y p with h | h <;> rw [h]
        · exact hy
        · exact hp
      · rcases h with h | h
        · cases h
          exact .inl (congrArg some (hp.elim (fun e => e ▸ haa) And.right))
        · rcases List.mem_cons.1 h with rfl | h
          · exact .inl (congrArg some (hy.elim (fun e => e ▸ haa) And.left))
          · exact .inr h

theorem foldl_max_ge {n : Nat} {l : List Nat} {m : Nat} (h : n ≤ m ∨ n ∈ l) : n ≤ l.foldl max m := by
  induction l generalizing m with
  | nil => exact h.resolve_right (by simp)
  | cons x l ih =>
    refine ih ?_
    rcases h with h | h
    · exact .inl (by omega)
    · rcases List.mem_cons.1 h with rfl | h
      · exact .inl (by omega)
      · exact .inr h

theorem foldl_min_le {n : Nat} {l : List Nat} {m : Nat} (h : m ≤ n ∨ n ∈ l) : l.foldl min m ≤ n := by
  induction l generalizing m with
  | nil => exact h.resolve_right (by simp)
  | cons x l ih =>
    refine ih ?_
    rcases h with h | h
    · exact .inl (by omega)
    · rcases List.mem_cons.1 h with rfl | h
      · exact .inl (by omega)
      · exact .inr h

theorem blkOf_of_tabGet {b : Nat} {r : Blk} (h : tabGet s.fls.blks b = some r) : blkOf s b = r := by
  rw [blkOf, tabGetD, h]
  rfl

theorem blkInService_of_free {b : Nat} (h : blkFree s b = true) : blkInService s b = true := by
  rw [blkFree] at h
  simp only [Bool.and_eq_true] at h
  exact h.1.1

/-- The colder of two programmed blocks: the one erased less, then the one programmed earlier. -/
def colder (x p : Nat × Blk) : Nat × Blk :=
  if (decide (p.2.erases < x.2.erases) || (p.2.erases == x.2.erases &&
    (decide (p.2.progBoot < x.2.progBoot) || (p.2.progBoot == x.2.progBoot && decide (p.2.progUp < x.2.progUp))))) then p else x

/-- The more worn of two blocks. -/
def moreWorn (x p : Nat × Blk) : Nat × Blk := if x.2.erases < p.2.erases then p else x

theorem colder_eq (x p : Nat × Blk) : colder x p = x ∨ colder x p = p := by
  unfold colder
  split
  · exact .inr rfl
  · exact .inl rfl

theorem moreWorn_eq (x p : Nat × Blk) : moreWorn x p = x ∨ moreWorn x p = p := by
  unfold moreWorn
  split
  · exact .inr rfl
  · exact .inl rfl

theorem colder_of_lt {a x : Nat × Blk} (h : a.2.erases < x.2.erases) : colder x a = a ∧ colder a x = a := by
  have h1 : decide (x.2.erases < a.2.erases) = false := decide_eq_false (by omega)
  have h2 : (x.2.erases == a.2.erases) = false := by simp; omega
  constructor
  · rw [colder, decide_eq_true h, Bool.true_or, if_pos rfl]
  · rw [colder, h1, h2, Bool.false_and, Bool.or_false, if_neg Bool.false_ne_true]

theorem moreWorn_of_lt {a x : Nat × Blk} (h : x.2.erases < a.2.erases) : moreWorn x a = a ∧ moreWorn a x = a :=
  ⟨if_pos h, if_neg (by omega)⟩

theorem completes_wearLevelling {slc : Bool} {cb ob : Nat} {c o : Blk} (hup : halted s = false) (hc : (cb, c) ∈ s.fls.blks)
    (ho : (ob, o) ∈ s.fls.blks) (hcb : tabGet s.fls.blks cb = some c) (hcs : inSlc s cb = slc) (hos : inSlc s ob = slc)
    (hserv : blkInService s cb = true) (hprog : programmed c = true) (hdue : c.eraseDue = false) (hfree : blkFree s ob = true)
    (hcold : ∀ p ∈ s.fls.blks, inSlc s p.1 = slc → blkInService s p.1 = true → programmed p.2 = true → p.2.eraseDue = false →
      p ≠ (cb, c) → c.erases < p.2.erases)
    (hold : ∀ p ∈ s.fls.blks, inSlc s p.1 = slc → blkFree s p.1 = true → p ≠ (ob, o) → p.2.erases < o.erases)
    (hlimit : wearLimit s + c.erases < o.erases) (hstart : mayStartOn s 3 3 cb false = true) :
    Completes (.wearLevelling slc) s fun t =>
      (blkOf t ob).mode = c.mode ∧ (blkOf t ob).use = c.use ∧ (blkOf t ob).key = c.key ∧
      (blkUnits s cb = [] → (blkOf t cb).eraseDue = true) ∧ t.fls.units = s.fls.units ∧ Frame [.fls, .fab, .recd] s t := by
  have hmode : c.mode = 1 ∨ c.mode = 2 := by
    rw [programmed] at hprog
    simp at hprog
    exact hprog.1
  have hne : cb ≠ ob := not_free_of_mode (by rw [blkOf_of_tabGet hcb]; exact hmode) hfree
  refine completes_of_up hup rfl ?_
  extract_lets mine n lo hi younger cold old
  have hmine (p : Nat × Blk) : p ∈ mine ↔ p ∈ s.fls.blks ∧ inSlc s p.1 = slc ∧ blkInService s p.1 = true := by
    simp [mine, List.mem_filter]
  have hcm : (cb, c) ∈ mine := (hmine _).2 ⟨hc, hcs, hserv⟩
  have hom : (ob, o) ∈ mine := (hmine _).2 ⟨ho, hos, blkInService_of_free hfree⟩
  have hcold' : cold = some (cb, c) := by
    refine foldl_pick (f := colder) (fun _ => rfl) (fun _ _ => rfl) colder_eq (fun p hp => ?_) (fun _ h => nomatch h)
      (.inr (List.mem_filter.2 ⟨hcm, by simp [hprog, hdue]⟩))
    obtain ⟨hp, hpp⟩ := List.mem_filter.1 hp
    obtain ⟨hin, hsl, hsv⟩ := (hmine p).1 hp
    simp at hpp
    by_cases he : p = (cb, c)
    · exact .inl he
    · exact .inr (colder_of_lt (hcold p hin hsl hsv hpp.1 hpp.2 he))
  have hold' : old = some (ob, o) := by
    refine foldl_pick (f := moreWorn) (fun _ => rfl) (fun _ _ => rfl) moreWorn_eq (fun p hp => ?_) (fun _ h => nomatch h)
      (.inr (List.mem_filter.2 ⟨hom, hfree⟩))
    obtain ⟨hp, hpf⟩ := List.mem_filter.1 hp
    obtain ⟨hin, hsl, -⟩ := (hmine p).1 hp
    by_cases he : p = (ob, o)
    · exact .inl he
    · exact .inr (moreWorn_of_lt (hold p hin hsl hpf he))
  have hhi : o.erases ≤ hi := foldl_max_ge (.inr (List.mem_map.2 ⟨_, hom, rfl⟩))
  have hlo : lo ≤ c.erases := by
    show ite _ _ _ ≤ _
    split
    · exact Nat.zero_le _
    · exact foldl_min_le (.inr (List.mem_map.2 ⟨_, hcm, rfl⟩))
  rw [hcold', hold']
  dsimp only
  rw [decide_eq_false (by omega : ¬ hi - lo ≤ wearLimit s), decide_eq_false (by omega : ¬ o.erases ≤ c.erases), hstart]
  rw [if_neg (by decide)]
  have hfls := background_fls 3 3 (blkChan cb) cb (4096 * (blkUnits s cb).length) s
  have hobj := background_obj 3 3 (blkChan cb) cb (4096 * (blkUnits s cb).length) s
  have heff : Effect [.fls, .fab, .recd] false s (background 3 3 (blkChan cb) cb (4096 * (blkUnits s cb).length) s) :=
    Effect.refl.background
  generalize background 3 3 (blkChan cb) cb (4096 * (blkUnits s cb).length) s = x at hfls hobj heff ⊢
  obtain ⟨h1, h2, h3, -⟩ := blkOf_openBlk_same ob c.mode c.use c.key x
  refine ⟨_, rfl, ?_⟩
  rw [blkOf_withDigests, blkOf_withDigests, blkOf_emptied_other hne.symm]
  refine ⟨h1, h2, h3, fun hu => emptied_of_empty ?_ ?_, (emptied_units ..).trans (congrArg Fls.units hfls : x.fls.units = s.fls.units),
    frame_withDigests.2 heff.openBlk.emptied.frame⟩
  · exact (blkUnits_congr (congrArg Fls.units hfls : x.fls.units = s.fls.units) hobj cb).trans hu
  · rw [blkOf_openBlk_other _ _ _ _ hne, blkOf_congr (congrArg Fls.blks hfls), blkOf_of_tabGet hcb]
    omega

/-! Units moved one at a time (R267): the mapping switches only where it still points at the location read. -/

theorem emptied_readPlain (b : Nat) (s : State) : (emptied b s).fls.readPlain = s.fls.readPlain := by
  unfold emptied
  split <;> rfl

theorem emptied_progSeq (b : Nat) (s : State) : (emptied b s).fls.progSeq = s.fls.progSeq := by
  unfold emptied
  split <;> rfl

theorem mapChange_readPlain (k : Nat) (u : Option Machine.Unit) (s : State) : (mapChange k u s).fls.readPlain = s.fls.readPlain := by
  unfold mapChange
  extract_lets log wait
  split
  · rfl
  · split <;> rfl

theorem mapChange_progSeq (k : Nat) (u : Option Machine.Unit) (s : State) : (mapChange k u s).fls.progSeq = s.fls.progSeq := by
  unfold mapChange
  extract_lets log wait
  split
  · rfl
  · split <;> rfl

/-- What decrypts a unit rests on the keys alone. -/
theorem decryptUnit_congr (hkey : t.fls.mediaKey = s.fls.mediaKey) (hxts : t.fls.xts = s.fls.xts) (key unit : Nat) (b : Bytes) :
    decryptUnit t key unit b = decryptUnit s key unit b := by
  rw [decryptUnit, decryptUnit, blockKey, blockKey, hkey, hxts]

/-- The mapping of a unit after its move to `dst`: it switches only where it still points at the location read (R267). -/
def movedUnit (s : State) (mv : UnitMove) (u : Machine.Unit) : Machine.Unit :=
  if u.blk = mv.fromBlk ∧ u.page = mv.fromPage then { u with blk := mv.toBlk, page := mv.toPage, seq := s.fls.progSeq + 1 } else u

theorem movedUnit_pos {mv : UnitMove} {u : Machine.Unit} (h : u.blk = mv.fromBlk ∧ u.page = mv.fromPage) :
    movedUnit s mv u = { u with blk := mv.toBlk, page := mv.toPage, seq := s.fls.progSeq + 1 } := if_pos h

theorem movedUnit_neg {mv : UnitMove} {u : Machine.Unit} (h : ¬ (u.blk = mv.fromBlk ∧ u.page = mv.fromPage)) :
    movedUnit s mv u = u := if_neg h

theorem drainCharge_fls (c : Prop) [Decidable c] (i inst kind target : Nat) (s : State) :
    (if c then bucketCharge 5 0 8192 (backToken i inst kind target s) else s).fls = s.fls := by
  split
  · exact (Effect.refl (ps := [.fab, .recd]) (w := false)).backToken.bucketCharge.frame .fls (by decide)
  · rfl

/-- What a command does, with what the frame of every command says of it. -/
theorem completes_within {c : Instr} {claim claim' : State → Prop} (h : Completes c s claim)
    (himp : ∀ t, Effect (mayChange c) (writesObjects c) s t → claim t → claim' t) : Completes c s claim' :=
  have ⟨t, hexec, ht⟩ := h
  ⟨t, hexec, himp t (effect_of_exec hexec) ht⟩

theorem completes_unitMoveProgrammed {unit : Nat} {mv : UnitMove} {u : Machine.Unit} (hup : halted s = false)
    (hmode : (blkOf s mv.toBlk).mode = 1 ∨ (blkOf s mv.toBlk).mode = 2) (hdue : (blkOf s mv.toBlk).eraseDue = false)
    (hpage : mv.toPage < mtPages (blkTable s mv.toBlk) (blkOf s mv.toBlk).mode)
    (hkey : (blkOf s mv.toBlk).key = (blkOf s mv.fromBlk).key) (hu : tabGet s.fls.units unit = some u)
    (hdrain : mv.cause = 3 → mayDrain s mv.fromBlk = true) :
    Completes (.unitMoveProgrammed unit mv) s fun t =>
      tabGet t.fls.units unit = some (movedUnit s mv u) ∧
      (u.blk = mv.fromBlk → u.page = mv.fromPage →
        t.fls.readPlain = decryptUnit s (blkOf s mv.toBlk).key unit u.data ∧ t.fls.progSeq = s.fls.progSeq + 1) ∧
      ∀ k, k ≠ unit → tabGet t.fls.units k = tabGet s.fls.units k := by
  have hready : ((blkOf s mv.toBlk).mode == 1 || (blkOf s mv.toBlk).mode == 2) = true := by simpa using hmode
  have hmay : (decide (mv.cause = 3) && !mayDrain s mv.fromBlk) = false := by
    by_cases h : mv.cause = 3
    · simp [h, hdrain h]
    · simp [h]
  refine completes_of_up hup rfl ?_
  dsimp only
  rw [if_neg (by rw [hready, hdue, decide_eq_false (Nat.not_le.2 hpage), hkey, hmay]; simp)]
  have hcharge := drainCharge_fls (mv.cause = 3) (chanIsland (blkChan mv.fromBlk)) (blkChan mv.fromBlk) 4 mv.fromBlk s
  generalize (if mv.cause = 3 then bucketCharge 5 0 8192 _ else s) = y at hcharge ⊢
  generalize hx : chanIssue (blkChan mv.toBlk) 4096 (moveStream mv.cause) _ = x
  obtain ⟨hunits, hseq, hmk, hxts⟩ : x.fls.units = s.fls.units ∧ x.fls.progSeq = s.fls.progSeq ∧
      x.fls.mediaKey = s.fls.mediaKey ∧ x.fls.xts = s.fls.xts := by
    rw [← hx, chanIssue_fls, chanIssue_fls, ← hcharge]
    exact ⟨rfl, rfl, rfl, rfl⟩
  rw [hunits, hu]
  dsimp only
  by_cases h : u.blk = mv.fromBlk ∧ u.page = mv.fromPage
  · rw [if_neg (by simp [h]), movedUnit_pos h]
    refine ⟨_, rfl, ?_, fun _ _ => ⟨?_, ?_⟩, fun k hk => ?_⟩
    · rw [withDigests_fls, emptied_units, mapChange_units, tabGet_tabSet_same, ← hseq]
      rfl
    · rw [withDigests_fls, emptied_readPlain, mapChange_readPlain, ← decryptUnit_congr hmk hxts]
      rfl
    · rw [withDigests_fls, emptied_progSeq, mapChange_progSeq, ← hseq]
      rfl
    · rw [withDigests_fls, emptied_units, mapChange_units, tabGet_tabSet_other _ _ _ _ hk, ← hunits]
      rfl
  · rw [if_pos (by simpa [-not_and, not_and_or] using h), movedUnit_neg h]
    refine ⟨_, rfl, ?_, fun h1 h2 => absurd ⟨h1, h2⟩ h, fun k _ => ?_⟩
    · rw [withDigests_fls, hunits, hu]
    · rw [withDigests_fls, hunits]

end

/-- Settles O35: a block opened for units is of the mode, use and key asked for, a block left empty is marked for erase,
and the mapping of a unit switches only where it still points at the location read. -/
theorem unitsMoveBetweenBlocks : Obligations.UnitsMoveBetweenBlocks :=
  ⟨fun _ _ _ => completes_fold, fun _ _ _ _ _ => completes_garbageCollection, fun _ _ _ _ => completes_relocation,
    fun _ _ _ _ _ _ hup hc ho hcb _ => completes_wearLevelling hup hc ho hcb, fun _ _ _ _ hup hmode hdue hpage hkey hu hdrain =>
      completes_within (completes_unitMoveProgrammed hup hmode hdue hpage hkey hu hdrain)
        fun _ heff ⟨h1, h2, h3⟩ => ⟨h1, h2, h3, heff.bytes rfl⟩⟩

end Sys2Proof.Proofs

/-! Erases, mapping pages and failures of the media (R267, R268, R273, R274), and the PACK engine (R282 to R295). -/

namespace Sys2Proof.Proofs
open Sys2Proof Sys2Proof.Machine Sys2Proof.Safety

set_option Elab.async false

section
variable {s t u : State} {blk dst ch lun n k idx : Nat}

/-! Erases and the mapping's pages (R267, R268). -/

theorem pumpPages_fls_of_none (h : s.fls.waitPages = []) : (pumpPages s).fls.blks = s.fls.blks ∧ (pumpPages s).fls.units = s.fls.units := by
  unfold pumpPages
  rw [h]
  exact ⟨rfl, rfl⟩

theorem lifeCheck_fls (s : State) : (lifeCheck s).fls.blks = s.fls.blks ∧ (lifeCheck s).fls.units = s.fls.units ∧
    (lifeCheck s).fls.waitPages = s.fls.waitPages := by
  unfold lifeCheck
  extract_lets life
  split
  · split
    · exact ⟨rfl, rfl, rfl⟩
    · exact ⟨rfl, rfl, rfl⟩
  · exact ⟨rfl, rfl, rfl⟩

theorem completes_blockErase (hup : halted s = false) (hdue : (blkOf s blk).eraseDue = true) (hreads : readsOn s blk = 0)
    (hempty : blkUnits s blk = []) (hsnap : snapHolds s blk = false) :
    Completes (.blockErase blk) s fun t =>
      s.fls.waitPages = [] → blkOf t blk = { erases := (blkOf s blk).erases + 1 } ∧ (∀ b, b ≠ blk → blkOf t b = blkOf s b) ∧
        ∀ k u, tabGet t.fls.units k = some u → u.blk ≠ blk := by
  refine completes_of_up hup rfl ?_
  dsimp only
  rw [if_neg (by simp [hdue, hreads, hempty, hsnap])]
  generalize hx : onfi _ _ = x
  have hblks : x.fls.blks = (modBlk blk (fun r => { erases := r.erases + 1 }) s).fls.blks := by
    subst hx
    rfl
  have hunits : x.fls.units = s.fls.units.filter fun u => !(u.2.blk == blk) := by
    subst hx
    rfl
  have hwait : x.fls.waitPages = s.fls.waitPages := by
    subst hx
    rfl
  obtain ⟨hlb, hlu, hlw⟩ := lifeCheck_fls x
  refine ⟨_, rfl, fun hnone => ?_⟩
  obtain ⟨hpb, hpu⟩ := pumpPages_fls_of_none (hlw.trans (hwait.trans hnone))
  have hall := hpb.trans (hlb.trans hblks)
  refine ⟨?_, fun b hb => ?_, fun k u hu => ?_⟩
  · rw [blkOf_withDigests, blkOf_congr hall, blkOf_modBlk_same]
  · rw [blkOf_withDigests, blkOf_congr hall, blkOf_modBlk_other _ _ hb]
  · rw [withDigests_fls, hpu, hlu, hunits] at hu
    simpa using (List.mem_filter.1 (mem_of_tabGet hu)).2

theorem completes_mappingPageWrite {bytes : Nat} (hup : halted s = false) :
    Completes (.mappingPageWrite bytes) s fun t => t.fls.dirtyMap = s.fls.dirtyMap - bytes ∧
      t.fls.endur.programmed = s.fls.endur.programmed + min bytes s.fls.dirtyMap ∧ t.fls.units = s.fls.units ∧
      t.fls.saved = mapApply s.fls.saved (s.fls.mapLog.take (ceilDiv bytes 4096)) ∧
      t.fls.mapLog = s.fls.mapLog.drop (ceilDiv bytes 4096) := by
  refine completes_of_up hup rfl ⟨_, rfl, ?_, rfl, rfl, rfl, rfl⟩
  show s.fls.dirtyMap - min bytes s.fls.dirtyMap = s.fls.dirtyMap - bytes
  omega

/-! Failed programs and erases (R273). -/

theorem lunCheck_units (ch key : Nat) (s : State) : (lunCheck ch key s).fls.units = s.fls.units := by
  have hchan (s : State) : (chanCheck ch s).fls.units = s.fls.units := by
    unfold chanCheck
    split
    · rfl
    · split <;> rfl
  have hretire (s : State) : (retireLun ch key s).fls.units = s.fls.units := by
    unfold retireLun
    split
    · rfl
    · exact (hchan _).trans rfl
  unfold lunCheck
  split
  · rfl
  · split
    · exact hretire _
    · rfl

theorem retireBlk_units (b : Nat) (s : State) : (retireBlk b s).fls.units = s.fls.units := by
  unfold retireBlk
  split <;> rfl

theorem recordStatus_fls (b page op : Nat) (s : State) : (recordStatus b page op s).fls = s.fls :=
  (Effect.refl (ps := [.recd]) (w := false)).recordStatus.frame .fls (by decide)

theorem completes_eraseFailure (hup : halted s = false) (hdue : (blkOf s blk).eraseDue = true) (hreads : readsOn s blk = 0) :
    Completes (.eraseFailure blk) s fun t => (blkOf t blk).mode = 255 ∧ t.fls.units = s.fls.units := by
  refine completes_of_up hup rfl ?_
  rw [if_neg (by simp [hdue, hreads])]
  refine ⟨_, rfl, ?_, ?_⟩
  · rw [blkOf_withDigests, blkOf_congr (lunCheck_blks ..)]
    exact (blkOf_retireBlk ..).1
  · rw [withDigests_fls, lunCheck_units, retireBlk_units, recordStatus_fls]

/-- A page is programmed with the units given: each of them is mapped to its block (R257). -/
theorem tabGet_programUnits {b page k : Nat} {us : List (Nat × Machine.Unit)} {s : State}
    (h : k ∈ us.map Prod.fst ∨ (tabGet s.fls.units k).map Machine.Unit.blk = some b) :
    (tabGet (us.foldl (fun s u => mapChange u.1 (some (programUnit b page u.1 u.2 s).1) (programUnit b page u.1 u.2 s).2) s).fls.units k).map
      Machine.Unit.blk = some b := by
  induction us generalizing s with
  | nil => exact h.resolve_left (by simp)
  | cons v us ih =>
    refine ih ?_
    rw [mapChange_units]
    by_cases hk : k = v.1
    · exact .inr (by rw [hk, tabGet_tabSet_same]; rfl)
    · rw [tabGet_tabSet_other _ _ _ _ hk]
      refine h.imp (fun h => ?_) id
      exact (List.mem_cons.1 (by simpa using h : k ∈ v.1 :: us.map Prod.fst)).resolve_left hk

theorem tabGet_programPage {b k : Nat} {us : List (Nat × Machine.Unit)} (h : k ∈ us.map Prod.fst) (s : State) :
    (tabGet (programPage b us s).fls.units k).map Machine.Unit.blk = some b :=
  tabGet_programUnits (.inl h)

theorem openedFor_units (c : Prop) [Decidable c] (b mode use key : Nat) (s : State) :
    (if c then openBlk b mode use key s else s).fls.units = s.fls.units := by
  split <;> rfl

theorem completes_programFailure (hup : halted s = false) (hmode : (blkOf s blk).mode = 1 ∨ (blkOf s blk).mode = 2)
    (hpages : (blkOf s blk).pages ≠ 0)
    (hdst : blkFree s dst = true ∨ openFor s (blkOf s blk).mode (blkOf s blk).use (blkOf s blk).key = some dst) (hne : blk ≠ dst)
    (hslc : inSlc s dst = inSlc s blk) :
    Completes (.programFailure blk dst) s fun t => (blkOf t blk).mode = 255 ∧
      ∀ k u, tabGet s.fls.units k = some u → u.blk = blk → u.page = (blkOf s blk).pages - 1 →
        (tabGet t.fls.units k).map Machine.Unit.blk = some dst := by
  have hready : ((blkOf s blk).mode == 1 || (blkOf s blk).mode == 2) = true := by simpa using hmode
  have hopen : (blkFree s dst || openFor s (blkOf s blk).mode (blkOf s blk).use (blkOf s blk).key == some dst) = true := by
    simpa using hdst
  refine completes_of_up hup rfl ?_
  dsimp only
  rw [if_neg (by rw [hready, hopen, hslc]; simp [hpages, hne])]
  refine ⟨_, rfl, ?_, fun k u hu hblk hpage => ?_⟩
  · rw [blkOf_withDigests, blkOf_congr (lunCheck_blks ..)]
    exact (blkOf_retireBlk ..).1
  · rw [withDigests_fls, lunCheck_units, retireBlk_units]
    refine tabGet_programPage (List.mem_map.2 ⟨(k, u), List.mem_filter.2 ⟨?_, by simp [hblk, hpage]⟩, rfl⟩) _
    rw [openedFor_units, recordStatus_fls]
    exact mem_of_tabGet hu

/-! Busy timeouts of a LUN (R274). -/

theorem lunOf_chanCheck (ch key : Nat) (s : State) : lunOf (chanCheck ch s) ch key = lunOf s ch key := by
  unfold chanCheck
  split
  · rfl
  · next c hc =>
    split
    · rfl
    · have hnew : chanOf (passReserve ch (modChan ch (fun c => { c with st := .retired }) s)) ch =
          some { c with st := .retired, reserve := 0 } :=
        chanOf_passReserve (c := { c with st := .retired }) ((chanOf_modChan ..).trans (by rw [hc]; rfl))
      have hold : lunOf s ch key = (c.luns.find? fun l => l.1 == key).map Prod.snd := by rw [lunOf, hc]; rfl
      rw [hold]
      exact (congrArg (fun c => c.bind fun c => (c.luns.find? fun l => l.1 == key).map Prod.snd) hnew).trans rfl

theorem lunOf_retireLun {key : Nat} {l : Lun} (h : lunOf s ch key = some l) (hl : l.retired = false) :
    lunOf (retireLun ch key s) ch key = some { l with retired := true } := by
  rw [retireLun, if_neg (by simp [h, hl]), lunOf_chanCheck]
  exact (lunOf_modLun_same ch key (fun l => { l with retired := true }) s).trans (by rw [h]; rfl)

theorem completes_lunBusyTimeout {l : Lun} (hup : halted s = false) (hl : lunOf s ch lun = some l) (hret : l.retired = false)
    (hadm : l.admitted = true) :
    Completes (.lunBusyTimeout ch lun) s fun t =>
      ∃ l', lunOf t ch lun = some l' ∧
        l'.busyAt = (s.aon.uptime :: l.busyAt).filter (fun x => decide (s.aon.uptime ≤ x + 3600 * 10 ^ 9)) ∧
        l'.retired = decide (3 ≤ l'.busyAt.length) := by
  refine completes_of_up hup rfl ?_
  rw [hl]
  dsimp only
  rw [if_neg (by simp [hret, hadm])]
  generalize hat : (now s :: l.busyAt).filter _ = busy
  generalize hx : modLun ch lun _ _ = x
  have hlx : lunOf x ch lun = some { l with busyAt := busy } := by
    rw [← hx, lunOf_modLun_same, lunOf_congr (congrArg Fls.chans (recordStatus_fls ..)), hl]
    rfl
  refine ⟨_, rfl, ?_⟩
  by_cases h3 : 3 ≤ busy.length
  · rw [if_pos h3]
    refine ⟨_, (lunOf_withDigests ..).trans (lunOf_retireLun hlx hret), hat.symm, ?_⟩
    exact (decide_eq_true h3).symm
  · rw [if_neg h3]
    refine ⟨_, (lunOf_withDigests ..).trans hlx, hat.symm, hret.trans ?_⟩
    exact (decide_eq_false h3).symm

/-! The slots of PACK and what its engine codes (R282, R287 to R295). -/

theorem packOf_congr (h : t.fls.pack = s.fls.pack) (n : Nat) : packOf t n = packOf s n := by
  rw [packOf, packOf, h]

theorem packOf_withDigests (s t : State) (n : Nat) : packOf (withDigests s t) n = packOf t n := rfl

theorem packOf_modPack_same (n : Nat) (f : PackReq → PackReq) (s : State) : packOf (modPack n f s) n = (packOf s n).map f :=
  tabGet_tabMod_same ..

theorem packOf_modPack_other {m : Nat} (f : PackReq → PackReq) (s : State) (h : m ≠ n) : packOf (modPack n f s) m = packOf s m :=
  tabGet_tabMod_other _ _ _ _ h

theorem packOf_endPack (n : Nat) (s : State) : packOf (endPack n s) n = none :=
  tabGet_tabDel_same ..

/-- A slot given leaves what a request is to code, and what it has coded (R282). -/
theorem packOf_grantPrivileged (n : Nat) (s : State) : packOf (grantPrivileged s) n = packOf s n ∨
    packOf (grantPrivileged s) n = (packOf s n).map fun r => { r with slot := some 8 } := by
  unfold grantPrivileged
  split
  · exact .inl rfl
  · split
    · next p _ =>
      by_cases h : n = p.1
      · exact .inr (h ▸ packOf_modPack_same ..)
      · exact .inl (packOf_modPack_other _ _ h)
    · exact .inl rfl

theorem packOf_grantPrivileged_none {n : Nat} (h : packOf s n = none) : packOf (grantPrivileged s) n = none := by
  rcases packOf_grantPrivileged n s with hg | hg <;> rw [hg, h]
  rfl

/-- A request that holds a slot holds one, and is the same else, when a slot is given. -/
theorem packOf_granted {r : PackReq} (hr : packOf s n = some r) (hk : r.slot = some k) :
    ∃ k', packOf (grantPrivileged s) n = some { r with slot := some k' } := by
  rcases packOf_grantPrivileged n s with hg | hg
  · exact ⟨k, by rw [hg, hr, ← hk]⟩
  · exact ⟨8, by rw [hg, hr]; rfl⟩

theorem grantPrivileged_obj (s : State) : (grantPrivileged s).obj = s.obj :=
  (Effect.refl (ps := [.fls]) (w := false)).grantPrivileged.frame .obj (by decide)

theorem tabGet_modObj_same (i : Nat) (f : ObjRec → ObjRec) (s : State) :
    tabGet (modObj i f s).obj.recs i = (tabGet s.obj.recs i).map f :=
  tabGet_tabMod_same ..

theorem exists_tabGet_of_mem {α : Type} {l : Tab α} {p : Nat × α} (h : p ∈ l) : ∃ x, tabGet l p.1 = some x := by
  cases hx : tabGet l p.1 with
  | some x => exact ⟨x, rfl⟩
  | none => exact absurd rfl (ne_key_of_tabGet_none hx h)

theorem find?_range_first {m k : Nat} {f : Nat → Bool} (hk : k < m) (hf : f k = true) (hfirst : ∀ j < k, f j = false) :
    (List.range m).find? f = some k := by
  rw [List.find?_range_eq_some]
  exact ⟨hf, List.mem_range.2 hk, fun j hj => by simp [hfirst j hj]⟩

theorem completes_packSlotGrant {p : Nat × PackReq} (hup : halted s = false)
    (hp : s.fls.pack.find? (fun p => !p.2.privileged && p.2.slot.isNone) = some p) (hk : k < 8) (hfree : slotUsed s k = false)
    (hfirst : ∀ j < k, slotUsed s j = true) :
    Completes .packSlotGrant s fun t => (packOf t p.1).map PackReq.slot = some (some k) ∧ t.fls.packLast = p.1 ∧
      ∀ n, n ≠ p.1 → packOf t n = packOf s n := by
  have hslot : (List.range 8).find? (fun k => !slotUsed s k) = some k :=
    find?_range_first hk (by simp [hfree]) fun j hj => by simp [hfirst j hj]
  obtain ⟨r, hr⟩ := exists_tabGet_of_mem (List.mem_of_find?_eq_some hp)
  refine completes_of_up hup rfl ?_
  rw [hp, hslot]
  dsimp only
  generalize hx : (modPack p.1 (fun r => { r with slot := some k }) s).onFls _ = x
  have hpack : x.fls.pack = (modPack p.1 (fun r => { r with slot := some k }) s).fls.pack := by subst hx; rfl
  have hlast : x.fls.packLast = p.1 := by subst hx; rfl
  refine ⟨_, rfl, ?_, ?_, fun n hn => ?_⟩
  · rw [packOf_withDigests, packOf_congr (congrArg Fls.pack (token_fls ..)), packOf_congr hpack, packOf_modPack_same, packOf, hr]
    rfl
  · rw [withDigests_fls, token_fls, hlast]
  · rw [packOf_withDigests, packOf_congr (congrArg Fls.pack (token_fls ..)), packOf_congr hpack, packOf_modPack_other _ _ hn]

theorem completes_packBlockEncode {r : PackReq} (hup : halted s = false) (hr : packOf s n = some r) (hk : r.slot = some k)
    (hexp : r.expand = false) (hmore : r.blocks.length < packCount r.src.length) :
    Completes (.packBlockEncode n) s fun t => ∃ r', packOf t n = some r' ∧ r'.src = r.src ∧
      r'.blocks = r.blocks ++ [packBlock r.element (packTable r.element r.privileged r.src) r.blocks.length
        (packSrc r.src r.blocks.length)] := by
  obtain ⟨k', hg⟩ := packOf_granted hr hk
  refine completes_of_up hup rfl ?_
  extract_lets x
  rw [show packOf x n = _ from hg]
  dsimp only
  rw [if_neg (by simp [hexp, hmore])]
  generalize hy : (if packMissed r.element _ _ _ then _ else x) = y
  have hpack : packOf y n = some { r with slot := some k' } := by
    rw [← hg, ← hy]
    refine packOf_congr ?_ n
    split <;> rfl
  refine ⟨_, rfl, _, (packOf_modPack_same ..).trans (congrArg _ hpack), rfl, rfl⟩

/-- An object whose stream's header is wrong is poison as a whole, its bytes as they were (R293). -/
theorem completes_packBlockDecode_bad {r : PackReq} (hup : halted s = false) (hr : packOf s n = some r) (hk : r.slot = some k)
    (hexp : r.expand = true) (hbad : pkGood r.src = false) :
    Completes (.packBlockDecode n) s fun t => packOf t n = none ∧
      ∀ o, tabGet s.obj.recs (r.obj.getD 0) = some o → ∃ o', tabGet t.obj.recs (r.obj.getD 0) = some o' ∧
        o'.poison = List.range (ceilDiv o.size 64) ∧ o'.mem = o.mem := by
  obtain ⟨k', hg⟩ := packOf_granted hr hk
  refine completes_of_up hup rfl ?_
  extract_lets x
  rw [show packOf x n = _ from hg]
  dsimp only
  rw [if_neg (by simp [hexp]), if_pos (by simp [hbad])]
  have hobj (i : Nat) : (endPack n (packFault i (poisonWhole i x))).obj = (poisonWhole i x).obj :=
    (Effect.refl (ps := [.rel, .fls]) (w := false)).packFault.endPack.frame .obj (by decide)
  refine ⟨_, rfl, packOf_grantPrivileged_none (packOf_endPack ..), fun o ho => ⟨{ o with poison := List.range (ceilDiv o.size 64) }, ?_, rfl, rfl⟩⟩
  rw [withDigests_obj, grantPrivileged_obj, hobj]
  rw [poisonWhole, tabGet_modObj_same]
  rw [show x.obj = s.obj from grantPrivileged_obj s, ho]
  rfl

theorem completes_packBlockDecode {r : PackReq} {b : Bytes} (hup : halted s = false) (hr : packOf s n = some r) (hk : r.slot = some k)
    (hexp : r.expand = true) (hgood : pkGood r.src = true)
    (hb : packDecode (byteAt r.src 6) (pkLens r.src) r.blocks.length (pkBlock r.src r.blocks.length) = .bytes b)
    (hmore : r.blocks.length + 1 < pkBlocks r.src) :
    Completes (.packBlockDecode n) s fun t =>
      (∃ r', packOf t n = some r' ∧ r'.blocks = r.blocks ++ [b] ∧ r'.poisonBlocks = r.poisonBlocks) ∧ Frame [.fls] s t := by
  obtain ⟨k', hg⟩ := packOf_granted hr hk
  refine completes_of_up hup rfl ?_
  extract_lets x
  rw [show packOf x n = _ from hg]
  dsimp only
  rw [if_neg (by simp [hexp]), if_neg (by simp [hgood]), hb, if_neg (by omega)]
  refine ⟨_, rfl, ⟨_, (packOf_modPack_same ..).trans (congrArg _ hg), rfl, rfl⟩, frame_withDigests.2 ?_⟩
  exact (Effect.refl (w := false)).grantPrivileged.modPack.frame

/-- The last block of a stream ends its request (R295). -/
theorem completes_packBlockDecode_last {r : PackReq} {b : Bytes} (hup : halted s = false) (hr : packOf s n = some r)
    (hk : r.slot = some k) (hexp : r.expand = true) (hgood : pkGood r.src = true)
    (hb : packDecode (byteAt r.src 6) (pkLens r.src) r.blocks.length (pkBlock r.src r.blocks.length) = .bytes b)
    (hlast : pkBlocks r.src ≤ r.blocks.length + 1) :
    Completes (.packBlockDecode n) s fun t => packOf t n = none := by
  obtain ⟨k', hg⟩ := packOf_granted hr hk
  refine completes_of_up hup rfl ?_
  extract_lets x
  rw [show packOf x n = _ from hg]
  dsimp only
  rw [if_neg (by simp [hexp]), if_neg (by simp [hgood]), hb, if_pos hlast]
  refine ⟨_, rfl, ?_⟩
  rw [packOf_withDigests, endExpand]
  split
  · next h => exact h
  · exact packOf_grantPrivileged_none (packOf_endPack ..)

/-! The switch of a coded home to its new stream (R291). -/

/-- What pages written leave as it is: the streams of homes, and the requests to PACK. -/
def PackKept (s t : State) : Prop := t.fls.ckpt = s.fls.ckpt ∧ t.fls.pack = s.fls.pack

theorem PackKept.trans (h : PackKept s t) (g : PackKept t u) : PackKept s u := ⟨g.1.trans h.1, g.2.trans h.2⟩

theorem PackKept.of_fls (h : t.fls = s.fls) : PackKept s t := ⟨congrArg Fls.ckpt h, congrArg Fls.pack h⟩

theorem packKept_mapChange (k : Nat) (u : Option Machine.Unit) (s : State) : PackKept s (mapChange k u s) := by
  unfold mapChange
  extract_lets log wait
  split
  · exact ⟨rfl, rfl⟩
  · split <;> exact ⟨rfl, rfl⟩

theorem packKept_foldl {α : Type} {f : State → α → State} (hf : ∀ s a, PackKept s (f s a)) (l : List α) (s : State) :
    PackKept s (l.foldl f s) := by
  induction l generalizing s with
  | nil => exact ⟨rfl, rfl⟩
  | cons a l ih => exact (hf s a).trans (ih _)

theorem packKept_programPage (b : Nat) (us : List (Nat × Machine.Unit)) (s : State) : PackKept s (programPage b us s) := by
  unfold programPage
  extract_lets r t n s1 s2 s3
  have hmarked : PackKept s s2 := ⟨rfl, rfl⟩
  have hissued : PackKept s2 s3 := .of_fls (chanIssue_fls ..)
  refine (hmarked.trans hissued).trans (packKept_foldl (fun s u => ?_) us s3)
  have hseq : PackKept s (programUnit b r.pages u.1 u.2 s).2 := ⟨rfl, rfl⟩
  exact hseq.trans (packKept_mapChange ..)

theorem packKept_writePages (o : ObjRec) (i tier : Nat) (upper : Bool) (k : Nat) (ps : List Nat) (s : State) :
    PackKept s (writePages o i tier upper k ps s) := by
  induction k generalizing ps s with
  | zero => exact ⟨rfl, rfl⟩
  | succ k ih =>
    unfold writePages
    split
    · exact ⟨rfl, rfl⟩
    · extract_lets key
      split
      · exact ⟨rfl, rfl⟩
      · extract_lets s1 per us s2
        have hopen : PackKept s s1 := by
          simp only [s1]
          split <;> exact ⟨rfl, rfl⟩
        have hadd : PackKept s1 s2 := ⟨rfl, rfl⟩
        exact ((hopen.trans hadd).trans (packKept_programPage ..)).trans (ih _ _)

theorem packKept_writeStream (idx : Nat) (b : Bytes) (s : State) : PackKept s (writeStream idx b s) := by
  unfold writeStream
  split
  · exact ⟨rfl, rfl⟩
  · exact .trans (packKept_foldl (fun s u => packKept_mapChange ..) _ _) (packKept_writePages ..)

theorem headerChange_fls (home : Nat) (s : State) : (headerChange home s).fls = s.fls :=
  (Effect.refl (ps := [.obj]) (w := true)).headerChange.frame .fls (by decide)

theorem packWrite_ckpt (i : Nat) (s : State) : (packWrite i s).fls.ckpt = s.fls.ckpt := by
  unfold packWrite
  split <;> rfl

theorem completes_checkpointStreamSwitch {p : Nat × PackReq} {o : ObjRec} (hup : halted s = false)
    (hp : s.fls.pack.find? (fun p => p.2.obj == some idx && !p.2.expand) = some p) (ho : tabGet s.obj.recs idx = some o)
    (hslot : p.2.slot.isSome = true) (hall : packCount p.2.src.length ≤ p.2.blocks.length)
    (hroom : o.home = 4 ∨ flashRoom s o o.home = true) :
    Completes (.checkpointStreamSwitch idx) s fun t =>
      tabGet t.fls.ckpt idx = some (packStream p.2.element p.2.privileged p.2.src p.2.blocks) ∧
      (o.st ≠ .writingBack → packOf t p.1 = none ∧
        (o.pages = [] → (tabGet t.obj.recs idx).map ObjRec.dirty = some false)) := by
  refine completes_of_up hup rfl ?_
  rw [hp, ho]
  dsimp only
  have hready : (o.home != 4 && !flashRoom s o o.home) = false := by
    rcases hroom with h | h <;> simp [h]
  have hslot' : p.2.slot.isNone = false := by
    rw [Option.isNone_eq_false_iff]
    exact hslot
  rw [if_neg (by simp [hslot', hall]), if_neg (by rw [hready]; decide)]
  generalize hb : packStream p.2.element p.2.privileged p.2.src p.2.blocks = b
  generalize hy : (endPack p.1 s).onFls (fun f => { f with ckpt := tabSet f.ckpt idx b }) = y
  generalize hz : (if o.home = 4 then t4Whole .move idx true y else writeStream idx b y) = z
  have hyo : y.obj = s.obj := by subst hy; rfl
  have hkept : PackKept y z := by
    subst hz
    split
    · exact .of_fls ((Effect.refl (ps := [.fab, .rel, .recd]) (w := false)).t4Whole.frame .fls (by decide))
    · exact packKept_writeStream ..
  have hzo : z.obj = s.obj := by
    rw [← hyo, ← hz]
    split
    · exact (Effect.refl (ps := [.fab, .rel, .recd]) (w := false)).t4Whole.frame .obj (by decide)
    · exact (Effect.refl (ps := [.fls, .fab, .recd]) (w := false)).writeStream.frame .obj (by decide)
  have hck : tabGet z.fls.ckpt idx = some b := by
    rw [hkept.1, ← hy]
    exact tabGet_tabSet_same ..
  have hpk : packOf z p.1 = none := by
    rw [packOf_congr hkept.2, ← hy]
    exact packOf_endPack ..
  by_cases hst : o.st = .writingBack
  · rw [if_pos hst]
    refine ⟨_, rfl, ?_, fun h => absurd hst h⟩
    rw [withDigests_fls]
    split
    · exact hck
    · rw [packWrite_ckpt, hck]
  · rw [if_neg hst]
    refine ⟨_, rfl, ?_, fun _ => ⟨?_, fun hpages => ?_⟩⟩
    · rw [withDigests_fls, headerChange_fls]
      exact hck
    · rw [packOf_withDigests, packOf_congr (congrArg Fls.pack (headerChange_fls ..))]
      exact hpk
    · rw [withDigests_obj, headerChange_recs]
      rw [tabGet_modObj_same, hzo, ho]
      simp [hpages]

end

/-- Settles O36: erases, mapping pages and failures of the media, and the slots and blocks of PACK. A slot given beside
the block that is coded leaves what is coded as it is. -/
theorem blocksEraseFailAndPackSlotsCode : Obligations.BlocksEraseFailAndPackSlotsCode := by
  refine ⟨⟨fun _ _ hup hdue hreads hempty hsnap => ?_, fun _ _ hup => ?_, fun _ _ _ hup hmode hpages hdst hne hslc => ?_,
    fun _ _ hup hdue hreads => ?_, fun _ _ _ _ => completes_lunBusyTimeout⟩,
    fun _ _ _ hup hp hk hfree hfirst => ?_, fun _ _ _ _ hup hr hk hexp hmore => ?_, fun _ _ _ _ hup hr hk hexp =>
      ⟨completes_packBlockDecode_bad hup hr hk hexp, fun _ hgood hb => ⟨completes_packBlockDecode hup hr hk hexp hgood hb,
        completes_packBlockDecode_last hup hr hk hexp hgood hb⟩⟩, fun _ _ _ _ => completes_checkpointStreamSwitch⟩
  · exact completes_within (completes_blockErase hup hdue hreads hempty hsnap) fun _ heff h => ⟨h, heff.frame⟩
  · exact completes_within (completes_mappingPageWrite hup)
      fun _ heff ⟨h1, h2, h3, h4, h5⟩ => ⟨h1, h2, h3, h4, h5, heff.frame⟩
  · exact completes_within (completes_programFailure hup hmode hpages hdst hne hslc)
      fun _ heff ⟨h1, h2⟩ => ⟨h1, heff.bytes rfl, h2⟩
  · exact completes_within (completes_eraseFailure hup hdue hreads) fun _ heff ⟨h1, h2⟩ => ⟨h1, h2, heff.bytes rfl⟩
  · exact completes_within (completes_packSlotGrant hup hp hk hfree hfirst)
      fun _ heff ⟨h1, h2, h3⟩ => ⟨h1, h2, h3, heff.frame⟩
  · exact completes_within (completes_packBlockEncode hup hr hk hexp hmore) fun _ heff h => ⟨h, heff.frame⟩

end Sys2Proof.Proofs

/-! The virtual channels of a peer: what a change of one leaves of the others, and what sending leaves of what a channel has
received (R351 to R354). -/

namespace Sys2Proof.Proofs
open Sys2Proof Sys2Proof.Machine Sys2Proof.Safety

set_option Elab.async false

section
variable {s t u : State} {n n' vc vc' : Nat}

theorem vcOf_congr (h : t.fab.peers = s.fab.peers) (n vc : Nat) : vcOf t n vc = vcOf s n vc := by
  rw [vcOf, vcOf, h]

theorem peerOf_congr (h : t.fab.peers = s.fab.peers) (n : Nat) : peerOf t n = peerOf s n := by
  rw [peerOf, peerOf, h]

theorem vcOf_withDigests (s t : State) (n vc : Nat) : vcOf (withDigests s t) n vc = vcOf t n vc := rfl

theorem peerOf_withDigests (s t : State) (n : Nat) : peerOf (withDigests s t) n = peerOf t n := rfl

theorem peerOf_modPeer_same (n : Nat) (f : Peer → Peer) (s : State) : peerOf (modPeer n f s) n = f (peerOf s n) :=
  tabGetD_tabSet_same ..

theorem peerOf_modPeer_other (f : Peer → Peer) (s : State) (h : n' ≠ n) : peerOf (modPeer n f s) n' = peerOf s n' :=
  tabGetD_tabSet_other _ _ _ h

theorem vcs_of_peer (s : State) (n vc : Nat) : vcOf s n vc = tabGetD (peerOf s n).vcs vc (freshVc vc) := rfl

theorem vcOf_modPeer {f : Peer → Peer} (hf : ∀ p, (f p).vcs = p.vcs) (s : State) (n' vc : Nat) :
    vcOf (modPeer n f s) n' vc = vcOf s n' vc := by
  by_cases h : n' = n
  · rw [h, vcs_of_peer, peerOf_modPeer_same, hf, ← vcs_of_peer]
  · rw [vcs_of_peer, peerOf_modPeer_other _ _ h, ← vcs_of_peer]

theorem vcOf_modVc_same (n vc : Nat) (f : VcSt → VcSt) (s : State) : vcOf (modVc n vc f s) n vc = f (vcOf s n vc) := by
  rw [modVc, vcs_of_peer, peerOf_modPeer_same]
  exact tabGetD_tabSet_same ..

theorem vcOf_modVc_other (f : VcSt → VcSt) (s : State) (h : (n', vc') ≠ (n, vc)) : vcOf (modVc n vc f s) n' vc' = vcOf s n' vc' := by
  by_cases hn : n' = n
  · rw [hn, modVc, vcs_of_peer, peerOf_modPeer_same, vcs_of_peer]
    exact tabGetD_tabSet_other _ _ _ fun hv => h (by rw [hn, hv])
  · rw [modVc, vcs_of_peer, peerOf_modPeer_other _ _ hn, vcs_of_peer]

/-- Two peer entries agree but for their virtual channels. -/
def SamePeer (p q : Peer) : Prop := { q with vcs := p.vcs } = p

theorem SamePeer.trans {p q r : Peer} (h : SamePeer p q) (g : SamePeer q r) : SamePeer p r := by
  unfold SamePeer at h g ⊢
  rw [← h, ← g]

theorem SamePeer.fields {p q : Peer} (h : SamePeer p q) : q.open_ = p.open_ ∧ q.boot = p.boot ∧ q.rxOpen = p.rxOpen ∧
    q.quarantine = p.quarantine ∧ q.cls = p.cls ∧ q.job = p.job := by
  rw [SamePeer] at h
  rw [← h]
  exact ⟨rfl, rfl, rfl, rfl, rfl, rfl⟩

theorem samePeer_modVc (n vc : Nat) (f : VcSt → VcSt) (s : State) (n' : Nat) : SamePeer (peerOf s n') (peerOf (modVc n vc f s) n') := by
  by_cases h : n' = n
  · rw [h, modVc, peerOf_modPeer_same]
    rfl
  · rw [modVc, peerOf_modPeer_other _ _ h]
    rfl

/-- What a channel has received: its next number, the units it accepted and the bytes of the message under way. -/
def received (v : VcSt) : Nat × Nat × Bytes := (v.rxSeq, v.accepted, v.partial_)

/-- Sending changes no more of the fabric than the peers' channels, the frames and what the queues to the ports go by. -/
def SendsOnly (x y : Fab) : Prop :=
  { y with peers := x.peers, frames := x.frames, buckets := x.buckets, urgent := x.urgent, portV := x.portV, flowTags := x.flowTags } = x

theorem SendsOnly.trans {x y z : Fab} (h : SendsOnly x y) (g : SendsOnly y z) : SendsOnly x z := by
  unfold SendsOnly at h g ⊢
  rw [← h, ← g]

theorem SendsOnly.fields {x y : Fab} (h : SendsOnly x y) : y.rxMsgs = x.rxMsgs ∧ y.sent = x.sent ∧ y.resv = x.resv ∧
    y.nextMsg = x.nextMsg ∧ y.telem = x.telem ∧ y.late = x.late ∧ y.t4done = x.t4done ∧ y.t4wait = x.t4wait ∧ y.poolUsed = x.poolUsed := by
  rw [SendsOnly] at h
  rw [← h]
  exact ⟨rfl, rfl, rfl, rfl, rfl, rfl, rfl, rfl, rfl⟩

/-- Between two states one virtual channel alone has changed, and of it not what it received; peers agree but for their
channels, and the messages and what is owed for them are as before. -/
structure Sends (n vc : Nat) (s t : State) : Prop where
  others : ∀ n' vc', (n', vc') ≠ (n, vc) → vcOf t n' vc' = vcOf s n' vc'
  same : received (vcOf t n vc) = received (vcOf s n vc)
  peers : ∀ n', SamePeer (peerOf s n') (peerOf t n')
  fab : SendsOnly s.fab t.fab

namespace Sends

theorem refl : Sends n vc s s := ⟨fun _ _ _ => rfl, rfl, fun _ => rfl, rfl⟩

theorem trans (h : Sends n vc s t) (g : Sends n vc t u) : Sends n vc s u where
  others n' vc' hne := (g.others n' vc' hne).trans (h.others n' vc' hne)
  same := g.same.trans h.same
  peers n' := (h.peers n').trans (g.peers n')
  fab := h.fab.trans g.fab

theorem msgs (h : Sends n vc s t) : t.fab.rxMsgs = s.fab.rxMsgs := h.fab.fields.1

theorem of_peers (hp : t.fab.peers = s.fab.peers) (hm : SendsOnly s.fab t.fab) : Sends n vc s t where
  others n' vc' _ := vcOf_congr hp n' vc'
  same := by rw [vcOf_congr hp]
  peers n' := by
    rw [peerOf_congr hp]
    rfl
  fab := hm

theorem of_fab (h : t.fab = s.fab) : Sends n vc s t := .of_peers (congrArg Fab.peers h) (by rw [h]; rfl)

theorem modVc {f : VcSt → VcSt} (hf : ∀ v, received (f v) = received v) (s : State) : Sends n vc s (modVc n vc f s) where
  others n' vc' hne := vcOf_modVc_other f s hne
  same := by rw [vcOf_modVc_same, hf]
  peers n' := samePeer_modVc n vc f s n'
  fab := rfl

theorem tagHead (n vc : Nat) (s : State) : Sends n vc s (tagHead n vc s) := by
  unfold Machine.tagHead
  dsimp only
  split
  · split
    · exact refl
    · refine modVc ?_ s
      exact fun _ => rfl
  · exact refl

theorem sendFrame (n vc : Nat) (x : Nat × Nat × Bytes) (s : State) : Sends n vc s (sendFrame n vc x s) := by
  obtain ⟨port, ty, f⟩ := x
  unfold Machine.sendFrame
  dsimp -zeta only
  extract_lets v flow tag g s1 s2
  have h1 : Sends n vc s s1 := by
    have htok : (token 0x0C (55 + port) port 2 flow (bucketCharge 3 flow f.length s)).fab = (bucketCharge 3 flow f.length s).fab :=
      token_fab ..
    have hfab : s1.fab = (bucketCharge 3 flow f.length s).fab := htok
    unfold bucketCharge at hfab
    split at hfab
    · exact .of_fab hfab
    · refine .of_peers (by rw [hfab]; rfl) ?_
      rw [hfab]
      rfl
  have h2 : Sends n vc s1 s2 := .of_peers rfl rfl
  refine ((h1.trans h2).trans (modVc ?_ s2)).trans (tagHead ..)
  exact fun _ => rfl

theorem pumpGo (k n vc : Nat) (s : State) : Sends n vc s (pumpGo k n vc s) := by
  induction k generalizing s with
  | zero => exact refl
  | succ k ih =>
    unfold Machine.pumpGo
    split
    · exact refl
    · exact (sendFrame ..).trans (ih _)

theorem pump (n vc : Nat) (s : State) : Sends n vc s (pump n vc s) :=
  (tagHead ..).trans (pumpGo ..)

theorem takeAck (n vc ack credit : Nat) (s : State) : Sends n vc s (takeAck n vc ack credit s) := by
  unfold Machine.takeAck
  extract_lets v first k s1
  have h1 : Sends n vc s s1 := by
    refine modVc (fun v => ?_) s
    rw [received, received]
  exact h1.trans (pump n vc s1)

theorem grantMore (n vc : Nat) (s : State) : Sends n vc s (grantMore n vc s) := by
  unfold Machine.grantMore
  split
  · exact refl
  · refine modVc ?_ s
    exact fun _ => rfl

end Sends

end

end Sys2Proof.Proofs

/-! Frames received (R341, R343, R345, R352, R353, R356, R361). -/

namespace Sys2Proof.Proofs
open Sys2Proof Sys2Proof.Machine Sys2Proof.Safety

set_option Elab.async false

section
variable {s t u : State} {port n vc : Nat} {f : Bytes} {ok : FrameForm}

theorem badFrame_fab (port : Nat) (s : State) :
    (badFrame port s).fab = { s.fab with badFrames := tabAdd s.fab.badFrames port 1 } := rfl

theorem wakeEvent_fab (s : State) : (wakeEvent s).fab = s.fab := by
  unfold wakeEvent
  split <;> rfl

theorem recordInput_fab (kind inst : Nat) (poisoned : Bool) (body : Bytes) (s : State) : (recordInput kind inst poisoned body s).fab = s.fab :=
  (Effect.refl (ps := [.recd]) (w := false)).recordInput.frame .fab (by decide)

theorem wakenIf_fab (c : Prop) [Decidable c] (s : State) : (if c then wakeEvent s else s).fab = s.fab := by
  split
  · exact wakeEvent_fab s
  · rfl

/-- A frame taken from its sender: one from a quarantined peer is counted; a HELLO opens the entry anew; any other is for an open
entry (R356, R361). -/
def takeGoodFrame (port n : Nat) (f : Bytes) (s : State) : State :=
  if (peerOf s n).quarantine.isSome && !(byteAt f 1 == 1 && fld f 8 4 != (peerOf s n).boot) then
    s.onFab fun x => { x with quarDrop := x.quarDrop + 1 }
  else
    let y := if (peerOf s n).open_ && fld f 8 4 != (peerOf s n).boot then closePeer n s else s
    if byteAt f 1 == 1 then helloFrame n f y
    else if !(peerOf y n).open_ then sendHello n y
    else match openFrame y n f with
      | none => badFrame port y
      | some f => if byteAt f 1 = 0 then ackFrame n f y else dataFrame n f y

section
variable (hup : halted s = false) (hport : s.fab.ports.getD port false = true) (hdown : domainDown s (55 + port) = false)
include hup hport hdown

/-- PAUSE, VLAN and fragment frames are counted where they come in, and dropped (R341). -/
theorem completes_frameDrop {kind : Nat} (hok : (ok, kind) = (.pause, 0) ∨ (ok, kind) = (.vlan, 1) ∨ (ok, kind) = (.fragment, 2)) :
    Completes (.frameReceive port ok f) s fun t =>
      t.fab = { s.fab with macDrops := tabAdd s.fab.macDrops (port * 4 + kind) 1 } ∧ Frame [.fab] s t := by
  have hframe : Effect [.fab] false s (macDrop port kind s) := Effect.refl.onFab
  refine completes_of_up hup rfl ?_
  dsimp only
  rw [if_neg (by rw [hport, hdown]; decide)]
  rcases hok with h | h | h <;> cases h
  · exact ⟨_, rfl, rfl, frame_withDigests.2 hframe.frame⟩
  · exact ⟨_, rfl, rfl, frame_withDigests.2 hframe.frame⟩
  · exact ⟨_, rfl, rfl, frame_withDigests.2 hframe.frame⟩

/-- A frame whose sum, length, version or destination is wrong is counted and dropped (R343). -/
theorem completes_frameBad
    (hbad : ok = .badSum ∨ (ok = .good ∧ (f.length < 48 ∨ byteAt f 0 ≠ 1 ∨ fld f 6 2 % 2 ^ 14 ≠ genNode (gen s)))) :
    Completes (.frameReceive port ok f) s fun t =>
      t.fab = { s.fab with badFrames := tabAdd s.fab.badFrames port 1 } ∧ Frame [.fab, .rel] s t := by
  have hframe : Effect [.fab, .rel] false s (badFrame port s) := Effect.refl.badFrame
  have hok : ok ≠ .pause ∧ ok ≠ .vlan ∧ ok ≠ .fragment := by
    rcases hbad with rfl | ⟨rfl, -⟩ <;> decide
  have htest : (decide (ok = .badSum) || decide (f.length < 48) || byteAt f 0 != 1 || fld f 6 2 % 2 ^ 14 != genNode (gen s)) = true := by
    rcases hbad with rfl | ⟨-, h | h | h⟩
    · simp
    · simp [h]
    · simp [h]
    · rw [bne_iff_ne.2 h, Bool.or_true]
  refine completes_of_up hup rfl ?_
  dsimp only
  rw [if_neg (by rw [hport, hdown]; decide), if_neg hok.1, if_neg hok.2.1, if_neg hok.2.2, if_pos htest]
  exact ⟨_, rfl, rfl, frame_withDigests.2 hframe.frame⟩

variable (hlen : 48 ≤ f.length) (hver : byteAt f 0 = 1) (hdst : fld f 6 2 % 2 ^ 14 = genNode (gen s)) (hst : s.stew.st ≠ .start)
include hlen hver hdst hst

/-- A good frame for this node is recorded, may wake the node, and is taken from its sender. -/
theorem exec_goodFrame (hn : n = fld f 4 2 % 2 ^ 14) :
    ∃ x, execFrameReceive port .good f s = whileUp s (.next (takeGoodFrame port n f x)) ∧ x.fab = s.fab ∧
      Effect [.stew, .recd] false s x := by
  subst hn
  have htest : (decide (FrameForm.good = .badSum) || decide (f.length < 48) || byteAt f 0 != 1 ||
      fld f 6 2 % 2 ^ 14 != genNode (gen s)) = false := by
    rw [hdst, hver, decide_eq_false (by omega : ¬ f.length < 48)]
    simp
  refine ⟨if byteAt f 2 % 2 = 1 then wakeEvent (recordInput 7 port false (toLe 1 port ++ zeros 7 ++ f) s)
    else recordInput 7 port false (toLe 1 port ++ zeros 7 ++ f) s, ?_, ?_, ?_⟩
  · unfold execFrameReceive takeGoodFrame
    dsimp only
    rw [if_neg (by rw [hport, hdown]; decide), if_neg (by decide), if_neg (by decide), if_neg (by decide), if_neg (by rw [htest]; decide),
      if_neg (by simpa using hst)]
    generalize (if byteAt f 2 % 2 = 1 then (_ : State) else _) = x
    split
    · rfl
    · generalize (if (peerOf x (fld f 4 2 % 2 ^ 14)).open_ && fld f 8 4 != (peerOf x (fld f 4 2 % 2 ^ 14)).boot then closePeer _ x else x) = y
      split
      · rfl
      · split
        · rfl
        · cases openFrame y (fld f 4 2 % 2 ^ 14) f with
          | none => rfl
          | some f => rfl
  · rw [wakenIf_fab, recordInput_fab]
  · exact .ite Effect.refl.recordInput.wakeEvent Effect.refl.recordInput

end

/-- A frame of a quarantined peer is counted and dropped (R361). -/
theorem takeGoodFrame_quarantined {q : Nat} (hq : (peerOf s n).quarantine = some q) (hf : byteAt f 1 ≠ 1) :
    takeGoodFrame port n f s = s.onFab fun x => { x with quarDrop := x.quarDrop + 1 } := by
  have htest : ((peerOf s n).quarantine.isSome && !(byteAt f 1 == 1 && fld f 8 4 != (peerOf s n).boot)) = true := by
    simp [hq, hf]
  rw [takeGoodFrame, if_pos htest]

/-! A message frame in its turn (R352, R353). -/

/-- The bytes of the message that a frame carries on (R346). -/
def partOf (f : Bytes) (v : VcSt) : Bytes := (if fld f 0x24 4 = 0 then [] else v.partial_) ++ slice f 48 (fld f 0x2E 2)

/-- What a channel, and the messages received, are after a frame in turn: `n` units are accepted, and the last frame completes
its message. -/
def TakenInTurn (n vc units : Nat) (f : Bytes) (s t : State) : Prop :=
  (vcOf t n vc).rxSeq = (vcOf s n vc).rxSeq + 1 ∧ (vcOf t n vc).accepted = (vcOf s n vc).accepted + units ∧
  if (byteAt f 2).testBit 3 then
    (vcOf t n vc).partial_ = [] ∧ t.fab.rxMsgs = s.fab.rxMsgs ++ [(n, messageOf f (partOf f (vcOf s n vc)))]
  else (vcOf t n vc).partial_ = partOf f (vcOf s n vc) ∧ t.fab.rxMsgs = s.fab.rxMsgs

theorem acceptFrame_facts (n vc : Nat) (f : Bytes) (s : State) :
    TakenInTurn n vc (if needsNoCredit s n f then 0 else frameUnits f) f s (acceptFrame n vc f s) ∧
    (∀ n' vc', (n', vc') ≠ (n, vc) → vcOf (acceptFrame n vc f s) n' vc' = vcOf s n' vc') ∧
    ∀ n', SamePeer (peerOf s n') (peerOf (acceptFrame n vc f s) n') := by
  unfold acceptFrame
  extract_lets pay u s1 part last s2 s3
  have h1 : vcOf s1 n vc = { vcOf s n vc with
      rxSeq := (vcOf s n vc).rxSeq + 1, accepted := (vcOf s n vc).accepted + u, ackDue := true } := vcOf_modVc_same ..
  have h12 : vcOf s2 n vc = { vcOf s n vc with
      rxSeq := (vcOf s n vc).rxSeq + 1, accepted := (vcOf s n vc).accepted + u, ackDue := true
      partial_ := if last then [] else part } :=
    (vcOf_modVc_same n vc (fun v => { v with partial_ := if last then [] else part }) s1).trans (by rw [h1])
  have hpart : part = partOf f (vcOf s n vc) := by
    have : (vcOf s1 n vc).partial_ = (vcOf s n vc).partial_ := by rw [h1]
    simp only [part, partOf, this, pay]
  have hpeers : s3.fab.peers = s2.fab.peers := by
    simp only [s3]
    split <;> rfl
  have hsends : Sends n vc s3 (takeAck n vc (fld f 0x10 4) (fld f 0x14 4) (grantMore n vc s3)) :=
    (Sends.grantMore ..).trans (Sends.takeAck ..)
  have hsame := hsends.same
  rw [vcOf_congr hpeers, h12] at hsame
  simp only [received, Prod.mk.injEq] at hsame
  obtain ⟨hseq, hacc, hpartial⟩ := hsame
  refine ⟨⟨hseq, hacc, ?_⟩, fun n' vc' hne => ?_, fun n' => ?_⟩
  · rw [hpartial, hsends.msgs, ← hpart]
    change if last = true then _ else _
    by_cases hlast : last = true
    · rw [if_pos hlast, if_pos hlast]
      refine ⟨rfl, ?_⟩
      simp only [s3]
      rw [if_pos hlast]
      rfl
    · rw [if_neg hlast, if_neg hlast]
      refine ⟨rfl, ?_⟩
      simp only [s3]
      rw [if_neg hlast]
      rfl
  · rw [hsends.others n' vc' hne, vcOf_congr hpeers, vcOf_modVc_other _ _ hne, vcOf_modVc_other _ _ hne]
  · refine SamePeer.trans ?_ (hsends.peers n')
    rw [peerOf_congr hpeers]
    exact (samePeer_modVc ..).trans (samePeer_modVc ..)

theorem takeGoodFrame_data {f : Bytes} (hq : (peerOf s n).quarantine = none) (hopen : (peerOf s n).open_ = true)
    (hboot : (peerOf s n).boot = fld f 8 4) (htype : 2 ≤ byteAt f 1) (hplain : (byteAt f 2).testBit 2 = false)
    (hseq : fld f 0x0C 4 = (vcOf s n (byteAt f 2 % 4)).rxSeq % 2 ^ 32)
    (hcredit : isAnswer (byteAt f 1) = true ∨
      (vcOf s n (byteAt f 2 % 4)).accepted + frameUnits f ≤ (vcOf s n (byteAt f 2 % 4)).granted) :
    TakenInTurn n (byteAt f 2 % 4) (if isAnswer (byteAt f 1) then 0 else frameUnits f) f s (takeGoodFrame port n f s) := by
  have hhello : (byteAt f 1 == 1) = false := beq_eq_false_iff_ne.2 (by omega)
  have hneeds : needsNoCredit s n f = isAnswer (byteAt f 1) := by
    rw [needsNoCredit, hhello, Bool.false_and, Bool.or_false]
  have htest : ((peerOf s n).quarantine.isSome && !(byteAt f 1 == 1 && fld f 8 4 != (peerOf s n).boot)) = false := by
    rw [hq]
    rfl
  have hclose : ((peerOf s n).open_ && fld f 8 4 != (peerOf s n).boot) = false := by simp [hboot]
  have hopenF : openFrame s n f = some f := by
    unfold openFrame
    dsimp only
    rw [if_pos (by rw [bitOf, hplain]; rfl)]
  have hroom : (!needsNoCredit s n f && decide ((vcOf s n (byteAt f 2 % 4)).granted <
      (vcOf s n (byteAt f 2 % 4)).accepted + frameUnits f)) = false := by
    rw [hneeds]
    rcases hcredit with h | h
    · rw [h]; rfl
    · rw [decide_eq_false (Nat.not_lt.2 h), Bool.and_false]
  unfold takeGoodFrame
  dsimp only
  rw [htest, if_neg Bool.false_ne_true, hclose, if_neg Bool.false_ne_true, hhello, if_neg Bool.false_ne_true, hopen,
    if_neg (show ¬ (!true) = true by decide), hopenF]
  dsimp only
  rw [if_neg (show ¬ byteAt f 1 = 0 by omega)]
  unfold dataFrame
  dsimp only
  rw [if_pos hseq, hroom, if_neg Bool.false_ne_true, ← hneeds]
  exact (acceptFrame_facts ..).1

/-! A HELLO frame of a closed entry (R356). -/

theorem firstGrant_received (n : Nat) (s : State) (n' vc' : Nat) : received (vcOf (firstGrant n s) n' vc') = received (vcOf s n' vc') ∧
    (vcOf (firstGrant n s) n' vc').credit = (vcOf s n' vc').credit ∧ SamePeer (peerOf s n') (peerOf (firstGrant n s) n') := by
  have hgrant (vc : Nat) (s : State) : received (vcOf (modVc n vc (fun v => { v with granted := v.accepted }) s) n' vc') =
      received (vcOf s n' vc') ∧ (vcOf (modVc n vc (fun v => { v with granted := v.accepted }) s) n' vc').credit =
        (vcOf s n' vc').credit := by
    by_cases h : (n', vc') = (n, vc)
    · cases h
      rw [vcOf_modVc_same]
      exact ⟨rfl, rfl⟩
    · rw [vcOf_modVc_other _ _ h]
      exact ⟨rfl, rfl⟩
  unfold firstGrant
  split
  · exact ⟨rfl, rfl, rfl⟩
  · refine ⟨(hgrant ..).1.trans (hgrant ..).1, (hgrant ..).2.trans (hgrant ..).2, ?_⟩
    exact (samePeer_modVc ..).trans (samePeer_modVc ..)

/-- A closed entry once its HELLO has told the peer's boot count, its number and the credit of the request channels. -/
def greeted (n : Nat) (f : Bytes) (s : State) : State :=
  firstGrant n <| modVc n 0 (fun v => { v with rxSeq := fld f 0x0C 4 })
    (modVc n 1 (fun v => { v with credit := fld f 0x14 4 }) (modVc n 3 (fun v => { v with credit := fld f 0x14 4 })
      (modPeer n (fun p => { p with boot := fld f 8 4, rxOpen := fld f 0x3C 4, quarantine := none }) s)))

theorem helloFrame_of_closed (hopen : (peerOf s n).open_ = false) :
    helloFrame n f s = acceptFrame n 0 (putAt f 0x14 (toLe 4 (vcOf (greeted n f s) n 0).credit)) (greeted n f s) := by
  have hx : (peerOf (modPeer n (fun p => { p with boot := fld f 8 4, rxOpen := fld f 0x3C 4, quarantine := none }) s) n).open_ = false := by
    rw [peerOf_modPeer_same]
    exact hopen
  have hfresh : (if (!(peerOf s n).open_ || decide ((peerOf s n).rxOpen = fld f 0x3C 4)) = true then s else closePeer n s) = s :=
    if_pos (by rw [hopen]; rfl)
  unfold helloFrame
  extract_lets fresh openId s0 x seq v y
  have hs0 : s0 = s := hfresh
  have hxopen : (peerOf x n).open_ = false := by
    simp only [x, hs0]
    exact hx
  have hy : y = greeted n f s := by
    simp only [y, x, hs0, greeted]
    rw [if_neg]
    rw [← hs0]
    simpa using hxopen
  rw [if_neg, if_neg, hy]
  · simp [hxopen]
  · simp [hxopen]

theorem greeted_peer (n : Nat) (f : Bytes) (s : State) :
    SamePeer { peerOf s n with boot := fld f 8 4, rxOpen := fld f 0x3C 4, quarantine := none } (peerOf (greeted n f s) n) := by
  rw [← peerOf_modPeer_same n (fun p => { p with boot := fld f 8 4, rxOpen := fld f 0x3C 4, quarantine := none }) s]
  unfold greeted
  exact (((samePeer_modVc ..).trans (samePeer_modVc ..)).trans (samePeer_modVc ..)).trans (firstGrant_received n _ n 0).2.2

theorem greeted_rxSeq (n : Nat) (f : Bytes) (s : State) : (vcOf (greeted n f s) n 0).rxSeq = fld f 0x0C 4 := by
  have h := (firstGrant_received n (modVc n 0 (fun v => { v with rxSeq := fld f 0x0C 4 })
    (modVc n 1 (fun v => { v with credit := fld f 0x14 4 }) (modVc n 3 (fun v => { v with credit := fld f 0x14 4 })
      (modPeer n (fun p => { p with boot := fld f 8 4, rxOpen := fld f 0x3C 4, quarantine := none }) s)))) n 0).1
  rw [vcOf_modVc_same] at h
  simp only [received, Prod.mk.injEq] at h
  exact h.1

theorem greeted_credit (n : Nat) (f : Bytes) (s : State) : (vcOf (greeted n f s) n 1).credit = fld f 0x14 4 := by
  rw [greeted, (firstGrant_received ..).2.1, vcOf_modVc_other _ _ (by simp), vcOf_modVc_same]

theorem takeGoodFrame_hello (hopen : (peerOf s n).open_ = false) (htype : byteAt f 1 = 1)
    (hq : (peerOf s n).quarantine = none ∨ (peerOf s n).boot ≠ fld f 8 4) : takeGoodFrame port n f s = helloFrame n f s := by
  have htest : ((peerOf s n).quarantine.isSome && !(byteAt f 1 == 1 && fld f 8 4 != (peerOf s n).boot)) = false := by
    rcases hq with h | h
    · simp [h]
    · simp [htype, h.symm]
  unfold takeGoodFrame
  dsimp only
  rw [htest, if_neg Bool.false_ne_true, hopen, Bool.false_and, if_neg Bool.false_ne_true, if_pos (by simp [htype])]

theorem helloFrame_facts (hopen : (peerOf s n).open_ = false) :
    (peerOf (helloFrame n f s) n).boot = fld f 8 4 ∧ (peerOf (helloFrame n f s) n).rxOpen = fld f 0x3C 4 ∧
    (peerOf (helloFrame n f s) n).quarantine = none ∧ (vcOf (helloFrame n f s) n 0).rxSeq = fld f 0x0C 4 + 1 ∧
    (vcOf (helloFrame n f s) n 1).credit = fld f 0x14 4 := by
  rw [helloFrame_of_closed hopen]
  generalize putAt f 0x14 (toLe 4 (vcOf (greeted n f s) n 0).credit) = g
  obtain ⟨⟨hseq, -, -⟩, hoth, hpeer⟩ := acceptFrame_facts n 0 g (greeted n f s)
  obtain ⟨-, hboot, hrx, hquar, -⟩ := ((greeted_peer n f s).trans (hpeer n)).fields
  have hcredit := congrArg VcSt.credit (hoth n 1 (by simp))
  rw [greeted_credit] at hcredit
  rw [greeted_rxSeq] at hseq
  exact ⟨hboot, hrx, hquar, hseq, hcredit⟩

end

/-- Settles O37: a frame that is no frame of this protocol is counted and dropped; a good one is recorded and is taken from its
sender's entry, in its turn and within its credit. -/
theorem framesAreReceivedInTurn : Obligations.FramesAreReceivedInTurn := by
  intro s port n f hup hport hdown hn
  refine ⟨completes_frameDrop hup hport hdown (.inl rfl), completes_frameDrop hup hport hdown (.inr (.inl rfl)),
    completes_frameDrop hup hport hdown (.inr (.inr rfl)), fun ok hbad => completes_frameBad hup hport hdown hbad,
    fun hlen hver hdst hst => ?_⟩
  obtain ⟨x, hexec, hx, heff⟩ := exec_goodFrame hup hport hdown hlen hver hdst hst hn
  have hpeers : x.fab.peers = s.fab.peers := congrArg Fab.peers hx
  refine ⟨fun q hq hf => ?_, fun hq hopen hboot htype hplain hseq hcredit => ?_, fun hopen htype hq => ?_⟩
  · refine completes_of_up hup hexec ⟨_, rfl, ?_⟩
    rw [takeGoodFrame_quarantined ((congrArg Peer.quarantine (peerOf_congr hpeers n)).trans hq) hf, withDigests_fab]
    refine ⟨?_, frame_withDigests.2 (Effect.extend .refl (by decide) heff).onFab.frame⟩
    show { x.fab with quarDrop := x.fab.quarDrop + 1 } = _
    rw [hx]
  · refine completes_of_up hup hexec ⟨_, rfl, ?_⟩
    rw [← vcOf_congr hpeers] at hseq hcredit
    rw [← peerOf_congr hpeers] at hq hopen hboot
    have h := takeGoodFrame_data (port := port) hq hopen hboot htype hplain hseq hcredit
    unfold TakenInTurn at h
    rw [vcOf_congr hpeers, hx] at h
    exact h
  · refine completes_of_up hup hexec ⟨_, rfl, ?_⟩
    rw [← peerOf_congr hpeers] at hopen hq
    rw [takeGoodFrame_hello hopen htype hq]
    exact helloFrame_facts hopen

end Sys2Proof.Proofs

/-! Messages sent and taken (R346, R347, R354): what a message sent leaves of the messages received and of the peers' entries,
and when an answer goes out. -/

namespace Sys2Proof.Proofs
open Sys2Proof Sys2Proof.Machine Sys2Proof.Safety

set_option Elab.async false

section
variable {s t u : State} {node n vc : Nat} {m : Msg}

/-! Where a message may go rests on tables and keys alone. -/

theorem forwardEntry_congr (hidx : t.idx = s.idx) (hobj : t.obj = s.obj) (n e : Nat) : forwardEntry t n e = forwardEntry s n e := by
  unfold forwardEntry tableRow tableVer versionAt swapAt objBytes objOf
  rw [hidx, hobj]

theorem sendStatus_congr (hidx : t.idx = s.idx) (hobj : t.obj = s.obj) (hxts : t.fls.xts = s.fls.xts) (hgen : t.stew.cur = s.stew.cur)
    (hboot : t.stew.boot = s.stew.boot) (dst tenant e : Nat) : sendStatus t dst tenant e = sendStatus s dst tenant e := by
  unfold sendStatus fabricKey gen
  rw [forwardEntry_congr hidx hobj, hxts, hgen, hboot]

/-! A message queued for its peer. -/

/-- Two entries of a peer agree but for its channels and for how often it was opened. -/
def SameEntry (p q : Peer) : Prop := { q with vcs := p.vcs, openId := p.openId } = p

theorem SameEntry.trans {p q r : Peer} (h : SameEntry p q) (g : SameEntry q r) : SameEntry p r := by
  unfold SameEntry at h g ⊢
  rw [← h, ← g]

theorem SamePeer.entry {p q : Peer} (h : SamePeer p q) : SameEntry p q := by
  unfold SamePeer at h
  unfold SameEntry
  rw [← h]

theorem SameEntry.fields {p q : Peer} (h : SameEntry p q) : q.open_ = p.open_ ∧ q.cls = p.cls ∧ q.job = p.job := by
  rw [SameEntry] at h
  rw [← h]
  exact ⟨rfl, rfl, rfl⟩

/-- Mail sent leaves the messages received, and peers' entries but for their channels. -/
structure Mails (s t : State) : Prop where
  peers : ∀ n, SameEntry (peerOf s n) (peerOf t n)
  msgs : t.fab.rxMsgs = s.fab.rxMsgs

theorem firstGrant_rxMsgs (n : Nat) (s : State) : (firstGrant n s).fab.rxMsgs = s.fab.rxMsgs := by
  unfold firstGrant
  split <;> rfl

namespace Mails

theorem refl : Mails s s := ⟨fun _ => rfl, rfl⟩

theorem trans (h : Mails s t) (g : Mails t u) : Mails s u :=
  ⟨fun n => (h.peers n).trans (g.peers n), g.msgs.trans h.msgs⟩

theorem of_sends (h : Sends n vc s t) : Mails s t := ⟨fun n => (h.peers n).entry, h.msgs⟩

theorem of_peers (hp : t.fab.peers = s.fab.peers) (hm : t.fab.rxMsgs = s.fab.rxMsgs) : Mails s t :=
  ⟨fun n => by rw [peerOf_congr hp]; rfl, hm⟩

theorem onFab {f : Fab → Fab} (hp : ∀ x, (f x).peers = x.peers) (hm : ∀ x, (f x).rxMsgs = x.rxMsgs) (s : State) : Mails s (s.onFab f) :=
  .of_peers (hp _) (hm _)

theorem modVc (n vc : Nat) (f : VcSt → VcSt) (s : State) : Mails s (modVc n vc f s) :=
  ⟨fun n' => (samePeer_modVc n vc f s n').entry, rfl⟩

theorem queueMsg (m : Msg) (s : State) : Mails s (queueMsg m s) := by
  unfold Machine.queueMsg
  extract_lets fs
  refine .trans ?_ (.of_sends (Sends.pump ..))
  refine .trans (modVc m.dst m.vc (fun v => { v with
    firstAt := if v.unacked.isEmpty && v.waitTx.isEmpty then now s else v.firstAt,
    waitTx := v.waitTx ++ fs.map fun f => (m.type + 256 * b2n m.answer, f) }) s) (.of_peers rfl rfl)

theorem firstGrant (n : Nat) (s : State) : Mails s (firstGrant n s) :=
  ⟨fun n' => (firstGrant_received n s n' 0).2.2.entry, firstGrant_rxMsgs n s⟩

theorem sendHello (n : Nat) (s : State) : Mails s (sendHello n s) := by
  unfold Machine.sendHello
  extract_lets p id s1 s2
  split
  · exact refl
  · have h0 : Mails s (modPeer n (fun p => { p with openId := p.openId + 1 }) s) := by
      refine ⟨fun n' => ?_, rfl⟩
      by_cases h : n' = n
      · rw [h, peerOf_modPeer_same]
        rfl
      · rw [peerOf_modPeer_other _ _ h]
        rfl
    have h1 : Mails s s1 := h0.trans (firstGrant ..)
    have h2 : Mails s1 s2 := by
      refine onFab ?_ ?_ s1
      · exact fun _ => rfl
      · exact fun _ => rfl
    exact (h1.trans h2).trans (queueMsg ..)

theorem sendMsg (m : Msg) (s : State) : Mails s (sendMsg m s) := by
  unfold Machine.sendMsg
  split
  · exact (sendHello ..).trans (queueMsg ..)
  · split
    · exact .of_peers rfl rfl
    · exact refl

theorem sendRequestFor (m : Msg) (answer cmd : Nat) (job : Option T4Job) (s : State) : Mails s (sendRequestFor m answer cmd job s).2 := by
  unfold Machine.sendRequestFor
  extract_lets id s1
  have h1 : Mails s s1 := .of_peers rfl rfl
  exact h1.trans (sendMsg ..)

theorem foldl {α : Type} {f : State → α → State} (hf : ∀ s a, Mails s (f s a)) (l : List α) (s : State) : Mails s (l.foldl f s) := by
  induction l generalizing s with
  | nil => exact refl
  | cons a l ih => exact (hf s a).trans (ih _)

theorem telemPump (s : State) : Mails s (telemPump s) := by
  unfold Machine.telemPump
  extract_lets dst
  split
  · exact refl
  · refine foldl (fun s t => ?_) _ s
    split
    · exact refl
    · exact .trans (sendRequestFor ..) (.of_peers rfl rfl)

end Mails

theorem queueMsg_sent (m : Msg) (s : State) : (queueMsg m s).fab.sent = s.fab.sent ++ [m] := by
  unfold queueMsg
  extract_lets fs
  rw [(Sends.pump ..).fab.fields.2.1]
  rfl

theorem sendHello_of_open (h : (peerOf s n).open_ = true) : sendHello n s = s := by
  unfold sendHello
  extract_lets p
  have hp : p.open_ = true := h
  rw [hp, Bool.true_or, Bool.true_or, Bool.true_or, if_pos rfl]

/-- To an open entry whose forwarding entry is valid a message goes out at once (R354). -/
theorem sendMsg_sent (hopen : (peerOf s m.dst).open_ = true) (hst : sendStatus s m.dst m.tenant (msgEpoch s m) = 0) :
    (sendMsg m s).fab.sent = s.fab.sent ++ [m] := by
  unfold sendMsg
  rw [if_pos (show _ = St.success from hst), sendHello_of_open hopen, queueMsg_sent]

/-! Messages taken. -/

theorem erase_eq_span {α : Type} [BEq α] [LawfulBEq α] {p : α → Bool} {a : α} (hp : ∀ x, p x = !(x == a)) (l : List α) :
    (l.span p).1 ++ (l.span p).2.drop 1 = l.erase a := by
  rw [List.span_eq_takeWhile_dropWhile]
  induction l with
  | nil => rfl
  | cons x l ih =>
    by_cases hx : x = a
    · subst hx
      simp [hp]
    · simp [hp, hx]
      simpa [hp] using ih

/-- A message that is acted on leaves the messages received (R347). -/
theorem rxDone_rxMsgs (node : Nat) (m : Msg) (s : State) : (rxDone node m s).fab.rxMsgs = s.fab.rxMsgs.erase (node, m) := by
  refine Eq.trans ?_ (erase_eq_span (p := fun x => !(x.1 == node && x.2 == m)) (fun x => ?_) _)
  · rfl
  · rfl

theorem rxDone_fab (node : Nat) (m : Msg) (s : State) :
    (rxDone node m s).fab.peers = s.fab.peers ∧ (rxDone node m s).fab.sent = s.fab.sent := ⟨rfl, rfl⟩

/-- What stands between taking a message and its answer: the fabric but for the messages received, the tables and keys, the
generation, the boot count and the epoch are as they were. -/
structure Taken (node : Nat) (m : Msg) (s t : State) : Prop where
  msgs : t.fab.rxMsgs = s.fab.rxMsgs.erase (node, m)
  peers : t.fab.peers = s.fab.peers
  sent : t.fab.sent = s.fab.sent
  idx : t.idx = s.idx
  obj : t.obj = s.obj
  fls : t.fls = s.fls
  cur : t.stew.cur = s.stew.cur
  boot : t.stew.boot = s.stew.boot
  epoch : t.eng.epoch = s.eng.epoch

theorem taken_rxDone (node : Nat) (m : Msg) (s : State) : Taken node m s (rxDone node m s) where
  msgs := rxDone_rxMsgs ..
  peers := rfl
  sent := rfl
  idx := rfl
  obj := rfl
  fls := rfl
  cur := rfl
  boot := rfl
  epoch := rfl

theorem Taken.acted {node : Nat} {m r : Msg} (h : Taken node m s t) : Acted node m s (withDigests s (sendMsg r t)) :=
  (Mails.sendMsg r t).msgs.trans h.msgs

/-- An answer that may be sent goes out. -/
theorem Taken.sends {node tenant epoch : Nat} {m r : Msg} (h : Taken node m s t) (hcan : CanAnswer s node tenant epoch)
    (hdst : r.dst = node) (ht : r.tenant = tenant) (he : r.epoch = epoch) :
    (withDigests s (sendMsg r t)).fab.sent = s.fab.sent ++ [r] := by
  obtain ⟨hopen, hst⟩ := hcan
  have hst' : sendStatus t r.dst r.tenant (msgEpoch t r) = 0 := by
    rw [sendStatus_congr h.idx h.obj (congrArg Fls.xts h.fls) h.cur h.boot, hdst, ht, msgEpoch, he, h.epoch]
    exact hst
  rw [withDigests_fab, sendMsg_sent (by rw [peerOf_congr h.peers, hdst, hopen]) hst', h.sent]

theorem Taken.answersStatus {node st : Nat} {m : Msg} (h : Taken node m s t) {detail : Nat} (hd : detail = 0) :
    AnswersStatus node m st s (withDigests s (answerStatus node m st detail t)) := by
  subst hd
  exact fun hcan => h.sends hcan rfl rfl rfl

end

end Sys2Proof.Proofs

/-! Control messages, JOIN and LEAVE (R223, R347, R356, R358, R359). -/

namespace Sys2Proof.Proofs
open Sys2Proof Sys2Proof.Machine Sys2Proof.Safety

set_option Elab.async false

section
variable {s t u : State} {node msg : Nat} {m : Msg}

theorem dropResv_mails (id : Nat) (s : State) : Mails s (dropResv id s) := .of_peers rfl rfl

theorem logEv_mails (ev src sev : Nat) (body : Bytes) (s : State) : Mails s (logEv ev src sev body s) := .of_peers rfl rfl

theorem openedBy_peer (node : Nat) (f : Peer → Peer) (s : State) (hf : ∀ p, (f p).open_ = true) :
    (peerOf (modPeer node f s) node).open_ = true := by
  rw [peerOf_modPeer_same, hf]

theorem Mails.ite {c : Prop} [Decidable c] (h : Mails s t) (g : Mails s u) : Mails s (if c then t else u) := by
  split
  · exact h
  · exact g

theorem completes_hello (hup : halted s = false) (hm : rxMsg s node msg [1] = some m) :
    Completes (.hello node msg) s fun t => Acted node m s t ∧ (peerOf t node).open_ = true ∧
      (peerOf t node).cls = byteAt m.body 4 ∧ (peerOf t node).job = fld m.body 8 4 := by
  refine completes_of_up hup rfl ?_
  rw [hm]
  dsimp -zeta only
  extract_lets x mine was sent x1 x2 x3 x4 x5
  have hx1 : Mails x x1 := dropResv_mails ..
  have hx3 : Mails x2 x3 := by
    refine .ite .refl (.trans ?_ (logEv_mails ..))
    exact .of_peers rfl rfl
  have hx4 : Mails x3 x4 := .ite .refl (.sendMsg ..)
  have hx5 : Mails x4 x5 := .foldl (fun _ _ => (Mails.of_sends (Sends.grantMore ..)).trans (.of_sends (Sends.pump ..))) _ _
  have hlast : Mails x2 (if node = genCollector (gen x5) then telemPump x5 else x5) :=
    ((hx3.trans hx4).trans hx5).trans (.ite (.telemPump x5) .refl)
  have hopened : (peerOf x2 node).open_ = true ∧ (peerOf x2 node).cls = byteAt m.body 4 ∧ (peerOf x2 node).job = fld m.body 8 4 := by
    simp only [x2, peerOf_modPeer_same]
    exact ⟨trivial, trivial, trivial⟩
  obtain ⟨hopen, hcls, hjob⟩ := (hlast.peers node).fields
  have hmsgs : x2.fab.rxMsgs = s.fab.rxMsgs.erase (node, m) := hx1.msgs.trans (rxDone_rxMsgs ..)
  refine ⟨_, rfl, hlast.msgs.trans hmsgs, ?_, ?_, ?_⟩ <;> rw [peerOf_withDigests]
  · exact hopen.trans hopened.1
  · exact hcls.trans hopened.2.1
  · exact hjob.trans hopened.2.2

/-! Barriers (R223). -/

/-- The barriers of a node with one more. -/
def withBarrier (id : Nat) (e : Eng) : Eng :=
  { e with barriers := ({ id := id, epoch := e.epoch } :: e.barriers.filter fun b => b.id != id).take 256 }

theorem taken_onEng (f : Eng → Eng) (hf : (f s.eng).epoch = s.eng.epoch) : Taken node m s ((rxDone node m s).onEng f) where
  msgs := rxDone_rxMsgs ..
  peers := rfl
  sent := rfl
  idx := rfl
  obj := rfl
  fls := rfl
  cur := rfl
  boot := rfl
  epoch := hf

theorem sendMsg_eng (m : Msg) (s : State) : (sendMsg m s).eng = s.eng :=
  (Effect.refl (ps := [.fab, .rel, .recd]) (w := false)).sendMsg.frame .eng (by decide)

theorem onControl_of_serving {types : List Nat} {k : Msg → State → State} (hm : rxMsg s node msg types = some m)
    (hserve : isServing s = true) : onControl node msg types s k = .next (k m (rxDone node m s)) := by
  rw [onControl, hm]
  dsimp only
  rw [if_pos hserve]

theorem completes_barrier (hup : halted s = false) (hserve : isServing s = true) (hm : rxMsg s node msg [2] = some m) :
    Completes (.barrier node msg) s fun t => Acted node m s t ∧
      t.eng = { s.eng with barriers := ({ id := fld m.body 0 4, epoch := s.eng.epoch } ::
        s.eng.barriers.filter fun b => b.id != fld m.body 0 4).take 256 } ∧
      (CanAnswer s node 0 0 → t.fab.sent = s.fab.sent ++ [{
        dst := node, type := 3, id := m.id,
        body := toLe 4 (fld m.body 0 4) ++ toLe 2 0 ++ zeros 2 ++ toLe 8 s.eng.epoch }]) := by
  refine completes_of_up hup rfl ?_
  rw [onControl_of_serving hm hserve]
  have htaken : Taken node m s ((rxDone node m s).onEng (withBarrier (fld m.body 0 4))) := taken_onEng _ rfl
  refine ⟨_, rfl, htaken.acted, ?_, fun hcan => htaken.sends hcan rfl rfl rfl⟩
  rw [withDigests_eng, sendMsg_eng]
  rfl

/-! The maps of barriers (R223). -/

theorem slice_drop (b : Bytes) (i j n : Nat) : slice (b.drop i) j n = slice b (i + j) n := by
  rw [slice, slice, List.drop_drop]

theorem take_eq_slice {n : Nat} {b : Bytes} (h : n ≤ b.length) : b.take n = slice b 0 n := by
  rw [slice]
  simp [Nat.min_eq_left h]

theorem mem_recordsGo {n k i : Nat} {b : Bytes} (hb : n * k ≤ b.length) (hi : i < k) : slice b (n * i) n ∈ recordsGo n k b := by
  induction k generalizing b i with
  | zero => omega
  | succ k ih =>
    have hlen : n + n * k ≤ b.length := by rw [Nat.mul_succ] at hb; omega
    unfold recordsGo
    cases i with
    | zero => exact take_eq_slice (by omega : n ≤ b.length) ▸ List.mem_cons_self
    | succ i =>
      have h := ih (b := b.drop n) (i := i) (by rw [List.length_drop]; omega) (by omega)
      rw [slice_drop, ← Nat.add_comm (n * i) n, ← Nat.mul_succ] at h
      exact List.mem_cons_of_mem _ h

/-- A list of records of `n` bytes holds the one at each place. -/
theorem mem_records {n k i : Nat} {b : Bytes} (hb : b.length = n * k) (hi : i < k) (hn : 0 < n) : slice b (n * i) n ∈ records n b := by
  rw [records, hb, Nat.mul_div_cancel_left k hn]
  exact mem_recordsGo (Nat.le_of_eq hb.symm) hi

theorem tabGet_foldl_tabSet {α : Type} {k : Nat} {l : List (Nat × α)} {t : Tab α}
    (h : k ∈ l.map Prod.fst ∨ (tabGet t k).isSome = true) : (tabGet (l.foldl (fun t p => tabSet t p.1 p.2) t) k).isSome = true := by
  induction l generalizing t with
  | nil => exact h.resolve_left (by simp)
  | cons p l ih =>
    refine ih ?_
    by_cases hk : k = p.1
    · exact .inr (by rw [hk, tabGet_tabSet_same]; rfl)
    · rw [tabGet_tabSet_other _ _ _ _ hk]
      refine h.imp (fun h => ?_) id
      exact (List.mem_cons.1 (by simpa using h : k ∈ p.1 :: l.map Prod.fst)).resolve_left hk

/-- The entries of a BARRIER_MAP: each a key and what it maps to (R223). -/
def mapEntries (m : Msg) : List (Nat × Nat) :=
  (records 8 (slice m.body 8 (8 * fld m.body 4 2))).map fun r => (bitsOf (fld r 0 8) 48 14, fld r 0 8 % 2 ^ 48)

theorem mem_mapEntries {i : Nat} (hi : i < fld m.body 4 2) :
    bitsOf (fld m.body (8 + 8 * i) 8) 48 14 ∈ (mapEntries m).map Prod.fst := by
  have hmem := mem_records (length_slice m.body 8 (8 * fld m.body 4 2)) hi (by decide)
  have hfld : fld (slice (slice m.body 8 (8 * fld m.body 4 2)) (8 * i) 8) 0 8 = fld m.body (8 + 8 * i) 8 := by
    rw [fld_slice _ _ (by omega), fld_slice _ _ (by omega)]
    rfl
  rw [mapEntries, List.map_map]
  exact List.mem_map.2 ⟨_, hmem, by rw [Function.comp, hfld]⟩

/-- A barrier with the entries of its map. -/
def mapBarrier (m : Msg) (b : Barrier) : Barrier :=
  if b.id = fld m.body 0 4 then { b with map := (mapEntries m).foldl (fun t p => tabSet t p.1 p.2) b.map } else b

theorem mapBarrier_key (m : Msg) (b : Barrier) : (mapBarrier m b).id = b.id ∧ (mapBarrier m b).epoch = b.epoch := by
  unfold mapBarrier
  split
  · exact ⟨rfl, rfl⟩
  · exact ⟨rfl, rfl⟩

theorem completes_barrierMap (hup : halted s = false) (hserve : isServing s = true) (hm : rxMsg s node msg [4] = some m)
    (hlo : 1 ≤ fld m.body 4 2) (hhi : fld m.body 4 2 ≤ 1024) (hb : ∃ b ∈ s.eng.barriers, b.id = fld m.body 0 4) :
    Completes (.barrierMap node msg) s fun t => Acted node m s t ∧ AnswersStatus node m 0 s t ∧
      t.eng.barriers.map (fun b => (b.id, b.epoch)) = s.eng.barriers.map (fun b => (b.id, b.epoch)) ∧
      (∀ b ∈ t.eng.barriers, b.id = fld m.body 0 4 → ∀ i < fld m.body 4 2,
        (tabGet b.map (bitsOf (fld m.body (8 + 8 * i) 8) 48 14)).isSome = true) := by
  have hany : ((rxDone node m s).eng.barriers.any fun b => b.id == fld m.body 0 4) = true := by
    obtain ⟨b, hb, hid⟩ := hb
    exact List.any_eq_true.2 ⟨b, hb, by simp [hid]⟩
  refine completes_of_up hup rfl ?_
  rw [onControl_of_serving hm hserve]
  dsimp only
  rw [if_neg (by simp; omega), if_neg (by rw [hany]; decide)]
  have htaken : Taken node m s ((rxDone node m s).onEng fun e => { e with barriers := e.barriers.map (mapBarrier m) }) :=
    taken_onEng _ rfl
  have heng (st detail : Nat) (x : State) : (answerStatus node m st detail x).eng = x.eng := sendMsg_eng ..
  refine ⟨_, rfl, htaken.acted, htaken.answersStatus rfl, ?_⟩
  rw [withDigests_eng, heng]
  refine ⟨?_, fun b hbt hid i hi => ?_⟩
  · show (s.eng.barriers.map (mapBarrier m)).map _ = _
    rw [List.map_map]
    refine List.map_congr_left fun b _ => ?_
    rw [Function.comp, (mapBarrier_key m b).1, (mapBarrier_key m b).2]
  · obtain ⟨b', -, rfl⟩ := List.mem_map.1 (show b ∈ s.eng.barriers.map (mapBarrier m) from hbt)
    rw [(mapBarrier_key m b').1] at hid
    rw [mapBarrier, if_pos hid]
    exact tabGet_foldl_tabSet (.inl (mem_mapEntries hi))

theorem completes_barrierMap_unknown (hup : halted s = false) (hserve : isServing s = true) (hm : rxMsg s node msg [4] = some m)
    (hlo : 1 ≤ fld m.body 4 2) (hhi : fld m.body 4 2 ≤ 1024) (hb : ∀ b ∈ s.eng.barriers, b.id ≠ fld m.body 0 4) :
    Completes (.barrierMap node msg) s fun t => Acted node m s t ∧ AnswersStatus node m 0x0401 s t ∧ t.eng = s.eng := by
  have hany : ((rxDone node m s).eng.barriers.any fun b => b.id == fld m.body 0 4) = false :=
    List.any_eq_false.2 fun b hbm => by simpa using hb b hbm
  refine completes_of_up hup rfl ?_
  rw [onControl_of_serving hm hserve]
  dsimp only
  rw [if_neg (by simp; omega), if_pos (by rw [hany]; rfl)]
  refine ⟨_, rfl, (taken_rxDone node m s).acted, (taken_rxDone node m s).answersStatus rfl, ?_⟩
  exact (sendMsg_eng ..).trans rfl

/-! Telemetry, JOIN and LEAVE (R358, R359). -/

theorem completes_telemetry (hup : halted s = false) (hm : rxMsg s node msg [6] = some m) :
    Completes (.telemetry node msg) s fun t => Acted node m s t ∧ AnswersStatus node m 0 s t := by
  refine completes_of_up hup rfl ?_
  rw [hm]
  exact ⟨_, rfl, (taken_rxDone node m s).acted, (taken_rxDone node m s).answersStatus rfl⟩

theorem taken_onStew (f : Stew → Stew) (hcur : (f s.stew).cur = s.stew.cur) (hboot : (f s.stew).boot = s.stew.boot) :
    Taken node m s ((rxDone node m s).onStew f) where
  msgs := rxDone_rxMsgs ..
  peers := rfl
  sent := rfl
  idx := rfl
  obj := rfl
  fls := rfl
  cur := hcur
  boot := hboot
  epoch := rfl

theorem answerStatus_stew (node : Nat) (m : Msg) (st detail : Nat) (s : State) : (answerStatus node m st detail s).stew = s.stew :=
  (Effect.refl (ps := [.fab, .rel, .recd]) (w := false)).answerStatus.frame .stew (by decide)

theorem isServing_of_service (h : s.stew.st = .service) : isServing s = true := by
  rw [isServing, h]
  rfl

theorem isServing_of_standby (h : s.stew.st = .standby) : isServing s = true := by
  rw [isServing, h]
  rfl

theorem joinBad_rxDone (node : Nat) (m : Msg) (s : State) : joinBad (rxDone node m s) node m = joinBad s node m := rfl

theorem isLeave_of_body (hm : rxMsg s node msg [5] = some m) : isLeave s node msg = (byteAt m.body 8 == 1) := by
  rw [isLeave, hm]
  rfl

section
variable (hup : halted s = false) (hm : rxMsg s node msg [5] = some m) (hgood : joinBad s node m = none)
include hup hm hgood

theorem completes_join_standby (hjoin : byteAt m.body 8 = 0) (hst : s.stew.st = .standby) :
    Completes (.join node msg) s fun t => Acted node m s t ∧
      t.stew = { s.stew with st := .service, job := fld m.body 0 4 } ∧ AnswersStatus node m 0 s t := by
  refine completes_of_up hup rfl ?_
  rw [if_neg (by rw [isLeave_of_body hm, hjoin]; decide), onControl_of_serving hm (isServing_of_standby hst)]
  dsimp only
  rw [joinBad_rxDone, hgood]
  dsimp only
  rw [if_pos (show (rxDone node m s).stew.st = .standby from hst)]
  have htaken : Taken node m s ((rxDone node m s).onStew fun w => { w with st := .service, job := fld m.body 0 4 }) :=
    taken_onStew _ rfl rfl
  refine ⟨_, rfl, htaken.acted, ?_, htaken.answersStatus rfl⟩
  rw [withDigests_stew, answerStatus_stew]
  rfl

theorem completes_join_service (hjoin : byteAt m.body 8 = 0) (hst : s.stew.st = .service) :
    Completes (.join node msg) s fun t => Acted node m s t ∧ t.stew = s.stew ∧
      AnswersStatus node m (if s.stew.job = fld m.body 0 4 then 0 else 0x0105) s t ∧ Frame [.fab, .rel, .recd] s t := by
  have heff (st : Nat) : Effect [.fab, .rel, .recd] false s (answerStatus node m st 0 (rxDone node m s)) :=
    Effect.refl.rxDone.answerStatus
  refine completes_of_up hup rfl ?_
  rw [if_neg (by rw [isLeave_of_body hm, hjoin]; decide), onControl_of_serving hm (isServing_of_service hst)]
  dsimp only
  rw [joinBad_rxDone, hgood]
  dsimp only
  rw [if_neg (show ¬ (rxDone node m s).stew.st = .standby by rw [show (rxDone node m s).stew = s.stew from rfl, hst]; decide)]
  rw [show (rxDone node m s).stew = s.stew from rfl]
  by_cases hjob : s.stew.job = fld m.body 0 4
  · rw [if_pos hjob, if_pos hjob]
    exact ⟨_, rfl, (taken_rxDone node m s).acted, answerStatus_stew .., (taken_rxDone node m s).answersStatus rfl,
      frame_withDigests.2 (heff _).frame⟩
  · rw [if_neg hjob, if_neg hjob]
    exact ⟨_, rfl, (taken_rxDone node m s).acted, answerStatus_stew .., (taken_rxDone node m s).answersStatus rfl,
      frame_withDigests.2 (heff _).frame⟩

theorem completes_leave (hleave : byteAt m.body 8 = 1) (hst : s.stew.st = .service) (hwork : peerWork s = false) :
    Completes (.leave node msg) s fun t => Acted node m s t ∧
      t.stew = { s.stew with st := .standby, job := 0, leaving := none } ∧ AnswersStatus node m 0 s t := by
  refine completes_of_up hup rfl ?_
  rw [if_neg (by rw [isLeave_of_body hm, hleave]; decide), hm]
  dsimp only
  rw [isServing_of_service hst, if_neg (by decide), hgood]
  dsimp only
  rw [if_neg (by simp [hst]), hwork, if_neg Bool.false_ne_true]
  have htaken : Taken node m s ((rxDone node m s).onStew fun w => { w with st := .standby, job := 0, leaving := none }) :=
    taken_onStew _ rfl rfl
  refine ⟨_, rfl, htaken.acted, ?_, htaken.answersStatus rfl⟩
  rw [withDigests_stew, answerStatus_stew]
  rfl

theorem completes_leave_later (hleave : byteAt m.body 8 = 1) (hst : s.stew.st = .service) (hwork : peerWork s = true) :
    Completes (.leave node msg) s fun t => t.stew = { s.stew with leaving := some (node, msg) } ∧ Frame [.stew] s t := by
  refine completes_of_up hup rfl ?_
  rw [if_neg (by rw [isLeave_of_body hm, hleave]; decide), hm]
  dsimp only
  rw [isServing_of_service hst, if_neg (by decide), hgood]
  dsimp only
  rw [if_neg (by simp [hst]), hwork, if_pos rfl]
  exact ⟨_, rfl, rfl, frame_withDigests.2 (Effect.refl (w := false)).onStew.frame⟩

end

/-! What a node refuses (R350, R347). -/

theorem refuseT4_of_serving {ty : Nat} (hq : quiescing s = false) (hr : ringFull s = false) (hm : rxMsg s node msg [ty] = some m) :
    ∃ u, refuseT4 node msg ty s = .next u ∧ Acted node m s (withDigests s u) ∧
      AnswersStatus node m (if s.stew.st = .service then 0x0101 else 0x0105) s (withDigests s u) := by
  unfold refuseT4
  rw [hm]
  dsimp only
  rw [if_neg (by rw [hq, hr]; decide)]
  exact ⟨_, rfl, (taken_rxDone node m s).acted, (taken_rxDone node m s).answersStatus rfl⟩

theorem completes_t4Read (hup : halted s = false) (hq : quiescing s = false) (hr : ringFull s = false)
    (hm : rxMsg s node msg [0x20] = some m) : Completes (.t4Read node msg) s fun t => Acted node m s t ∧
      AnswersStatus node m (if s.stew.st = .service then 0x0101 else 0x0105) s t :=
  completes_of_up hup rfl (refuseT4_of_serving hq hr hm)

theorem completes_t4Write (hup : halted s = false) (hq : quiescing s = false) (hr : ringFull s = false)
    (hm : rxMsg s node msg [0x22] = some m) : Completes (.t4Write node msg) s fun t => Acted node m s t ∧
      AnswersStatus node m (if s.stew.st = .service then 0x0101 else 0x0105) s t :=
  completes_of_up hup rfl (refuseT4_of_serving hq hr hm)

theorem completes_unknownMessageType (hup : halted s = false)
    (hfind : s.fab.rxMsgs.find? (fun x => x.1 == node && x.2.id == msg) = some (node, m)) (hm : rxMsg s node msg [m.type] = some m)
    (htype : m.type ∉ [1, 2, 3, 4, 5, 6, 0x0F, 0x10, 0x11, 0x20, 0x21, 0x22]) (hvc : m.vc = 0 → isServing s = true) :
    Completes (.unknownMessageType node msg) s fun t => Acted node m s t ∧
      AnswersStatus node m (if m.vc ≠ 0 ∧ s.stew.st ≠ .service then 0x0105 else 0x0101) s t := by
  have hserve : (decide (m.vc = 0) && !isServing s) = false := by
    by_cases h : m.vc = 0
    · simp [h, hvc h]
    · simp [h]
  refine completes_of_up hup rfl ?_
  rw [hfind]
  dsimp only
  rw [if_neg (by simpa using htype), hm]
  dsimp only
  rw [hserve, if_neg Bool.false_ne_true]
  refine ⟨_, rfl, (taken_rxDone node m s).acted, ?_⟩
  have hst : (if m.vc != 0 && s.stew.st != .service then St.nodeState else St.invalidOpcode) =
      if m.vc ≠ 0 ∧ s.stew.st ≠ .service then 0x0105 else 0x0101 := by
    by_cases hv : m.vc = 0 <;> by_cases hs : s.stew.st = .service <;> simp [hv, hs, St.nodeState, St.invalidOpcode]
  rw [hst]
  exact (taken_rxDone node m s).answersStatus rfl

end

/-- Settles O39: control messages are acted on and answered; a JOIN takes the node into service, a LEAVE out of it; what the node
does not serve is refused. -/
theorem controlMessagesServeJoinAndLeave : Obligations.ControlMessagesServeJoinAndLeave := by
  refine ⟨⟨fun _ _ _ _ => completes_hello, fun _ _ _ _ hup hserve hm => ?_, fun _ _ _ _ hup hserve hm hlo hhi =>
    ⟨completes_barrierMap hup hserve hm hlo hhi, completes_barrierMap_unknown hup hserve hm hlo hhi⟩, fun _ _ _ _ hup hm => ?_⟩,
    fun _ _ _ _ hup hm hgood => ⟨fun hj hst => ?_, completes_join_service hup hm hgood, fun hj hst hw => ?_,
      completes_leave_later hup hm hgood⟩,
    fun _ _ _ _ hup hq hr => ⟨fun hm => ?_, fun hm => ?_⟩, fun _ _ _ _ hup hfind hm htype hvc => ?_⟩
  · exact completes_within (completes_barrier hup hserve hm) fun _ heff ⟨h1, h2, h3⟩ => ⟨h1, h2, h3, heff.frame⟩
  · exact completes_within (completes_telemetry hup hm) fun _ heff ⟨h1, h2⟩ => ⟨h1, h2, heff.frame⟩
  · exact completes_within (completes_join_standby hup hm hgood hj hst) fun _ heff ⟨h1, h2, h3⟩ => ⟨h1, h2, h3, heff.frame⟩
  · exact completes_within (completes_leave hup hm hgood hj hst hw) fun _ heff ⟨h1, h2, h3⟩ => ⟨h1, h2, h3, heff.frame⟩
  · exact completes_within (completes_t4Read hup hq hr hm) fun _ heff ⟨h1, h2⟩ => ⟨h1, h2, heff.frame⟩
  · exact completes_within (completes_t4Write hup hq hr hm) fun _ heff ⟨h1, h2⟩ => ⟨h1, h2, heff.frame⟩
  · exact completes_within (completes_unknownMessageType hup hfind hm htype hvc) fun _ heff ⟨h1, h2⟩ => ⟨h1, h2, heff.frame⟩

end Sys2Proof.Proofs

/-! Answers received and sub-searches (R112, R113, R347 to R351, R354). -/

namespace Sys2Proof.Proofs
open Sys2Proof Sys2Proof.Machine Sys2Proof.Safety

set_option Elab.async false

section
variable {s t u : State} {node msg n : Nat} {m : Msg} {ps : List StatePart} {w : Bool}

/-! What is asked of peers: a request takes the next number, and what is asked for no more is dropped. -/

/-- Between two states requests may have gone out, each under a number not used before, and others have been dropped. -/
structure Asks (s t : State) : Prop where
  next : s.fab.nextMsg ≤ t.fab.nextMsg
  resv : ∀ x ∈ t.fab.resv, x ∈ s.fab.resv ∨ s.fab.nextMsg ≤ x.msg
  done : t.fab.t4done = s.fab.t4done
  telem : t.fab.telem = s.fab.telem

/-- The parts that a step which says nothing to its peers may change. -/
abbrev quiet : List StatePart := [.aon, .stew, .hif, .eng, .idx, .obj, .shv, .stk, .fls, .rel, .recd]

theorem firstGrant_nextMsg (n : Nat) (s : State) : (firstGrant n s).fab.nextMsg = s.fab.nextMsg := by
  unfold firstGrant
  split <;> rfl

namespace Asks

theorem refl : Asks s s := ⟨Nat.le_refl _, fun _ => .inl, rfl, rfl⟩

theorem trans (h : Asks s t) (g : Asks t u) : Asks s u where
  next := h.next.trans g.next
  resv x hx := (g.resv x hx).elim (h.resv x) fun hle => .inr (h.next.trans hle)
  done := g.done.trans h.done
  telem := g.telem.trans h.telem

theorem of_fab (h : t.fab = s.fab) : Asks s t := by
  refine ⟨?_, fun x hx => ?_, ?_, ?_⟩
  · rw [h]
  · exact .inl (h ▸ hx)
  · rw [h]
  · rw [h]

theorem of_quiet (h : Effect quiet false s t) : Asks s t := .of_fab (h.frame .fab (by decide))

theorem of_sendsOnly (h : SendsOnly s.fab t.fab) : Asks s t := by
  obtain ⟨-, -, hresv, hnext, htelem, -, hdone, -⟩ := h.fields
  exact ⟨Nat.le_of_eq hnext.symm, fun x hx => .inl (hresv ▸ hx), hdone, htelem⟩

theorem ite {c : Prop} [Decidable c] (h : Asks s t) (g : Asks s u) : Asks s (if c then t else u) := by
  split
  · exact h
  · exact g

theorem foldl {α : Type} {f : State → α → State} (hf : ∀ s a, Asks s (f s a)) (l : List α) (s : State) : Asks s (l.foldl f s) := by
  induction l generalizing s with
  | nil => exact refl
  | cons a l ih => exact (hf s a).trans (ih _)

/-- A change of the fabric that drops reservations at most. -/
theorem onFab {f : Fab → Fab} (hn : ∀ x, (f x).nextMsg = x.nextMsg) (hr : ∀ x, (f x).resv ⊆ x.resv)
    (hd : ∀ x, (f x).t4done = x.t4done) (ht : ∀ x, (f x).telem = x.telem) (s : State) : Asks s (s.onFab f) where
  next := Nat.le_of_eq (hn _).symm
  resv _ hx := .inl (hr _ hx)
  done := hd _
  telem := ht _

/-- A request is booked under the next number. -/
theorem book {f : Fab → Fab} {r : Resv} (hr : ∀ x, (f x).resv = x.resv ++ [r]) (hm : r.msg = s.fab.nextMsg)
    (hn : ∀ x, (f x).nextMsg = x.nextMsg + 1) (hd : ∀ x, (f x).t4done = x.t4done) (ht : ∀ x, (f x).telem = x.telem) :
    Asks s (s.onFab f) where
  next := (Nat.le_succ _).trans (Nat.le_of_eq (hn _).symm)
  resv x hx := by
    rcases List.mem_append.1 (hr s.fab ▸ hx : x ∈ s.fab.resv ++ [r]) with h | h
    · exact .inl h
    · rw [List.mem_singleton.1 h, hm]
      exact .inr (Nat.le_refl _)
  done := hd _
  telem := ht _

theorem modVc (n vc : Nat) (f : VcSt → VcSt) (s : State) : Asks s (modVc n vc f s) :=
  ⟨Nat.le_refl _, fun _ => .inl, rfl, rfl⟩

theorem queueMsg (m : Msg) (s : State) : Asks s (queueMsg m s) := by
  unfold Machine.queueMsg
  extract_lets fs
  refine .trans ?_ (.of_sendsOnly (Sends.pump ..).fab)
  refine .trans (modVc m.dst m.vc (fun v => { v with
    firstAt := if v.unacked.isEmpty && v.waitTx.isEmpty then now s else v.firstAt,
    waitTx := v.waitTx ++ fs.map fun f => (m.type + 256 * b2n m.answer, f) }) s) ?_
  exact ⟨Nat.le_refl _, fun _ => .inl, rfl, rfl⟩

theorem firstGrant (n : Nat) (s : State) : Asks s (firstGrant n s) :=
  .ite refl ((modVc ..).trans (modVc ..))

theorem sendHello (n : Nat) (s : State) : Asks s (sendHello n s) := by
  unfold Machine.sendHello
  extract_lets p id s1 s2
  split
  · exact refl
  · have h0 : Asks s (modPeer n (fun p => { p with openId := p.openId + 1 }) s) := ⟨Nat.le_refl _, fun _ => .inl, rfl, rfl⟩
    have h1 : Asks s s1 := h0.trans (firstGrant ..)
    have hid : id = s1.fab.nextMsg := (firstGrant_nextMsg n (modPeer n (fun p => { p with openId := p.openId + 1 }) s)).symm
    have h2 : Asks s1 s2 := by
      refine book (r := { msg := id, node := n, bytes := 16, kind := 1, at_ := s1.aon.uptime }) ?_ hid ?_ ?_ ?_
      · exact fun _ => rfl
      · exact fun _ => rfl
      · exact fun _ => rfl
      · exact fun _ => rfl
    exact (h1.trans h2).trans (queueMsg ..)

theorem sendMsg (m : Msg) (s : State) : Asks s (sendMsg m s) := by
  unfold Machine.sendMsg
  exact .ite ((sendHello ..).trans (queueMsg ..)) (.ite (of_quiet Effect.refl.logEv) refl)

theorem sendRequestFor (m : Msg) (answer cmd : Nat) (job : Option T4Job) (s : State) : Asks s (sendRequestFor m answer cmd job s).2 := by
  unfold Machine.sendRequestFor
  extract_lets id s1
  have h1 : Asks s s1 := by
    refine book (r := { msg := id, node := m.dst, bytes := answer, kind := m.type, cmd := cmd, at_ := s.aon.uptime, job := job })
      ?_ rfl ?_ ?_ ?_
    · exact fun _ => rfl
    · exact fun _ => rfl
    · exact fun _ => rfl
    · exact fun _ => rfl
  exact h1.trans (sendMsg ..)

theorem t4Send (j : T4Job) (s : State) : Asks s (t4Send j s) := by
  unfold Machine.t4Send
  split
  · extract_lets len answer body m
    split
    · refine onFab ?_ ?_ ?_ ?_ s
      · exact fun _ => rfl
      · exact fun _ => List.Subset.refl _
      · exact fun _ => rfl
      · exact fun _ => rfl
    · exact sendRequestFor ..
  · exact refl

theorem t4Whole (who : T4Who) (i : Nat) (write : Bool) (s : State) : Asks s (t4Whole who i write s) := by
  unfold Machine.t4Whole
  split
  · exact refl
  · exact t4Send ..

/-! What ends a transfer, and the moves that go on when it has ended (R238, R247, R251). -/

theorem begin (i : Nat) (o : ObjRec) (w : MoveW) (s : State) : Asks s (startRehome.begin i o w s) := by
  unfold startRehome.begin
  have hfail (st : Nat) : Asks s (failCmd w.cmd st s) := of_quiet Effect.refl.failCmd
  split
  · exact hfail _
  · next s1 hspace =>
    extract_lets s2
    have h2 : Asks s s2 := of_quiet (Effect.refl.moveSpace hspace).modObj
    exact .ite (hfail _) (.ite (h2.trans (t4Whole ..)) (.ite (h2.trans (t4Whole ..)) h2))

theorem startRehome (i : Nat) (w : MoveW) (s : State) : Asks s (startRehome i w s) := by
  unfold Machine.startRehome
  split
  · exact refl
  · refine .ite (of_quiet Effect.refl.waitMove) (.ite (of_quiet Effect.refl.moved) (.ite
      (of_quiet Effect.refl.failCmd) (.ite (of_quiet Effect.refl.failCmd) (.ite (.ite ?_ (.ite
        (of_quiet Effect.refl.evictCopy.waitMove) (of_quiet Effect.refl.waitMove))) (begin ..)))))
    exact .trans (of_quiet Effect.refl.accrue.evictCopy) (begin ..)

theorem promote (i : Nat) (w : MoveW) (s : State) : Asks s (promote i w s) := by
  have hwait (t : State) : Asks t (waitMove i w t) := of_quiet Effect.refl.waitMove
  have hfail (st : Nat) (t : State) : Asks t (failCmd w.cmd st t) := of_quiet Effect.refl.failCmd
  unfold Machine.promote
  split
  · exact refl
  · next o ho =>
    extract_lets tenant x y
    have hy : Effect quiet false s y := (Effect.refl.cancelEvict.foldl fun _ _ h => h.finishCmd).modObj
    split
    · refine .ite (hwait _) (.ite (hfail ..) ?_)
      split
      · exact hfail ..
      · next s1 hspace =>
        extract_lets s2
        have h2 : Asks s s2 := of_quiet (Effect.refl.moveSpace hspace).modObj.waitMove.headerChange
        exact .ite (h2.trans (t4Whole ..)) (h2.trans (of_quiet Effect.refl.packExpand))
    · exact hwait _
    · exact hwait _
    · refine .ite ((of_quiet hy).trans (hwait _)) (.ite (of_quiet hy.moved) ?_)
      split
      · exact of_quiet hy.failCmd
      · next s1 hspace => exact of_quiet (hy.moveSpace hspace).modObj.waitMove
    · refine .ite ((of_quiet hy).trans (hwait _)) (.ite (of_quiet hy.moved) ?_)
      split
      · exact of_quiet hy.failCmd
      · next s1 hspace => exact of_quiet (hy.moveSpace hspace).modObj.waitMove
    · exact hfail ..

theorem moveStep (i : Nat) (w : MoveW) (s : State) : Asks s (moveStep i s w) := by
  unfold Machine.moveStep
  split
  · exact of_quiet Effect.refl.failCmd
  · exact .ite (startRehome ..) (.ite (promote ..) (.ite (of_quiet Effect.refl.evictMove) (startRehome ..)))

theorem settleObj (i : Nat) (s : State) : Asks s (settleObj i s) := by
  unfold Machine.settleObj
  split
  · exact refl
  · exact .trans (of_quiet Effect.refl.modObj) (foldl (fun _ _ => moveStep ..) _ _)

theorem t4Stop (i st : Nat) (s : State) : Asks s (t4Stop i st s) := by
  unfold Machine.t4Stop
  extract_lets mine s1
  have h1 : Asks s s1 := by
    refine onFab ?_ ?_ ?_ ?_ s
    · exact fun _ => rfl
    · exact fun _ => List.filter_sublist.subset
    · exact fun _ => rfl
    · exact fun _ => rfl
  split
  · exact h1
  · split
    · exact h1.trans (.trans (of_quiet Effect.refl.accrue.modObj.failCmd) (settleObj ..))
    · extract_lets gone kept ended
      have hend (t : State) : Asks t (ended t) :=
        .trans (of_quiet (Effect.refl.foldl fun _ _ h => h.failCmd)) (settleObj ..)
      split
      · exact h1.trans (.trans (of_quiet (Effect.modObj Effect.refl.accrue (hf := by exact fun _ => ⟨rfl, fun _ _ => rfl⟩))) (hend _))
      · exact h1.trans (.trans (of_quiet Effect.refl.modObj) (hend _))
      · exact h1

theorem t4Fail (j : T4Job) (st : Nat) (s : State) : Asks s (t4Fail j st s) := by
  unfold Machine.t4Fail
  split
  · exact t4Stop ..
  · exact of_quiet Effect.refl.modObj
  · refine onFab ?_ ?_ ?_ ?_ s
    · exact fun _ => rfl
    · exact fun _ => List.Subset.refl _
    · exact fun _ => rfl
    · exact fun _ => rfl
  · exact of_quiet Effect.refl.modObj.failCmd
  · exact of_quiet Effect.refl.failCmd
  · refine of_quiet (Effect.getD (fun u hu => ?_) Effect.refl)
    obtain ⟨a, -, rfl⟩ := Option.map_eq_some_iff.1 hu
    exact Effect.refl.foldl fun _ _ h => h.modCmd

theorem cleanPage (i : Nat) (s : State) : Asks s (cleanPage i s) := by
  unfold Machine.cleanPage
  split
  · exact refl
  · split
    · refine .trans (of_quiet (Effect.modObj Effect.refl (hf := ?_))) (t4Send ..)
      exact fun _ => ⟨rfl, fun _ h => memWf_memWrite _ _ _ h⟩
    · exact .of_fab (((Effect.refl (ps := [.obj]) (w := true)).headerChange.frame .fab (by decide)).trans rfl)

theorem t4Done (j : T4Job) (s : State) : Asks s (t4Done j s) := by
  unfold Machine.t4Done
  split
  · exact .ite (of_quiet Effect.refl.packExpand) refl
  · exact .ite refl (.trans (of_quiet Effect.refl.modObj) (cleanPage ..))
  · exact of_quiet Effect.refl.modObj
  · exact of_quiet Effect.refl.finishCmd
  · exact of_quiet Effect.refl.endRead
  · exact refl

/-- What was reserved under no number stays so, if the number was used before. -/
theorem no_resv (h : Asks s t) (hused : msg < s.fab.nextMsg) (hnone : ∀ x ∈ s.fab.resv, x.msg ≠ msg) :
    ∀ x ∈ t.fab.resv, x.msg ≠ msg := by
  intro x hx
  rcases h.resv x hx with hs | hle
  · exact hnone x hs
  · omega

end Asks

theorem dropResv_resv (id : Nat) (s : State) : ∀ x ∈ (dropResv id s).fab.resv, x.msg ≠ id := by
  intro x hx
  simpa using (List.mem_filter.1 hx).2

theorem resvOf_facts {kinds : List Nat} {r : Resv} (h : resvOf s node msg kinds = some r) :
    r.node = node ∧ r.msg = msg ∧ r.kind ∈ kinds ∧ r ∈ s.fab.resv := by
  have hp := List.find?_some h
  simp only [Bool.and_eq_true, beq_iff_eq, List.contains_iff_mem] at hp
  exact ⟨hp.1.1, hp.1.2, hp.2, List.mem_of_find?_eq_some h⟩

/-! Answers that nobody waits for (R347). -/

theorem acted_lateAnswer (node : Nat) (m : Msg) (s : State) : Acted node m s (withDigests s (lateAnswer (rxDone node m s))) ∧
    (withDigests s (lateAnswer (rxDone node m s))).fab.late = s.fab.late + 1 ∧
    Frame [.fab] s (withDigests s (lateAnswer (rxDone node m s))) := by
  refine ⟨rxDone_rxMsgs .., rfl, frame_withDigests.2 ?_⟩
  exact (Effect.refl (w := false)).rxDone.onFab.frame

theorem completes_status_late (hup : halted s = false) (hm : rxMsg s node msg [0x0F] = some m)
    (hr : resvOf s node msg [6, 0x10, 0x20, 0x22] = none) :
    Completes (.status node msg) s fun t => Acted node m s t ∧ t.fab.late = s.fab.late + 1 ∧ Frame [.fab] s t := by
  refine completes_of_up hup rfl ?_
  rw [hm]
  dsimp only
  rw [show resvOf (rxDone node m s) node msg [6, 0x10, 0x20, 0x22] = none from hr]
  exact ⟨_, rfl, acted_lateAnswer ..⟩

theorem completes_t4Data_late (hup : halted s = false) (hm : rxMsg s node msg [0x21] = some m)
    (hr : resvOf s node msg [0x20] = none) :
    Completes (.t4Data node msg) s fun t => Acted node m s t ∧ t.fab.late = s.fab.late + 1 ∧ Frame [.fab] s t := by
  refine completes_of_up hup rfl ?_
  rw [hm]
  dsimp only
  rw [show resvOf (rxDone node m s) node msg [0x20] = none from hr]
  exact ⟨_, rfl, acted_lateAnswer ..⟩

/-! A STATUS ends the request it answers (R347). -/

/-- A request number that is used stands nowhere: no reservation has it, and no telemetry item was sent under it. -/
structure Quits (msg : Nat) (s : State) : Prop where
  used : msg < s.fab.nextMsg
  resv : ∀ x ∈ s.fab.resv, x.msg ≠ msg
  telem : ∀ x ∈ s.fab.telem, x.1 ≠ msg ∨ msg = 0

theorem Asks.quits (h : Asks s t) (hs : Quits msg s) : Quits msg t :=
  ⟨Nat.lt_of_lt_of_le hs.used h.next, h.no_resv hs.used hs.resv, h.telem ▸ hs.telem⟩

theorem mem_of_span {α : Type} {p : α → Bool} {l : List α} {y : α} (h : y ∈ (l.span p).1 ∨ y ∈ (l.span p).2) : y ∈ l := by
  rw [List.span_eq_takeWhile_dropWhile] at h
  exact h.elim (fun h => (List.takeWhile_sublist p).subset h) fun h => (List.dropWhile_sublist p).subset h

/-- Telemetry that is sent goes out under new numbers. -/
theorem telemPump_quits (h : Quits msg s) : Quits msg (telemPump s) := by
  unfold telemPump
  extract_lets dst
  split
  · exact h
  · refine List.foldlRecOn _ _ h fun s hs a _ => ?_
    dsimp only
    split
    · exact hs
    · have hsent := (Asks.sendRequestFor { dst := dst, vc := 0, type := 0x06, body := a.2 } 16 0 none s).quits hs
      refine ⟨hsent.used, hsent.resv, fun y hy => ?_⟩
      rcases List.mem_append.1 hy with hy | hy
      · exact hsent.telem y (mem_of_span (.inl hy))
      · split at hy
        · next x r hx =>
          rcases List.mem_cons.1 hy with rfl | hy
          · exact .inl (Nat.ne_of_gt hs.used)
          · exact hsent.telem y (mem_of_span (.inr (hx ▸ List.mem_cons_of_mem x hy)))
        · cases hy

theorem endResv_resv {r : Resv} (st : Nat) (hused : r.msg < s.fab.nextMsg) : ∀ x ∈ (endResv st s r).fab.resv, x.msg ≠ r.msg := by
  have hdrop := dropResv_resv r.msg s
  unfold endResv
  extract_lets s1
  split
  · have h : Asks s1 (closeFan r.cmd (modCmd r.cmd (fun c => { c with fan := c.fan.map fun f => { f with
        missing := f.missing + ((f.owed.filter fun o => o.1 == r.node).map Prod.snd).sum,
        owed := f.owed.filter fun o => o.1 != r.node } }) s1)) := .of_quiet Effect.refl.modCmd.closeFan
    exact h.no_resv hused hdrop
  · split
    · have h : Asks s1 ((r.job.map fun j => t4Fail j st s1).getD s1) := by
        cases r.job with
        | none => exact .refl
        | some j => exact .t4Fail ..
      exact h.no_resv hused hdrop
    · split
      · exact hdrop
      · exact hdrop

theorem completes_status {r : Resv} (hup : halted s = false) (hm : rxMsg s node msg [0x0F] = some m)
    (hr : resvOf s node msg [6, 0x10, 0x20, 0x22] = some r) (hused : msg < s.fab.nextMsg) :
    Completes (.status node msg) s fun t =>
      (∀ x ∈ t.fab.resv, x.msg ≠ msg) ∧ (r.kind = 6 → ∀ x ∈ t.fab.telem, x.1 ≠ msg ∨ msg = 0) := by
  obtain ⟨-, hmsg, -, -⟩ := resvOf_facts hr
  have hused' : r.msg < (rxDone node m s).fab.nextMsg := hmsg ▸ hused
  refine completes_of_up hup rfl ?_
  rw [hm]
  dsimp only
  rw [show resvOf (rxDone node m s) node msg [6, 0x10, 0x20, 0x22] = some r from hr]
  dsimp only
  generalize rxDone node m s = x at hused' ⊢
  by_cases h6 : r.kind = 6
  · rw [if_pos h6]
    have hpump : Quits msg (telemPump ((dropResv msg x).onFab fun f => { f with telem := f.telem.filter fun t => t.1 != msg })) :=
      telemPump_quits ⟨hmsg ▸ hused', dropResv_resv msg x, fun y hy => .inl (by simpa using (List.mem_filter.1 hy).2)⟩
    exact ⟨_, rfl, hpump.resv, fun _ => hpump.telem⟩
  · rw [if_neg h6]
    split
    · have hended : ∀ y ∈ (t4Ended r St.success x).fab.resv, y.msg ≠ msg := hmsg ▸ dropResv_resv r.msg x
      have h : Asks (t4Ended r St.success x) ((r.job.map fun j => if j.off < j.stop then t4Send j (t4Ended r St.success x)
          else t4Done j (t4Ended r St.success x)).getD (t4Ended r St.success x)) := by
        cases r.job with
        | none => exact .refl
        | some j => exact .ite (.t4Send ..) (.t4Done ..)
      exact ⟨_, rfl, h.no_resv (hmsg ▸ hused') hended, fun h => absurd h h6⟩
    · exact ⟨_, rfl, hmsg ▸ endResv_resv _ hused', fun h => absurd h h6⟩

/-! The bytes of a T4_DATA (R350). -/

theorem t4Land_t4done (i stop : Nat) (b : Bytes) (s : State) : (t4Land i stop b s).fab = s.fab := by
  unfold t4Land
  extract_lets at_
  split <;> rfl

theorem t4Land_mem {i stop : Nat} {b : Bytes} {o : ObjRec} (hck : tabGet s.fls.ckpt i = none) (ho : tabGet s.obj.recs i = some o)
    (hclean : o.dirty = false) : tabGet (t4Land i stop b s).obj.recs i = some { o with mem := memWrite o.mem (stop - b.length) b } := by
  unfold t4Land
  rw [hck]
  dsimp only
  rw [tabGet_modObj_same, ho, Option.map_some, hclean, if_neg Bool.false_ne_true]

theorem t4Land_ckpt {i stop : Nat} {b c : Bytes} (hck : tabGet s.fls.ckpt i = some c) : (t4Land i stop b s).obj = s.obj ∧
    tabGet (t4Land i stop b s).fls.ckpt i = some (putAt c (stop - b.length) b) := by
  unfold t4Land
  rw [hck]
  exact ⟨rfl, tabGet_tabSet_same ..⟩

/-- A move's transfer that goes on, or has ended, leaves the objects and the streams as they are. -/
theorem moved_on {j : T4Job} (hj : j.who = .move) (s : State) :
    (if j.off < j.stop then t4Send j s else t4Done j s).obj = s.obj ∧
    (if j.off < j.stop then t4Send j s else t4Done j s).fls.ckpt = s.fls.ckpt := by
  split
  · have heff : Effect [.fab, .rel, .recd] false s (t4Send j s) := Effect.refl.t4Send
    exact ⟨heff.frame .obj (by decide), congrArg Fls.ckpt (show (t4Send j s).fls = s.fls from heff.frame .fls (by decide))⟩
  · unfold t4Done
    rw [hj]
    dsimp only
    split
    · unfold packExpand
      split
      · exact ⟨rfl, rfl⟩
      · exact ⟨rfl, rfl⟩
    · exact ⟨rfl, rfl⟩

theorem completes_t4Data {r : Resv} (hup : halted s = false) (hm : rxMsg s node msg [0x21] = some m)
    (hr : resvOf s node msg [0x20] = some r) :
    Completes (.t4Data node msg) s fun t =>
      t.fab.t4done = s.fab.t4done ++ [(msg, 0)] ∧ ∀ j, r.job = some j → j.who = .move →
        (let b := slice m.body 0 r.bytes
         (∀ o, tabGet s.fls.ckpt j.obj = none → tabGet s.obj.recs j.obj = some o → o.dirty = false →
          ∃ o', tabGet t.obj.recs j.obj = some o' ∧ o'.mem = memWrite o.mem (j.off - b.length) b) ∧
         (∀ c, tabGet s.fls.ckpt j.obj = some c → SameBytes s t ∧
          tabGet t.fls.ckpt j.obj = some (putAt c (j.off - b.length) b))) := by
  obtain ⟨-, hmsg, -, -⟩ := resvOf_facts hr
  refine completes_of_up hup rfl ?_
  rw [hm]
  dsimp only
  rw [show resvOf (rxDone node m s) node msg [0x20] = some r from hr]
  dsimp only
  have hended : (t4Ended r St.success (rxDone node m s)).fab.t4done = s.fab.t4done ++ [(msg, 0)] := hmsg ▸ rfl
  have hobj : (t4Ended r St.success (rxDone node m s)).obj = s.obj := rfl
  have hfls : (t4Ended r St.success (rxDone node m s)).fls = s.fls := rfl
  generalize t4Ended r St.success (rxDone node m s) = x at hended hobj hfls ⊢
  cases hjob : r.job with
  | none => exact ⟨_, rfl, hended, fun j hj => nomatch hj⟩
  | some j =>
    dsimp only
    generalize hb : slice m.body 0 r.bytes = b
    have hask : Asks (t4Land j.obj j.off b x) (if j.off < j.stop then t4Send j (t4Land j.obj j.off b x)
        else t4Done j (t4Land j.obj j.off b x)) := .ite (.t4Send ..) (.t4Done ..)
    refine ⟨_, rfl, ?_, fun j' hj hwho => ?_⟩
    · rw [withDigests_fab, hask.done, t4Land_t4done, hended]
    · cases hj
      obtain ⟨hmobj, hmck⟩ := moved_on hwho (t4Land j.obj j.off b x)
      refine ⟨fun o hck ho hclean => ⟨{ o with mem := memWrite o.mem (j.off - b.length) b }, ?_, rfl⟩, fun c hck => ⟨?_, ?_⟩⟩
      · rw [withDigests_obj, hmobj]
        exact t4Land_mem (hfls ▸ hck) (hobj ▸ ho) hclean
      · intro i a
        unfold objByte
        rw [withDigests_obj, hmobj, (t4Land_ckpt (hfls ▸ hck)).1, hobj]
      · rw [withDigests_fls, hmck]
        exact (t4Land_ckpt (hfls ▸ hck)).2

theorem completes_t4RequestTimeout {r : Resv} (hup : halted s = false)
    (hr : s.fab.resv.find? (fun r => r.msg == msg && (r.kind == 0x20 || r.kind == 0x22)) = some r)
    (hlate : r.at_ + 100000000 ≤ s.aon.uptime) :
    Completes (.t4RequestTimeout msg) s fun t => t.fab.t4done.getLast? = some (msg, 0x0A01) := by
  have hp := List.find?_some hr
  simp only [Bool.and_eq_true, Bool.or_eq_true, beq_iff_eq] at hp
  obtain ⟨hmsg, hkind⟩ := hp
  refine completes_of_up hup rfl ?_
  rw [hr]
  dsimp only
  rw [if_neg (by rw [now]; omega)]
  refine ⟨_, rfl, ?_⟩
  unfold endResv
  dsimp only
  rw [if_neg (by omega), if_pos (by simpa using hkind), hmsg]
  exact List.getLast?_concat ..

/-! A sub-search that comes in (R112, R348). -/

theorem completes_subSearch_outside (hup : halted s = false) (hm : rxMsg s node msg [0x10] = some m) (hst : s.stew.st ≠ .service) :
    Completes (.subSearch node msg) s fun t => Acted node m s t ∧ AnswersStatus node m 0x0105 s t := by
  refine completes_of_up hup rfl ?_
  rw [hm]
  dsimp only
  rw [if_pos (by simpa using hst)]
  exact ⟨_, rfl, (taken_rxDone node m s).acted, (taken_rxDone node m s).answersStatus rfl⟩

theorem withLists_facts (s : State) (d : Bytes) (ls : List (Nat × Nat × Bytes)) (c : Cmd) :
    (withLists s d ls c).opcode = c.opcode ∧ (withLists s d ls c).peer = c.peer ∧ (withLists s d ls c).tenant = c.tenant ∧
    (withLists s d ls c).epoch = c.epoch ∧ (withLists s d ls c).ran = c.ran ∧ (withLists s d ls c).probe = ls ∧
    (withLists s d ls c).fan.isSome = true :=
  ⟨rfl, rfl, rfl, rfl, rfl, rfl, rfl⟩

/-- What enters takes the next number (R31). -/
theorem enterCmd_facts (c : Cmd) (rs : List Range) (s : State) : (enterCmd c rs [] s).hif.nextCmd = s.hif.nextCmd + 1 ∧
    ∃ held, cmdOf (enterCmd c rs [] s) s.hif.nextCmd = some { c with holds := held, pins := [] } := by
  unfold enterCmd
  exact ⟨rfl, _, tabGet_tabSet_same ..⟩

theorem completes_subSearch {d coll : Bytes} (hup : halted s = false) (hm : rxMsg s node msg [0x10] = some m)
    (hst : s.stew.st = .service) (hadm : admits s = true) (hleave : s.stew.leaving = none) (hwait : s.eng.waitFor = none)
    (h8 : bitOf (steerEntry s (m.tenant * 1024 + 0x20) s.eng.epoch) 8 = true)
    (h9 : bitOf (steerEntry s (m.tenant * 1024 + 0x20) s.eng.epoch) 9 = true)
    (hd : genSheaf (gen s) (steerEntry s (m.tenant * 1024 + 0x20) s.eng.epoch % 256) = some d)
    (hchk : firstBad (subChecks m.body) = none) (hshape : shapeOk 0x20 d = true)
    (hlo : (if fld m.body 8 8 = 0 then s.eng.epoch else fld m.body 8 8) ≤ s.eng.epoch)
    (hret : oldestRetained s ≤ (if fld m.body 8 8 = 0 then s.eng.epoch else fld m.body 8 8))
    (hroom : drainRoom s (subWaiter node m.id) (if fld m.body 8 8 = 0 then s.eng.epoch else fld m.body 8 8) = true)
    (hsearch : searchAdmit s m.tenant d (subEntry m.body) (if fld m.body 8 8 = 0 then s.eng.epoch else fld m.body 8 8) = none)
    (hcoll : collAt s (fld m.body 0 2) (if fld m.body 8 8 = 0 then s.eng.epoch else fld m.body 8 8) = some coll)
    (hfits : itemFits s d (subEntry m.body) (if fld m.body 8 8 = 0 then s.eng.epoch else fld m.body 8 8) = true)
    (hlists : listsBad s m.tenant d (subLists s m.body coll (if fld m.body 8 8 = 0 then s.eng.epoch else fld m.body 8 8)) = none) :
    Completes (.subSearch node msg) s fun t => Acted node m s t ∧ t.hif.nextCmd = s.hif.nextCmd + 1 ∧
      ∃ c, cmdOf t s.hif.nextCmd = some c ∧ c.opcode = 0x20 ∧ c.peer = some (node, msg) ∧ c.tenant = m.tenant ∧
        c.epoch = some (if fld m.body 8 8 = 0 then s.eng.epoch else fld m.body 8 8) ∧
        c.ran = true ∧ c.probe = subLists s m.body coll (if fld m.body 8 8 = 0 then s.eng.epoch else fld m.body 8 8) ∧
        c.fan.isSome = true := by
  refine completes_of_up hup rfl ?_
  rw [hm]
  dsimp only
  generalize (if fld m.body 8 8 = 0 then s.eng.epoch else fld m.body 8 8) = ep at hlo hret hroom hsearch hcoll hfits hlists ⊢
  rw [hd, Option.getD_some, hsearch, hcoll]
  rw [if_neg (by simp [hst]), if_neg (by rw [hadm, hleave, hwait]; decide), if_neg (by rw [h8, h9]; decide), hchk,
    if_neg (by decide), if_neg (by rw [hshape]; decide), if_neg (by omega), if_neg (by omega), if_neg (by rw [hroom]; decide)]
  dsimp only
  rw [if_neg (by rw [hfits]; decide), hlists]
  dsimp only
  generalize hls : subLists s m.body coll ep = ls
  generalize hc : withLists s coll ls _ = c
  obtain ⟨hop, hpeer, htenant, hepoch, hran, hprobe, hfan⟩ : c.opcode = 0x20 ∧ c.peer = some (node, msg) ∧ c.tenant = m.tenant ∧
      c.epoch = some ep ∧ c.ran = true ∧ c.probe = ls ∧ c.fan.isSome = true := hc ▸ withLists_facts ..
  generalize hy : searchDrops c (rxDone node m (endWaiter (subWaiter node m.id) s)) = y
  have hdrops : Effect [.idx] false (rxDone node m (endWaiter (subWaiter node m.id) s)) y := hy ▸ Effect.refl.searchDrops
  have hmsgs : y.fab.rxMsgs = s.fab.rxMsgs.erase (node, m) :=
    (congrArg Fab.rxMsgs (show y.fab = _ from hdrops.frame .fab (by decide))).trans (rxDone_rxMsgs ..)
  have hhif : y.hif = s.hif := hdrops.frame .hif (by decide)
  generalize hz : token 0x01 59 0 8 _ y = z
  have hzfab : z.fab = y.fab := by rw [← hz, token_fab]
  have hzhif : z.hif = s.hif := by rw [← hz, token_hif, hhif]
  have henter : Effect quiet false z (enterCmd c [] [] z) := Effect.refl.enterCmd
  obtain ⟨hnext, held, hcmd⟩ := enterCmd_facts c [] z
  rw [hzhif] at hnext hcmd
  refine ⟨_, rfl, ?_, hnext, _, hcmd, hop, hpeer, htenant, hepoch, hran, hprobe, hfan⟩
  exact (congrArg Fab.rxMsgs ((show (enterCmd c [] [] z).fab = z.fab from henter.frame .fab (by decide)).trans hzfab)).trans hmsgs

/-! What comes back of a search's sub-searches (R113, R349). -/

theorem cmdOf_modCmd_same (n : Nat) (f : Cmd → Cmd) (s : State) : cmdOf (modCmd n f s) n = (cmdOf s n).map f :=
  tabGet_tabMod_same ..

/-- The slot of a search is given back once nothing is owed; its fan stays as it is else (R349). -/
theorem closeFan_cmd {c : Cmd} {f : Fan} (hc : cmdOf s n = some c) (hf : c.fan = some f) :
    cmdOf (closeFan n s) n = some { c with fan := some (if f.owed = [] then { f with slot := false } else f) } := by
  unfold closeFan
  rw [hc, Option.bind_some, hf]
  dsimp only
  by_cases howed : f.owed = []
  · rw [if_pos howed]
    cases hslot : f.slot with
    | true =>
      rw [if_neg (by simp [howed])]
      refine (cmdOf_modCmd_same ..).trans ?_
      rw [hc, Option.map_some, hf]
      rfl
    | false =>
      rw [if_pos (by simp), hc]
      exact congrArg some (congrArg (fun g => { c with fan := g }) (hf.trans (congrArg some (by rw [← hslot]))))
  · rw [if_neg howed, if_pos (by simp [howed]), hc]
    exact congrArg some (congrArg (fun g => { c with fan := g }) hf)

theorem completes_subAnswer_late (hup : halted s = false) (hm : rxMsg s node msg [0x11] = some m)
    (hr : resvOf s node msg [0x10] = none) :
    Completes (.subAnswer node msg) s fun t => Acted node m s t ∧
      t.fab.late = s.fab.late + 1 ∧ Frame [.fab, .idx] s t ∧
      ∀ g, s.fab.gone.find? (fun g => g.1 == node && g.2.1 == msg) = some g →
        (tabGetD t.idx.cstats g.2.2 {}).late = (tabGetD s.idx.cstats g.2.2 {}).late + 1 := by
  refine completes_of_up hup rfl ?_
  rw [hm]
  dsimp only
  rw [show resvOf (rxDone node m s) node msg [0x10] = none from hr]
  obtain ⟨hacted, hlate, -⟩ := acted_lateAnswer node m s
  have hgone : (lateAnswer (rxDone node m s)).fab.gone = s.fab.gone := rfl
  have hidx : (lateAnswer (rxDone node m s)).idx = s.idx := rfl
  have heff : Effect [.fab, .idx] false s (lateAnswer (rxDone node m s)) := Effect.refl.rxDone.onFab
  change (lateAnswer (rxDone node m s)).fab.rxMsgs = _ at hacted
  change (lateAnswer (rxDone node m s)).fab.late = _ at hlate
  generalize lateAnswer (rxDone node m s) = x at hacted hlate hgone hidx heff ⊢
  refine ⟨_, rfl, ?_⟩
  unfold lateSub
  rw [hgone]
  cases hg : s.fab.gone.find? fun g => g.1 == node && g.2.1 == msg with
  | none => exact ⟨hacted, hlate, frame_withDigests.2 heff.frame, fun g h => nomatch h⟩
  | some g =>
    refine ⟨hacted, hlate, frame_withDigests.2 heff.onFab.onIdx.frame, fun g' h => ?_⟩
    cases h
    rw [← hidx, withDigests_idx]
    exact congrArg CStat.late (tabGetD_tabSet_same ..)

theorem cmdOf_congr (h : t.hif = s.hif) (n : Nat) : cmdOf t n = cmdOf s n := by
  rw [cmdOf, cmdOf, h]

/-- A change of a search's fan, which is closed if nothing is owed after it. -/
def fanStep (n : Nat) (g : Cmd → Fan → Fan) (s : State) : State :=
  closeFan n (modCmd n (fun c => { c with fan := c.fan.map (g c) }) s)

theorem cmdOf_fanStep {c : Cmd} {f : Fan} (g : Cmd → Fan → Fan) (hc : cmdOf s n = some c) (hf : c.fan = some f) :
    cmdOf (fanStep n g s) n = some { c with fan := some (if (g c f).owed = [] then { g c f with slot := false } else g c f) } := by
  have hmod : cmdOf (modCmd n (fun c => { c with fan := c.fan.map (g c) }) s) n = some { c with fan := some (g c f) } := by
    rw [cmdOf_modCmd_same, hc, Option.map_some, hf]
    rfl
  rw [fanStep, closeFan_cmd hmod rfl]

theorem fanStep_fab (n : Nat) (g : Cmd → Fan → Fan) (s : State) : (fanStep n g s).fab = s.fab :=
  (Effect.refl (ps := quiet) (w := false)).modCmd.closeFan.frame .fab (by decide)

section
variable {r : Resv} {c : Cmd} {f : Fan} (hup : halted s = false) (hm : rxMsg s node msg [0x11] = some m)
  (hr : resvOf s node msg [0x10] = some r) (hc : cmdOf s r.cmd = some c) (hf : c.fan = some f)
include hup hm hr hc hf

theorem completes_subAnswer (hgood : fld m.body 0 2 = 0) :
    Completes (.subAnswer node msg) s fun t => Acted node m s t ∧
      ∃ c' g, cmdOf t r.cmd = some c' ∧ c'.fan = some g ∧ c'.result = c.result ∧ g.owed = f.owed.filter (fun o => o.1 != node) ∧
        g.missing = f.missing + fld m.body 4 2 ∧ g.chaff = f.chaff + fld m.body 8 4 ∧
        g.lists = f.lists + (((f.owed.filter fun o => o.1 == node).map Prod.snd).sum - fld m.body 4 2) ∧
        g.mine = mergeParts true (metricOrder (((collAt s (fld c.entry 4 2) (cEpoch c)).map coMetric).getD 0)) (byteAt c.entry 6)
          [f.mine, answerPart node m.body] ∧ (f.owed.filter (fun o => o.1 != node) = [] → g.slot = false) := by
  refine completes_of_up hup rfl ?_
  rw [hm]
  dsimp only
  rw [show resvOf (rxDone node m s) node msg [0x10] = some r from hr]
  dsimp only
  rw [if_neg (by simp [hgood])]
  have hc' : cmdOf (dropResv msg (rxDone node m s)) r.cmd = some c := hc
  have hmsgs : (dropResv msg (rxDone node m s)).fab.rxMsgs = s.fab.rxMsgs.erase (node, m) := rxDone_rxMsgs ..
  have hcoll : collAt (dropResv msg (rxDone node m s)) (fld c.entry 4 2) (cEpoch c) = collAt s (fld c.entry 4 2) (cEpoch c) := rfl
  generalize dropResv msg (rxDone node m s) = x at hc' hmsgs hcoll ⊢
  rw [hc']
  dsimp only
  rw [hcoll]
  refine ⟨fanStep r.cmd (fun k f => { f with
      mine := mergeParts true (metricOrder (((collAt s (fld c.entry 4 2) (cEpoch c)).map coMetric).getD 0)) (byteAt k.entry 6)
        [f.mine, answerPart node m.body],
      chaff := f.chaff + fld m.body 8 4, missing := f.missing + fld m.body 4 2,
      lists := f.lists + (((f.owed.filter fun o => o.1 == node).map Prod.snd).sum - fld m.body 4 2),
      owed := f.owed.filter fun o => o.1 != node }) x, rfl, ?_, _, _, cmdOf_fanStep _ hc' hf, rfl, rfl, ?_⟩
  · rw [Acted, withDigests_fab, fanStep_fab, hmsgs]
  · split
    · exact ⟨rfl, rfl, rfl, rfl, rfl, fun _ => rfl⟩
    · next howed => exact ⟨rfl, rfl, rfl, rfl, rfl, fun h => absurd h howed⟩

theorem completes_subAnswer_refused (hbad : fld m.body 0 2 ≠ 0) :
    Completes (.subAnswer node msg) s fun t => Acted node m s t ∧
      ∃ c' g, cmdOf t r.cmd = some c' ∧ c'.fan = some g ∧ c'.result = c.result ∧ g.owed = f.owed.filter (fun o => o.1 != node) ∧
        g.missing = f.missing + ((f.owed.filter fun o => o.1 == node).map Prod.snd).sum ∧ g.mine = f.mine := by
  obtain ⟨hnode, -, hkind, -⟩ := resvOf_facts hr
  refine completes_of_up hup rfl ?_
  rw [hm]
  dsimp only
  rw [show resvOf (rxDone node m s) node msg [0x10] = some r from hr]
  dsimp only
  rw [if_pos (by simpa using hbad)]
  unfold endResv
  dsimp only
  rw [if_pos (by simpa using hkind), hnode]
  have hc' : cmdOf (dropResv r.msg (rxDone node m s)) r.cmd = some c := hc
  have hmsgs : (dropResv r.msg (rxDone node m s)).fab.rxMsgs = s.fab.rxMsgs.erase (node, m) := rxDone_rxMsgs ..
  generalize dropResv r.msg (rxDone node m s) = x at hc' hmsgs ⊢
  refine ⟨fanStep r.cmd (fun _ f => { f with
      missing := f.missing + ((f.owed.filter fun o => o.1 == node).map Prod.snd).sum
      owed := f.owed.filter fun o => o.1 != node }) x, rfl, ?_, _, _, cmdOf_fanStep _ hc' hf, rfl, rfl, ?_⟩
  · rw [Acted, withDigests_fab, fanStep_fab, hmsgs]
  · split
    · exact ⟨rfl, rfl, rfl⟩
    · exact ⟨rfl, rfl, rfl⟩

end

/-! A search whose owners have not answered in time (R113). -/

theorem foldl_dropResv (l : List Resv) (s : State) : ∀ x ∈ (l.foldl (fun s r => dropResv r.msg s) s).fab.resv,
    x ∈ s.fab.resv ∧ ∀ r ∈ l, x.msg ≠ r.msg := by
  induction l generalizing s with
  | nil => exact fun x hx => ⟨hx, fun _ h => nomatch h⟩
  | cons a l ih =>
    intro x hx
    obtain ⟨hmem, hne⟩ := ih _ x hx
    obtain ⟨hin, hmsg⟩ := List.mem_filter.1 (show x ∈ s.fab.resv.filter fun r => r.msg != a.msg from hmem)
    exact ⟨hin, List.forall_mem_cons.2 ⟨by simpa using hmsg, hne⟩⟩

theorem foldl_dropResv_gone (l : List Resv) (s : State) : (l.foldl (fun s r => dropResv r.msg s) s).fab.gone = s.fab.gone :=
  foldl_same (fun s : State => s.fab.gone) _ l s fun _ _ => rfl

theorem foldl_dropResv_hif (l : List Resv) (s : State) : (l.foldl (fun s r => dropResv r.msg s) s).hif = s.hif :=
  foldl_same (fun s : State => s.hif) _ l s fun _ _ => rfl

theorem completes_fanoutTimeout {c : Cmd} {f : Fan} (hup : halted s = false) (hc : cmdOf s n = some c) (hf : c.fan = some f)
    (howed : f.owed ≠ []) (hlate : f.deadline ≤ s.aon.uptime) :
    Completes (.fanoutTimeout n) s fun t => (∀ r ∈ t.fab.resv, ¬(r.kind = 0x10 ∧ r.cmd = n)) ∧
      (∀ r ∈ s.fab.resv, r.kind = 0x10 → r.cmd = n → (r.node, r.msg, fld c.entry 4 2) ∈ t.fab.gone) ∧
      ∃ c' g, cmdOf t n = some c' ∧ c'.fan = some g ∧ c'.result = c.result ∧ g.owed = [] ∧ g.slot = false ∧ g.mine = f.mine ∧
        g.missing = f.missing + (f.owed.map Prod.snd).sum := by
  have hempty : f.owed.isEmpty = false := by simpa using howed
  refine completes_of_up hup rfl ?_
  rw [hc]
  dsimp only
  rw [hf]
  dsimp only
  rw [if_neg (by rw [hempty, now]; simpa using hlate)]
  have htok : (timerToken 59 2 s).fab = s.fab ∧ (timerToken 59 2 s).hif = s.hif := by
    rw [timerToken]
    exact ⟨token_fab .., token_hif ..⟩
  obtain ⟨htfab, hthif⟩ := htok
  generalize timerToken 59 2 s = x at htfab hthif ⊢
  generalize hrs : (x.fab.resv.filter fun r => r.kind == 0x10 && r.cmd == n) = rs
  have hin (r : Resv) : r ∈ rs ↔ r ∈ s.fab.resv ∧ r.kind = 0x10 ∧ r.cmd = n := by
    rw [← hrs, htfab]
    simp [List.mem_filter]
  generalize hy : rs.foldl (fun s r => dropResv r.msg s) _ = y
  have hyhif : y.hif = s.hif := by rw [← hy, foldl_dropResv_hif, ← hthif]; rfl
  refine ⟨fanStep n (fun _ f => { f with missing := f.missing + (f.owed.map Prod.snd).sum, owed := [] }) y, rfl,
    fun r hr ⟨hk, hn⟩ => ?_, fun r hr hk hn => ?_, _, _, cmdOf_fanStep _ ((cmdOf_congr hyhif n).trans hc) hf, rfl, rfl, rfl, rfl, rfl, rfl⟩
  · rw [withDigests_fab, fanStep_fab, ← hy] at hr
    obtain ⟨hmem, hne⟩ := foldl_dropResv _ _ r hr
    exact hne r ((hin r).2 ⟨htfab ▸ hmem, hk, hn⟩) rfl
  · rw [withDigests_fab, fanStep_fab, ← hy, foldl_dropResv_gone]
    exact List.mem_append_right _ (List.mem_map.2 ⟨r, (hin r).2 ⟨hr, hk, hn⟩, rfl⟩)

end

/-- Settles O40: an answer ends the request it is for, one that nobody waits for is counted; a sub-search becomes a command of its
peer, and what comes back of one's own goes to the search's fan. -/
theorem answersAndSubSearchesEndRequests : Obligations.AnswersAndSubSearchesEndRequests :=
  ⟨⟨fun _ _ _ _ hup hm => ⟨completes_status_late hup hm, fun _ hr hused => completes_status hup hm hr hused⟩,
    fun _ _ _ _ hup hm => ⟨completes_t4Data_late hup hm, fun _ hr => completes_t4Data hup hm hr⟩,
    fun _ _ _ => completes_t4RequestTimeout⟩,
   ⟨fun _ _ _ _ hup hm => ⟨completes_subSearch_outside hup hm, fun _ _ hst hadm hleave hwait => completes_subSearch hup hm hst hadm hleave hwait⟩,
    fun _ _ _ _ hup hm => ⟨completes_subAnswer_late hup hm, fun _ _ _ hr hc hf =>
      ⟨completes_subAnswer hup hm hr hc hf, completes_subAnswer_refused hup hm hr hc hf⟩⟩,
    fun _ _ _ _ => completes_fanoutTimeout⟩⟩

end Sys2Proof.Proofs

/-! Errors of stored data, crossings and die links (R24, R371 to R377, R394, R415, R417). -/

namespace Sys2Proof.Proofs
open Sys2Proof Sys2Proof.Machine Sys2Proof.Safety

set_option Elab.async false

section
variable {s t u : State} {culm idx blkno unit loc n link x : Nat}

/-! Patrol reads of T1 (R371 to R373). -/

theorem corrected_ecc (key : Nat) (d : Det) (s : State) : tabGet (corrected key d s).stk.ecc key =
    some (s.aon.uptime :: (tabGetD s.stk.ecc key []).filter fun x => decide (s.aon.uptime < x + 3600 * 10 ^ 9)) := by
  unfold corrected
  extract_lets ts s1
  have h1 : tabGet s1.stk.ecc key = some ts := tabGet_tabSet_same ..
  split
  · exact h1
  · exact h1

section
variable (hup : halted s = false) (hidle : (culmOf s culm).queue = []) (hdown : domainDown s (culmIsland culm) = false)
include hup hidle hdown

theorem completes_patrol_clean : Completes (.t1PatrolRead culm idx blkno 0) s fun t =>
    t.stk = { s.stk with patrols := s.stk.patrols + 1 } ∧ Frame [.stk] s t := by
  refine completes_of_up hup rfl ?_
  rw [if_neg (by rw [hidle, hdown]; decide)]
  exact ⟨_, rfl, rfl, frame_withDigests.2 (Effect.refl (w := false)).onStk.frame⟩

theorem completes_patrol_corrected : Completes (.t1PatrolRead culm idx blkno 1) s fun t => SameBytes s t ∧ tabGet t.stk.ecc culm =
    some (s.aon.uptime :: (tabGetD s.stk.ecc culm []).filter fun x => decide (s.aon.uptime < x + 3600 * 10 ^ 9)) := by
  have heff : Effect [.stk, .rel] false s (corrected culm { unitKind := 3, island := culmIsland culm, unit := culm }
      (s.onStk fun m => { m with patrols := m.patrols + 1 })) := Effect.refl.onStk.corrected
  refine completes_of_up hup rfl ?_
  rw [if_neg (by rw [hidle, hdown]; decide)]
  exact ⟨_, rfl, heff.bytes rfl, corrected_ecc ..⟩

/-- A block that cannot be corrected is poison (R372). -/
theorem completes_patrol_poisons {o : ObjRec} (hn : 2 ≤ n) (ho : tabGet s.obj.recs idx = some o) (hclean : o.poison.contains blkno = false)
    (hin : 64 * blkno < o.size) : Completes (.t1PatrolRead culm idx blkno n) s fun t =>
      SameBytes s t ∧ tabGet t.obj.recs idx = some { o with poison := o.poison ++ [blkno] } ∧ Frame [.stk, .obj, .rel] s t := by
  refine completes_of_up hup rfl ?_
  dsimp only
  rw [if_neg (by rw [hidle, hdown]; decide), if_neg (by omega), if_neg (by omega),
    show tabGet (s.onStk fun m => { m with patrols := m.patrols + 1 }).obj.recs idx = some o from ho]
  dsimp only
  rw [if_neg (by rw [hclean, decide_eq_false (by omega)]; decide)]
  have heff : Effect [.stk, .obj, .rel] false s (detect
      { kind := 0, cause := 2, unitKind := 3, island := culmIsland culm, unit := culm, action := 3, location := 64 * blkno, handle := o.handle }
      (modObj idx (fun o => { o with poison := o.poison ++ [blkno] }) (s.onStk fun m => { m with patrols := m.patrols + 1 }))) :=
    Effect.refl.onStk.modObj.detect
  refine ⟨_, rfl, ?_, ?_, ?_⟩
  · exact heff.bytes rfl
  · refine (tabGet_modObj_same idx (fun o => { o with poison := o.poison ++ [blkno] }) (s.onStk fun m => { m with patrols := m.patrols + 1 })).trans ?_
    rw [show tabGet (s.onStk fun m => { m with patrols := m.patrols + 1 }).obj.recs idx = some o from ho]
    rfl
  · exact frame_withDigests.2 heff.frame

end

/-! Tiles and culms that are taken out (R375, R376). -/

/-- What is retired or absent, and which slot each tile stands on, is as it was. -/
def SameTiles (s t : State) : Prop :=
  t.shv.retired = s.shv.retired ∧ t.shv.absent = s.shv.absent ∧ t.shv.slotOf = s.shv.slotOf

theorem SameTiles.trans (h : SameTiles s t) (g : SameTiles t u) : SameTiles s u :=
  ⟨g.1.trans h.1, g.2.1.trans h.2.1, g.2.2.trans h.2.2⟩

theorem SameTiles.of_shv (h : t.shv = s.shv) : SameTiles s t := by
  rw [SameTiles, h]
  exact ⟨rfl, rfl, rfl⟩

theorem SameTiles.foldl {α : Type} {f : State → α → State} (hf : ∀ s a, SameTiles s (f s a)) (l : List α) (s : State) :
    SameTiles s (l.foldl f s) := by
  induction l generalizing s with
  | nil => exact ⟨rfl, rfl, rfl⟩
  | cons a l ih => exact (hf s a).trans (ih _)

theorem sameTiles_stopRun (kind grp unit : Nat) (s : State) : SameTiles s (stopRun kind grp unit s) := by
  refine SameTiles.foldl (fun s x => ?_) _ s
  extract_lets same s1 s2
  split
  · exact ⟨rfl, rfl, rfl⟩
  · have h1 : SameTiles s s1 := by
      simp only [s1]
      split <;> exact ⟨rfl, rfl, rfl⟩
    exact h1.trans ⟨rfl, rfl, rfl⟩

theorem sameTiles_takeOut (kind unit : Nat) (s : State) : SameTiles s (takeOut kind unit s) := by
  unfold takeOut
  split
  · exact ⟨rfl, rfl, rfl⟩
  · split <;> exact ⟨rfl, rfl, rfl⟩

theorem sameTiles_startRuns (s : State) : SameTiles s (startRuns s) := by
  refine SameTiles.foldl (fun s x => ?_) _ s
  split
  · exact ⟨rfl, rfl, rfl⟩
  · split
    · exact ⟨rfl, rfl, rfl⟩
    · exact SameTiles.trans ⟨rfl, rfl, rfl⟩ (sameTiles_takeOut ..)

theorem sameTiles_dealAgain (t : Nat) (s : State) : SameTiles s (dealAgain t s) := by
  refine SameTiles.foldl (fun s p => ?_) _ s
  extract_lets sh i k
  refine SameTiles.foldl (fun s x => ?_) _ s
  extract_lets d e lane key s1
  have h1 : SameTiles s s1 := ⟨rfl, rfl, rfl⟩
  split
  · exact ⟨rfl, rfl, rfl⟩
  · split
    · exact h1
    · exact h1.trans ⟨rfl, rfl, rfl⟩

theorem emptyT0_shv (t : Nat) (s : State) : (emptyT0 t s).shv = s.shv :=
  (Effect.refl (ps := [.obj, .fls, .fab, .recd]) (w := true)).emptyT0.frame .shv (by decide)

theorem dropT0_shv (t : Nat) (s : State) : (dropT0 t s).shv = s.shv :=
  (Effect.refl (ps := [.obj]) (w := true)).dropT0.frame .shv (by decide)

theorem sameTiles_dropDealt (t : Nat) (s : State) : SameTiles s (dropT0 t (dealAgain t s)) :=
  (sameTiles_dealAgain ..).trans (.of_shv (dropT0_shv ..))

/-- Before a tile is retired, what was in its memory and what it ran is lost (R375). -/
theorem lostTile_parts (unit loc : Nat) (s : State) :
    (loseT0 unit loc (poisonRunning unit s)).shv = s.shv ∧ (loseT0 unit loc (poisonRunning unit s)).rel = s.rel := by
  have heff : Effect [.hif, .obj] false s (loseT0 unit loc (poisonRunning unit s)) := Effect.refl.poisonRunning.loseT0
  exact ⟨heff.frame .shv (by decide), heff.frame .rel (by decide)⟩

/-- Where no run of the thresher is under way, none is stopped. -/
theorem stopRun_of_idle {kind grp unit : Nat} (hidle : ∀ x ∈ s.rel.runs, x.st ≠ .running) : stopRun kind grp unit s = s := by
  unfold stopRun
  generalize s.rel.runs = l at hidle
  induction l with
  | nil => rfl
  | cons x l ih =>
    have hx : (x.st == .running) = false := by simpa using hidle x List.mem_cons_self
    rw [List.foldl_cons]
    dsimp only
    rw [hx, Bool.false_and, Bool.false_and, Bool.false_and, if_pos (by decide)]
    exact ih fun y hy => hidle y (List.mem_cons_of_mem x hy)

/-- A retired tile: its slot is among the retired ones; it swaps to the spare slot where the tiller is free, and is absent
where it stood on the spare slot itself (R375). -/
theorem retireTile_facts (unit : Nat) (d : Det) (s : State) :
    (unit / 16, tileSlot s unit) ∈ (retireTile unit d s).shv.retired ∧
    (tileSlot s unit = 16 → unit ∈ (retireTile unit d s).shv.absent) ∧
    ((∀ x ∈ s.rel.runs, x.st ≠ .running) → tillerFree s (unit / 16) = true → tileSlot s unit ≠ 16 →
      tabGet (retireTile unit d s).shv.swapping unit = some 16) := by
  unfold retireTile
  extract_lets cl phys s1 free s2 d1
  have hs1 : SameTiles s s1 := sameTiles_stopRun ..
  have hs2 : s2.shv = { s1.shv with retired := s1.shv.retired ++ [(cl, phys)] } := (emptyT0_shv ..).trans rfl
  have hphys : phys = tileSlot s unit := rfl
  refine ⟨?_, fun hslot => ?_, fun hidle hfree hslot => ?_⟩
  · rw [← hphys]
    have hin : (cl, phys) ∈ s2.shv.retired := by
      rw [hs2]
      exact List.mem_append_right _ List.mem_cons_self
    split
    · exact hin
    · have hkept := sameTiles_dropDealt unit (s2.onShv fun v => { v with absent := v.absent ++ [unit], swapping := tabDel v.swapping unit })
      exact (congrArg (fun l => (cl, phys) ∈ l) hkept.1).mpr hin
  · have hnot : (free && phys != 16) = false := by
      rw [hphys, hslot]
      simp
    rw [hnot, if_neg Bool.false_ne_true]
    have hkept := sameTiles_dropDealt unit (s2.onShv fun v => { v with absent := v.absent ++ [unit], swapping := tabDel v.swapping unit })
    exact (congrArg (fun l => unit ∈ l) hkept.2.1).mpr (List.mem_append_right _ List.mem_cons_self)
  · have hstop : s1 = s := stopRun_of_idle hidle
    have hyes : (free && phys != 16) = true := by
      simp only [free, hstop, cl, hfree, Bool.true_or, hphys]
      simpa using hslot
    rw [hyes, if_pos rfl]
    exact tabGet_tabSet_same ..

/-- A spare slot that swaps stays so as runs of the thresher start: none starts on its cluster's tiles (R381). -/
theorem startRuns_swapping (h : tabGet s.shv.swapping unit = some 16) : tabGet (startRuns s).shv.swapping unit = some 16 := by
  unfold startRuns
  refine List.foldlRecOn (motive := fun s : State => tabGet s.shv.swapping unit = some 16) _ _ h fun s hs x _ => ?_
  split
  · exact hs
  · split
    · exact hs
    · next htake =>
      unfold takeOut
      split
      · next hkind =>
        have hne : unit ≠ x.unit := by
          rintro rfl
          simp [canTake, hkind, hs] at htake
        exact (tabGet_tabSet_other _ _ _ _ hne).trans hs
      · split
        · exact hs
        · exact hs

theorem completes_sram_tile (hup : halted s = false) (hunit : unit < 512) (hlive : s.shv.absent.contains unit = false) :
    Completes (.sramUncorrectable 0 unit loc) s fun t =>
      (unit / 16, tileSlot s unit) ∈ t.shv.retired ∧
      ((∀ x ∈ s.rel.runs, x.st ≠ .running) → tillerFree s (unit / 16) = true → tileSlot s unit ≠ 16 →
        tabGet t.shv.swapping unit = some 16) ∧
      (tileSlot s unit = 16 → unit ∈ t.shv.absent) := by
  refine completes_of_up hup rfl ?_
  dsimp only
  rw [if_pos rfl, if_neg (by rw [hlive, decide_eq_false (by omega)]; decide)]
  obtain ⟨hshv, hrel⟩ := lostTile_parts unit loc s
  generalize loseT0 unit loc (poisonRunning unit s) = x at hshv hrel ⊢
  have hslot : tileSlot x unit = tileSlot s unit := by rw [tileSlot, tileSlot, hshv]
  have hfree : tillerFree x (unit / 16) = tillerFree s (unit / 16) := by rw [tillerFree, tillerFree, hshv]
  obtain ⟨hret, habs, hswap⟩ := retireTile_facts unit { kind := 0, cause := 3, location := loc } x
  rw [hslot] at hret habs hswap
  rw [hfree, hrel] at hswap
  have hkept := sameTiles_startRuns (retireTile unit { kind := 0, cause := 3, location := loc } x)
  refine ⟨_, rfl, ?_, fun h1 h2 h3 => startRuns_swapping (hswap h1 h2 h3), fun h => ?_⟩
  · rw [withDigests_shv, hkept.1]
    exact hret
  · rw [withDigests_shv, hkept.2.1]
    exact habs h

/-! Culms. -/

theorem culmOf_modCulm_same (k : Nat) (f : Culm → Culm) (s : State) : culmOf (modCulm k f s) k = f (culmOf s k) :=
  tabGetD_tabSet_same ..

theorem culmOf_modCulm_other {j k : Nat} (f : Culm → Culm) (s : State) (h : j ≠ k) : culmOf (modCulm k f s) j = culmOf s j :=
  tabGetD_tabSet_other _ _ _ h

theorem culmOf_congr (h : t.stk = s.stk) (k : Nat) : culmOf t k = culmOf s k := by
  rw [culmOf, culmOf, h]

/-- A run that is stopped leaves the culm that fails, and the list of bad ones, as they are. -/
theorem stopRun_culm (grp unit : Nat) (s : State) :
    culmOf (stopRun 1 grp unit s) unit = culmOf s unit ∧ (stopRun 1 grp unit s).stk.badCulms = s.stk.badCulms := by
  unfold stopRun
  refine List.foldlRecOn (motive := fun t => culmOf t unit = culmOf s unit ∧ t.stk.badCulms = s.stk.badCulms) _ _ ⟨rfl, rfl⟩
    fun t ht x _ => ?_
  extract_lets same s1 s2
  split
  · exact ht
  · next hsame =>
    have hne : unit ≠ x.unit := by
      rintro rfl
      simp [same] at hsame
    have h1 : culmOf s1 unit = culmOf t unit ∧ s1.stk.badCulms = t.stk.badCulms := by
      simp only [s1]
      rw [if_neg (by decide)]
      exact ⟨culmOf_modCulm_other _ _ hne, rfl⟩
    have h2 : s2.stk = s1.stk := rfl
    have h3 (t' c d e : Nat) (b : Bytes) (y : State) : (commandDone t' 0x0501 c d e b y).stk = y.stk :=
      (Effect.refl (ps := [.stew]) (w := false)).commandDone.frame .stk (by decide)
    exact ⟨((culmOf_congr ((h3 ..).trans h2) unit).trans h1.1).trans ht.1,
      ((congrArg Mem_.badCulms ((h3 ..).trans h2)).trans h1.2).trans ht.2⟩

/-- A culm that is held stays so as runs of the thresher start. -/
theorem startRuns_culm (h : (culmOf s unit).held = true) :
    (culmOf (startRuns s) unit).held = true ∧ (startRuns s).stk.badCulms = s.stk.badCulms := by
  unfold startRuns
  refine List.foldlRecOn (motive := fun t => (culmOf t unit).held = true ∧ t.stk.badCulms = s.stk.badCulms) _ _ ⟨h, rfl⟩
    fun t ht x _ => ?_
  split
  · exact ht
  · split
    · exact ht
    · unfold takeOut
      split
      · exact ht
      · split
        · refine ⟨?_, ht.2⟩
          by_cases hx : unit = x.unit
          · rw [hx, culmOf_modCulm_same]
          · rw [culmOf_modCulm_other _ _ hx]
            exact ht.1
        · exact ht

/-- A retired culm is bad and held (R375). -/
theorem retireCulm_facts (k : Nat) (d : Det) (s : State) :
    (k % 8, (culmOf s k).phys) ∈ (retireCulm k d s).stk.badCulms ∧ (culmOf (retireCulm k d s) k).held = true := by
  obtain ⟨-, hbad⟩ := stopRun_culm (k % 8) k s
  unfold retireCulm
  extract_lets phys s1 left s2
  have hstk (d : Det) (x : State) : (detect d x).stk = x.stk :=
    (Effect.refl (ps := [.rel]) (w := false)).detect.frame .stk (by decide)
  refine ⟨?_, ?_⟩
  · rw [hstk]
    exact List.mem_append_right _ List.mem_cons_self
  · rw [culmOf_congr (hstk ..), culmOf_modCulm_same]

theorem completes_sram_culm (hup : halted s = false) (hunit : unit < 512) :
    Completes (.sramUncorrectable 1 unit loc) s fun t =>
      (unit % 8, (culmOf s unit).phys) ∈ t.stk.badCulms ∧ (culmOf t unit).held = true := by
  refine completes_of_up hup rfl ?_
  dsimp only
  rw [if_neg (by decide), if_pos rfl, if_neg (by omega)]
  have hpoison (o : COp) : (poisonOp o s).stk = s.stk := (Effect.refl (ps := [.hif]) (w := false)).poisonOp.frame .stk (by decide)
  have hretire (x : State) (hx : x.stk = s.stk) : (unit % 8, (culmOf s unit).phys) ∈
      (startRuns (retireCulm unit { kind := 0, cause := 3, location := loc } x)).stk.badCulms ∧
      (culmOf (startRuns (retireCulm unit { kind := 0, cause := 3, location := loc } x)) unit).held = true := by
    obtain ⟨hbad, hheld⟩ := retireCulm_facts unit { kind := 0, cause := 3, location := loc } x
    obtain ⟨hheld', hbad'⟩ := startRuns_culm hheld
    exact ⟨hbad' ▸ culmOf_congr hx unit ▸ hbad, hheld'⟩
  split
  · exact ⟨_, rfl, hretire _ (hpoison _)⟩
  · exact ⟨_, rfl, hretire _ rfl⟩

/-! Other memories, and the steward's cores (R376, R377). -/

/-- A detection that is noted is the last of the queue, with the place and time of the node (R384). -/
theorem detect_mem (d : Det) {s : State} (h : s.rel.detq.length < 1024) : ∃ x ∈ (detect d s).rel.detq,
    x.kind = d.kind ∧ x.cause = d.cause ∧ x.unitKind = d.unitKind ∧ x.unit = d.unit ∧ x.island = d.island ∧ x.location = d.location ∧
    x.run = d.run ∧ x.pattern = d.pattern ∧ x.iteration = d.iteration ∧ x.expected = d.expected ∧ x.observed = d.observed := by
  have hq : (detect d s).rel.detq = s.rel.detq ++ [{ d with
      boot := s.stew.boot, uptime := s.aon.uptime, epoch := s.eng.epoch
      gen := s.stew.cur.number, profile := genProfile s.stew.cur, node := genNode s.stew.cur }] := by
    show (if s.rel.detq.length < 1024 then _ else _ : Rel).detq = _
    rw [if_pos h]
  rw [hq]
  exact ⟨_, List.mem_append_right _ (List.mem_singleton_self _), rfl, rfl, rfl, rfl, rfl, rfl, rfl, rfl, rfl, rfl, rfl⟩

theorem completes_sram_stage (hup : halted s = false) (hroom : s.rel.detq.length < 1024) :
    Completes (.sramUncorrectable 2 unit loc) s fun t => ∃ d ∈ t.rel.detq, d.cause = 3 ∧ d.island = 34 ∧ d.location = loc := by
  refine completes_of_up hup rfl ?_
  dsimp only
  rw [if_neg (by decide), if_neg (by decide), if_pos rfl]
  generalize hx : (s.shv.slots.filter fun x => x.engine == unit).foldl _ s = x
  have hrel : x.rel = s.rel := by
    rw [← hx]
    refine foldl_same (fun s : State => s.rel) _ _ s fun s y => ?_
    split
    · split <;> rfl
    · rfl
  obtain ⟨d, hd, -, h1, -, -, h2, h3, -⟩ := detect_mem
    { kind := 0, cause := 3, location := loc, unitKind := 9, island := 34, unit := 0, action := 3 } (hrel ▸ hroom : x.rel.detq.length < 1024)
  exact ⟨_, rfl, d, hd, h1, h2, h3⟩

/-- A detection with the first cause latched, before the node becomes viral, leaves the causes and the host's reports. -/
theorem latched_facts (d : Det) (cause island : Nat) (s : State) :
    (detect d (latchGasp cause island s)).aon.viral = s.aon.viral ∧ (detect d (latchGasp cause island s)).hif = s.hif := by
  have h : (latchGasp cause island s).aon.viral = s.aon.viral ∧ (latchGasp cause island s).hif = s.hif := by
    unfold latchGasp
    split <;> exact ⟨rfl, rfl⟩
  exact h

/-- A node that becomes viral from a latched cause is in FAULT and reports it to the host (R309, R376). -/
theorem viral_facts {d : Det} {cause island : Nat} (h : s.aon.viral = false) :
    let t := raiseViral (detect d (latchGasp cause island s))
    t.aon.viral = true ∧ t.stew.st = .fault ∧ t.aon.faultCause.getLsbD 3 = true ∧ t.hif.aer = s.hif.aer + 1 := by
  obtain ⟨hv, hh⟩ := latched_facts d cause island s
  obtain ⟨h1, h2, h3, h4⟩ := raiseViral_facts (hv.trans h)
  exact ⟨h1, h2, h3 ▸ getLsbD_withBit_same _ (by decide), h4.trans (congrArg (fun x : Hif => x.aer + 1) hh)⟩

theorem completes_sram_table (hup : halted s = false) (hviral : s.aon.viral = false) :
    Completes (.sramUncorrectable 3 unit loc) s fun t =>
      t.aon.viral = true ∧ t.stew.st = .fault ∧ t.aon.faultCause.getLsbD 3 = true ∧ t.hif.aer = s.hif.aer + 1 := by
  refine completes_of_up hup rfl ?_
  dsimp only
  rw [if_neg (by decide), if_neg (by decide), if_neg (by decide), if_pos rfl]
  exact ⟨_, rfl, viral_facts hviral⟩

theorem completes_lockstepDisagreement (hup : halted s = false) (hviral : s.aon.viral = false) :
    Completes .lockstepDisagreement s fun t =>
      t.aon.viral = true ∧ t.stew.st = .fault ∧ t.aon.faultCause.getLsbD 3 = true ∧ t.hif.aer = s.hif.aer + 1 :=
  completes_of_up hup rfl ⟨_, rfl, viral_facts hviral⟩

/-! Crossings and die links (R24, R374, R394, R415, R417). -/

theorem completes_crossingLaneSwitch (hup : halted s = false) (hreq : s.rel.laneReq.contains x = true) :
    Completes (.crossingLaneSwitch x) s fun t => tabGetD t.rel.lanes x 0 = 1 - tabGetD s.rel.lanes x 0 ∧
      t.rel.laneReq.contains x = false ∧ ∀ y, y ≠ x → tabGetD t.rel.lanes y 0 = tabGetD s.rel.lanes y 0 := by
  refine completes_of_up hup rfl ?_
  rw [if_neg (by rw [hreq]; decide)]
  refine ⟨_, rfl, tabGetD_tabSet_same .., ?_, fun y hy => tabGetD_tabSet_other _ _ _ hy⟩
  show (s.rel.laneReq.filter (· != x)).contains x = false
  simp

theorem completes_crossingResync {i j : Nat} (hup : halted s = false) (hi : domainDown s i = false) (hj : domainDown s j = false) :
    Completes (.crossingResync i j) s fun t => t.aon = { s.aon with notReady := t.aon.notReady } ∧ Frame [.aon] s t ∧
      ∀ k, k ∈ t.aon.notReady ↔ k ∈ s.aon.notReady ∧ k ≠ (min i j, max i j) := by
  refine completes_of_up hup rfl ?_
  dsimp only
  rw [if_neg (by rw [hi, hj]; decide)]
  refine ⟨_, rfl, rfl, frame_withDigests.2 (Effect.refl (w := false)).onAon.frame, fun k => ?_⟩
  show k ∈ s.aon.notReady.filter (· != (min i j, max i j)) ↔ _
  simp [List.mem_filter]

/-- A node that becomes viral keeps what it latched, its queues stopped, its links and its detections. -/
theorem raiseViral_keeps (s : State) : (raiseViral s).aon.viral = true ∧ (raiseViral s).aon.gasp = s.aon.gasp ∧
    (∀ i, s.aon.faultCause.getLsbD i = true → (raiseViral s).aon.faultCause.getLsbD i = true) ∧
    (raiseViral s).hif.stopped = s.hif.stopped ∧ (s.stew.st = .fault → (raiseViral s).stew.st = .fault) ∧
    (raiseViral s).rel.linksDown = s.rel.linksDown ∧ (raiseViral s).rel.detq = s.rel.detq := by
  cases hv : s.aon.viral with
  | true =>
    rw [raiseViral, if_pos hv]
    exact ⟨hv, rfl, fun _ => id, rfl, id, rfl, rfl⟩
  | false =>
    obtain ⟨h1, h2, h3, -⟩ := raiseViral_facts hv
    refine ⟨h1, ?_, fun i hi => ?_, ?_, fun _ => h2, ?_, ?_⟩
    · rw [raiseViral, if_neg (by simp [hv])]
      exact (congrArg Aon.gasp (raiseCause_aon Cause.viral (s.onAon fun a => { a with viral := true }))).trans rfl
    · rw [h3]
      exact getLsbD_withBit_of 3 hi
    · rw [raiseViral, if_neg (by simp [hv])]
      rfl
    · rw [raiseViral, if_neg (by simp [hv])]
      rfl
    · rw [raiseViral, if_neg (by simp [hv])]
      rfl

theorem latchGasp_odd (cause island : Nat) (s : State) : (latchGasp cause island s).aon.gasp.toNat % 2 = 1 := by
  unfold latchGasp
  split
  · assumption
  · show (BitVec.ofNat 64 _).toNat % 2 = 1
    rw [BitVec.toNat_ofNat]
    omega

/-- A fatal cause latches the first gasp and is noted as a detection (R309, R433). -/
theorem fatal_rel (bit : Nat) (d : Det) (s : State) : (fatal bit d s).aon.gasp.toNat % 2 = 1 ∧
    (fatal bit d s).rel.linksDown = s.rel.linksDown ∧
    (s.rel.detq.length < 1024 → ∃ x ∈ (fatal bit d s).rel.detq, x.cause = d.cause ∧ x.unitKind = d.unitKind ∧ x.unit = d.unit) := by
  have hgasp := latchGasp_odd d.cause d.island s
  have hrel : (latchGasp d.cause d.island s).rel = s.rel := by
    unfold latchGasp
    split <;> rfl
  refine ⟨?_, ?_, fun h => ?_⟩
  · rw [fatal, raiseCause_aon]
    exact hgasp
  · show (detect d (latchGasp d.cause d.island s)).rel.linksDown = _
    show (if (latchGasp d.cause d.island s).rel.detq.length < 1024 then _ else _ : Rel).linksDown = _
    rw [hrel]
    split <;> rfl
  · obtain ⟨x, hx, -, h1, h2, h3, -⟩ := detect_mem d (hrel ▸ h : (latchGasp d.cause d.island s).rel.detq.length < 1024)
    exact ⟨x, hx, h1, h2, h3⟩

section
variable (hup : halted s = false) (hlink : link < 3)
include hup hlink

theorem completes_dieLinkCrcRetry : Completes (.dieLinkCrcRetry link) s fun t =>
    tabGetD t.rel.linkRetry link 0 = tabGetD s.rel.linkRetry link 0 + 1 := by
  refine completes_of_up hup rfl ?_
  rw [if_neg (by omega)]
  exact ⟨_, rfl, tabGetD_tabSet_same ..⟩

theorem completes_dieLinkRetriesExhausted {c : Cmd} (hc : cmdOf s n = some c) : Completes (.dieLinkRetriesExhausted link n) s fun t =>
    cmdOf t n = some { c with viol := if c.viol = 0 then 0x0701 else c.viol } ∧ t.rel.linkPoison = s.rel.linkPoison ++ [link] ∧
    Frame [.hif, .rel] s t := by
  have hstart (f : Rel → Rel) : cmdOf (modCmd n (fun c => { c with viol := if c.viol = 0 then St.poison else c.viol }) (s.onRel f)) n =
      some { c with viol := if c.viol = 0 then 0x0701 else c.viol } := by
    rw [cmdOf_modCmd_same, show cmdOf (s.onRel f) n = some c from hc]
    rfl
  have hpoison (d : Det) (x : State) : (detect d x).rel.linkPoison = x.rel.linkPoison := by
    show (if x.rel.detq.length < 1024 then _ else _ : Rel).linkPoison = _
    split <;> rfl
  refine completes_of_up hup rfl ?_
  dsimp only
  rw [if_neg (by omega)]
  refine ⟨_, rfl, hstart _, ?_, frame_withDigests.2 ?_⟩
  · rw [withDigests_rel, hpoison]
    rfl
  · exact (Effect.refl (w := false)).onRel.modCmd.detect.frame

theorem completes_dieLinkDown (hlive : s.rel.linksDown.contains link = false) : Completes (.dieLinkDown link) s fun t =>
    t.hif.stopped = true ∧ t.stew.st = .fault ∧
      t.aon.faultCause.getLsbD 0 = true ∧ t.aon.viral = true ∧ (s.aon.gasp.toNat % 2 = 0 → t.aon.gasp.toNat % 2 = 1) ∧
      t.rel.linksDown = s.rel.linksDown ++ [link] ∧
      (s.rel.detq.length < 1024 → ∃ d ∈ t.rel.detq, d.cause = 6 ∧ d.unitKind = 6 ∧ d.unit = link) := by
  refine completes_of_up hup rfl ?_
  dsimp only
  rw [if_neg (by rw [hlive, decide_eq_false (by omega)]; decide)]
  obtain ⟨hcause, -, -⟩ := fatal_facts Cause.dieLink { kind := 0, cause := 6, unitKind := 6, island := linkIsland link, unit := link, action := 0 } s
  obtain ⟨hgasp, hdown, hdet⟩ := fatal_rel Cause.dieLink { kind := 0, cause := 6, unitKind := 6, island := linkIsland link, unit := link, action := 0 } s
  generalize fatal Cause.dieLink _ s = f at hcause hgasp hdown hdet ⊢
  obtain ⟨hviral, hg, hbits, hstop, hst, hlinks, hdq⟩ :=
    raiseViral_keeps ((f.onHif fun h => { h with stopped := true }).onStew fun w => { w with st := .fault })
  refine ⟨_, rfl, hstop, hst rfl, ?_, hviral, fun _ => ?_, ?_, fun hroom => ?_⟩
  · refine hbits 0 ?_
    show f.aon.faultCause.getLsbD 0 = true
    rw [hcause]
    exact getLsbD_withBit_same _ (by decide)
  · exact (congrArg (fun g : BitVec 64 => g.toNat % 2) hg).trans hgasp
  · exact congrArg (· ++ [link]) (hlinks.trans hdown)
  · obtain ⟨d, hd, h1, h2, h3⟩ := hdet hroom
    refine ⟨d, ?_, h1, h2, h3⟩
    exact (congrArg (fun l => d ∈ l) hdq).mpr hd

end

end

/-- Settles O42: patrol reads, memories that fail, the crossings and the die links. -/
theorem storedErrorsCrossingsAndDieLinks : Obligations.StoredErrorsCrossingsAndDieLinks := by
  refine ⟨⟨fun _ _ _ _ hup hidle hdown => ⟨completes_patrol_clean hup hidle hdown, completes_patrol_corrected hup hidle hdown,
    fun _ _ hn ho hclean hin => completes_patrol_poisons hup hidle hdown hn ho hclean hin⟩,
    fun _ _ _ hup hunit => ⟨completes_sram_tile hup hunit, completes_sram_culm hup hunit⟩,
    fun _ _ _ hup => ⟨completes_sram_stage hup, completes_sram_table hup⟩, fun _ => completes_lockstepDisagreement⟩,
    fun _ _ hup hreq => ?_, fun _ _ _ => completes_crossingResync, fun _ _ hup hlink => ⟨?_, fun _ _ =>
      completes_dieLinkRetriesExhausted hup hlink, fun hlive => ?_⟩⟩
  · exact completes_within (completes_crossingLaneSwitch hup hreq) fun _ heff ⟨h1, h2, h3⟩ => ⟨h1, h2, h3, heff.frame⟩
  · exact completes_within (completes_dieLinkCrcRetry hup hlink) fun _ heff h => ⟨h, heff.frame⟩
  · exact completes_within (completes_dieLinkDown hup hlink hlive)
      fun _ heff ⟨h1, h2, h3, h4, h5, h6, h7⟩ => ⟨h1, h2, h3, h4, h5, h6, h7, heff.frame⟩

end Sys2Proof.Proofs

/-! Signature records and the event log (R384, R388 to R392). -/

namespace Sys2Proof.Proofs
open Sys2Proof Sys2Proof.Machine Sys2Proof.Safety

set_option Elab.async false

section
variable {s t u : State} {box : Nat} {m : Bytes}

/-! What is sent leaves the detections and the signature store as they are. -/

/-- Two states of the reliability unit have the same detections and signature records. -/
def SameSigs (x y : Rel) : Prop := y.detq = x.detq ∧ y.nextSig = x.nextSig ∧ y.sigs = x.sigs ∧ y.sigUnread = x.sigUnread

theorem SameSigs.refl (x : Rel) : SameSigs x x := ⟨rfl, rfl, rfl, rfl⟩

theorem SameSigs.trans {x y z : Rel} (h : SameSigs x y) (g : SameSigs y z) : SameSigs x z :=
  ⟨g.1.trans h.1, g.2.1.trans h.2.1, g.2.2.1.trans h.2.2.1, g.2.2.2.trans h.2.2.2⟩

theorem SameSigs.of_eq {x y : Rel} (h : y = x) : SameSigs x y := h ▸ .refl x

theorem SameSigs.ite {c : Prop} [Decidable c] {x : Rel} (h : SameSigs x t.rel) (g : SameSigs x u.rel) :
    SameSigs x (if c then t else u).rel := by
  split
  · exact h
  · exact g

theorem sameSigs_foldl {α : Type} {f : State → α → State} (hf : ∀ s a, SameSigs s.rel (f s a).rel) (l : List α) (s : State) :
    SameSigs s.rel (l.foldl f s).rel := by
  induction l generalizing s with
  | nil => exact .refl _
  | cons a l ih => exact (hf s a).trans (ih _)

theorem sameSigs_logEv (ev src sev : Nat) (body : Bytes) (s : State) : SameSigs s.rel (logEv ev src sev body s).rel := .refl _

theorem sameSigs_sendMsg (m : Msg) (s : State) : SameSigs s.rel (sendMsg m s).rel := by
  unfold sendMsg
  refine .ite (.of_eq ?_) (.ite (sameSigs_logEv ..) (.refl _))
  exact (Effect.refl (ps := [.fab, .recd]) (w := false)).sendHello.queueMsg.frame .rel (by decide)

theorem sameSigs_sendRequestFor (m : Msg) (answer cmd : Nat) (job : Option T4Job) (s : State) :
    SameSigs s.rel (sendRequestFor m answer cmd job s).2.rel := by
  unfold sendRequestFor
  extract_lets id s1
  have h1 : SameSigs s.rel s1.rel := .refl _
  exact h1.trans (sameSigs_sendMsg ..)

theorem sameSigs_telemPump (s : State) : SameSigs s.rel (telemPump s).rel := by
  unfold telemPump
  extract_lets dst
  refine .ite (.refl _) (sameSigs_foldl (fun s t => .ite (.refl _) ?_) _ s)
  exact sameSigs_sendRequestFor ..

theorem sameSigs_sendTelem (kind : Nat) (item : Bytes) (s : State) : SameSigs s.rel (sendTelem kind item s).rel := by
  unfold sendTelem
  have h : SameSigs s.rel (queueTelem kind item s).rel := .refl _
  exact h.trans (sameSigs_telemPump ..)

theorem raiseEvent_rel (t code : Nat) (body : Bytes) (s : State) : (raiseEvent t code body s).rel = s.rel := rfl

theorem commandDone_rel (t command seq status detail : Nat) (body : Bytes) (s : State) :
    (commandDone t command seq status detail body s).rel = s.rel := rfl

theorem completes_detectionProcess {d : Det} {ds : List Det} (hup : halted s = false) (hq : s.rel.detq = d :: ds)
    (hfree : s.stew.busy = false) (hdown : domainDown s 1 = false) :
    Completes .detectionProcess s fun t => t.rel.detq = ds ∧ t.rel.nextSig = s.rel.nextSig + 1 ∧
      t.rel.sigs = ((s.rel.nextSig, d) :: s.rel.sigs).take 65536 ∧ t.rel.sigUnread = true := by
  refine completes_of_up hup rfl ?_
  rw [hq]
  dsimp -zeta only
  rw [if_neg (by rw [hfree, hdown]; decide)]
  extract_lets n gone x0 x x2 x3 x4 x5
  clear_value gone
  have hx : x.rel.detq = ds ∧ x.rel.nextSig = s.rel.nextSig + 1 ∧ x.rel.sigs = ((s.rel.nextSig, d) :: s.rel.sigs).take 65536 ∧
      x.rel.sigUnread = true := by
    have h0 : x0.rel = s.rel := token_rel ..
    exact ⟨rfl, rfl, congrArg (fun r : Rel => ((n, d) :: r.sigs).take 65536) h0, rfl⟩
  have h2 : SameSigs x.rel x2.rel := by
    simp only [x2]
    split
    · exact .refl _
    · exact .refl _
  have h3 : SameSigs x2.rel x3.rel := by
    refine .ite (.refl _) (.trans (sameSigs_logEv Log.detLost 62 2 (toLe 4 x2.rel.detLost) x2) ?_)
    exact ⟨rfl, rfl, rfl, rfl⟩
  have h5 : SameSigs x3.rel x5.rel := SameSigs.trans (.of_eq (raiseEvent_rel ..)) (sameSigs_sendTelem ..)
  obtain ⟨hq', hn, hs, hu⟩ := (h2.trans h3).trans h5
  obtain ⟨hxq, hxn, hxs, hxu⟩ := hx
  have hlast : x5.rel.detq = ds ∧ x5.rel.nextSig = s.rel.nextSig + 1 ∧ x5.rel.sigs = ((s.rel.nextSig, d) :: s.rel.sigs).take 65536 ∧
      x5.rel.sigUnread = true := ⟨hq'.trans hxq, hn.trans hxn, hs.trans hxs, hu.trans hxu⟩
  refine ⟨_, rfl, ?_⟩
  rw [withDigests_rel]
  split
  · rw [commandDone_rel]
    exact hlast
  · exact hlast

/-! Records handed to the host (R388, R391). -/

theorem hostWrite_rel (fn addr : Nat) (b : Bytes) (ep : Bool) (s : State) : (hostWrite fn addr b ep s).rel = s.rel := by
  unfold hostWrite
  split <;> rfl

/-- Records that make up a non-empty block go to the host; none are none. -/
theorem hostWrite_records {α : Type} {rs : List α} {f : α → Bytes} (hup : halted s = false) (hf : ∀ r, f r ≠ []) (fn addr : Nat) :
    (hostWrite fn addr (rs.flatMap f) false s).hif.out =
      s.hif.out ++ (if rs.isEmpty then [] else [⟨fn, addr, rs.flatMap f, false⟩]) := by
  cases rs with
  | nil => simp [hostWrite]
  | cons r rs =>
    rw [hostWrite_out hup (by simp [hf])]
    rfl

theorem slice_ne_nil {b : Bytes} {off n : Nat} (hn : n ≠ 0) : slice b off n ≠ [] := by
  intro h
  exact hn ((length_slice b off n).symm.trans (congrArg List.length h))

theorem logBytes_ne_nil (r : LogRec) : logBytes r ≠ [] := by
  simp [logBytes, toLe]

/-- The answer of a read: how many records, where to go on, and the oldest one held (R388, R391). -/
theorem readBody_facts (n next old : Nat) :
    (toLe 4 n ++ zeros 4 ++ toLe 8 next ++ toLe 8 old).length = 24 ∧
    fld (toLe 4 n ++ zeros 4 ++ toLe 8 next ++ toLe 8 old) 0 4 = n % 2 ^ 32 := by
  constructor
  · simp [length_toLe, zeros]
  · rw [List.append_assoc, List.append_assoc, fld_toLe_append]
    rfl

theorem completes_signatureRead {rs : List (Nat × Det)} (h : Serves s box 0x0503 m)
    (hrs : rs = ((s.rel.sigs.reverse).filter fun p => decide (fld m 0x20 8 ≤ p.1)).take (fld m 0x30 4 / 384)) :
    Completes (.signatureRead box) s fun t =>
      (∃ body, Answers box 0 0 body s t ∧ body.length = 24 ∧ fld body 0 4 = rs.length % 2 ^ 32) ∧
      t.hif.out = s.hif.out ++ (if rs.isEmpty then []
        else [⟨box, fld m 0x28 8, rs.flatMap fun p => slice (sigRecord p.1 p.2) 0 384, false⟩]) ∧
      t.rel = { s.rel with sigUnread := false } ∧ OnlyMbx box s t ∧ Frame [.hif, .stew, .rel] s t := by
  refine completes_zalpol h rfl ?_
  dsimp only
  rw [← hrs]
  generalize hx : (hostWrite box (fld m 0x28 8) (rs.flatMap fun p => slice (sigRecord p.1 p.2) 0 384) false s).onRel _ = x
  have hstew : x.stew = s.stew := by rw [← hx, State.onRel_stew, hostWrite_stew]
  have hrel : x.rel = { s.rel with sigUnread := false } := by rw [← hx, State.onRel_rel, hostWrite_rel]
  have hout : x.hif.out = s.hif.out ++ (if rs.isEmpty then []
      else [⟨box, fld m 0x28 8, rs.flatMap fun p => slice (sigRecord p.1 p.2) 0 384, false⟩]) := by
    rw [← hx, State.onRel_hif]
    exact hostWrite_records h.1 (fun _ => slice_ne_nil (by decide)) ..
  have heff : Effect [.hif, .stew, .rel] false s x := hx ▸ Effect.refl.hostWrite.onRel
  refine ⟨⟨_, answers_answered hstew, readBody_facts ..⟩, ?_, ?_, onlyMbx_answered hstew, frame_withDigests.2 heff.zRespond.frame⟩
  · rw [withDigests_hif, zRespond_hif, hout]
  · exact hrel

/-! The event log (R389 to R392). -/

theorem completes_logRecordWrite {x : LogRec} {xs : List LogRec} (hq : s.rel.logq = x :: xs)
    (hring : s.rel.ring38 = true ∨ s.rel.ring62 = true) (hheld : logHeld s = false) :
    Completes .logRecordWrite s fun t =>
      t.rel.logq = xs ∧ t.rel.logSeq = s.rel.logSeq + 1 ∧ t.rel.log = ({ x with seq := s.rel.logSeq + 1 } :: s.rel.log).take 32768 ∧
      Frame [.rel, .recd] s t := by
  have hany : (!s.rel.ring38 && !s.rel.ring62) = false := by
    rcases hring with h | h <;> simp [h]
  have hexec : exec .logRecordWrite s = execLogRecordWrite s := rfl
  rw [execLogRecordWrite, hq] at hexec
  dsimp only at hexec
  rw [hany, if_neg Bool.false_ne_true, hheld, if_neg Bool.false_ne_true] at hexec
  refine ⟨_, hexec, ?_⟩
  dsimp only
  refine ⟨?_, ?_, ?_, (Effect.refl (w := false)).token.onRel.frame⟩
  · rfl
  · rfl
  · rw [State.onRel_rel, token_rel]

theorem completes_logRecordWrite_lost {x : LogRec} {xs : List LogRec} (hq : s.rel.logq = x :: xs) (h38 : s.rel.ring38 = false)
    (h62 : s.rel.ring62 = false) :
    Completes .logRecordWrite s fun t =>
      t.rel = { s.rel with logq := xs } ∧ t.aon = { s.aon with lostLog := satAdd 16 s.aon.lostLog 1 } ∧ Frame [.aon, .rel] s t := by
  have hexec : exec .logRecordWrite s = execLogRecordWrite s := rfl
  rw [execLogRecordWrite, hq] at hexec
  dsimp only at hexec
  rw [h38, h62, if_pos (show (!false && !false) = true from rfl)] at hexec
  exact ⟨_, hexec, rfl, rfl, (Effect.refl (w := false)).onRel.onAon.frame⟩

theorem completes_logArchiveCopy (hup : halted s = false) (hfree : s.stew.busy = false) (hdown : domainDown s 1 = false)
    (hmedia : s.fls.formatted = true) :
    Completes .logArchiveCopy s fun t => Frame [.rel] s t ∧ t.rel = { s.rel with
      archive := ((s.rel.log.filter fun x => decide (((s.rel.archive.head?).map LogRec.seq).getD 0 < x.seq)) ++
        s.rel.archive).take 4194304 } := by
  refine completes_of_up hup rfl ?_
  rw [if_neg (by rw [hfree, hdown, hmedia]; decide)]
  exact ⟨_, rfl, frame_withDigests.2 (Effect.refl (w := false)).onRel.frame, rfl⟩

theorem detect_rings (d : Det) (s : State) : (detect d s).rel.ring38 = s.rel.ring38 ∧ (detect d s).rel.ring62 = s.rel.ring62 := by
  show (if s.rel.detq.length < 1024 then _ else _ : Rel).ring38 = _ ∧ (if s.rel.detq.length < 1024 then _ else _ : Rel).ring62 = _
  split <;> exact ⟨rfl, rfl⟩

theorem fatal_rings (bit : Nat) (d : Det) (s : State) :
    (fatal bit d s).rel.ring38 = s.rel.ring38 ∧ (fatal bit d s).rel.ring62 = s.rel.ring62 := by
  have hrel : (latchGasp d.cause d.island s).rel = s.rel := by
    unfold latchGasp
    split <;> rfl
  have h := detect_rings d (latchGasp d.cause d.island s)
  rw [hrel] at h
  exact h

/-- Of two rings that are whole, one fails: the other goes on (R390). -/
theorem ringsFail_one {a b : Bool} (h38 : s.rel.ring38 = true) (h62 : s.rel.ring62 = true) (hone : a = !b) :
    (ringsFail a b s).rel.ring38 = !a ∧ (ringsFail a b s).rel.ring62 = !b ∧
    (ringsFail a b s).aon = { s.aon with fail38 := satAdd 16 s.aon.fail38 (b2n a), fail62 := satAdd 16 s.aon.fail62 (b2n b) } := by
  unfold ringsFail
  extract_lets a' b' x y isl d q z
  have ha : a' = a := by simp only [a', h38, Bool.and_true]
  have hb : b' = b := by simp only [b', h62, Bool.and_true]
  have hy : y.rel.ring38 = !a ∧ y.rel.ring62 = !b := by
    rw [← ha, ← hb]
    exact ⟨(congrArg (· && !a') h38).trans (Bool.true_and _), (congrArg (· && !b') h62).trans (Bool.true_and _)⟩
  have hyaon : y.aon = { s.aon with fail38 := satAdd 16 s.aon.fail38 (b2n a), fail62 := satAdd 16 s.aon.fail62 (b2n b) } := by
    rw [← ha, ← hb]
    rfl
  rw [ha, hb, if_neg (by rw [hone]; cases b <;> decide), if_pos (by rw [hy.1, hy.2, hone]; cases b <;> rfl)]
  exact ⟨(detect_rings d _).1.trans hy.1, (detect_rings d _).2.trans hy.2, hyaon⟩

/-- With the failure of both rings the log's cause is latched (R390, R309). -/
theorem ringsFail_both (h38 : s.rel.ring38 = true) (h62 : s.rel.ring62 = true) :
    (ringsFail true true s).rel.ring38 = false ∧ (ringsFail true true s).rel.ring62 = false ∧
    (ringsFail true true s).aon.faultCause.getLsbD 2 = true := by
  unfold ringsFail
  extract_lets a b x y isl d
  have ha : a = true := by simp only [a, h38, Bool.and_true]
  have hb : b = true := by simp only [b, h62, Bool.and_true]
  have hy : y.rel.ring38 = false ∧ y.rel.ring62 = false := by
    have h1 : y.rel.ring38 = (s.rel.ring38 && !a) := rfl
    have h2 : y.rel.ring62 = (s.rel.ring62 && !b) := rfl
    rw [h1, h2, ha, hb, Bool.not_true, Bool.and_false, Bool.and_false]
    exact ⟨rfl, rfl⟩
  rw [if_neg (by rw [ha, hb]; decide), if_neg (by rw [hy.1, hy.2]; decide)]
  obtain ⟨hcause, -, -⟩ := fatal_facts Cause.log { d with action := 2 } y
  obtain ⟨h1, h2⟩ := fatal_rings Cause.log { d with action := 2 } y
  generalize fatal Cause.log _ y = z at hcause h1 h2 ⊢
  refine ⟨h1.trans hy.1, h2.trans hy.2, ?_⟩
  show z.aon.faultCause.getLsbD 2 = true
  rw [hcause]
  exact getLsbD_withBit_same _ (by decide)

section
variable (hup : halted s = false) (h38 : s.rel.ring38 = true) (h62 : s.rel.ring62 = true)
include hup h38 h62

theorem completes_logRingFailure_38 : Completes (.logRingFailure true false) s fun t => t.rel.ring38 = false ∧ t.rel.ring62 = true ∧
    t.aon.fail38 = satAdd 16 s.aon.fail38 1 ∧ t.aon.faultCause = s.aon.faultCause := by
  obtain ⟨h1, h2, h3⟩ := ringsFail_one (a := true) (b := false) h38 h62 rfl
  exact completes_of_up hup rfl ⟨_, rfl, h1, h2, (congrArg Aon.fail38 h3).trans rfl, (congrArg Aon.faultCause h3).trans rfl⟩

theorem completes_logRingFailure_62 : Completes (.logRingFailure false true) s fun t => t.rel.ring38 = true ∧ t.rel.ring62 = false ∧
    t.aon.fail62 = satAdd 16 s.aon.fail62 1 ∧ t.aon.faultCause = s.aon.faultCause := by
  obtain ⟨h1, h2, h3⟩ := ringsFail_one (a := false) (b := true) h38 h62 rfl
  exact completes_of_up hup rfl ⟨_, rfl, h1, h2, (congrArg Aon.fail62 h3).trans rfl, (congrArg Aon.faultCause h3).trans rfl⟩

theorem completes_logRingFailure_both : Completes (.logRingFailure true true) s fun t => t.rel.ring38 = false ∧ t.rel.ring62 = false ∧
    t.aon.faultCause.getLsbD 2 = true :=
  completes_of_up hup rfl ⟨_, rfl, ringsFail_both h38 h62⟩

end

theorem completes_logRead {rs : List LogRec} (h : Serves s box 0x0504 m)
    (hrs : rs = ((s.rel.archive.reverse ++ (s.rel.log.reverse.filter fun x =>
      decide (((s.rel.archive.head?).map LogRec.seq).getD 0 < x.seq))).filter fun x => decide (fld m 0x20 8 ≤ x.seq)).take
        (fld m 0x30 4 / 64)) :
    Completes (.logRead box) s fun t =>
      (∃ body, Answers box 0 0 body s t ∧ body.length = 24 ∧ fld body 0 4 = rs.length % 2 ^ 32) ∧
      t.hif.out = s.hif.out ++ (if rs.isEmpty then [] else [⟨box, fld m 0x28 8, rs.flatMap logBytes, false⟩]) ∧
      OnlyMbx box s t ∧ Frame [.hif, .stew] s t := by
  refine completes_zalpol h rfl ?_
  dsimp only
  rw [← hrs]
  have hstew : (hostWrite box (fld m 0x28 8) (rs.flatMap logBytes) false s).stew = s.stew := hostWrite_stew ..
  refine ⟨⟨_, answers_answered hstew, readBody_facts ..⟩, ?_, onlyMbx_answered hstew,
    frame_withDigests.2 (Effect.refl (w := false)).hostWrite.zRespond.frame⟩
  rw [withDigests_hif, zRespond_hif]
  exact hostWrite_records h.1 logBytes_ne_nil ..

end

/-- Settles O43: detections become signature records, log records enter the rings and the archive, and both are read. -/
theorem signaturesAndLogAreWrittenAndRead : Obligations.SignaturesAndLogAreWrittenAndRead := by
  refine ⟨⟨fun _ _ _ hup hq hfree hdown => ?_, fun _ _ _ _ => completes_signatureRead⟩,
    fun _ _ _ hq => ⟨fun hring hheld => ?_, completes_logRecordWrite_lost hq⟩, fun _ => completes_logArchiveCopy,
    fun _ hup h38 h62 => ⟨completes_logRingFailure_38 hup h38 h62, completes_logRingFailure_62 hup h38 h62,
      completes_logRingFailure_both hup h38 h62⟩, fun _ _ _ _ => completes_logRead⟩
  · exact completes_within (completes_detectionProcess hup hq hfree hdown)
      fun _ heff ⟨h1, h2, h3, h4⟩ => ⟨h1, h2, h3, h4, heff.bytes rfl⟩
  · exact completes_logRecordWrite hq hring hheld

end Sys2Proof.Proofs

/-! The sideband: the mirror, the Block Reads of the SMBus target and the JTAG port (R464 to R466). -/

namespace Sys2Proof.Proofs
open Sys2Proof Sys2Proof.Machine Sys2Proof.Safety

set_option Elab.async false

section
variable {s : State}

theorem completes_smbusMirrorUpdate (hup : halted s = false) :
    Completes .smbusMirrorUpdate s fun t => t.aon = { s.aon with mirror := {
      at_ := s.aon.uptime, status := nodeStatusReg s, boot := s.stew.boot, up := s.aon.uptime, temps := mirrorTemps s,
      rails := (List.range 8).map fun i => s.aon.rails.getD i (0, 0), power := powerMean s / 100, thermal := thermalBits s } } ∧
      Frame [.aon] s t :=
  completes_of_up hup rfl ⟨_, rfl, rfl, frame_withDigests.2 (Effect.refl (w := false)).onAon.frame⟩

/-- A command that is a Block Read of `content` reads the mirror. -/
theorem readsMirror_of_smbRead {c : Bool → Instr} {content : Bytes} (hexec : ∀ pec, exec (c pec) s = .next (smbRead pec content s)) :
    ReadsMirror c content s :=
  ⟨⟨_, hexec true, rfl, (Effect.refl (w := false)).onAon.frame⟩, ⟨_, hexec false, rfl⟩⟩

theorem completes_smbusUndefinedCode {code : Nat} (hcode : smbCodes.contains code = false) :
    Completes (.smbusUndefinedCode code true) s fun t => t.aon = { s.aon with smbReply := some [] } ∧ Frame [.aon] s t := by
  have hexec : exec (.smbusUndefinedCode code true) s = execSmbusUndefinedCode code true s := rfl
  rw [execSmbusUndefinedCode, hcode] at hexec
  exact ⟨_, hexec, rfl, (Effect.refl (w := false)).onAon.frame⟩

/-- While island 63 runs, a command that selects an instruction has it selected, and its data register connected. -/
theorem selectsJtag_of_jtagSelect {c : Instr} {ir : JtagIr} (hup : domainDown s 63 = false) (hexec : exec c s = .next (jtagSelect ir s)) :
    SelectsJtag c ir (if ir = .idcode then 0x0A1E04F3 else 0) s := by
  rw [jtagSelect, jtagUp, hup] at hexec
  exact ⟨_, hexec, rfl, (Effect.refl (w := false)).onAon.frame⟩

/-- A test instruction is selected where its strap allows it, else BYPASS (R466). -/
theorem selectsJtag_of_jtagTest {c : Instr} {ir : JtagIr} (hup : domainDown s 63 = false) (hir : ir ≠ .idcode)
    (hexec : exec c s = .next (jtagTest ir s)) : SelectsJtag c (if s.aon.straps.testBit 4 then ir else .bypass) 0 s := by
  have hne : (if s.aon.straps.testBit 4 then ir else JtagIr.bypass) ≠ .idcode := by
    split
    · exact hir
    · decide
  have h := selectsJtag_of_jtagSelect (ir := if s.aon.straps.testBit 4 then ir else .bypass) hup hexec
  rwa [if_neg hne] at h

end

/-- Settles O49: the mirror takes the node's values, every Block Read answers from it, and JTAG selects its instructions. -/
theorem sidebandAnswersFromTheMirror : Obligations.SidebandAnswersFromTheMirror := by
  refine ⟨fun _ => completes_smbusMirrorUpdate, fun _ => ⟨?_, ?_, ?_, ?_, ?_, ?_, ?_, ?_, ?_⟩, fun _ _ => completes_smbusUndefinedCode,
    fun _ _ hup => ⟨?_, ?_, ?_, ?_, ?_, ?_, ?_⟩⟩
  iterate 9 exact readsMirror_of_smbRead fun _ => rfl
  · exact selectsJtag_of_jtagSelect hup rfl
  · exact selectsJtag_of_jtagSelect hup rfl
  · exact selectsJtag_of_jtagSelect hup rfl
  · exact selectsJtag_of_jtagTest hup (by decide) rfl
  · exact selectsJtag_of_jtagTest hup (by decide) rfl
  · exact selectsJtag_of_jtagTest hup (by decide) rfl
  · exact selectsJtag_of_jtagTest hup (by decide) rfl

end Sys2Proof.Proofs

/-! Resets of parts, warm resets from outside, and the way to STANDBY (R378, R383, R420, R422 to R424). -/

namespace Sys2Proof.Proofs
open Sys2Proof Sys2Proof.Machine Sys2Proof.Safety

set_option Elab.async false

section
variable {s t u : State}

/-! Warm resets (R422). -/

/-- The state in which a warm reset has begun its flush. -/
def flushWarm (s : State) : State :=
  s.onAon fun a => { a with flush := some { cause := 2, warm := true, jrecs := undurable s, at_ := a.uptime } }

theorem startWarm_of_up (hstrap : s.aon.straps.testBit 4 = false) (hup : halted s = false) (htrip : s.aon.tripHold = false)
    (hrec : s.recd.active = false) : startWarm s = flushWarm s := by
  have hend : endRecording .warmReset s = s := by
    rw [endRecording, hrec]
    rfl
  rw [startWarm, bitOf, hstrap, hup, htrip, hend]
  rfl

theorem startWarm_of_halted (hstrap : s.aon.straps.testBit 4 = false) (hup : halted s = true) :
    startWarm s = logEv Log.powerEvent 0 0 [2] s := by
  rw [startWarm, bitOf, hstrap, hup]
  rfl

/-- A command that starts a warm reset begins its flush. -/
theorem completes_startWarm {c : Instr} (hstrap : s.aon.straps.testBit 4 = false) (hup : halted s = false)
    (htrip : s.aon.tripHold = false) (hrec : s.recd.active = false) (hexec : exec c s = .next (startWarm s)) :
    Completes c s fun t => t.aon = { s.aon with
      flush := some { cause := 2, warm := true, jrecs := undurable s, at_ := s.aon.uptime } } ∧ Frame [.aon] s t := by
  rw [startWarm_of_up hstrap hup htrip hrec] at hexec
  exact ⟨_, hexec, rfl, (Effect.refl (w := false)).onAon.frame⟩

theorem completes_startWarm_halted {c : Instr} (hstrap : s.aon.straps.testBit 4 = false) (hup : halted s = true)
    (hexec : exec c s = .next (startWarm s)) :
    Completes c s fun t => (∃ x, t.rel = { s.rel with logq := s.rel.logq ++ [x] }) ∧ Frame [.rel] s t := by
  rw [startWarm_of_halted hstrap hup] at hexec
  exact ⟨_, hexec, ⟨_, rfl⟩, (Effect.refl (w := false)).onRel.frame⟩

theorem completes_jtagWarmReset (hstrap : s.aon.straps.testBit 4 = false) (hup : halted s = false)
    (htrip : s.aon.tripHold = false) (hrec : s.recd.active = false) (hport : domainDown s 63 = false) :
    Completes .jtagWarmReset s fun t => t.aon = { s.aon with
      jtagIr := .warmReset, jtagDr := 0,
      flush := some { cause := 2, warm := true, jrecs := undurable s, at_ := s.aon.uptime } } ∧ Frame [.aon] s t := by
  have hexec : exec .jtagWarmReset s = execJtagWarmReset s := rfl
  rw [execJtagWarmReset, jtagSelect, jtagUp, hport] at hexec
  refine ⟨_, hexec.trans (congrArg _ (startWarm_of_up (s := s.onAon fun a => { a with jtagIr := .warmReset, jtagDr := 0 }) hstrap hup htrip hrec)),
    rfl, (Effect.refl (w := false)).onAon.onAon.frame⟩

/-! Resets of parts (R420). -/

theorem completes_stewardWatchdog (hup : halted s = false) :
    Completes .stewardWatchdog s fun t =>
      t.stew = { s.stew with busy := true, busySince := s.aon.uptime, activating := none } ∧ Frame [.stew] s t :=
  completes_of_up hup rfl ⟨_, rfl, rfl, frame_withDigests.2 (Effect.refl (w := false)).onStew.frame⟩

/-- An island that was reset has its crossings to be resynchronised. -/
theorem resetIsland_notReady (i : Nat) (s : State) : ∀ c ∈ crossingsOf i, c ∈ (resetIsland i s).aon.notReady := by
  intro c hc
  show c ∈ s.aon.notReady ++ (crossingsOf i).filter fun c => !s.aon.notReady.contains c
  by_cases h : c ∈ s.aon.notReady
  · exact List.mem_append_left _ h
  · exact List.mem_append_right _ (List.mem_filter.2 ⟨hc, by simp [h]⟩)

theorem completes_islandReset_port {i : Nat} (hup : halted s = false) (hlo : 55 ≤ i) (hhi : i ≤ 58)
    (hon : s.stew.exiting = false ∨ s.aon.off.contains i = false) :
    Completes (.islandReset i) s fun t => t.fab = { s.fab with ports := listSet s.fab.ports (i - 55) false } ∧
      (∀ c ∈ crossingsOf i, c ∈ t.aon.notReady) ∧ Frame [.aon, .fab, .rel] s t := by
  have hnot : (s.stew.exiting && s.aon.off.contains i) = false := by
    rcases hon with h | h
    · rw [h, Bool.false_and]
    · rw [h, Bool.and_false]
  refine completes_of_up hup rfl ?_
  rw [hnot, if_neg Bool.false_ne_true, if_pos (by rw [inRange, decide_eq_true hlo, decide_eq_true hhi]; rfl)]
  have hi : 55 + (i - 55) = i := by omega
  refine ⟨_, rfl, rfl, ?_, frame_withDigests.2 (Effect.refl (w := false)).onFab.onAon.onRel.frame⟩
  have h := resetIsland_notReady (55 + (i - 55)) (s.onFab fun f => { f with ports := listSet f.ports (i - 55) false })
  rw [hi] at h
  rw [withDigests_aon, resetPort, hi]
  exact h

theorem completes_islandReset_powered {i : Nat} (hup : halted s = false) (hexit : s.stew.exiting = true)
    (hoff : s.aon.off.contains i = true) :
    Completes (.islandReset i) s fun t => t.aon.off.contains i = false ∧ (∀ c ∈ crossingsOf i, c ∈ t.aon.notReady) ∧
      Frame [.aon, .rel] s t := by
  refine completes_of_up hup rfl ?_
  rw [hexit, hoff, if_pos (by rfl)]
  refine ⟨_, rfl, ?_, resetIsland_notReady i _, frame_withDigests.2 (Effect.refl (w := false)).onAon.onAon.onRel.frame⟩
  show (s.aon.off.filter (· != i)).contains i = false
  rw [List.contains_eq_mem, decide_eq_false_iff_not, List.mem_filter, bne_self_eq_false]
  exact fun h => Bool.false_ne_true h.2

/-! The known-answer checks (R383). -/

/-- From `s` to `t` the start-up phase stays, and no retired unit returns. -/
def StaysRetired (s t : State) : Prop :=
  t.stew.phase = s.stew.phase ∧ (∀ x ∈ s.shv.retired, x ∈ t.shv.retired) ∧ ∀ x ∈ s.stk.badCulms, x ∈ t.stk.badCulms

theorem StaysRetired.trans (h : StaysRetired s t) (g : StaysRetired t u) : StaysRetired s u :=
  ⟨g.1.trans h.1, fun x hx => g.2.1 x (h.2.1 x hx), fun x hx => g.2.2 x (h.2.2 x hx)⟩

theorem StaysRetired.of_eq (hp : t.stew.phase = s.stew.phase) (hv : t.shv = s.shv) (hk : t.stk = s.stk) : StaysRetired s t := by
  refine ⟨hp, ?_, ?_⟩
  · rw [hv]
    exact fun _ => id
  · rw [hk]
    exact fun _ => id

theorem staysRetired_foldl {α : Type} {f : State → α → State} (hf : ∀ s a, StaysRetired s (f s a)) (l : List α) (s : State) :
    StaysRetired s (l.foldl f s) := by
  induction l generalizing s with
  | nil => exact .of_eq rfl rfl rfl
  | cons a l ih => exact (hf s a).trans (ih _)

theorem fatal_phase (bit : Nat) (d : Det) (s : State) : (fatal bit d s).stew.phase = s.stew.phase := by
  have hlatch : (latchGasp d.cause d.island s).stew = s.stew := by
    unfold latchGasp
    split <;> rfl
  show (latchGasp d.cause d.island s).stew.phase = _
  rw [hlatch]

theorem ringsFail_phase (a b : Bool) (s : State) : (ringsFail a b s).stew.phase = s.stew.phase := by
  unfold ringsFail
  extract_lets a' b' x y isl d q z
  split
  · rfl
  · split
    · rfl
    · exact fatal_phase ..

theorem staysRetired_ringsFail (a b : Bool) (s : State) : StaysRetired s (ringsFail a b s) := by
  have h : Effect [.aon, .stew, .rel] false s (ringsFail a b s) := Effect.refl.ringsFail
  exact .of_eq (ringsFail_phase a b s) (h.frame .shv (by decide)) (h.frame .stk (by decide))

theorem staysRetired_retire (x : Nat × Nat) (s : State) :
    StaysRetired s (s.onShv fun v => { v with retired := v.retired ++ [x] }) :=
  ⟨rfl, fun _ => List.mem_append_left _, fun _ => id⟩

theorem staysRetired_retireCulm (x : Nat × Nat) (s : State) :
    StaysRetired s (s.onStk fun m => { m with badCulms := m.badCulms ++ [x] }) :=
  ⟨rfl, fun _ => id, fun _ => List.mem_append_left _⟩

theorem staysRetired_knownBad (s : State) (b : BadUnit) : StaysRetired s (knownBad s b) := by
  unfold knownBad
  extract_lets d
  split
  · split
    · exact .of_eq rfl rfl rfl
    · exact (staysRetired_retire ..).trans (.of_eq rfl rfl rfl)
  · split
    · split
      · exact .of_eq rfl rfl rfl
      · exact (staysRetired_retireCulm ..).trans (.of_eq rfl rfl rfl)
    · split
      · split
        · exact .of_eq rfl rfl rfl
        · split
          · split <;> exact .of_eq rfl rfl rfl
          · exact .of_eq rfl rfl rfl
      · split
        · exact staysRetired_ringsFail ..
        · exact .of_eq rfl rfl rfl

theorem knownBad_tile {b : BadUnit} (hk : b.kind = 0) (hu : b.unit < 32) (hp : b.phys < 17) (s : State) :
    (b.unit, b.phys) ∈ (knownBad s b).shv.retired := by
  rw [knownBad, if_pos hk, decide_eq_false (by omega : ¬32 ≤ b.unit), decide_eq_false (by omega : ¬17 ≤ b.phys), Bool.or_false, Bool.or_false]
  split
  case isTrue h => simpa using h
  case isFalse => exact List.mem_append_right _ List.mem_cons_self

theorem knownBad_culm {b : BadUnit} (hk : b.kind = 1) (hu : b.unit < 8) (hp : b.phys < 68) (s : State) :
    (b.unit, b.phys) ∈ (knownBad s b).stk.badCulms := by
  rw [knownBad, if_neg (by omega), if_pos hk, decide_eq_false (by omega : ¬8 ≤ b.unit), decide_eq_false (by omega : ¬68 ≤ b.phys),
    Bool.or_false, Bool.or_false]
  split
  case isTrue h => simpa using h
  case isFalse => exact List.mem_append_right _ List.mem_cons_self

/-- What one step of a fold makes true, and every further one keeps, holds at its end. -/
theorem foldl_of_mem {α : Type} {f : State → α → State} {p : State → Prop} {l : List α} {a : α} (ha : a ∈ l)
    (hmake : ∀ s, p (f s a)) (hkeep : ∀ s b, p s → p (f s b)) (s : State) : p (l.foldl f s) := by
  obtain ⟨l1, l2, rfl⟩ := List.append_of_mem ha
  rw [List.foldl_append, List.foldl_cons]
  exact List.foldlRecOn l2 f (hmake _) fun s hs b _ => hkeep s b hs

theorem completes_knownAnswerCheck {bad : List BadUnit} (hup : halted s = false) (hst : s.stew.st = .start)
    (hphase : 3 ≤ s.stew.phase) (hka : s.stew.kaDone = false) :
    Completes (.knownAnswerCheck bad) s fun t => t.stew.kaDone = true ∧ t.stew.phase = s.stew.phase ∧
      (bad = [] → Frame [.stew] s t) ∧
      ∀ b ∈ bad, (b.kind = 0 → b.unit < 32 → b.phys < 17 → (b.unit, b.phys) ∈ t.shv.retired) ∧
        (b.kind = 1 → b.unit < 8 → b.phys < 68 → (b.unit, b.phys) ∈ t.stk.badCulms) := by
  refine completes_of_up hup rfl ?_
  rw [if_neg (by rw [hst, hka, decide_eq_false (by omega : ¬s.stew.phase < 3)]; decide)]
  refine ⟨_, rfl, rfl, (staysRetired_foldl staysRetired_knownBad bad s).1, fun h => ?_, fun b hb => ⟨fun hk hu hp => ?_, fun hk hu hp => ?_⟩⟩
  · subst h
    exact frame_withDigests.2 (Effect.refl (w := false)).onStew.frame
  · exact foldl_of_mem (p := fun s => (b.unit, b.phys) ∈ s.shv.retired) hb (knownBad_tile hk hu hp)
      (fun s c => (staysRetired_knownBad s c).2.1 _) s
  · exact foldl_of_mem (p := fun s => (b.unit, b.phys) ∈ s.stk.badCulms) hb (knownBad_culm hk hu hp)
      (fun s c => (staysRetired_knownBad s c).2.2 _) s

/-! STANDBY (R378, R424). -/

/-- With no tile retired every logical tile of a cluster is its own slot. -/
theorem layCluster_of_none (h : s.shv.retired = []) (cl : Nat) : layCluster s cl = s := by
  have hws : workingTiles s cl = List.range 17 := by
    rw [workingTiles, h]
    rfl
  unfold layCluster
  rw [hws]
  extract_lets ws
  have hfold (v : Shv) : (List.range 16).foldl (fun v i =>
    let t := 16 * cl + i
    match ws[i]? with
    | some x =>
      let v := if x = i then v else { v with slotOf := tabSet v.slotOf t x }
      if x = 16 then { v with tillerUse := tabSet v.tillerUse cl t } else v
    | none => { v with absent := v.absent ++ [t] }) v = v := rfl
  exact congrArg (fun v => { s with shv := v }) (hfold s.shv)

theorem layClusters_of_none (h : s.shv.retired = []) (l : List Nat) : l.foldl layCluster s = s := by
  induction l with
  | nil => rfl
  | cons cl l ih => rw [List.foldl_cons, layCluster_of_none h, ih]

theorem layClusters_stk (l : List Nat) (s : State) : (l.foldl layCluster s).stk = s.stk :=
  (Effect.foldl (Effect.refl (ps := [.shv]) (w := false) (s := s)) fun _ _ h => h.layCluster).frame .stk (by decide)

theorem layCulms_of_none (h : s.stk.badCulms = []) (l : List Nat) : l.foldl layCulm s = s := by
  induction l with
  | nil => rfl
  | cons k l ih =>
    have hk : layCulm s k = s := by
      rw [layCulm, h]
      rfl
    rw [List.foldl_cons, hk, ih]

theorem completes_standbyEntry (hup : halted s = false) (hst : s.stew.st = .start) (hphase : s.stew.phase = 6)
    (hka : s.stew.kaDone = true) :
    Completes .standbyEntry s fun t => t.stew.st = (if s.aon.viral then .fault else .standby) ∧
      (s.shv.retired = [] → t.shv.slotOf = [] ∧ t.shv.absent = [] ∧ t.shv.tillerUse = []) ∧
      (s.stk.badCulms = [] → t.stk.culms = []) := by
  refine completes_of_up hup rfl ?_
  rw [if_neg (by rw [hst, hphase, hka]; decide)]
  extract_lets x y z
  have hy : Effect [.stk, .shv] false (x.onStk fun m => { m with culms := [] }) y := Effect.refl.foldl fun _ _ h => h.layCluster
  have hz : Effect [.stk] false y z := Effect.refl.foldl fun _ _ h => h.layCulm
  have hi : Effect [.rel] false z (inventory z) := Effect.refl.inventory
  have hviral : z.aon = s.aon := (hz.frame .aon (by decide)).trans (hy.frame .aon (by decide))
  have hshv (h : s.shv.retired = []) : (inventory z).shv = { s.shv with slotOf := [], absent := [], tillerUse := [] } :=
    have hy : y = x.onStk fun m => { m with culms := [] } := layClusters_of_none (s := x.onStk fun m => { m with culms := [] }) h _
    (hi.frame .shv (by decide)).trans ((hz.frame .shv (by decide)).trans (congrArg State.shv hy))
  have hstk (h : s.stk.badCulms = []) : (inventory z).stk.culms = [] := by
    have hy : y.stk = { s.stk with culms := [] } := layClusters_stk ..
    have hz' : z = y := layCulms_of_none ((congrArg Mem_.badCulms hy).trans h) _
    rw [hi.frame .stk (by decide), hz', hy]
  generalize inventory z = v at hshv hstk ⊢
  clear_value z
  refine ⟨_, rfl, ?_, fun h => ?_, fun h => ?_⟩
  · exact congrArg (fun a : Aon => if a.viral then NodeState.fault else .standby) hviral
  · rw [withDigests_shv, State.onStew_shv, hshv h]
    exact ⟨rfl, rfl, rfl⟩
  · exact hstk h

end

/-- Settles O46: warm resets and resets of parts begin, and STANDBY is entered after the checks. -/
theorem resetsBeginAndStandbyFollows : Obligations.ResetsBeginAndStandbyFollows := by
  refine ⟨⟨fun _ hstrap => ⟨fun hup htrip hrec => ⟨?_, ?_, ?_⟩, fun hup => ⟨?_, ?_⟩⟩, fun _ => completes_stewardWatchdog,
    fun _ _ hup => ⟨completes_islandReset_port hup, completes_islandReset_powered hup⟩⟩,
    fun _ _ => completes_knownAnswerCheck, fun _ hup hst hphase hka => ?_⟩
  · exact completes_startWarm hstrap hup htrip hrec rfl
  · exact completes_startWarm hstrap hup htrip hrec rfl
  · exact completes_jtagWarmReset hstrap hup htrip hrec
  · exact completes_startWarm_halted hstrap hup rfl
  · exact completes_startWarm_halted hstrap hup rfl
  · exact completes_within (completes_standbyEntry hup hst hphase hka) fun _ heff ⟨h1, h2, h3⟩ => ⟨h1, h2, h3, heff.frame⟩

end Sys2Proof.Proofs

/-! Power states, the power envelope, temperatures and reference clocks (R325, R428 to R432, R456 to R459). -/

namespace Sys2Proof.Proofs
open Sys2Proof Sys2Proof.Machine Sys2Proof.Safety

set_option Elab.async false

section
variable {s t : State}

/-! Power states (R429 to R432). -/

/-- The POWER_SET that waits for the transition is answered, and waits no more. -/
theorem answerPower_facts {st : Nat} {x : State} (hreq : x.stew.pwReq = s.stew.pwReq) (hmbx : x.stew.mbx = s.stew.mbx) :
    (∀ box, s.stew.pwReq = some box → Answers box st 0 [] s (answerPower st x)) ∧
    (answerPower st x).stew = { x.stew with pwReq := none, mbx := (answerPower st x).stew.mbx } := by
  unfold answerPower
  rw [hreq]
  cases hp : s.stew.pwReq with
  | none => exact ⟨nofun, congrArg (fun r => { x.stew with pwReq := r }) (hreq.trans hp)⟩
  | some box =>
    refine ⟨fun b hb r hr hd => ?_, rfl⟩
    obtain rfl := Option.some.inj hb
    have hbox : mbxOf (x.onStew fun w => { w with pwReq := none }) box = mbxOf s box := by
      rw [mbxOf, mbxOf, State.onStew_stew, hmbx]
    dsimp only
    rw [zRespond, mbxOf_modMbx_same, hbox, hr]
    dsimp only
    rw [hd, if_neg Bool.false_ne_true]
    exact ⟨_, rfl, rfl, rfl⟩

theorem completes_reversiblePoint_wake {g : Nat} (hup : halted s = false) (hgoal : s.stew.goal = some g) (hwake : s.stew.wake = true) :
    Completes .powerStateReversiblePoint s fun t => t.stew = { s.stew with goal := none, exiting := true } ∧ Frame [.stew] s t := by
  have hexec : exec .powerStateReversiblePoint s = execPowerStateReversiblePoint s := rfl
  rw [execPowerStateReversiblePoint, hgoal] at hexec
  dsimp only at hexec
  rw [hwake, if_pos rfl] at hexec
  exact completes_of_up hup hexec ⟨_, rfl, rfl, frame_withDigests.2 (Effect.refl (w := false)).onStew.frame⟩

theorem completes_reversiblePoint_step {g : Nat} (hup : halted s = false) (hgoal : s.stew.goal = some g) (hwake : s.stew.wake = false)
    (hstep : s.stew.pwStep < 7) (hdrained : s.stew.pwStep = 0 → drained s = true) :
    Completes .powerStateReversiblePoint s fun t => t.stew = { s.stew with pwStep := s.stew.pwStep + 1 } := by
  have hgo : (decide (s.stew.pwStep + 1 = 1) && !drained s) = false := by
    by_cases h : s.stew.pwStep = 0
    · rw [hdrained h, Bool.not_true, Bool.and_false]
    · rw [decide_eq_false (by omega), Bool.false_and]
  have hstew (k : Nat) : (entryStep k g s).stew = s.stew :=
    (Effect.refl (ps := [.aon, .obj, .shv, .fls, .fab, .recd]) (w := false)).entryStep.frame .stew (by decide)
  have hexec : exec .powerStateReversiblePoint s = execPowerStateReversiblePoint s := rfl
  rw [execPowerStateReversiblePoint, hgoal] at hexec
  dsimp only at hexec
  rw [hwake, if_neg Bool.false_ne_true, hgo, if_neg Bool.false_ne_true, if_pos (by omega)] at hexec
  exact completes_of_up hup hexec ⟨_, rfl, congrArg (fun w => { w with pwStep := s.stew.pwStep + 1 }) (hstew _)⟩

theorem completes_reversiblePoint_end {g : Nat} (hup : halted s = false) (hgoal : s.stew.goal = some g) (hwake : s.stew.wake = false)
    (hstep : s.stew.pwStep = 7) :
    Completes .powerStateReversiblePoint s fun t => t.stew.pstate = g ∧ t.stew.goal = none ∧ t.stew.pwReq = none ∧
      t.aon = { s.aon with off := offIn g } ∧ (∀ box, s.stew.pwReq = some box → Answers box 0 0 [] s t) ∧ Frame [.stew, .aon] s t := by
  have hexec : exec .powerStateReversiblePoint s = execPowerStateReversiblePoint s := rfl
  rw [execPowerStateReversiblePoint, hgoal] at hexec
  dsimp only at hexec
  rw [hwake, if_neg Bool.false_ne_true, hstep, if_neg (by rw [decide_eq_false (by omega)]; exact Bool.false_ne_true),
    if_neg (by decide)] at hexec
  refine completes_of_up hup hexec ?_
  generalize hx : (State.onStew _ (State.onStew _ (entryStep 8 g s)) : State) = x
  have hx' : x = ((s.onAon fun a => { a with off := offIn g }).onStew fun w => { w with pwStep := 8 }).onStew fun w =>
    { w with goal := none, pstate := g, pwStep := 0 } := hx.symm
  have hstew : x.stew = { s.stew with goal := none, pstate := g, pwStep := 0 } := congrArg State.stew hx'
  obtain ⟨hans, hst⟩ := answerPower_facts (st := St.success) (s := s) (x := x) (by rw [hstew]) (by rw [hstew])
  have heff : Effect [.stew, .aon] false s x := hx' ▸ Effect.refl.onAon.onStew.onStew
  have haon : (answerPower St.success x).aon = x.aon :=
    (Effect.refl (ps := [.stew]) (w := false)).answerPower.frame .aon (by decide)
  refine ⟨_, rfl, ?_, ?_, ?_, ?_, hans, frame_withDigests.2 heff.answerPower.frame⟩
  · rw [withDigests_stew, hst, hstew]
  · rw [withDigests_stew, hst, hstew]
  · rw [withDigests_stew, hst]
  · rw [withDigests_aon, haon, hx']
    rfl

section
variable {src : Nat} (hup : halted s = false) (hsrc : src ≤ 4) (hnot : ¬(src = 3 ∧ s.stew.pstate = 3)) (hexit : s.stew.exiting = false)
include hup hsrc hnot hexit

theorem completes_powerStateWake :
    (s.stew.goal.isSome = true → Completes (.powerStateWake src) s fun t => t.stew = { s.stew with wake := true } ∧
      Frame [.stew, .recd] s t) ∧
    (s.stew.goal = none → s.stew.pstate ≠ 0 → Completes (.powerStateWake src) s fun t =>
      t.stew = { s.stew with wake := true, exiting := true } ∧ Frame [.stew, .recd] s t) := by
  have hgo : (decide (4 < src) || decide (src = 3) && decide (s.stew.pstate = 3) || s.stew.exiting) = false := by
    rw [decide_eq_false (by omega), hexit, Bool.false_or, Bool.or_false, ← Bool.decide_and, decide_eq_false hnot]
  have hpin : Effect [.recd] false s (if src = 2 then recordPin 0 1 s else s) := by
    split
    · exact Effect.refl.recordPin
    · exact .refl
  have heff : Effect [.stew, .recd] false s (if src = 2 then recordPin 0 1 s else s) := Effect.refl.extend (by decide) hpin
  have hstew := hpin.frame .stew (by decide)
  constructor
  · intro hgoal
    refine completes_of_up hup rfl ?_
    rw [hgo, if_neg Bool.false_ne_true]
    generalize (if src = 2 then recordPin 0 1 s else s) = x at hstew heff ⊢
    dsimp only
    rw [if_pos (by rw [hstew]; exact hgoal)]
    exact ⟨_, rfl, congrArg (fun w => { w with wake := true }) hstew, frame_withDigests.2 heff.onStew.frame⟩
  · intro hgoal hp
    refine completes_of_up hup rfl ?_
    rw [hgo, if_neg Bool.false_ne_true]
    generalize (if src = 2 then recordPin 0 1 s else s) = x at hstew heff ⊢
    dsimp only
    rw [if_neg (by rw [hstew, hgoal]; decide), if_neg (by rw [hstew]; exact hp)]
    exact ⟨_, rfl, congrArg (fun w => { w with wake := true, exiting := true }) hstew, frame_withDigests.2 heff.onStew.frame⟩

end

theorem completes_powerStateExitComplete (hup : halted s = false) (hexit : s.stew.exiting = true) :
    Completes .powerStateExitComplete s fun t =>
      t.stew.pstate = 0 ∧ t.stew.exiting = false ∧ t.stew.wake = false ∧ t.stew.pwReq = none ∧
      t.aon = { s.aon with off := [], notReady := [] } ∧ t.rel = { s.rel with only62 := [] } ∧
      (∀ box, s.stew.pwReq = some box → Answers box (if s.stew.pstate = 0 then 0x8002 else 0) 0 [] s t) ∧
      Frame [.aon, .stew, .rel] s t := by
  refine completes_of_up hup rfl ?_
  rw [hexit, Bool.true_or, if_neg (by decide)]
  extract_lets st y z
  generalize hx : (State.onStew _ z : State) = x
  have hstew : x.stew = { s.stew with exiting := false, wake := false, goal := none, pstate := 0, pwStep := 0 } :=
    (congrArg State.stew hx).symm
  obtain ⟨hans, hst⟩ := answerPower_facts (st := st) (s := s) (x := x) (by rw [hstew]) (by rw [hstew])
  have heff : Effect [.aon, .stew, .rel] false s x := hx ▸ Effect.refl.onAon.onRel.onStew
  have hkeep : Effect [.stew] false x (answerPower st x) := Effect.refl.answerPower
  refine ⟨_, rfl, ?_, ?_, ?_, ?_, ?_, ?_, hans, frame_withDigests.2 heff.answerPower.frame⟩
  · rw [withDigests_stew, hst, hstew]
  · rw [withDigests_stew, hst, hstew]
  · rw [withDigests_stew, hst, hstew]
  · rw [withDigests_stew, hst]
  · rw [withDigests_aon, hkeep.frame .aon (by decide), ← hx]
    rfl
  · rw [withDigests_rel, hkeep.frame .rel (by decide), ← hx]
    rfl

/-! The power envelope (R428). -/

theorem completes_powerMeanSample {mw : Nat} (hup : halted s = false) :
    Completes (.powerMeanSample mw) s fun t => t.aon = { s.aon with powerSamples := (mw :: s.aon.powerSamples).take 100 } ∧
      Frame [.aon] s t :=
  completes_of_up hup rfl ⟨_, rfl, rfl, frame_withDigests.2 (Effect.refl (w := false)).onAon.frame⟩

theorem completes_powerClockStep_down (hup : halted s = false) (hmean : 800000 < powerMean s) :
    Completes .powerClockStep s fun t => t.aon = { s.aon with
      capMhz := max 1300 (min s.aon.capMhz (profileMhz (gen s)) - 50),
      skipping := s.aon.skipping || decide (min s.aon.capMhz (profileMhz (gen s)) ≤ 1300) } ∧ Frame [.aon] s t := by
  refine completes_of_up hup rfl ?_
  dsimp only
  rw [if_pos hmean]
  exact ⟨_, rfl, rfl, frame_withDigests.2 (Effect.refl (w := false)).onAon.frame⟩

theorem completes_powerClockStep_up (hup : halted s = false) (hmean : powerMean s < 780000) :
    Completes .powerClockStep s fun t => t.aon = { s.aon with
      capMhz := if profileMhz (gen s) ≤ s.aon.capMhz + 50 then 1700 else s.aon.capMhz + 50, skipping := false } ∧
      Frame [.aon] s t := by
  refine completes_of_up hup rfl ?_
  dsimp only
  rw [if_neg (by omega), if_pos hmean]
  exact ⟨_, rfl, rfl, frame_withDigests.2 (Effect.refl (w := false)).onAon.frame⟩

/-! Temperatures (R457 to R459). -/

theorem contains_filter_range (n : Nat) (p : Nat → Bool) {k : Nat} (hk : k < n) :
    ((List.range n).filter p).contains k = p k := by
  rw [List.contains_eq_mem, Bool.eq_iff_iff, decide_eq_true_iff, List.mem_filter, List.mem_range]
  exact and_iff_right hk

theorem hottest_congr {t : State} (h : t.aon.temps = s.aon.temps) (first n : Nat) : hottest t first n = hottest s first n := by
  rw [hottest, hottest, h]

/-- Whether a location is critical follows from the samples (R458). -/
theorem critical_congr {t : State} (h : t.aon.temps = s.aon.temps) : critical t = critical s := by
  have hh : hottest t = hottest s := funext₂ (hottest_congr h)
  unfold critical clusterTemp coreTemp baseTemp sheafRestTemp flashIoTemp linkIoTemp
  rw [hh]

theorem completes_thermalSample {temps : List Int} {rails : List (Nat × Nat)} (hup : halted s = false) (hlen : temps.length = 212) :
    Completes (.thermalSample temps rails) s fun t => t.aon.temps = temps ∧ t.aon.rails = rails ∧
      (∀ k < 8, (1520 ≤ coreTemp t k → t.aon.stackHot.contains k = true) ∧ (coreTemp t k < 1472 → t.aon.stackHot.contains k = false) ∧
        t.aon.refresh2.contains k = decide (1360 < coreTemp t k)) ∧
      t.aon.critSince = (if critical t then some (s.aon.critSince.getD s.aon.uptime) else none) := by
  refine completes_of_up hup rfl ?_
  rw [hlen, if_neg (by decide)]
  extract_lets x y z
  have hx : x.aon = s.aon :=
    (Effect.foldl (Effect.refl (ps := [.recd]) (w := false) (s := s)) fun _ _ h => h.recordInput).frame .aon (by decide)
  clear_value x
  generalize hv : State.onRel _ z = v
  have hvaon : v.aon = z.aon := (congrArg State.aon hv).symm
  have htemps : v.aon.temps = y.aon.temps := (congrArg Aon.temps hvaon).trans rfl
  refine ⟨_, rfl, congrArg Aon.temps hvaon, congrArg Aon.rails hvaon, fun k hk => ?_, ?_⟩
  · rw [withDigests_aon, hvaon, show coreTemp (withDigests s v) k = coreTemp y k from hottest_congr htemps ..]
    show (_ → (heldSet x.aon.stackHot 8 (fun k => decide (1520 ≤ coreTemp y k)) fun k => decide (coreTemp y k < 1472)).contains k = true) ∧
      (_ → (heldSet x.aon.stackHot 8 (fun k => decide (1520 ≤ coreTemp y k)) fun k => decide (coreTemp y k < 1472)).contains k = false) ∧
      ((List.range 8).filter fun k => decide (1360 < coreTemp y k)).contains k = _
    rw [heldSet, contains_filter_range 8 _ hk]
    refine ⟨fun h => ?_, fun h => ?_, contains_filter_range 8 _ hk⟩
    · rw [decide_eq_true h, Bool.true_or]
    · rw [decide_eq_true h, decide_eq_false (by omega), Bool.not_true, Bool.and_false, Bool.or_false]
  · rw [withDigests_aon, hvaon, show critical (withDigests s v) = critical y from critical_congr htemps, ← hx]
    rfl

/-- A power event of a running node begins the flush of what is not durable (R433). -/
theorem powerEvent_facts (cause : Nat) (hup : halted s = false) :
    (powerEvent cause s).aon = { s.aon with flush := some { cause := cause, jrecs := undurable s, at_ := s.aon.uptime } } := by
  rw [powerEvent, hup, if_neg Bool.false_ne_true]
  split <;> rfl

theorem completes_thermalTrip {since : Nat} (hup : halted s = false) (hcrit : s.aon.critSince = some since)
    (hlate : since + 10000 ≤ s.aon.uptime) (htrip : s.aon.tripHold = false) :
    Completes .thermalTrip s fun t => t.aon = { s.aon with
      tripHold := true, tripSeen := s.aon.pwrFailLow, flush := some { cause := 1, jrecs := undurable s, at_ := s.aon.uptime } } ∧
      Frame [.aon, .rel] s t := by
  have hexec : exec .thermalTrip s = execThermalTrip s := rfl
  rw [execThermalTrip, hcrit] at hexec
  dsimp only at hexec
  rw [htrip, now, decide_eq_false (by omega), if_neg (by decide)] at hexec
  exact ⟨_, hexec, powerEvent_facts 1 (s := logEv Log.thermal 0 2 [] (s.onAon fun a => { a with tripHold := true, tripSeen := a.pwrFailLow })) hup,
    (Effect.refl (w := false)).onAon.onRel.powerEvent.frame⟩

/-! Reference clocks (R456). -/

theorem completes_refclkLoss_sys (hup : halted s = false) (h : s.aon.sysLost = false) :
    Completes (.refclkLoss 0) s fun t => t.aon = { s.aon with
      sysLost := true, flush := some { cause := 3, jrecs := undurable s, at_ := s.aon.uptime } } ∧ Frame [.aon, .rel] s t := by
  have hexec : exec (.refclkLoss 0) s = execRefclkLoss 0 s := rfl
  rw [execRefclkLoss, if_pos rfl, h, if_neg Bool.false_ne_true] at hexec
  exact ⟨_, hexec, powerEvent_facts 3 (s := s.onAon fun a => { a with sysLost := true }) hup,
    (Effect.refl (w := false)).onAon.powerEvent.frame⟩

theorem completes_refclkLoss_pcie (hup : halted s = false) (h : s.aon.pcieLost = false) :
    Completes (.refclkLoss 1) s fun t => t.aon.pcieLost = true ∧ t.hif.linkUp = false := by
  have hexec : exec (.refclkLoss 1) s = execRefclkLoss 1 s := rfl
  rw [execRefclkLoss, if_neg (by decide), if_pos rfl, h, if_neg Bool.false_ne_true] at hexec
  dsimp only at hexec
  rw [if_neg (by rw [show halted (s.onAon fun a => { a with pcieLost := true }) = halted s from rfl, hup]; decide)] at hexec
  have hpin : Effect [.rel, .recd] false (s.onAon fun a => { a with pcieLost := true })
      (recordPin 4 0 (logEv Log.refClock 0 2 [1] (s.onAon fun a => { a with pcieLost := true }))) := Effect.refl.logEv.recordPin
  generalize recordPin 4 0 _ = x at hpin hexec
  have hstop : Effect [.stew, .hif, .eng, .idx, .obj, .shv, .rel] true x (stopAll x) := Effect.refl.stopAll
  generalize stopAll x = y at hstop hexec
  refine ⟨_, hexec, ?_, rfl⟩
  rw [State.onHif_aon, hstop.frame .aon (by decide), hpin.frame .aon (by decide)]
  rfl

theorem completes_refclkLoss_eth (h : s.aon.ethLost = false) :
    Completes (.refclkLoss 2) s fun t => t.aon = { s.aon with ethLost := true } ∧
      t.fab = { s.fab with ports := [false, false, false, false] } ∧ Frame [.aon, .fab, .rel] s t := by
  have hexec : exec (.refclkLoss 2) s = execRefclkLoss 2 s := rfl
  rw [execRefclkLoss, if_neg (by decide), if_neg (by decide), if_pos rfl, h, if_neg Bool.false_ne_true] at hexec
  exact ⟨_, hexec, rfl, rfl, (Effect.refl (w := false)).onAon.onRel.onFab.frame⟩

theorem completes_refclkReturn (clk : Nat) :
    Completes (.refclkReturn clk) s fun t => t.aon = { s.aon with
      sysLost := s.aon.sysLost && clk != 0, pcieLost := s.aon.pcieLost && clk != 1, ethLost := s.aon.ethLost && clk != 2 } ∧
      Frame [.aon] s t :=
  ⟨_, rfl, rfl, (Effect.refl (w := false)).onAon.frame⟩

end

/-- Settles O48: entries and exits of power states, the clock steps, samples, trips and reference clocks. -/
theorem powerStatesHeatAndClocksChange : Obligations.PowerStatesHeatAndClocksChange := by
  refine ⟨⟨fun _ _ hup hgoal => ⟨completes_reversiblePoint_wake hup hgoal, fun hwake hstep hdr => ?_, completes_reversiblePoint_end hup hgoal⟩,
    fun _ _ hup hsrc hnot hexit => completes_powerStateWake hup hsrc hnot hexit, fun _ => completes_powerStateExitComplete⟩,
    fun _ _ => completes_powerMeanSample, fun _ hup => ⟨completes_powerClockStep_down hup, completes_powerClockStep_up hup⟩,
    fun _ _ _ hup hlen => ?_, fun _ _ => completes_thermalTrip,
    fun _ hup => ⟨completes_refclkLoss_sys hup, completes_refclkLoss_pcie hup, completes_refclkLoss_eth⟩, fun _ => completes_refclkReturn⟩
  · exact completes_within (completes_reversiblePoint_step hup hgoal hwake hstep hdr) fun _ heff h => ⟨h, heff.bytes rfl⟩
  · exact completes_within (completes_thermalSample hup hlen) fun _ heff ⟨h1, h2, h3, h4⟩ => ⟨h1, h2, h3, h4, heff.frame⟩

end Sys2Proof.Proofs

/-! Firmware images and attestation (R446 to R449). -/

namespace Sys2Proof.Proofs
open Sys2Proof Sys2Proof.Machine Sys2Proof.Safety

set_option Elab.async false

section
variable {s t : State} {box : Nat} {image m : Bytes}

/-! Firmware (R446 to R448). -/

theorem answers_congr {status detail : Nat} {body : Bytes} {u : State} (h : Answers box status detail body s t)
    (hu : u.stew.mbx = t.stew.mbx) : Answers box status detail body s u := by
  have hbox : mbxOf u box = mbxOf t box := by rw [mbxOf, mbxOf, hu]
  intro r hr hd
  rw [hbox]
  exact h r hr hd

theorem answers_zRespond_of_mbx {status detail : Nat} {body : Bytes} {x : State} (hx : x.stew.mbx = s.stew.mbx) :
    Answers box status detail body s (zRespond box status detail body x) := by
  have hbox : mbxOf x box = mbxOf s box := by rw [mbxOf, mbxOf, hx]
  intro r hr hd
  rw [zRespond, mbxOf_modMbx_same, hbox, hr]
  dsimp only
  rw [hd, if_neg Bool.false_ne_true]
  exact ⟨_, rfl, rfl, rfl⟩

/-- Outside a recording no data is recorded. -/
theorem zData_of_idle (h : s.recd.active = false) (m b : Bytes) : zData m b s = s := by
  rw [zData, recordData, recordInput.eq_def, h]
  split <;> rfl

theorem offset_of_imageReserved {b : Bytes} {off : Nat} (h : firstBad (imageReserved b) = some off) : off = 6 ∨ off = 0x108 := by
  simp only [imageReserved, firstBad] at h
  split at h
  · split at h
    · cases h
    · exact .inr (Option.some.inj h).symm
  · exact .inl (Option.some.inj h).symm

section
variable (h : Serves s box 0x0410 m) (hrec : s.recd.active = false) (hlo : 512 ≤ fld m 0x28 4) (hhi : fld m 0x28 4 ≤ 2 ^ 25)
include h hrec hlo hhi

/-- FW_LOAD goes on to the image's own checks. -/
theorem completes_fwLoad {claim : State → Prop}
    (hk : ∀ b, b = slice image 0 (fld m 0x28 4) → claim (withDigests s (zChecked box (imageReserved b) s fun s =>
      if !imageValid s.stew b then zFail box St.imageInvalid 0 s
      else zRespond box St.success 0 (toLe 1 (1 - s.stew.active) ++ zeros 3 ++ toLe 4 (fld b 8 4)) (s.onStew fun w =>
        if 1 - s.stew.active = 0 then { w with slot0 := slotFrom b } else { w with slot1 := slotFrom b })))) :
    Completes (.fwLoad box image) s claim := by
  refine completes_zalpol h rfl ?_
  have hrange : inRange (fld m 0x28 4) 512 (2 ^ 25) = true := by
    rw [inRange, decide_eq_true hlo, decide_eq_true hhi]
    rfl
  dsimp only
  rw [zChecked_of_none (by rw [hrange]; rfl), zData_of_idle hrec]
  exact hk _ rfl

theorem completes_fwLoad_reserved {off : Nat} (hbad : firstBad (imageReserved (slice image 0 (fld m 0x28 4))) = some off) :
    Completes (.fwLoad box image) s fun t => Answers box 0x0102 off [] s t ∧ Frame [.stew] s t := by
  refine completes_fwLoad h hrec hlo hhi fun b hb => ?_
  have hoff : off = 6 ∨ off = 0x108 := offset_of_imageReserved hbad
  rw [zChecked, hb, hbad]
  dsimp only
  rw [show min off 0xFFFF = off by omega]
  exact ⟨answers_answered rfl, frame_withDigests.2 (Effect.refl (w := false)).zRespond.frame⟩

theorem completes_fwLoad_valid (hgood : firstBad (imageReserved (slice image 0 (fld m 0x28 4))) = none)
    (hvalid : imageValid s.stew (slice image 0 (fld m 0x28 4)) = true) :
    Completes (.fwLoad box image) s fun t =>
      Answers box 0 0 (toLe 1 (1 - s.stew.active) ++ zeros 3 ++ toLe 4 (fld (slice image 0 (fld m 0x28 4)) 8 4)) s t ∧
      slotAt t.stew (1 - s.stew.active) = slotFrom (slice image 0 (fld m 0x28 4)) ∧ t.stew.active = s.stew.active ∧
      t.stew.secMin = s.stew.secMin ∧
      (s.stew.active ≤ 1 → slotAt t.stew s.stew.active = slotAt s.stew s.stew.active) ∧ Frame [.stew] s t := by
  refine completes_fwLoad h hrec hlo hhi fun b hb => ?_
  rw [← hb] at hgood hvalid ⊢
  rw [zChecked_of_none hgood, hvalid, if_neg (by decide)]
  generalize hx : (s.onStew fun w => if 1 - s.stew.active = 0 then { w with slot0 := slotFrom b } else { w with slot1 := slotFrom b }) = x
  have hstew : x.stew = if 1 - s.stew.active = 0 then { s.stew with slot0 := slotFrom b } else { s.stew with slot1 := slotFrom b } :=
    (congrArg State.stew hx).symm
  have hmbx : x.stew.mbx = s.stew.mbx := by
    rw [hstew]
    split <;> rfl
  have heff : Effect [.stew] false s x := hx ▸ Effect.refl.onStew (hm := (congrArg (fun t => t.stew.mbx) hx).trans hmbx)
  have hslot (k : Nat) (t : State) (ht : t.stew = { x.stew with mbx := t.stew.mbx }) : slotAt t.stew k = slotAt x.stew k := by
    rw [slotAt, ht, slotAt]
  refine ⟨answers_zRespond_of_mbx hmbx, ?_, ?_, ?_, fun hact => ?_, frame_withDigests.2 heff.zRespond.frame⟩
  · rw [withDigests_stew, hslot _ _ zRespond_stew_with, hstew]
    split
    case isTrue hk => rw [hk]; rfl
    case isFalse hk => rw [slotAt, if_neg hk]
  · rw [withDigests_stew, zRespond_stew_with, hstew]
    split <;> rfl
  · rw [withDigests_stew, zRespond_stew_with, hstew]
    split <;> rfl
  · rw [withDigests_stew, hslot _ _ zRespond_stew_with, hstew]
    split
    case isTrue hk => rw [slotAt, if_neg (by omega), slotAt, if_neg (by omega)]
    case isFalse hk => rw [slotAt, if_pos (by omega), slotAt, if_pos (by omega)]

end

theorem completes_fwActivate (h : Serves s box 0x0411 m) (hk : byteAt m 0x20 ≤ 1) (hpend : s.stew.pendGen = none)
    (hdone : doneRunning s = false) (hstarts : slotStarts s.stew (slotAt s.stew (byteAt m 0x20)) = true)
    (hmin : (slotAt s.stew (byteAt m 0x20)).genMin ≤ 1) (hmax : 1 ≤ (slotAt s.stew (byteAt m 0x20)).genMax) :
    Completes (.fwActivate box) s fun t => Answers box 0 0 [] s t ∧ t.stew.busy = true ∧ t.stew.busySince = s.aon.uptime ∧
      t.stew.activating = some (byteAt m 0x20) ∧ t.stew.active = s.stew.active ∧ Frame [.stew] s t := by
  refine completes_zalpol h rfl ?_
  dsimp only
  rw [zChecked_of_none (by rw [decide_eq_true hk]; rfl), if_neg (by rw [hpend, hdone]; decide),
    if_neg (by rw [hstarts, decide_eq_false (by omega), decide_eq_false (by omega)]; decide)]
  refine ⟨answers_congr (t := zRespond box St.success 0 [] s) (answers_zRespond rfl) rfl, rfl, rfl, rfl, rfl, ?_⟩
  exact frame_withDigests.2 (Effect.refl (w := false)).zRespond.onStew.frame

theorem completes_fwActivateTimeout {k : Nat} (hup : halted s = false) (hact : s.stew.activating = some k)
    (hlate : s.stew.busySince + 200000000 ≤ s.aon.uptime) :
    Completes .fwActivateTimeout s fun t => t.stew.activating = none ∧ t.stew.busySince = s.aon.uptime ∧
      t.stew.active = s.stew.active ∧ t.stew.busy = s.stew.busy ∧ Frame [.stew] s t := by
  refine completes_of_up hup rfl ?_
  rw [hact]
  dsimp only
  rw [if_neg (by rw [now]; omega)]
  exact ⟨_, rfl, rfl, rfl, rfl, rfl, frame_withDigests.2 (Effect.refl (w := false)).onStew.raiseEvent.frame⟩

theorem completes_stewardRestartComplete (hup : halted s = false) (hbusy : s.stew.busy = true) (hact : s.stew.activating = none) :
    Completes .stewardRestartComplete s fun t => t.stew = { s.stew with busy := false } ∧ Frame [.stew] s t := by
  have hexec : exec .stewardRestartComplete s = execStewardRestartComplete s := rfl
  rw [execStewardRestartComplete, hbusy, if_neg (by decide)] at hexec
  dsimp only at hexec
  rw [State.onStew_stew, hact] at hexec
  exact completes_of_up hup hexec ⟨_, rfl, rfl, frame_withDigests.2 (Effect.refl (w := false)).onStew.frame⟩

theorem completes_stewardRestartComplete_activating {k : Nat} (hup : halted s = false) (hbusy : s.stew.busy = true)
    (hact : s.stew.activating = some k) :
    Completes .stewardRestartComplete s fun t => t.stew.busy = false ∧ t.stew.active = k ∧
      t.stew.activating = none ∧ t.stew.secMin = max s.stew.secMin (slotAt s.stew k).sec ∧ t.stew.rom = false ∧
      t.stew.heldPost = none ∧ t.fls.tables = s.fls.tables ++ Config.imageTables (slotAt s.stew k).image ∧ Frame [.stew, .fls, .rel] s t := by
  have hexec : exec .stewardRestartComplete s = execStewardRestartComplete s := rfl
  rw [execStewardRestartComplete, hbusy, if_neg (by decide)] at hexec
  dsimp only at hexec
  rw [State.onStew_stew, hact] at hexec
  refine completes_of_up hup hexec ?_
  cases hp : s.stew.heldPost with
  | none =>
    dsimp only
    rw [State.onFls_stew, State.onStew_stew, State.onStew_stew]
    dsimp only
    rw [hp]
    refine ⟨_, rfl, rfl, rfl, rfl, rfl, rfl, hp, rfl, ?_⟩
    exact frame_withDigests.2 (Effect.refl (w := false)).onStew.onStew.onFls.raiseEvent.frame
  | some p =>
    dsimp only
    rw [State.onFls_stew, State.onStew_stew, State.onStew_stew]
    dsimp only
    rw [hp]
    refine ⟨_, rfl, rfl, rfl, rfl, rfl, rfl, rfl, rfl, ?_⟩
    exact frame_withDigests.2 (Effect.refl (w := false)).onStew.onStew.onFls.onRel.onStew.raiseEvent.frame

/-! The SPDM connection (R449). -/

/-- The parts of the Steward's state that belong to the SPDM connection may change. -/
theorem sendsSpdm_of_onStew {b : Bytes} {f : Stew → Stew} (hup : ∀ w, f w = { w with
    doeOut := w.doeOut, spdm := (f w).spdm, spdmSess := (f w).spdmSess, sessCtr := (f w).sessCtr, kreq := (f w).kreq }) :
    SendsSpdm b s (withDigests s (spdmSend b (s.onStew f))) := by
  have hout : (f s.stew).doeOut = s.stew.doeOut := (congrArg Stew.doeOut (hup s.stew)).trans rfl
  have hmbx : (f s.stew).mbx = s.stew.mbx := (congrArg Stew.mbx (hup s.stew)).trans rfl
  refine ⟨?_, frame_withDigests.2 ((Effect.refl (w := false)).onStew (hm := hmbx)).onStew.frame, ?_⟩
  · exact congrArg (· ++ [b]) hout
  · have h := hup s.stew
    rw [withDigests_stew]
    show ({ f s.stew with doeOut := (f s.stew).doeOut ++ [b] } : Stew) = _
    exact congrArg (fun w : Stew => { w with doeOut := (f s.stew).doeOut ++ [b] }) h

/-- A running node's command that sends an SPDM message, changing only the connection's state before. -/
theorem completes_spdm {c : Instr} {b : Bytes} {f : Stew → Stew} {claim : State → Prop} (hup : halted s = false)
    (hexec : exec c s = whileUp s (.next (spdmSend b (s.onStew f))))
    (hf : ∀ w, f w = { w with
      doeOut := w.doeOut, spdm := (f w).spdm, spdmSess := (f w).spdmSess, sessCtr := (f w).sessCtr, kreq := (f w).kreq })
    (hclaim : claim (withDigests s (spdmSend b (s.onStew f)))) :
    Completes c s fun t => SendsSpdm b s t ∧ claim t :=
  completes_of_up hup hexec ⟨_, rfl, sendsSpdm_of_onStew hf, hclaim⟩

/-- A running node's command that sends an SPDM message and leaves the connection as it is. -/
theorem completes_spdm_kept {c : Instr} {b : Bytes} (hup : halted s = false) (hexec : exec c s = whileUp s (.next (spdmSend b s))) :
    Completes c s fun t => SendsSpdm b s t ∧ t.stew.spdm = s.stew.spdm :=
  completes_spdm (f := id) hup hexec (fun _ => rfl) rfl

section
variable (hup : halted s = false)
include hup

theorem completes_getVersion : Completes .getVersion s fun t => SendsSpdm (spdmMsg 0x04 []) s t ∧ t.stew.spdm = .versioned ∧
    t.stew.spdmSess = none :=
  completes_spdm hup rfl (fun _ => rfl) ⟨rfl, rfl⟩

theorem completes_getCapabilities (h : s.stew.spdm = .versioned) :
    Completes .getCapabilities s fun t => SendsSpdm (spdmMsg 0x61 []) s t ∧ t.stew.spdm = .capable := by
  have hexec : exec .getCapabilities s = execGetCapabilities s := rfl
  rw [execGetCapabilities, if_pos h] at hexec
  exact completes_spdm hup hexec (fun _ => rfl) rfl

theorem completes_negotiateAlgorithms (h : s.stew.spdm = .capable) :
    Completes (.negotiateAlgorithms true) s fun t => SendsSpdm (spdmMsg 0x63 []) s t ∧ t.stew.spdm = .negotiated := by
  have hexec : exec (.negotiateAlgorithms true) s = execNegotiateAlgorithms true s := rfl
  rw [execNegotiateAlgorithms, h] at hexec
  exact completes_spdm hup hexec (fun _ => rfl) rfl

section
variable (h : negotiated s = true)
include h

theorem completes_getDigests : Completes .getDigests s fun t => SendsSpdm (spdmMsg 0x01 []) s t ∧ t.stew.spdm = s.stew.spdm := by
  have hexec : exec .getDigests s = execGetDigests s := rfl
  rw [execGetDigests, h] at hexec
  exact completes_spdm_kept hup hexec

theorem completes_getCertificate (off len : Nat) : Completes (.getCertificate 0 off len) s fun t =>
    SendsSpdm (spdmMsg 0x02 (toLe 2 off ++ toLe 2 len)) s t ∧ t.stew.spdm = s.stew.spdm := by
  have hexec : exec (.getCertificate 0 off len) s = execGetCertificate 0 off len s := rfl
  rw [execGetCertificate, h] at hexec
  exact completes_spdm_kept hup hexec

theorem completes_challenge : Completes (.challenge 0) s fun t => SendsSpdm (spdmMsg 0x03 []) s t ∧ t.stew.spdm = s.stew.spdm := by
  have hexec : exec (.challenge 0) s = execChallenge 0 s := rfl
  rw [execChallenge, h] at hexec
  exact completes_spdm_kept hup hexec

theorem completes_getMeasurements (hbusy : s.stew.busy = false) {i : Nat} (hlo : 1 ≤ i) (hhi : i ≤ 6) :
    Completes (.getMeasurements i) s fun t => SendsSpdm (spdmMsg 0x60 (toLe 1 i ++ measurement s i)) s t ∧ t.stew.spdm = s.stew.spdm := by
  have hexec : exec (.getMeasurements i) s = execGetMeasurements i s := rfl
  rw [execGetMeasurements, hbusy, h, if_neg Bool.false_ne_true, if_neg (by decide), if_neg (by omega),
    if_pos (by rw [inRange, decide_eq_true hlo, decide_eq_true hhi]; rfl)] at hexec
  exact completes_spdm_kept hup hexec

end

theorem completes_keyExchange (h : s.stew.spdm = .negotiated) :
    Completes (.keyExchange 0) s fun t =>
      SendsSpdm (spdmMsg 0x64 (toLe 4 (s.stew.sessCtr + 1))) s t ∧ t.stew.spdm = .sessionOpening ∧ t.stew.sessCtr = s.stew.sessCtr + 1 := by
  have hexec : exec (.keyExchange 0) s = execKeyExchange 0 s := rfl
  rw [execKeyExchange, h] at hexec
  exact completes_spdm hup hexec (fun _ => rfl) ⟨rfl, rfl⟩

theorem completes_finish (h : s.stew.spdm = .sessionOpening) :
    Completes (.finish true) s fun t =>
      SendsSpdm (spdmMsg 0x65 []) s t ∧ t.stew.spdm = .session ∧ t.stew.spdmSess = some s.stew.sessCtr := by
  have hexec : exec (.finish true) s = execFinish true s := rfl
  rw [execFinish, h] at hexec
  exact completes_spdm hup hexec (fun _ => rfl) ⟨rfl, rfl⟩

section
variable {id : Nat} (h : s.stew.spdm = .session) (hid : s.stew.spdmSess = some id)
include h hid

omit hup in
theorem inSession_of_open : inSession s id = true := by
  rw [inSession, h, hid]
  simp

theorem completes_heartbeat : Completes (.heartbeat id) s fun t => SendsSpdm (spdmMsg 0x68 []) s t ∧ t.stew.spdm = .session := by
  have hexec : exec (.heartbeat id) s = execHeartbeat id s := rfl
  rw [execHeartbeat, inSession_of_open h hid] at hexec
  exact h ▸ completes_spdm_kept hup hexec

theorem completes_keyUpdate : Completes (.keyUpdate id) s fun t => SendsSpdm (spdmMsg 0x69 []) s t ∧ t.stew.spdm = .session := by
  have hexec : exec (.keyUpdate id) s = execKeyUpdate id s := rfl
  rw [execKeyUpdate, inSession_of_open h hid] at hexec
  exact h ▸ completes_spdm_kept hup hexec

theorem completes_endSession : Completes (.endSession id) s fun t =>
    SendsSpdm (spdmMsg 0x6C []) s t ∧ t.stew.spdm = .negotiated ∧ t.stew.spdmSess = none := by
  have hexec : exec (.endSession id) s = execEndSession id s := rfl
  rw [execEndSession, inSession_of_open h hid] at hexec
  exact completes_spdm hup hexec (fun _ => rfl) ⟨rfl, rfl⟩

end

end

end

/-- Settles O50: firmware is loaded, activated and falls back, and the SPDM connection goes through its phases. -/
theorem firmwareStartsAndSpdmConnects : Obligations.FirmwareStartsAndSpdmConnects :=
  ⟨⟨fun _ _ _ _ h hrec hlo hhi => ⟨fun _ => completes_fwLoad_reserved h hrec hlo hhi, completes_fwLoad_valid h hrec hlo hhi⟩,
    fun _ _ _ => completes_fwActivate, fun _ _ => completes_fwActivateTimeout,
    fun _ hup hbusy => ⟨completes_stewardRestartComplete hup hbusy, fun _ => completes_stewardRestartComplete_activating hup hbusy⟩⟩,
    fun _ hup => ⟨completes_getVersion hup, completes_getCapabilities hup, completes_negotiateAlgorithms hup,
      fun h => ⟨completes_getDigests hup h, completes_getCertificate hup h, completes_challenge hup h,
        fun hbusy _ => completes_getMeasurements hup h hbusy⟩,
      completes_keyExchange hup, completes_finish hup,
      fun _ h hid => ⟨completes_heartbeat hup h hid, completes_keyUpdate hup h hid, completes_endSession hup h hid⟩⟩⟩

end Sys2Proof.Proofs

/-! Key commands and the CXL memory-device mailbox (R272, R298). -/

namespace Sys2Proof.Proofs
open Sys2Proof Sys2Proof.Machine Sys2Proof.Safety

set_option Elab.async false

section
variable {s t : State} {m : Bytes} {tn : Nat}

/-! Keys (R272). -/

theorem completes_vendorDefinedRequest {sess : Nat} (hup : halted s = false) (hfree : s.stew.kreq = none)
    (hgood : kBad s m (inSession s sess) = none) :
    Completes (.vendorDefinedRequest sess m) s fun t => t.stew = { s.stew with kreq := some (zTenant m, m) } ∧ Frame [.stew] s t := by
  have hexec : exec (.vendorDefinedRequest sess m) s = execVendorDefinedRequest sess m s := rfl
  rw [execVendorDefinedRequest, hfree, if_neg (by decide), hgood] at hexec
  exact completes_of_up hup hexec ⟨_, rfl, rfl, frame_withDigests.2 (Effect.refl (w := false)).onStew.frame⟩

theorem completes_vendorDefinedRequest_refused {sess st d : Nat} (hup : halted s = false) (hfree : s.stew.kreq = none)
    (hbad : kBad s m (inSession s sess) = some (st, d)) :
    Completes (.vendorDefinedRequest sess m) s fun t => SendsSpdm (spdmMsg 0x7E (answerOf m st d [])) s t ∧ t.stew.kreq = none := by
  have hexec : exec (.vendorDefinedRequest sess m) s = execVendorDefinedRequest sess m s := rfl
  rw [execVendorDefinedRequest, hfree, if_neg (by decide), hbad] at hexec
  exact completes_spdm (f := id) hup hexec (fun _ => rfl) hfree

/-- What a K command does to the flash, its answer leaves. -/
theorem kDone_facts (status detail : Nat) (s : State) :
    (kDone m status detail s).stew = { s.stew with kreq := none, doeOut := s.stew.doeOut ++ [spdmMsg 0x7E (answerOf m status detail [])] } ∧
    (kDone m status detail s).fls = s.fls := ⟨rfl, rfl⟩

/-- The bytes of a part of a byte string: its own, then zeros. -/
theorem getElem?_slice (b : Bytes) (off n i : Nat) : (slice b off n)[i]? = if i < n then some ((b[off + i]?).getD 0) else none := by
  rw [slice]
  rw [List.getElem?_append, List.getElem?_take, List.getElem?_drop, List.length_take, List.length_drop, List.getElem?_replicate]
  by_cases hi : i < n
  · rw [if_pos hi]
    by_cases hb : off + i < b.length
    · rw [if_pos (by omega), if_pos hi, List.getElem?_eq_getElem hb, Option.getD_some]
    · rw [if_neg (by omega), if_pos (by omega), if_pos hi, List.getElem?_eq_none (by omega), Option.getD_none]
  · rw [if_neg (by omega), if_neg (by omega), if_neg hi]

/-- A part of a byte string cut in two. -/
theorem slice_append_slice (b : Bytes) (off n k : Nat) : (slice b off (n + k)).take n = slice b off n ∧
    (slice b off (n + k)).drop n = slice b (off + n) k := by
  constructor <;> refine List.ext_getElem? fun i => ?_
  · rw [List.getElem?_take, getElem?_slice, getElem?_slice]
    by_cases hi : i < n
    · rw [if_pos hi, if_pos (by omega), if_pos hi]
    · rw [if_neg hi, if_neg hi]
  · rw [List.getElem?_drop, getElem?_slice, getElem?_slice, Nat.add_assoc]
    by_cases hi : i < k
    · rw [if_pos (by omega), if_pos hi]
    · rw [if_neg (by omega), if_neg hi]

theorem completes_keyLoad (hup : halted s = false) (hready : kReady s 0x0407 = some (tn, m))
    (hne : slice m 0x20 32 ≠ slice m 0x40 32) :
    Completes .keyLoad s fun t => tabGet t.fls.xts tn = some (slice m 0x20 64) ∧
      (∀ j, j ≠ tn → tabGet t.fls.xts j = tabGet s.fls.xts j) ∧ t.stew.kreq = none ∧
      t.stew.doeOut = s.stew.doeOut ++ [spdmMsg 0x7E (answerOf m 0 0 [])] ∧ Frame [.stew, .fls, .rel] s t := by
  have hexec : exec .keyLoad s = execKeyLoad s := rfl
  obtain ⟨htake, hdrop⟩ := slice_append_slice m 0x20 32 32
  rw [execKeyLoad, hready] at hexec
  dsimp only at hexec
  rw [show (64 : Nat) = 32 + 32 from rfl, htake, hdrop, if_neg (by simpa using hne)] at hexec
  refine completes_of_up hup hexec ⟨_, rfl, ?_, fun j hj => ?_, rfl, rfl, ?_⟩
  · exact tabGet_tabSet_same ..
  · exact tabGet_tabSet_other _ _ _ _ hj
  · exact frame_withDigests.2 (Effect.refl (w := false)).onFls.onRel.kDone.frame

section
variable (hup : halted s = false) (hready : kReady s 0x0408 = some (tn, m))
include hup hready

theorem completes_keyDestroy (hfree : ∀ p ∈ s.obj.recs, ¬(p.2.protected_ = true ∧ hTenant p.2.handle = tn)) :
    Completes .keyDestroy s fun t =>
      tabGet t.fls.xts tn = none ∧ (∀ j, j ≠ tn → tabGet t.fls.xts j = tabGet s.fls.xts j) ∧
      (∀ b r, tabGet s.fls.blks b = some r → r.key = tn → (r.mode = 1 ∨ r.mode = 2) → (blkOf t b).eraseDue = true) ∧
      t.stew.kreq = none ∧ t.stew.doeOut = s.stew.doeOut ++ [spdmMsg 0x7E (answerOf m 0 0 [])] ∧ Frame [.stew, .fls, .rel] s t := by
  have hany : (s.obj.recs.any fun p => p.2.protected_ && hTenant p.2.handle == tn) = false := by
    rw [List.any_eq_false]
    intro p hp
    simpa using hfree p hp
  have hexec : exec .keyDestroy s = execKeyDestroy s := rfl
  rw [execKeyDestroy, hready] at hexec
  dsimp only at hexec
  rw [hany, if_neg Bool.false_ne_true] at hexec
  refine completes_of_up hup hexec ⟨_, rfl, ?_, fun j hj => ?_, fun b r hb hk hmode => ?_, rfl, rfl, ?_⟩
  · exact tabGet_tabDel_same ..
  · exact tabGet_tabDel_other _ _ _ hj
  · have hget : tabGet (s.fls.blks.map fun b => (b.1,
        if b.2.key = tn && (b.2.mode = 1 || b.2.mode = 2) then { b.2 with eraseDue := true } else b.2)) b = some { r with eraseDue := true } := by
      rw [tabGet_map fun r : Blk => if r.key = tn && (r.mode = 1 || r.mode = 2) then { r with eraseDue := true } else r, hb, Option.map_some,
        if_pos (by simpa [hk] using hmode)]
    exact (congrArg (fun o : Option Blk => (o.getD {}).eraseDue) hget).trans rfl
  · exact frame_withDigests.2 (Effect.refl (w := false)).onFls.onRel.kDone.frame

theorem completes_keyDestroy_inUse (hused : ∃ p ∈ s.obj.recs, p.2.protected_ = true ∧ hTenant p.2.handle = tn) :
    Completes .keyDestroy s fun t => t.stew.kreq = none ∧
      t.stew.doeOut = s.stew.doeOut ++ [spdmMsg 0x7E (answerOf m 0x0804 0 [])] ∧ Frame [.stew] s t := by
  have hany : (s.obj.recs.any fun p => p.2.protected_ && hTenant p.2.handle == tn) = true := by
    rw [List.any_eq_true]
    obtain ⟨p, hp, hprot, htn⟩ := hused
    exact ⟨p, hp, by rw [hprot, htn]; simp⟩
  have hexec : exec .keyDestroy s = execKeyDestroy s := rfl
  rw [execKeyDestroy, hready] at hexec
  dsimp only at hexec
  rw [hany, if_pos rfl] at hexec
  exact completes_of_up hup hexec ⟨_, rfl, rfl, rfl, frame_withDigests.2 (Effect.refl (w := false)).kDone.frame⟩

end

/-! The CXL mailbox (R298). -/

/-- A running node's command that is an answer of the CXL mailbox. -/
theorem answersCxl_of_exec {c : Instr} {code : Nat} {payload : Bytes} (hup : halted s = false)
    (hexec : exec c s = whileUp s (.next (cxlAnswer code payload s))) : AnswersCxl c code payload s :=
  completes_of_up hup hexec ⟨_, rfl, rfl, frame_withDigests.2 (Effect.refl (w := false)).onStew.frame⟩

theorem completes_cxlClearEventRecords (hup : halted s = false) :
    Completes .cxlClearEventRecords s fun t =>
      t.stew = { s.stew with cxlEvents := [], cxlOut := s.stew.cxlOut ++ [(0, [])] } ∧ Frame [.stew] s t :=
  completes_of_up hup rfl ⟨_, rfl, rfl, frame_withDigests.2 (Effect.refl (w := false)).onStew.onStew.frame⟩

theorem answersCxl_unsupported {op : Nat} (hup : halted s = false) (hop : op ∉ [0x4000, 0x0100, 0x0101, 0x4200, 0x4300]) :
    AnswersCxl (.cxlUnsupportedCommand op) 3 [] s := by
  have hexec : exec (.cxlUnsupportedCommand op) s = execCxlUnsupportedCommand op s := rfl
  rw [execCxlUnsupportedCommand, if_neg (by rw [List.contains_iff_mem]; exact hop)] at hexec
  exact answersCxl_of_exec hup hexec

end

/-- Settles O51: K commands wait, load and destroy keys, and the CXL mailbox answers. -/
theorem keysAndCxlCommandsAnswer : Obligations.KeysAndCxlCommandsAnswer :=
  ⟨⟨fun _ _ _ hup hfree => ⟨completes_vendorDefinedRequest hup hfree, fun _ _ => completes_vendorDefinedRequest_refused hup hfree⟩,
    fun _ _ _ => completes_keyLoad, fun _ _ _ hup hready => ⟨completes_keyDestroy hup hready, completes_keyDestroy_inUse hup hready⟩⟩,
    fun _ hup => ⟨answersCxl_of_exec hup rfl, answersCxl_of_exec hup rfl, answersCxl_of_exec hup rfl, answersCxl_of_exec hup rfl⟩,
    fun _ => completes_cxlClearEventRecords, fun _ _ => answersCxl_unsupported⟩

end Sys2Proof.Proofs

/-! Power loss, its flush and the restarts that follow (R420 to R422, R433 to R438). -/

namespace Sys2Proof.Proofs
open Sys2Proof Sys2Proof.Machine Sys2Proof.Safety

set_option Elab.async false

section
variable {s t : State}

/-! What a restart leaves (R420 to R424). -/

/-- Verifying the Steward's slots leaves the start-up's place and the boot count. -/
theorem bootSteward_facts (s : State) :
    Effect [.stew] false s (bootSteward s) ∧ (bootSteward s).stew.phase = s.stew.phase ∧
    (bootSteward s).stew.bootDone = s.stew.bootDone ∧ (bootSteward s).stew.boot = s.stew.boot ∧
    (bootSteward s).stew.cur = s.stew.cur := by
  refine ⟨Effect.refl.bootSteward, ?_⟩
  unfold bootSteward
  extract_lets w ok
  split
  · exact ⟨rfl, rfl, rfl, rfl⟩
  · split <;> exact ⟨rfl, rfl, rfl, rfl⟩

theorem loseVolatile_mediaKey (s : State) : (loseVolatile s).fls.mediaKey = s.fls.mediaKey := by
  unfold loseVolatile
  extract_lets gone x
  have h : Effect [.obj] true (x.onFls fun f => { f with units := f.units.filter fun u => !u.2.upper }) _ :=
    Effect.refl.foldl (l := gone) (f := fun s i => removeObject i s) fun _ _ h => h.removeObject
  exact (congrArg Fls.mediaKey (h.frame .fls (by decide))).trans rfl

/-- Island 0 as a restart of either kind leaves it (R420 to R422). -/
def restartAon (warm : Bool) (a : Aon) : Aon :=
  if warm then { a with
    inReset := [], off := [], notReady := [], flush := none, powerSamples := [], capMhz := 1700, skipping := false,
    clusterMhz := [], stackHot := [], refresh2 := [], critSince := none, pmeOut := false }
  else resetAon a

/-- What a restart keeps and what it begins anew, part by part. -/
theorem restart_facts (warm : Bool) (s : State) :
    (restart warm s).aon = restartAon warm s.aon ∧
    (restart warm s).stew.phase = 0 ∧ (restart warm s).stew.bootDone = warm ∧ (restart warm s).stew.boot = (endReplay s).stew.boot ∧
    (restart warm s).stew.cur = (endReplay s).stew.cur ∧
    (restart warm s).hif.cmds = [] ∧ (restart warm s).eng = resetEng (endReplay s).eng ∧
    (restart warm s).shv.retired = s.shv.retired ∧ (restart warm s).stk.badCulms = s.stk.badCulms ∧
    (restart warm s).fls.mediaKey = (endReplay s).fls.mediaKey := by
  have hend : Effect [.stew, .eng, .idx, .obj, .fls, .recd] true s (endReplay s) := Effect.refl.endReplay
  have hlose : Effect [.obj, .fls] true (endReplay s) (loseVolatile (undoComputed (endReplay s))) := Effect.refl.undoComputed.loseVolatile
  have hundo : Effect [.obj] true (endReplay s) (undoComputed (endReplay s)) := Effect.refl.undoComputed
  have hkey : (loseVolatile (undoComputed (endReplay s))).fls.mediaKey = (endReplay s).fls.mediaKey :=
    (loseVolatile_mediaKey _).trans (congrArg Fls.mediaKey (hundo.frame .fls (by decide)))
  have haon := (hlose.frame .aon (by decide)).trans (hend.frame .aon (by decide))
  have hstew := hlose.frame .stew (by decide)
  have heng := hlose.frame .eng (by decide)
  have hshv := (hlose.frame .shv (by decide)).trans (hend.frame .shv (by decide))
  have hstk := (hlose.frame .stk (by decide)).trans (hend.frame .stk (by decide))
  unfold restart
  generalize loseVolatile (undoComputed (endReplay s)) = x at *
  extract_lets x0 x1 x2 x3 x4 x5 x6 x7
  obtain ⟨hboot, hphase, hdone, hcount, hcur⟩ := bootSteward_facts (((x7.onFab resetFab).onRel resetRel).onRec resetRec)
  refine ⟨?_, hphase.trans rfl, hdone.trans rfl, ?_, ?_, ?_, ?_, ?_, ?_, ?_⟩
  · rw [hboot.frame .aon (by decide), ← haon]
    rfl
  · rw [hcount, ← hstew]
    rfl
  · rw [hcur, ← hstew]
    rfl
  · rw [hboot.frame .hif (by decide)]
    rfl
  · rw [hboot.frame .eng (by decide), ← heng]
    rfl
  · rw [hboot.frame .shv (by decide), ← hshv]
    rfl
  · rw [hboot.frame .stk (by decide), ← hstk]
    rfl
  · rw [hboot.frame .fls (by decide), ← hkey]
    rfl

/-- A cold start ends the flush and begins recovery with nothing in progress. -/
theorem coldStart_facts (s : State) : (coldStart s).aon = resetAon s.aon ∧ (coldStart s).stew.phase = 0 ∧
    (coldStart s).stew.bootDone = false ∧ (coldStart s).hif.cmds = [] ∧ (coldStart s).eng = resetEng (endReplay s).eng ∧
    (coldStart s).shv.retired = s.shv.retired ∧ (coldStart s).stk.badCulms = s.stk.badCulms ∧
    (coldStart s).fls.mediaKey = (endReplay s).fls.mediaKey ∧ (coldStart s).stew.cur = (endReplay s).stew.cur := by
  obtain ⟨h1, h2, h3, -, h9, h4, h5, h6, h7, h8⟩ := restart_facts false s
  unfold coldStart
  dsimp only
  generalize restart false s = x at *
  split <;> exact ⟨h1, h2, h3, h4, h5, h6, h7, h8, h9⟩

/-- What a replay's end restores does not depend on island 0. -/
theorem endReplay_onAon (f : Aon → Aon) (s : State) :
    (endReplay (s.onAon f)).eng = (endReplay s).eng ∧ (endReplay (s.onAon f)).stew = (endReplay s).stew ∧
    (endReplay (s.onAon f)).fls = (endReplay s).fls := by
  unfold endReplay
  rw [State.onAon_recd]
  split <;> exact ⟨rfl, rfl, rfl⟩

/-! Power good, power failures and glitches (R424, R433, R437). -/

section
variable (hlow : s.aon.powered = false)
include hlow

theorem completes_powerGood_flushing {f : Flush} (hf : s.aon.flush = some f) (hseal : f.sealed = false)
    (hrun : s.aon.inReset.contains 1 = false) :
    Completes .powerGood s fun t => t.aon = { s.aon with powered := true } ∧ Frame [.aon] s t := by
  have hexec : exec .powerGood s = execPowerGood s := rfl
  rw [execPowerGood, if_neg (by rw [hlow]; decide)] at hexec
  dsimp only at hexec
  rw [if_pos (by rw [State.onAon_aon, hf, hrun, Option.any_some, hseal]; rfl)] at hexec
  exact ⟨_, hexec, rfl, (Effect.refl (w := false)).onAon.frame⟩

theorem completes_powerGood_start (hf : ∀ f, s.aon.flush = some f → f.sealed = true ∨ s.aon.inReset.contains 1 = true) :
    Completes .powerGood s fun t => t.aon.powered = true ∧ t.aon.flush = none ∧ t.aon.faultCause = 0#64 ∧ t.stew.phase = 0 ∧
      t.stew.bootDone = false ∧ t.hif.cmds = [] ∧ t.eng.epoch = (endReplay s).eng.epoch ∧ t.eng.binders = [] ∧ t.eng.husks = [] ∧
      t.shv.retired = s.shv.retired ∧ t.stk.badCulms = s.stk.badCulms ∧ t.fls.mediaKey = (endReplay s).fls.mediaKey := by
  have hover : ((s.aon.flush.any fun f => !f.sealed) && !s.aon.inReset.contains 1) = false := by
    cases hs : s.aon.flush with
    | none => rfl
    | some f =>
      rcases hf f hs with h | h
      · rw [Option.any_some, h]
        rfl
      · rw [h, Bool.not_true, Bool.and_false]
  have hexec : exec .powerGood s = execPowerGood s := rfl
  rw [execPowerGood, if_neg (by rw [hlow]; decide)] at hexec
  dsimp only at hexec
  rw [State.onAon_aon] at hexec
  dsimp only at hexec
  rw [hover, if_neg Bool.false_ne_true] at hexec
  obtain ⟨heng, -, hfls⟩ := endReplay_onAon (fun a => { a with powered := true }) s
  obtain ⟨h1, h2, h3, h4, h5, h6, h7, h8, -⟩ := coldStart_facts (s.onAon fun a => { a with powered := true })
  rw [heng] at h5
  rw [hfls] at h8
  refine ⟨_, hexec, ?_, ?_, ?_, h2, h3, h4, ?_, ?_, ?_, h6, h7, h8⟩
  · rw [h1]; rfl
  · rw [h1]; rfl
  · rw [h1]; rfl
  · rw [h5]; rfl
  · rw [h5]; rfl
  · rw [h5]; rfl

end

theorem flush_of_up (hup : halted s = false) : s.aon.flush = none := by
  rw [halted, Bool.or_eq_false_iff] at hup
  exact Option.not_isSome_iff_eq_none.1 (by rw [hup.1]; decide)

section
variable (hhigh : s.aon.pwrFailLow = false) (hup : halted s = false)
include hhigh hup

theorem completes_pwrFailNAssert : Completes .pwrFailNAssert s fun t => t.aon = { s.aon with
    pwrFailLow := true, tripSeen := s.aon.tripSeen || s.aon.tripHold,
    flush := some { cause := 0, jrecs := undurable s, at_ := s.aon.uptime } } ∧ Frame [.aon, .rel] s t := by
  have hexec : exec .pwrFailNAssert s = execPwrFailNAssert s := rfl
  rw [execPwrFailNAssert, if_neg (by rw [hhigh]; decide)] at hexec
  dsimp only at hexec
  refine ⟨_, hexec, ?_, (Effect.refl (w := false)).onAon.powerEvent.frame⟩
  rw [powerEvent_facts]
  · rfl
  · rw [halted, State.onAon_aon]
    dsimp only
    rw [flush_of_up hup]
    rw [halted, flush_of_up hup] at hup
    exact hup

theorem completes_railOutOfLimits {r : Nat} (hr : r < 8) : Completes (.railOutOfLimits r) s fun t => t.aon = { s.aon with
    powered := false, flush := some { cause := 4, jrecs := undurable s, at_ := s.aon.uptime } } ∧ Frame [.aon, .rel] s t := by
  have hexec : exec (.railOutOfLimits r) s = execRailOutOfLimits r s := rfl
  rw [execRailOutOfLimits, if_neg (by rw [hhigh, decide_eq_false (by omega)]; decide)] at hexec
  exact ⟨_, hexec, powerEvent_facts 4 (s := s.onAon fun a => { a with powered := false }) hup,
    (Effect.refl (w := false)).onAon.powerEvent.frame⟩

end

theorem completes_pwrFailNGlitch (hhigh : s.aon.pwrFailLow = false) : Completes .pwrFailNGlitch s fun t =>
    (∃ x, t.rel = { s.rel with logq := s.rel.logq ++ [x] } ∧ x.code = Config.logCode Log.glitch) ∧ Frame [.rel] s t := by
  have hexec : exec .pwrFailNGlitch s = execPwrFailNGlitch s := rfl
  rw [execPwrFailNGlitch, if_neg (by rw [hhigh]; decide)] at hexec
  exact ⟨_, hexec, ⟨_, rfl, rfl⟩, (Effect.refl (w := false)).onRel.frame⟩

section
variable (hlow : s.aon.pwrFailLow = true)
include hlow

theorem completes_pwrFailNRelease (hf : s.aon.flush = none) :
    Completes .pwrFailNRelease s fun t => t.aon.pwrFailLow = false ∧ Frame [.aon] s t := by
  have hexec : exec .pwrFailNRelease s = execPwrFailNRelease s := rfl
  rw [execPwrFailNRelease, if_neg (by rw [hlow]; decide)] at hexec
  dsimp only at hexec
  rw [if_neg (by rw [mayStart, State.onAon_aon]; dsimp only; rw [hf]; exact Bool.false_ne_true)] at hexec
  exact ⟨_, hexec, rfl, (Effect.refl (w := false)).onAon.frame⟩

theorem completes_pwrFailNRelease_start {f : Flush} (hf : s.aon.flush = some f) (hseal : f.sealed = true) (hpow : s.aon.powered = true)
    (htrip : s.aon.tripHold = false ∨ s.aon.tripSeen = true) :
    Completes .pwrFailNRelease s fun t => t.aon.flush = none ∧ t.stew.phase = 0 ∧ t.hif.cmds = [] ∧
      t.eng.epoch = (endReplay s).eng.epoch ∧ t.eng.binders = [] := by
  have hhold : (s.aon.tripHold && !s.aon.tripSeen) = false := by
    rcases htrip with h | h
    · rw [h, Bool.false_and]
    · rw [h, Bool.not_true, Bool.and_false]
  have hexec : exec .pwrFailNRelease s = execPwrFailNRelease s := rfl
  rw [execPwrFailNRelease, if_neg (by rw [hlow]; decide)] at hexec
  dsimp only at hexec
  rw [if_pos (by rw [mayStart, State.onAon_aon]; dsimp only; rw [hf, hpow, hhold, Option.any_some, hseal]; decide)] at hexec
  obtain ⟨heng, -, -⟩ := endReplay_onAon (fun a => { a with
    pwrFailLow := false, tripHold := a.tripHold && !a.tripSeen, tripSeen := a.tripSeen && !a.tripHold }) s
  obtain ⟨h1, h2, -, h4, h5, -⟩ := coldStart_facts (s.onAon fun a => { a with
    pwrFailLow := false, tripHold := a.tripHold && !a.tripSeen, tripSeen := a.tripSeen && !a.tripHold })
  rw [heng] at h5
  refine ⟨_, hexec, ?_, h2, h4, ?_, ?_⟩
  · rw [h1]; rfl
  · rw [h5]; rfl
  · rw [h5]; rfl

end

/-! The flush (R434 to R438). -/

/-- What the flush set holds is clean, and the rest of island 0 is as before. -/
theorem flushWritten_facts (rs : List JRec) (n : Nat) (s : State) :
    (flushWritten rs n s).aon = { s.aon with stream := (flushWritten rs n s).aon.stream } ∧ (flushWritten rs n s).obj.dirtyHdr = 0 ∧
    (flushWritten rs n s).fls.dirtyMap = 0 ∧ (endReplay (flushWritten rs n s)).eng = (endReplay s).eng ∧
    (endReplay (flushWritten rs n s)).stew = (endReplay s).stew := by
  refine ⟨rfl, rfl, rfl, ?_⟩
  have hw : Effect [.aon, .obj, .fls] false s (flushWritten rs n s) := Effect.refl.flushWritten
  have heng := hw.frame .eng (by decide)
  have hstew := hw.frame .stew (by decide)
  have hrec := hw.frame .recd (by decide)
  generalize flushWritten rs n s = x at heng hstew hrec ⊢
  unfold endReplay
  rw [hrec]
  split
  case h_1 k hk => exact ⟨rfl, congrArg (fun w : Stew => { w with cur := k.cur, boot := k.boot }) hstew⟩
  case h_2 => exact ⟨heng, hstew⟩

section
variable {f : Flush} (hf : s.aon.flush = some f) (hseal : f.sealed = false) (hrun : s.aon.inReset.contains 1 = false)
include hf hseal hrun

theorem completes_flushComplete_warm (hwarm : f.warm = true) : Completes .flushComplete s fun t => t.aon.flush = none ∧
    t.stew.phase = 0 ∧ t.stew.bootDone = true ∧ t.stew.boot = (endReplay s).stew.boot ∧ t.hif.cmds = [] ∧
    t.eng.epoch = (endReplay s).eng.epoch ∧ t.aon.faultCause = s.aon.faultCause := by
  have hexec : exec .flushComplete s = execFlushComplete s := rfl
  rw [execFlushComplete, hf] at hexec
  dsimp only at hexec
  rw [if_neg (by rw [hseal, hrun]; decide), if_pos hwarm] at hexec
  obtain ⟨haon, -, -, heng, hstew⟩ := flushWritten_facts f.jrecs s.fls.mapLog.length s
  generalize flushWritten f.jrecs s.fls.mapLog.length s = x at hexec haon heng hstew
  generalize hy : x.onAon _ = y at hexec
  obtain ⟨heng', hstew', -⟩ := endReplay_onAon (fun a : Aon => { a with
    sealPg := some { boot := x.stew.boot, up := a.uptime, cause := f.cause, gasp := a.gasp, gaspUp := a.gaspUp, fails := logFailCount x } }) x
  rw [hy] at heng' hstew'
  obtain ⟨h1, h2, h3, h4, -, h5, h6, -⟩ := restart_facts true y
  refine ⟨_, hexec, ?_, h2, h3, ?_, h5, ?_, ?_⟩
  · rw [h1]; rfl
  · rw [h4, hstew', hstew]
  · rw [h6, heng', heng]; rfl
  · rw [h1, ← hy]
    exact (congrArg Aon.faultCause haon).trans rfl

theorem completes_flushComplete_sealed (hwarm : f.warm = false) (hwait : s.aon.pwrFailLow = true ∨ s.aon.powered = false) :
    Completes .flushComplete s fun t =>
      t.aon.flush = some { f with sealed := true } ∧ t.aon.inReset = otherIslands ∧
      t.aon.sealPg = some {
        boot := s.stew.boot, up := s.aon.uptime, cause := f.cause, gasp := s.aon.gasp, gaspUp := s.aon.gaspUp,
        fails := logFailCount s } ∧
      t.obj.dirtyHdr = 0 ∧ t.fls.dirtyMap = 0 ∧ Frame [.aon, .obj, .fls] s t := by
  have hexec : exec .flushComplete s = execFlushComplete s := rfl
  rw [execFlushComplete, hf] at hexec
  dsimp only at hexec
  rw [if_neg (by rw [hseal, hrun]; decide), if_neg (by rw [hwarm]; decide)] at hexec
  have hw : Effect [.aon, .obj, .fls] false s (flushWritten f.jrecs s.fls.mapLog.length s) := Effect.refl.flushWritten
  obtain ⟨haon, hobj, hfls, -⟩ := flushWritten_facts f.jrecs s.fls.mapLog.length s
  generalize flushWritten f.jrecs s.fls.mapLog.length s = x at hexec haon hobj hfls hw
  rw [if_neg] at hexec
  · refine ⟨_, hexec, rfl, rfl, ?_, hobj, hfls, hw.onAon.onAon.frame⟩
    have hfails : logFailCount x = logFailCount s := by
      rw [logFailCount, haon]
      rfl
    have hgasp : x.aon.gasp = s.aon.gasp ∧ x.aon.gaspUp = s.aon.gaspUp ∧ x.aon.uptime = s.aon.uptime := by
      rw [haon]
      exact ⟨rfl, rfl, rfl⟩
    obtain ⟨h1, h2, h3⟩ := hgasp
    refine congrArg some ?_
    rw [← hw.frame .stew (by decide), ← h1, ← h2, ← h3, ← hfails]
  · have hlow : x.aon.pwrFailLow = s.aon.pwrFailLow ∧ x.aon.powered = s.aon.powered := by
      rw [haon]
      exact ⟨rfl, rfl⟩
    rw [mayStart, State.onAon_aon, State.onAon_aon]
    dsimp only
    rw [hlow.1, hlow.2]
    rcases hwait with h | h
    · rw [h]
      simp
    · rw [h]
      simp

end

theorem completes_holdUpEnds {f : Flush} (hf : s.aon.flush = some f) (hwarm : f.warm = false) :
    Completes .holdUpEnds s fun t => t.aon.powered = false ∧ t.aon.inReset = otherIslands ∧
      t.aon.sealPg = (if f.sealed then s.aon.sealPg else none) := by
  have hexec : exec .holdUpEnds s = execHoldUpEnds s := rfl
  rw [execHoldUpEnds, hf] at hexec
  dsimp only at hexec
  rw [if_neg (by rw [hwarm]; decide)] at hexec
  refine ⟨_, hexec, rfl, rfl, ?_⟩
  cases hs : f.sealed with
  | true => rfl
  | false => rfl

theorem completes_holdupOkChange_low (h : s.aon.holdupOk = true) :
    Completes (.holdupOkChange false) s fun t => t.aon = { s.aon with holdupOk := false } ∧ t.obj.dirtyHdr = 0 ∧ t.fls.dirtyMap = 0 := by
  have hexec : exec (.holdupOkChange false) s = execHoldupOkChange false s := rfl
  rw [execHoldupOkChange, if_neg (by rw [h]; decide)] at hexec
  exact ⟨_, hexec, rfl, rfl, rfl⟩

theorem completes_holdupOkChange_high (h : s.aon.holdupOk = false) :
    Completes (.holdupOkChange true) s fun t => t.aon = { s.aon with holdupOk := true } ∧ Frame [.aon, .rel] s t := by
  have hexec : exec (.holdupOkChange true) s = execHoldupOkChange true s := rfl
  rw [execHoldupOkChange, if_neg (by rw [h]; decide)] at hexec
  exact ⟨_, hexec, rfl, (Effect.refl (w := false)).onAon.onRel.frame⟩

end

/-- Settles O45: power failures begin the flush, its seal ends it, and cold and warm starts follow. -/
theorem powerLossFlushesAndRestarts : Obligations.PowerLossFlushesAndRestarts := by
  refine ⟨fun _ hlow => ⟨fun ⟨_, hf, hseal, hrun⟩ => completes_powerGood_flushing hlow hf hseal hrun, completes_powerGood_start hlow⟩,
    fun _ hhigh hup => ⟨completes_pwrFailNAssert hhigh hup, fun _ => completes_railOutOfLimits hhigh hup⟩, fun _ => completes_pwrFailNGlitch,
    fun _ hlow => ⟨completes_pwrFailNRelease hlow, fun _ => completes_pwrFailNRelease_start hlow⟩,
    fun _ _ hf hseal hrun => ⟨completes_flushComplete_warm hf hseal hrun, completes_flushComplete_sealed hf hseal hrun⟩,
    fun _ _ hf hwarm => ?_, fun _ => ⟨completes_holdupOkChange_low, completes_holdupOkChange_high⟩⟩
  exact completes_within (completes_holdUpEnds hf hwarm) fun _ heff ⟨h1, h2, h3⟩ => ⟨h1, h2, h3, heff.bytes rfl, heff.frame⟩

end Sys2Proof.Proofs

/-! Recovery's phases (R424 to R427). -/

namespace Sys2Proof.Proofs
open Sys2Proof Sys2Proof.Machine Sys2Proof.Safety

set_option Elab.async false

section
variable {s : State} {p : PhaseIn}

/-- The step of recovery that each phase's end makes. -/
def phaseStep (p : PhaseIn) (k : Nat) (s : State) : State :=
  match k with
  | 0 => s.onStew fun w => { w with phase := 1 }
  | 1 => endPhase1 p s
  | 2 => endPhase2 p s
  | 3 => endPhase3 s
  | 4 => endPhase4 s
  | 5 => endPhase5 s
  | _ => s

/-- In START and RECOVERY the phase in progress ends, but not while the boot program serves. -/
theorem completes_recoveryPhase {claim : State → Prop} (hup : halted s = false) (hst : s.stew.st = .start ∨ s.stew.st = .recovery)
    (hrom : s.stew.rom = false) {k : Nat} (hk : s.stew.phase = k) (hclaim : claim (withDigests s (phaseStep p k s))) :
    Completes (.recoveryPhaseComplete p) s claim := by
  have hgo : (!(s.stew.st == .start || s.stew.st == .recovery) || s.stew.rom) = false := by
    rw [hrom]
    rcases hst with h | h <;> rw [h] <;> rfl
  have hexec : exec (.recoveryPhaseComplete p) s = execRecoveryPhaseComplete p s := rfl
  rw [execRecoveryPhaseComplete, hgo, if_neg Bool.false_ne_true, hk] at hexec
  refine completes_of_up hup hexec ⟨phaseStep p k s, ?_, hclaim⟩
  obtain _ | _ | _ | _ | _ | _ | k := k <;> rfl

/-! Phase 1 (R254, R275, R276, R426). -/

/-- Of what was trained and what was not: their numbers add up. -/
theorem length_filter_sub {α : Type} (l : List α) (f : α → Bool) :
    l.length - (l.filter fun x => !f x).length = (l.filter f).length := by
  have h := List.length_eq_length_filter_add (l := l) f
  omega

theorem endPhase1_facts (p : PhaseIn) (s : State) :
    if 24 ≤ ((chansUp s).filter fun c => p.chans.any fun x => x.1 == c.1).length then
      (endPhase1 p s).stew.phase = 2 ∧ (endPhase1 p s).stew.st = .start
    else (endPhase1 p s).stew.phase = s.stew.phase ∧ (endPhase1 p s).stew.st = .recovery ∧ (endPhase1 p s).fls = (rescan s).fls := by
  unfold endPhase1
  extract_lets x up trained bad y z
  have hcount : up.length - bad.length = ((chansUp s).filter fun c => p.chans.any fun x => x.1 == c.1).length := by
    have h := length_filter_sub up fun c => trained c.1
    rw [List.length_map]
    exact h
  rw [← hcount]
  by_cases h : 24 ≤ up.length - bad.length
  · rw [if_pos h, if_neg (by omega)]
    exact ⟨rfl, rfl⟩
  · rw [if_neg h, if_pos (by omega)]
    have hdet : Effect [.rel] false x (bad.foldl (fun s ch => detect { chanDet ch with action := 0 } s) x) :=
      Effect.refl.foldl fun _ _ h => h.detect
    have hphase : (bad.foldl (fun s ch => detect { chanDet ch with action := 0 } s) x).stew.phase = s.stew.phase :=
      congrArg Stew.phase (hdet.frame .stew (by decide))
    exact ⟨hphase, rfl, hdet.frame .fls (by decide)⟩

/-! Phase 2 (R419, R426). -/

theorem endPhase2_tableBad (h : p.tableOk = false) (hviral : s.aon.viral = false) :
    (endPhase2 p s).aon.viral = true ∧ (endPhase2 p s).stew.st = .fault := by
  unfold endPhase2
  rw [h, if_pos (by rfl)]
  obtain ⟨hv, hst, -⟩ := viral_facts (d := { kind := 0, cause := 9, unitKind := 9, island := 36 }) (cause := 9) (island := 36) hviral
  exact ⟨hv, hst⟩

theorem endPhase2_bootBad (h : p.tableOk = true) (hboot : p.bootOk = false) :
    (endPhase2 p s).stew = { s.stew with st := .recovery } ∧ Frame [.stew, .rel] s (endPhase2 p s) := by
  unfold endPhase2
  rw [h, hboot, if_neg (by decide), if_pos (by rfl)]
  exact ⟨rfl, (Effect.refl (w := false)).detect.onStew.frame⟩

theorem endPhase2_good (h : p.tableOk = true) (hboot : p.bootOk = true) :
    (endPhase2 p s).stew.phase = 3 ∧ (endPhase2 p s).stew.st = .start ∧ (endPhase2 p s).stew.bootDone = true ∧
    (endPhase2 p s).stew.bootA = some (endPhase2 p s).stew.boot ∧ (endPhase2 p s).stew.bootB = some (endPhase2 p s).stew.boot ∧
    (endPhase2 p s).stew.boot = if s.stew.bootDone then s.stew.boot
      else min (max (s.stew.bootA.getD 0) (s.stew.bootB.getD 0) + 1) (2 ^ 32 - 1) := by
  unfold endPhase2
  rw [h, hboot, if_neg (by decide), if_neg (by decide)]
  extract_lets last n x y
  have hkeys : Effect [.obj, .fls, .rel] false y (p.badKeys.foldl loseKey y) := Effect.refl.foldl fun _ _ h => h.loseKey
  rw [State.onRel_stew, hkeys.frame .stew (by decide)]
  exact ⟨rfl, rfl, rfl, rfl, rfl, rfl⟩

/-! Phase 4 (R181, R217). -/

/-- Replaying records ends at the epoch of the last. -/
theorem replayed_epoch (rs : List JRec) (s : State) :
    (rs.foldl replayRecord s).eng.epoch = ((rs.getLast?).map JRec.epoch).getD s.eng.epoch := by
  rcases List.eq_nil_or_concat rs with rfl | ⟨l, r, rfl⟩
  · rfl
  · rw [List.concat_eq_append, List.foldl_append, List.getLast?_append, List.getLast?_singleton]
    rfl

theorem endPhase4_facts (s : State) : (endPhase4 s).stew.phase = 5 ∧ (endPhase4 s).stew.pendGen = none ∧
    (endPhase4 s).recd.due = none ∧
    (let new := s.eng.journal.reverse.filter fun r => decide (s.eng.epoch < r.epoch);
      (endPhase4 s).eng.epoch = (((replayable s ((new.head?.map JRec.seq).getD 0) new).getLast?).map JRec.epoch).getD s.eng.epoch) :=
  ⟨rfl, rfl, rfl, replayed_epoch ..⟩

/-! Phase 5 (R221 to R225). -/

theorem endPhase5_facts (s : State) : (endPhase5 s).stew.phase = 6 ∧
    (endPhase5 s).eng = { s.eng with drain := [(s.eng.epoch, 0)], oldest := s.eng.epoch, barriers := [], binders := [] } ∧
    (endPhase5 s).idx = { s.idx with freedSlots := [] } := by
  have hsys : Effect [.obj] true s (keepSystem s) := Effect.refl.keepSystem
  refine ⟨rfl, ?_, ?_⟩
  · exact congrArg (fun x : Eng => { x with drain := [(s.eng.epoch, 0)], oldest := s.eng.epoch, barriers := [], binders := [] })
      (hsys.frame .eng (by decide))
  · exact congrArg (fun x : Idx => { x with freedSlots := [] }) (hsys.frame .idx (by decide))

end

/-- Settles O47: each phase of recovery ends as its row has it. -/
theorem recoveryGoesThroughItsPhases : Obligations.RecoveryGoesThroughItsPhases := by
  intro s p hup hst hrom
  refine ⟨fun hk => ?_, fun hk => ?_, fun hk htable hviral => ?_, fun hk htable hboot => ?_, fun hk htable hboot => ?_, fun hk => ?_,
    fun hk => ?_, fun hk => ?_⟩
  · exact completes_recoveryPhase hup hst hrom hk ⟨rfl, frame_withDigests.2 (Effect.refl (w := false)).onStew.frame⟩
  · refine completes_recoveryPhase hup hst hrom hk ?_
    have h := endPhase1_facts p s
    rw [hk] at h
    exact h
  · exact completes_recoveryPhase hup hst hrom hk (endPhase2_tableBad htable hviral)
  · obtain ⟨h1, h2⟩ := endPhase2_bootBad (s := s) htable hboot
    exact completes_recoveryPhase hup hst hrom hk ⟨h1, frame_withDigests.2 h2⟩
  · exact completes_recoveryPhase hup hst hrom hk (endPhase2_good htable hboot)
  · have heff : Effect [.aon, .stew, .eng] false s (endPhase3 s) := Effect.refl.endPhase3
    exact completes_recoveryPhase hup hst hrom hk ⟨rfl, rfl, rfl, frame_withDigests.2 heff.frame⟩
  · exact completes_recoveryPhase hup hst hrom hk (endPhase4_facts s)
  · obtain ⟨h1, h2, h3⟩ := endPhase5_facts s
    have heff : Effect [.stew, .eng, .obj, .idx] true s (endPhase5 s) := Effect.refl.endPhase5
    exact completes_recoveryPhase hup hst hrom hk ⟨h1, h2, h3, frame_withDigests.2 heff.frame⟩

end Sys2Proof.Proofs

/-! What the end of a command leaves: the other commands that have ended, and the objects its pins stand on (R57, R239). -/

namespace Sys2Proof.Proofs
open Sys2Proof Sys2Proof.Machine Sys2Proof.Safety

set_option Elab.async false

section
variable {s t u : State} {i n m : Nat}

/-! Commands that have ended do not return. -/

/-- A state that has every command gone that the state before has not. -/
def EndsOnly (s t : State) : Prop := ∀ m, cmdOf s m = none → cmdOf t m = none

theorem EndsOnly.refl (s : State) : EndsOnly s s := fun _ => id

theorem EndsOnly.trans (h : EndsOnly s t) (g : EndsOnly t u) : EndsOnly s u := fun m hm => g m (h m hm)

theorem EndsOnly.of_hif (h : t.hif = s.hif) : EndsOnly s t := fun m hm => (cmdOf_congr h m).trans hm

theorem EndsOnly.of_frame {ps : List StatePart} {w : Bool} (h : Effect ps w s t) (hp : .hif ∉ ps := by decide) : EndsOnly s t :=
  .of_hif (h.frame .hif hp)

theorem EndsOnly.foldl {α : Type} {f : State → α → State} (hf : ∀ s a, EndsOnly s (f s a)) (l : List α) (s : State) :
    EndsOnly s (l.foldl f s) := by
  induction l generalizing s with
  | nil => exact .refl s
  | cons a l ih => exact (hf s a).trans (ih _)

theorem endsOnly_postCompl (q : Nat) (c : Compl) (s : State) : EndsOnly s (postCompl q c s) := fun m hm => by
  rw [cmdOf, postCompl_cmds]
  exact hm

theorem endsOnly_endCmd (n : Nat) (s : State) : EndsOnly s (endCmd n s) := by
  unfold endCmd
  split
  · exact .refl s
  · rename_i c hc
    intro m hm
    have hif : (c.pins.foldl (fun s k => dropPin k s) (unbindEpoch c.epoch (releaseLocks false n s))).hif = s.hif :=
      (foldl_dropPin_hif ..).trans (unbindEpoch_hif ..)
    rw [cmdOf, checkDelete_cmds, State.onHif_hif, hif]
    exact tabGet_tabDel_of_none hm

theorem endsOnly_finishCmd (n : Nat) (r : Result) (s : State) : EndsOnly s (finishCmd n r s) := by
  unfold finishCmd
  split
  · exact .refl s
  · split
    · exact endsOnly_endCmd n s
    · exact (endsOnly_postCompl _ _ s).trans (endsOnly_endCmd n _)

/-! What a command's pins leave of an object. -/

/-- Of an object's record only counts of pins differ. -/
def PinStep (o o' : ObjRec) : Prop := o' = { o with pinsHome := o'.pinsHome, pinsUpper := o'.pinsUpper, pinsOld := o'.pinsOld }

theorem PinStep.refl (o : ObjRec) : PinStep o o := rfl

theorem PinStep.trans {o p q : ObjRec} (h : PinStep o p) (g : PinStep p q) : PinStep o q := by
  rw [PinStep, g, h]

theorem PinStep.fields {o o' : ObjRec} (h : PinStep o o') : o'.st = o.st ∧ o'.upper = o.upper ∧ o'.home = o.home ∧ o'.mem = o.mem ∧
    o'.waiters = o.waiters ∧ o'.target = o.target ∧ o'.placeUp = o.placeUp ∧ o'.old = o.old ∧ o'.rehome = o.rehome ∧
    o'.hostPins = o.hostPins ∧ o'.dirty = o.dirty ∧ o'.writtenEpoch = o.writtenEpoch ∧ o'.handle = o.handle := by
  rw [h]
  exact ⟨rfl, rfl, rfl, rfl, rfl, rfl, rfl, rfl, rfl, rfl, rfl, rfl, rfl⟩

/-- No eviction is begun as the last pin of the object drops (R238). -/
def NoEvict (o : ObjRec) : Prop := o.st ≠ .resident ∨ o.waiters.any MoveW.evict = false

theorem noEvict_of_no_waiters {o : ObjRec} (h : o.waiters = []) : NoEvict o := .inr (by rw [h]; rfl)

theorem maybeEvict_of_noEvict {o : ObjRec} (h : NoEvict o) : maybeEvict o = o := by
  rw [maybeEvict]
  rcases h with h | h
  · rw [beq_false_of_ne h, Bool.false_and, Bool.false_and, Bool.false_and, Bool.false_and, if_neg Bool.false_ne_true]
  · rw [h, Bool.and_false, if_neg Bool.false_ne_true]

theorem PinStep.noEvict {o o' : ObjRec} (h : PinStep o o') (hc : NoEvict o) : NoEvict o' := by
  rw [h]
  exact hc

/-- An object that no eviction takes is there after, but for its pins as before. -/
def KeepsObj (i : Nat) (s t : State) : Prop := ∀ o, tabGet s.obj.recs i = some o → NoEvict o →
  ∃ o', tabGet t.obj.recs i = some o' ∧ PinStep o o'

theorem KeepsObj.of_recs (h : t.obj.recs = s.obj.recs) : KeepsObj i s t := fun o ho _ => ⟨o, by rw [h, ho], .refl o⟩

theorem KeepsObj.of_obj (h : t.obj = s.obj) : KeepsObj i s t := .of_recs (by rw [h])

theorem KeepsObj.refl (i : Nat) (s : State) : KeepsObj i s s := .of_recs rfl

theorem KeepsObj.of_frame {ps : List StatePart} {w : Bool} (h : Effect ps w s t) (hp : .obj ∉ ps := by decide) : KeepsObj i s t :=
  .of_obj (h.frame .obj hp)

theorem KeepsObj.trans (h : KeepsObj i s t) (g : KeepsObj i t u) : KeepsObj i s u := by
  intro o ho hw
  obtain ⟨o1, ho1, h1⟩ := h o ho hw
  obtain ⟨o2, ho2, h2⟩ := g o1 ho1 (h1.noEvict hw)
  exact ⟨o2, ho2, h1.trans h2⟩

theorem KeepsObj.foldl {α : Type} {f : State → α → State} (hf : ∀ s a, KeepsObj i s (f s a)) (l : List α) (s : State) :
    KeepsObj i s (l.foldl f s) := by
  induction l generalizing s with
  | nil => exact .refl i s
  | cons a l ih => exact (hf s a).trans (ih _)

theorem keepsObj_dropPin (k : Nat) (s : State) : KeepsObj i s (dropPin k s) := by
  intro o ho hw
  by_cases hk : k / 16 = i
  · subst hk
    rw [dropPin, tabGet_modObj_same, ho]
    refine ⟨_, rfl, ?_⟩
    dsimp only
    split
    · rw [maybeEvict_of_noEvict (by exact hw)]
      exact rfl
    · split
      · rw [maybeEvict_of_noEvict (by exact hw)]
        exact rfl
      · rw [maybeEvict_of_noEvict (by exact hw)]
        exact rfl
  · rw [dropPin, modObj, State.onObj_obj, tabGet_tabMod_other _ _ _ _ (Ne.symm hk)]
    exact ⟨o, ho, .refl o⟩

theorem keepsObj_endCmd (n : Nat) (s : State) : KeepsObj i s (endCmd n s) := by
  unfold endCmd
  split
  · exact .refl i s
  · rename_i c hc
    extract_lets x y
    have hx : KeepsObj i s x := .of_frame (Effect.refl (ps := [.eng]) (w := false)).releaseLocks.unbindEpoch
    have hy : KeepsObj i x y := .foldl (fun s k => keepsObj_dropPin k s) c.pins x
    exact (hx.trans hy).trans (.of_frame (Effect.refl (ps := [.stew, .hif]) (w := false)).onHif.checkDelete)

theorem keepsObj_finishCmd (n : Nat) (r : Result) (s : State) : KeepsObj i s (finishCmd n r s) := by
  unfold finishCmd
  split
  · exact .refl i s
  · split
    · exact keepsObj_endCmd n s
    · exact .trans (.of_frame (Effect.refl (ps := [.hif, .shv]) (w := false)).postCompl) (keepsObj_endCmd n _)

/-! The records of objects are left by meters, header changes and flash traffic. -/

theorem meterMove_recs (o : ObjRec) (tier n : Nat) (write : Bool) (s : State) : (meterMove o tier n write s).obj.recs = s.obj.recs := by
  unfold meterMove
  extract_lets t
  split
  · rfl
  · split <;> rfl

theorem flashMove_recs (o : ObjRec) (tier n : Nat) (write : Bool) (s : State) : (flashMove o tier n write s).obj.recs = s.obj.recs := by
  unfold flashMove
  extract_lets x
  have hx : x.obj.recs = s.obj.recs := meterMove_recs ..
  split
  · rw [show (bucketCharge 2 (hTenant o.handle) n x).obj = x.obj from
      (Effect.refl (ps := [.fab]) (w := false)).bucketCharge.frame .obj (by decide), hx]
  · exact hx

theorem writeHome_obj (i tier : Nat) (upper : Bool) (ps : List Nat) (s : State) : (writeHome i tier upper ps s).obj = s.obj :=
  (Effect.refl (ps := [.fls, .fab, .recd]) (w := false)).writeHome.frame .obj (by decide)

end

end Sys2Proof.Proofs

/-! The life of upper copies: promotion, write-back, cleaning, the switch of a home, and release (R238, R239, R244, R247, R248). -/

namespace Sys2Proof.Proofs
open Sys2Proof Sys2Proof.Machine Sys2Proof.Safety

set_option Elab.async false

section
variable {s t : State} {i : Nat} {o : ObjRec} {w : MoveW}

/-! A MOVE that waited and has nothing left to do ends (R238). -/

/-- A MOVE ends: its command is gone, no other returns, and the object is as before. -/
structure Ends (i : Nat) (w : MoveW) (s t : State) : Prop where
  keeps : KeepsObj i s t
  gone : cmdOf t w.cmd = none
  only : EndsOnly s t

theorem ends_moved (i : Nat) (w : MoveW) (s : State) : Ends i w s (moved w s) :=
  ⟨keepsObj_finishCmd w.cmd _ s, cmdOf_finishCmd .., endsOnly_finishCmd w.cmd _ s⟩

theorem Ends.of_quiet (h : Ends i w s t) {u : State} (hrecs : s.obj.recs = u.obj.recs) (hhif : s.hif = u.hif) : Ends i w u t :=
  ⟨.trans (.of_recs hrecs) h.keeps, h.gone, .trans (.of_hif hhif) h.only⟩

theorem cancelEvict_of_not (ho : tabGet s.obj.recs i = some o) (h : o.st ≠ .evicting) : cancelEvict i s = s := by
  rw [cancelEvict, ho]
  dsimp only
  rw [if_pos (by simpa using h)]

theorem tabMod_of_fixed {α : Type} {l : Tab α} {k : Nat} {f : α → α} (h : ∀ x, f x = x) : tabMod l k f = l := by
  rw [tabMod]
  conv_rhs => rw [← List.map_id l]
  refine List.map_congr_left fun p _ => ?_
  split
  · rw [h]
    rfl
  · rfl

/-- A copy that stands where the MOVE asks for it: the MOVE has nothing to do. -/
theorem ends_promote (ho : tabGet s.obj.recs i = some o) (hst : o.st = .resident) (htarget : o.target = 255) (hwait : o.waiters = [])
    (htier : o.upper = w.tier) (hplace : samePlace o w = true) : Ends i w s (promote i w s) := by
  unfold promote
  rw [ho]
  dsimp only
  rw [hst, cancelEvict_of_not ho (by rw [hst]; decide)]
  dsimp only
  rw [hwait, List.filter_nil, List.foldl_nil, if_neg (by rw [htarget]; decide), if_pos (by rw [hplace, htier]; simp)]
  have hkeep : KeepsObj i s (modObj i (fun o => { o with waiters := o.waiters.filter fun v => !v.evict }) s) := by
    intro x hx hw
    obtain rfl := Option.some.inj (ho.symm.trans hx)
    refine ⟨o, ?_, .refl o⟩
    rw [tabGet_modObj_same, ho, Option.map_some]
    exact congrArg some (by rw [hwait]; exact congrArg (fun l => { o with waiters := l }) hwait.symm)
  have h := ends_moved i w (modObj i (fun o => { o with waiters := o.waiters.filter fun v => !v.evict }) s)
  exact ⟨hkeep.trans h.keeps, h.gone, .trans (.of_hif rfl) h.only⟩

theorem ends_evictMove (ho : tabGet s.obj.recs i = some o) (hst : o.st = .absent) : Ends i w s (evictMove i w s) := by
  unfold evictMove
  rw [ho]
  dsimp only
  rw [hst]
  exact ends_moved i w s

/-- Where every MOVE that waits has nothing left to do, all of them end. -/
theorem settled_foldl {o1 : ObjRec} (hnone : o1.waiters = []) {ws : List MoveW}
    (hstep : ∀ w ∈ ws, ∀ x o', tabGet x.obj.recs i = some o' → PinStep o1 o' → Ends i w x (moveStep i x w)) {s : State}
    {o' : ObjRec} (ho : tabGet s.obj.recs i = some o') (hpin : PinStep o1 o') :
    (∃ o2, tabGet (ws.foldl (moveStep i) s).obj.recs i = some o2 ∧ PinStep o1 o2) ∧
    (∀ w ∈ ws, cmdOf (ws.foldl (moveStep i) s) w.cmd = none) ∧ EndsOnly s (ws.foldl (moveStep i) s) := by
  induction ws generalizing s o' with
  | nil => exact ⟨⟨o', ho, hpin⟩, nofun, .refl s⟩
  | cons w ws ih =>
    have h := hstep w List.mem_cons_self s o' ho hpin
    obtain ⟨o2, ho2, h2⟩ := h.keeps o' ho (hpin.noEvict (noEvict_of_no_waiters hnone))
    obtain ⟨hobj, hgone, honly⟩ := ih (fun v hv => hstep v (List.mem_cons_of_mem w hv)) ho2 (hpin.trans h2)
    refine ⟨hobj, fun v hv => ?_, h.only.trans honly⟩
    rcases List.mem_cons.1 hv with rfl | hv
    · exact honly _ h.gone
    · exact hgone v hv

theorem settleObj_facts (ho : tabGet s.obj.recs i = some o)
    (hstep : ∀ w ∈ o.waiters, ∀ x o', tabGet x.obj.recs i = some o' → PinStep { o with waiters := [] } o' → Ends i w x (moveStep i x w)) :
    (∃ o', tabGet (settleObj i s).obj.recs i = some o' ∧ PinStep { o with waiters := [] } o') ∧
    (∀ w ∈ o.waiters, cmdOf (settleObj i s) w.cmd = none) ∧ EndsOnly s (settleObj i s) := by
  unfold settleObj
  rw [ho]
  dsimp only
  have hclear : tabGet (modObj i (fun o => { o with waiters := [] }) s).obj.recs i = some { o with waiters := [] } := by
    rw [tabGet_modObj_same, ho]
    rfl
  obtain ⟨h1, h2, h3⟩ := settled_foldl rfl hstep hclear (.refl _)
  exact ⟨h1, h2, .trans (.of_hif rfl) h3⟩

theorem settleObj_of_none (ho : tabGet s.obj.recs i = some o) (hw : o.waiters = []) :
    ∃ o', tabGet (settleObj i s).obj.recs i = some o' ∧ PinStep o o' := by
  obtain ⟨⟨o', ho', h⟩, -⟩ := settleObj_facts ho (by rw [hw]; nofun)
  refine ⟨o', ho', ?_⟩
  rw [← hw] at h
  exact h

theorem tabGet_headerChange {home : Nat} {x : ObjRec} (h : tabGet s.obj.recs i = some x) : tabGet (headerChange home s).obj.recs i = some x := by
  rw [headerChange_recs]
  exact h

/-- The record of an object whose change has been entered. -/
theorem tabGet_modObj_of (f : ObjRec → ObjRec) (h : tabGet s.obj.recs i = some o) : tabGet (modObj i f s).obj.recs i = some (f o) := by
  rw [tabGet_modObj_same, h]
  rfl

theorem accrue_freed (s : State) : (accrue s).obj.freed = s.obj.freed := by
  unfold accrue
  extract_lets dt x
  split
  · rfl
  · refine foldl_same (fun s : State => s.obj.freed) _ _ s fun s p => ?_
    refine foldl_same (fun s : State => s.obj.freed) _ _ s fun s k => ?_
    dsimp only
    split <;> rfl

/-- From `s` to `t` no object is freed and none that is gone comes back. -/
def NoneReturns (s t : State) : Prop :=
  (∀ i, tabGet s.obj.recs i = none → tabGet t.obj.recs i = none) ∧ t.obj.freed = s.obj.freed

theorem NoneReturns.trans {u : State} (h : NoneReturns s t) (g : NoneReturns t u) : NoneReturns s u :=
  ⟨fun i hi => g.1 i (h.1 i hi), g.2.trans h.2⟩

theorem NoneReturns.of_obj (h : t.obj = s.obj) : NoneReturns s t := ⟨fun i hi => by rw [h, hi], by rw [h]⟩

theorem noneReturns_dropPins (ks : List Nat) (s : State) : NoneReturns s (ks.foldl (fun s k => dropPin k s) s) := by
  induction ks generalizing s with
  | nil => exact .of_obj rfl
  | cons k ks ih =>
    have h : NoneReturns s (dropPin k s) := ⟨fun i hi => ?_, rfl⟩
    · exact h.trans (ih _)
    rw [dropPin, modObj, State.onObj_obj]
    by_cases hk : i = k / 16
    · rw [hk, tabGet_tabMod_same, ← hk, hi]
      rfl
    · rw [tabGet_tabMod_other _ _ _ _ hk, hi]

/-- A command that ends frees no object and brings none back. -/
theorem noneReturns_finishCmd (n : Nat) (r : Result) (s : State) : NoneReturns s (finishCmd n r s) := by
  have hend (s : State) : NoneReturns s (endCmd n s) := by
    unfold endCmd
    split
    · exact .of_obj rfl
    · rename_i c hc
      extract_lets x y
      have hx : NoneReturns s x := .of_obj ((Effect.refl (ps := [.eng]) (w := false)).releaseLocks.unbindEpoch.frame .obj (by decide))
      have hy : NoneReturns x y := noneReturns_dropPins ..
      exact (hx.trans hy).trans (.of_obj ((Effect.refl (ps := [.stew, .hif]) (w := false)).onHif.checkDelete.frame .obj (by decide)))
  unfold finishCmd
  split
  · exact .of_obj rfl
  · split
    · exact hend s
    · exact .trans (.of_obj ((Effect.refl (ps := [.hif, .shv]) (w := false)).postCompl.frame .obj (by decide))) (hend _)

theorem mem_tabSet_self {α : Type} (t : Tab α) (k : Nat) (x : α) : (k, x) ∈ tabSet t k x := by
  induction t with
  | nil => exact List.mem_cons_self
  | cons p t ih =>
    obtain ⟨j, v⟩ := p
    unfold tabSet
    split
    · exact List.mem_cons_self
    · split
      · exact List.mem_cons_self
      · exact List.mem_cons_of_mem _ ih

/-- A CHECKPOINT object that is written waits for PACK (R282). -/
theorem packWrite_facts (ho : tabGet s.obj.recs i = some o) : (packWrite i s).obj = s.obj ∧ packBusy (packWrite i s) i = true := by
  unfold packWrite
  rw [ho]
  exact ⟨rfl, List.any_eq_true.2 ⟨_, mem_tabSet_self .., by simp⟩⟩

/-- The first page of those to be cleaned is sent home; the copy's own bytes stay (R244, R350). -/
theorem cleanPage_cons {p : Nat} {ps : List Nat} (ho : tabGet s.obj.recs i = some o) (hc : o.cleaning = p :: ps) :
    ∃ hm, tabGet (cleanPage i s).obj.recs i = some { o with homeMem := hm } := by
  have hstep : cleanPage i s = cleanPage i s := rfl
  conv_rhs at hstep =>
    unfold cleanPage
    rw [ho]
    dsimp only
    rw [hc]
    dsimp only
  have hsend (j : T4Job) (x : State) : (t4Send j x).obj = x.obj :=
    (Effect.refl (ps := [.fab, .rel, .recd]) (w := false)).t4Send.frame .obj (by decide)
  rw [hstep, hsend, tabGet_modObj_same, ho]
  exact ⟨_, rfl⟩

/-- With no page left to be cleaned, and none written meanwhile, the copy is clean. -/
theorem cleanPage_nil (ho : tabGet s.obj.recs i = some o) (hc : o.cleaning = []) (hp : o.pages = []) :
    ∃ o', tabGet (cleanPage i s).obj.recs i = some o' ∧ o'.pages = [] ∧ o'.dirty = false ∧ o'.writtenEpoch = o.wbEpoch := by
  unfold cleanPage
  rw [ho]
  dsimp only
  rw [hc]
  dsimp only
  exact ⟨_, tabGet_headerChange (tabGet_modObj_of _ ho), hp, by rw [hp]; rfl, rfl⟩

/-! Promotion (R238). -/

theorem completes_promotionCopyComplete (hup : halted s = false) (ho : tabGet s.obj.recs i = some o) (hst : o.st = .promoting)
    (ht4 : t4Busy s i = false) (hpack : packBusy s i = false) (hspace : spaceThere s o.upper o.placeUp = true)
    (hroom : flashRoom s o o.upper = true) (htarget : o.target = 255)
    (hwait : ∀ w ∈ o.waiters, w.tier = o.upper ∧ w.tier < o.home ∧ w.rehome = false ∧ samePlace o w = true) :
    Completes (.promotionCopyComplete i) s fun t => (∀ w ∈ o.waiters, cmdOf t w.cmd = none) ∧
      ∃ o', tabGet t.obj.recs i = some o' ∧ o'.st = .resident ∧ o'.upper = o.upper ∧ o'.mem = o.mem := by
  refine completes_of_up hup rfl ?_
  rw [ho]
  dsimp -zeta only
  rw [if_pos (by rw [hst, ht4, hpack, hspace, hroom]; rfl)]
  extract_lets x y
  have hx : x.obj.recs = s.obj.recs := (flashMove_recs ..).trans (accrue_recs s)
  have hy : y.obj.recs = s.obj.recs := by
    simp only [y]
    split
    · rw [writeHome_obj, flashMove_recs, hx]
    · exact hx
  have hnew : tabGet (headerChange o.home (modObj i (fun o => { o with st := .resident }) y)).obj.recs i = some { o with st := .resident } := by
    refine tabGet_headerChange (tabGet_modObj_of _ ?_)
    rw [hy]
    exact ho
  obtain ⟨⟨o', ho', hpin⟩, hgone, -⟩ := settleObj_facts hnew fun w hw z o' hz hp => by
    obtain ⟨htier, hlt, hre, hplace⟩ := hwait w hw
    obtain ⟨h1, h2, h3, -, h5, h6, h7, -⟩ := hp.fields
    have hplace' : samePlace o' w = true := by
      rw [samePlace, h7]
      exact hplace
    rw [moveStep, hz]
    dsimp only
    rw [hre, if_neg Bool.false_ne_true, if_pos (by rw [h3]; exact hlt)]
    exact ends_promote hz h1 (h6.trans htarget) h5 (h2.trans htier.symm) hplace'
  obtain ⟨h1, h2, -, h4, -⟩ := hpin.fields
  exact ⟨_, rfl, hgone, o', ho', h1, h2, h4⟩

/-! Write-back (R238, R244). -/

section
variable (hup : halted s = false) (ho : tabGet s.obj.recs i = some o)
include hup ho

section
variable (hst : o.st = .evicting) (hpins : o.pinsUpper = 0) (hhost : o.hostPins = 0)
include hst hpins hhost

theorem completes_writeBackStart_dirty (hdirty : o.dirty = true) (ht4 : o.home ≠ 4 ∨ t4Status s i = 0) :
    Completes (.writeBackStart i) s fun t =>
      ∃ o', tabGet t.obj.recs i = some o' ∧ o'.st = .writingBack ∧ o'.wbEpoch = s.eng.epoch ∧ o'.mem = o.mem := by
  have hgo : (o.dirty && decide (o.home = 4) && t4Status s i != St.success) = false := by
    rcases ht4 with h | h
    · rw [decide_eq_false h, Bool.and_false, Bool.false_and]
    · rw [h, show (0 != St.success) = false from rfl, Bool.and_false]
  refine completes_of_up hup rfl ?_
  rw [ho]
  dsimp -zeta only
  rw [if_neg (by rw [hst, hpins, hhost]; decide), hgo, if_neg Bool.false_ne_true, if_neg (by rw [hdirty]; decide)]
  extract_lets x
  have hx : tabGet x.obj.recs i = some { o with st := .writingBack, wbEpoch := s.eng.epoch } :=
    tabGet_headerChange (tabGet_modObj_of (fun o => { o with st := .writingBack, wbEpoch := s.eng.epoch }) ho)
  clear_value x
  have hobj : (if o.checkpoint then (if packBusy x i then x else packWrite i x)
      else if o.home = 4 then t4Whole .move i true x else x).obj = x.obj := by
    have h : Effect [.fls, .fab, .rel, .recd] false x (if o.checkpoint then (if packBusy x i then x else packWrite i x)
        else if o.home = 4 then t4Whole .move i true x else x) :=
      .ite (.ite .refl Effect.refl.packWrite) (.ite Effect.refl.t4Whole .refl)
    exact h.frame .obj (by decide)
  refine ⟨_, rfl, { o with st := .writingBack, wbEpoch := s.eng.epoch }, ?_, rfl, rfl, rfl⟩
  rw [withDigests_obj, hobj]
  exact hx

theorem completes_writeBackStart_clean (hclean : o.dirty = false) (hwait : o.waiters = []) :
    Completes (.writeBackStart i) s fun t => ∃ o', tabGet t.obj.recs i = some o' ∧ o'.st = .absent ∧ o'.upper = 255 := by
  refine completes_of_up hup rfl ?_
  rw [ho]
  dsimp -zeta only
  rw [if_neg (by rw [hst, hpins, hhost]; decide), if_neg (by rw [hclean, Bool.false_and, Bool.false_and]; decide), if_pos (by rw [hclean]; rfl)]
  have hacc : tabGet (accrue s).obj.recs i = some o := by
    rw [accrue_recs]
    exact ho
  generalize accrue s = x at hacc
  have hdrop := tabGet_modObj_of (fun o => { dropUpper o with poison := if 2 ≤ o.home then homePoison x i else o.poison }) hacc
  obtain ⟨o', ho', hpin⟩ := settleObj_of_none (tabGet_headerChange (home := o.home) hdrop) hwait
  obtain ⟨h1, h2, -⟩ := hpin.fields
  exact ⟨_, rfl, o', ho', h1, h2⟩

end

theorem completes_writeBackDurable (hst : o.st = .writingBack) (hpins : o.pinsUpper = 0) (hhost : o.hostPins = 0)
    (ht4 : t4Busy s i = false) (hpack : packBusy s i = false) (hroom : flashRoom s o o.home = true)
    (hwait : ∀ w ∈ o.waiters, w.tier = o.home ∧ w.rehome = false) :
    Completes (.writeBackDurable i) s fun t => (∀ w ∈ o.waiters, cmdOf t w.cmd = none) ∧
      ∃ o', tabGet t.obj.recs i = some o' ∧ o'.st = .absent ∧ o'.writtenEpoch = o.wbEpoch ∧ o'.dirty = false ∧ o'.mem = o.mem := by
  refine completes_of_up hup rfl ?_
  rw [ho]
  dsimp -zeta only
  rw [if_neg (by rw [hst, hpins, hhost, ht4, hpack]; decide), if_neg (by rw [hroom]; decide)]
  extract_lets x
  have hx : x.obj.recs = s.obj.recs := by
    rw [show x.obj = _ from writeHome_obj .., flashMove_recs, accrue_recs]
  have hnew : tabGet (headerChange o.home (modObj i (fun o => { dropUpper o with writtenEpoch := o.wbEpoch }) x)).obj.recs i =
      some { dropUpper o with writtenEpoch := o.wbEpoch } := by
    refine tabGet_headerChange (tabGet_modObj_of _ ?_)
    rw [hx]
    exact ho
  obtain ⟨⟨o', ho', hpin⟩, hgone, -⟩ := settleObj_facts hnew fun w hw z o' hz hp => by
    obtain ⟨htier, hre⟩ := hwait w hw
    obtain ⟨h1, -, h3, -⟩ := hp.fields
    rw [moveStep, hz]
    dsimp only
    rw [hre, if_neg Bool.false_ne_true, if_neg (by rw [h3, htier]; exact Nat.lt_irrefl _), if_pos (by rw [h3, htier]; rfl)]
    exact ends_evictMove hz h1
  obtain ⟨h1, -, -, h4, -, -, -, -, -, -, h11, h12, -⟩ := hpin.fields
  exact ⟨_, rfl, hgone, o', ho', h1, h12, h11, h4⟩

/-! The switch of a home, and what is released (R239, R247, R248). -/

theorem completes_rehomeSwitch {r : Rehome} (hre : o.rehome = some r) (ht4 : t4Busy s i = false) (hold : o.old = none)
    (hpack : packBusy s i = false) (hroom : flashRoom s o r.tier = true) (hwait : o.waiters = []) :
    Completes (.rehomeSwitch i) s fun t => cmdOf t r.cmd = none ∧ ∃ o', tabGet t.obj.recs i = some o' ∧ o'.home = r.tier ∧
      o'.rehome = none ∧ o'.old = (if o.pinsHome ≤ 1 then none else some o.home) ∧ o'.mem = o.mem := by
  refine completes_of_up hup rfl ?_
  rw [ho]
  dsimp -zeta only
  rw [hre]
  dsimp -zeta only
  rw [if_neg (by rw [ht4, hold, hpack, hroom]; decide)]
  extract_lets x y z
  have hx : tabGet x.obj.recs i = some o := by
    rw [show x.obj.recs = _ from flashMove_recs .., flashMove_recs, accrue_recs]
    exact ho
  have hy := tabGet_modObj_of (s := x) (fun o => { o with
    home := r.tier, rehome := none, old := if o.pinsHome ≤ 1 then none else some o.home, placeOld := homeCode o, pinsOld := o.pinsHome - 1,
    pinsHome := 0, place := r.place % 512, chanLocal := codeLocal r.place, writtenEpoch := x.eng.epoch }) hx
  have hz : tabGet z.obj.recs i = _ := (congrArg (fun b : Obj => tabGet b.recs i) (writeHome_obj ..)).trans hy
  clear_value z
  obtain ⟨o1, ho1, hpin1⟩ := keepsObj_finishCmd r.cmd { status := St.success } z _ hz (noEvict_of_no_waiters hwait)
  obtain ⟨-, -, -, -, hw1, -⟩ := hpin1.fields
  have hnew := tabGet_headerChange (home := max o.home r.tier) ho1
  obtain ⟨⟨o2, ho2, hpin2⟩, -, honly⟩ := settleObj_facts hnew (by rw [hw1]; show ∀ w ∈ o.waiters, _; rw [hwait]; nofun)
  obtain ⟨-, -, h3, h4, -, -, -, h8, h9, -⟩ := hpin1.fields
  obtain ⟨-, -, g3, g4, -, -, -, g8, g9, -⟩ := hpin2.fields
  refine ⟨_, rfl, honly _ ?_, o2, ho2, g3.trans h3, g9.trans h9, g8.trans h8, g4.trans h4⟩
  rw [cmdOf_congr ((Effect.refl (ps := [.obj]) (w := false)).headerChange.frame .hif (by decide))]
  exact cmdOf_finishCmd ..

theorem completes_oldLocationRelease (hold : o.old.isSome = true) (hpins : o.pinsOld = 0) :
    Completes (.oldLocationRelease i) s fun t => tabGet t.obj.recs i = some { o with old := none } := by
  refine completes_of_up hup rfl ?_
  rw [ho]
  dsimp only
  rw [if_pos (by rw [hold, hpins]; rfl)]
  refine ⟨_, rfl, tabGet_modObj_of (fun o => { o with old := none }) ?_⟩
  rw [accrue_recs]
  exact ho

theorem completes_freeRelease (hst : o.st = .freeing) (hpins : pinsAll o = 0) :
    Completes (.freeRelease i) s fun t => tabGet t.obj.recs i = none ∧ t.obj.freed = s.obj.freed ++ [i] ∧
      ∀ n, o.freeCmd = some n → cmdOf t n = none := by
  refine completes_of_up hup rfl ?_
  rw [ho]
  dsimp -zeta only
  rw [if_neg (by rw [hst, hpins]; decide)]
  extract_lets x y z
  have hunits : (dropUnits i false x).obj = x.obj := (Effect.refl (ps := [.fls]) (w := false)).dropUnits.frame .obj (by decide)
  have hz : z.obj = (removeObject i s).obj := hunits.trans rfl
  have hnone : tabGet z.obj.recs i = none := by
    rw [hz, removeObject_recs]
    exact tabGet_tabDel_same ..
  have hfreed : z.obj.freed = s.obj.freed ++ [i] := by
    rw [hz, removeObject, State.onObj_obj]
    exact congrArg (· ++ [i]) (accrue_freed s)
  clear_value z
  cases hf : o.freeCmd with
  | none => exact ⟨_, rfl, hnone, hfreed, nofun⟩
  | some n =>
    obtain ⟨h1, h2⟩ := noneReturns_finishCmd n { status := St.success } z
    exact ⟨_, rfl, h1 i hnone, h2.trans hfreed, fun m hm => Option.some.inj hm ▸ cmdOf_finishCmd ..⟩

/-! Cleaning (R244). -/

theorem completes_cleaningPass {since : Nat} (hsince : o.dirtySince = some since) (hlate : since + genCleaning (gen s) ≤ s.aon.uptime)
    (hdirty : o.dirty = true) (hwb : o.st ≠ .writingBack) (hfree : o.st ≠ .freeing) (hpack : packBusy s i = false)
    (ht4 : o.home = 4 → t4Busy s i = false ∧ o.cleaning = [] ∧ t4Status s i = 0) (hback : backgroundUp s = true)
    (hreplay : replayBegins s 36 0 7 o.handle = true) :
    Completes (.cleaningPass i) s fun t => ∃ o', tabGet t.obj.recs i = some o' ∧ o'.pages = [] ∧
      (if o.checkpoint then o'.dirty = true ∧ o'.wbEpoch = s.eng.epoch ∧ packBusy t i = true
        else if o.home = 4 ∧ o.pages ≠ [] then o'.dirty = true ∧ o'.cleaning = o.pages ∧ o'.wbEpoch = s.eng.epoch
        else o'.dirty = false ∧ o'.writtenEpoch = s.eng.epoch) := by
  have hgo : (decide (now s < since + genCleaning (gen s)) || !o.dirty || o.st == .writingBack || o.st == .freeing || packBusy s i ||
      !backgroundUp s || !replayBegins s 36 0 7 o.handle ||
      (decide (o.home = 4) && (t4Busy s i || !o.cleaning.isEmpty || t4Status s i != St.success))) = false := by
    have h4 : (decide (o.home = 4) && (t4Busy s i || !o.cleaning.isEmpty || t4Status s i != St.success)) = false := by
      by_cases h : o.home = 4
      · obtain ⟨h1, h2, h3⟩ := ht4 h
        rw [h1, h2, h3]
        exact Bool.and_false _
      · rw [decide_eq_false h, Bool.false_and]
    rw [h4, decide_eq_false (show ¬now s < _ by rw [now]; omega), hdirty, beq_false_of_ne hwb, beq_false_of_ne hfree, hpack, hback, hreplay]
    rfl
  refine completes_of_up hup rfl ?_
  rw [ho]
  dsimp -zeta only
  rw [hsince]
  dsimp -zeta only
  rw [hgo, if_neg Bool.false_ne_true]
  extract_lets n x y z
  have hx : Effect [.recd] false s x := Effect.refl.timerToken.backToken
  have hy : y.obj.recs = s.obj.recs := by
    rw [show y.obj = (meterMove o o.home n true x).obj from
      (Effect.refl (ps := [.fab]) (w := false)).bucketCharge.frame .obj (by decide), meterMove_recs, hx.frame .obj (by decide)]
  have hepoch : y.eng.epoch = s.eng.epoch := by
    have h : Effect [.obj, .fab] false x y := Effect.refl.meterMove.bucketCharge
    rw [h.frame .eng (by decide), hx.frame .eng (by decide)]
  have hoy : tabGet y.obj.recs i = some o := by
    rw [hy]
    exact ho
  clear_value y
  by_cases hck : o.checkpoint = true
  · rw [if_pos hck]
    have hmod := tabGet_modObj_of (fun o => { o with pages := [], wbEpoch := y.eng.epoch }) hoy
    generalize modObj i _ y = v at hmod
    obtain ⟨hobj, hbusy⟩ := packWrite_facts hmod
    refine ⟨_, rfl, { o with pages := [], wbEpoch := y.eng.epoch }, ?_, rfl, ?_⟩
    · rw [withDigests_obj, hobj]
      exact hmod
    · rw [if_pos hck]
      exact ⟨hdirty, hepoch, hbusy⟩
  · rw [if_neg hck]
    by_cases h4 : o.home = 4
    · rw [if_pos h4]
      have hmod := tabGet_modObj_of (fun o => { o with cleaning := o.pages, pages := [], wbEpoch := y.eng.epoch }) hoy
      generalize modObj i _ y = v at hmod
      cases hp : o.pages with
      | nil =>
        obtain ⟨o', ho', h1, h2, h3⟩ := cleanPage_nil hmod hp rfl
        refine ⟨_, rfl, o', ho', h1, ?_⟩
        rw [if_neg hck, if_neg (fun h => h.2 rfl)]
        exact ⟨h2, h3.trans hepoch⟩
      | cons p ps =>
        obtain ⟨hm, ho'⟩ := cleanPage_cons hmod hp
        refine ⟨_, rfl, _, ho', rfl, ?_⟩
        rw [if_neg hck, if_pos ⟨h4, by simp⟩]
        exact ⟨hdirty, hp, hepoch⟩
    · rw [if_neg h4]
      have hz : z.obj = y.obj := writeHome_obj ..
      have hez : z.eng.epoch = s.eng.epoch := by
        have h : Effect [.fls, .fab, .recd] false y z := Effect.refl.writeHome
        rw [h.frame .eng (by decide), hepoch]
      have hoz : tabGet z.obj.recs i = some o := by
        rw [hz]
        exact hoy
      clear_value z
      refine ⟨_, rfl, _, tabGet_headerChange (tabGet_modObj_of _ hoz), rfl, ?_⟩
      rw [if_neg hck, if_neg fun h => h4 h.1]
      exact ⟨rfl, hez⟩

end

end

/-- Settles O53: copies are promoted, written back, cleaned and released, and homes switch. -/
theorem copiesPromoteWriteBackAndRelease : Obligations.CopiesPromoteWriteBackAndRelease := by
  intro s i o hup ho
  refine ⟨completes_promotionCopyComplete hup ho, fun hst hpins hhost => ⟨completes_writeBackStart_dirty hup ho hst hpins hhost, fun hclean hwait => ?_⟩,
    completes_writeBackDurable hup ho, fun since hsince hlate hdirty hwb hfree hpack ht4 hback hreplay => ?_,
    fun r => completes_rehomeSwitch hup ho, fun hold hpins => ?_, completes_freeRelease hup ho⟩
  · exact completes_within (completes_writeBackStart_clean hup ho hst hpins hhost hclean hwait) fun _ heff h => ⟨heff.bytes rfl, h⟩
  · exact completes_within (completes_cleaningPass hup ho hsince hlate hdirty hwb hfree hpack ht4 hback hreplay)
      fun _ heff h => ⟨heff.bytes rfl, h⟩
  · exact completes_within (completes_oldLocationRelease hup ho hold hpins) fun _ heff h => ⟨h, heff.bytes rfl, heff.frame⟩

end Sys2Proof.Proofs

/-! MOVE: promotion, eviction of a clean copy, and rehome (R236, R238, R247). -/

namespace Sys2Proof.Proofs
open Sys2Proof Sys2Proof.Machine Sys2Proof.Safety

set_option Elab.async false

section
variable {s t : State} {n i : Nat} {c : Cmd} {o : ObjRec}

/-- The command as MOVE runs: its first step has been taken. -/
def moveRan (n : Nat) (s : State) : State := modCmd n (fun c => { c with ran := true }) s

/-- What a MOVE of the entry's command asks for, with the kind of move that its tier makes it. -/
def moveWanted (n : Nat) (c : Cmd) (home : Nat) (rehome : Bool) : MoveW :=
  { cmd := n, evict := !(rehome || decide (home < byteAt c.entry 5)) && byteAt c.entry 5 == home,
    rehome := rehome || decide (home < byteAt c.entry 5), tier := byteAt c.entry 5, place := fld c.entry 6 2 }

/-- A MOVE of a valid handle that nothing refuses takes its first step. -/
theorem doMove_step {rehome : Bool} (hc : readyCmd s n 0x52 = some c) (hh : handleStatus s c.tenant (fld c.entry 8 8) = none)
    (ho : objOf s (fld c.entry 8 8) = some o) (hflag : (byteAt c.entry 1).testBit 0 = rehome)
    (hgood : moveRefused s o (rehome || decide (o.home < byteAt c.entry 5)) (byteAt c.entry 5) (fld c.entry 6 2 % 512) = none) :
    doMove n rehome s = .next (moveStep (hIndex (fld c.entry 8 8)) (moveRan n s) (moveWanted n c o.home rehome)) := by
  unfold doMove
  rw [hc]
  dsimp only
  rw [bitOf, hflag, if_neg (by simp), withObject]
  rw [hh]
  dsimp only
  rw [ho]
  dsimp only
  rw [hgood]
  rfl

theorem completes_move {rehome : Bool} {claim : State → Prop} (hup : halted s = false) (hc : readyCmd s n 0x52 = some c)
    (hh : handleStatus s c.tenant (fld c.entry 8 8) = none) (ho : objOf s (fld c.entry 8 8) = some o)
    (hflag : (byteAt c.entry 1).testBit 0 = rehome)
    (hgood : moveRefused s o (rehome || decide (o.home < byteAt c.entry 5)) (byteAt c.entry 5) (fld c.entry 6 2 % 512) = none)
    (hclaim : claim (withDigests s (moveStep (hIndex (fld c.entry 8 8)) (moveRan n s) (moveWanted n c o.home rehome)))) :
    Completes (if rehome then .moveRehome n else .move n) s claim := by
  have hstep := doMove_step hc hh ho hflag hgood
  cases rehome with
  | false => exact completes_of_up (c := .move n) hup rfl ⟨_, hstep, hclaim⟩
  | true => exact completes_of_up (c := .moveRehome n) hup rfl ⟨_, hstep, hclaim⟩

section
variable {w : MoveW} (ho : tabGet s.obj.recs i = some o)
include ho

theorem moveStep_rehome (h : w.rehome = true) : moveStep i s w = startRehome i { w with evict := false } s := by
  rw [moveStep, ho]
  dsimp only
  rw [if_pos h]

theorem moveStep_promote (h : w.rehome = false) (ht : w.tier < o.home) : moveStep i s w = promote i w s := by
  rw [moveStep, ho]
  dsimp only
  rw [if_neg (by rw [h]; decide), if_pos ht]

theorem moveStep_home (h : w.rehome = false) (ht : w.tier = o.home) : moveStep i s w = evictMove i w s := by
  rw [moveStep, ho]
  dsimp only
  rw [if_neg (by rw [h]; decide), if_neg (by omega), if_pos ht]

end

/-- Evictions made for a request leave every object's home, bytes and pins of its home. -/
def KeepsHome (s t : State) : Prop := ∀ i o, tabGet s.obj.recs i = some o →
  ∃ o', tabGet t.obj.recs i = some o' ∧ o'.home = o.home ∧ o'.mem = o.mem ∧ o'.pinsHome = o.pinsHome

theorem KeepsHome.refl (s : State) : KeepsHome s s := fun _ o ho => ⟨o, ho, rfl, rfl, rfl⟩

theorem KeepsHome.trans {u : State} (h : KeepsHome s t) (g : KeepsHome t u) : KeepsHome s u := by
  intro i o ho
  obtain ⟨o1, ho1, h1, h2, h3⟩ := h i o ho
  obtain ⟨o2, ho2, g1, g2, g3⟩ := g i o1 ho1
  exact ⟨o2, ho2, g1.trans h1, g2.trans h2, g3.trans h3⟩

theorem KeepsHome.of_obj (h : t.obj = s.obj) : KeepsHome s t := fun _ o ho => ⟨o, by rw [h, ho], rfl, rfl, rfl⟩

theorem keepsHome_modObj {k : Nat} {f : ObjRec → ObjRec} (hf : ∀ o, (f o).home = o.home ∧ (f o).mem = o.mem ∧ (f o).pinsHome = o.pinsHome)
    (s : State) : KeepsHome s (modObj k f s) := by
  intro i o ho
  by_cases hk : i = k
  · subst hk
    exact ⟨f o, tabGet_modObj_of f ho, hf o⟩
  · refine ⟨o, ?_, rfl, rfl, rfl⟩
    rw [modObj, State.onObj_obj, tabGet_tabMod_other _ _ _ _ hk, ho]

theorem keepsHome_foldl {α : Type} {f : State → α → State} (hf : ∀ s a, KeepsHome s (f s a)) (l : List α) (s : State) :
    KeepsHome s (l.foldl f s) := by
  induction l generalizing s with
  | nil => exact .refl s
  | cons a l ih => exact (hf s a).trans (ih _)

theorem keepsHome_evictChoice (tier k : Nat) (s : State) : KeepsHome s (evictChoice tier k s) := by
  refine .trans ?_ (.of_obj ((Effect.refl (ps := [.recd]) (w := false)).token.frame .obj (by decide)))
  unfold evictCopy
  split
  · refine keepsHome_modObj ?_ s
    exact fun _ => ⟨rfl, rfl, rfl⟩
  · refine keepsHome_modObj ?_ s
    exact fun _ => ⟨rfl, rfl, rfl⟩

theorem keepsHome_moveSpace {tn size : Nat} {w : MoveW} {fixed : Bool} {s1 : State} (h : moveSpace tn w size fixed s = some s1) :
    KeepsHome s s1 := by
  unfold moveSpace at h
  split at h
  · cases h
  · have hacc : KeepsHome s (accrue s) := fun i o ho => ⟨o, by rw [accrue_recs, ho], rfl, rfl, rfl⟩
    refine hacc.trans ?_
    generalize accrue s = x at h
    obtain ⟨-, h⟩ := Option.ite_none_left_eq_some.1 h
    obtain ⟨-, h⟩ := Option.ite_none_left_eq_some.1 h
    cases h
    exact keepsHome_foldl (fun s (p : Nat × ObjRec) => keepsHome_evictChoice _ p.1 s) _ x

/-- An object in absence takes its upper copy's place once its space is granted. -/
theorem promote_absent {w : MoveW} {s1 : State} (ho : tabGet s.obj.recs i = some o) (hst : o.st = .absent) (hre : o.rehome = none)
    (hhome : o.home ≠ 4) (hspace : moveSpace (hTenant o.handle) w o.size (o.hostPins != 0) s = some s1) :
    ∃ o', tabGet (promote i w s).obj.recs i = some o' ∧ o'.st = .promoting ∧ o'.upper = w.tier ∧
      o'.placeUp = placeCode s w.tier w.place ∧ o'.home = o.home ∧ o'.mem = o.mem := by
  obtain ⟨o1, ho1, hhome1, hmem1, -⟩ := keepsHome_moveSpace hspace i o ho
  have hstep : promote i w s = packExpand i (headerChange o.home (waitMove i w (modObj i (fun o => { o with
      st := .promoting, upper := w.tier, placeUp := placeCode s w.tier w.place }) s1))) := by
    unfold promote
    rw [ho]
    dsimp only
    rw [hst]
    dsimp only
    rw [hre, if_neg (by decide), decide_eq_false hhome, if_neg (by simp), hspace]
    dsimp only
    rw [if_neg hhome]
  have hpack (x : State) : (packExpand i x).obj = x.obj := by
    unfold packExpand
    split <;> rfl
  have h1 := tabGet_modObj_of (fun o => { o with st := .promoting, upper := w.tier, placeUp := placeCode s w.tier w.place }) ho1
  have h2 := tabGet_headerChange (home := o.home) (tabGet_modObj_of (fun o => { o with waiters := o.waiters ++ [w] }) h1)
  have h3 := (congrArg (fun b : Obj => tabGet b.recs i) ((congrArg State.obj hstep).trans (hpack _))).trans h2
  exact ⟨_, h3, rfl, rfl, rfl, hhome1, hmem1⟩

/-- A clean copy without pins is dropped, and the MOVE to its home ends. -/
theorem evictMove_clean {w : MoveW} (ho : tabGet s.obj.recs i = some o) (hst : o.st = .resident) (htarget : o.target = 255)
    (hpins : o.pinsUpper = 0) (hhost : o.hostPins = 0) (hclean : o.dirty = false) :
    cmdOf (evictMove i w s) w.cmd = none ∧ ∃ o', tabGet (evictMove i w s).obj.recs i = some o' ∧ o'.st = .absent ∧ o'.upper = 255 := by
  have hacc : tabGet (accrue s).obj.recs i = some o := by
    rw [accrue_recs]
    exact ho
  have hstep : evictMove i w s = moved w (headerChange o.home (dropClean i (accrue s))) := by
    unfold evictMove
    rw [ho]
    dsimp only
    rw [hst]
    dsimp only
    rw [if_neg (by rw [htarget, hpins, hhost]; decide), if_neg (by rw [hclean]; decide), evictCopy, hacc, Option.map_some,
      Option.getD_some, hclean, if_neg Bool.false_ne_true]
  generalize accrue s = x at hacc hstep
  have hdrop := tabGet_headerChange (home := o.home)
    (tabGet_modObj_of (fun o => { dropUpper o with poison := if 2 ≤ o.home then homePoison x i else o.poison }) hacc)
  rw [hstep]
  refine ⟨cmdOf_finishCmd .., ?_⟩
  obtain ⟨o', ho', hpin⟩ := keepsObj_finishCmd w.cmd { status := St.success } _ _ hdrop (.inl (by show UpState.absent ≠ .resident; decide))
  obtain ⟨h1, h2, -⟩ := hpin.fields
  exact ⟨o', ho', h1, h2⟩

/-- A rehome to its own home has nothing to do. -/
theorem startRehome_home {w : MoveW} (ho : tabGet s.obj.recs i = some o) (hre : o.rehome = none) (htier : w.tier = o.home) :
    startRehome i { w with evict := false } s = moved { w with evict := false } s := by
  unfold startRehome
  rw [ho]
  dsimp only
  rw [hre, if_neg (by decide), if_pos htier.symm]

/-- A rehome whose space is granted begins to copy under a pin on the home. -/
theorem startRehome_begin {w : MoveW} {s1 : State} (ho : tabGet s.obj.recs i = some o) (hre : o.rehome = none) (htier : w.tier ≠ o.home)
    (hst : o.st = .absent) (hhome : o.home ≠ 4) (ht4 : w.tier = 4 → t4Status s i = 0)
    (hspace : moveSpace (hTenant o.handle) w (homeCharge o) true s = some s1) :
    ∃ o', tabGet (startRehome i w s).obj.recs i = some o' ∧ o'.home = o.home ∧
      o'.rehome = some { tier := w.tier, place := placeCode s w.tier w.place, cmd := w.cmd } ∧ o'.pinsHome = o.pinsHome + 1 := by
  obtain ⟨o1, ho1, hhome1, -, hpins1⟩ := keepsHome_moveSpace hspace i o ho
  have hgo : (decide (w.tier = 4) && t4Status s i != St.success) = false := by
    by_cases h : w.tier = 4
    · rw [ht4 h]
      exact Bool.and_false _
    · rw [decide_eq_false h, Bool.false_and]
  have hmod := tabGet_modObj_of (fun o => { o with
    rehome := some { tier := w.tier, place := placeCode s w.tier w.place, cmd := w.cmd }, pinsHome := o.pinsHome + 1 }) ho1
  generalize hx : modObj i _ s1 = x at hmod
  have hstep : startRehome i w s = if w.tier = 4 then t4Whole .move i true x else x := by
    unfold startRehome
    rw [ho]
    dsimp only
    rw [hre, if_neg (by decide), if_neg htier.symm, hst, if_neg (by decide), decide_eq_false hhome, if_neg (by simp), if_neg (by simp),
      startRehome.begin, hspace]
    dsimp only
    rw [hgo, if_neg Bool.false_ne_true, if_neg hhome, hx]
  have hobj : (startRehome i w s).obj = x.obj := by
    rw [hstep]
    exact (Effect.ite (Effect.refl (ps := [.fab, .rel, .recd]) (w := false)).t4Whole .refl).frame .obj (by decide)
  refine ⟨_, (congrArg (fun b : Obj => tabGet b.recs i) hobj).trans hmod, hhome1, rfl, ?_⟩
  exact congrArg (· + 1) hpins1

end

/-- Settles O52: moves to a faster tier promote, moves home release a clean copy, and rehomes begin. -/
theorem movesPromoteEvictAndRehome : Obligations.MovesPromoteEvictAndRehome := by
  intro s n c o i hup hc hh ho hi hre
  subst hi
  obtain ⟨hrec, -⟩ := tabGet_of_objOf ho
  refine ⟨fun hflag htier hgood hst hhome ⟨s1, hspace⟩ => ?_, fun hflag htier hgood hst htarget hwait hupper hplace => ?_,
    fun hflag htier hst htarget hpins hhost hclean hgood => ?_, fun hflag hgood => ⟨fun htier => ?_, fun htier hst hhome ht4 ⟨s1, hspace⟩ => ?_⟩⟩
  · have hw : moveWanted n c o.home false = {
        cmd := n, evict := false, rehome := false, tier := byteAt c.entry 5, place := fld c.entry 6 2 } := by
      rw [moveWanted, decide_eq_false (by omega), beq_false_of_ne (by omega)]
      rfl
    refine completes_move (rehome := false) hup hc hh ho hflag (by rw [decide_eq_false (by omega)]; exact hgood) ?_
    rw [hw, moveStep_promote (s := moveRan n s) hrec rfl htier]
    exact promote_absent (s := moveRan n s) hrec hst hre hhome hspace
  · refine completes_within (claim := fun t => cmdOf t n = none ∧ ∃ o', tabGet t.obj.recs (hIndex (fld c.entry 8 8)) = some o' ∧
      o'.st = .resident ∧ o'.upper = o.upper ∧ o'.placeUp = o.placeUp) ?_ fun _ heff h => ⟨h.1, heff.bytes rfl, h.2⟩
    have hw : moveWanted n c o.home false = {
        cmd := n, evict := false, rehome := false, tier := byteAt c.entry 5, place := fld c.entry 6 2 } := by
      rw [moveWanted, decide_eq_false (by omega), beq_false_of_ne (by omega)]
      rfl
    refine completes_move (rehome := false) hup hc hh ho hflag (by rw [decide_eq_false (by omega)]; exact hgood) ?_
    rw [hw, moveStep_promote (s := moveRan n s) hrec rfl htier]
    have h := ends_promote (s := moveRan n s) hrec hst htarget hwait hupper hplace
    obtain ⟨o', ho', hpin⟩ := h.keeps o hrec (noEvict_of_no_waiters hwait)
    obtain ⟨h1, h2, -, -, -, -, h7, -⟩ := hpin.fields
    exact ⟨h.gone, o', ho', h1.trans hst, h2, h7⟩
  · refine completes_within (claim := fun t => cmdOf t n = none ∧ ∃ o', tabGet t.obj.recs (hIndex (fld c.entry 8 8)) = some o' ∧
      o'.st = .absent ∧ o'.upper = 255) ?_ fun _ heff h => ⟨h.1, heff.bytes rfl, h.2⟩
    have hw : (moveWanted n c o.home false).rehome = false := by
      rw [moveWanted, decide_eq_false (by omega)]
      rfl
    refine completes_move (rehome := false) hup hc hh ho hflag (by rw [decide_eq_false (by omega)]; exact hgood) ?_
    rw [moveStep_home (s := moveRan n s) hrec hw htier]
    exact evictMove_clean (s := moveRan n s) hrec hst htarget hpins hhost hclean
  · refine completes_within ?_ fun _ heff h => ⟨h, heff.bytes rfl⟩
    refine completes_move (rehome := true) hup hc hh ho hflag hgood ?_
    rw [moveStep_rehome (s := moveRan n s) hrec rfl]
    have hstep := startRehome_home (s := moveRan n s) (w := moveWanted n c o.home true) hrec hre htier
    exact (congrArg (fun t => cmdOf t n) hstep).trans (cmdOf_finishCmd ..)
  · refine completes_move (rehome := true) hup hc hh ho hflag hgood ?_
    rw [moveStep_rehome (s := moveRan n s) hrec rfl]
    exact startRehome_begin (s := moveRan n s) (w := { moveWanted n c o.home true with evict := false }) hrec hre htier hst hhome ht4 hspace

end Sys2Proof.Proofs

/-! The READ of an object in T4 whose eviction waits for the READ itself: taking the pin cancels the eviction, which ends that
command (R236, R238), so that nothing of it is left to wait for the peer's answer. -/

namespace Sys2Proof.Proofs
open Sys2Proof Sys2Proof.Machine Sys2Proof.Safety

set_option Elab.async false

/-- 64 bytes with fields written. -/
def entryOf (l : List (Nat × Bytes)) : Bytes := l.foldl (fun b p => putAt b p.1 p.2) (zeros 64)

/-- An object of tenant 0 that leaves T4 for a MOVE of the command 0. -/
def leavingT4 : ObjRec :=
  { handle := mkHandle 0 2 9 1, size := 4096, home := 1, format := 1, st := .evicting, upper := 4, waiters := [{ cmd := 0, evict := true }] }

/-- A READ of 64 bytes of that object. -/
def readOfLeaving : Cmd :=
  { qp := 5, opcode := 0x55, holds := true, entry := entryOf [(8, toLe 8 (mkHandle 0 2 9 1)), (0x1C, [64])] }

/-- An enabled queue pair of tenant 0, with 16 entries in each ring. -/
def openQueue : Qp := { tenant := 0, ctx := zeros 0x18 ++ toLe 4 16 ++ toLe 4 16 ++ zeros 32, qstate := .enabled }

/-- A node whose T4 is one window on the open peer 5, of which tenant 0 may take 4,096 bytes, and where command 0 is that READ. -/
def readingLeaving : State :=
  let s : State := {}
  { s with
    hif := { s.hif with qps := [(5, openQueue)], cmds := [(0, readOfLeaving)], nextCmd := 1 }
    obj := { s.obj with recs := [(9, leavingT4)] }
    stew := { s.stew with cur := { factoryGen with
      t4 := putAt (zeros 32) 0 ([5, 0, 0, 0, 0, 0, 0, 0] ++ zeros 8 ++ toLe 8 4096)
      pools := ([0, 0, 4, 0, 0, 0, 0, 0] : Bytes) ++ toLe 8 4096 ++ toLe 8 4096 } }
    idx := { s.idx with vers := { table := forwardHandle, index := 5, data := some (putAt (zeros 32) 0 [1, 1]) } :: s.idx.vers }
    fab := { s.fab with ports := [true, false, false, false], peers := [(5, { open_ := true })] } }

/-- Wherever an object starts in a T4 of one window, its requests can be sent once its peer can be sent to. -/
theorem t4Status_of_one_window {s : State} {i node size : Nat} {o : ObjRec} (hsize : 0 < size) (hw : genT4 (gen s) = [(node, 0, size)])
    (ho : tabGet s.obj.recs i = some o) (hs : sendStatus s node (hTenant o.handle) s.eng.epoch = 0) : t4Status s i = 0 := by
  have hplace : ∀ off, t4Place s o.handle off = some (node, 0 + (Config.poolStart o.handle + off) % size) := fun off => by
    rw [t4Place, hw]
    simpa [windowAt] using Nat.mod_lt _ hsize
  rw [t4Status, ho]
  simp only [hplace, hs, if_pos]
  rw [List.findSome?_eq_none_iff.2 fun _ _ => rfl]
  rfl

/-- The node once a READ of an object that T4 serves holds its pin. -/
def pinnedForRead (n : Nat) (o : ObjRec) (i : Nat) (s : State) : State :=
  bucketCharge 2 (hTenant o.handle) (if servingTier o = 2 ∨ servingTier o = 3 then 64 else 0)
    (modCmd n (fun c => { c with pins := c.pins ++ [(pinObj i s).1] }) (pinObj i s).2)

def leavingPinned : State := pinnedForRead 0 leavingT4 9 readingLeaving

theorem t4Status_leavingPinned : t4Status leavingPinned 9 = 0 := by
  have hrec : (tabGet leavingPinned.obj.recs 9).map ObjRec.handle = some (mkHandle 0 2 9 1) := by decide +kernel
  obtain ⟨o, ho, hh⟩ := Option.map_eq_some_iff.1 hrec
  refine t4Status_of_one_window (node := 5) (size := 4096) (by decide) (by decide +kernel) ho ?_
  rw [hh]
  decide +kernel

/-- The READ is gone: it was the command whose eviction the pin cancelled. -/
theorem cmds_leavingPinned : leavingPinned.hif.cmds = [] := by decide +kernel

/-- A READ of 64 bytes of an object that T4 serves, whose peers can be sent to, starts its transfer. -/
theorem exec_read_of_t4 {s : State} {n : Nat} {c : Cmd} {o : ObjRec} (hup : halted s = false) (hc : readyCmd s n 0x55 = some c)
    (hh : handleStatus s c.tenant (fld c.entry 8 8) = none) (ho : objOf s (fld c.entry 8 8) = some o)
    (hin : fld c.entry 0x10 8 + 64 ≤ o.size) (hlen : fld c.entry 0x1C 4 = 64) (htier : servingTier o = 4)
    (hsend : t4Status (pinnedForRead n o (hIndex (fld c.entry 8 8)) s) (hIndex (fld c.entry 8 8)) = 0) :
    exec (.read n) s = .next (withDigests s
      (let off := fld c.entry 0x10 8
       let i := hIndex (fld c.entry 8 8)
       let ran := meterMove o 4 64 false (modCmd n (fun c => { c with ran := true }) (pinnedForRead n o i s))
       if o.checkpoint then t4Whole (.read n) i false ran
       else t4Send { who := .read n, obj := i, off := off / 64 * 64, stop := roundUp (off + 64) 64, write := false } ran)) := by
  have hexec : exec (.read n) s = execRead n s := rfl
  unfold pinnedForRead at hsend
  rw [htier] at hsend
  refine hexec.trans ?_
  rw [execRead, whileUp, hup, if_neg Bool.false_ne_true, hc]
  dsimp only
  rw [withObject, hh]
  dsimp only
  rw [ho]
  dsimp only
  rw [hlen, if_neg (Nat.not_lt.2 hin), pinnedForRead, htier, if_neg (by decide), if_neg (by simpa using show _ = St.success from hsend)]
  rfl

/-- A transfer's requests bring no command back. -/
theorem hif_of_transfer {s : State} {o : ObjRec} {tier len : Nat} {j : T4Job} {who : T4Who} {i : Nat} {whole write : Bool} :
    (if whole then t4Whole who i write (meterMove o tier len write s) else t4Send j (meterMove o tier len write s)).hif = s.hif := by
  have heff : Effect [.fab, .rel, .recd, .obj] false s
      (if whole then t4Whole who i write (meterMove o tier len write s) else t4Send j (meterMove o tier len write s)) :=
    Effect.ite Effect.refl.meterMove.t4Whole Effect.refl.meterMove.t4Send
  exact heff.frame .hif (by decide)

/-- The step of the READ: the transfer starts, with no command left for it. -/
theorem cmdOf_after_read {t : State} (h : exec (.read 0) readingLeaving = .next t) : cmdOf t 0 = none := by
  rw [exec_read_of_t4 (c := readOfLeaving) (o := leavingT4) rfl (by decide +kernel) (by decide +kernel) (by decide +kernel)
    (by decide +kernel) (by decide +kernel) (by decide +kernel) t4Status_leavingPinned] at h
  cases h
  rw [cmdOf, withDigests_hif, hif_of_transfer]
  exact congrArg (fun cmds => tabGet (tabMod cmds 0 fun c => { c with ran := true }) 0) cmds_leavingPinned

/-- Refutes O23: a READ of an object in T4 takes its pin by cancelling an eviction under way, which ends the MOVEs that wait for it; where
the waiting command is the READ's own number, no command is left that has run. -/
theorem not_objectCommandsAllocPinReadFree : ¬ Obligations.ObjectCommandsAllocPinReadFree := by
  intro h
  obtain ⟨-, -, -, hread, -⟩ := h
  obtain ⟨t, ht, -, ⟨c', hc', -⟩, -⟩ := (hread readingLeaving 0 readOfLeaving leavingT4 rfl (by decide +kernel) (by decide +kernel)
    (by decide +kernel) (by decide +kernel)).2 (by decide +kernel) t4Status_leavingPinned
  rw [cmdOf_after_read ht] at hc'
  cases hc'

end Sys2Proof.Proofs

/-! The work of the stages: what a batch that enters a stage, a credit and the leaving of items change of a sheaf (R47 to R57). -/

namespace Sys2Proof.Proofs
open Sys2Proof Sys2Proof.Machine Sys2Proof.Safety

set_option Elab.async false

section
variable {s t u : State}

/-- Stages may be fed: their inputs grow, and nothing else of their work changes, nor the edges, the sheaves' counts and the merges. -/
structure Feeds (s t : State) : Prop where
  absent : t.shv.absent = s.shv.absent
  rts : t.shv.rts = s.shv.rts
  edges : t.shv.edges = s.shv.edges
  stats : t.shv.stats = s.shv.stats
  waitMerge : t.shv.waitMerge = s.shv.waitMerge
  running : ∀ k, (stageOf t k).running = (stageOf s k).running
  holdOn : ∀ k, (stageOf t k).holdOn = (stageOf s k).holdOn
  inputs : ∀ k, ∀ x ∈ (stageOf s k).inputs, x ∈ (stageOf t k).inputs

theorem Feeds.of_shv (h : t.shv = s.shv) : Feeds s t := by
  constructor <;> simp [stageOf, h]

theorem Feeds.refl : Feeds s s := .of_shv rfl

theorem Feeds.trans (h : Feeds s t) (g : Feeds t u) : Feeds s u where
  absent := g.absent.trans h.absent
  rts := g.rts.trans h.rts
  edges := g.edges.trans h.edges
  stats := g.stats.trans h.stats
  waitMerge := g.waitMerge.trans h.waitMerge
  running k := (g.running k).trans (h.running k)
  holdOn k := (g.holdOn k).trans (h.holdOn k)
  inputs k x hx := g.inputs k x (h.inputs k x hx)

theorem Feeds.foldl {α : Type} {f : State → α → State} (hf : ∀ s a, Feeds s (f s a)) (l : List α) (s : State) : Feeds s (l.foldl f s) :=
  List.foldlRecOn l f .refl fun _ h _ _ => h.trans (hf ..)

theorem stageOf_modStage_same (k : Nat) (f : StageRt → StageRt) (s : State) : stageOf (modStage k f s) k = f (stageOf s k) :=
  tabGetD_tabSet_same ..

theorem stageOf_modStage_other {j k : Nat} (f : StageRt → StageRt) (s : State) (h : j ≠ k) : stageOf (modStage k f s) j = stageOf s j :=
  tabGetD_tabSet_other _ _ _ h

/-- A batch put into a stage's inputs. -/
def feed (k : Nat) (x : Nat × Batch) (s : State) : State := modStage k (fun r => { r with inputs := r.inputs ++ [x] }) s

theorem feeds_feed (k : Nat) (x : Nat × Batch) (s : State) : Feeds s (feed k x s) := by
  have hstage : ∀ j, stageOf (feed k x s) j = if j = k then { stageOf s k with inputs := (stageOf s k).inputs ++ [x] } else stageOf s j := by
    intro j
    split
    · next h => subst h; exact stageOf_modStage_same ..
    · next h => exact stageOf_modStage_other _ _ h
  refine ⟨rfl, rfl, rfl, rfl, rfl, ?_, ?_, ?_⟩ <;> intro j <;> rw [hstage]
  · split
    · next h => rw [h]
    · rfl
  · split
    · next h => rw [h]
    · rfl
  · split
    · next h => rw [h]; exact fun y hy => List.mem_append_left _ hy
    · exact fun _ hy => hy

theorem mem_inputs_feed (k : Nat) (x : Nat × Batch) (s : State) : x ∈ (stageOf (feed k x s) k).inputs := by
  rw [feed, stageOf_modStage_same]
  exact List.mem_append_right _ (List.mem_singleton_self x)

theorem feeds_requestStaging (sh : Nat) (b : Batch) (s : State) : Feeds s (requestStaging sh b s) := by
  rw [requestStaging]
  refine Feeds.foldl (fun s k => ?_) _ s
  dsimp only
  split
  · exact .refl
  · exact ⟨rfl, rfl, rfl, rfl, rfl, fun _ => rfl, fun _ => rfl, fun _ _ h => h⟩

theorem feeds_enterStage (sh : Nat) (d : Bytes) (q src : Nat) (b : Batch) (s : State) : Feeds s (enterStage sh d q src b s) := by
  have hlanes := Feeds.foldl (fun s k => feeds_feed (stKey sh q k) (src, b) s) (lanesOf s (shStage d q) b.seq) s
  unfold enterStage
  dsimp only
  split
  · exact hlanes.trans (feeds_requestStaging ..)
  · exact hlanes

/-- A batch that entered a stage stands there, and stays while stages are only fed. -/
theorem standsAt_enterStage (sh : Nat) (d : Bytes) (q src : Nat) (b : Batch) (s : State) :
    StandsAt s d sh q src b (enterStage sh d q src b s) := by
  intro k hk
  have hmem := foldl_of_mem (f := fun s k => feed (stKey sh q k) (src, b) s)
    (p := fun s => (src, b) ∈ (stageOf s (stKey sh q k)).inputs) hk (fun s => mem_inputs_feed ..)
    (fun s j h => (feeds_feed (stKey sh q j) (src, b) s).inputs _ _ h) s
  unfold enterStage
  dsimp only
  split
  · exact (feeds_requestStaging ..).inputs _ _ hmem
  · exact hmem

theorem standsAt_of_feeds {d : Bytes} {sh q src : Nat} {b : Batch} (h : StandsAt s d sh q src b t) (g : Feeds t u) :
    StandsAt s d sh q src b u :=
  fun k hk => g.inputs _ _ (h k hk)

theorem splitOn_congr (h : t.shv.absent = s.shv.absent) (e : Bytes) : splitOn t e = splitOn s e := by
  simp [splitOn, liveLanes, h]

theorem lanesOf_congr (h : t.shv.absent = s.shv.absent) (e : Bytes) (seq : Nat) : lanesOf t e seq = lanesOf s e seq := by
  simp [lanesOf, splitOn, dealLane, liveLanes, h]

theorem standsAt_congr {s' : State} {d : Bytes} {sh q src : Nat} {b : Batch} (h : StandsAt s d sh q src b t)
    (habs : s.shv.absent = s'.shv.absent) : StandsAt s' d sh q src b t :=
  fun k hk => h k (lanesOf_congr habs (shStage d q) b.seq ▸ hk)

theorem sheafRt_modRt (sh : Nat) (f : SheafRt → SheafRt) (s : State) : sheafRt (modRt sh f s) sh = f (sheafRt s sh) :=
  tabGetD_tabSet_same ..

theorem token_shv (c i j w v : Nat) (s : State) : (token c i j w v s).shv = s.shv :=
  (Effect.token (ps := [.recd]) (w := true) Effect.refl).frame .shv (by decide)

theorem deliverOn_feeds (sh : Nat) (d : Bytes) (i : Nat) (b : Batch) (s : State) : Feeds s (deliverOn sh d i b s) :=
  Feeds.foldl (fun s q => feeds_enterStage sh d q i b s) _ s

/-- A batch delivered stands at every successor of its stage. -/
theorem standsAt_deliverOn {d : Bytes} {i q : Nat} (sh : Nat) (b : Batch) (s : State) (hq : q ∈ sgSuccs (shStage d i)) :
    StandsAt s d sh q i b (deliverOn sh d i b s) := by
  obtain ⟨l1, l2, hl⟩ := List.append_of_mem hq
  have hfeeds := fun (l : List Nat) (s : State) => Feeds.foldl (fun s q => feeds_enterStage sh d q i b s) l s
  rw [deliverOn, hl, List.foldl_append, List.foldl_cons]
  exact standsAt_of_feeds (standsAt_congr (standsAt_enterStage sh d q i b _) (hfeeds l1 s).absent) (hfeeds l2 _)

/-- The batch of the next number with the items that wait at a sheaf's head. -/
def nextBatch (s : State) (sh : Nat) : Batch :=
  { num := (sheafRt s sh).next, items := (sheafRt s sh).open_
    seq := (sheafRt s sh).next - if (sheafRt s sh).ver = (gen s).number then (sheafRt s sh).base else (sheafRt s sh).next }

theorem closeBatch_of_empty {sh : Nat} (h : (sheafRt s sh).open_ = []) : closeBatch sh s = s := by
  rw [closeBatch, h]
  rfl

theorem ite_restartEdges_kept (c : Prop) [Decidable c] (sh base : Nat) (s : State) :
    (if c then restartEdges sh base s else s).shv.rts = s.shv.rts ∧ (if c then restartEdges sh base s else s).shv.absent = s.shv.absent := by
  split <;> exact ⟨rfl, rfl⟩

/-- The open batch closes under the next number, and stands at the head stage. -/
theorem closeBatch_facts {sh : Nat} (h : (sheafRt s sh).open_ ≠ []) :
    sheafRt (closeBatch sh s) sh = { sheafRt s sh with
      open_ := [], since := none, next := (sheafRt s sh).next + 1
      base := if (sheafRt s sh).ver = (gen s).number then (sheafRt s sh).base else (sheafRt s sh).next, ver := (gen s).number } ∧
    StandsAt s (itemsDesc s sh (sheafRt s sh).open_) sh 0 255 (nextBatch s sh) (closeBatch sh s) := by
  have hbase : (if (sheafRt s sh).ver != (gen s).number then (sheafRt s sh).next else (sheafRt s sh).base) =
      if (sheafRt s sh).ver = (gen s).number then (sheafRt s sh).base else (sheafRt s sh).next := by
    by_cases hv : (sheafRt s sh).ver = (gen s).number <;> simp [hv]
  have hempty : (sheafRt s sh).open_.isEmpty = false := by simpa using h
  rw [closeBatch]
  dsimp only
  rw [if_neg (by rw [hempty]; decide), hbase]
  constructor
  · rw [sheafRt, (feeds_enterStage ..).rts, token_shv, (ite_restartEdges_kept ..).1]
    exact sheafRt_modRt ..
  · refine standsAt_congr (standsAt_enterStage _ _ _ _ _ _) ?_
    rw [token_shv, (ite_restartEdges_kept ..).2]
    rfl

end

end Sys2Proof.Proofs

/-! Items, batches and stages (R47 to R57). -/

namespace Sys2Proof.Proofs
open Sys2Proof Sys2Proof.Machine Sys2Proof.Safety

set_option Elab.async false

section
variable {s t : State} {n sh : Nat} {c : Cmd}

theorem foldl_joinItem_effect (n sh : Nat) (c : Cmd) (l : List Nat) (s : State) :
    Effect [.shv, .recd] true s (l.foldl (joinItem n sh c) s) :=
  Effect.refl.foldl fun _ _ h => h.joinItem

/-- The command as its items reach the head stage. -/
def headReached (n : Nat) (s : State) : State := modCmd n (fun c => { c with arrived := true }) s

theorem open_closeBatch (sh : Nat) (s : State) : (sheafRt (closeBatch sh s) sh).open_ = [] := by
  by_cases h : (sheafRt s sh).open_ = []
  · rw [closeBatch_of_empty h, h]
  · rw [(closeBatch_facts h).1]

/-- A first item that fits opens the batch, and its window begins. -/
theorem joinItem_opens {i : Nat} (h : (sheafRt s sh).open_ = []) (hmax : 1 < shBatchMax c.desc) :
    sheafRt (joinItem n sh c s i) sh =
      { sheafRt s sh with open_ := [{ cmd := n, idx := i }], since := some ((sheafRt s sh).since.getD s.aon.uptime) } := by
  have hrt := sheafRt_modRt sh (fun r => { r with
    open_ := r.open_ ++ [{ cmd := n, idx := i }], since := some (r.since.getD (now s)) }) s
  rw [joinItem]
  dsimp only
  rw [h, List.isEmpty_nil, Bool.true_or, if_pos rfl, if_neg, hrt, h]
  · rfl
  · rw [hrt, h]
    exact Nat.not_le.2 hmax

/-- The command's items reach the head stage. -/
theorem completes_headStageItemArrival (hup : halted s = false) (hc : cmdOf s n = some c) (hsh : c.sheaf = some sh)
    (hready : headReady c = true) (hold : oldInside s n sh c = false)
    (hisl : ∀ k ∈ sgTiles (shStage c.desc 0), islandUp s (tileIsland k) = true) {claim : State → Prop}
    (h : claim (withDigests s (if noLiveStage s c.desc then endOutside n c (plain St.insufficientCapacity) s
      else
        let joined := (List.range c.items).foldl (joinItem n sh c) (headReached n s)
        if shWindow c.desc = 0 && !((cmdsOn joined sh).any fun p => headReady p.2 && p.2.desc == c.desc) then closeBatch sh joined
        else joined))) : Completes (.headStageItemArrival n) s claim := by
  have hexec : exec (.headStageItemArrival n) s = execHeadStageItemArrival n s := rfl
  rw [execHeadStageItemArrival, hc] at hexec
  dsimp only at hexec
  rw [hsh] at hexec
  dsimp only at hexec
  have hall : (sgTiles (shStage c.desc 0)).all (fun t => islandUp s (tileIsland t)) = true := List.all_eq_true.2 hisl
  rw [hready, hold, hall, if_neg (by decide)] at hexec
  cases hl : noLiveStage s c.desc with
  | true =>
    rw [hl, if_pos rfl] at h hexec
    exact completes_of_up hup hexec ⟨_, rfl, h⟩
  | false =>
    rw [hl, if_neg (by decide)] at h hexec
    exact completes_of_up hup hexec ⟨_, rfl, h⟩

/-- No other command is ready at the head: none of the sheaf's commands is, once this one has arrived. -/
theorem no_more_ready {d : Bytes} (hothers : ∀ p ∈ s.hif.cmds, p.1 ≠ n → p.2.sheaf = some sh → headReady p.2 = true → p.2.desc ≠ d)
    (ht : t.hif = (headReached n s).hif) : ((cmdsOn t sh).any fun p => headReady p.2 && p.2.desc == d) = false := by
  rw [List.any_eq_false]
  intro p hp
  rw [cmdsOn, ht] at hp
  obtain ⟨hmem, hon⟩ := List.mem_filter.1 hp
  obtain ⟨p', hp', rfl⟩ := List.mem_map.1 (show p ∈ List.map _ s.hif.cmds from hmem)
  by_cases hn : p'.1 = n
  · simp [hn, headReady]
  · rw [if_neg hn] at hon ⊢
    have hs : p'.2.sheaf = some sh := by simpa using (Bool.and_eq_true_iff.1 hon).1
    intro hboth
    obtain ⟨hr, hd⟩ := Bool.and_eq_true_iff.1 hboth
    exact hothers p' hp' hn hs hr (by simpa using hd)

theorem completes_noLiveStage (hup : halted s = false) (hc : cmdOf s n = some c) (hsh : c.sheaf = some sh)
    (hready : headReady c = true) (hold : oldInside s n sh c = false)
    (hisl : ∀ k ∈ sgTiles (shStage c.desc 0), islandUp s (tileIsland k) = true) (hlive : noLiveStage s c.desc = true) :
    (c.peer = none → Completes (.headStageItemArrival n) s (fun t => t = withDigests s (finishCmd n (plain 0x0201) s))) ∧
    (∀ p, c.peer = some p → Completes (.headStageItemArrival n) s (fun t => cmdOf t n = none)) := by
  refine ⟨fun hp => ?_, fun p hp => ?_⟩
  · refine completes_headStageItemArrival hup hc hsh hready hold hisl ?_
    rw [hlive, if_pos rfl, endOutside, hp]
    rfl
  · refine completes_headStageItemArrival hup hc hsh hready hold hisl ?_
    rw [hlive, if_pos rfl, endOutside, hp]
    exact cmdOf_endCmd ..

theorem completes_itemsArrive (hup : halted s = false) (hc : cmdOf s n = some c) (hsh : c.sheaf = some sh)
    (hready : headReady c = true) (hold : oldInside s n sh c = false)
    (hisl : ∀ k ∈ sgTiles (shStage c.desc 0), islandUp s (tileIsland k) = true) (hlive : noLiveStage s c.desc = false) :
    Completes (.headStageItemArrival n) s (fun t =>
      cmdOf t n = some { c with arrived := true } ∧
      (shWindow c.desc = 0 →
        (∀ p ∈ s.hif.cmds, p.1 ≠ n → p.2.sheaf = some sh → headReady p.2 = true → p.2.desc ≠ c.desc) →
        (sheafRt t sh).open_ = []) ∧
      (shWindow c.desc ≠ 0 → c.items = 1 → (sheafRt s sh).open_ = [] → 1 < shBatchMax c.desc →
        (sheafRt t sh).open_ = [{ cmd := n, idx := 0 }] ∧ (sheafRt t sh).since.isSome = true) ∧
      Frame [.hif, .shv, .recd] s t) := by
  refine completes_headStageItemArrival hup hc hsh hready hold hisl ?_
  rw [hlive, if_neg (by decide)]
  dsimp only
  have hjoin := foldl_joinItem_effect n sh c (List.range c.items) (headReached n s)
  set joined := (List.range c.items).foldl (joinItem n sh c) (headReached n s) with hjoined
  set more := (cmdsOn joined sh).any fun p => headReady p.2 && p.2.desc == c.desc with hmore
  have hjhif : joined.hif = (headReached n s).hif := hjoin.frame .hif (by decide)
  have hclose : Effect [.shv, .recd] true joined (if (decide (shWindow c.desc = 0) && !more) = true then closeBatch sh joined else joined) :=
    Effect.ite Effect.refl.closeBatch Effect.refl
  have hhif : (if (decide (shWindow c.desc = 0) && !more) = true then closeBatch sh joined else joined).hif = (headReached n s).hif :=
    (hclose.frame .hif (by decide)).trans hjhif
  refine ⟨?_, fun hw hothers => ?_, fun hw hone hempty hmax => ?_, ?_⟩
  · rw [cmdOf, withDigests_hif, ← cmdOf, cmdOf_congr hhif, headReached, cmdOf_modCmd_same, hc]
    rfl
  · have hnone : more = false := no_more_ready hothers hjhif
    rw [hnone, hw, if_pos (by decide)]
    exact open_closeBatch ..
  · rw [if_neg (by simp [hw])]
    have hlist : joined = joinItem n sh c (headReached n s) 0 := by rw [hjoined, hone]; rfl
    have hrt := joinItem_opens (n := n) (i := 0) (c := c) (s := headReached n s) hempty hmax
    rw [← hlist] at hrt
    exact ⟨congrArg SheafRt.open_ hrt, congrArg (fun r => r.since.isSome) hrt⟩
  · have hreach : Effect [.hif, .shv, .recd] true s (headReached n s) := Effect.refl.modCmd
    exact frame_withDigests.2 ((hreach.extend (by decide) hjoin).extend (by decide) hclose).frame

theorem completes_batchWindowExpiry {t0 : Nat} (hup : halted s = false) (hsince : (sheafRt s sh).since = some t0)
    (hopen : (sheafRt s sh).open_ ≠ []) (hdue : t0 + shWindow (itemsDesc s sh (sheafRt s sh).open_) ≤ s.aon.uptime) :
    Completes (.batchWindowExpiry sh) s (fun t =>
      let r := sheafRt s sh
      let base := if r.ver = (gen s).number then r.base else r.next
      sheafRt t sh = { r with open_ := [], since := none, next := r.next + 1, base := base, ver := (gen s).number } ∧
      StandsAt s (itemsDesc s sh r.open_) sh 0 255 { num := r.next, seq := r.next - base, items := r.open_ } t ∧
      Frame [.shv, .recd] s t) := by
  have hexec : exec (.batchWindowExpiry sh) s = execBatchWindowExpiry sh s := rfl
  rw [execBatchWindowExpiry] at hexec
  dsimp only at hexec
  rw [hsince] at hexec
  dsimp only at hexec
  rw [if_pos (show _ ≤ now s from hdue)] at hexec
  obtain ⟨hrt, hstands⟩ := closeBatch_facts hopen
  have heff : Effect [.shv, .recd] true s (closeBatch sh s) := Effect.refl.closeBatch
  exact completes_of_up hup hexec ⟨_, rfl, hrt, hstands, frame_withDigests.2 heff.frame⟩

/-! Credits: the edges of a sheaf, and what spending a credit leaves. -/

/-- The slots freed of an edge's receiver, 0 where the edge has no entry. -/
def freedAt (s : State) (k : Nat) : Nat := ((tabGet s.shv.edges k).map Edge.freed).getD 0

theorem freed_grantGo (e : Bytes) (m : Nat) (x : Edge) : (grantGo s sh e m x).freed = x.freed := by
  induction m generalizing x with
  | zero => rfl
  | succ m ih =>
    rw [grantGo]
    exact iteInduction (motive := fun y : Edge => y.freed = x.freed) (fun _ => ih _) fun _ => rfl

theorem held_grantGo (e : Bytes) (m : Nat) (x : Edge) : x.held <+: (grantGo s sh e m x).held := by
  induction m generalizing x with
  | zero => exact List.prefix_rfl
  | succ m ih =>
    rw [grantGo]
    exact iteInduction (motive := fun y : Edge => x.held <+: y.held) (fun _ => (List.prefix_append _ [x.granted]).trans
      (ih { x with out := x.out ++ [x.granted], held := x.held ++ [x.granted], granted := x.granted + 1 })) fun _ => List.prefix_rfl

theorem freed_edgeOf (s : State) (sh : Nat) (d : Bytes) (p q : Nat) : (edgeOf s sh d p q).freed = freedAt s (edKey sh p q) := by
  rw [edgeOf, freedAt]
  cases tabGet s.shv.edges (edKey sh p q) with
  | some x => rfl
  | none => exact freed_grantGo ..

theorem freedAt_modEdge (d : Bytes) (p q k : Nat) (f : Edge → Edge) :
    freedAt (modEdge sh d p q f s) k = if k = edKey sh p q then (f (edgeOf s sh d p q)).freed else freedAt s k := by
  rw [freedAt, show (modEdge sh d p q f s).shv.edges = tabSet s.shv.edges (edKey sh p q) (f (edgeOf s sh d p q)) from rfl]
  split
  · next h => rw [h, tabGet_tabSet_same]; rfl
  · next h => rw [tabGet_tabSet_other _ _ _ _ h, freedAt]

theorem modEdge_shv (d : Bytes) (p q : Nat) (f : Edge → Edge) :
    (modEdge sh d p q f s).shv = { s.shv with edges := (modEdge sh d p q f s).shv.edges } := rfl

/-- Only edges' entries change, and none counts more slots freed. -/
structure Spends (s t : State) : Prop where
  shv : t.shv = { s.shv with edges := t.shv.edges }
  freed : ∀ k, freedAt t k = freedAt s k

theorem spends_spendCredit (sh : Nat) (d : Bytes) (i num : Nat) (s : State) : Spends s (spendCredit sh d i num s) := by
  refine List.foldlRecOn (motive := Spends s) _ _ ⟨rfl, fun _ => rfl⟩ fun t h q _ => ⟨?_, fun k => ?_⟩
  · rw [modEdge_shv, h.shv]
  · rw [freedAt_modEdge, freed_edgeOf, ← h.freed k]
    split
    · next hk => rw [hk]
    · rfl

/-- An edge with an entry in which a batch holds no credit. -/
def Spent (s : State) (k num : Nat) : Prop := ∃ x, tabGet s.shv.edges k = some x ∧ num ∉ x.held

theorem spent_spendCredit {d : Bytes} {i q num : Nat} (hq : q ∈ sgSuccs (shStage d i)) (s : State) :
    Spent (spendCredit sh d i num s) (edKey sh i q) num := by
  have hmine : ∀ u : State, num ∉ ((edgeOf u sh d i q).held.filter (· != num)) := fun u hm => by
    have := (List.mem_filter.1 hm).2
    simp at this
  refine foldl_of_mem (f := fun s q => modEdge sh d i q (fun x => { x with held := x.held.filter (· != num) }) s)
    (p := fun u => Spent u (edKey sh i q) num) hq (fun u => ⟨_, tabGet_tabSet_same .., hmine u⟩) (fun u q' h => ?_) s
  obtain ⟨x, hx, hm⟩ := h
  by_cases hk : q' = q
  · subst hk
    exact ⟨_, tabGet_tabSet_same .., hmine u⟩
  · refine ⟨x, (tabGet_tabSet_other _ _ _ _ ?_).trans hx, hm⟩
    unfold edKey
    omega

theorem spent_congr {k num : Nat} (h : t.shv.edges = s.shv.edges) (hs : Spent s k num) : Spent t k num := by
  rw [Spent, h]
  exact hs

theorem not_held_of_spent {d : Bytes} {i q num : Nat} (h : Spent s (edKey sh i q) num) : num ∉ (edgeOf s sh d i q).held := by
  obtain ⟨x, hx, hm⟩ := h
  rw [edgeOf, hx]
  exact hm

/-! A batch starts. -/

/-- Only the slots of the coordinator's buffer change among the sheaves' parts. -/
def OnlyCoord (s t : State) : Prop := t.shv = { s.shv with coordSlots := t.shv.coordSlots }

theorem OnlyCoord.of_shv (h : t.shv = s.shv) : OnlyCoord s t := by rw [OnlyCoord, h]

theorem OnlyCoord.trans {u : State} (h : OnlyCoord s t) (g : OnlyCoord t u) : OnlyCoord s u := by
  rw [OnlyCoord, show u.shv = _ from g, show t.shv = _ from h]

theorem OnlyCoord.foldl {α : Type} {f : State → α → State} (hf : ∀ s a, OnlyCoord s (f s a)) (l : List α) (s : State) :
    OnlyCoord s (l.foldl f s) :=
  List.foldlRecOn l f rfl fun _ h _ _ => h.trans (hf ..)

theorem onlyCoord_closeFan (n : Nat) (s : State) : OnlyCoord s (closeFan n s) := by
  unfold closeFan
  split
  · rfl
  · split <;> rfl

theorem onlyCoord_askOwner (n : Nat) (c : Cmd) (o : Nat × List Nat) (s : State) : OnlyCoord s (askOwner n c o s) := by
  have heff : Effect [.hif, .fab, .rel, .recd] true s (askOwner n c o s) := Effect.refl.askOwner
  exact .of_shv (heff.frame .shv (by decide))

theorem onlyCoord_askOwners (n : Nat) (s : State) : OnlyCoord s (askOwners n s) := by
  unfold askOwners
  split
  · rfl
  · dsimp only
    split
    · rfl
    · refine OnlyCoord.trans ?_ (onlyCoord_closeFan ..)
      refine OnlyCoord.trans ?_ (OnlyCoord.foldl (fun s o => onlyCoord_askOwner ..) ..)
      rfl

theorem foldl_modCmd_shv (l : List Item) (f : Cmd → Cmd) (s : State) : (l.foldl (fun s i => modCmd i.cmd f s) s).shv = s.shv :=
  List.foldlRecOn (motive := fun t : State => t.shv = s.shv) l _ rfl fun _ h _ _ => h

/-- Where a batch of a stage goes as it starts: to a merge if the stage is SPLIT, else on its credits, which are spent; of a last
stage it takes its place in staging. -/
theorem claimOutput_facts {d : Bytes} {i : Nat} {b : Batch} (s : State) :
    (claimOutput sh d i b s).shv.stages = s.shv.stages ∧
    (splitOn s (shStage d i) = false → ∀ q ∈ sgSuccs (shStage d i), Spent (claimOutput sh d i b s) (edKey sh i q) b.num) ∧
    (splitOn s (shStage d i) = true → ∃ w ∈ (claimOutput sh d i b s).shv.waitMerge, w.1 = sh ∧ w.2.1 = i ∧ w.2.2.num = b.num) ∧
    (byteAt (shStage d i) 8 = 0xFF → b.num ∈ (sheafRt (claimOutput sh d i b s) sh).staged) := by
  unfold claimOutput
  extract_lets e out ask
  have hout : out.shv.stages = s.shv.stages ∧ (splitOn s e = false → ∀ q ∈ sgSuccs e, Spent out (edKey sh i q) b.num) ∧
      (splitOn s e = true → ∃ w ∈ out.shv.waitMerge, w.1 = sh ∧ w.2.1 = i ∧ w.2.2.num = b.num) := by
    cases hs : splitOn s e with
    | false =>
      have : out = spendCredit sh d i b.num s := by simp only [out, hs]; rfl
      rw [this]
      exact ⟨(congrArg Shv.stages (spends_spendCredit sh d i b.num s).shv).trans rfl, fun _ q hq => spent_spendCredit hq s, fun h => Bool.noConfusion h⟩
    | true =>
      refine ⟨?_, fun h => Bool.noConfusion h, fun _ => ?_⟩
      · simp only [out, hs, if_true]
        split <;> rfl
      · simp only [out, hs, if_true]
        split
        · next h =>
          obtain ⟨w, hw, hp⟩ := List.any_eq_true.1 h
          exact ⟨w, hw, by simpa [and_assoc] using hp⟩
        · exact ⟨(sh, i, b), List.mem_append_right _ (List.mem_singleton_self _), rfl, rfl, rfl⟩
  have hask : OnlyCoord out ask := by
    simp only [ask]
    split
    · exact OnlyCoord.foldl (fun s n => onlyCoord_askOwners ..) ..
    · rfl
  have hparts : ask.shv.stages = out.shv.stages ∧ ask.shv.edges = out.shv.edges ∧ ask.shv.waitMerge = out.shv.waitMerge := by
    rw [hask]
    exact ⟨rfl, rfl, rfl⟩
  obtain ⟨hstages, hheld, hmerge⟩ := hout
  obtain ⟨hst, hed, hwm⟩ := hparts
  have hspent : splitOn s e = false → ∀ q ∈ sgSuccs e, Spent ask (edKey sh i q) b.num := fun h q hq => by
    rw [Spent, hed]
    exact hheld h q hq
  split
  · exact ⟨hst.trans hstages, hspent, fun h => hwm ▸ hmerge h, fun _ => by
      rw [sheafRt_modRt]
      exact List.mem_append_right _ (List.mem_singleton_self _)⟩
  · next hlast => exact ⟨hst.trans hstages, hspent, fun h => hwm ▸ hmerge h, fun h => absurd h hlast⟩

theorem stageOf_congr (h : t.shv.stages = s.shv.stages) (k : Nat) : stageOf t k = stageOf s k := by rw [stageOf, stageOf, h]

/-- A tile that sheaves share notes whose turn it took. -/
def shareNoted (tile sh : Nat) (s : State) : State :=
  if 1 < (onTile s tile).length then
    (token 0x05 (tileIsland tile) tile 1 sh s).onShv fun v => { v with lastShare := tabSet v.lastShare tile sh }
  else s

/-- The commands of a batch that starts: of a stage without live lanes they are violated, at the head stage they have started. -/
def itemsStarted (i : Nat) (e : Bytes) (b : Batch) (s : State) : State :=
  let s := if (liveLanes s e).isEmpty then b.items.foldl (fun s i => modCmd i.cmd (fun c => { c with
      viol := if c.viol = 0 then St.insufficientCapacity else c.viol }) s) s else s
  if i = 0 then b.items.foldl (fun s i => modCmd i.cmd (fun c => { c with started := true }) s) s else s

theorem shareNoted_shv (tile sh : Nat) (s : State) :
    (shareNoted tile sh s).shv = { s.shv with lastShare := (shareNoted tile sh s).shv.lastShare } := by
  unfold shareNoted
  split
  · rw [State.onShv, token_shv]
  · rfl

theorem shareNoted_kept (tile sh : Nat) (s : State) :
    (shareNoted tile sh s).shv.absent = s.shv.absent ∧ (shareNoted tile sh s).shv.stages = s.shv.stages := by
  rw [shareNoted_shv]
  exact ⟨rfl, rfl⟩

theorem itemsStarted_shv (i : Nat) (e : Bytes) (b : Batch) (s : State) : (itemsStarted i e b s).shv = s.shv := by
  unfold itemsStarted
  dsimp only
  split <;> split <;> simp only [foldl_modCmd_shv]

theorem itemsStarted_effect (i : Nat) (e : Bytes) (b : Batch) (s : State) : Effect [.hif] true s (itemsStarted i e b s) := by
  have hviol : Effect [.hif] true s (if (liveLanes s e).isEmpty then b.items.foldl (fun s i => modCmd i.cmd (fun c => { c with
      viol := if c.viol = 0 then St.insufficientCapacity else c.viol }) s) s else s) :=
    Effect.ite (Effect.refl.foldl fun _ _ h => h.modCmd) Effect.refl
  exact Effect.ite (hviol.foldl fun _ _ h => h.modCmd) hviol

theorem claimed_effect (sh tile : Nat) (d e : Bytes) (i : Nat) (b : Batch) (s : State) :
    Effect [.hif, .shv, .fab, .rel, .recd] true s (itemsStarted i e b (claimOutput sh d i b (shareNoted tile sh s))) := by
  have hshare : Effect [.hif, .shv, .fab, .rel, .recd] true s (shareNoted tile sh s) := Effect.ite Effect.refl.token.onShv Effect.refl
  exact hshare.claimOutput.extend (by decide) (itemsStarted_effect ..)

/-- A stage whose batch starts. -/
def startsAt (b : Batch) (s : State) (r : StageRt) : StageRt :=
  { r with running := some b, startAt := now s, sent := [], ranEx := [], holdOn := none }

theorem completes_stageBatchStart {i k : Nat} {b : Batch} (hup : halted s = false) (hb : startable s sh i k = some b)
    (hturn : sharesTurn s (sgBase (shStage (itemsDesc s sh b.items) i) + k) sh = true) :
    Completes (.stageBatchStart sh i k) s (fun t =>
      let d := itemsDesc s sh b.items
      let e := shStage d i
      (stageOf t (stKey sh i k)).running = some b ∧ (stageOf t (stKey sh i k)).startAt = s.aon.uptime ∧
      (stageOf t (stKey sh i k)).inputs = (stageOf s (stKey sh i k)).inputs ∧
      (splitOn s e = false → ∀ q ∈ sgSuccs e, b.num ∉ (edgeOf t sh d i q).held) ∧
      (splitOn s e = true → ∃ w ∈ t.shv.waitMerge, w.1 = sh ∧ w.2.1 = i ∧ w.2.2.num = b.num) ∧
      (byteAt e 8 = 0xFF → b.num ∈ (sheafRt t sh).staged) ∧ Frame [.hif, .shv, .fab, .rel, .recd] s t) := by
  have hexec : exec (.stageBatchStart sh i k) s = execStageBatchStart sh i k s := rfl
  rw [execStageBatchStart, hb] at hexec
  dsimp only at hexec
  rw [hturn, if_neg (by decide)] at hexec
  obtain ⟨hstages, hheld, hmerge, hstaged⟩ := claimOutput_facts (sh := sh) (d := itemsDesc s sh b.items) (i := i) (b := b)
    (shareNoted (sgBase (shStage (itemsDesc s sh b.items) i) + k) sh s)
  have heff := claimed_effect sh (sgBase (shStage (itemsDesc s sh b.items) i) + k) (itemsDesc s sh b.items)
    (shStage (itemsDesc s sh b.items) i) i b s
  have hshv := itemsStarted_shv i (shStage (itemsDesc s sh b.items) i) b
    (claimOutput sh (itemsDesc s sh b.items) i b (shareNoted (sgBase (shStage (itemsDesc s sh b.items) i) + k) sh s))
  obtain ⟨habs, hkept⟩ := shareNoted_kept (sgBase (shStage (itemsDesc s sh b.items) i) + k) sh s
  have hsplit := splitOn_congr habs (shStage (itemsDesc s sh b.items) i)
  have hinputs := stageOf_congr ((congrArg Shv.stages hshv).trans (hstages.trans hkept)) (stKey sh i k)
  rw [hsplit] at hheld hmerge
  obtain ⟨u, hu⟩ : ∃ u, itemsStarted i (shStage (itemsDesc s sh b.items) i) b
    (claimOutput sh (itemsDesc s sh b.items) i b (shareNoted (sgBase (shStage (itemsDesc s sh b.items) i) + k) sh s)) = u := ⟨_, rfl⟩
  rw [hu] at hshv heff hinputs
  change exec (.stageBatchStart sh i k) s = whileUp s (.next (modStage (stKey sh i k)
    (startsAt b (itemsStarted i (shStage (itemsDesc s sh b.items) i) b (claimOutput sh (itemsDesc s sh b.items) i b
      (shareNoted (sgBase (shStage (itemsDesc s sh b.items) i) + k) sh s))))
    (itemsStarted i (shStage (itemsDesc s sh b.items) i) b (claimOutput sh (itemsDesc s sh b.items) i b
      (shareNoted (sgBase (shStage (itemsDesc s sh b.items) i) + k) sh s))))) at hexec
  rw [hu] at hexec
  have hstage := stageOf_modStage_same (stKey sh i k) (startsAt b u) u
  have heff' : Effect [.hif, .shv, .fab, .rel, .recd] true s (modStage (stKey sh i k) (startsAt b u) u) := heff.modStage
  refine completes_of_up hup hexec ⟨_, rfl, ?_, ?_, ?_, ?_, ?_, ?_, frame_withDigests.2 heff'.frame⟩
  · exact congrArg StageRt.running hstage
  · exact (congrArg StageRt.startAt hstage).trans (congrArg Aon.uptime (heff.frame .aon (by decide)))
  · exact (congrArg StageRt.inputs hstage).trans ((congrArg StageRt.inputs hinputs : (stageOf u _).inputs = _))
  · refine fun h q hq => not_held_of_spent ?_
    exact spent_congr (s := u) rfl (spent_congr (congrArg Shv.edges hshv) (hheld h q hq))
  · exact fun h => (congrArg Shv.waitMerge hshv) ▸ hmerge h
  · exact fun h => (congrArg (fun v => (tabGetD v.rts sh {}).staged) hshv) ▸ hstaged h

/-! Credits returned, and the switch of a tile. -/

theorem completes_creditReturnArrival {i q : Nat} {x : Edge} (hup : halted s = false) (hx : tabGet s.shv.edges (edKey sh i q) = some x)
    (hseen : x.seen ≠ x.freed) :
    let d := (((inFlight s sh).head?).map fun p => itemsDesc s sh p.2.items).getD ((genSheaf (gen s) sh).getD [])
    (∀ k ∈ sgTiles (shStage d i), edgeUp s k (shStage d q) = true) →
    Completes (.creditReturnArrival sh i q) s (fun t =>
      tabGet t.shv.edges (edKey sh i q) = some (grantEdge s sh (shStage d q) { x with seen := x.freed }) ∧
      x.held <+: (grantEdge s sh (shStage d q) { x with seen := x.freed }).held ∧
      (∀ j, j ≠ edKey sh i q → tabGet t.shv.edges j = tabGet s.shv.edges j) ∧ Frame [.shv] s t) := by
  intro d hpath
  have hexec : exec (.creditReturnArrival sh i q) s = execCreditReturnArrival sh i q s := rfl
  rw [execCreditReturnArrival, hx] at hexec
  dsimp only at hexec
  have hall : (sgTiles (shStage d i)).all (fun t => edgeUp s t (shStage d q)) = true := List.all_eq_true.2 hpath
  rw [hall, decide_eq_false hseen, if_neg (by decide)] at hexec
  have hedge : edgeOf s sh d i q = x := by rw [edgeOf, hx]; rfl
  have heff : Effect [.shv] true s (modEdge sh d i q (fun x => grantEdge s sh (shStage d q) { x with seen := x.freed }) s) :=
    Effect.refl.modEdge
  refine completes_of_up hup hexec ⟨_, rfl, ?_, held_grantGo _ _ { x with seen := x.freed }, fun j hj => ?_, frame_withDigests.2 heff.frame⟩
  · exact (tabGet_tabSet_same ..).trans
      (congrArg (fun y : Edge => some (grantEdge s sh (shStage d q) { y with seen := y.freed })) hedge)
  · exact tabGet_tabSet_other _ _ _ _ hj

theorem completes_stageGenerationSwitch {tile : Nat} (hup : halted s = false) (hold : oldWork s tile = false) :
    Completes (.stageGenerationSwitch tile) s (fun t =>
      t.shv = { s.shv with switching := s.shv.switching.filter (· != tile) } ∧ Frame [.shv] s t) := by
  have hexec : exec (.stageGenerationSwitch tile) s = execStageGenerationSwitch tile s := rfl
  rw [execStageGenerationSwitch, hold, if_neg (by decide)] at hexec
  have heff : Effect [.shv] true s (s.onShv fun v => { v with switching := v.switching.filter (· != tile) }) := Effect.refl.onShv
  exact completes_of_up hup hexec ⟨_, rfl, rfl, frame_withDigests.2 heff.frame⟩

/-! A batch leaves its stage. -/

/-- Only the entry of one stage changes among the stages, and nothing of edges, statistics, merges and absent tiles. -/
structure OnlyStage (k : Nat) (s t : State) : Prop where
  edges : t.shv.edges = s.shv.edges
  stats : t.shv.stats = s.shv.stats
  absent : t.shv.absent = s.shv.absent
  waitMerge : t.shv.waitMerge = s.shv.waitMerge
  delivered : t.shv.delivered = s.shv.delivered
  others : ∀ p ∈ t.shv.stages, p.1 ≠ k → p ∈ s.shv.stages
  sorted : (s.shv.stages.map Prod.fst).Pairwise (· < ·) → (t.shv.stages.map Prod.fst).Pairwise (· < ·)

theorem OnlyStage.refl {k : Nat} : OnlyStage k s s := ⟨rfl, rfl, rfl, rfl, rfl, fun _ h _ => h, id⟩

theorem OnlyStage.trans {k : Nat} {u : State} (h : OnlyStage k s t) (g : OnlyStage k t u) : OnlyStage k s u :=
  ⟨g.edges.trans h.edges, g.stats.trans h.stats, g.absent.trans h.absent, g.waitMerge.trans h.waitMerge, g.delivered.trans h.delivered,
   fun p hp hk => h.others p (g.others p hp hk) hk, fun hs => g.sorted (h.sorted hs)⟩

theorem OnlyStage.foldl {α : Type} {k : Nat} {f : State → α → State} (hf : ∀ s a, OnlyStage k s (f s a)) (l : List α) (s : State) :
    OnlyStage k s (l.foldl f s) :=
  List.foldlRecOn l f .refl fun _ h _ _ => h.trans (hf ..)

theorem OnlyStage.of_shv {k : Nat} (h : t.shv = s.shv) : OnlyStage k s t := by
  refine ⟨?_, ?_, ?_, ?_, ?_, ?_, ?_⟩ <;> rw [h]
  exacts [fun _ hp _ => hp, id]

theorem pairwise_tabSet {α : Type} {l : Tab α} (k : Nat) (x : α) (h : (l.map Prod.fst).Pairwise (· < ·)) :
    ((tabSet l k x).map Prod.fst).Pairwise (· < ·) := by
  induction l with
  | nil => simp [tabSet]
  | cons p l ih =>
    obtain ⟨j, v⟩ := p
    obtain ⟨hhead, htail⟩ := List.pairwise_cons.1 h
    rw [tabSet]
    split
    · next hlt =>
      refine List.pairwise_cons.2 ⟨fun a ha => ?_, h⟩
      rcases List.mem_cons.1 ha with rfl | ha
      · exact hlt
      · exact hlt.trans (hhead a ha)
    · split
      · next heq => subst heq; exact List.pairwise_cons.2 ⟨hhead, htail⟩
      · next hlt hne =>
        refine List.pairwise_cons.2 ⟨fun a ha => ?_, ih htail⟩
        obtain ⟨p, hp, rfl⟩ := List.mem_map.1 ha
        rcases mem_tabSet hp with rfl | hp
        · exact Nat.lt_of_le_of_ne (Nat.le_of_not_lt hlt) hne
        · exact hhead _ (List.mem_map_of_mem hp)

/-- In a sorted table the entry of a key just set holds the value set. -/
theorem value_of_mem_tabSet {α : Type} {l : Tab α} {k : Nat} {x : α} {p : Nat × α} (h : (l.map Prod.fst).Pairwise (· < ·))
    (hp : p ∈ tabSet l k x) (hk : p.1 = k) : p.2 = x := by
  have hnodup : ((tabSet l k x).map Prod.fst).Nodup := (pairwise_tabSet k x h).imp Nat.ne_of_lt
  have heq := List.inj_on_of_nodup_map hnodup hp (mem_tabSet_self l k x) hk
  rw [heq]

theorem onlyStage_modStage (k : Nat) (f : StageRt → StageRt) (s : State) : OnlyStage k s (modStage k f s) := by
  refine ⟨rfl, rfl, rfl, rfl, rfl, fun p hp hk => ?_, fun hs => pairwise_tabSet _ _ hs⟩
  rcases mem_tabSet (t := s.shv.stages) hp with rfl | hp
  · exact absurd rfl hk
  · exact hp

theorem onlyStage_noteConvert (k : Nat) (key : CvRec) (xs : List Machine.Num) (ys : List (Nat × Bool × Bool × Machine.Num)) (s : State) :
    OnlyStage k s (noteConvert key xs ys s) := by
  unfold noteConvert
  dsimp only
  split <;> exact ⟨rfl, rfl, rfl, rfl, rfl, fun _ h _ => h, id⟩

theorem onlyStage_noteAt (k sh i tile f : Nat) (xs : List Machine.Num) (ys : List (Nat × Bool × Bool × Machine.Num)) (s : State) :
    OnlyStage k s (noteAt sh i tile f xs ys s) := by
  unfold noteAt
  split
  · exact onlyStage_noteConvert ..
  · exact .refl

theorem onlyStage_noteStage (k sh i tile : Nat) (b : Batch) (s : State) : OnlyStage k s (noteStage sh i tile b s) := by
  have hexpert : ∀ s x, OnlyStage k s (noteExpert sh i tile b s x) := fun s x => by
    refine OnlyStage.foldl (fun s p => ?_) _ s
    dsimp only
    split
    · exact .refl
    · exact onlyStage_noteAt ..
  have hbag : ∀ s c bag, OnlyStage k s (noteBag sh i tile c bag s) := fun s c bag => by
    refine OnlyStage.foldl (fun s p => ?_) _ s
    dsimp only
    split
    · exact onlyStage_noteAt ..
    · exact .refl
  unfold noteStage
  extract_lets role keyed
  have hkeyed : OnlyStage k s keyed := by
    simp only [keyed]
    split
    · exact OnlyStage.foldl hexpert ..
    · exact .refl
  refine hkeyed.trans (OnlyStage.foldl (fun s p => ?_) _ _)
  extract_lets c
  split
  · exact .refl
  split
  · exact onlyStage_noteAt ..
  split
  · exact hbag ..
  split
  · exact OnlyStage.foldl (fun s r => onlyStage_noteAt ..) ..
  · exact .refl

theorem onlyStage_freeLanding (k num : Nat) (s : State) : OnlyStage k s (freeLanding k num s) := by
  unfold freeLanding
  refine OnlyStage.trans ?_ (onlyStage_modStage ..)
  refine List.foldlRecOn (motive := OnlyStage k s) _ _ .refl fun t h p hp => h.trans ?_
  obtain ⟨-, hkey⟩ := List.mem_filter.1 hp
  have hk : p.2.stage = k := by simpa using (Bool.and_eq_true_iff.1 hkey).1
  have hread : OnlyStage k t (t.onShv fun v => { v with reads := tabDel v.reads p.1 }) := ⟨rfl, rfl, rfl, rfl, rfl, fun _ h _ => h, id⟩
  subst hk
  exact hread.trans (onlyStage_modStage ..)

/-- Only the sheaves' counts change among the sheaves' parts. -/
def OnlyRts (s t : State) : Prop := t.shv = { s.shv with rts := t.shv.rts }

theorem OnlyRts.of_shv (h : t.shv = s.shv) : OnlyRts s t := by rw [OnlyRts, h]

theorem OnlyRts.trans {u : State} (h : OnlyRts s t) (g : OnlyRts t u) : OnlyRts s u := by
  rw [OnlyRts, show u.shv = _ from g, show t.shv = _ from h]

theorem onlyRts_freeStaging (x : Option (Nat × Nat)) (s : State) : OnlyRts s (freeStaging x s) := by
  unfold freeStaging
  split
  · rfl
  · split <;> rfl

theorem writeNext_shv (q : Nat) (x : Compl) (rest : List Compl) (s : State) :
    (writeCompl q x (modQp q (fun p => { p with staged := rest }) s)).shv = s.shv := by
  have heff : Effect [.hif] true s (writeCompl q x (modQp q (fun p => { p with staged := rest }) s)) := Effect.refl.modQp.writeCompl
  exact heff.frame .shv (by decide)

theorem onlyRts_drainGo (m q : Nat) (s : State) : OnlyRts s (drainGo m q s) := by
  induction m generalizing s with
  | zero => rfl
  | succ m ih =>
    rw [drainGo]
    split
    · rfl
    · split
      · exact (OnlyRts.of_shv (writeNext_shv ..)).trans ((onlyRts_freeStaging ..).trans (ih _))
      · rfl

theorem onlyRts_postCompl (q : Nat) (x : Compl) (s : State) : OnlyRts s (postCompl q x s) := by
  have hdrain : ∀ u, OnlyRts u (drainCq q u) := fun u => onlyRts_drainGo ..
  unfold postCompl
  split
  · exact OnlyRts.trans rfl (hdrain _)
  · exact OnlyRts.trans rfl (hdrain _)
  · exact onlyRts_freeStaging ..

theorem endCmd_shv (n : Nat) (s : State) : (endCmd n s).shv = s.shv := by
  have heff : Effect [.stew, .hif, .eng, .obj] true s (endCmd n s) := Effect.refl.endCmd
  exact heff.frame .shv (by decide)

theorem sendMsg_shv (m : Msg) (s : State) : (sendMsg m s).shv = s.shv := by
  have heff : Effect [.fab, .rel, .recd] true s (sendMsg m s) := Effect.refl.sendMsg
  exact heff.frame .shv (by decide)

theorem onlyRts_leaveCmd (sh num n : Nat) (c : Cmd) (s : State) : OnlyRts s (leaveCmd sh num n c s) := by
  unfold leaveCmd
  split
  · refine OnlyRts.trans ?_ (.of_shv (endCmd_shv ..))
    split
    · rfl
    · exact .of_shv (sendMsg_shv ..)
  · refine OnlyRts.trans ?_ (.of_shv (endCmd_shv ..))
    split
    · rfl
    · exact onlyRts_postCompl ..

theorem cmdOf_leaveCmd (sh num n : Nat) (c : Cmd) (s : State) : cmdOf (leaveCmd sh num n c s) n = none := by
  unfold leaveCmd
  split <;> exact cmdOf_endCmd ..

theorem onlyRts_leaveItem (sh num : Nat) (i : Item) (s : State) : OnlyRts s (leaveItem sh num s i) := by
  unfold leaveItem
  extract_lets s1
  split
  · rfl
  · split
    · exact OnlyRts.trans (t := s1) rfl (onlyRts_leaveCmd ..)
    · rfl

/-- The last item of a command that arrived takes the command out of the node. -/
theorem cmdOf_leaveItem {num : Nat} {i : Item} (hc : cmdOf s i.cmd = some c) (harr : c.arrived = true) (hlast : c.itemsDone + 1 = c.items) :
    cmdOf (leaveItem sh num s i) i.cmd = none := by
  have hmod : cmdOf (modCmd i.cmd (fun c => { c with itemsDone := c.itemsDone + 1 }) s) i.cmd =
      some { c with itemsDone := c.itemsDone + 1 } := by rw [cmdOf_modCmd_same, hc]; rfl
  rw [leaveItem, hmod]
  dsimp only
  rw [harr, hlast, if_pos (by simp)]
  exact cmdOf_leaveCmd ..

/-- Batches move on: what runs at the stages, their statistics and the slots freed stay. -/
structure MovesOn (s t : State) : Prop where
  running : ∀ k, (stageOf t k).running = (stageOf s k).running
  holdOn : ∀ k, (stageOf t k).holdOn = (stageOf s k).holdOn
  stats : t.shv.stats = s.shv.stats
  freed : ∀ k, freedAt t k = freedAt s k

theorem MovesOn.refl : MovesOn s s := ⟨fun _ => rfl, fun _ => rfl, rfl, fun _ => rfl⟩

theorem MovesOn.trans {u : State} (h : MovesOn s t) (g : MovesOn t u) : MovesOn s u :=
  ⟨fun k => (g.running k).trans (h.running k), fun k => (g.holdOn k).trans (h.holdOn k), g.stats.trans h.stats,
   fun k => (g.freed k).trans (h.freed k)⟩

theorem MovesOn.of_onlyRts (h : OnlyRts s t) : MovesOn s t := by
  have hshv : t.shv = { s.shv with rts := t.shv.rts } := h
  refine ⟨fun k => ?_, fun k => ?_, ?_, fun k => ?_⟩
  · rw [stageOf, hshv, stageOf]
  · rw [stageOf, hshv, stageOf]
  · rw [hshv]
  · rw [freedAt, hshv, freedAt]

theorem MovesOn.of_feeds (h : Feeds s t) : MovesOn s t := ⟨h.running, h.holdOn, h.stats, fun k => by rw [freedAt, h.edges, freedAt]⟩

theorem MovesOn.of_spends (h : Spends s t) : MovesOn s t := by
  refine ⟨fun k => ?_, fun k => ?_, ?_, h.freed⟩
  · rw [stageOf, h.shv, stageOf]
  · rw [stageOf, h.shv, stageOf]
  · rw [h.shv]

theorem movesOn_finishSplit (sh i : Nat) (b : Batch) (s : State) : MovesOn s (finishSplit sh i b s) := by
  unfold finishSplit
  split
  · exact .refl
  · refine MovesOn.trans ?_ ((MovesOn.of_spends (spends_spendCredit ..)).trans (.of_feeds (deliverOn_feeds ..)))
    exact ⟨fun _ => rfl, fun _ => rfl, rfl, fun _ => rfl⟩

theorem one_le_parts_deepForm (fp : Bool) (order n : Nat) : 1 ≤ (deepForm fp order n).parts := by
  unfold deepForm
  split
  · exact le_rfl
  · next h => exact (Nat.le_div_iff_mul_le (by decide)).2 (by omega)

theorem one_le_parts_listForm (s : State) (c : Cmd) (st : Bytes) : 1 ≤ (listForm s c st).parts := by
  unfold listForm
  split
  · exact one_le_parts_deepForm ..
  · split
    · exact le_max_left ..
    · split
      · split
        · exact le_rfl
        · exact one_le_parts_deepForm ..
      · exact le_rfl

/-- Every item of a batch makes a list. -/
theorem batchLists_ne_nil {i : Nat} {b : Batch} (h : b.items ≠ []) : batchLists s i b ≠ [] := by
  obtain ⟨it, rest, hit⟩ := List.exists_cons_of_ne_nil h
  have hparts : 1 ≤ ((cmdOf s it.cmd).map fun c => (listForm s c (shStage c.desc i)).parts).getD 1 := by
    cases cmdOf s it.cmd with
    | none => exact le_rfl
    | some c => exact one_le_parts_listForm ..
  refine List.ne_nil_of_mem (a := (0, 0)) (List.mem_flatMap.2 ⟨(it, 0), ?_, List.mem_map.2 ⟨0, List.mem_range.2 hparts, rfl⟩⟩)
  rw [hit]
  exact List.mem_cons_self ..

/-- A SPLIT stage's batch of which no list was delivered stays with its merge. -/
theorem finishSplit_of_undelivered {i : Nat} {b : Batch} (hnone : s.shv.delivered = []) (hitems : b.items ≠ []) :
    finishSplit sh i b s = s := by
  have hlists := batchLists_ne_nil (s := s) (i := i) hitems
  have hdone : splitDone s sh i b = false := by
    rw [splitDone, hnone, List.all_eq_false.2, Bool.false_and]
    obtain ⟨x, l, hx⟩ := List.exists_cons_of_ne_nil hlists
    exact ⟨x, hx ▸ List.mem_cons_self .., by simp⟩
  rw [finishSplit, hdone]
  rfl

/-- A finished batch is noted and metered, and its landing space and pins are freed. -/
def landingFreed (sh i lane : Nat) (b : Batch) (s : State) : State :=
  let k := stKey sh i lane
  let e := shStage (itemsDesc s sh b.items) i
  let s := meterTile b (now s - (stageOf s k).startAt) (noteStage sh i (sgBase e + lane) b s)
  let s := freeLanding k b.num s
  if sgRole e = 6 then unpinBatch sh b.num s else s

/-- A stage that a batch leaves. -/
def leavesStage (num : Nat) (r : StageRt) : StageRt :=
  { r with running := none, holdOn := none, sent := [], ranEx := [], inputs := r.inputs.filter fun x => x.2.num != num }

/-- The stage as the batch has left it, with its statistics. -/
def stageLeft (k : Nat) (b : Batch) (s : State) : State :=
  modStat k (fun t => { t with batches := t.batches + 1, items := t.items + b.items.length }) (modStage k (leavesStage b.num) s)

/-- A lane of the stage still holds the batch. -/
def laneHolds (s : State) (sh i num : Nat) : Bool :=
  (sheafStages s sh).any fun p => p.1 / 32 % 16 == i && (stageBatches p.2).any fun x => x.num == num

/-- The slots of a batch that no lane holds are counted for every predecessor. -/
def slotsFreed (sh i : Nat) (d : Bytes) (num : Nat) (s : State) : State :=
  if laneHolds s sh i num then s else (shPreds d i).foldl (fun s p =>
    modEdge sh d p i (fun x => { x with out := x.out.filter (· != num), freed := x.freed + 1 }) s) s

theorem onlyStage_landingFreed (sh i lane : Nat) (b : Batch) (s : State) : OnlyStage (stKey sh i lane) s (landingFreed sh i lane b s) := by
  have hmeter : ∀ ns u, OnlyStage (stKey sh i lane) u (meterTile b ns u) := fun ns u => by
    have heff : Effect [.obj] true u (meterTile b ns u) := Effect.refl.meterTile
    exact .of_shv (heff.frame .shv (by decide))
  have hfreed := ((onlyStage_noteStage (stKey sh i lane) sh i (sgBase (shStage (itemsDesc s sh b.items) i) + lane) b s).trans
    (hmeter (now s - (stageOf s (stKey sh i lane)).startAt) _)).trans (onlyStage_freeLanding (stKey sh i lane) b.num _)
  unfold landingFreed
  dsimp only
  split
  · exact hfreed.trans ⟨rfl, rfl, rfl, rfl, rfl, fun _ h _ => h, id⟩
  · exact hfreed

theorem landingFreed_effect (sh i lane : Nat) (b : Batch) (s : State) : Effect [.obj, .shv] true s (landingFreed sh i lane b s) :=
  Effect.ite Effect.refl.noteStage.meterTile.freeLanding.unpinBatch Effect.refl.noteStage.meterTile.freeLanding

theorem stageLeft_shv (k : Nat) (b : Batch) (s : State) : (stageLeft k b s).shv.edges = s.shv.edges ∧
    (stageLeft k b s).shv.stages = tabSet s.shv.stages k (leavesStage b.num (stageOf s k)) ∧
    (stageLeft k b s).shv.stats = tabSet s.shv.stats k { tabGetD s.shv.stats k {} with
      batches := (tabGetD s.shv.stats k {}).batches + 1, items := (tabGetD s.shv.stats k {}).items + b.items.length } :=
  ⟨rfl, rfl, rfl⟩

theorem no_batch_leavesStage (num : Nat) (r : StageRt) : ∀ x ∈ stageBatches (leavesStage num r), x.num ≠ num := by
  intro x hx
  rw [stageBatches] at hx
  obtain ⟨y, hy, rfl⟩ : ∃ y ∈ r.inputs.filter (fun x => x.2.num != num), y.2 = x := by simpa [leavesStage] using hx
  simpa using (List.mem_filter.1 hy).2

/-- No lane holds the batch once the one that ran it has left and no other of its stage held it. -/
theorem not_laneHolds {i k : Nat} {b : Batch} {u : State} (h : OnlyStage k s u)
    (hsorted : (s.shv.stages.map Prod.fst).Pairwise (· < ·))
    (hothers : ∀ p ∈ s.shv.stages, p.1 ≠ k → p.1 / 512 = sh → p.1 / 32 % 16 = i → ∀ x ∈ stageBatches p.2, x.num ≠ b.num) :
    laneHolds (stageLeft k b u) sh i b.num = false := by
  rw [laneHolds, List.any_eq_false]
  intro p hp hheld
  obtain ⟨hmem, hsheaf⟩ := List.mem_filter.1 hp
  obtain ⟨hstage, hany⟩ := Bool.and_eq_true_iff.1 hheld
  obtain ⟨x, hx, hnum⟩ := List.any_eq_true.1 hany
  have hnum' : x.num = b.num := by simpa using hnum
  rw [(stageLeft_shv ..).2.1] at hmem
  by_cases hk : p.1 = k
  · have hval := value_of_mem_tabSet (h.sorted hsorted) hmem hk
    rw [hval] at hx
    exact no_batch_leavesStage _ _ x hx hnum'
  · have hold := (mem_tabSet hmem).resolve_left fun he => hk (by rw [he])
    exact hothers p (h.others p hold hk) hk (by simpa using hsheaf) (by simpa using hstage) x hx hnum'

theorem freedAt_foldl_preds {d : Bytes} {i num p : Nat} {l : List Nat} (hl : l.Nodup) (s : State) :
    freedAt (l.foldl (fun s p => modEdge sh d p i (fun x => { x with out := x.out.filter (· != num), freed := x.freed + 1 }) s) s)
      (edKey sh p i) = freedAt s (edKey sh p i) + if p ∈ l then 1 else 0 := by
  induction l generalizing s with
  | nil => rfl
  | cons a l ih =>
    obtain ⟨ha, hl⟩ := List.nodup_cons.1 hl
    rw [List.foldl_cons, ih hl, freedAt_modEdge, freed_edgeOf]
    by_cases hp : p = a
    · subst hp
      rw [if_pos rfl, if_neg ha, if_pos (List.mem_cons_self ..)]
    · have hkey : edKey sh p i ≠ edKey sh a i := by unfold edKey; omega
      simp [hkey, hp]

theorem nodup_shPreds (d : Bytes) (i : Nat) : (shPreds d i).Nodup := List.nodup_range.filter _

/-- Every predecessor's slot is counted where no lane holds the batch. -/
theorem freedAt_slotsFreed {d : Bytes} {i num p : Nat} (h : laneHolds s sh i num = false) (hp : p ∈ shPreds d i) :
    freedAt (slotsFreed sh i d num s) (edKey sh p i) = freedAt s (edKey sh p i) + 1 := by
  rw [slotsFreed, h, if_neg (by decide), freedAt_foldl_preds (nodup_shPreds d i), if_pos hp]

theorem slotsFreed_shv (sh i : Nat) (d : Bytes) (num : Nat) (s : State) :
    (slotsFreed sh i d num s).shv = { s.shv with edges := (slotsFreed sh i d num s).shv.edges } := by
  unfold slotsFreed
  split
  · rfl
  · refine List.foldlRecOn (motive := fun t : State => t.shv = { s.shv with edges := t.shv.edges }) _ _ rfl fun t h p _ => ?_
    rw [modEdge_shv, h]

theorem stageFinish_effect (sh i lane : Nat) (d : Bytes) (b : Batch) (s : State) :
    Effect [.obj, .shv] true s (slotsFreed sh i d b.num (stageLeft (stKey sh i lane) b (landingFreed sh i lane b s))) := by
  have hleft : Effect [.obj, .shv] true s (stageLeft (stKey sh i lane) b (landingFreed sh i lane b s)) :=
    (landingFreed_effect sh i lane b s).modStage.modStat
  exact Effect.ite hleft (hleft.foldl fun _ _ h => h.modEdge)

/-- The stage is free, the batch is in its statistics and its slots are counted, with merges and absent tiles as they were. -/
theorem stageFinish_facts {i lane : Nat} {d : Bytes} {b : Batch} (s : State) :
    let t := slotsFreed sh i d b.num (stageLeft (stKey sh i lane) b (landingFreed sh i lane b s))
    (stageOf t (stKey sh i lane)).running = none ∧ (stageOf t (stKey sh i lane)).holdOn = none ∧
    (tabGetD t.shv.stats (stKey sh i lane) {}).batches = (tabGetD s.shv.stats (stKey sh i lane) {}).batches + 1 ∧
    t.shv.absent = s.shv.absent ∧ t.shv.delivered = s.shv.delivered ∧ t.shv.waitMerge = s.shv.waitMerge ∧ t.hif = s.hif ∧
    ((s.shv.stages.map Prod.fst).Pairwise (· < ·) →
      (∀ p ∈ s.shv.stages, p.1 ≠ stKey sh i lane → p.1 / 512 = sh → p.1 / 32 % 16 = i → ∀ x ∈ stageBatches p.2, x.num ≠ b.num) →
      ∀ p ∈ shPreds d i, freedAt t (edKey sh p i) = freedAt s (edKey sh p i) + 1) := by
  intro t
  have honly := onlyStage_landingFreed sh i lane b s
  have hshv := slotsFreed_shv sh i d b.num (stageLeft (stKey sh i lane) b (landingFreed sh i lane b s))
  obtain ⟨hedges, hstages, hstats⟩ := stageLeft_shv (stKey sh i lane) b (landingFreed sh i lane b s)
  have hst : t.shv.stages = tabSet (landingFreed sh i lane b s).shv.stages (stKey sh i lane)
      (leavesStage b.num (stageOf (landingFreed sh i lane b s) (stKey sh i lane))) := (congrArg Shv.stages hshv).trans hstages
  have hof : stageOf t (stKey sh i lane) = leavesStage b.num (stageOf (landingFreed sh i lane b s) (stKey sh i lane)) := by
    rw [stageOf, hst, tabGetD_tabSet_same]
  refine ⟨by rw [hof]; rfl, by rw [hof]; rfl, ?_, ?_, ?_, ?_, (stageFinish_effect sh i lane d b s).frame .hif (by decide),
    fun hsorted hothers p hp => ?_⟩
  · rw [(congrArg Shv.stats hshv).trans hstats, tabGetD_tabSet_same, honly.stats]
  · exact (congrArg Shv.absent hshv).trans honly.absent
  · exact (congrArg Shv.delivered hshv).trans honly.delivered
  · exact (congrArg Shv.waitMerge hshv).trans honly.waitMerge
  · rw [freedAt_slotsFreed (not_laneHolds honly hsorted hothers) hp, freedAt, hedges, honly.edges, freedAt]

/-- Where a finished batch goes: to its merge, to the successors, or out of the sheaf with its last items. -/
def batchPassed (sh i : Nat) (d : Bytes) (b : Batch) (s : State) : State :=
  if splitOn s (shStage d i) then finishSplit sh i b s
  else if byteAt (shStage d i) 8 != 0xFF then deliverOn sh d i b s
  else freeStaging (some (sh, b.num)) (b.items.foldl (leaveItem sh b.num) s)

theorem movesOn_batchPassed (sh i : Nat) (d : Bytes) (b : Batch) (s : State) : MovesOn s (batchPassed sh i d b s) := by
  unfold batchPassed
  split
  · exact movesOn_finishSplit ..
  split
  · exact .of_feeds (deliverOn_feeds ..)
  · refine MovesOn.trans ?_ (.of_onlyRts (onlyRts_freeStaging ..))
    exact List.foldlRecOn (motive := MovesOn s) _ _ .refl fun t h i _ => h.trans (.of_onlyRts (onlyRts_leaveItem sh b.num i t))

/-- A last stage's batch of one item that is its command's last takes the command out of the node. -/
theorem cmdOf_batchPassed {i : Nat} {d : Bytes} {b : Batch} {it : Item} (hs : splitOn s (shStage d i) = false)
    (hlast : byteAt (shStage d i) 8 = 0xFF) (hitems : b.items = [it]) (hc : cmdOf s it.cmd = some c) (harr : c.arrived = true)
    (hdone : c.itemsDone + 1 = c.items) : cmdOf (batchPassed sh i d b s) it.cmd = none := by
  have hfree : ∀ u : State, (freeStaging (some (sh, b.num)) u).hif = u.hif := fun u => by
    have heff : Effect [.shv] true u (freeStaging (some (sh, b.num)) u) := Effect.refl.freeStaging
    exact heff.frame .hif (by decide)
  rw [batchPassed, hs, if_neg (by decide), hlast, if_neg (by decide), hitems, cmdOf_congr (hfree _)]
  exact cmdOf_leaveItem hc harr hdone

theorem exec_stageBatchFinish {i k : Nat} {b : Batch} (hrun : (stageOf s (stKey sh i k)).running = some b)
    (hwait : finishWaits s sh i k b = false) :
    exec (.stageBatchFinish sh i k) s = whileUp s (.next (batchPassed sh i (itemsDesc s sh b.items) b
      (slotsFreed sh i (itemsDesc s sh b.items) b.num (stageLeft (stKey sh i k) b (landingFreed sh i k b s))))) := by
  have hexec : exec (.stageBatchFinish sh i k) s = execStageBatchFinish sh i k s := rfl
  rw [execStageBatchFinish] at hexec
  dsimp only at hexec
  rw [hrun] at hexec
  dsimp only at hexec
  rw [hwait, if_neg (by decide)] at hexec
  rw [hexec]
  change whileUp s (if splitOn (slotsFreed sh i (itemsDesc s sh b.items) b.num (stageLeft (stKey sh i k) b (landingFreed sh i k b s)))
      (shStage (itemsDesc s sh b.items) i) = true then .next (finishSplit sh i b
        (slotsFreed sh i (itemsDesc s sh b.items) b.num (stageLeft (stKey sh i k) b (landingFreed sh i k b s)))) else _) = _
  rw [batchPassed]
  split
  · rfl
  · split <;> rfl

theorem completes_stageBatchFinish {i k : Nat} {b : Batch} (hup : halted s = false)
    (hrun : (stageOf s (stKey sh i k)).running = some b) (hwait : finishWaits s sh i k b = false) :
    Completes (.stageBatchFinish sh i k) s (fun t =>
      let d := itemsDesc s sh b.items
      let e := shStage d i
      (stageOf t (stKey sh i k)).running = none ∧ (stageOf t (stKey sh i k)).holdOn = none ∧
      (tabGetD t.shv.stats (stKey sh i k) {}).batches = (tabGetD s.shv.stats (stKey sh i k) {}).batches + 1 ∧
      (splitOn s e = false → byteAt e 8 ≠ 0xFF → ∀ q ∈ sgSuccs e, StandsAt s d sh q i b t) ∧
      (splitOn s e = true → s.shv.delivered = [] → batchLists s i b ≠ [] → t.shv.waitMerge = s.shv.waitMerge) ∧
      (splitOn s e = false → byteAt e 8 = 0xFF → ∀ it c, b.items = [it] → cmdOf s it.cmd = some c → c.arrived = true →
        c.itemsDone + 1 = c.items → cmdOf t it.cmd = none) ∧
      ((s.shv.stages.map Prod.fst).Pairwise (· < ·) →
        (∀ p ∈ s.shv.stages, p.1 ≠ stKey sh i k → p.1 / 512 = sh → p.1 / 32 % 16 = i → ∀ x ∈ stageBatches p.2, x.num ≠ b.num) →
        ∀ p ∈ shPreds d i, (edgeOf t sh d p i).freed = (edgeOf s sh d p i).freed + 1) ∧
      t.idx = s.idx ∧ t.fls = s.fls ∧ t.stk = s.stk) := by
  obtain ⟨hrunning, hhold, hstats, habs, hdel, hmerge, hhif, hfreed⟩ :=
    stageFinish_facts (sh := sh) (i := i) (lane := k) (d := itemsDesc s sh b.items) (b := b) s
  have hexec := exec_stageBatchFinish hrun hwait
  generalize slotsFreed sh i (itemsDesc s sh b.items) b.num (stageLeft (stKey sh i k) b (landingFreed sh i k b s)) = u at *
  have hmoves := movesOn_batchPassed sh i (itemsDesc s sh b.items) b u
  have hsplit := splitOn_congr habs (shStage (itemsDesc s sh b.items) i)
  refine completes_within (completes_of_up (claim := fun t => t = withDigests s (batchPassed sh i (itemsDesc s sh b.items) b u)) hup hexec
    ⟨_, rfl, rfl⟩) fun t heff ht => ?_
  have hidx : t.idx = s.idx := heff.frame .idx (by simp [mayChange])
  have hfls : t.fls = s.fls := heff.frame .fls (by simp [mayChange])
  have hstk : t.stk = s.stk := heff.frame .stk (by simp [mayChange])
  refine ⟨?_, ?_, ?_, fun hs hnext q hq => ?_, fun hs hnone hlists => ?_, fun hs hlast it c hitems hc harr hdone => ?_,
    fun hsorted hothers p hp => ?_, hidx, hfls, hstk⟩
  · rw [ht]; exact (hmoves.running _).trans hrunning
  · rw [ht]; exact (hmoves.holdOn _).trans hhold
  · rw [ht, withDigests_shv, hmoves.stats]; exact hstats
  · rw [ht, batchPassed, hsplit, hs, if_neg (by decide), if_pos (by simpa using hnext)]
    have hstands := standsAt_deliverOn sh b u hq
    exact standsAt_congr hstands habs
  · have hitems : b.items ≠ [] := fun h => hlists (by rw [batchLists, h]; rfl)
    rw [ht, batchPassed, hsplit, hs, if_pos rfl, finishSplit_of_undelivered (hdel.trans hnone) hitems]
    exact hmerge
  · rw [ht]
    exact cmdOf_batchPassed (hsplit.trans hs) hlast hitems ((cmdOf_congr hhif _).trans hc) harr hdone
  · rw [freed_edgeOf, freed_edgeOf, ht]
    exact (hmoves.freed _).trans (hfreed hsorted hothers p hp)

/-- Settles O56: the head stage, the start and finish of a stage's batch, the return of credits and the switch of a tile. -/
theorem itemsFormBatchesThatStagesRun : Obligations.ItemsFormBatchesThatStagesRun :=
  ⟨⟨fun _ _ _ _ hup hc hsh hready hold hisl => ⟨fun hl => completes_noLiveStage hup hc hsh hready hold hisl hl,
      fun hl => completes_itemsArrive hup hc hsh hready hold hisl hl⟩,
    fun _ _ _ hup hsince hopen hdue => completes_batchWindowExpiry hup hsince hopen hdue⟩,
   fun _ _ _ _ _ hup hb hturn => completes_stageBatchStart hup hb hturn,
   fun _ _ _ _ _ hup hrun hwait => completes_stageBatchFinish hup hrun hwait,
   fun _ _ _ _ _ hup hx hseen => completes_creditReturnArrival hup hx hseen,
   fun _ _ hup hold => completes_stageGenerationSwitch hup hold⟩

end

end Sys2Proof.Proofs

/-! The reads of awns: issued, seen by the directory, landed (R58 to R61, R175, R364). -/

namespace Sys2Proof.Proofs
open Sys2Proof Sys2Proof.Machine Sys2Proof.Safety

set_option Elab.async false

section
variable {s t u : State} {sh i k key n : Nat}

/-! Taking a pin may end moves and start evictions: of the sheaves' parts only the counts of sheaves change, the husks stay. -/

structure KeepsReads (s t : State) : Prop where
  rts : OnlyRts s t
  husks : t.eng.husks = s.eng.husks
  stk : t.stk = s.stk

theorem KeepsReads.trans (h : KeepsReads s t) (g : KeepsReads t u) : KeepsReads s u :=
  ⟨h.rts.trans g.rts, g.husks.trans h.husks, g.stk.trans h.stk⟩

theorem KeepsReads.refl : KeepsReads s s := ⟨rfl, rfl, rfl⟩

theorem KeepsReads.of_eq (hshv : t.shv = s.shv) (heng : t.eng = s.eng) (hstk : t.stk = s.stk) : KeepsReads s t :=
  ⟨.of_shv hshv, by rw [heng], hstk⟩

theorem KeepsReads.foldl {α : Type} {f : State → α → State} (hf : ∀ s a, KeepsReads s (f s a)) (l : List α) (s : State) :
    KeepsReads s (l.foldl f s) :=
  List.foldlRecOn l f .refl fun _ h _ _ => h.trans (hf ..)

theorem endCmd_husks (n : Nat) (s : State) : (endCmd n s).eng.husks = s.eng.husks := by
  cases hc : cmdOf s n with
  | none => rw [endCmd, hc]
  | some c =>
    rw [endCmd_eng hc]
    unfold unbindEpoch
    split <;> rfl

theorem keepsReads_finishCmd (n : Nat) (r : Result) (s : State) : KeepsReads s (finishCmd n r s) := by
  unfold finishCmd
  split
  · exact .refl
  · next c _ =>
    have hpost : KeepsReads s (if c.suppressed then s else postCompl c.qp (complOf s c r) s) := by
      split
      · exact .refl
      · have heff : Effect [.hif, .shv] true s (postCompl c.qp (complOf s c r) s) := Effect.refl.postCompl
        exact ⟨onlyRts_postCompl .., congrArg Eng.husks (heff.frame .eng (by decide)), heff.frame .stk (by decide)⟩
    have heff : Effect [.stew, .hif, .eng, .obj] true (if c.suppressed then s else postCompl c.qp (complOf s c r) s)
      (endCmd n (if c.suppressed then s else postCompl c.qp (complOf s c r) s)) := Effect.refl.endCmd
    exact hpost.trans ⟨.of_shv (endCmd_shv ..), endCmd_husks .., heff.frame .stk (by decide)⟩

theorem keepsReads_of_obj {ps : List StatePart} (h : Effect ps true s t) (hps : ps ⊆ [.obj, .recd] := by decide) : KeepsReads s t :=
  .of_eq (h.frame .shv fun hp => by simpa using hps hp) (h.frame .eng fun hp => by simpa using hps hp) (h.frame .stk fun hp => by simpa using hps hp)

theorem keepsReads_evictChoice (tier i : Nat) (s : State) : KeepsReads s (evictChoice tier i s) := by
  have heff : Effect [.obj, .recd] true s (evictChoice tier i s) := Effect.refl.evictChoice
  exact keepsReads_of_obj heff

theorem keepsReads_failPromotion (i : Nat) (s : State) : KeepsReads s (failPromotion i s) := by
  unfold failPromotion
  split
  · exact .refl
  · refine KeepsReads.trans ?_ (KeepsReads.foldl (fun s w => keepsReads_finishCmd ..) ..)
    exact ⟨rfl, rfl, rfl⟩

theorem keepsReads_topUpAt (i tier code : Nat) (s : State) : KeepsReads s (topUpAt i tier code s) := by
  unfold topUpAt
  extract_lets place excess
  split
  · exact .refl
  · have hevict := fun l => KeepsReads.foldl (fun s (p : Nat × ObjRec) => keepsReads_evictChoice tier p.1 s) l s
    split
    · exact hevict _
    · split
      · exact (hevict _).trans (keepsReads_failPromotion ..)
      · exact hevict _

theorem keepsReads_topUp (i tier code : Nat) (s : State) : KeepsReads s (topUp i tier code s) := by
  unfold topUp
  refine KeepsReads.trans ?_ (keepsReads_topUpAt ..)
  split
  · exact keepsReads_topUpAt ..
  · exact .refl

theorem keepsReads_cancelEvict (i : Nat) (s : State) : KeepsReads s (cancelEvict i s) := by
  unfold cancelEvict
  split
  · exact .refl
  · split
    · exact .refl
    · refine KeepsReads.trans ?_ (keepsReads_topUp ..)
      refine KeepsReads.trans ?_ (KeepsReads.foldl (fun s w => keepsReads_finishCmd ..) ..)
      exact ⟨rfl, rfl, rfl⟩

theorem keepsReads_pinObj (i : Nat) (s : State) : KeepsReads s (pinObj i s).2 :=
  (keepsReads_cancelEvict i s).trans ⟨rfl, rfl, rfl⟩

/-! What a batch's stream is left with, and what its reads add. -/

theorem OnlyRts.stages (h : OnlyRts s t) : t.shv.stages = s.shv.stages := by rw [show t.shv = _ from h]
theorem OnlyRts.reads (h : OnlyRts s t) : t.shv.reads = s.shv.reads := by rw [show t.shv = _ from h]
theorem OnlyRts.nextRead (h : OnlyRts s t) : t.shv.nextRead = s.shv.nextRead := by rw [show t.shv = _ from h]

/-- The same read, whatever its tag. -/
def untagged (r : AwnRd) : AwnRd := { r with tag := none }

/-- A table whose entries are changed under their keys holds the changed entries. -/
theorem tabGet_map_of_key {α : Type} {F : Nat × α → Nat × α} (hF : ∀ p, (F p).1 = p.1) (t : Tab α) (j : Nat) :
    tabGet (t.map F) j = (tabGet t j).map fun v => (F (j, v)).2 := by
  induction t with
  | nil => rfl
  | cons p t ih =>
    have hk := hF p
    rcases hp : F p with ⟨k', v'⟩
    obtain ⟨k, v⟩ := p
    rw [hp] at hk
    dsimp only at hk
    subst hk
    rw [List.map_cons, hp, tabGet, tabGet]
    by_cases hj : k' = j
    · subst hj
      rw [if_pos rfl, if_pos rfl, Option.map_some, hp]
    · rw [if_neg hj, if_neg hj, ih]

/-- A read not yet seen may take its tag. -/
theorem tabGet_tagReads (s : State) (j : Nat) : ∃ F : AwnRd → AwnRd, (∀ r, untagged (F r) = untagged r) ∧ (∀ r, r.seen = true → F r = r) ∧
    tabGet (tagReads s).shv.reads j = (tabGet s.shv.reads j).map F := by
  unfold tagReads
  extract_lets wait first
  refine ⟨_, fun r => ?_, fun r hr => ?_, tabGet_map_of_key (fun p => ?_) ..⟩
  · dsimp only; split <;> rfl
  · dsimp only; rw [hr]; rfl
  · split <;> rfl

theorem untagged_tagReads (s : State) (j : Nat) :
    (tabGet (tagReads s).shv.reads j).map untagged = (tabGet s.shv.reads j).map untagged := by
  obtain ⟨F, hF, -, hget⟩ := tabGet_tagReads s j
  rw [hget, Option.map_map]
  congr 1
  exact funext hF

theorem tagReads_kept (s : State) : (tagReads s).shv.stages = s.shv.stages ∧ (tagReads s).shv.nextRead = s.shv.nextRead := ⟨rfl, rfl⟩

/-- The entry of a read just issued. -/
def newRead (key : Nat) (b : Batch) (g : Seg) (pin off len at_ : Nat) (bran : Bool) : AwnRd :=
  { stage := key, num := b.num, users := g.users, obj := pin, pins := [pin], off := off, len := len, bran := bran, ver := g.ver
    expert := g.expert, at_ := at_ }

theorem addRead_facts (key : Nat) (b : Batch) (g : Seg) (h tier off len : Nat) (bran : Bool) (s : State) :
    (addRead key b g h tier off len bran s).shv.nextRead = s.shv.nextRead + 1 ∧
    stageOf (addRead key b g h tier off len bran s) key = { stageOf s key with
      landing := if bran then (stageOf s key).landing else (stageOf s key).landing + len
      bran := if bran then (stageOf s key).bran + len else (stageOf s key).bran } ∧
    (∀ j, j ≠ s.shv.nextRead → (tabGet (addRead key b g h tier off len bran s).shv.reads j).map untagged = (tabGet s.shv.reads j).map untagged) ∧
    ∃ pin, (tabGet (addRead key b g h tier off len bran s).shv.reads s.shv.nextRead).map untagged =
      some (newRead key b g pin off len s.aon.uptime bran) := by
  have hkeep := keepsReads_cancelEvict (hIndex h) s
  have hnow : (cancelEvict (hIndex h) s).aon = s.aon :=
    (Effect.refl (ps := [.stew, .hif, .eng, .obj, .shv, .recd]) (w := true)).cancelEvict.frame .aon (by decide)
  unfold addRead
  dsimp only [pinAt]
  refine ⟨?_, ?_, fun j hj => ?_, pinKeyOf (hIndex h) tier
    ((tabGet (cancelEvict (hIndex h) s).obj.recs (hIndex h)).any ObjRec.turn), ?_⟩
  · rw [(tagReads_kept _).2]
    exact congrArg (· + 1) hkeep.rts.nextRead
  · rw [stageOf_congr (tagReads_kept _).1, stageOf_modStage_same]
    exact congrArg (fun r : StageRt => { r with
      landing := if bran then r.landing else r.landing + len
      bran := if bran then r.bran + len else r.bran }) (stageOf_congr hkeep.rts.stages key)
  · rw [untagged_tagReads]
    refine congrArg (Option.map untagged) ?_
    refine (tabGet_tabSet_other _ _ _ _ ?_).trans ?_
    · exact hkeep.rts.nextRead ▸ hj
    · exact congrArg (tabGet · j) hkeep.rts.reads
  · rw [untagged_tagReads, ← hkeep.rts.nextRead, ← hnow]
    exact congrArg (Option.map untagged) (tabGet_tabSet_same ..)

theorem tabGet_of_untagged {l : Tab AwnRd} {j : Nat} {r : AwnRd} (h : (tabGet l j).map untagged = some r) :
    ∃ a, tabGet l j = some a ∧ untagged a = r := Option.map_eq_some_iff.1 h

theorem chargeRead_shv (us : List (Nat × Nat)) (tier m : Nat) (s : State) : (chargeRead us tier m s).shv = s.shv := by
  have heff : Effect [.fab] true s (chargeRead us tier m s) := Effect.refl.chargeRead
  exact heff.frame .shv (by decide)

/-- The reads of the scales' blocks of a stretch that is read (R61). -/
def readScales (key : Nat) (b : Batch) (g : Seg) (brTier : Nat) (brs : List Nat) (s : State) : State :=
  brs.foldl (fun s x => chargeRead g.users brTier 64 (addRead key b g g.bran brTier (64 * x) 64 true s)) s

theorem readScales_facts (key : Nat) (b : Batch) (g : Seg) (brTier : Nat) (brs : List Nat) (s : State) :
    (readScales key b g brTier brs s).shv.nextRead = s.shv.nextRead + brs.length ∧
    stageOf (readScales key b g brTier brs s) key = { stageOf s key with bran := (stageOf s key).bran + 64 * brs.length } ∧
    (∀ j, j < s.shv.nextRead → (tabGet (readScales key b g brTier brs s).shv.reads j).map untagged = (tabGet s.shv.reads j).map untagged) := by
  induction brs generalizing s with
  | nil => exact ⟨rfl, rfl, fun _ _ => rfl⟩
  | cons x brs ih =>
    obtain ⟨hnext, hstage, hreads, -⟩ := addRead_facts key b g g.bran brTier (64 * x) 64 true s
    obtain ⟨hnext', hstage', hreads'⟩ := ih (chargeRead g.users brTier 64 (addRead key b g g.bran brTier (64 * x) 64 true s))
    rw [chargeRead_shv, hnext] at hnext' hreads'
    rw [stageOf_congr (congrArg Shv.stages (chargeRead_shv ..)), hstage] at hstage'
    refine ⟨hnext'.trans (by rw [List.length_cons]; omega), hstage'.trans ?_, fun j hj => (hreads' j (by omega)).trans ?_⟩
    · rw [List.length_cons, Nat.mul_succ, Nat.add_comm (64 * _) 64, ← Nat.add_assoc]
      rfl
    · exact hreads j (by omega)

theorem streams_putStream (key : Nat) (x : Stream) (s : State) : x ∈ (stageOf (putStream key x s) key).streams ∧
    (stageOf (putStream key x s) key).landing = (stageOf s key).landing ∧ (stageOf (putStream key x s) key).bran = (stageOf s key).bran ∧
    (putStream key x s).shv.reads = s.shv.reads ∧ (putStream key x s).shv.nextRead = s.shv.nextRead := by
  rw [putStream, stageOf_modStage_same]
  exact ⟨List.mem_append_right _ (List.mem_singleton_self x), rfl, rfl, rfl, rfl⟩

/-! A stretch is read. -/

section
variable {b : Batch} {e : Bytes} {x : Stream} {g : Seg} {rest : List Seg}

/-- The stream that a batch of an awn reads from. -/
def awnStream (s : State) (sh i k : Nat) (b : Batch) (e : Bytes) : Stream :=
  if sgRole e = 6 then takeKey (stKey sh i k) b (streamAt s (stKey sh i k) i k b) s else streamAt s (stKey sh i k) i k b

theorem completes_issueSeg {claim : State → Prop} (hup : halted s = false) (hb : awnBatch s sh i k = some b)
    (he : e = shStage (itemsDesc s sh b.items) i) (hx : x = awnStream s sh i k b e) (hleft : x.left = g :: rest)
    (hisl : islandUp s (tileIsland (sgBase e + k)) = true)
    (h : claim (withDigests s (issueSeg (stKey sh i k) (sgBase e + k) e b x g rest s))) :
    Completes (.awnReadIssue sh i k false) s claim := by
  have hexec : exec (.awnReadIssue sh i k false) s = execAwnReadIssue sh i k false s := rfl
  subst he
  rw [execAwnReadIssue, if_neg (by decide), hb] at hexec
  dsimp only at hexec
  rw [hisl, if_neg (by decide), show (if sgRole (shStage (itemsDesc s sh b.items) i) = 6 then _ else _) = x from hx.symm, hleft] at hexec
  exact completes_of_up hup hexec ⟨_, rfl, h⟩

/-- A stretch whose users are all in order is read, or sent to its culm. -/
theorem issueSeg_of_good (hne : g.users ≠ []) (hgood : ∀ u ∈ g.users, liveUser s u = true ∧ userBad s g u = none) (tile : Nat) :
    issueSeg key tile e b x g rest s = match g.culm with
      | none => issueRead key tile e b x g rest s
      | some m =>
        if !culmRoom s m || 256 ≤ outstanding s key then s
        else putStream key { x with left := rest } (sendOp key m tile b.num g.users none ((userTenants s g.users).headD 0) g.objs g.op s) := by
  have hlive : g.users.filter (liveUser s) = g.users := List.filter_eq_self.2 fun u hu => (hgood u hu).1
  have hbad : g.users.filterMap (fun u => (userBad s g u).map fun st => (u, st)) = [] :=
    List.filterMap_eq_nil_iff.2 fun u hu => by rw [(hgood u hu).2]; rfl
  have hok : g.users.filter (fun u => (userBad s g u).isNone) = g.users := List.filter_eq_self.2 fun u hu => by rw [(hgood u hu).2]; rfl
  have hempty : g.users.isEmpty = false := by simpa using hne
  rw [issueSeg, hlive, hbad, hok, hempty]
  rfl

/-- A stretch that none of its live users may have is left out. -/
theorem issueSeg_of_bad (hbad : ∀ u ∈ g.users, liveUser s u = true → (userBad s g u).isSome = true) (tile : Nat) :
    issueSeg key tile e b x g rest s = putStream key { x with left := rest }
      (((g.users.filter (liveUser s)).filterMap fun u => (userBad s g u).map fun st => (u, st)).foldl markUser s) := by
  have hok : (g.users.filter (liveUser s)).filter (fun u => (userBad s g u).isNone) = [] := by
    rw [List.filter_eq_nil_iff]
    intro u hu hnone
    obtain ⟨hmem, hlive⟩ := List.mem_filter.1 hu
    have := hbad u hmem hlive
    rw [Option.isNone_iff_eq_none.1 hnone] at this
    cases this
  rw [issueSeg, hok]
  rfl

end

/-- A command's violation is the first found. -/
theorem cmdOf_markUser {c : Cmd} (j st : Nat) (hc : cmdOf s n = some c) :
    cmdOf (markUser s ((n, j), st)) n = some { c with viol := if c.viol = 0 then st else c.viol } := by
  have hmod : cmdOf (modCmd n (fun c => { c with viol := if c.viol = 0 then st else c.viol }) s) n =
      some { c with viol := if c.viol = 0 then st else c.viol } := by rw [cmdOf_modCmd_same, hc]; rfl
  rw [markUser]
  dsimp only
  rw [hc]
  dsimp only
  split
  · exact hmod
  · exact hmod

section
variable {b : Batch} {e : Bytes} {x : Stream} {g : Seg} {rest : List Seg}

theorem completes_badStretch (hup : halted s = false) (hb : awnBatch s sh i k = some b) (he : e = shStage (itemsDesc s sh b.items) i)
    (hx : x = awnStream s sh i k b e) (hleft : x.left = g :: rest) (hisl : islandUp s (tileIsland (sgBase e + k)) = true)
    (hbad : ∀ u ∈ g.users, liveUser s u = true → (userBad s g u).isSome = true) :
    Completes (.awnReadIssue sh i k false) s (fun t =>
      (∃ y ∈ (stageOf t (stKey sh i k)).streams, y.num = x.num ∧ y.left = rest) ∧ t.shv.reads = s.shv.reads ∧ t.stk = s.stk ∧
      (∀ u st c, g.users = [u] → liveUser s u = true → userBad s g u = some st → cmdOf s u.1 = some c →
        cmdOf t u.1 = some { c with viol := if c.viol = 0 then st else c.viol })) := by
  refine completes_issueSeg hup hb he hx hleft hisl ?_
  rw [issueSeg_of_bad hbad]
  have heff := fun l => Effect.foldl (ps := [.hif, .rel]) (w := true) (Effect.refl (s := s)) (l := l) (f := markUser) fun _ _ h => h.markUser
  refine ⟨⟨_, (streams_putStream ..).1, rfl, rfl⟩, ?_, ?_, fun u st c husers hlive hst hc => ?_⟩
  · have hshv : ∀ l : List _, (l.foldl markUser s).shv = s.shv := fun l => (heff l).frame .shv (by decide)
    exact (streams_putStream ..).2.2.2.1.trans (congrArg Shv.reads (hshv _))
  · have hstk : ∀ l : List _, (l.foldl markUser s).stk = s.stk := fun l => (heff l).frame .stk (by decide)
    exact hstk _
  · rw [husers, List.filter_singleton, hlive, cond_true, List.filterMap_cons_some (by rw [hst]; rfl)]
    exact cmdOf_markUser u.2 st hc

theorem completes_readIssue {o : ObjRec} {tier m : Nat} (hup : halted s = false) (hb : awnBatch s sh i k = some b)
    (he : e = shStage (itemsDesc s sh b.items) i) (hx : x = awnStream s sh i k b e) (hleft : x.left = g :: rest)
    (hisl : islandUp s (tileIsland (sgBase e + k)) = true) (hne : g.users ≠ [])
    (hgood : ∀ u ∈ g.users, liveUser s u = true ∧ userBad s g u = none) (hculm : g.culm = none) (ho : objOf s g.handle = some o)
    (htier : awnTier o (sgBase e + k) = some tier) (hbucket : readBucketOk s g.users tier = true)
    (hsize : readSize s (stKey sh i k) e g = some m) :
    Completes (.awnReadIssue sh i k false) s (fun t =>
      let scales := if sgBran e = 0 then [] else branBlocks s (stKey sh i k) g m
      (∃ a, tabGet t.shv.reads s.shv.nextRead = some a ∧ a.stage = stKey sh i k ∧ a.num = b.num ∧ a.users = g.users ∧
        a.off = g.off ∧ a.len = m ∧ a.bran = false ∧ a.ver = g.ver ∧ a.landed = false ∧ a.seen = false ∧ a.culm = false) ∧
      t.shv.nextRead = s.shv.nextRead + 1 + scales.length ∧
      (stageOf t (stKey sh i k)).landing = (stageOf s (stKey sh i k)).landing + m ∧
      (stageOf t (stKey sh i k)).bran = (stageOf s (stKey sh i k)).bran + 64 * scales.length ∧
      (∃ y ∈ (stageOf t (stKey sh i k)).streams, y.num = x.num ∧
        y.left = if g.off + m < g.stop then { g with off := g.off + m } :: rest else rest) ∧ SameBytes s t) := by
  extract_lets scales
  refine completes_within (claim := fun t => t = withDigests s (putStream (stKey sh i k)
    { x with left := if g.off + m < g.stop then { g with off := g.off + m } :: rest else rest }
    (readScales (stKey sh i k) b g (((objOf s g.bran).map servingTier).getD 1) scales (chargeRead g.users tier m
      (addRead (stKey sh i k) b g g.handle tier g.off m false s))))) (completes_issueSeg hup hb he hx hleft hisl ?_) fun t heff ht => ?_
  · have hstep := issueSeg_of_good (e := e) (b := b) (x := x) (rest := rest) (key := stKey sh i k) hne hgood (sgBase e + k)
    rw [hculm] at hstep
    dsimp only at hstep
    rw [issueRead, ho, Option.bind_some, htier] at hstep
    dsimp only at hstep
    rw [hbucket, if_neg (by decide), hsize] at hstep
    exact congrArg (withDigests s) hstep
  · have hshv := chargeRead_shv g.users tier m (addRead (stKey sh i k) b g g.handle tier g.off m false s)
    obtain ⟨hnext, hstage, -, pin, hread⟩ := addRead_facts (stKey sh i k) b g g.handle tier g.off m false s
    generalize chargeRead g.users tier m (addRead (stKey sh i k) b g g.handle tier g.off m false s) = u at ht hshv
    rw [← hshv] at hnext hread
    rw [← stageOf_congr (congrArg Shv.stages hshv)] at hstage
    obtain ⟨hnext', hstage', hreads⟩ := readScales_facts (stKey sh i k) b g (((objOf s g.bran).map servingTier).getD 1) scales u
    generalize readScales (stKey sh i k) b g (((objOf s g.bran).map servingTier).getD 1) scales u = v at ht hnext' hstage' hreads
    obtain ⟨hmem, hland, hbran, hpr, hpn⟩ := streams_putStream (stKey sh i k)
      { x with left := if g.off + m < g.stop then { g with off := g.off + m } :: rest else rest } v
    rw [← hreads _ (by omega)] at hread
    obtain ⟨a, ha, hua⟩ := tabGet_of_untagged hread
    refine ⟨⟨a, ?_, ?_⟩, ?_, ?_, ?_,
      ⟨{ x with left := if g.off + m < g.stop then { g with off := g.off + m } :: rest else rest }, ?_, rfl, rfl⟩, heff.bytes rfl⟩
    · rw [ht]
      exact (congrArg (tabGet · s.shv.nextRead) hpr).trans ha
    · have hfields := fun {α : Type} (f : AwnRd → α) => congrArg f hua
      exact ⟨hfields AwnRd.stage, hfields AwnRd.num, hfields AwnRd.users, hfields AwnRd.off, hfields AwnRd.len, hfields AwnRd.bran,
        hfields AwnRd.ver, hfields AwnRd.landed, hfields AwnRd.seen, hfields AwnRd.culm⟩
    · rw [ht]
      exact hpn.trans (hnext'.trans (by rw [hnext]))
    · rw [ht]
      exact hland.trans (by rw [hstage', hstage]; rfl)
    · rw [ht]
      exact hbran.trans (by rw [hstage', hstage]; rfl)
    · rw [ht]
      exact hmem

end

/-! An operation is sent to its culm. -/

theorem keepsReads_pins (l : List Nat) (a : List Nat × State) :
    KeepsReads a.2 (l.foldl (fun (a : List Nat × State) h => let r := pinObj (hIndex h) a.2; (a.1 ++ [r.1], r.2)) a).2 := by
  induction l generalizing a with
  | nil => exact .refl
  | cons h l ih => exact (keepsReads_pinObj (hIndex h) a.2).trans (ih (a.1 ++ [(pinObj (hIndex h) a.2).1], (pinObj (hIndex h) a.2).2))

theorem culmOf_pushOp (m : Nat) (o : COp) (s : State) :
    culmOf (pushOp m o s) m = { culmOf s m with queue := (culmOf s m).queue ++ [o], sent := (culmOf s m).sent + 1 } :=
  tabGetD_tabSet_same ..

/-- An operation sent to a culm stands at the end of its queue under the tag of a new read, with its objects pinned. -/
theorem sendOp_facts (key m tile num : Nat) (users : List (Nat × Nat)) (husk : Option Nat) (tenant : Nat) (objs : List Nat) (op : Bytes)
    (s : State) :
    let t := sendOp key m tile num users husk tenant objs op s
    (∃ a, tabGet t.shv.reads s.shv.nextRead = some a ∧ a.stage = key ∧ a.num = num ∧ a.users = users ∧ a.culm = true ∧ a.landed = false) ∧
    (∃ o, (culmOf t m).queue = (culmOf s m).queue ++ [o] ∧ o.op = byteAt op 0 ∧ o.tenant = tenant ∧ o.tag = s.shv.nextRead ∧
      o.husk = husk ∧ o.objs = objs) ∧
    (culmOf t m).sent = (culmOf s m).sent + 1 ∧ t.shv.nextRead = s.shv.nextRead + 1 ∧ t.shv.stages = s.shv.stages ∧
    t.eng.husks = s.eng.husks := by
  intro t
  have hkeep := keepsReads_pins ((nub objs).filter (· != 0)) ([], s)
  have hdef : t = sendOp key m tile num users husk tenant objs op s := rfl
  unfold sendOp at hdef
  dsimp only at hdef
  generalize ((nub objs).filter (· != 0)).foldl (fun (a : List Nat × State) h => let r := pinObj (hIndex h) a.2; (a.1 ++ [r.1], r.2))
    (([] : List Nat), s) = pinned at hdef hkeep
  have hculm : culmOf pinned.2 m = culmOf s m := by rw [culmOf, hkeep.stk, culmOf]
  have hnext : pinned.2.shv.nextRead = s.shv.nextRead := hkeep.rts.nextRead
  rw [hdef]
  refine ⟨⟨{
      stage := key, num := num, users := users, obj := pinned.1.headD 0, pins := pinned.1, culm := true, husk := husk, seen := true
      lead := true, at_ := now pinned.2 }, ?_, rfl, rfl, rfl, rfl, rfl⟩, ⟨{
      op := byteAt op 0, tenant := tenant, tag := pinned.2.shv.nextRead
      body := opHeader (byteAt op 0) m tenant pinned.2.shv.nextRead ++ op.drop 16, objs := objs, husk := husk, tile := tile },
    ?_, rfl, rfl, hnext, rfl, rfl⟩, ?_, congrArg (· + 1) hnext, hkeep.rts.stages, hkeep.husks⟩
  · rw [← hnext]
    exact tabGet_tabSet_same ..
  · rw [culmOf_pushOp, ← hculm]
    rfl
  · rw [culmOf_pushOp, ← hculm]
    rfl

section
variable {b : Batch} {e : Bytes} {x : Stream} {g : Seg} {rest : List Seg}

theorem completes_culmIssue {m : Nat} (hup : halted s = false) (hb : awnBatch s sh i k = some b)
    (he : e = shStage (itemsDesc s sh b.items) i) (hx : x = awnStream s sh i k b e) (hleft : x.left = g :: rest)
    (hisl : islandUp s (tileIsland (sgBase e + k)) = true) (hne : g.users ≠ [])
    (hgood : ∀ u ∈ g.users, liveUser s u = true ∧ userBad s g u = none) (hculm : g.culm = some m) (hroom : culmRoom s m = true)
    (hout : outstanding s (stKey sh i k) < 256) :
    Completes (.awnReadIssue sh i k false) s (fun t =>
      (∃ a, tabGet t.shv.reads s.shv.nextRead = some a ∧ a.stage = stKey sh i k ∧ a.num = b.num ∧ a.users = g.users ∧
        a.culm = true ∧ a.landed = false) ∧
      (∃ o, (culmOf t m).queue = (culmOf s m).queue ++ [o] ∧ o.op = byteAt g.op 0 ∧
        o.tenant = (userTenants s g.users).headD 0 ∧ o.tag = s.shv.nextRead ∧ o.objs = g.objs) ∧
      (culmOf t m).sent = (culmOf s m).sent + 1 ∧ t.shv.nextRead = s.shv.nextRead + 1 ∧
      (∃ y ∈ (stageOf t (stKey sh i k)).streams, y.num = x.num ∧ y.left = rest) ∧ SameBytes s t) := by
  refine completes_within (claim := fun t => t = withDigests s (putStream (stKey sh i k) { x with left := rest }
    (sendOp (stKey sh i k) m (sgBase e + k) b.num g.users none ((userTenants s g.users).headD 0) g.objs g.op s)))
    (completes_issueSeg hup hb he hx hleft hisl ?_) fun t heff ht => ?_
  · have hstep := issueSeg_of_good (e := e) (b := b) (x := x) (rest := rest) (key := stKey sh i k) hne hgood (sgBase e + k)
    rw [hculm] at hstep
    dsimp only at hstep
    rw [hroom, decide_eq_false (by omega), if_neg (by decide)] at hstep
    exact congrArg (withDigests s) hstep
  · obtain ⟨hread, ⟨o, hq, hop, hten, htag, -, hobjs⟩, hsent, hnext, -, -⟩ := sendOp_facts (stKey sh i k) m (sgBase e + k) b.num g.users none
      ((userTenants s g.users).headD 0) g.objs g.op s
    generalize sendOp (stKey sh i k) m (sgBase e + k) b.num g.users none ((userTenants s g.users).headD 0) g.objs g.op s = u at *
    have hmem := (streams_putStream (stKey sh i k) { x with left := rest } u).1
    rw [ht]
    exact ⟨hread, ⟨o, hq, hop, hten, htag, hobjs⟩, hsent, hnext, ⟨_, hmem, rfl, rfl⟩, ht ▸ heff.bytes rfl⟩

end

/-! The operations of an ELEMENTWISE command. -/

section
variable {h : Nat} {x : Husk} {c : Cmd}

theorem completes_issueElementwise {claim : State → Prop} (hup : halted s = false) (hw : ewHusk s sh = some (h, x, n, c))
    (hk : k < sgWidth (shStage c.desc 0)) (hisl : islandUp s (tileIsland (sgBase (shStage c.desc 0) + k)) = true)
    (hclaim : claim (withDigests s (issueElementwise (stKey sh 0 k) (sgBase (shStage c.desc 0) + k) (h, x, n, c) s))) :
    Completes (.awnReadIssue sh 0 k true) s claim := by
  have hexec : exec (.awnReadIssue sh 0 k true) s = execAwnReadIssue sh 0 k true s := rfl
  rw [execAwnReadIssue, if_pos rfl] at hexec
  dsimp only at hexec
  rw [if_pos rfl, hw] at hexec
  dsimp only at hexec
  rw [hisl, decide_eq_true hk, if_pos (by decide)] at hexec
  exact completes_of_up hup hexec ⟨_, rfl, hclaim⟩

theorem findSome_readStatus_none (hread : ∀ o ∈ ewObjs s c.entry, o ≠ 0 → readStatus s c.tenant o = none) :
    ((ewObjs s c.entry).filter (· != 0)).findSome? (readStatus s c.tenant) = none := by
  rw [List.findSome?_eq_none_iff]
  intro o ho
  obtain ⟨hmem, hne⟩ := List.mem_filter.1 ho
  exact hread o hmem (by simpa using hne)

theorem completes_elementwiseSent (hup : halted s = false) (hw : ewHusk s sh = some (h, x, n, c))
    (hk : k < sgWidth (shStage c.desc 0)) (hisl : islandUp s (tileIsland (sgBase (shStage c.desc 0) + k)) = true)
    (hread : ∀ o ∈ ewObjs s c.entry, o ≠ 0 → readStatus s c.tenant o = none)
    (hin : ∀ o ∈ ewObjs s c.entry, o ≠ 0 → inChannel s (ewChannel s c.entry) o = true)
    (hroom : culmRoom s (ewChannel s c.entry) = true) (hout : outstanding s (stKey sh 0 k) < 256) :
    Completes (.awnReadIssue sh 0 k true) s (fun t =>
      (∃ o, (culmOf t (ewChannel s c.entry)).queue = (culmOf s (ewChannel s c.entry)).queue ++ [o] ∧ o.op = byteAt c.entry 1 ∧
        o.tenant = c.tenant ∧ o.tag = s.shv.nextRead ∧ o.husk = some h ∧ o.objs = ewObjs s c.entry) ∧
      (tabGet t.eng.husks h).map Husk.issued = (tabGet s.eng.husks h).map (fun y => y.issued + 1) ∧
      t.shv.nextRead = s.shv.nextRead + 1 ∧ SameBytes s t) := by
  have hall : ((ewObjs s c.entry).filter (· != 0)).all (inChannel s (ewChannel s c.entry)) = true := by
    refine List.all_eq_true.2 fun o ho => ?_
    obtain ⟨hmem, hne⟩ := List.mem_filter.1 ho
    exact hin o hmem (by simpa using hne)
  have hstep : ∃ op, byteAt op 0 = byteAt c.entry 1 ∧
      issueElementwise (stKey sh 0 k) (sgBase (shStage c.desc 0) + k) (h, x, n, c) s =
        modHusk h (fun y => { y with issued := y.issued + 1 }) (sendOp (stKey sh 0 k) (ewChannel s c.entry) (sgBase (shStage c.desc 0) + k)
          (2 ^ 64) [(n, 0)] (some h) c.tenant (ewObjs s c.entry) op s) := by
    refine ⟨toLe 1 (byteAt c.entry 1) ++ zeros 15 ++ ewOp s c.entry x.issued, ?_, ?_⟩
    · simp [byteAt, toLe, BitVec.toNat_ofNat, Nat.mod_eq_of_lt (show (c.entry.getD 1 0).toNat < 256 from (c.entry.getD 1 0).isLt)]
    · rw [issueElementwise]
      dsimp only
      rw [findSome_readStatus_none hread, hall, if_pos rfl, show (none <|> none : Option Nat) = none from rfl]
      dsimp only
      rw [hroom, decide_eq_false (by omega), if_neg (by decide)]
  obtain ⟨op, hbyte, hstep⟩ := hstep
  refine completes_within (completes_issueElementwise (claim := fun t => t = withDigests s (modHusk h (fun y => { y with issued := y.issued + 1 })
    (sendOp (stKey sh 0 k) (ewChannel s c.entry) (sgBase (shStage c.desc 0) + k)
          (2 ^ 64) [(n, 0)] (some h) c.tenant (ewObjs s c.entry) op s))) hup hw hk hisl (congrArg (withDigests s) hstep)) fun t heff ht => ?_
  obtain ⟨-, ⟨o, hq, hop, hten, htag, hhusk, hobjs⟩, -, hnext, -, hhusks⟩ := sendOp_facts (stKey sh 0 k) (ewChannel s c.entry)
    (sgBase (shStage c.desc 0) + k) (2 ^ 64) [(n, 0)] (some h) c.tenant (ewObjs s c.entry) op s
  generalize sendOp (stKey sh 0 k) (ewChannel s c.entry) (sgBase (shStage c.desc 0) + k) (2 ^ 64) [(n, 0)] (some h) c.tenant
    (ewObjs s c.entry) op s = u at *
  have hbytes := heff.bytes rfl
  rw [ht] at hbytes ⊢
  refine ⟨⟨o, hq, hop.trans hbyte, hten, htag, hhusk, hobjs⟩, ?_, hnext, hbytes⟩
  have hmod : ∀ (f : Husk → Husk), tabGet (modHusk h f u).eng.husks h = (tabGet u.eng.husks h).map f := fun f => tabGet_tabMod_same ..
  rw [withDigests_eng, hmod, hhusks, Option.map_map]
  rfl

theorem completes_elementwiseMisplaced {o : Nat} (hup : halted s = false) (hw : ewHusk s sh = some (h, x, n, c))
    (hk : k < sgWidth (shStage c.desc 0)) (hisl : islandUp s (tileIsland (sgBase (shStage c.desc 0) + k)) = true)
    (hread : ∀ o ∈ ewObjs s c.entry, o ≠ 0 → readStatus s c.tenant o = none)
    (ho : o ∈ ewObjs s c.entry) (hne : o ≠ 0) (hout : inChannel s (ewChannel s c.entry) o = false) :
    Completes (.awnReadIssue sh 0 k true) s (fun t =>
      (tabGet t.eng.husks h).map (fun y => (y.issued, y.ops)) = (tabGet s.eng.husks h).map (fun y => (y.issued + 1, y.ops - 1)) ∧
      (∀ c', cmdOf s n = some c' → c'.viol = 0 → (cmdOf t n).map Cmd.viol = some 0x0901) ∧ t.stk = s.stk ∧
      t.shv.reads = s.shv.reads) := by
  have hall : ((ewObjs s c.entry).filter (· != 0)).all (inChannel s (ewChannel s c.entry)) = false := by
    refine List.all_eq_false.2 ⟨o, List.mem_filter.2 ⟨ho, by simpa using hne⟩, ?_⟩
    rw [hout]
    decide
  have hstep : issueElementwise (stKey sh 0 k) (sgBase (shStage c.desc 0) + k) (h, x, n, c) s =
      modHusk h (fun y => { y with issued := y.issued + 1 }) (modHusk h (fun y => { y with ops := y.ops - 1 })
        (markUser s ((n, 0), St.culmPlacement))) := by
    rw [issueElementwise]
    dsimp only
    rw [findSome_readStatus_none hread, hall, if_neg (by decide)]
    rfl
  refine completes_issueElementwise hup hw hk hisl ?_
  rw [hstep]
  have heff : Effect [.hif, .rel] true s (markUser s ((n, 0), St.culmPlacement)) := Effect.refl.markUser
  have heng : (markUser s ((n, 0), St.culmPlacement)).eng = s.eng := heff.frame .eng (by decide)
  have hshv : (markUser s ((n, 0), St.culmPlacement)).shv = s.shv := heff.frame .shv (by decide)
  have hstk : (markUser s ((n, 0), St.culmPlacement)).stk = s.stk := heff.frame .stk (by decide)
  refine ⟨?_, fun c' hc' hviol => ?_, hstk, congrArg Shv.reads hshv⟩
  · have hmod : ∀ (f : Husk → Husk) (u : State), tabGet (modHusk h f u).eng.husks h = (tabGet u.eng.husks h).map f :=
      fun f u => tabGet_tabMod_same ..
    rw [withDigests_eng, hmod, hmod, heng, Option.map_map, Option.map_map]
    rfl
  · have hmark := cmdOf_markUser 0 St.culmPlacement hc'
    rw [hviol, if_pos rfl] at hmark
    exact congrArg (Option.map Cmd.viol) hmark

end

/-! The directory sees a read, and data lands. -/

/-- A read that is changed and counts as seen keeps its entry while others take their tags. -/
theorem tagReads_of_seen {v : State} {id : Nat} {a : AwnRd} {f : AwnRd → AwnRd} (hv : v.shv.reads = tabMod s.shv.reads id f)
    (ha : tabGet s.shv.reads id = some a) (hseen : (f a).seen = true) :
    tabGet (tagReads v).shv.reads id = some (f a) ∧
    ∀ j, j ≠ id → (tabGet (tagReads v).shv.reads j).map untagged = (tabGet s.shv.reads j).map untagged := by
  refine ⟨?_, fun j hj => ?_⟩
  · obtain ⟨F, -, hF, hget⟩ := tabGet_tagReads v id
    rw [hget, hv, tabGet_tabMod_same, ha, Option.map_some, Option.map_some, hF _ hseen]
  · rw [untagged_tagReads, hv, tabGet_tabMod_other _ _ _ _ hj]

/-- A read that the directory has seen: alone, or joined to one before it. -/
def seenAs (joined : Bool) (blks : List Nat) (r : AwnRd) : AwnRd := { r with seen := true, lead := !joined, blks := blks }

theorem flashBlks_congr {a : AwnRd} (hobj : t.obj = s.obj) (hfls : t.fls = s.fls) : flashBlks t a = flashBlks s a := by
  rw [flashBlks, flashBlks, hobj, hfls]

theorem askPool_shv (id : Nat) (a : AwnRd) (s : State) : (askPool id a s).shv = s.shv := by
  have heff : Effect [.hif, .fab, .rel, .recd] true s (askPool id a s) := Effect.refl.askPool
  exact heff.frame .shv (by decide)

theorem completes_awnDirectoryRead {id : Nat} {a : AwnRd} (hup : halted s = false) (ha : tabGet s.shv.reads id = some a)
    (hseen : a.seen = false) (hisl : islandUp s 36 = true) (hturn : nextRead s = some id) :
    Completes (.awnDirectoryRead id) s (fun t =>
      (let joined := s.shv.reads.any fun p => p.1 != id && p.2.seen && p.2.lead && !p.2.landed && sameRange p.2 a
       tabGet t.shv.reads id = some { a with seen := true, lead := !joined, blks := if joined then [] else flashBlks s a }) ∧
      (∀ j, j ≠ id → (tabGet t.shv.reads j).map (fun r => { r with tag := none }) = (tabGet s.shv.reads j).map (fun r => { r with tag := none })) ∧
      Frame [.hif, .shv, .fab, .rel, .recd] s t) := by
  have hexec : exec (.awnDirectoryRead id) s = execAwnDirectoryRead id s := rfl
  rw [execAwnDirectoryRead, ha] at hexec
  dsimp only at hexec
  rw [hseen, hisl, hturn, if_neg (by simp)] at hexec
  generalize hj : (s.shv.reads.any fun p => p.1 != id && p.2.seen && p.2.lead && !p.2.landed && sameRange p.2 a) = joined at hexec ⊢
  have htoken : (token 0x0A 36 0 2 ((userTenants s a.users).headD 0) s).shv = s.shv := token_shv ..
  have htick : Effect [.fab, .recd] true s ((token 0x0A 36 0 2 ((userTenants s a.users).headD 0) s).onFab fun f =>
      { f with urgent := f.urgent.filter (· != (0, 8192 + id)) }) := Effect.refl.token.onFab
  rw [flashBlks_congr (htick.frame .obj (by decide)) (htick.frame .fls (by decide))] at hexec
  have hstep : ∃ v, exec (.awnDirectoryRead id) s = whileUp s (.next (if joined then tagReads v else askPool id a (tagReads v))) ∧
      v.shv.reads = tabMod s.shv.reads id (seenAs joined (if joined then [] else flashBlks s a)) :=
    ⟨_, hexec, congrArg (fun v : Shv => tabMod v.reads id (seenAs joined (if joined then [] else flashBlks s a))) htoken⟩
  obtain ⟨v, hexec, hv⟩ := hstep
  obtain ⟨hmine, hothers⟩ := tagReads_of_seen hv ha rfl
  have hshv : (if joined then tagReads v else askPool id a (tagReads v)).shv = (tagReads v).shv := by
    split
    · rfl
    · exact askPool_shv ..
  refine completes_within (claim := fun t => t.shv = (tagReads v).shv) (completes_of_up hup hexec ⟨_, rfl, hshv⟩)
    fun t heff ht => ⟨?_, fun j hj => ?_, heff.frame⟩
  · rw [ht]
    exact hmine
  · rw [ht]
    exact hothers j hj

theorem liveUser_congr {v : State} (h : v.hif = s.hif) : liveUser v = liveUser s := by
  funext u
  rw [liveUser, cmdOf_congr h, liveUser]

/-- The lost rows of commands grow, and nothing else of them changes. -/
structure LosesRows (s t : State) : Prop where
  cmds : ∀ j c, cmdOf s j = some c → ∃ c', cmdOf t j = some c' ∧ c'.viol = c.viol ∧ c'.suppressed = c.suppressed ∧ ∀ r ∈ c.bad, r ∈ c'.bad
  none : ∀ j, cmdOf s j = none → cmdOf t j = none

theorem LosesRows.refl : LosesRows s s := ⟨fun _ c h => ⟨c, h, rfl, rfl, fun _ h => h⟩, fun _ h => h⟩

theorem LosesRows.trans (h : LosesRows s t) (g : LosesRows t u) : LosesRows s u := by
  refine ⟨fun j c hc => ?_, fun j hj => g.none j (h.none j hj)⟩
  obtain ⟨c1, hc1, hv1, hs1, hb1⟩ := h.cmds j c hc
  obtain ⟨c2, hc2, hv2, hs2, hb2⟩ := g.cmds j c1 hc1
  exact ⟨c2, hc2, hv2.trans hv1, hs2.trans hs1, fun r hr => hb2 r (hb1 r hr)⟩

theorem LosesRows.of_hif (h : t.hif = s.hif) : LosesRows s t :=
  ⟨fun j c hc => ⟨c, (cmdOf_congr h j).trans hc, rfl, rfl, fun _ h => h⟩, fun j hj => (cmdOf_congr h j).trans hj⟩

theorem LosesRows.liveUser (h : LosesRows s t) : Machine.liveUser t = Machine.liveUser s := by
  funext x
  rw [Machine.liveUser, Machine.liveUser]
  cases hc : cmdOf s x.1 with
  | none => rw [h.none _ hc]
  | some c =>
    obtain ⟨c', hc', -, hs, -⟩ := h.cmds _ _ hc
    rw [hc', Option.map_some, Option.map_some, hs]

/-- A row that the command's result has lost. -/
def Lost (s : State) (x : Nat × Nat) : Prop := ∀ c, cmdOf s x.1 = some c → x.2 ∈ c.bad

theorem losesRows_loseUser (s : State) (x : Nat × Nat) : LosesRows s (loseUser s x) ∧ Lost (loseUser s x) x := by
  have hsame : ∀ j, cmdOf (loseUser s x) j = if j = x.1 then (cmdOf s x.1).map fun c =>
      { c with bad := if c.bad.contains x.2 then c.bad else c.bad ++ [x.2] } else cmdOf s j := fun j => by
    split
    · next h => subst h; exact cmdOf_modCmd_same ..
    · next h =>
      exact tabGet_tabMod_other s.hif.cmds x.1 j (fun c => { c with bad := if c.bad.contains x.2 then c.bad else c.bad ++ [x.2] }) h
  refine ⟨⟨fun j c hc => ?_, fun j hj => ?_⟩, fun c hc => ?_⟩
  · rw [hsame]
    split
    · next h =>
      subst h
      rw [hc]
      refine ⟨_, rfl, rfl, rfl, fun r hr => ?_⟩
      dsimp only
      split
      · exact hr
      · exact List.mem_append_left _ hr
    · exact ⟨c, hc, rfl, rfl, fun _ h => h⟩
  · rw [hsame]
    split
    · next h => subst h; rw [hj]; rfl
    · exact hj
  · rw [hsame, if_pos rfl] at hc
    obtain ⟨c0, -, rfl⟩ := Option.map_eq_some_iff.1 hc
    dsimp only
    split
    · next h => exact List.contains_iff_mem.1 h
    · exact List.mem_append_right _ (List.mem_singleton_self _)

theorem Lost.kept {x : Nat × Nat} (h : Lost s x) (g : LosesRows s t) : Lost t x := by
  intro c' hc'
  cases hc : cmdOf s x.1 with
  | none => rw [g.none _ hc] at hc'; cases hc'
  | some c =>
    obtain ⟨c1, hc1, -, -, hb⟩ := g.cmds _ _ hc
    obtain rfl := Option.some.inj (hc1.symm.trans hc')
    exact hb _ (h c hc)

/-- Every user of a lost read loses its row. -/
theorem losesRows_foldl (l : List (Nat × Nat)) (s : State) :
    LosesRows s (l.foldl loseUser s) ∧ ∀ x ∈ l, Lost (l.foldl loseUser s) x := by
  induction l generalizing s with
  | nil => exact ⟨.refl, fun _ h => nomatch h⟩
  | cons y l ih =>
    obtain ⟨hfirst, hlost⟩ := losesRows_loseUser s y
    obtain ⟨hrest, hall⟩ := ih (loseUser s y)
    refine ⟨hfirst.trans hrest, fun x hx => ?_⟩
    rcases List.mem_cons.1 hx with rfl | hx
    · exact hlost.kept hrest
    · exact hall x hx

theorem tabGet_of_mem_nodup {α : Type} {l : Tab α} {p : Nat × α} (h : (l.map Prod.fst).Nodup) (hp : p ∈ l) : tabGet l p.1 = some p.2 := by
  obtain ⟨x, hx⟩ := exists_tabGet_of_mem hp
  have heq : p = (p.1, x) := List.inj_on_of_nodup_map h hp (mem_of_tabGet hx) rfl
  rw [hx, show p.2 = x from congrArg Prod.snd heq]

theorem landOne_frame (lost : Bool) (id : Nat) (a : AwnRd) (s : State) :
    (a.pins.foldl (fun s k => dropPin k s) s).hif = s.hif ∧ (a.pins.foldl (fun s k => dropPin k s) s).shv = s.shv := by
  have heff : Effect [.obj] true s (a.pins.foldl (fun s k => dropPin k s) s) := Effect.refl.foldl fun _ _ h => h.dropPin
  exact ⟨heff.frame .hif (by decide), heff.frame .shv (by decide)⟩

theorem foldl_loseUser_shv (l : List (Nat × Nat)) (s : State) : (l.foldl loseUser s).shv = s.shv :=
  List.foldlRecOn (motive := fun t : State => t.shv = s.shv) l _ rfl fun _ h _ _ => h

/-- Data of a read lands where one of its users lives, and the read is dropped where none does; of the users' commands only rows are
lost, where the data is. -/
theorem landOne_facts (lost : Bool) (id : Nat) (a : AwnRd) (s : State) :
    (landOne lost s id a).shv.reads = (if a.users.any (liveUser s) then tabMod s.shv.reads id fun r => { r with landed := true, pins := [] }
      else tabDel s.shv.reads id) ∧
    LosesRows s (landOne lost s id a) ∧ (lost = false → (landOne lost s id a).hif = s.hif) ∧
    (lost = true → a.users.any (liveUser s) = true → ∀ x ∈ a.users, Lost (landOne lost s id a) x) := by
  obtain ⟨hhif, hshv⟩ := landOne_frame lost id a s
  unfold landOne
  extract_lets s1 live s2
  have hlive : live = a.users.any (liveUser s) := by rw [← liveUser_congr hhif]
  have hreads : s2.shv.reads = s.shv.reads := show s1.shv.reads = _ by rw [hshv]
  have hrows : LosesRows s s2 := .of_hif hhif
  rw [← hlive]
  cases hl : live with
  | false =>
    refine ⟨?_, ?_, fun _ => hhif, fun _ h => by cases h⟩
    · rw [if_neg (by decide), if_neg (by decide), ← hreads]
      rfl
    · rw [if_neg (by decide)]
      exact hrows.trans (.of_hif rfl)
  | true =>
    rw [if_pos rfl, if_pos rfl, ← hreads]
    cases lost with
    | false => exact ⟨rfl, hrows.trans (.of_hif rfl), fun _ => hhif, fun h => by cases h⟩
    | true =>
      obtain ⟨hall, hlost⟩ := losesRows_foldl a.users s2
      refine ⟨?_, (hrows.trans hall).trans (.of_hif rfl), fun h => (by cases h), fun _ _ y hy => (hlost y hy).kept (.of_hif rfl)⟩
      exact congrArg (fun v : Shv => tabMod v.reads id fun r => { r with landed := true, pins := [] }) (foldl_loseUser_shv ..)

theorem tabGet_landOne_other {lost : Bool} {id j : Nat} {a : AwnRd} (hj : j ≠ id) (s : State) :
    tabGet (landOne lost s id a).shv.reads j = tabGet s.shv.reads j := by
  rw [(landOne_facts lost id a s).1]
  split
  · exact tabGet_tabMod_other _ _ _ _ hj
  · exact tabGet_tabDel_other _ _ _ hj

/-- What the landing of reads leaves of each: landed where a user lives, else gone. -/
theorem foldl_landOne (lost : Bool) (l : List (Nat × AwnRd)) (s : State) (hl : (l.map Prod.fst).Nodup) :
    LosesRows s (l.foldl (fun s p => landOne lost s p.1 p.2) s) ∧
    (lost = false → (l.foldl (fun s p => landOne lost s p.1 p.2) s).hif = s.hif) ∧
    (lost = true → ∀ p ∈ l, p.2.users.any (liveUser s) = true → ∀ x ∈ p.2.users, Lost (l.foldl (fun s p => landOne lost s p.1 p.2) s) x) ∧
    (∀ j, j ∉ l.map Prod.fst → tabGet (l.foldl (fun s p => landOne lost s p.1 p.2) s).shv.reads j = tabGet s.shv.reads j) ∧
    (∀ p ∈ l, tabGet (l.foldl (fun s p => landOne lost s p.1 p.2) s).shv.reads p.1 =
      if p.2.users.any (liveUser s) then (tabGet s.shv.reads p.1).map fun r => { r with landed := true, pins := [] } else none) := by
  induction l generalizing s with
  | nil => exact ⟨.refl, fun _ => rfl, fun _ _ h => absurd h List.not_mem_nil, fun _ _ => rfl, fun _ h => absurd h List.not_mem_nil⟩
  | cons q l ih =>
    obtain ⟨hq, hl⟩ := List.nodup_cons.1 hl
    obtain ⟨hreads, hrows, hkeep, hlost⟩ := landOne_facts lost q.1 q.2 s
    obtain ⟨hrows', hkeep', hlost', hother, hmine⟩ := ih (landOne lost s q.1 q.2) hl
    rw [hrows.liveUser] at hmine hlost'
    refine ⟨hrows.trans hrows', fun h => (hkeep' h).trans (hkeep h), fun h p hp hlive x hx => ?_, fun j hj => ?_, fun p hp => ?_⟩
    · rcases List.mem_cons.1 hp with rfl | hp
      · exact (hlost h hlive x hx).kept hrows'
      · exact hlost' h p hp hlive x hx
    · rw [List.map_cons, List.mem_cons, not_or] at hj
      exact (hother j hj.2).trans (tabGet_landOne_other hj.1 s)
    · rcases List.mem_cons.1 hp with rfl | hp
      · rw [List.foldl_cons, hother _ hq, hreads]
        split
        · exact tabGet_tabMod_same ..
        · exact tabGet_tabDel_same ..
      · rw [List.foldl_cons, hmine p hp, tabGet_landOne_other fun h => hq (List.mem_map.2 ⟨p, hp, h⟩)]

/-- The reads that the data of one read serves: itself, and those joined to it. -/
def landingReads (s : State) (id : Nat) (a : AwnRd) : List (Nat × AwnRd) :=
  s.shv.reads.filter fun p => p.1 == id || (p.2.seen && !p.2.lead && !p.2.landed && sameRange p.2 a)

theorem completes_awnDataLand {id : Nat} {lost : Bool} {a : AwnRd} (hup : halted s = false) (hnodup : (s.shv.reads.map Prod.fst).Nodup)
    (ha : tabGet s.shv.reads id = some a) (hseen : a.seen = true) (hlead : a.lead = true) (hland : a.landed = false)
    (hculm : a.culm = false) (hisl : islandUp s 36 = true) (ht4 : t4For s (a.obj / 8) (.awn id) = false)
    (hway : ∀ o, tabGet s.obj.recs (a.obj / 8) = some o → ∀ w ∈ tierIslands s o (a.obj % 8) a.off a.len, islandUp s w = true) :
    Completes (.awnDataLand id lost) s (fun t =>
      (∀ j x, tabGet s.shv.reads j = some x →
        (j = id ∨ (x.seen = true ∧ x.lead = false ∧ x.landed = false ∧ sameRange x a = true)) →
        (x.users.any (liveUser s) = true → ∃ x', tabGet t.shv.reads j = some x' ∧ x'.landed = true ∧ x'.users = x.users) ∧
        (x.users.any (liveUser s) = false → tabGet t.shv.reads j = none)) ∧
      (lost = false → t.hif = s.hif) ∧
      (lost = true → a.users.any (liveUser s) = true → ∀ u ∈ a.users, ∀ c, cmdOf s u.1 = some c →
        ∃ c', cmdOf t u.1 = some c' ∧ u.2 ∈ c'.bad ∧ c'.viol = c.viol) ∧
      SameBytes s t ∧ Frame [.hif, .obj, .shv] s t) := by
  have hexec : exec (.awnDataLand id lost) s = execAwnDataLand id lost s := rfl
  have hall : (((tabGet s.obj.recs (a.obj / 8)).map fun o => tierIslands s o (a.obj % 8) a.off a.len).getD []).all (islandUp s) = true := by
    cases ho : tabGet s.obj.recs (a.obj / 8) with
    | none => rfl
    | some o => exact List.all_eq_true.2 (hway o ho)
  rw [execAwnDataLand, ha] at hexec
  dsimp only at hexec
  rw [hseen, hlead, hland, hculm, hisl, hall, ht4, if_neg (by decide)] at hexec
  have hstep : ∃ v, v.hif = s.hif ∧ v.shv = s.shv ∧ exec (.awnDataLand id lost) s = whileUp s (.next
      ((landingReads s id a).foldl (fun s p => landOne lost s p.1 p.2) v)) := by
    cases ho : tabGet s.obj.recs (a.obj / 8) with
    | none =>
      rw [ho] at hexec
      exact ⟨s, rfl, rfl, hexec⟩
    | some o =>
      rw [ho] at hexec
      have heff : Effect [.obj] true s (meterMove o (a.obj % 8) a.len false s) := Effect.refl.meterMove
      exact ⟨_, heff.frame .hif (by decide), heff.frame .shv (by decide), hexec⟩
  obtain ⟨v, hhif, hshv, hexec⟩ := hstep
  have hkeys : ((landingReads s id a).map Prod.fst).Nodup := hnodup.sublist (List.filter_sublist.map _)
  obtain ⟨hrows, hkeep, hlost, -, hmine⟩ := foldl_landOne lost (landingReads s id a) v hkeys
  rw [liveUser_congr hhif, hshv] at hmine
  rw [liveUser_congr hhif] at hlost
  refine completes_within (claim := fun t => t = withDigests s ((landingReads s id a).foldl (fun s p => landOne lost s p.1 p.2) v))
    (completes_of_up hup hexec ⟨_, rfl, rfl⟩) fun t heff ht => ?_
  generalize (landingReads s id a).foldl (fun s p => landOne lost s p.1 p.2) v = u at *
  refine ⟨fun j x hx hj => ?_, fun h => ?_, fun h hlive y hy c hc => ?_, heff.bytes rfl, heff.frame⟩
  · have hmem : (j, x) ∈ landingReads s id a := by
      refine List.mem_filter.2 ⟨mem_of_tabGet hx, ?_⟩
      rcases hj with rfl | ⟨h1, h2, h3, h4⟩
      · simp
      · simp [h1, h2, h3, h4]
    have hget := hmine _ hmem
    rw [tabGet_of_mem_nodup hnodup (mem_of_tabGet hx)] at hget
    rw [ht]
    refine ⟨fun hl => ⟨_, hget.trans (if_pos hl), rfl, rfl⟩, fun hl => hget.trans (if_neg (by simp [hl]))⟩
  · rw [ht]
    exact (hkeep h).trans hhif
  · have hmem : (id, a) ∈ landingReads s id a := List.mem_filter.2 ⟨mem_of_tabGet ha, by simp⟩
    obtain ⟨c', hc', hviol, -, -⟩ := hrows.cmds _ _ ((cmdOf_congr hhif _).trans hc)
    rw [ht]
    exact ⟨c', hc', hlost h (id, a) hmem hlive y hy c' hc', hviol⟩

/-- Settles O57: what an awn issues, for a batch and for an ELEMENTWISE command, what the directory sees and what lands. -/
theorem awnsReadAndLand : Obligations.AwnsReadAndLand :=
  ⟨fun _ _ _ _ _ _ _ _ _ hup hb he hx hleft hisl =>
      ⟨fun hbad => completes_badStretch hup hb he hx hleft hisl hbad,
       fun hne hgood => ⟨fun _ _ _ hculm ho htier hbucket hsize =>
          completes_readIssue hup hb he hx hleft hisl hne hgood hculm ho htier hbucket hsize,
        fun _ hculm hroom hout => completes_culmIssue hup hb he hx hleft hisl hne hgood hculm hroom hout⟩⟩,
   fun _ _ _ _ _ _ _ hup hw hk hisl hread =>
      ⟨fun hin hroom hout => completes_elementwiseSent hup hw hk hisl hread hin hroom hout,
       fun _ ho hne hout => completes_elementwiseMisplaced hup hw hk hisl hread ho hne hout⟩,
   fun _ _ _ hup ha hseen hisl hturn => completes_awnDirectoryRead hup ha hseen hisl hturn,
   fun _ _ _ _ hup hnodup ha hseen hlead hland hculm hisl ht4 hway =>
      completes_awnDataLand hup hnodup ha hseen hlead hland hculm hisl ht4 hway⟩

end

end Sys2Proof.Proofs

/-! The stook's merges (R128 to R134, R56). -/

namespace Sys2Proof.Proofs
open Sys2Proof Sys2Proof.Machine Sys2Proof.Safety

set_option Elab.async false

section
variable {s t : State} {sh i k engine : Nat}

/-! Lists are put into the slots of an engine. -/

theorem sameSlot_iff {a b : StSlot} : sameSlot a b = true ↔
    a.engine = b.engine ∧ a.sheaf = b.sheaf ∧ a.stage = b.stage ∧ a.num = b.num ∧ a.item = b.item ∧ a.part = b.part := by
  simp [sameSlot, and_assoc]

theorem putLeafList_mem {m : StSlot} {child : Nat} {p : Part} {sl out : List StSlot} (h : putLeafList m child p sl = some out) :
    ∃ y ∈ out, sameSlot m y = true ∧ (child, p) ∈ y.kids := by
  unfold putLeafList at h
  split at h
  · next x hx =>
    obtain ⟨-, h⟩ := Option.ite_none_left_eq_some.1 h
    cases h
    have hsame := List.find?_some hx
    refine ⟨{ x with kids := x.kids ++ [(child, p)] }, List.mem_map.2 ⟨x, List.mem_of_find?_eq_some hx, if_pos hsame⟩, hsame,
      List.mem_append_right _ (List.mem_singleton_self _)⟩
  · split at h
    · cases h
      exact ⟨_, List.mem_append_right _ (List.mem_singleton_self _), sameSlot_iff.2 ⟨rfl, rfl, rfl, rfl, rfl, rfl⟩, List.mem_singleton_self _⟩
    · cases h

theorem completes_stookListArrival {b : Batch} {x : Nat × Nat} {sl : List StSlot} (hup : halted s = false)
    (hrun : (stageOf s (stKey sh i k)).running = some b) (hsplit : splitOn s (shStage (itemsDesc s sh b.items) i) = true)
    (hpath : pathUp s (tileIsland (sgBase (shStage (itemsDesc s sh b.items) i) + k)) 34 = true) (hland : landedAll s sh i k b = true)
    (hsend : leafSend s sh i k b = some (x, sl)) :
    Completes (.stookListArrival ⟨sh, i⟩ k) s (fun t =>
      let tile := sgBase (shStage (itemsDesc s sh b.items) i) + k
      t.shv.slots = sl ∧ (stageOf t (stKey sh i k)).sent = (stageOf s (stKey sh i k)).sent ++ [x] ∧ Frame [.shv] s t ∧
      ∃ y ∈ sl, y.engine = tile / 8 ∧ y.sheaf = sh ∧ y.stage = i ∧ y.num = b.num ∧ y.item = x.1 ∧ y.part = x.2 ∧
        (tile % 8, (leafParts s i k (b.items.getD x.1 {})).2.getD x.2 {}) ∈ y.kids) := by
  have hexec : exec (.stookListArrival ⟨sh, i⟩ k) s = execStookListArrival ⟨sh, i⟩ k s := rfl
  rw [execStookListArrival] at hexec
  dsimp only at hexec
  rw [hrun] at hexec
  dsimp only at hexec
  rw [hsplit, hpath, hland, if_neg (by decide), hsend] at hexec
  have heff : Effect [.shv] true s (modStage (stKey sh i k) (fun r => { r with sent := r.sent ++ [x] })
      (s.onShv fun v => { v with slots := sl })) := Effect.refl.onShv.modStage
  refine completes_of_up hup hexec ⟨_, rfl, rfl, ?_, frame_withDigests.2 heff.frame, ?_⟩
  · exact congrArg StageRt.sent (stageOf_modStage_same (stKey sh i k) (fun r => { r with sent := r.sent ++ [x] })
      (s.onShv fun v => { v with slots := sl }))
  · unfold leafSend at hsend
    extract_lets e tile at hsend
    split at hsend
    · cases hsend
    · extract_lets l m at hsend
      obtain ⟨out, hput, heq⟩ := Option.map_eq_some_iff.1 hsend
      cases heq
      obtain ⟨y, hy, hsame, hkid⟩ := putLeafList_mem hput
      obtain ⟨h1, h2, h3, h4, h5, h6⟩ := sameSlot_iff.1 hsame
      exact ⟨y, hy, h1.symm, h2.symm, h3.symm, h4.symm, h5.symm, h6.symm, hkid⟩

/-! The engine's next merge. -/

theorem foldl_firstMerge (l : List StSlot) (x : StSlot) : ∃ m, l.foldl (fun (b : Option StSlot) m =>
      match b with
      | none => some m
      | some x => if mergeRank m < mergeRank x || (mergeRank m = mergeRank x && (m.num < x.num || (m.num = x.num && m.item < x.item)))
          then some m else some x) (some x) = some m ∧ m ∈ x :: l ∧ ∀ y ∈ x :: l, mergeRank m ≤ mergeRank y := by
  induction l generalizing x with
  | nil => exact ⟨x, rfl, List.mem_cons_self, by simp⟩
  | cons a l ih =>
    rw [List.foldl_cons]
    dsimp only
    split
    · next hlt =>
      have hle : mergeRank a ≤ mergeRank x := by
        rcases Bool.or_eq_true_iff.1 hlt with h | h
        · exact (of_decide_eq_true h).le
        · exact (of_decide_eq_true (Bool.and_eq_true_iff.1 h).1).le
      obtain ⟨m, hm, hmem, hmin⟩ := ih a
      refine ⟨m, hm, List.mem_cons_of_mem _ hmem, fun y hy => ?_⟩
      rcases List.mem_cons.1 hy with rfl | hy
      · exact (hmin a List.mem_cons_self).trans hle
      · exact hmin y hy
    · next hge =>
      have hle : mergeRank x ≤ mergeRank a := by
        refine Nat.le_of_not_lt fun h => hge ?_
        rw [decide_eq_true h]
        rfl
      obtain ⟨m, hm, hmem, hmin⟩ := ih x
      refine ⟨m, hm, ?_, fun y hy => ?_⟩
      · rcases List.mem_cons.1 hmem with rfl | h
        · exact List.mem_cons_self
        · exact List.mem_cons_of_mem _ (List.mem_cons_of_mem _ h)
      · rcases List.mem_cons.1 hy with rfl | hy
        · exact hmin _ List.mem_cons_self
        rcases List.mem_cons.1 hy with rfl | hy
        · exact (hmin x List.mem_cons_self).trans hle
        · exact hmin y (List.mem_cons_of_mem _ hy)

/-- The first of some merges has the least rank. -/
theorem firstMerge_of_ne_nil {l : List StSlot} (h : l ≠ []) : ∃ m, firstMerge l = some m ∧ m ∈ l ∧ ∀ y ∈ l, mergeRank m ≤ mergeRank y := by
  cases l with
  | nil => exact absurd rfl h
  | cons x l => exact foldl_firstMerge l x

/-- The merges of an engine that may start. -/
def readyMerges (s : State) (engine : Nat) : List StSlot :=
  (s.shv.slots.filter fun m => m.engine == engine).filter fun m => m.kids.length == m.need && mergePlace s m

theorem mem_readyMerges {m : StSlot} : m ∈ readyMerges s engine ↔
    m ∈ s.shv.slots ∧ m.engine = engine ∧ m.kids.length = m.need ∧ mergePlace s m = true := by
  simp [readyMerges, and_assoc, and_left_comm, and_comm]

/-- Of the merges that may start those after the last one's rank, or all where there is none. -/
def dueMerges (s : State) (engine : Nat) : List StSlot :=
  let after := (readyMerges s engine).filter fun m => (tabGet s.shv.lastMerge engine).all fun l => decide (l < mergeRank m)
  if after.isEmpty then readyMerges s engine else after

/-- The merge whose turn it is: the least rank after the last one's, or the least of all. -/
theorem firstMerge_due (h : readyMerges s engine ≠ []) : ∃ m, firstMerge (dueMerges s engine) = some m ∧ m ∈ readyMerges s engine ∧
    ∀ y ∈ readyMerges s engine, mergeRank m ≤ mergeRank y ∨
      ∃ l, tabGet s.shv.lastMerge engine = some l ∧ mergeRank y ≤ l ∧ l < mergeRank m := by
  unfold dueMerges
  extract_lets after
  split
  · obtain ⟨m, hm, hmem, hmin⟩ := firstMerge_of_ne_nil h
    exact ⟨m, hm, hmem, fun y hy => .inl (hmin y hy)⟩
  · next hne =>
    obtain ⟨m, hm, hmem, hmin⟩ := firstMerge_of_ne_nil (l := after) fun h => hne (by rw [h]; rfl)
    obtain ⟨hready, hafter⟩ := List.mem_filter.1 hmem
    refine ⟨m, hm, hready, fun y hy => ?_⟩
    by_cases hy' : y ∈ after
    · exact .inl (hmin y hy')
    · cases hl : tabGet s.shv.lastMerge engine with
      | none => exact absurd (List.mem_filter.2 ⟨hy, by rw [hl]; rfl⟩) hy'
      | some l =>
        rw [hl] at hafter
        refine .inr ⟨l, rfl, Nat.le_of_not_lt fun hlt => hy' (List.mem_filter.2 ⟨hy, ?_⟩), of_decide_eq_true hafter⟩
        rw [hl]
        exact decide_eq_true hlt

theorem completes_stookMergeStart (hup : halted s = false) (hidle : ∀ m ∈ s.shv.slots, m.engine = engine → m.merging = false)
    (hisl : islandOn s 34 = true)
    (hready : ∃ m ∈ s.shv.slots, m.engine = engine ∧ m.kids.length = m.need ∧ mergePlace s m = true) :
    Completes (.stookMergeStart engine) s (fun t =>
      (∃ m ∈ s.shv.slots, m.engine = engine ∧ m.kids.length = m.need ∧ mergePlace s m = true ∧
        { m with merging := true } ∈ t.shv.slots ∧ tabGet t.shv.lastMerge engine = some (mergeRank m) ∧
        ∀ y ∈ s.shv.slots, y.engine = engine → y.kids.length = y.need → mergePlace s y = true →
          mergeRank m ≤ mergeRank y ∨ ∃ l, tabGet s.shv.lastMerge engine = some l ∧ mergeRank y ≤ l ∧ l < mergeRank m) ∧
      t.shv.slots.length = s.shv.slots.length ∧ Frame [.shv, .recd] s t) := by
  have hexec : exec (.stookMergeStart engine) s = execStookMergeStart engine s := rfl
  have hmerging : (s.shv.slots.filter fun m => m.engine == engine).any StSlot.merging = false := by
    refine List.any_eq_false.2 fun m hm => ?_
    obtain ⟨hmem, he⟩ := List.mem_filter.1 hm
    rw [hidle m hmem (by simpa using he)]
    decide
  rw [execStookMergeStart] at hexec
  dsimp only at hexec
  rw [hmerging, hisl, if_neg (by decide)] at hexec
  obtain ⟨m0, hm0, hr0⟩ := hready
  obtain ⟨m, hfirst, hmem, hmin⟩ := firstMerge_due (List.ne_nil_of_mem (mem_readyMerges.2 ⟨hm0, hr0⟩))
  have hstep : exec (.stookMergeStart engine) s = whileUp s (.next ((token 0x06 34 engine 4 (mergeKey m) s).onShv fun v => { v with
      lastMerge := tabSet v.lastMerge engine (mergeRank m)
      slots := v.slots.map fun y => if sameSlot m y then { y with merging := true } else y })) := by
    cases hl : tabGet s.shv.lastMerge engine with
    | none =>
      rw [dueMerges, hl] at hfirst
      rw [hl] at hexec
      generalize hg : firstMerge _ = chosen at hexec
      rw [show chosen = some m from hg.symm.trans hfirst] at hexec
      exact hexec
    | some l =>
      rw [dueMerges, hl] at hfirst
      rw [hl] at hexec
      generalize hg : firstMerge _ = chosen at hexec
      rw [show chosen = some m from hg.symm.trans hfirst] at hexec
      exact hexec
  obtain ⟨hin, heng, hkids, hplace⟩ := mem_readyMerges.1 hmem
  have heff : Effect [.shv, .recd] true s ((token 0x06 34 engine 4 (mergeKey m) s).onShv fun v => { v with
      lastMerge := tabSet v.lastMerge engine (mergeRank m)
      slots := v.slots.map fun y => if sameSlot m y then { y with merging := true } else y }) := Effect.refl.token.onShv
  have hslots : ((token 0x06 34 engine 4 (mergeKey m) s).shv.slots.map fun y => if sameSlot m y then { y with merging := true } else y) =
      s.shv.slots.map fun y => if sameSlot m y then { y with merging := true } else y := by rw [token_shv]
  refine completes_of_up hup hstep ⟨_, rfl, ⟨m, hin, heng, hkids, hplace, ?_, tabGet_tabSet_same .., fun y hy he hk hp =>
    hmin y (mem_readyMerges.2 ⟨hy, he, hk, hp⟩)⟩, ?_, frame_withDigests.2 heff.frame⟩
  · change _ ∈ List.map _ (token 0x06 34 engine 4 (mergeKey m) s).shv.slots
    rw [token_shv]
    exact List.mem_map.2 ⟨m, hin, if_pos (sameSlot_iff.2 ⟨rfl, rfl, rfl, rfl, rfl, rfl⟩)⟩
  · exact (congrArg List.length hslots).trans (List.length_map _)

/-! A merge is finished. -/

theorem tabGetD_foldl_tabAdd {l : List Nat} (hl : l.Nodup) (t : Tab Nat) (j : Nat) :
    tabGetD (l.foldl (fun t c => tabAdd t c 1) t) j 0 = tabGetD t j 0 + if j ∈ l then 1 else 0 := by
  induction l generalizing t with
  | nil => rfl
  | cons a l ih =>
    obtain ⟨ha, hl⟩ := List.nodup_cons.1 hl
    rw [List.foldl_cons, ih hl, tabAdd]
    by_cases hj : j = a
    · subst hj
      rw [tabGetD_tabSet_same, if_neg ha, if_pos List.mem_cons_self]
    · rw [tabGetD_tabSet_other _ _ _ hj]
      simp [hj]

/-- Each child buffer of a leaf's merge is counted back once. -/
theorem kidFreed_foldl {kids : List (Nat × Part)} (h : (kids.map Prod.fst).Nodup) (t : Tab Nat) {c : Nat × Part} (hc : c ∈ kids) :
    tabGetD (kids.foldl (fun t c => tabAdd t (8 * engine + c.1) 1) t) (8 * engine + c.1) 0 = tabGetD t (8 * engine + c.1) 0 + 1 := by
  have hmap : kids.foldl (fun t c => tabAdd t (8 * engine + c.1) 1) t =
      ((kids.map Prod.fst).map (8 * engine + ·)).foldl (fun t c => tabAdd t c 1) t := by
    rw [List.foldl_map, List.foldl_map]
  rw [hmap, tabGetD_foldl_tabAdd (h.map fun a b hab => by omega), if_pos]
  exact List.mem_map_of_mem (List.mem_map_of_mem hc)

theorem completes_stookRoot {m : StSlot} (hup : halted s = false)
    (hm : s.shv.slots.find? (fun m => m.engine == engine && m.merging) = some m) (heng : engine = 72) :
    Completes (.stookMergeComplete engine) s (fun t =>
      t.shv = { s.shv with slots := s.shv.slots.filter fun y => !sameSlot m y, rootOut := s.shv.rootOut ++
        [{ m with kids := [(0, mergeParts m.fp m.order m.k (m.kids.map Prod.snd))], merging := false }] } ∧ Frame [.shv] s t) := by
  have hexec : exec (.stookMergeComplete engine) s = execStookMergeComplete engine s := rfl
  rw [execStookMergeComplete, hm] at hexec
  dsimp only at hexec
  rw [if_pos heng] at hexec
  have heff : Effect [.shv] true s (s.onShv fun v => { v with slots := s.shv.slots.filter fun y => !sameSlot m y, rootOut := v.rootOut ++
        [{ m with kids := [(0, mergeParts m.fp m.order m.k (m.kids.map Prod.snd))], merging := false }] }) := Effect.refl.onShv
  exact completes_of_up hup hexec ⟨_, rfl, rfl, frame_withDigests.2 heff.frame⟩

theorem completes_stookUp {m : StSlot} {sl : List StSlot} (hup : halted s = false)
    (hm : s.shv.slots.find? (fun m => m.engine == engine && m.merging) = some m) (heng : engine ≠ 72)
    (hput : putLeafList { m with engine := stookUp engine, need := stookNeed s (stookEntry s m.sheaf m.stage m.num) (stookUp engine) }
      (engine % 8) (mergeParts m.fp m.order m.k (m.kids.map Prod.snd)) (s.shv.slots.filter fun y => !sameSlot m y) = some sl) :
    Completes (.stookMergeComplete engine) s (fun t => t.shv.slots = sl ∧ t.shv.rootOut = s.shv.rootOut ∧
      (64 ≤ engine → t.shv.kidFreed = s.shv.kidFreed) ∧
      (engine < 64 → (m.kids.map Prod.fst).Nodup → ∀ c ∈ m.kids,
        tabGetD t.shv.kidFreed (8 * engine + c.1) 0 = tabGetD s.shv.kidFreed (8 * engine + c.1) 0 + 1) ∧
      Frame [.shv] s t) := by
  have hexec : exec (.stookMergeComplete engine) s = execStookMergeComplete engine s := rfl
  rw [execStookMergeComplete, hm] at hexec
  dsimp only at hexec
  rw [if_neg heng, hput] at hexec
  have heff : Effect [.shv] true s (s.onShv fun v => { v with
      slots := sl
      kidFreed := if engine < 64 then m.kids.foldl (fun t c => tabAdd t (8 * engine + c.1) 1) v.kidFreed else v.kidFreed }) :=
    Effect.refl.onShv
  refine completes_of_up hup hexec ⟨_, rfl, rfl, rfl, fun h => if_neg (Nat.not_lt.2 h), fun h hnodup c hc => ?_, frame_withDigests.2 heff.frame⟩
  exact (congrArg (fun t => tabGetD t (8 * engine + c.1) 0) (if_pos h)).trans (kidFreed_foldl hnodup _ hc)

/-! A root list goes on to its command. -/

/-- What the form of a command's lists depends on. -/
def formOf (c : Cmd) : Bytes × Nat × Bytes × Option Nat × Option (Nat × Nat) := (c.entry, c.opcode, c.desc, c.epoch, c.peer)

theorem listForm_congr {c c' : Cmd} (h : formOf c' = formOf c) (hidx : t.idx = s.idx) (hobj : t.obj = s.obj) (st : Bytes) :
    listForm t c' st = listForm s c st := by
  simp only [formOf, Prod.mk.injEq] at h
  obtain ⟨hentry, hop, hdesc, hepoch, hpeer⟩ := h
  simp only [listForm, keyFp, keyWords, objFormat, objOf, memoryK, collAt, versionAt, cEpoch, centroidFp, coarseWord, probeCount, seNprobe,
    hentry, hop, hdesc, hepoch, hpeer, hidx, hobj]
  rfl

theorem formOf_takeMerged (s : State) (i : Nat) (c : Cmd) :
    formOf (takeMerged s i c) = formOf c ∧ (takeMerged s i c).merged = c.merged := by
  unfold takeMerged
  extract_lets st f
  split
  · exact ⟨rfl, rfl⟩
  split
  · split <;> exact ⟨rfl, rfl⟩
  split
  · exact ⟨rfl, rfl⟩
  split
  · split <;> exact ⟨rfl, rfl⟩
  split
  · exact ⟨rfl, rfl⟩
  split <;> exact ⟨rfl, rfl⟩

/-- A command that takes a merged list of one of its items. -/
def mergedInto (s : State) (stage item : Nat) (x : Nat × Nat × Nat × Part) (c : Cmd) : Cmd :=
  if (mergedLists s { c with merged := c.merged ++ [x] } stage item).isSome then takeMerged s stage { c with merged := c.merged ++ [x] }
  else { c with merged := c.merged ++ [x] }

theorem mergedInto_facts (s : State) (stage item : Nat) (x : Nat × Nat × Nat × Part) (c : Cmd) :
    formOf (mergedInto s stage item x c) = formOf c ∧ x ∈ (mergedInto s stage item x c).merged := by
  have hmem : x ∈ c.merged ++ [x] := List.mem_append_right _ (List.mem_singleton_self x)
  unfold mergedInto
  split
  · obtain ⟨hform, hmerged⟩ := formOf_takeMerged s stage { c with merged := c.merged ++ [x] }
    exact ⟨hform, hmerged ▸ hmem⟩
  · exact ⟨rfl, hmem⟩

section
variable (hform : ∀ j, (cmdOf t j).map formOf = (cmdOf s j).map formOf)
include hform

theorem batchLists_congr (hidx : t.idx = s.idx) (hobj : t.obj = s.obj) (i : Nat) (b : Batch) : batchLists t i b = batchLists s i b := by
  have hparts : ∀ j, ((cmdOf t j).map fun c => (listForm t c (shStage c.desc i)).parts) =
      (cmdOf s j).map fun c => (listForm s c (shStage c.desc i)).parts := fun j => by
    have hj := hform j
    cases hs : cmdOf s j with
    | none =>
      rw [hs] at hj
      rw [Option.map_eq_none_iff.1 hj]
      simp only [Option.map_none]
    | some c =>
      rw [hs] at hj
      obtain ⟨c', ht, hc⟩ := Option.map_eq_some_iff.1 hj
      rw [ht, Option.map_some, Option.map_some, listForm_congr hc hidx hobj, show c'.desc = c.desc from congrArg (·.2.2.1) hc]
  simp only [batchLists, hparts]

theorem itemsDesc_congr (hstew : t.stew = s.stew) (sh : Nat) (its : List Item) : itemsDesc t sh its = itemsDesc s sh its := by
  have hfind : (its.findSome? fun x => cmdOf t x.cmd).map formOf = (its.findSome? fun x => cmdOf s x.cmd).map formOf := by
    induction its with
    | nil => rfl
    | cons x its ih =>
      have hx := hform x.cmd
      rw [List.findSome?_cons, List.findSome?_cons]
      cases hs : cmdOf s x.cmd with
      | none =>
        rw [hs] at hx
        rw [Option.map_eq_none_iff.1 hx]
        exact ih
      | some c =>
        rw [hs] at hx
        obtain ⟨c', ht, hc⟩ := Option.map_eq_some_iff.1 hx
        rw [ht]
        exact congrArg some hc
  unfold itemsDesc
  cases hs : its.findSome? fun x => cmdOf s x.cmd with
  | none =>
    rw [hs] at hfind
    rw [Option.map_eq_none_iff.1 hfind, gen, hstew, ← gen]
  | some c =>
    rw [hs] at hfind
    obtain ⟨c', ht, hc⟩ := Option.map_eq_some_iff.1 hfind
    rw [ht]
    exact congrArg (·.2.2.1) hc

end

/-- A SPLIT stage's batch whose lists are all delivered and that no lane holds leaves its merge for every successor. -/
theorem finishSplit_of_delivered {b : Batch} (hall : ∀ x ∈ batchLists s i b, (sh, i, b.num, x.1, x.2) ∈ s.shv.delivered)
    (hnone : ∀ p ∈ s.shv.stages, p.1 / 512 = sh → p.1 / 32 % 16 = i → ∀ y ∈ stageBatches p.2, y.num ≠ b.num) :
    (sh, i, b) ∉ (finishSplit sh i b s).shv.waitMerge ∧
    ∀ q ∈ sgSuccs (shStage (itemsDesc s sh b.items) i), StandsAt s (itemsDesc s sh b.items) sh q i b (finishSplit sh i b s) := by
  have hheld : laneHolds s sh i b.num = false := by
    refine List.any_eq_false.2 fun p hp hheld => ?_
    obtain ⟨hmem, hsheaf⟩ := List.mem_filter.1 hp
    obtain ⟨hstage, hany⟩ := Bool.and_eq_true_iff.1 hheld
    obtain ⟨y, hy, hnum⟩ := List.any_eq_true.1 hany
    exact hnone p hmem (by simpa using hsheaf) (by simpa using hstage) y hy (by simpa using hnum)
  have hlists : (batchLists s i b).all (fun x => s.shv.delivered.contains (sh, i, b.num, x.1, x.2)) = true :=
    List.all_eq_true.2 fun x hx => List.contains_iff_mem.2 (hall x hx)
  have hdone : splitDone s sh i b = true := by
    rw [splitDone, hlists, show ((sheafStages s sh).any fun p => p.1 / 32 % 16 == i && (stageBatches p.2).any fun x => x.num == b.num) = false
      from hheld]
    rfl
  rw [finishSplit, hdone, if_neg (by decide)]
  dsimp only
  constructor
  · rw [(deliverOn_feeds ..).waitMerge, (spends_spendCredit ..).shv]
    intro hmem
    have := (List.mem_filter.1 hmem).2
    simp at this
  · intro q hq
    refine standsAt_congr (standsAt_deliverOn sh b _ hq) ?_
    rw [(spends_spendCredit ..).shv]
    rfl

/-- A root list taken from the stook and delivered. -/
def rootTaken (sh i : Nat) (b : Batch) (m : StSlot) (s : State) : State :=
  s.onShv fun v => { v with
    rootOut := v.rootOut.filter fun y => !sameSlot m y
    delivered := v.delivered ++ [(sh, i, b.num, m.item, m.part)] }

/-- The command of a root list's item has taken it. -/
def rootMerged (sh i : Nat) (b : Batch) (m : StSlot) (s : State) : State :=
  modCmd (b.items.getD m.item {}).cmd (mergedInto (rootTaken sh i b m s) i (b.items.getD m.item {}).idx
    (i, (b.items.getD m.item {}).idx, m.part, (m.kids.map Prod.snd).headD {})) (rootTaken sh i b m s)

theorem formOf_rootMerged (b : Batch) (m : StSlot) (s : State) (j : Nat) :
    (cmdOf (rootMerged sh i b m s) j).map formOf = (cmdOf s j).map formOf := by
  by_cases hj : j = (b.items.getD m.item {}).cmd
  · subst hj
    rw [rootMerged, cmdOf_modCmd_same, Option.map_map]
    exact congrArg (fun f => (cmdOf s _).map f) (funext fun c => (mergedInto_facts ..).1)
  · exact congrArg (Option.map formOf) (tabGet_tabMod_other s.hif.cmds _ j _ hj)

theorem requestStaging_rootOut (sh : Nat) (b : Batch) (s : State) : (requestStaging sh b s).shv.rootOut = s.shv.rootOut := by
  unfold requestStaging
  refine List.foldlRecOn (motive := fun t : State => t.shv.rootOut = s.shv.rootOut) _ _ rfl fun t h k _ => ?_
  dsimp only
  split
  · exact h
  · exact h

theorem enterStage_rootOut (sh : Nat) (d : Bytes) (q src : Nat) (b : Batch) (s : State) :
    (enterStage sh d q src b s).shv.rootOut = s.shv.rootOut := by
  have hlanes : ∀ l : List Nat, (l.foldl (fun s k => feed (stKey sh q k) (src, b) s) s).shv.rootOut = s.shv.rootOut := fun l =>
    List.foldlRecOn (motive := fun t : State => t.shv.rootOut = s.shv.rootOut) l _ rfl fun _ h _ _ => h
  unfold enterStage
  dsimp only
  split
  · rw [requestStaging_rootOut]
    exact hlanes _
  · exact hlanes _

theorem finishSplit_kept (sh i : Nat) (b : Batch) (s : State) :
    (finishSplit sh i b s).shv.rootOut = s.shv.rootOut ∧ (finishSplit sh i b s).hif = s.hif := by
  have heff : Effect [.shv] true s (finishSplit sh i b s) := Effect.refl.finishSplit
  refine ⟨?_, heff.frame .hif (by decide)⟩
  unfold finishSplit
  split
  · rfl
  · refine List.foldlRecOn (motive := fun t : State => t.shv.rootOut = s.shv.rootOut) _ _ ?_ fun t h q _ => ?_
    · rw [(spends_spendCredit ..).shv]
      rfl
    · rw [enterStage_rootOut]
      exact h

theorem completes_stookRootDelivery {b : Batch} {m : StSlot} (hup : halted s = false)
    (hm : s.shv.rootOut.find? (fun m => m.sheaf == sh && m.stage == i) = some m)
    (hw : s.shv.waitMerge.find? (fun w => w.1 == sh && w.2.1 == i && w.2.2.num == m.num) = some (sh, i, b))
    (hcredit : rootCredit s sh (itemsDesc s sh b.items) i b.num = true) :
    Completes (.stookRootDelivery sh i) s (fun t =>
      t.shv.rootOut = s.shv.rootOut.filter (fun y => !sameSlot m y) ∧ Frame [.hif, .shv] s t ∧
      (∀ c, cmdOf s (b.items.getD m.item {}).cmd = some c → ∃ c', cmdOf t (b.items.getD m.item {}).cmd = some c' ∧
        (i, (b.items.getD m.item {}).idx, m.part, (m.kids.map Prod.snd).headD {}) ∈ c'.merged) ∧
      ((∀ x ∈ batchLists s i b, x = (m.item, m.part) ∨ (sh, i, b.num, x.1, x.2) ∈ s.shv.delivered) →
        (∀ p ∈ s.shv.stages, p.1 / 512 = sh → p.1 / 32 % 16 = i → ∀ y ∈ stageBatches p.2, y.num ≠ b.num) →
        (sh, i, b) ∉ t.shv.waitMerge ∧
        ∀ q ∈ sgSuccs (shStage (itemsDesc s sh b.items) i), StandsAt s (itemsDesc s sh b.items) sh q i b t)) := by
  have hexec : exec (.stookRootDelivery sh i) s = execStookRootDelivery sh i s := rfl
  rw [execStookRootDelivery, hm] at hexec
  dsimp only at hexec
  rw [hw] at hexec
  dsimp only at hexec
  rw [hcredit, if_neg (by decide)] at hexec
  have hstep : exec (.stookRootDelivery sh i) s = whileUp s (.next (finishSplit sh i b (rootMerged sh i b m s))) := hexec
  obtain ⟨hroot, hhif⟩ := finishSplit_kept sh i b (rootMerged sh i b m s)
  have heff : Effect [.hif, .shv] true s (finishSplit sh i b (rootMerged sh i b m s)) := by
    have htaken : Effect [.hif, .shv] true s (rootTaken sh i b m s) := Effect.refl.onShv
    exact (htaken.modCmd (n := (b.items.getD m.item {}).cmd) (f := mergedInto (rootTaken sh i b m s) i (b.items.getD m.item {}).idx
      (i, (b.items.getD m.item {}).idx, m.part, (m.kids.map Prod.snd).headD {}))).finishSplit
  have hlists := batchLists_congr (formOf_rootMerged (sh := sh) (i := i) b m s) rfl rfl i b
  have hdesc := itemsDesc_congr (formOf_rootMerged (sh := sh) (i := i) b m s) rfl sh b.items
  refine completes_of_up hup hstep ⟨_, rfl, hroot, frame_withDigests.2 heff.frame, fun c hc => ?_, fun hall hnone => ?_⟩
  · have hmod : cmdOf (rootMerged sh i b m s) (b.items.getD m.item {}).cmd = some (mergedInto (rootTaken sh i b m s) i
        (b.items.getD m.item {}).idx (i, (b.items.getD m.item {}).idx, m.part, (m.kids.map Prod.snd).headD {}) c) := by
      rw [rootMerged, cmdOf_modCmd_same, show cmdOf (rootTaken sh i b m s) _ = some c from hc]
      rfl
    exact ⟨_, (cmdOf_congr hhif _).trans hmod, (mergedInto_facts ..).2⟩
  · obtain ⟨hgone, hstands⟩ := finishSplit_of_delivered (s := rootMerged sh i b m s) (sh := sh) (i := i) (b := b) (fun x hx => by
      rw [hlists] at hx
      rcases hall x hx with rfl | h
      · exact List.mem_append_right _ (List.mem_singleton_self _)
      · exact List.mem_append_left _ h) hnone
    rw [hdesc] at hstands
    exact ⟨hgone, fun q hq => standsAt_congr (hstands q hq) rfl⟩

/-- Settles O58: the list of a leaf, the start and end of a merge, and the delivery of a root list. -/
theorem theStookMergesLists : Obligations.TheStookMergesLists :=
  ⟨fun _ _ _ _ _ _ _ hup hrun hsplit hpath hland hsend => completes_stookListArrival hup hrun hsplit hpath hland hsend,
   fun _ _ hup hidle hisl hready => completes_stookMergeStart hup hidle hisl hready,
   fun _ _ _ hup hm => ⟨fun heng => completes_stookRoot hup hm heng, fun heng _ hput => completes_stookUp hup hm heng hput⟩,
   fun _ _ _ _ _ hup hm hw hcredit => completes_stookRootDelivery hup hm hw hcredit⟩

end

end Sys2Proof.Proofs

/-! Tiller swaps, the staging of experts, and late experts (R52, R153 to R156). -/

namespace Sys2Proof.Proofs
open Sys2Proof Sys2Proof.Machine Sys2Proof.Safety

set_option Elab.async false

section
variable {s t : State} {tile x table sh i k : Nat}

/-! Tiller swaps. -/

/-- No batch starts on a tile whose swap is under way. -/
theorem not_startable_of_swapping {b : Batch} (hswap : (tabGet s.shv.swapping tile).isSome = true) (hb : startable s sh i k = some b) :
    sgBase (shStage (itemsDesc s sh b.items) i) + k ≠ tile := by
  intro htile
  rw [startable] at hb
  obtain ⟨-, hb⟩ := Option.ite_none_left_eq_some.1 hb
  have hcond := (Option.filter_eq_some_iff.1 hb).2
  dsimp only at hcond
  simp only [Bool.and_eq_true, htile] at hcond
  obtain ⟨⟨⟨-, hnone⟩, -⟩, -⟩ := hcond
  rw [Option.isNone_iff_eq_none.1 hnone] at hswap
  cases hswap

theorem completes_tillerSwapStart (hup : halted s = false) (hswap : tabGet s.shv.swapping tile = some x) (hx : x < 32)
    (hruns : tileRuns s tile = false) (hisl : islandUp s (tileIsland tile) = true) (htill : islandUp s 61 = true)
    (huse : x = 16 → tabGet s.shv.tillerUse (tile / 16) = none ∨ tabGet s.shv.tillerUse (tile / 16) = some tile) :
    Completes (.tillerSwapStart tile) s (fun t =>
      t.shv = { s.shv with swapping := tabSet s.shv.swapping tile (x + 32) } ∧ Frame [.shv] s t ∧
      ∀ sh i k b, startable t sh i k = some b → sgBase (shStage (itemsDesc t sh b.items) i) + k ≠ tile) := by
  have hexec : exec (.tillerSwapStart tile) s = execTillerSwapStart tile s := rfl
  have hfree : (decide (x = 16) && (tabGet s.shv.tillerUse (tile / 16)).any (· != tile)) = false := by
    by_cases h16 : x = 16
    · rcases huse h16 with h | h <;> rw [h] <;> simp
    · rw [decide_eq_false h16, Bool.false_and]
  rw [execTillerSwapStart, hswap] at hexec
  dsimp only at hexec
  rw [hruns, hisl, htill, hfree, decide_eq_false (Nat.not_le.2 hx), if_neg (by decide)] at hexec
  have heff : Effect [.shv] true s (s.onShv fun v => { v with swapping := tabSet v.swapping tile (x + 32) }) := Effect.refl.onShv
  refine completes_of_up hup hexec ⟨_, rfl, rfl, frame_withDigests.2 heff.frame, fun sh i k b hb => not_startable_of_swapping ?_ hb⟩
  exact Option.isSome_iff_exists.2 ⟨_, tabGet_tabSet_same s.shv.swapping tile (x + 32)⟩

theorem completes_tillerSwapComplete (hup : halted s = false) (hswap : tabGet s.shv.swapping tile = some x) (hx : 32 ≤ x)
    (hisl : islandUp s (tileIsland tile) = true) (htill : islandUp s 61 = true) :
    Completes (.tillerSwapComplete tile) s (fun t =>
      tabGet t.shv.swapping tile = none ∧ tabGet t.shv.slotOf tile = some (x - 32) ∧
      (x = 48 → tabGet t.shv.tillerUse (tile / 16) = some tile) ∧ t.shv.stages = s.shv.stages ∧ Frame [.shv, .rel] s t) := by
  have hexec : exec (.tillerSwapComplete tile) s = execTillerSwapComplete tile s := rfl
  rw [execTillerSwapComplete, hswap] at hexec
  dsimp only at hexec
  rw [hisl, htill, decide_eq_false (Nat.not_lt.2 hx), if_neg (by decide)] at hexec
  refine completes_within (claim := fun t => tabGet t.shv.swapping tile = none ∧ tabGet t.shv.slotOf tile = some (x - 32) ∧
      (x = 48 → tabGet t.shv.tillerUse (tile / 16) = some tile) ∧ t.shv.stages = s.shv.stages)
    (completes_of_up hup hexec ⟨_, rfl, tabGet_tabDel_same .., tabGet_tabSet_same .., fun h => ?_, rfl⟩)
    fun t heff ⟨h1, h2, h3, h4⟩ => ⟨h1, h2, h3, h4, heff.frame⟩
  exact (congrArg (fun u => tabGet u (tile / 16)) (if_pos h)).trans (tabGet_tabSet_same ..)

/-! Experts are staged. -/

/-- What reclaiming leaves: the copies that may not be freed, and all but the copies. -/
theorem reclaim_facts (cap need : Nat) (free : List (Nat × Bool × Nat × Nat)) (p : StagePool) :
    (reclaim cap need free p).pending = p.pending ∧ (reclaim cap need free p).pins = p.pins ∧
    ∀ c ∈ p.copies, (∀ f ∈ free, f.1 ≠ c.1) → c ∈ (reclaim cap need free p).copies := by
  induction free generalizing p with
  | nil => exact ⟨rfl, rfl, fun _ h _ => h⟩
  | cons f free ih =>
    rw [reclaim]
    split
    · exact ⟨rfl, rfl, fun _ h _ => h⟩
    · obtain ⟨h1, h2, h3⟩ := ih { p with copies := p.copies.filter fun x => x.1 != f.1 }
      refine ⟨h1, h2, fun c hc hfree => h3 c (List.mem_filter.2 ⟨hc, ?_⟩) fun g hg => hfree g (List.mem_cons_of_mem _ hg)⟩
      have := hfree f List.mem_cons_self
      simpa using this.symm

theorem mem_insertByTouch {l : List (Nat × Bool × Nat × Nat)} {c y : Nat × Bool × Nat × Nat}
    (h : y ∈ (l.takeWhile fun x => decide (x.2.2.2 ≤ c.2.2.2)) ++ c :: l.dropWhile fun x => decide (x.2.2.2 ≤ c.2.2.2)) : y = c ∨ y ∈ l := by
  rcases List.mem_append.1 h with h | h
  · exact .inr ((List.takeWhile_prefix _).subset h)
  · rcases List.mem_cons.1 h with h | h
    · exact .inl h
    · exact .inr ((List.dropWhile_suffix _).subset h)

/-- No copy of the objects wanted may be freed. -/
theorem not_mem_freeCopies {p : StagePool} {hs : List Nat} : ∀ c ∈ freeCopies p hs, c.1 ∉ hs := by
  unfold freeCopies
  refine List.foldlRecOn (motive := fun l : List (Nat × Bool × Nat × Nat) => ∀ c ∈ l, c.1 ∉ hs) _ _ (fun _ h => absurd h List.not_mem_nil)
    fun l hl c hc y hy => ?_
  rcases mem_insertByTouch hy with rfl | hy
  · have hcond := (List.mem_filter.1 hc).2
    intro hmem
    simp [hmem] at hcond
  · exact hl y hy

/-- The staging area of a table once a request is granted its space. -/
def grantedPool (s : State) (table : Nat) (r : Nat × Nat × Nat × Nat) (p2 : StagePool) : StagePool :=
  let us := requestUsers s table r
  let p := tabGetD s.shv.pools table {}
  let hs := keyObjs s (r.2.2.1, r.2.2.2, table)
  let new := hs.filter fun h => !p.copies.any fun c => c.1 == h
  { p2 with
    pending := p2.pending.erase r
    copies := (p2.copies.map fun c => if hs.contains c.1 then (c.1, c.2.1, c.2.2.1, now s) else c) ++
      new.map fun h => (h, false, objSize s h, now s)
    pins := if us.isEmpty then p2.pins else p2.pins ++ hs.map fun h => (h, pinKey r.1 r.2.1) }

/-- A request that is granted its space. -/
def stagingGranted (table need : Nat) (r : Nat × Nat × Nat × Nat) (pool : StagePool) (s : State) : State :=
  bucketCharge 2 (hTenant table) need ((token 0x07 36 0 2 r.1 (modPool table (fun _ => pool) s)).onShv fun v =>
    { v with lastGrant := tabSet v.lastGrant table r.1 })

theorem stagingGranted_shv (table need : Nat) (r : Nat × Nat × Nat × Nat) (pool : StagePool) (s : State) :
    (stagingGranted table need r pool s).shv =
      { s.shv with pools := tabSet s.shv.pools table pool, lastGrant := tabSet s.shv.lastGrant table r.1 } := by
  have hcharge : ∀ u : State, (bucketCharge 2 (hTenant table) need u).shv = u.shv := fun u => by
    have heff : Effect [.fab] true u (bucketCharge 2 (hTenant table) need u) := Effect.refl.bucketCharge
    exact heff.frame .shv (by decide)
  rw [stagingGranted, hcharge, State.onShv, token_shv]
  rfl

theorem completes_expertStagingGrant {r : Nat × Nat × Nat × Nat} (hup : halted s = false) (hr : nextStaging s table = some r)
    (hbucket : bucketOk s 2 (hTenant table) = true) (hisl : islandUp s 36 = true) :
    let p := tabGetD s.shv.pools table {}
    let us := requestUsers s table r
    let hs := keyObjs s (r.2.2.1, r.2.2.2, table)
    let need := ((hs.filter fun h => !p.copies.any fun c => c.1 == h).map (objSize s)).sum
    let cap := objSize s (xhStaging (exHeader s table (keyEpoch s us)))
    ((reclaim cap need (freeCopies p hs) p).copies.map fun x => x.2.2.1).sum + need ≤ cap →
    Completes (.expertStagingGrant table) s (fun t =>
      (∀ h ∈ hs, ∃ c ∈ (tabGetD t.shv.pools table {}).copies, c.1 = h) ∧
      (tabGetD t.shv.pools table {}).pending = p.pending.erase r ∧ tabGet t.shv.lastGrant table = some r.1 ∧
      (us ≠ [] → ∀ h ∈ hs, (h, pinKey r.1 r.2.1) ∈ (tabGetD t.shv.pools table {}).pins) ∧
      (us = [] → (tabGetD t.shv.pools table {}).pins = p.pins) ∧ Frame [.shv, .fab, .recd] s t) := by
  intro p us hs need cap hfit
  have hexec : exec (.expertStagingGrant table) s = execExpertStagingGrant table s := rfl
  rw [execExpertStagingGrant, hr] at hexec
  dsimp only at hexec
  rw [hbucket, hisl, decide_eq_false (Nat.not_lt.2 hfit), if_neg (by decide)] at hexec
  obtain ⟨hpending, hpins, hcopies⟩ := reclaim_facts cap need (freeCopies p hs) p
  have hshv : (stagingGranted table need r (grantedPool s table r (reclaim cap need (freeCopies p hs) p)) s).shv =
      { s.shv with pools := tabSet s.shv.pools table (grantedPool s table r (reclaim cap need (freeCopies p hs) p))
                   lastGrant := tabSet s.shv.lastGrant table r.1 } := stagingGranted_shv ..
  have hpool := tabGetD_tabSet_same s.shv.pools table (grantedPool s table r (reclaim cap need (freeCopies p hs) p)) {}
  refine completes_within (claim := fun t => t.shv =
      { s.shv with pools := tabSet s.shv.pools table (grantedPool s table r (reclaim cap need (freeCopies p hs) p))
                   lastGrant := tabSet s.shv.lastGrant table r.1 })
    (completes_of_up hup hexec ⟨_, rfl, hshv⟩) fun t heff ht => ?_
  rw [ht]
  dsimp only
  rw [hpool]
  refine ⟨fun h hh => ?_, congrArg (·.erase r) hpending, tabGet_tabSet_same .., fun hne h hh => ?_, fun hnil => ?_, heff.frame⟩
  · by_cases hold : p.copies.any fun c => c.1 == h
    · obtain ⟨c, hc, heq⟩ := List.any_eq_true.1 hold
      have heq' : c.1 = h := by simpa using heq
      have hkept := hcopies c hc fun f hf hfc => not_mem_freeCopies f hf (by rw [hfc, heq']; exact hh)
      have hin : hs.contains c.1 = true := List.contains_iff_mem.2 (heq' ▸ hh)
      exact ⟨(c.1, c.2.1, c.2.2.1, now s), List.mem_append_left _ (List.mem_map.2 ⟨c, hkept, if_pos hin⟩), heq'⟩
    · refine ⟨(h, false, objSize s h, now s), List.mem_append_right _ (List.mem_map.2 ⟨h, List.mem_filter.2 ⟨hh, ?_⟩, rfl⟩), rfl⟩
      exact Bool.not_eq_true' _ ▸ Bool.eq_false_iff.2 hold
  · have hfull : us.isEmpty = false := by simpa using hne
    exact (congrArg (fun l => (h, pinKey r.1 r.2.1) ∈ l) (if_neg (by rw [hfull]; decide))).mpr
      (List.mem_append_right _ (List.mem_map_of_mem hh))
  · have hempty : us.isEmpty = true := by rw [hnil]; rfl
    exact (if_pos hempty).trans hpins

/-- The copies of a staging area with one that is complete. -/
def copyComplete (handle now_ : Nat) (p : StagePool) : StagePool :=
  { p with copies := p.copies.map fun c => if c.1 = handle then (c.1, true, c.2.2.1, now_) else c }

theorem copyComplete_facts (handle now_ : Nat) (p : StagePool) :
    (∀ c ∈ (copyComplete handle now_ p).copies, c.1 = handle → c.2.1 = true) ∧
    (copyComplete handle now_ p).copies.map Prod.fst = p.copies.map Prod.fst := by
  constructor
  · intro c hc hh
    obtain ⟨c0, -, rfl⟩ := List.mem_map.1 hc
    by_cases h0 : c0.1 = handle
    · rw [if_pos h0]
    · rw [if_neg h0] at hh
      exact absurd hh h0
  · rw [copyComplete, List.map_map]
    refine List.map_congr_left fun c _ => ?_
    rw [Function.comp_apply]
    split <;> rfl

theorem completes_expertStagingComplete {handle : Nat} (hup : halted s = false) (hisl : islandUp s 36 = true)
    (hcopy : ∃ c ∈ (tabGetD s.shv.pools table {}).copies, c.1 = handle ∧ c.2.1 = false) :
    Completes (.expertStagingComplete table handle) s (fun t =>
      (∀ c ∈ (tabGetD t.shv.pools table {}).copies, c.1 = handle → c.2.1 = true) ∧
      (tabGetD t.shv.pools table {}).copies.map Prod.fst = (tabGetD s.shv.pools table {}).copies.map Prod.fst ∧
      SameBytes s t ∧ Frame [.obj, .shv] s t) := by
  have hexec : exec (.expertStagingComplete table handle) s = execExpertStagingComplete table handle s := rfl
  have hany : ((tabGetD s.shv.pools table {}).copies.any fun c => c.1 == handle && !c.2.1) = true := by
    obtain ⟨c, hc, hh, hf⟩ := hcopy
    exact List.any_eq_true.2 ⟨c, hc, by simp [hh, hf]⟩
  rw [execExpertStagingComplete] at hexec
  dsimp only at hexec
  rw [hany, hisl, if_neg (by decide)] at hexec
  have hstep : ∃ v, v.shv = s.shv ∧ exec (.expertStagingComplete table handle) s =
      whileUp s (.next (modPool table (copyComplete handle (now v)) v)) := by
    cases ho : objOf s handle with
    | none =>
      rw [ho] at hexec
      exact ⟨s, rfl, hexec⟩
    | some o =>
      rw [ho] at hexec
      have heff : Effect [.obj] true s (meterMove o (servingTier o) o.size false s) := Effect.refl.meterMove
      exact ⟨_, heff.frame .shv (by decide), hexec⟩
  obtain ⟨v, hv, hexec⟩ := hstep
  obtain ⟨hdone, hkeys⟩ := copyComplete_facts handle (now v) (tabGetD s.shv.pools table {})
  have hpool : tabGetD (modPool table (copyComplete handle (now v)) v).shv.pools table {} =
      copyComplete handle (now v) (tabGetD s.shv.pools table {}) :=
    (tabGetD_tabSet_same ..).trans (by rw [hv])
  refine completes_within (claim := fun t => tabGetD t.shv.pools table {} = copyComplete handle (now v) (tabGetD s.shv.pools table {}))
    (completes_of_up hup hexec ⟨_, rfl, hpool⟩) fun t heff ht => ?_
  rw [ht]
  exact ⟨hdone, hkeys, heff.bytes rfl, heff.frame⟩

/-! The expert that a stage reaches. -/

section
variable {b : Batch} {key : ExKey}

theorem ranEx_consumeKey (j num : Nat) (key : ExKey) (s : State) :
    (stageOf (consumeKey j num key s) j).ranEx = (stageOf s j).ranEx := by
  refine List.foldlRecOn (motive := fun t : State => (stageOf t j).ranEx = (stageOf s j).ranEx) _ _ rfl fun t h p _ => ?_
  rw [← h, dropRead]
  by_cases hj : j = p.2.stage
  · rw [hj, stageOf_modStage_same]
    rfl
  · rw [stageOf_modStage_other _ _ hj]
    rfl

theorem ite_token_shv (p : Prop) [Decidable p] (c i j w v : Nat) (s : State) : (if p then token c i j w v s else s).shv = s.shv := by
  split
  · exact token_shv ..
  · rfl

theorem completes_expertRuns (hup : halted s = false) (hrun : (stageOf s (stKey sh i k)).running = some b)
    (hnext : (batchKeys s b).find? (fun x => !(stageOf s (stKey sh i k)).ranEx.contains x) = some key)
    (hrole : sgRole (shStage (itemsDesc s sh b.items) i) = 6)
    (hisl : islandOn s (tileIsland (sgBase (shStage (itemsDesc s sh b.items) i) + k)) = true) (hpresent : keyPresent s key = true) :
    (keyRead s (stKey sh i k) b.num key = true → Completes (.expertReach sh i k) s (fun t =>
      (stageOf t (stKey sh i k)).ranEx = (stageOf s (stKey sh i k)).ranEx ++ [key] ∧ (stageOf t (stKey sh i k)).holdOn = none ∧
      Frame [.hif, .shv, .recd] s t)) ∧
    (keyRead s (stKey sh i k) b.num key = false → Completes (.expertReach sh i k) s (fun t =>
      (stageOf t (stKey sh i k)).ranEx = (stageOf s (stKey sh i k)).ranEx ∧ (stageOf t (stKey sh i k)).holdOn = none ∧
      Frame [.shv] s t)) := by
  have hexec : exec (.expertReach sh i k) s = execExpertReach sh i k s := rfl
  rw [execExpertReach] at hexec
  dsimp only at hexec
  rw [hrun] at hexec
  dsimp only at hexec
  rw [hnext] at hexec
  dsimp only at hexec
  rw [hrole, hisl, if_neg (by decide), if_pos hpresent] at hexec
  refine ⟨fun hread => ?_, fun hread => ?_⟩
  · rw [if_pos hread] at hexec
    have hran : (stageOf (consumeKey (stKey sh i k) b.num key (unpinExpert true sh b.num key
        (if shDeadlineOn (itemsDesc s sh b.items) then
          token 0x08 (tileIsland (sgBase (shStage (itemsDesc s sh b.items) i) + k)) (sgBase (shStage (itemsDesc s sh b.items) i) + k) 1 0 s
        else s))) (stKey sh i k)).ranEx = (stageOf s (stKey sh i k)).ranEx := by
      rw [ranEx_consumeKey]
      exact congrArg StageRt.ranEx (stageOf_congr (congrArg Shv.stages (ite_token_shv ..)) _)
    generalize consumeKey (stKey sh i k) b.num key _ = v at hexec hran
    have hstage := stageOf_modStage_same (stKey sh i k) (fun r => { r with ranEx := r.ranEx ++ [key], holdOn := none }) v
    refine completes_within (claim := fun t => (stageOf t (stKey sh i k)).ranEx = (stageOf s (stKey sh i k)).ranEx ++ [key] ∧
      (stageOf t (stKey sh i k)).holdOn = none) (completes_of_up hup hexec ⟨_, rfl, ?_, ?_⟩) fun t heff ⟨h1, h2⟩ => ⟨h1, h2, heff.frame⟩
    · rw [← hran]
      exact (congrArg StageRt.ranEx hstage :)
    · exact (congrArg StageRt.holdOn hstage :)
  · rw [hread, if_neg (by decide)] at hexec
    have heff : Effect [.shv] true s (modStage (stKey sh i k) (fun r => { r with holdOn := none }) s) := Effect.refl.modStage
    have hstage := stageOf_modStage_same (stKey sh i k) (fun r => { r with holdOn := none }) s
    refine completes_of_up hup hexec ⟨_, rfl, ?_, ?_, frame_withDigests.2 heff.frame⟩
    · exact (congrArg StageRt.ranEx hstage :)
    · exact (congrArg StageRt.holdOn hstage :)

end

/-! An expert that comes too late: its tokens take the fallback. -/

section
variable (hif : t.hif = s.hif) (hidx : t.idx = s.idx) (hobj : t.obj = s.obj)
include hidx hobj

theorem keyDesc_congr (key : ExKey) : keyDesc t key = keyDesc s key := by
  simp only [keyDesc, exDesc, tableRow, tableVer, versionAt, swapAt, objBytes, objOf, hidx, hobj]
  rfl

include hif in
theorem keyUsers_congr (b : Batch) (key : ExKey) : keyUsers t b key = keyUsers s b key := by
  simp only [keyUsers, batchSels, exKey, verTag, versionAt, cmdOf, hif, hidx]

end

theorem getElem?_listSet {α : Type} (l : List α) (j m : Nat) (y : α) :
    (listSet l j y)[m]? = if m = j then l[m]?.map fun _ => y else l[m]? := by
  induction l generalizing j m with
  | nil => simp [listSet]
  | cons a l ih =>
    cases j with
    | zero => cases m <;> simp [listSet]
    | succ j =>
      cases m with
      | zero => simp [listSet]
      | succ m =>
        have hm := ih j m
        simpa [listSet] using hm

/-- A selection whose runs of an expert take the fallback. -/
def fellBack (x fb : Nat) (y : Sel) : Sel := { y with runs := y.runs.map fun r => if r = x then fb else r, fell := true }

/-- A user of a late expert falls back. -/
def userFalls (j x fb : Nat) (s : State) (u : Nat × Nat) : State :=
  match cmdOf s u.1 with
  | none => s
  | some c => modStat j (fun t => { t with fallback := t.fallback + 1 })
      (modCmd u.1 (fun c' => { c' with sels := listSet c'.sels u.2 (fellBack x fb (c.sels.getD u.2 {})) }) s)

theorem userFalls_kept (j x fb : Nat) (s : State) (u : Nat × Nat) :
    (userFalls j x fb s u).idx = s.idx ∧ (userFalls j x fb s u).obj = s.obj ∧
    (userFalls j x fb s u).shv.stages = s.shv.stages := by
  unfold userFalls
  split <;> exact ⟨rfl, rfl, rfl⟩

theorem cmdOf_modCmd_other {n m : Nat} (h : m ≠ n) (f : Cmd → Cmd) (s : State) : cmdOf (modCmd n f s) m = cmdOf s m :=
  tabGet_tabMod_other s.hif.cmds n m f h

/-- The selection of a command, if there is such a command with that many. -/
def selAt (s : State) (u : Nat × Nat) : Option Sel := (cmdOf s u.1).bind fun c => c.sels[u.2]?

theorem selAt_userFalls (j x fb : Nat) (s : State) (u v : Nat × Nat) :
    selAt (userFalls j x fb s u) v = if v = u then (selAt s v).map (fellBack x fb) else selAt s v := by
  cases hc : cmdOf s u.1 with
  | none =>
    have hsame : userFalls j x fb s u = s := by rw [userFalls, hc]
    rw [hsame]
    split
    · next h => subst h; rw [selAt, hc]; rfl
    · rfl
  | some c =>
    have hcmd : ∀ m, cmdOf (userFalls j x fb s u) m = if m = u.1 then
        some { c with sels := listSet c.sels u.2 (fellBack x fb (c.sels.getD u.2 {})) } else cmdOf s m := fun m => by
      rw [userFalls, hc]
      dsimp only
      split
      · next h =>
        subst h
        refine (cmdOf_modCmd_same ..).trans ?_
        rw [hc]
        rfl
      · next h => exact cmdOf_modCmd_other h _ s
    obtain ⟨v1, v2⟩ := v
    obtain ⟨u1, u2⟩ := u
    rw [selAt, hcmd]
    by_cases h1 : v1 = u1
    · subst h1
      rw [if_pos rfl, Option.bind_some, getElem?_listSet, selAt, hc, Option.bind_some]
      by_cases h2 : v2 = u2
      · subst h2
        rw [if_pos rfl, if_pos rfl]
        cases hsel : c.sels[v2]? with
        | none => rfl
        | some y => rw [List.getD_eq_getElem?_getD, hsel]; rfl
      · rw [if_neg h2, if_neg (by simp [h2])]
    · rw [if_neg h1, if_neg (by simp [h1])]
      rfl

/-- The users of a late expert fall back, each in its own selection. -/
theorem foldl_userFalls (j x fb : Nat) (l : List (Nat × Nat)) (s : State) :
    let t := l.foldl (userFalls j x fb) s
    t.idx = s.idx ∧ t.obj = s.obj ∧ t.shv.stages = s.shv.stages ∧
    (l.Nodup → ∀ u ∈ l, selAt t u = (selAt s u).map (fellBack x fb)) ∧ (∀ u, u ∉ l → selAt t u = selAt s u) := by
  induction l generalizing s with
  | nil => exact ⟨rfl, rfl, rfl, fun _ _ h => absurd h List.not_mem_nil, fun _ _ => rfl⟩
  | cons a l ih =>
    obtain ⟨h1, h2, h3⟩ := userFalls_kept j x fb s a
    obtain ⟨g1, g2, g3, g4, g5⟩ := ih (userFalls j x fb s a)
    refine ⟨g1.trans h1, g2.trans h2, g3.trans h3, fun hnodup u hu => ?_, fun u hu => ?_⟩
    · obtain ⟨ha, hl⟩ := List.nodup_cons.1 hnodup
      rcases List.mem_cons.1 hu with rfl | hu
      · exact (g5 u ha).trans ((selAt_userFalls ..).trans (if_pos rfl))
      · have hne : u ≠ a := fun h => ha (h ▸ hu)
        exact (g4 hl u hu).trans (congrArg _ ((selAt_userFalls ..).trans (if_neg hne)))
    · rw [List.mem_cons, not_or] at hu
      exact (g5 u hu.2).trans ((selAt_userFalls ..).trans (if_neg hu.1))

theorem selAt_of_mem_keyUsers {b : Batch} {key : ExKey} {u : Nat × Nat} (hu : u ∈ keyUsers s b key) : (selAt s u).isSome = true := by
  obtain ⟨p, hp, rfl⟩ := List.mem_map.1 hu
  obtain ⟨it, -, hit⟩ := List.mem_filterMap.1 (List.mem_filter.1 hp).1
  obtain ⟨c, hc, hsel⟩ := Option.bind_eq_some_iff.1 hit
  obtain ⟨y, hy, rfl⟩ := Option.map_eq_some_iff.1 hsel
  rw [selAt, hc, Option.bind_some, hy]
  rfl

/-- Two folds agree when their steps do at every state that the second one reaches. -/
theorem foldl_eq_of_inv {α : Type} {f g : State → α → State} {P : State → Prop} (hfg : ∀ s a, P s → f s a = g s a)
    (hg : ∀ s a, P s → P (g s a)) {s : State} (h : P s) (l : List α) : l.foldl f s = l.foldl g s := by
  induction l generalizing s with
  | nil => rfl
  | cons a l ih => rw [List.foldl_cons, List.foldl_cons, hfg s a h, ih (hg s a h)]

theorem fallBack_eq (j : Nat) (b : Batch) (key : ExKey) (s : State) :
    fallBack j b key s = (keyUsers s b key).foldl (userFalls j key.1 (xdFallback (keyDesc s key))) s := by
  refine foldl_eq_of_inv (P := fun v => v.idx = s.idx ∧ v.obj = s.obj) (fun v u ⟨hidx, hobj⟩ => ?_) (fun v u ⟨hidx, hobj⟩ => ?_) ⟨rfl, rfl⟩ _
  · rw [userFalls]
    cases cmdOf v u.1 with
    | none => rfl
    | some c =>
      dsimp only
      rw [keyDesc_congr hidx hobj]
      rfl
  · obtain ⟨h1, h2, -⟩ := userFalls_kept j key.1 (xdFallback (keyDesc s key)) v u
    exact ⟨h1.trans hidx, h2.trans hobj⟩

/-- A stage whose late expert's users fall back: it holds no longer, and runs nothing it had not. -/
def fallsBack (num : Nat) (fbs : List ExKey) (r : StageRt) : StageRt :=
  { r with
    holdOn := none, ranEx := r.ranEx.filter fun x => !fbs.contains x
    streams := r.streams.map fun x => if x.num = num then { x with got := x.got.filter fun y => !fbs.contains y } else x }

theorem takesFallback_takeFallback {v : State} {b : Batch} {key : ExKey} (hv : Effect [.recd] true s v) :
    TakesFallback (stKey sh i k) b key s (withDigests s (takeFallback sh (stKey sh i k) b key v)) := by
  have hshv : v.shv = s.shv := hv.frame .shv (by decide)
  have hhif : v.hif = s.hif := hv.frame .hif (by decide)
  have hidx : v.idx = s.idx := hv.frame .idx (by decide)
  have hobj : v.obj = s.obj := hv.frame .obj (by decide)
  have hdef : ∃ fbs, takeFallback sh (stKey sh i k) b key v =
    modStage (stKey sh i k) (fallsBack b.num fbs) (fallBack (stKey sh i k) b key (unpinExpert false sh b.num key v)) := ⟨_, rfl⟩
  obtain ⟨fbs, hdef⟩ := hdef
  have hfold := foldl_userFalls (stKey sh i k) key.1 (xdFallback (keyDesc s key)) (keyUsers s b key) (unpinExpert false sh b.num key v)
  have hback : fallBack (stKey sh i k) b key (unpinExpert false sh b.num key v) =
      (keyUsers s b key).foldl (userFalls (stKey sh i k) key.1 (xdFallback (keyDesc s key))) (unpinExpert false sh b.num key v) := by
    rw [fallBack_eq, keyUsers_congr (s := s) (t := unpinExpert ..) hhif hidx hobj, keyDesc_congr (s := s) (t := unpinExpert ..) hidx hobj]
  rw [← hback] at hfold
  have heff : Effect [.hif, .shv, .recd] true s (takeFallback sh (stKey sh i k) b key v) :=
    ((Effect.refl (ps := [.hif, .shv, .recd]) (w := true)).extend (by decide) hv).takeFallback
  rw [hdef] at heff ⊢
  generalize fallBack (stKey sh i k) b key (unpinExpert false sh b.num key v) = w at *
  obtain ⟨-, -, hstages, hsels, -⟩ := hfold
  have hstage := stageOf_modStage_same (stKey sh i k) (fallsBack b.num fbs) w
  have hbefore : stageOf w (stKey sh i k) = stageOf s (stKey sh i k) :=
    stageOf_congr (hstages.trans (show v.shv.stages = s.shv.stages by rw [hshv])) _
  rw [hbefore] at hstage
  refine ⟨(congrArg StageRt.holdOn hstage :), fun x hx => ?_, fun hnodup u hu c hc => ?_, frame_withDigests.2 heff.frame⟩
  · have hx' : x ∈ (stageOf (modStage (stKey sh i k) (fallsBack b.num fbs) w) (stKey sh i k)).ranEx := hx
    rw [hstage] at hx'
    exact (List.mem_filter.1 hx').1
  · have hsel := hsels hnodup u hu
    have hsame : selAt (unpinExpert false sh b.num key v) u = selAt s u := by
      rw [selAt, cmdOf_congr (s := s) (t := unpinExpert ..) hhif, selAt]
    rw [hsame] at hsel
    obtain ⟨y, hy⟩ := Option.isSome_iff_exists.1 (selAt_of_mem_keyUsers hu)
    rw [hy, Option.map_some] at hsel
    obtain ⟨c', hc', hget⟩ := Option.bind_eq_some_iff.1 hsel
    rw [selAt, hc, Option.bind_some] at hy
    refine ⟨c', hc', ?_⟩
    rw [List.getD_eq_getElem?_getD, List.getD_eq_getElem?_getD, hget, hy]
    rfl

section
variable {b : Batch} {key : ExKey}

theorem completes_expertLate (hup : halted s = false) (hrun : (stageOf s (stKey sh i k)).running = some b)
    (hnext : (batchKeys s b).find? (fun x => !(stageOf s (stKey sh i k)).ranEx.contains x) = some key)
    (hrole : sgRole (shStage (itemsDesc s sh b.items) i) = 6)
    (hisl : islandOn s (tileIsland (sgBase (shStage (itemsDesc s sh b.items) i) + k)) = true) (hpresent : keyPresent s key = false) :
    (lateKey s (itemsDesc s sh b.items) (stageOf s (stKey sh i k)).startAt key = false →
      Completes (.expertReach sh i k) s (fun t =>
        (stageOf t (stKey sh i k)).ranEx = (stageOf s (stKey sh i k)).ranEx ∧
        (stageOf t (stKey sh i k)).holdOn = some key ∧ Frame [.shv] s t)) ∧
    (lateKey s (itemsDesc s sh b.items) (stageOf s (stKey sh i k)).startAt key = true →
      Completes (.expertReach sh i k) s (TakesFallback (stKey sh i k) b key s)) := by
  have hexec : exec (.expertReach sh i k) s = execExpertReach sh i k s := rfl
  rw [execExpertReach] at hexec
  dsimp only at hexec
  rw [hrun] at hexec
  dsimp only at hexec
  rw [hnext] at hexec
  dsimp only at hexec
  rw [hrole, hisl, if_neg (by decide), hpresent, if_neg (by decide)] at hexec
  refine ⟨fun hlate => ?_, fun hlate => ?_⟩
  · rw [hlate, if_neg (by decide)] at hexec
    have heff : Effect [.shv] true s (modStage (stKey sh i k) (fun r => { r with holdOn := some key }) s) := Effect.refl.modStage
    have hstage := stageOf_modStage_same (stKey sh i k) (fun r => { r with holdOn := some key }) s
    refine completes_of_up hup hexec ⟨_, rfl, ?_, ?_, frame_withDigests.2 heff.frame⟩
    · exact (congrArg StageRt.ranEx hstage :)
    · exact (congrArg StageRt.holdOn hstage :)
  · rw [if_pos hlate] at hexec
    exact completes_of_up hup hexec ⟨_, rfl, takesFallback_takeFallback (Effect.ite Effect.refl.token Effect.refl)⟩

theorem completes_expertDeadlineExpiry (hup : halted s = false) (hrun : (stageOf s (stKey sh i k)).running = some b)
    (hhold : (stageOf s (stKey sh i k)).holdOn = some key)
    (hisl : islandOn s (tileIsland (sgBase (shStage (itemsDesc s sh b.items) i) + k)) = true)
    (hlate : lateKey s (itemsDesc s sh b.items) (stageOf s (stKey sh i k)).startAt key = true) :
    Completes (.expertDeadlineExpiry sh i k) s (TakesFallback (stKey sh i k) b key s) := by
  have hexec : exec (.expertDeadlineExpiry sh i k) s = execExpertDeadlineExpiry sh i k s := rfl
  rw [execExpertDeadlineExpiry] at hexec
  dsimp only at hexec
  rw [hrun, hhold] at hexec
  dsimp only at hexec
  rw [hisl, hlate, if_pos (by decide)] at hexec
  exact completes_of_up hup hexec ⟨_, rfl, takesFallback_takeFallback Effect.refl.token⟩

end

/-- Settles O59: the swaps of tillers, the staging of experts, the expert a stage reaches and its deadline. -/
theorem tillersSwapAndExpertsAreStaged : Obligations.TillersSwapAndExpertsAreStaged :=
  ⟨⟨fun _ _ _ hup hswap hx hruns hisl htill huse => completes_tillerSwapStart hup hswap hx hruns hisl htill huse,
    fun _ _ _ hup hswap hx hisl htill => completes_tillerSwapComplete hup hswap hx hisl htill⟩,
   fun _ _ _ hup hr hbucket hisl hfit => completes_expertStagingGrant hup hr hbucket hisl hfit,
   fun _ _ _ hup hisl hcopy => completes_expertStagingComplete hup hisl hcopy,
   fun _ _ _ _ _ _ hup hrun hnext hrole hisl =>
     ⟨fun hpresent => (completes_expertRuns hup hrun hnext hrole hisl hpresent).1,
      fun hpresent => (completes_expertRuns hup hrun hnext hrole hisl hpresent).2,
      fun hpresent => (completes_expertLate hup hrun hnext hrole hisl hpresent).1,
      fun hpresent => (completes_expertLate hup hrun hnext hrole hisl hpresent).2⟩,
   fun _ _ _ _ _ _ hup hrun hhold hisl hlate => completes_expertDeadlineExpiry hup hrun hhold hisl hlate⟩

end

end Sys2Proof.Proofs

/-! The operations, results, substitutions and grants of culms (R172 to R192). -/

namespace Sys2Proof.Proofs
open Sys2Proof Sys2Proof.Machine Sys2Proof.Safety

set_option Elab.async false

section
variable {s t u : State} {k op : Nat} {o : COp}

/-! An operation ends. -/

theorem opEnds_endOp (k : Nat) (o : COp) (status : Nat) (data : Bytes) (h : u.stk = s.stk) :
    OpEnds k o status data s (withDigests s (endOp k o status data u)) := by
  have hculm : culmOf u k = culmOf s k := culmOf_congr h k
  have hend : culmOf (endOp k o status data u) k = { culmOf s k with
      queue := (culmOf s k).queue.drop 1, credit := (culmOf s k).credit + 1
      results := (culmOf s k).results ++ [(o.tag, if (culmOf s k).unserved then 0x0902 else status, data)] } := by
    rw [← hculm]
    exact culmOf_modCulm_same k (fun c => { c with
      queue := c.queue.drop 1, credit := c.credit + 1
      results := c.results ++ [(o.tag, if (culmOf u k).unserved then St.culmRetired else status, data)] }) u
  refine ⟨?_, ?_, ?_, fun j hj => ?_⟩
  · exact (congrArg Culm.queue hend :)
  · exact (congrArg Culm.credit hend :)
  · exact (congrArg Culm.results hend :)
  · rw [← h]
    exact tabGet_tabSet_other u.stk.culms k j _ hj

theorem poisonOp_stk (o : COp) (s : State) : (poisonOp o s).stk = s.stk := by
  have heff : Effect [.hif] true s (poisonOp o s) := Effect.refl.poisonOp
  exact heff.frame .stk (by decide)

theorem ite_poisonOp_stk (p : Prop) [Decidable p] (o : COp) (s : State) : (if p then poisonOp o s else s).stk = s.stk := by
  split
  · exact poisonOp_stk ..
  · rfl

theorem endOp_frame (status : Nat) (data : Bytes) : Frame [.stk] s (withDigests s (endOp k o status data s)) := by
  have heff : Effect [.stk] true s (endOp k o status data s) := Effect.refl.endOp
  exact frame_withDigests.2 heff.frame

theorem completes_culmScanOp (hup : halted s = false) (ho : (culmNext s k).filter (fun o => !inRange o.op 2 6) = some o) :
    (scanOk o = false → Completes (.culmScanOp k) s (fun t =>
      OpEnds k o 0x0102 (scanResult o.tag (fld o.body 0x20 4 % 2 ^ 20) 0x0102 ([], 0, 0, [])) s t ∧ Frame [.stk] s t)) ∧
    (scanOk o = true → Completes (.culmScanOp k) s (fun t =>
      (let st := if scanMeetsLost s o then 0x0701 else 0
       OpEnds k o st (scanResult o.tag (fld o.body 0x20 4 % 2 ^ 20) st (scanOf s o)) s t) ∧ Frame [.hif, .stk] s t)) := by
  have hexec : exec (.culmScanOp k) s = execCulmScanOp k s := rfl
  rw [execCulmScanOp, ho] at hexec
  dsimp only at hexec
  refine ⟨fun hok => ?_, fun hok => ?_⟩
  · rw [hok, if_pos (by decide)] at hexec
    exact completes_of_up hup hexec ⟨_, rfl, opEnds_endOp _ _ _ _ rfl, endOp_frame _ _⟩
  · rw [hok, if_neg (by decide)] at hexec
    have heff : Effect [.hif, .stk] true s (endOp k o (if scanMeetsLost s o then St.poison else 0)
      (scanResult o.tag (fld o.body 0x20 4 % 2 ^ 20) (if scanMeetsLost s o then St.poison else 0) (scanOf s o))
      (if scanMeetsLost s o then poisonOp o s else s)) := (Effect.ite Effect.refl.poisonOp Effect.refl).endOp
    exact completes_of_up hup hexec ⟨_, rfl, opEnds_endOp _ _ _ _ (ite_poisonOp_stk ..), frame_withDigests.2 heff.frame⟩

theorem completes_culmAttendOp (hup : halted s = false) (ho : culmHead s k 6 = some o) :
    (attendFormatsOk o = false → Completes (.culmAttendOp k) s (fun t => OpEnds k o 0x010A [] s t ∧ Frame [.stk] s t)) ∧
    (attendFormatsOk o = true → attendOk o.body = false → Completes (.culmAttendOp k) s (fun t =>
      OpEnds k o 0x0102 [] s t ∧ Frame [.stk] s t)) ∧
    (attendFormatsOk o = true → attendOk o.body = true → Completes (.culmAttendOp k) s (fun t =>
      OpEnds k o (if attendLost s o then 0x0701 else 0) (attendData s o) s t ∧ Frame [.hif, .stk] s t)) := by
  have hexec : exec (.culmAttendOp k) s = execCulmAttendOp k s := rfl
  rw [execCulmAttendOp, ho] at hexec
  dsimp only at hexec
  refine ⟨fun hf => ?_, fun hf hok => ?_, fun hf hok => ?_⟩
  · rw [hf, if_pos (by decide)] at hexec
    exact completes_of_up hup hexec ⟨_, rfl, opEnds_endOp _ _ _ _ rfl, endOp_frame _ _⟩
  · rw [hf, if_neg (by decide), hok, if_pos (by decide)] at hexec
    exact completes_of_up hup hexec ⟨_, rfl, opEnds_endOp _ _ _ _ rfl, endOp_frame _ _⟩
  · rw [hf, if_neg (by decide), hok, if_neg (by decide)] at hexec
    have heff : Effect [.hif, .stk] true s (endOp k o (if attendLost s o then St.poison else 0) (attendData s o)
      (if attendLost s o then poisonOp o s else s)) := (Effect.ite Effect.refl.poisonOp Effect.refl).endOp
    exact completes_of_up hup hexec ⟨_, rfl, opEnds_endOp _ _ _ _ (ite_poisonOp_stk ..), frame_withDigests.2 heff.frame⟩

/-! Element-wise operations write their destination and its scales. -/

section
variable {i off j a : Nat} {bytes : Bytes} {lost : List Nat}

theorem tabGet_modObj (i : Nat) (f : ObjRec → ObjRec) (s : State) (j : Nat) :
    tabGet (modObj i f s).obj.recs j = if j = i then (tabGet s.obj.recs j).map f else tabGet s.obj.recs j := by
  split
  · next h => subst h; exact tabGet_tabMod_same s.obj.recs j f
  · next h => exact tabGet_tabMod_other s.obj.recs i j f h

theorem tabGet_writeObj (i off : Nat) (bytes : Bytes) (lost : List Nat) (s : State) (j : Nat) :
    (tabGet (writeObj i off bytes lost s).obj.recs j).map ObjRec.mem =
      (tabGet s.obj.recs j).map fun o => if j = i then memWrite o.mem off bytes else o.mem := by
  rw [writeObj, tabGet_modObj]
  by_cases hj : j = i
  · rw [if_pos hj, Option.map_map]
    exact congrArg (fun f => (tabGet s.obj.recs j).map f) (funext fun o => (if_pos hj).symm)
  · rw [if_neg hj]
    exact congrArg (fun f => (tabGet s.obj.recs j).map f) (funext fun o => (if_neg hj).symm)

theorem objByte_eq (s : State) (i a : Nat) : objByte s i a = (((tabGet s.obj.recs i).map ObjRec.mem).map (memGet · a)).getD 0 := by
  rw [objByte]
  cases tabGet s.obj.recs i <;> rfl

/-- A write leaves every byte beside it. -/
theorem objByte_writeObj_beside (h : j = i → a < off ∨ off + bytes.length ≤ a) :
    objByte (writeObj i off bytes lost s) j a = objByte s j a := by
  rw [objByte_eq, tabGet_writeObj, objByte_eq, Option.map_map, Option.map_map]
  refine congrArg (fun f => ((tabGet s.obj.recs j).map f).getD 0) (funext fun o => ?_)
  rw [Function.comp_apply, Function.comp_apply]
  split
  · next hj =>
    rcases h hj with h | h
    · exact memGet_memWrite_before _ _ _ _ h
    · exact memGet_memWrite_after _ _ _ _ h
  · rfl

/-- A write to an object in canonical form is what is read of it. -/
theorem objByte_writeObj_in (hcanon : RecsCanonical s.obj) (hi : (tabGet s.obj.recs i).isSome = true) (hj : j < bytes.length) :
    objByte (writeObj i off bytes lost s) i (off + j) = bytes.getD j 0 := by
  obtain ⟨o, ho⟩ := Option.isSome_iff_exists.1 hi
  have hwf := (hcanon _ (mem_of_tabGet ho)).1
  rw [objByte_eq, tabGet_writeObj, ho, Option.map_some, Option.map_some, if_pos rfl, Option.getD_some,
    memGet_memWrite_in _ _ _ _ hwf hj, List.getD_eq_getElem?_getD, List.getElem?_eq_getElem hj, Option.getD_some]

theorem isSome_writeObj (h : (tabGet s.obj.recs j).isSome = true) : (tabGet (writeObj i off bytes lost s).obj.recs j).isSome = true := by
  have hmap := congrArg Option.isSome (tabGet_writeObj i off bytes lost s j)
  rw [Option.isSome_map, Option.isSome_map] at hmap
  rw [hmap, h]

end

/-- The two writes of an element-wise operation: its elements, and its scales where it generates any. -/
def ewWritten (d : EwArg) (r : Bytes × Bytes) (lost : List Nat × List Nat) (s : State) : State :=
  let s := writeObj (hIndex d.obj) d.off r.1 lost.1 s
  if r.2.isEmpty then s else writeObj (hIndex d.bran) d.soff r.2 lost.2 s

section
variable {d : EwArg} {r : Bytes × Bytes} {lost : List Nat × List Nat}

theorem writesTwo_ewWritten (d : EwArg) (r : Bytes × Bytes) (lost : List Nat × List Nat) (s : State) :
    WritesTwo (hIndex d.obj) d.off r.1.length (hIndex d.bran) d.soff r.2.length s (ewWritten d r lost s) := by
  intro j a h1 h2
  unfold ewWritten
  dsimp only
  split
  · exact objByte_writeObj_beside h1
  · rw [objByte_writeObj_beside h2, objByte_writeObj_beside h1]

theorem objByte_ewWritten (hcanon : RecsCanonical s.obj) (hne : hIndex d.bran ≠ hIndex d.obj)
    (hobj : (tabGet s.obj.recs (hIndex d.obj)).isSome = true) {j : Nat} (hj : j < r.1.length) :
    objByte (ewWritten d r lost s) (hIndex d.obj) (d.off + j) = r.1.getD j 0 := by
  unfold ewWritten
  dsimp only
  split
  · exact objByte_writeObj_in hcanon hobj hj
  · rw [objByte_writeObj_beside fun h => absurd h.symm hne, objByte_writeObj_in hcanon hobj hj]

theorem objByte_ewWritten_scales (hcanon : MemoriesCanonical s) (hobj : (tabGet s.obj.recs (hIndex d.bran)).isSome = true)
    {j : Nat} (hj : j < r.2.length) : objByte (ewWritten d r lost s) (hIndex d.bran) (d.soff + j) = r.2.getD j 0 := by
  have hne : r.2.isEmpty = false := by
    cases h : r.2 with
    | nil => rw [h] at hj; exact absurd hj (Nat.not_lt_zero j)
    | cons _ _ => rfl
  have heff : Effect [.obj] true s (writeObj (hIndex d.obj) d.off r.1 lost.1 s) := Effect.refl.writeObj
  unfold ewWritten
  dsimp only
  rw [if_neg (by rw [hne]; decide)]
  exact objByte_writeObj_in (heff.canonical hcanon).1 (isSome_writeObj hobj) hj

end

theorem ewWritten_effect (d : EwArg) (r : Bytes × Bytes) (lost : List Nat × List Nat) (s : State) :
    Effect [.hif, .obj, .shv] true s (ewWritten d r lost s) :=
  Effect.ite Effect.refl.writeObj Effect.refl.writeObj.writeObj

/-- The conversions are noted, and lost sources mark the operation's users. -/
theorem noted_effect (clean narrow : Bool) (o : COp) {w : State} (key : CvRec) (xs : List Machine.Num)
    (ys : List (Nat × Bool × Bool × Machine.Num)) :
    Effect [.hif, .shv] true w (if clean then (if narrow then noteConvert key xs ys w else w)
      else poisonOp o (if narrow then noteConvert key xs ys w else w)) :=
  Effect.ite (Effect.ite Effect.refl.noteConvert Effect.refl) (Effect.ite Effect.refl.noteConvert Effect.refl).poisonOp

theorem objByte_congr (h : t.obj = s.obj) (i a : Nat) : objByte t i a = objByte s i a := by
  rw [objByte, objByte, h]

theorem runsElementwise_of_exec {c : Instr} (hup : halted s = false) (hexec : exec c s = whileUp s (runElementwise op k s)) :
    RunsElementwise c op k s := by
  intro o ho
  rw [runElementwise, ho] at hexec
  dsimp only at hexec
  refine ⟨fun hf => ?_, fun hf hok => ?_, fun hf hok => ?_⟩
  · rw [hf, if_pos (by decide)] at hexec
    exact completes_of_up hup hexec ⟨_, rfl, opEnds_endOp _ _ _ _ rfl, endOp_frame _ _⟩
  · rw [hf, if_neg (by decide), hok, if_pos (by decide)] at hexec
    exact completes_of_up hup hexec ⟨_, rfl, opEnds_endOp _ _ _ _ rfl, endOp_frame _ _⟩
  · rw [hf, if_neg (by decide), hok, if_neg (by decide)] at hexec
    have hstep : ∃ lost v, v.obj = (ewWritten (ewArg o 2) ((ewResult s op o).1, (ewResult s op o).2.1) lost s).obj ∧
        Effect [.hif, .obj, .shv] true s v ∧ exec c s = whileUp s (.next (endOp k o 0 [] v)) := by
      have hnoted := noted_effect (lostDst s o (fld o.body 0x1C 4)).1.isEmpty (narrows (if op = 5 then (ewArg o 0).fmt else 1) (ewArg o 2).fmt) o
        (w := ewWritten (ewArg o 2) ((ewResult s op o).1, (ewResult s op o).2.1) (lostDst s o (fld o.body 0x1C 4)) s)
      exact ⟨lostDst s o (fld o.body 0x1C 4), _, (hnoted _ _ _).frame .obj (by decide),
        (ewWritten_effect (ewArg o 2) _ _ s).extend (by decide) (hnoted _ _ _), hexec⟩
    obtain ⟨lost, v, hobj, heff, hexec⟩ := hstep
    have hend : Effect [.hif, .obj, .shv, .stk] true s (endOp k o 0 [] v) :=
      ((Effect.refl (ps := [.hif, .obj, .shv, .stk]) (w := true)).extend (by decide) heff).endOp
    have hbyte : ∀ i a, objByte (withDigests s (endOp k o 0 [] v)) i a =
        objByte (ewWritten (ewArg o 2) ((ewResult s op o).1, (ewResult s op o).2.1) lost s) i a := fun i a => objByte_congr hobj i a
    refine completes_of_up hup hexec ⟨_, rfl, opEnds_endOp _ _ _ _ (heff.frame .stk (by decide)), fun j a h1 h2 => ?_,
      fun hcanon hne hget j hj => ?_, fun hcanon hget j hj => ?_, frame_withDigests.2 hend.frame⟩
    · rw [hbyte]
      exact writesTwo_ewWritten (ewArg o 2) ((ewResult s op o).1, (ewResult s op o).2.1) lost s j a h1 h2
    · rw [hbyte]
      exact objByte_ewWritten hcanon.1 hne hget hj
    · rw [hbyte]
      exact objByte_ewWritten_scales hcanon hget hj

/-! Results return. -/

/-- A status other than an access violation marks the command alone. -/
theorem markUser_of_ne {x : Nat × Nat} {st : Nat} (h : st ≠ St.accessViolation) (s : State) :
    markUser s (x, st) = modCmd x.1 (fun c => { c with viol := if c.viol = 0 then st else c.viol }) s := by
  rw [markUser]
  dsimp only
  cases cmdOf s x.1 with
  | none => rfl
  | some c => exact if_neg h

/-- A command whose violation is the first found. -/
def marked (st : Nat) (c : Cmd) : Cmd := { c with viol := if c.viol = 0 then st else c.viol }

theorem marked_marked (st : Nat) (c : Cmd) : marked st (marked st c) = marked st c := by
  unfold marked
  dsimp only
  split
  · split <;> rfl
  · rfl

/-- Every user of an operation is marked once. -/
theorem cmdOf_foldl_mark {st : Nat} (hst : st ≠ St.accessViolation) (l : List (Nat × Nat)) (s : State) (j : Nat) :
    cmdOf (l.foldl (fun s u => markUser s (u, st)) s) j =
      if j ∈ l.map Prod.fst then (cmdOf s j).map (marked st) else cmdOf s j := by
  induction l generalizing s with
  | nil => rfl
  | cons x l ih =>
    have hfirst : cmdOf (markUser s (x, st)) j = if j = x.1 then (cmdOf s j).map (marked st) else cmdOf s j := by
      rw [markUser_of_ne hst]
      split
      · next h => subst h; exact cmdOf_modCmd_same ..
      · next h => exact cmdOf_modCmd_other h _ s
    rw [List.foldl_cons, ih, hfirst]
    by_cases hj : j = x.1
    · have hmem : j ∈ (x :: l).map Prod.fst := List.mem_map.2 ⟨x, List.mem_cons_self, hj.symm⟩
      rw [if_pos hj, if_pos hmem, Option.map_map, show marked st ∘ marked st = marked st from funext (marked_marked st), ite_self]
    · simp only [if_neg hj, List.map_cons, List.mem_cons, or_iff_right hj]

theorem foldl_mark_effect {st : Nat} (hst : st ≠ St.accessViolation) (l : List (Nat × Nat)) (s : State) :
    Effect [.hif] false s (l.foldl (fun s u => markUser s (u, st)) s) :=
  Effect.refl.foldl fun v x h => by
    rw [markUser_of_ne hst]
    exact h.modCmd

/-- The users of a result that its status refuses are marked with it. -/
def resultMarked (a : AwnRd) (st : Nat) (s : State) : State :=
  if st = St.formatUnsupported || st = St.invalidField then a.users.foldl (fun s u => markUser s (u, st)) s else s

theorem resultMarked_facts (a : AwnRd) (st : Nat) (s : State) :
    Effect [.hif] false s (resultMarked a st s) ∧ liveUser (resultMarked a st s) = liveUser s ∧
    ((st = 0x010A ∨ st = 0x0102) → ∀ x ∈ a.users, ∀ c, cmdOf s x.1 = some c → c.viol = 0 →
      ∃ c', cmdOf (resultMarked a st s) x.1 = some c' ∧ c'.viol = st) := by
  unfold resultMarked
  by_cases hst : st = 0x010A ∨ st = 0x0102
  · have hne : st ≠ St.accessViolation := by rcases hst with rfl | rfl <;> decide
    have hif : (decide (st = St.formatUnsupported) || decide (st = St.invalidField)) = true := by rcases hst with rfl | rfl <;> decide
    rw [if_pos hif]
    refine ⟨foldl_mark_effect hne a.users s, funext fun x => ?_, fun _ x hx c hc hviol => ⟨marked st c, ?_, if_pos hviol⟩⟩
    · rw [liveUser, cmdOf_foldl_mark hne, liveUser]
      split
      · rw [Option.map_map]
        rfl
      · rfl
    · rw [cmdOf_foldl_mark hne, if_pos (List.mem_map_of_mem hx), hc]
      rfl
  · rw [not_or] at hst
    have hif : (decide (st = St.formatUnsupported) || decide (st = St.invalidField)) = false := by
      rw [decide_eq_false (show st ≠ St.formatUnsupported from hst.1), decide_eq_false (show st ≠ St.invalidField from hst.2)]
      rfl
    rw [hif, if_neg (by decide)]
    exact ⟨Effect.refl, rfl, fun h => absurd h (not_or.2 hst)⟩

theorem completes_culmResultReturn {r : Nat × Nat × Bytes} {rs : List (Nat × Nat × Bytes)} (hup : halted s = false)
    (hr : (culmOf s k).results = r :: rs) (hisl : islandUp s (culmIsland k) = true) :
    Completes (.culmResultReturn k) s (fun t =>
      (culmOf t k).results = rs ∧ (culmOf t k).queue = (culmOf s k).queue ∧
      (∀ a h, tabGet s.shv.reads r.1 = some a → a.husk = some h → tabGet t.shv.reads r.1 = none ∧
        (tabGet t.eng.husks h).map Husk.ops = (tabGet s.eng.husks h).map (fun x => x.ops - 1)) ∧
      (∀ a, tabGet s.shv.reads r.1 = some a → a.husk = none →
        (a.users.any (liveUser s) = true → ∃ a', tabGet t.shv.reads r.1 = some a' ∧ a'.landed = true) ∧
        (a.users.any (liveUser s) = false → tabGet t.shv.reads r.1 = none)) ∧
      (∀ a, tabGet s.shv.reads r.1 = some a → (r.2.1 = 0x010A ∨ r.2.1 = 0x0102) → ∀ u ∈ a.users, ∀ c, cmdOf s u.1 = some c →
        c.viol = 0 → ∃ c', cmdOf t u.1 = some c' ∧ c'.viol = r.2.1) ∧
      SameBytes s t ∧ Frame [.hif, .eng, .obj, .shv, .stk] s t) := by
  have hexec : exec (.culmResultReturn k) s = execCulmResultReturn k s := rfl
  rw [execCulmResultReturn, hr] at hexec
  dsimp only at hexec
  rw [hisl, if_neg (by decide)] at hexec
  have hculm := culmOf_modCulm_same k (fun u => { u with results := rs }) s
  have htaken : Effect [.hif, .eng, .obj, .shv, .stk] false s (modCulm k (fun u => { u with results := rs }) s) := Effect.refl.modCulm
  have hhif : (modCulm k (fun u => { u with results := rs }) s).hif = s.hif := rfl
  have hshv : (modCulm k (fun u => { u with results := rs }) s).shv = s.shv := rfl
  have heng : (modCulm k (fun u => { u with results := rs }) s).eng = s.eng := rfl
  generalize modCulm k (fun u => { u with results := rs }) s = v at *
  rw [hshv] at hexec
  cases ha : tabGet s.shv.reads r.1 with
  | none =>
    rw [ha] at hexec
    exact completes_of_up hup hexec ⟨_, rfl, congrArg Culm.results hculm, (congrArg Culm.queue hculm :),
      fun _ _ h => (Option.some_ne_none _ h.symm).elim, fun _ h => (Option.some_ne_none _ h.symm).elim,
      fun _ h => (Option.some_ne_none _ h.symm).elim, htaken.bytes rfl, frame_withDigests.2 htaken.frame⟩
  | some a =>
    rw [ha] at hexec
    obtain ⟨hmark, hlive, hviol⟩ := resultMarked_facts a r.2.1 v
    rw [liveUser_congr hhif] at hlive
    have hviol' : ∀ b, some a = some b → (r.2.1 = 0x010A ∨ r.2.1 = 0x0102) → ∀ x ∈ b.users, ∀ c, cmdOf s x.1 = some c →
        c.viol = 0 → ∃ c', cmdOf (resultMarked a r.2.1 v) x.1 = some c' ∧ c'.viol = r.2.1 := fun b hb hst x hx c hc =>
      hviol hst x (Option.some.inj hb ▸ hx) c ((cmdOf_congr hhif _).trans hc)
    have heff : Effect [.hif, .eng, .obj, .shv, .stk] false s (resultMarked a r.2.1 v) := htaken.extend (by decide) hmark
    have hmstk : (resultMarked a r.2.1 v).stk = v.stk := hmark.frame .stk (by decide)
    have hmshv : (resultMarked a r.2.1 v).shv = v.shv := hmark.frame .shv (by decide)
    have hmeng : (resultMarked a r.2.1 v).eng = v.eng := hmark.frame .eng (by decide)
    cases hh : a.husk with
    | some h =>
      have hexec : exec (.culmResultReturn k) s = whileUp s (.next (modHusk h (fun x => { x with ops := x.ops - 1 })
          ((a.pins.foldl (fun s k => dropPin k s) (resultMarked a r.2.1 v)).onShv fun w => { w with reads := tabDel w.reads r.1 }))) := by
        refine hexec.trans ?_
        dsimp only
        rw [hh]
        rfl
      have hdrop : Effect [.obj] false (resultMarked a r.2.1 v) (a.pins.foldl (fun s k => dropPin k s) (resultMarked a r.2.1 v)) :=
        Effect.refl.foldl fun _ _ h => h.dropPin
      generalize a.pins.foldl (fun s k => dropPin k s) (resultMarked a r.2.1 v) = w at hexec hdrop
      have hwstk : w.stk = v.stk := (hdrop.frame .stk (by decide)).trans hmstk
      have hweng : w.eng = s.eng := ((hdrop.frame .eng (by decide)).trans hmeng).trans heng
      have hall : Effect [.hif, .eng, .obj, .shv, .stk] false s (modHusk h (fun x => { x with ops := x.ops - 1 })
          (w.onShv fun z => { z with reads := tabDel z.reads r.1 })) := (heff.extend (by decide) hdrop).onShv.modHusk
      refine completes_of_up hup hexec ⟨_, rfl, congrArg Culm.results ((culmOf_congr hwstk k).trans hculm),
        (congrArg Culm.queue ((culmOf_congr hwstk k).trans hculm) :), fun b g hb hg => ?_, fun b hb hg => ?_, fun b hb hst x hx c hc h0 => ?_,
        hall.bytes rfl, frame_withDigests.2 hall.frame⟩
      · obtain rfl := Option.some.inj hb
        obtain rfl := Option.some.inj (hh.symm.trans hg)
        have hmod := congrArg (Option.map Husk.ops) (tabGet_tabMod_same w.eng.husks h fun x => { x with ops := x.ops - 1 })
        rw [Option.map_map] at hmod
        exact ⟨tabGet_tabDel_same .., hweng ▸ hmod⟩
      · obtain rfl := Option.some.inj hb
        exact absurd (hh.symm.trans hg) (Option.some_ne_none h)
      · obtain ⟨c', hc', hst'⟩ := hviol' b hb hst x hx c hc h0
        exact ⟨c', (cmdOf_congr (hdrop.frame .hif (by decide)) _).trans hc', hst'⟩
    | none =>
      have hexec : exec (.culmResultReturn k) s = whileUp s (.next (landOne false (resultMarked a r.2.1 v) r.1 a)) := by
        refine hexec.trans ?_
        dsimp only
        rw [hh]
        rfl
      obtain ⟨hreads, -, hkeep, -⟩ := landOne_facts false r.1 a (resultMarked a r.2.1 v)
      have hland : Effect [.hif, .obj, .shv] false (resultMarked a r.2.1 v) (landOne false (resultMarked a r.2.1 v) r.1 a) := Effect.refl.landOne
      rw [hlive, hmshv, hshv] at hreads
      generalize landOne false (resultMarked a r.2.1 v) r.1 a = w at hexec hreads hkeep hland
      have hwstk : w.stk = v.stk := (hland.frame .stk (by decide)).trans hmstk
      have hall := heff.extend (by decide) hland
      refine completes_of_up hup hexec ⟨_, rfl, congrArg Culm.results ((culmOf_congr hwstk k).trans hculm),
        (congrArg Culm.queue ((culmOf_congr hwstk k).trans hculm) :), fun b g hb hg => ?_, fun b hb _ => ⟨fun hl => ?_, fun hl => ?_⟩,
        fun b hb hst x hx c hc h0 => ?_, hall.bytes rfl, frame_withDigests.2 hall.frame⟩
      · obtain rfl := Option.some.inj hb
        exact absurd (hh.symm.trans hg).symm (Option.some_ne_none g)
      · obtain rfl := Option.some.inj hb
        rw [if_pos hl] at hreads
        refine ⟨{ a with
          landed := true
          pins := [] }, ?_, rfl⟩
        exact (congrArg (tabGet · r.1) hreads).trans ((tabGet_tabMod_same ..).trans (ha ▸ rfl))
      · obtain rfl := Option.some.inj hb
        rw [if_neg (by rw [hl]; decide)] at hreads
        exact (congrArg (tabGet · r.1) hreads).trans (tabGet_tabDel_same ..)
      · obtain ⟨c', hc', hst'⟩ := hviol' b hb hst x hx c hc h0
        exact ⟨c', (cmdOf_congr (hkeep rfl) _).trans hc', hst'⟩

/-! Spares and grants. -/

theorem completes_culmSubstitution (hup : halted s = false) (hheld : (culmOf s k).held = true) :
    Completes (.culmSubstitution k) s (fun t =>
      (culmOf t k).held = false ∧ (culmOf t k).queue = (culmOf s k).queue ∧
      (∀ x, (culmOf s k).back = some x ∨ ((culmOf s k).back = none ∧ freeSpare s (k % 8) = some x) →
        (culmOf t k).phys = x ∧ (culmOf t k).unserved = (culmOf s k).unserved) ∧
      ((culmOf s k).back = none → freeSpare s (k % 8) = none → (culmOf t k).unserved = true) ∧ Frame [.stk, .rel] s t) := by
  have hexec : exec (.culmSubstitution k) s = execCulmSubstitution k s := rfl
  rw [execCulmSubstitution] at hexec
  dsimp only at hexec
  rw [hheld, if_neg (by decide)] at hexec
  generalize hspare : ((culmOf s k).back <|> freeSpare s (k % 8)) = spare at hexec
  cases spare with
  | some y =>
    dsimp only at hexec
    have hculm := culmOf_modCulm_same k (fun u => { u with phys := y, held := false, back := none }) s
    have hchosen : ∀ x, (culmOf s k).back = some x ∨ ((culmOf s k).back = none ∧ freeSpare s (k % 8) = some x) → y = x := by
      rintro x (h | ⟨h, hf⟩)
      · rw [h] at hspare
        exact (Option.some.inj hspare).symm
      · rw [h, hf] at hspare
        exact (Option.some.inj hspare).symm
    refine completes_within (completes_of_up (claim := fun t => t = withDigests s _) hup hexec ⟨_, rfl, rfl⟩) fun t heff ht => ?_
    have ht : culmOf t k = _ := (congrArg (culmOf · k) ht).trans ((culmOf_congr rfl k).trans hculm)
    refine ⟨congrArg Culm.held ht, (congrArg Culm.queue ht :), fun x hx => ⟨(congrArg Culm.phys ht).trans (hchosen x hx), (congrArg Culm.unserved ht :)⟩,
      fun hb hf => ?_, heff.frame⟩
    rw [hb, hf] at hspare
    cases hspare
  | none =>
    dsimp only at hexec
    generalize ({
      kind := 3, cause := 0x22, unitKind := 3, island := culmIsland k, unit := k, physical := (culmOf s k).phys
      action := 2, spares := 0 } : Det) = d at hexec
    have hculm : culmOf (detect d (modCulm k (fun u => { u with unserved := true, held := false }) s)) k = {
        culmOf s k with unserved := true, held := false } :=
      (culmOf_congr (Effect.refl.detect.frame (ps := [.rel]) (w := true) .stk (by decide)) k).trans (culmOf_modCulm_same ..)
    refine completes_within (completes_of_up (claim := fun t => t = withDigests s _) hup hexec ⟨_, rfl, rfl⟩) fun t heff ht => ?_
    have ht : culmOf t k = _ := (congrArg (culmOf · k) ht).trans hculm
    refine ⟨congrArg Culm.held ht, (congrArg Culm.queue ht :), fun x hx => ?_, fun _ _ => congrArg Culm.unserved ht, heff.frame⟩
    rcases hx with h | ⟨h, hf⟩
    · rw [h] at hspare
      cases hspare
    · rw [h, hf] at hspare
      cases hspare

/-- A grant of the pseudo-channel to the waiting kinds: its bytes are counted on the side it serves. -/
def granted (kinds bytes : Nat) (u : Culm) : Culm :=
  let u := if u.waitSet = kinds then u else { u with waitSet := kinds, phyBytes := 0, culmBytes := 0, grants := 0 }
  let phy := kinds = 1 || (kinds = 3 && decide (3 * u.phyBytes ≤ 5 * u.culmBytes))
  { u with
    phyBytes := if phy then u.phyBytes + bytes else u.phyBytes
    culmBytes := if phy then u.culmBytes else u.culmBytes + bytes, grants := u.grants + 1 }

theorem granted_counts (kinds bytes : Nat) (u : Culm) :
    (let same := u.waitSet = kinds
     let p0 := if same then u.phyBytes else 0
     let c0 := if same then u.culmBytes else 0
     let phy := kinds = 1 ∨ (kinds = 3 ∧ 3 * p0 ≤ 5 * c0)
     (granted kinds bytes u).phyBytes = (if phy then p0 + bytes else p0) ∧
     (granted kinds bytes u).culmBytes = (if phy then c0 else c0 + bytes) ∧
     (granted kinds bytes u).grants = (if same then u.grants else 0) + 1 ∧ (granted kinds bytes u).waitSet = kinds) := by
  unfold granted
  by_cases h : u.waitSet = kinds <;> simp [h]

theorem completes_pseudoChannelGrant {kinds bytes : Nat} (hup : halted s = false) (h1 : 1 ≤ kinds) (h3 : kinds ≤ 3) :
    Completes (.pseudoChannelGrant k kinds bytes) s (fun t =>
      (let same := (culmOf s k).waitSet = kinds
       let p0 := if same then (culmOf s k).phyBytes else 0
       let c0 := if same then (culmOf s k).culmBytes else 0
       let phy := kinds = 1 ∨ (kinds = 3 ∧ 3 * p0 ≤ 5 * c0)
       (culmOf t k).phyBytes = (if phy then p0 + bytes else p0) ∧ (culmOf t k).culmBytes = (if phy then c0 else c0 + bytes) ∧
       (culmOf t k).grants = (if same then (culmOf s k).grants else 0) + 1 ∧ (culmOf t k).waitSet = kinds) ∧
      (∀ j, j ≠ k → tabGet t.stk.culms j = tabGet s.stk.culms j) ∧ Frame [.stk, .recd] s t) := by
  have hexec : exec (.pseudoChannelGrant k kinds bytes) s = execPseudoChannelGrant k kinds bytes s := rfl
  have hrange : (decide (kinds = 0) || decide (3 < kinds)) = false := by
    rw [decide_eq_false (by omega), decide_eq_false (by omega)]
    rfl
  rw [execPseudoChannelGrant, hrange, if_neg (by decide)] at hexec
  have hstk : ∀ (a b c d e : Nat) (v : State), (token a b c d e v).stk = v.stk := fun a b c d e v =>
    (Effect.refl (ps := [.recd]) (w := true)).token.frame .stk (by decide)
  refine completes_within (completes_of_up (claim := fun t => t.stk = (modCulm k (granted kinds bytes) s).stk) hup hexec
    ⟨_, rfl, hstk ..⟩) fun t heff ht => ⟨?_, fun j hj => ?_, heff.frame⟩
  · rw [culmOf_congr ht, culmOf_modCulm_same]
    exact granted_counts kinds bytes (culmOf s k)
  · rw [ht]
    exact tabGet_tabSet_other s.stk.culms k j (granted kinds bytes (culmOf s k)) hj

end

/-- Settles O60: an operation leaves the head of its culm's queue with the model's result under its tag, a result marks or lands its
read, and a grant counts its bytes on the side it serves. -/
theorem culmsRunReturnAndAreReplaced : Obligations.CulmsRunReturnAndAreReplaced := by
  unfold Obligations.CulmsRunReturnAndAreReplaced
  exact ⟨⟨fun _ _ _ => completes_culmScanOp, fun _ _ hup => runsElementwise_of_exec hup rfl,
      fun _ _ hup => runsElementwise_of_exec hup rfl, fun _ _ hup => runsElementwise_of_exec hup rfl,
      fun _ _ hup => runsElementwise_of_exec hup rfl, fun _ _ _ => completes_culmAttendOp⟩,
    fun _ _ _ _ => completes_culmResultReturn, fun _ _ => completes_culmSubstitution, fun _ _ _ _ => completes_pseudoChannelGrant⟩

end Sys2Proof.Proofs

/-! What the commands on host data share (chapters 04 and 06 to 08): the command that may run, its data recorded, its step done. -/

namespace Sys2Proof.Proofs
open Sys2Proof Sys2Proof.Machine Sys2Proof.Safety

set_option Elab.async false

variable {s : State} {n op : Nat} {c : Cmd}

/-- A command that may run is there, of its opcode, not yet run and without an outcome. -/
theorem of_readyCmd (h : readyCmd s n op = some c) :
    cmdOf s n = some c ∧ c.opcode = op ∧ c.ran = false ∧ c.result = none ∧ reachUp s op = true := by
  unfold readyCmd at h
  split at h
  · next x hx =>
    split at h
    · next hall =>
      simp only [Bool.and_eq_true, beq_iff_eq, Bool.not_eq_true', Option.isNone_iff_eq_none] at hall
      obtain ⟨⟨⟨⟨hop, hran⟩, -⟩, hres⟩, hreach⟩ := hall
      obtain rfl := Option.some.inj h
      exact ⟨hx, hop, hran, hres, hreach⟩
    · cases h
  · cases h

/-- The state with another recorder, and the digests that it has taken. -/
def withRec (r : Rec) (g : Dig) (s : State) : State := { s with recd := r, dig := g }

theorem putChunk_withRec (type stream : Nat) (b : Bytes) (s : State) : ∃ r g, putChunk type stream b s = withRec r g s := by
  unfold putChunk flushDigests
  split
  · exact ⟨_, s.dig, rfl⟩
  · exact ⟨_, _, rfl⟩

/-- Recording a command's data changes the recorder and its digests alone (R399). -/
theorem recordData_withRec (q cid : Nat) (b : Bytes) (p : Bool) (s : State) : ∃ r g, recordData q cid b p s = withRec r g s := by
  unfold recordData recordInput
  split
  · exact ⟨s.recd, s.dig, rfl⟩
  · split
    · exact putChunk_withRec ..
    · exact ⟨s.recd, s.dig, rfl⟩

/-- A command that has run as given: its row of the command table alone has changed. -/
theorem cmdOf_ran {t : State} {f : Cmd → Cmd} (hc : cmdOf s n = some c) (ht : t.hif = s.hif) : cmdOf (modCmd n f t) n = some (f c) := by
  rw [cmdOf_modCmd_same, cmdOf_congr ht, hc]
  rfl

end Sys2Proof.Proofs

/-! Gathers and elementwise commands (R162, R163, R180, R181). -/

namespace Sys2Proof.Proofs
open Sys2Proof Sys2Proof.Machine Sys2Proof.Safety

set_option Elab.async false

variable {s : State} {n : Nat} {c : Cmd}

/-- The outputs of a GATHER's bags, which no recording changes. -/
theorem bagOuts_gather {r : Rec} {g : Dig} {bags : List (List (Nat × Nat))} (hop : c.opcode = 0x32) :
    bagOuts (withRec r g s) { c with bags := bags } =
      bags.map (bagOut s (tableOf c.entry (roleEntry c.desc 5) 8) (cEpoch c) (byteAt (roleEntry c.desc 5) 0x29)) := by
  have htable : bagTable { c with bags := bags } = (tableOf c.entry (roleEntry c.desc 5) 8, byteAt (roleEntry c.desc 5) 0x29) :=
    if_neg (by rw [hop]; decide)
  rw [bagOuts, htable]
  rfl

theorem countDefaults_hif (table k : Nat) (s : State) : (countDefaults table k s).hif = s.hif :=
  (Effect.refl (ps := [.idx]) (w := false)).countDefaults.frame .hif (by decide)

theorem completes_gather {data : Bytes} (hup : halted s = false) (hc : readyCmd s n 0x32 = some c)
    (hoffs : 4 * (fld c.entry 4 2 + 1) ≤ fld c.entry 0x20 4)
    (hbad : bagsBad (fld c.entry 4 2) (fld (roleEntry c.desc 5) 0x2A 2) data = none)
    (hlen : (indexLayout (fld c.entry 4 2) ((bagOffsets (fld c.entry 4 2) data).getLastD 0) ((byteAt c.entry 1).testBit 1)).2.2 ≤
      fld c.entry 0x20 4)
    (hfit : let bags := bagsOf (fld c.entry 4 2) ((byteAt c.entry 1).testBit 1) data;
      ((bags.map fun b => (bagOut s (tableOf c.entry (roleEntry c.desc 5) 8) (cEpoch c) (byteAt (roleEntry c.desc 5) 0x29) b).1.length).sum ≤
          fld c.entry 0x24 4) ∧
        ∀ b ∈ bags, ∀ i < shStages c.desc, slotsHold (shStage c.desc i) [itemSizes s c.desc c.entry (cEpoch c) i b] = true) :
    Completes (.gather n data) s (fun t =>
      (∃ c', cmdOf t n = some c' ∧ c'.ran = true ∧ c'.result = none ∧
        c'.bags = bagsOf (fld c.entry 4 2) ((byteAt c.entry 1).testBit 1) data) ∧ Frame [.hif, .idx, .recd] s t) := by
  obtain ⟨hcmd, hop, -, hres, -⟩ := of_readyCmd hc
  obtain ⟨hsum, hslots⟩ := hfit
  have hexec : exec (.gather n data) s = execGather n data s := rfl
  have hrec : Effect [.hif, .idx, .recd] false s (recordData c.qp c.cid (slice data 0 (fld c.entry 0x20 4)) false s) := Effect.refl.recordData
  rw [execGather, hc] at hexec
  dsimp only at hexec
  rw [if_neg (Nat.not_lt.2 hoffs), hbad] at hexec
  dsimp only at hexec
  rw [bitOf, if_neg (Nat.not_lt.2 hlen)] at hexec
  obtain ⟨r, g, hrg⟩ := recordData_withRec c.qp c.cid (slice data 0 (fld c.entry 0x20 4)) false s
  rw [hrg] at hexec hrec
  rw [bagOuts_gather hop, if_neg, if_neg] at hexec
  · refine completes_of_up hup hexec ⟨_, rfl, ⟨_, cmdOf_ran hcmd (countDefaults_hif ..), rfl, hres, rfl⟩,
      frame_withDigests.2 hrec.countDefaults.modCmd.frame⟩
  · intro h
    obtain ⟨b, hb, hmore⟩ := List.any_eq_true.1 h
    obtain ⟨i, hi, hover⟩ := List.any_eq_true.1 hmore
    have hhold : slotsHold (shStage c.desc i) [itemSizes s c.desc c.entry (cEpoch c) i b] = true := hslots b hb i (List.mem_range.1 hi)
    exact absurd hhold (Bool.not_eq_true _ ▸ Bool.not_eq_true' _ ▸ hover)
  · rw [List.map_map]
    exact Nat.not_lt.2 hsum

/-- A husk that nothing refuses is formed by the command, which has then run (R105, R163). -/
theorem formUpdate_of_accepted {as : List Action} {t : State} (hcmd : cmdOf s n = some c) (hhusk : huskRefusal s c.tenant none = none)
    (hhif : t.hif = s.hif) (heng : t.eng = s.eng) :
    FormsHusk c.tenant (some n) none as s (formUpdate n c as t) ∧
      ∃ c', cmdOf (formUpdate n c as t) n = some c' ∧ c'.ran = true ∧ c'.result = none := by
  rw [formUpdate, (huskRefusal_congr heng _ _).trans hhusk]
  exact ⟨formsHusk_congr (formsHusk_formHusk (x := { tenant := c.tenant, actions := as, cmd := some n }) (s := ranWith n none t) rfl)
    heng.symm rfl, _, cmdOf_ran hcmd hhif, rfl, rfl⟩

/-- An element-wise command that nothing refuses forms its husk. -/
theorem completes_doElementwise {x : Instr} {op : Nat} (hup : halted s = false) (hexec : exec x s = whileUp s (doElementwise n op s))
    (hc : readyCmd s n 0x35 = some c) (hok : ewRefused s c.tenant c.entry = none) (hhusk : huskRefusal s c.tenant none = none)
    (hop : byteAt c.entry 1 = op) :
    Completes x s (fun t => FormsHusk c.tenant (some n) none
        [{ kind := 3, flags := 2, target := fld c.entry 0x18 8, len := rowBytes (objFormat s (fld c.entry 0x18 8)) (ewCount s c.entry) }] s t ∧
      (∃ c', cmdOf t n = some c' ∧ c'.ran = true ∧ c'.result = none) ∧ Frame [.hif, .eng] s t) := by
  rw [doElementwise, hc] at hexec
  dsimp only at hexec
  rw [hop, bne_self_eq_false, if_neg (by decide), hok] at hexec
  obtain ⟨hforms, hran⟩ := formUpdate_of_accepted (as := [{
    kind := 3, flags := 2, target := fld c.entry 0x18 8
    len := rowBytes (objFormat s (fld c.entry 0x18 8)) (ewCount s c.entry) }]) (of_readyCmd hc).1 hhusk rfl rfl
  have heff : ∀ as, Effect [.hif, .eng] false s (formUpdate n c as s) := fun as => by
    rw [formUpdate, hhusk]
    exact Effect.refl.ranWith.formHusk
  exact completes_of_up hup hexec ⟨_, rfl, hforms, hran, frame_withDigests.2 (heff _).frame⟩

/-- Settles O21: a gather in order has run on its bags, and each element-wise operation forms the husk of its destination's write. -/
theorem gathersAndElementwiseRun : Obligations.GathersAndElementwiseRun := by
  unfold Obligations.GathersAndElementwiseRun
  exact ⟨fun _ _ _ _ => completes_gather, fun _ _ _ hup hc hok hhusk => ⟨completes_doElementwise hup rfl hc hok hhusk,
    completes_doElementwise hup rfl hc hok hhusk, completes_doElementwise hup rfl hc hok hhusk,
    completes_doElementwise hup rfl hc hok hhusk⟩⟩

end Sys2Proof.Proofs

/-! EXPERT_CALL, GATE, MEMORY_LAYER and ATTENTION (R140 to R151, R166, R167, R182 to R188). -/

namespace Sys2Proof.Proofs
open Sys2Proof Sys2Proof.Machine Sys2Proof.Safety

set_option Elab.async false

variable {s t : State} {n : Nat} {c : Cmd} {data : Bytes}

/-- A command that may run on its data does so on the state that has recorded them (R399). -/
theorem onData_of_ready {op : Nat} {k : Cmd → State → State} (hc : readyCmd s n op = some c) :
    onData n op data s k = .next (k c (recordData c.qp c.cid data false s)) := by
  rw [onData, hc]

theorem length_tokenSels (c : Cmd) (gate : Bytes) (s : State) : (tokenSels s c gate).length = fld c.entry 4 2 := by
  rw [tokenSels, gateSels, List.length_map, List.length_range]

/-- Counting what the rows met changes the index alone. -/
theorem countRows_effect (c : Cmd) (table rows : Nat) (sels : List Sel) (s : State) :
    Effect [.idx] false s (countRows c table rows sels s) :=
  (Effect.ite Effect.refl Effect.refl.onIdx).countNans

/-- A command whose data is recorded and counted, and whose step is done. -/
theorem completes_ran {x : Instr} {f : Cmd → Cmd} {P : Cmd → Prop} {ps : List StatePart} (hup : halted s = false)
    (hcmd : cmdOf s n = some c) (hexec : exec x s = whileUp s (.next (modCmd n f t))) (heff : Effect ps false s t)
    (hps : .hif ∉ ps) (hran : P (f c)) :
    Completes x s (fun t => (∃ c', cmdOf t n = some c' ∧ P c') ∧ Frame (.hif :: ps) s t) := by
  refine completes_of_up hup hexec ⟨_, rfl, ⟨f c, cmdOf_ran hcmd (heff.frame .hif hps), hran⟩, frame_withDigests.2 ?_⟩
  exact ((Effect.refl (ps := .hif :: ps) (w := false)).extend (List.subset_cons_self ..) heff).modCmd
    (List.cons_subset_cons _ (List.nil_subset _)) |>.frame

theorem completes_expertCall {acts : Bytes} (hup : halted s = false) (hc : readyCmd s n 0x30 = some c) :
    Completes (.expertCall n data acts) s (fun t =>
      (∃ c', cmdOf t n = some c' ∧ c'.ran = true ∧ c'.sels.length = fld c.entry 4 2 ∧ c'.rows.length = fld c.entry 4 2 ∧
        c'.result = none) ∧ Frame [.hif, .idx, .recd] s t) := by
  obtain ⟨hcmd, -, -, hres, -⟩ := of_readyCmd hc
  have hexec : exec (.expertCall n data acts) s = execExpertCall n data acts s := rfl
  rw [execExpertCall, onData_of_ready hc] at hexec
  refine completes_ran hup hcmd hexec ((Effect.refl (ps := [.idx, .recd])).recordData.extend (by decide) (countRows_effect ..)) (by decide) ⟨rfl, ?_, ?_, hres⟩
  · exact length_tokenSels ..
  · exact (List.length_map ..).trans List.length_range

theorem completes_gate (hup : halted s = false) (hc : readyCmd s n 0x31 = some c) :
    Completes (.gate n data) s (fun t =>
      (∃ c', cmdOf t n = some c' ∧ c'.ran = true ∧ c'.sels.length = fld c.entry 4 2 ∧ c'.result = none) ∧
      Frame [.hif, .idx, .recd] s t) := by
  obtain ⟨hcmd, -, -, hres, -⟩ := of_readyCmd hc
  have hexec : exec (.gate n data) s = execGate n data s := rfl
  rw [execGate, onData_of_ready hc] at hexec
  exact completes_ran hup hcmd hexec ((Effect.refl (ps := [.idx, .recd])).recordData.extend (by decide) (countRows_effect ..)) (by decide) ⟨rfl, length_tokenSels .., hres⟩

theorem completes_memoryLayer (hup : halted s = false) (hc : readyCmd s n 0x33 = some c) :
    Completes (.memoryLayer n data) s (fun t =>
      (∃ c', cmdOf t n = some c' ∧ c'.ran = true ∧ c'.sels.length = fld c.entry 4 2 ∧ c'.bags = c'.sels.map Sel.slots ∧
        c'.result = none) ∧ Frame [.hif, .idx, .recd] s t) := by
  obtain ⟨hcmd, -, -, hres, -⟩ := of_readyCmd hc
  have hexec : exec (.memoryLayer n data) s = execMemoryLayer n data s := rfl
  rw [execMemoryLayer, onData_of_ready hc] at hexec
  refine completes_ran hup hcmd hexec (Effect.refl (ps := [.idx, .recd])).recordData.countNans.countDefaults (by decide) ⟨rfl, ?_, rfl, hres⟩
  exact (List.length_map ..).trans ((List.length_map ..).trans List.length_range)

theorem all_shardsUsed {len : Nat} {shards : List Bytes} {p : Bytes → Bool} :
    (shardsUsed len shards).all p = true ↔ ∀ x ∈ shards, fld x 4 4 < len → p x = true := by
  simp only [shardsUsed, List.all_eq_true, List.mem_filter, decide_eq_true_eq, and_imp]

/-- An attention whose shards its culms reach has one output row for each query. -/
theorem completes_attention (hup : halted s = false) (hc : readyCmd s n 0x34 = some c)
    (hplaced : ∀ x ∈ cacheShards s (fld c.entry 8 8) (cEpoch c), fld x 4 4 < fld c.entry 0x24 4 → shardPlaced s x = true) :
    Completes (.attention n data) s (fun t =>
      (∃ c', cmdOf t n = some c' ∧ c'.ran = true ∧ c'.rows.length = fld c.entry 4 2 ∧ c'.result = none) ∧
      Frame [.hif, .recd] s t) := by
  obtain ⟨hcmd, -, -, hres, -⟩ := of_readyCmd hc
  have hexec : exec (.attention n data) s = execAttention n data s := rfl
  obtain ⟨r, g, hrg⟩ := recordData_withRec c.qp c.cid data false s
  have hrec : Effect [.recd] false s (recordData c.qp c.cid data false s) := Effect.refl.recordData
  have hall : (shardsUsed (fld c.entry 0x24 4) (cacheShards (withRec r g s) (fld c.entry 8 8) (cEpoch c))).all
      (shardPlaced (withRec r g s)) = true := all_shardsUsed.2 hplaced
  rw [execAttention, onData_of_ready hc, hrg] at hexec
  rw [hrg] at hrec
  dsimp only at hexec
  rw [hall, if_neg (by decide)] at hexec
  exact completes_ran hup hcmd hexec hrec (by decide) ⟨rfl, (List.length_map ..).trans List.length_range, hres⟩

/-- A shard that no culm reaches ends an attention. -/
theorem completes_attention_of_unplaced {x : Bytes} (hup : halted s = false) (hc : readyCmd s n 0x34 = some c)
    (hx : x ∈ cacheShards s (fld c.entry 8 8) (cEpoch c)) (hlen : fld x 4 4 < fld c.entry 0x24 4) (hplace : shardPlaced s x = false) :
    Completes (.attention n data) s (fun t =>
      (∃ c', cmdOf t n = some c' ∧ c'.ran = true ∧ c'.result = some { status := 0x0901 }) ∧ Frame [.hif, .recd] s t) := by
  obtain ⟨hcmd, -, -, -, -⟩ := of_readyCmd hc
  have hexec : exec (.attention n data) s = execAttention n data s := rfl
  obtain ⟨r, g, hrg⟩ := recordData_withRec c.qp c.cid data false s
  have hrec : Effect [.recd] false s (recordData c.qp c.cid data false s) := Effect.refl.recordData
  have hall : (shardsUsed (fld c.entry 0x24 4) (cacheShards (withRec r g s) (fld c.entry 8 8) (cEpoch c))).all
      (shardPlaced (withRec r g s)) = false :=
    Bool.eq_false_iff.2 fun h => Bool.false_ne_true (hplace.symm.trans (all_shardsUsed.1 h x hx hlen))
  rw [execAttention, onData_of_ready hc, hrg] at hexec
  rw [hrg] at hrec
  dsimp only at hexec
  rw [hall, if_pos (by decide)] at hexec
  exact completes_ran hup hcmd hexec hrec (by decide) ⟨rfl, rfl⟩

/-! Outcomes, as the items leave. -/

/-- A command's outcome without a violation or an outcome of its step is that of its items. -/
theorem finalResult_of_items (hviol : c.viol = 0) (hres : c.result = none) (hop : c.opcode ≠ 0x20) : finalResult s c = itemsResult s c := by
  rw [finalResult, hviol, hres, bne_self_eq_false, if_neg (by decide)]
  exact if_neg hop

/-- Without lost rows no item of a command but an EXPERT_CALL's is bad. -/
theorem tokenBad_eq_false (hbad : c.bad = []) (hop : c.opcode ≠ 0x30) (i : Nat) (x : Sel) : tokenBad s c i x = false := by
  rw [tokenBad, hbad, beq_eq_false_iff_ne.2 hop]
  rfl

theorem badItems_eq_nil (hbad : c.bad = []) (hop : c.opcode ≠ 0x30) :
    ((List.range c.items).filter fun i => tokenBad s c i (c.sels.getD i {})) = [] :=
  List.filter_eq_nil_iff.2 fun i _ => by
    rw [tokenBad_eq_false hbad hop]
    decide

/-- Without lost rows the items of a command succeed, whole. -/
theorem itemsResult_of_whole (hbad : c.bad = []) (hop : c.opcode ≠ 0x30) :
    (itemsResult s c).status = 0 ∧ (itemsResult s c).count = c.items ∧ (itemsResult s c).addr = outAddr c ∧ (itemsResult s c).lost = [] := by
  unfold itemsResult
  dsimp only
  rw [badItems_eq_nil hbad hop]
  exact ⟨rfl, rfl, rfl, rfl⟩

theorem finalResult_gate (hviol : c.viol = 0) (hres : c.result = none) (hbad : c.bad = []) (hop : c.opcode = 0x31) :
    finalResult s c = {
      count := c.items, addr := fld c.entry 0x28 8
      bytes := (List.range c.items).flatMap fun i => selRecord true (expertK c.desc c.entry) { c.sels.getD i {} with poison := false } } := by
  have hcall : c.opcode ≠ 0x30 := by rw [hop]; decide
  have hitem : ∀ i, itemData s c i = selRecord true (expertK c.desc c.entry) { c.sels.getD i {} with poison := false } := fun i => by
    rw [itemData]
    dsimp only
    rw [if_neg hcall, if_pos hop, tokenBad_eq_false hbad hcall]
  rw [finalResult_of_items hviol hres (by rw [hop]; decide), itemsResult]
  dsimp only
  have hbags : ¬(decide (c.opcode = 0x32) || decide (c.opcode = 0x33)) = true := by rw [hop]; decide
  rw [badItems_eq_nil hbad hcall, funext hitem, outAddr, List.isEmpty_nil, if_pos rfl, if_neg hcall, if_neg hbags,
    if_neg (show c.opcode ≠ 0x33 by rw [hop]; decide), List.flatMap]
  rfl

/-- Settles O20: each row command has run with one selection or row for each token or query, and its items make its outcome. -/
theorem rowCommandsRunOnTheirRows : Obligations.RowCommandsRunOnTheirRows := by
  unfold Obligations.RowCommandsRunOnTheirRows
  refine ⟨fun _ _ _ _ _ => completes_expertCall, fun _ _ _ _ => completes_gate, fun _ _ _ _ => completes_memoryLayer,
    fun _ _ _ _ hup hc => ⟨completes_attention hup hc, fun _ => completes_attention_of_unplaced hup hc⟩,
    fun s c hviol hres hbad => ⟨finalResult_gate hviol hres hbad, fun hop => ?_, fun hop => ?_⟩⟩
  · rw [finalResult_of_items hviol hres (by rw [hop]; decide)]
    obtain ⟨hstatus, hcount, haddr, hlost⟩ := itemsResult_of_whole (s := s) hbad (by rw [hop]; decide)
    exact ⟨hstatus, hcount, by rw [haddr, outAddr, if_pos hop], hlost⟩
  · rw [finalResult_of_items hviol hres (by rw [hop]; decide)]
    obtain ⟨hstatus, hcount, haddr, hlost⟩ := itemsResult_of_whole (s := s) hbad (by rw [hop]; decide)
    exact ⟨hstatus, hcount, by rw [haddr, outAddr, if_neg (by rw [hop]; decide)], hlost⟩

end Sys2Proof.Proofs

/-! Searches and updates (R98 to R105). -/

namespace Sys2Proof.Proofs
open Sys2Proof Sys2Proof.Machine Sys2Proof.Safety

set_option Elab.async false

variable {s t : State} {n : Nat} {c : Cmd} {data d q : Bytes}

/-! What a search's stages leave of its command. -/

theorem withLists_fields (s : State) (d : Bytes) (ls : List (Nat × Nat × Bytes)) (c : Cmd) :
    let scan := scanLists s d (fld c.entry 4 2) (cEpoch c) (leNat (slice c.query (queryLayout s d).1 (coWidth d / 8))) (scanHow c) ls
    (withLists s d ls c).probe = ls ∧ (withLists s d ls c).ask = c.ask ∧
    (withLists s d ls c).cand = (winnowDeep c.piecewise false 0 (fld c.entry 0x0A 2) c.cls scan.1).hits ∧
    ∃ f, (withLists s d ls c).fan = some f ∧ f.chaff = scan.2.1 ∧ f.lists = scan.2.2.1 ∧
      f.mine.hits = (rerank s d (fld c.entry 4 2) (cEpoch c) c.cls (byteAt c.entry 6) (sgBase (roleEntry c.desc 4))
        (slice c.query (queryLayout s d).2.1 ((queryLayout s d).2.2 - (queryLayout s d).2.1)) (withLists s d ls c).cand).1.hits :=
  ⟨rfl, rfl, rfl, _, rfl, rfl, rfl, rfl⟩

theorem startSearch_cls (s : State) (d q : Bytes) (c : Cmd) : (startSearch s d q c).cls = c.cls := rfl

/-- Counting a search's dropped candidates changes one counter of the index, in Federation alone (R120). -/
theorem searchDrops_facts (x : Cmd) (s : State) :
    Effect [.idx] false s (searchDrops x s) ∧ (searchDrops x s).idx = { s.idx with nanDrops := (searchDrops x s).idx.nanDrops } ∧
    (x.cls ≠ 2 → (searchDrops x s).idx = s.idx) := by
  refine ⟨Effect.refl.countNans.countNans, ?_, fun h => ?_⟩
  · unfold searchDrops countNans
    dsimp only
    split <;> split <;> rfl
  · unfold searchDrops countNans
    simp [h]

/-- What a search leaves of its recorded query's state `u`: its command `x` with its stages computed, or the status of a list that may
not be scanned. -/
def searchDone (n : Nat) (c x : Cmd) (u : State) : Option Nat → Res
  | some b => .next (ranWith n (some (plain b)) (if b = St.accessViolation then countViolation c.tenant u else u))
  | none => .next (modCmd n (fun _ => { x with ran := true }) (searchDrops x u))

/-- A search of a known collection, in a row that fits, whose lists may be asked for: `x` is its command with its stages computed,
`u` the state with its query recorded. -/
theorem execSearch_of_started {x : Cmd} {u : State} (hc : readyCmd s n 0x20 = some c)
    (hcoll : collAt s (fld c.entry 4 2) (cEpoch c) = some d)
    (hrow : rowTooLong c.piecewise (centroidRowLen s d (roleEntry c.desc 1) c.cls (cEpoch c)
      (data.take (rowBytes (coarseWord s d) (coCoarseDims d) + scaleBytes (coarseWord s d) (coCoarseDims d)))) = false)
    (hx : startSearch s d (slice data 0 (queryLayout s d).2.2) c = x) (hu : recordData c.qp c.cid data false s = u)
    (hask : (byteAt c.entry 1).testBit 0 = true → x.ask = []) :
    execSearch n data s = whileUp s (searchDone n c x u (listsBad u c.tenant c.desc x.probe)) := by
  have hasked : ¬(bitOf (byteAt c.entry 1) 0 && !x.ask.isEmpty) = true := fun h => by
    obtain ⟨h1, h2⟩ := Bool.and_eq_true_iff.1 h
    rw [hask h1] at h2
    exact absurd h2 (by decide)
  rw [execSearch, hc]
  dsimp only
  rw [hcoll]
  dsimp only
  rw [hrow, if_neg (by decide), hx, if_neg hasked, hu]
  rfl

/-- Recording changes nothing of a search's lists. -/
theorem listsBad_record {u : State} (hu : recordData c.qp c.cid data false s = u) (tenant : Nat) (desc : Bytes) (ls : List (Nat × Nat × Bytes)) :
    listsBad u tenant desc ls = listsBad s tenant desc ls := by
  obtain ⟨r, g, hrg⟩ := recordData_withRec c.qp c.cid data false s
  rw [← hu, hrg]
  rfl

section
variable (hup : halted s = false) (hc : readyCmd s n 0x20 = some c)
include hup hc

theorem completes_search (hcoll : collAt s (fld c.entry 4 2) (cEpoch c) = some d)
    (hrow : rowTooLong c.piecewise (centroidRowLen s d (roleEntry c.desc 1) c.cls (cEpoch c)
      (data.take (rowBytes (coarseWord s d) (coCoarseDims d) + scaleBytes (coarseWord s d) (coCoarseDims d)))) = false)
    (hask : (byteAt c.entry 1).testBit 0 = true → (startSearch s d (slice data 0 (queryLayout s d).2.2) c).ask = [])
    (hlists : listsBad s c.tenant c.desc (startSearch s d (slice data 0 (queryLayout s d).2.2) c).probe = none) :
    Completes (.search n data) s (fun t =>
      cmdOf t n = some { startSearch s d (slice data 0 (queryLayout s d).2.2) c with ran := true } ∧
      (c.cls ≠ 2 → t.idx = s.idx) ∧ t.idx = { s.idx with nanDrops := t.idx.nanDrops } ∧ SameBytes s t ∧
      Frame [.hif, .idx, .recd] s t) := by
  have hcls := startSearch_cls s d (slice data 0 (queryLayout s d).2.2) c
  have hexec : exec (.search n data) s = execSearch n data s := rfl
  have hrec : Effect [.hif, .idx, .recd] false s (recordData c.qp c.cid data false s) := Effect.refl.recordData
  have hidx : (recordData c.qp c.cid data false s).idx = s.idx := recordData_idx ..
  have hhif : (recordData c.qp c.cid data false s).hif = s.hif := recordData_hif ..
  generalize hx : startSearch s d (slice data 0 (queryLayout s d).2.2) c = x at *
  generalize hu : recordData c.qp c.cid data false s = u at *
  rw [execSearch_of_started hc hcoll hrow hx hu hask, listsBad_record hu, hlists, searchDone] at hexec
  obtain ⟨hdrops, hnan, hsame⟩ := searchDrops_facts x u
  rw [hidx] at hnan hsame
  have hall := (hrec.extend (by decide) hdrops).modCmd (n := n) (f := fun _ => { x with ran := true })
  exact completes_of_up hup hexec ⟨_, rfl, cmdOf_ran (of_readyCmd hc).1 ((hdrops.frame .hif (by decide)).trans hhif),
    fun h => hsame (hcls ▸ h), hnan, hall.bytes rfl, frame_withDigests.2 hall.frame⟩

theorem completes_search_of_badList {st : Nat} (hcoll : collAt s (fld c.entry 4 2) (cEpoch c) = some d)
    (hrow : rowTooLong c.piecewise (centroidRowLen s d (roleEntry c.desc 1) c.cls (cEpoch c)
      (data.take (rowBytes (coarseWord s d) (coCoarseDims d) + scaleBytes (coarseWord s d) (coCoarseDims d)))) = false)
    (hask : (byteAt c.entry 1).testBit 0 = true → (startSearch s d (slice data 0 (queryLayout s d).2.2) c).ask = [])
    (hlists : listsBad s c.tenant c.desc (startSearch s d (slice data 0 (queryLayout s d).2.2) c).probe = some st) :
    Completes (.search n data) s (fun t => (∃ c', cmdOf t n = some c' ∧ c'.ran = true ∧ c'.result = some { status := st }) ∧
      SameBytes s t) := by
  have hexec : exec (.search n data) s = execSearch n data s := rfl
  have hrec : Effect [.hif, .rel, .recd] false s (recordData c.qp c.cid data false s) := Effect.refl.recordData
  have hhif : (recordData c.qp c.cid data false s).hif = s.hif := recordData_hif ..
  generalize hu : recordData c.qp c.cid data false s = u at *
  rw [execSearch_of_started hc hcoll hrow rfl hu hask, listsBad_record hu, hlists, searchDone] at hexec
  have heff : Effect [.hif, .rel, .recd] false s (if st = St.accessViolation then countViolation c.tenant u else u) :=
    Effect.ite hrec.countViolation hrec
  have hsame := (heff.ranWith (n := n) (r := some (plain st))).bytes rfl
  have hcmd : cmdOf (if st = St.accessViolation then countViolation c.tenant u else u) n = some c := by
    rw [← (of_readyCmd hc).1, ← cmdOf_congr hhif]
    split <;> rfl
  exact completes_of_up hup hexec ⟨_, rfl, ⟨_, (cmdOf_modCmd_same ..).trans (congrArg _ hcmd), rfl, rfl⟩, hsame⟩

theorem completes_search_of_unknown (hcoll : collAt s (fld c.entry 4 2) (cEpoch c) = none) :
    Completes (.search n data) s (fun t => Finishes n { status := 0x0601 } s t) := by
  have hexec : exec (.search n data) s = execSearch n data s := rfl
  rw [execSearch, hc] at hexec
  dsimp only at hexec
  rw [hcoll] at hexec
  dsimp only at hexec
  exact completes_of_up hup hexec ⟨_, rfl, s, (Effect.refl (w := false)).frame, rfl⟩

theorem completes_search_of_longRow (hcoll : collAt s (fld c.entry 4 2) (cEpoch c) = some d)
    (hrow : rowTooLong c.piecewise (centroidRowLen s d (roleEntry c.desc 1) c.cls (cEpoch c)
      (data.take (rowBytes (coarseWord s d) (coCoarseDims d) + scaleBytes (coarseWord s d) (coCoarseDims d)))) = true) :
    Completes (.search n data) s (fun t => Finishes n { status := 0x0205 } s t) := by
  have hexec : exec (.search n data) s = execSearch n data s := rfl
  rw [execSearch, hc] at hexec
  dsimp only at hexec
  rw [hcoll] at hexec
  dsimp only at hexec
  rw [hrow, if_pos rfl] at hexec
  exact completes_of_up hup hexec ⟨_, rfl, s, (Effect.refl (w := false)).frame, rfl⟩

end

/-! What a search computes. -/

/-- What the centroids select is probed, what the lists keep is selected, and the exact vectors of that are scored. -/
theorem startSearch_stages (s : State) (d q : Bytes) (c : Cmd) (hfan : ∀ f, c.fan = some f → f.slot = false) :
    let row := probePart s d (roleEntry c.desc 1) c.piecewise (seNprobe c) c.cls (cEpoch c)
      (q.take (rowBytes (coarseWord s d) (coCoarseDims d) + scaleBytes (coarseWord s d) (coCoarseDims d)))
    let scan := scanLists s d (fld c.entry 4 2) (cEpoch c) (leNat (slice q (queryLayout s d).1 (coWidth d / 8))) (scanHow c)
      (startSearch s d q c).probe
    (startSearch s d q c).probe = probeLists s d (cEpoch c) (row.hits.map Hit.payload) ∧
    (startSearch s d q c).ask = remoteOwners (startSearch s d q c).probe ∧
    (startSearch s d q c).cand = (winnowDeep c.piecewise false 0 (fld c.entry 0x0A 2) c.cls scan.1).hits ∧
    ∃ f, (startSearch s d q c).fan = some f ∧ f.chaff = scan.2.1 ∧ f.lists = scan.2.2.1 ∧
      f.mine.hits = (rerank s d (fld c.entry 4 2) (cEpoch c) c.cls (byteAt c.entry 6) (sgBase (roleEntry c.desc 4))
        (slice q (queryLayout s d).2.1 ((queryLayout s d).2.2 - (queryLayout s d).2.1)) (startSearch s d q c).cand).1.hits := by
  have hslot : (c.fan.getD {}).slot = false := by
    cases hf : c.fan with
    | none => rfl
    | some f => exact hfan f hf
  intro row scan
  obtain ⟨hprobe, hask, hcand, hmine⟩ := withLists_fields s d (probeLists s d (cEpoch c) (row.hits.map Hit.payload)) {
    c with
    query := q
    bad := if centroidLost s d (roleEntry c.desc 1) (cEpoch c) then [0] else []
    ask := if (c.fan.getD {}).slot then c.ask else remoteOwners (probeLists s d (cEpoch c) (row.hits.map Hit.payload))
    fan := some { c.fan.getD {} with nans := row.nan } }
  exact ⟨hprobe, hask.trans (if_neg (by rw [hslot]; decide)), hcand, hmine⟩

/-- With nothing lost and no list missing a search's outcome is its result block. -/
theorem finalResult_search {f : Fan} (hop : c.opcode = 0x20) (hviol : c.viol = 0) (hres : c.result = none) (hfan : c.fan = some f)
    (hbad : c.bad = []) (hmiss : f.missing = 0) : finalResult s c = {
      status := 0, count := f.mine.hits.length, addr := fld c.entry 0x28 8
      bytes := resultBlock (cEpoch c) f.lists f.chaff 0 c.cls f.fp ((byteAt c.entry 1).testBit 3) f.mine } := by
  rw [finalResult, hviol, hres, bne_self_eq_false, if_neg (by decide)]
  dsimp only
  rw [if_pos hop, searchResult, hfan, hbad]
  dsimp only [Option.getD_some]
  simp only [hmiss, bne_self_eq_false, Bool.false_and, List.isEmpty_nil, Bool.not_true, Bool.false_eq_true, if_false, if_true]
  rfl

/-! Updates. -/

theorem zipIdx_map_range {α : Type} (f : Nat → α) (k : Nat) : ((List.range k).map f).zipIdx = (List.range k).map fun i => (f i, i) :=
  List.ext_getElem (by simp) (by simp)

/-- The action of an update's record `i`. -/
def updateAction (coll flag width : Nat) (data : Bytes) (i : Nat) : Action where
  kind := 1
  flags := flag
  coll := coll
  len := width
  src := i * width
  target := fld (slice data (i * width) width) 0 8
  arg := fld (slice data (i * width) width) 8 4
  data := slice data (i * width) width

/-- A husk that nothing refuses changes the command, the engine and the recorder (R399). -/
theorem formUpdate_effect {as : List Action} (hhusk : huskRefusal s c.tenant none = none) (heff : Effect [.recd] false s t) :
    Effect [.hif, .eng, .recd] false s (formUpdate n c as t) := by
  rw [formUpdate, (huskRefusal_congr (heff.frame .eng (by decide)) _ _).trans hhusk]
  exact ((Effect.refl (ps := [.hif, .eng, .recd])).extend (by decide) heff).ranWith.formHusk

/-- A command whose data is recorded and whose husk is formed. -/
theorem completes_formUpdate {x : Instr} {as : List Action} {b : Bytes} (hup : halted s = false) (hcmd : cmdOf s n = some c)
    (hhusk : huskRefusal s c.tenant none = none)
    (hexec : exec x s = whileUp s (.next (formUpdate n c as (recordData c.qp c.cid b false s)))) :
    Completes x s (fun t => FormsHusk c.tenant (some n) none as s t ∧ (∃ c', cmdOf t n = some c' ∧ c'.ran = true ∧ c'.result = none) ∧
      Frame [.hif, .eng, .recd] s t) := by
  obtain ⟨hforms, hran⟩ := formUpdate_of_accepted (as := as) hcmd hhusk (recordData_hif c.qp c.cid b false s) (recordData_eng ..)
  exact completes_of_up hup hexec ⟨_, rfl, hforms, hran, frame_withDigests.2 (formUpdate_effect hhusk Effect.refl.recordData).frame⟩

theorem bne_or_eq_false {a b : Nat} (h : a = b ∨ b = 0) : (a != b && b != 0) = false := by
  rcases h with rfl | rfl
  · rw [bne_self_eq_false, Bool.false_and]
  · rw [bne_self_eq_false, Bool.and_false]

/-- An update of records that are in order forms its husk, one action a record. -/
theorem completes_doInsert {x : Instr} {upsert : Bool} (hup : halted s = false)
    (hexec : exec x s = whileUp s (doInsert n upsert data s)) (hc : readyCmd s n 0x21 = some c)
    (hcoll : collAt s (fld c.entry 4 2) s.eng.epoch = some d) (howner : coOwner d = c.tenant ∨ c.tenant = 0)
    (hlen : byteAt c.entry 6 * (recordLayout s d).2.2.2 ≤ fld c.entry 0x18 4)
    (hrecords : ∀ i < byteAt c.entry 6, recordBad (slice data (i * (recordLayout s d).2.2.2) (recordLayout s d).2.2.2) = none)
    (hhusk : huskRefusal s c.tenant none = none) (hflag : (byteAt c.entry 1).testBit 0 = upsert) :
    Completes x s (fun t =>
      FormsHusk c.tenant (some n) none
        ((List.range (byteAt c.entry 6)).map (updateAction (fld c.entry 4 2) (b2n upsert) (recordLayout s d).2.2.2 data)) s t ∧
      (∃ c', cmdOf t n = some c' ∧ c'.ran = true ∧ c'.result = none) ∧ Frame [.hif, .eng, .recd] s t) := by
  rw [doInsert, hc] at hexec
  dsimp only at hexec
  rw [bitOf, hflag, bne_self_eq_false, if_neg (by decide), hcoll] at hexec
  dsimp only at hexec
  rw [bne_or_eq_false howner, if_neg (by decide), if_neg (Nat.not_lt.2 hlen), zipIdx_map_range] at hexec
  have hgood : ((List.range (byteAt c.entry 6)).map fun i =>
      (slice data (i * (recordLayout s d).2.2.2) (recordLayout s d).2.2.2, i)).findSome?
        (fun r => (recordBad r.1).map (r.2 * (recordLayout s d).2.2.2 + ·)) = none := by
    simp only [List.findSome?_eq_none_iff, List.forall_mem_map, List.mem_range]
    exact fun i hi => by rw [hrecords i hi]; rfl
  rw [hgood] at hexec
  dsimp only at hexec
  rw [List.map_map] at hexec
  exact completes_formUpdate hup (of_readyCmd hc).1 hhusk hexec

theorem completes_delete (hup : halted s = false) (hc : readyCmd s n 0x22 = some c)
    (hcoll : collAt s (fld c.entry 4 2) s.eng.epoch = some d) (howner : coOwner d = c.tenant ∨ c.tenant = 0)
    (hhusk : huskRefusal s c.tenant none = none) :
    Completes (.delete n data) s (fun t =>
      FormsHusk c.tenant (some n) none ((List.range (byteAt c.entry 6)).map fun i => {
        kind := 2, flags := byteAt c.entry 1 % 2, coll := fld c.entry 4 2, target := fld data (8 * i) 8 }) s t ∧
      (∃ c', cmdOf t n = some c' ∧ c'.ran = true ∧ c'.result = none) ∧ Frame [.hif, .eng, .recd] s t) := by
  have hexec : exec (.delete n data) s = execDelete n data s := rfl
  rw [execDelete, hc] at hexec
  dsimp only at hexec
  rw [hcoll] at hexec
  dsimp only at hexec
  rw [bne_or_eq_false howner, if_neg (by decide)] at hexec
  exact completes_formUpdate hup (of_readyCmd hc).1 hhusk hexec

/-- Settles O19: a search in order holds what its stages compute and ends with its result block, the others end with their status, and
an update forms its husk. -/
theorem searchesRunAndUpdatesFormHusks : Obligations.SearchesRunAndUpdatesFormHusks := by
  unfold Obligations.SearchesRunAndUpdatesFormHusks
  exact ⟨⟨fun _ _ _ _ _ => completes_search, fun _ _ _ _ => completes_search_of_unknown, fun _ _ _ _ _ => completes_search_of_longRow,
      fun _ _ _ _ _ _ hup hc => completes_search_of_badList hup hc, startSearch_stages, fun _ _ _ => finalResult_search⟩,
    fun _ _ _ _ _ hup hc hcoll howner hlen hrecords hhusk =>
      ⟨completes_doInsert hup rfl hc hcoll howner hlen hrecords hhusk, completes_doInsert hup rfl hc hcoll howner hlen hrecords hhusk⟩,
    fun _ _ _ _ _ => completes_delete⟩

end Sys2Proof.Proofs
